-- ==== Sys2Proof/Word.lean ====
section
/-! DEFINITION. The word types of the Jelvo J20 model: bytes, 64-bit registers, and the two shapes of sparse
storage (a table of entries by number, and byte memory by address), as plain data. -/

namespace Sys2Proof

/-- One byte (R2). -/
abbrev Byte := BitVec 8

/-- A 64-bit register or scalar (R3, R76). -/
abbrev Word := BitVec 64

/-- A sparse table: keys strictly rising, and no entry equal to the value an absent key reads as. -/
abbrev Tbl (α : Type) := List (Nat × α)

/-- Byte memory: the cells of a table whose absent keys read as the zero byte. -/
abbrev Mem := Tbl Byte

end Sys2Proof
end

