-- ==== Sys2Proof/Syntax.lean ====
section
/-! DEFINITION. The commands of the Jelvo J20: one constructor of `Instr` for each row of spec/opcode_table.json,
with the row's operands. A command is a Kraif instruction that a context dispatches, an event of the device's own
engines and timers, a host, board or test-port access, or a flit or packet that arrives. -/

namespace Sys2Proof

/-- A program context: slice (R8), logical core within the slice (R13), context c0-c3 (R70). -/
structure CtxId where
  slice : Fin 8
  core : Fin 64
  ctx : Fin 4
deriving DecidableEq, Repr

/-- The operand fields D, A, B, MOD and IMM of an instruction word (R107). -/
structure Fields where
  d : Byte
  a : Byte
  b : Byte
  mod : BitVec 16
  imm : BitVec 16
deriving DecidableEq, Repr

/-- What a stack controller finds when it reads (R244, R245, R354, R357, R358): nothing, corrected words, one
uncorrectable word and `more` of the same granule, a failed tag check, an uncorrectable granule of the tag area, a bad counter node whose mirror
is good, or a node of the given level bad in both copies. `each e l` is a finding for each block in turn: `e` at the first block
of the access and `l` at those after it; any other finding is that of the first block, and the others find nothing. -/
inductive MemEvent where
  | ok
  | corrected (words : Nat)
  | uncorrectable (more : Nat)
  | tagFail
  | tagArea
  | nodeRepair (level : Nat) (mirror : Bool)
  | nodeLoss (level : Nat)
  | each (first rest : MemEvent)
deriving DecidableEq, Repr

/-- What the core's front end does with an instruction at its dispatch: the line is missing (R81); it is left in its
queue; or its engine takes it in the same step if R83 and R85 allow it (with what its memory reads find). -/
inductive Issue where
  | miss
  | enqueue
  | start (ev : MemEvent)
deriving DecidableEq, Repr

/-- The five issue queues (R82). -/
inductive Queue where
  | C | F | B | V | M
deriving DecidableEq, Repr

/-- What an instruction of a queue comes to (R83, R84): the head starts, or the k-th started one completes. -/
inductive Moment where
  | start
  | done (k : Nat)
deriving DecidableEq, Repr

/-- What another queue of a context brings about in the same cclk (R103), and what its memory reads find. -/
structure Coincide where
  queue : Queue
  moment : Moment
  ev : MemEvent
deriving DecidableEq, Repr

/-- An engine's choice (R83): the queue whose head it takes, what the memory reads of its start find, and what coincides with it. -/
structure StartOf where
  queue : Queue
  ev : MemEvent
  also : Option Coincide
deriving DecidableEq, Repr

/-- An instruction that completes: the k-th started one of its queue, and what coincides with it (R103). -/
structure DoneAt where
  k : Nat
  also : Option Coincide
deriving DecidableEq, Repr

/-- The result of a root's combining drain (R171): its context, and what the memory write of an evicted record finds. -/
structure DrainOf where
  ctx : CtxId
  ev : MemEvent
deriving DecidableEq, Repr

/-- A PCI Express function: port p and function i of it, i = 0 the management function (R442, R443). -/
structure Fn where
  port : Fin 2
  fn : Fin 16
deriving DecidableEq, Repr

/-- An accepted host command: the function and queue it came by, and its SEQ (R449). -/
structure CmdRef where
  fn : Fn
  queue : Nat
  seq : BitVec 48
deriving DecidableEq, Repr

/-- What a read of host memory returned: an error completion or time-out (R454), or its bytes. -/
structure HostData where
  ok : Bool
  bytes : List Byte
deriving DecidableEq, Repr

/-- The units with a status field whose read is held while they drain (R411). -/
inductive StatusUnit where
  | port (p : Fin 32)
  | queues (fn : Fn)
  | fence
  | socket (k : Fin 4)
deriving DecidableEq, Repr

/-- What the measures of R427 need that the device does not hold as state: the SRAM words corrected in the last 64 frames, for which the
spec gives no register and no event. -/
structure HealthIn where
  sramWords : Nat
deriving DecidableEq, Repr

/-- What a tick brings from outside the state: M, the average power of the frame just closed (R486), and the
measures of the health score (R427), and the sensors' readings (R500): the hottest die of each kind and stack as TEMP packs
them from COMPUTE down to HBM, and Tj; and what the writes of statistics records at the commits of the tick find (R232), one after
another. -/
structure TickIn where
  watts : Nat
  health : HealthIn
  temps : BitVec 40
  tj : Byte
  mem : MemEvent
  tjSrc : BitVec 16
  mainMv : BitVec 16
deriving DecidableEq, Repr

/-- How a PCI Express port's link came up (R466). -/
structure PcieLink where
  up : Bool
  flit : Bool
  width : BitVec 4
  rate : BitVec 4
deriving DecidableEq, Repr

/-- What self-test, training and the memory test of a boot found (R478, R479, R147, R247, R252): failed units, the halves of B
mapped out by core (64 n + c), the working channels of each stack, the stacks that answered, the failing rows of the memory test
(the stack, and the bank as 48 p + 16 SID + bank), the links of the two PCI Express ports, the time to Ready, and whether FREFCLK
runs (R525). -/
structure BootIn where
  badUnits : List (BitVec 16)
  badHalves : List (Nat × BitVec 2)
  pcie : List PcieLink
  chOk : List (BitVec 16)
  stackPresent : BitVec 16
  softRepairs : List (Nat × Nat)
  readyMs : BitVec 32
  frefclk : Bool
  mainMv : BitVec 16
  lateCommit : Bool
deriving DecidableEq, Repr

/-- A memory write's size in bytes, and what a boot finds where the write is the one that releases bring-up mode (R3, R481). -/
structure WriteSize where
  bytes : Nat
  boot : BootIn
deriving DecidableEq, Repr

/-- The control die that is declared failed (R471, R503): the active one, the standby, or each by the other. -/
inductive DieLoss where
  | active
  | standby
  | both
deriving DecidableEq, Repr

/-- A declaration of failure (R471-R473): the die, the ENROL or RESET that runs at the failover, and the operator key that an ENROL had
burned by then. -/
structure MissIn where
  lost : DieLoss
  running : Option CmdRef
  burned : Option (List Byte)
deriving DecidableEq, Repr

/-- What a MANIFEST command finds (R343): the manifest in host memory, and what training and the memory test of the gated slices that it
assigns find. -/
structure ManifestIn where
  host : HostData
  boot : BootIn
deriving DecidableEq, Repr

/-- A TDISP request (R366): STOP, or one of those that lead to RUN, or the device interface report. -/
inductive TdispMsg where
  | stop
  | lock (stream : Byte)
  | start
  | report
deriving DecidableEq, Repr

/-- A TDISP request to a function. -/
structure TdispReq where
  fn : Fn
  msg : TdispMsg
deriving DecidableEq, Repr

/-- A flit (R267, R268): its header fields, BODY and CRC, and the codewords whose reception it reports, each with its bad symbols and
whether it carries bytes of this flit. -/
structure Flit where
  seq : BitVec 16
  ack : BitVec 16
  cvc : BitVec 3
  cshared : Bool
  credits : BitVec 12
  start : BitVec 5
  typ : BitVec 4
  body : List Byte
  crc : BitVec 64
  codewords : List (Nat × Bool)
deriving DecidableEq, Repr

/-- A PROBE (R290, R291, R293): t1, the lowest candidate the sender knows with its hop count, an announced
change of P with its ftime, and the sender's P in µs (R22; DESIGN CHOICE, log entry 84). `frac` holds the 8 fraction bits that
the receiver's clock shows at reception. -/
structure ProbeMsg where
  t1 : Word
  frac : Byte
  candidate : Option (BitVec 16 × Nat)
  announce : Option (Nat × Word)
  period : BitVec 11
deriving DecidableEq, Repr

/-- A hello (R274). -/
structure HelloMsg where
  address : BitVec 16
  port : Byte
  flags : Byte
  ftime : Word
  nonce : List Byte
  peerNonce : List Byte
  identity : List Byte
  endorsement : List Byte
  signature : List Byte
deriving DecidableEq, Repr

/-- A link key exchange message (R362): the encapsulation key or ciphertext, T, the signature or MAC, and the first
flit number under the new keys. -/
structure KeyMsg where
  kem : List Byte
  digest : List Byte
  proof : List Byte
  firstFlit : Word
deriving DecidableEq, Repr

/-- A CTL flit that comes by a port (R268, R269): its ACK and credits, and the codewords whose reception it reports. Its CRC holds; the row
that it is given to says what it commands. -/
structure CtlRx where
  port : Fin 32
  ack : BitVec 16
  cvc : BitVec 3
  cshared : Bool
  credits : BitVec 12
  codewords : List (Nat × Bool)
deriving DecidableEq, Repr

/-- A flow (R283): the partition, the other device (or the multicast group), the class. -/
structure FlowKey where
  q : Fin 8
  peer : BitVec 16
  bestEffort : Bool
  mcast : Bool
deriving DecidableEq, Repr

/-- A packet (R282): its header fields and payload; LENGTH is the payload's length. -/
structure Pkt where
  dest : BitVec 16
  src : BitVec 16
  job : BitVec 16
  kind : Byte
  bestEffort : Bool
  mcast : Bool
  retx : Bool
  held : Bool
  hops : BitVec 4
  slot : BitVec 6
  status : Byte
  frame : BitVec 32
  seq : Word
  addr : Word
  payload : List Byte
deriving DecidableEq, Repr

/-- A packet as it comes by a link (R268, R282, R361): what it decrypts to, the SEQ of its first flit and START there, and its tag. -/
structure RxPkt where
  pkt : Pkt
  seq : BitVec 16
  start : BitVec 5
  tag : List Byte
deriving DecidableEq, Repr

/-- A contribution to a rebuild (R422): a packet that arrives, or this device's own as a survivor, which is due to `dest` for a symbol of a
group of a partition's job, with the symbols lost, chunk by chunk. -/
inductive Contribution where
  | arrived (a : RxPkt)
  | due (q : Fin 8) (job : BitVec 16) (group : BitVec 16) (dest : BitVec 16) (symbol : Byte) (lost : BitVec 32) (chunk : Nat)
deriving DecidableEq, Repr

/-- The head of a vendor-defined SPDM request (R385): Standard ID, vendor ID, and the code that begins its payload. -/
structure VendorHdr where
  standard : BitVec 16
  vendor : BitVec 16
  code : Byte
deriving DecidableEq, Repr

/-- An SPDM request that no other row carries (R385): its request code, and the head of one that is vendor-defined. -/
structure SpdmOther where
  code : Byte
  vendor : Option VendorHdr
deriving DecidableEq, Repr

/-- A link key exchange message as it comes (R361-R363): what it says, and the packets that brought it, which an ACTIVE port checks. -/
structure KeyRx where
  msg : KeyMsg
  parts : List RxPkt
deriving DecidableEq, Repr

/-- A packet whose delivery may write memory, and what its memory accesses find. -/
structure RxFind where
  rx : RxPkt
  ev : MemEvent
deriving DecidableEq, Repr

/-- A bucket whose node closes (R319), and what the memory accesses of a delivery find. -/
structure BucketAt where
  bucket : BitVec 16
  ev : MemEvent
deriving DecidableEq, Repr

/-- How a write to a laser module ends (R509, R511, R516): done, failed on the bus, or abandoned because the module raises its interrupt. -/
inductive BusEnd where
  | done | failed | interrupted
deriving DecidableEq, Repr

/-- An hourly write to the module of a socket, and how it ends. -/
structure LifeIn where
  socket : Fin 4
  bus : BusEnd
deriving DecidableEq, Repr

/-- A laser module's memory map as read (R505). -/
structure ModuleMap where
  id : List Byte
  eqHours : BitVec 32
  biasStart : BitVec 16
  biasNow : BitVec 16
  biasNom : BitVec 16
  temp : Byte
  status : Byte
  response : List Byte
deriving DecidableEq, Repr

/-- The commands, one constructor for each row of the table. -/
inductive Instr where
  /-- NOP (R117). Scalar no-operation instruction. -/
  | nop (c : CtxId) (f : Fields) (i : Issue)
  /-- S_ADD (R117). Adds two scalars, or a scalar and the sign-extended immediate, with wrap. -/
  | sAdd (c : CtxId) (f : Fields) (i : Issue)
  /-- S_SUB (R117). Subtracts scalars with wrap. -/
  | sSub (c : CtxId) (f : Fields) (i : Issue)
  /-- S_AND (R117). Bitwise and of scalars. -/
  | sAnd (c : CtxId) (f : Fields) (i : Issue)
  /-- S_OR (R117). Bitwise or of scalars. -/
  | sOr (c : CtxId) (f : Fields) (i : Issue)
  /-- S_XOR (R117). Bitwise exclusive or of scalars. -/
  | sXor (c : CtxId) (f : Fields) (i : Issue)
  /-- S_SHL (R117). Shifts a scalar left. -/
  | sShl (c : CtxId) (f : Fields) (i : Issue)
  /-- S_SHR (R117). Shifts a scalar right, logically. -/
  | sShr (c : CtxId) (f : Fields) (i : Issue)
  /-- S_SRA (R117). Shifts a scalar right, arithmetically. -/
  | sSra (c : CtxId) (f : Fields) (i : Issue)
  /-- S_MUL (R117). Writes the low 64 bits of a scalar product. -/
  | sMul (c : CtxId) (f : Fields) (i : Issue)
  /-- S_MULH (R117). Writes the high 64 bits of the signed 128-bit product. -/
  | sMulh (c : CtxId) (f : Fields) (i : Issue)
  /-- S_DIV (R118). Signed division truncated toward zero, with defined results for zero and overflow. -/
  | sDiv (c : CtxId) (f : Fields) (i : Issue)
  /-- S_LI (R117). Loads the sign-extended immediate into a scalar. -/
  | sLi (c : CtxId) (f : Fields) (i : Issue)
  /-- S_INS (R117). Inserts the immediate into one 16-bit field of a scalar. -/
  | sIns (c : CtxId) (f : Fields) (i : Issue)
  /-- S_SLT (R117). Sets a scalar to 1 if the signed comparison holds. -/
  | sSlt (c : CtxId) (f : Fields) (i : Issue)
  /-- S_SLTU (R117). Sets a scalar to 1 if the unsigned comparison holds. -/
  | sSltu (c : CtxId) (f : Fields) (i : Issue)
  /-- S_LD (R117). Loads 8 bytes from local or cluster memory into a scalar. -/
  | sLd (c : CtxId) (f : Fields) (i : Issue)
  /-- S_ST (R117). Stores a scalar to local or cluster memory. -/
  | sSt (c : CtxId) (f : Fields) (i : Issue)
  /-- S_REM (R118). Signed remainder with the sign of the dividend. -/
  | sRem (c : CtxId) (f : Fields) (i : Issue)
  /-- S_SYS (R119). Reads a system value selected by the immediate, clearing LANE_SAT for selector 9. -/
  | sSys (c : CtxId) (f : Fields) (i : Issue)
  /-- BR (R117). Branches relative to the PC and links. -/
  | br (c : CtxId) (f : Fields) (i : Issue)
  /-- BEQ (R117). Branches if two scalars are equal. -/
  | beq (c : CtxId) (f : Fields) (i : Issue)
  /-- BNE (R117). Branches if two scalars differ. -/
  | bne (c : CtxId) (f : Fields) (i : Issue)
  /-- BLT (R117). Branches on signed less-than. -/
  | blt (c : CtxId) (f : Fields) (i : Issue)
  /-- BGE (R117). Branches on signed greater-or-equal. -/
  | bge (c : CtxId) (f : Fields) (i : Issue)
  /-- BLTU (R117). Branches on unsigned less-than. -/
  | bltu (c : CtxId) (f : Fields) (i : Issue)
  /-- JR (R117). Jumps to a register target and links. -/
  | jr (c : CtxId) (f : Fields) (i : Issue)
  /-- ILLEGAL_OPCODE (R110). An unassigned or privileged opcode is dispatched and faults with 0x01 or 0x02. -/
  | illegalOpcode (c : CtxId) (op : Byte)
  /-- MMF_BI8 (R120). Forward BI8 tile product accumulated into an accumulator tile on F. -/
  | mmfBi8 (c : CtxId) (f : Fields) (i : Issue)
  /-- MMF_BI4 (R120). Forward BI4 tile product on F. -/
  | mmfBi4 (c : CtxId) (f : Fields) (i : Issue)
  /-- MMF_BI16X8 (R120). Forward BI16 by BI8 tile product on F. -/
  | mmfBi16x8 (c : CtxId) (f : Fields) (i : Issue)
  /-- MMF_BI16 (R120). Forward BI16 tile product on F. -/
  | mmfBi16 (c : CtxId) (f : Fields) (i : Issue)
  /-- MMBX_BI8 (R120). Input-gradient product dY times W transposed in BI8 on B. -/
  | mmbxBi8 (c : CtxId) (f : Fields) (i : Issue)
  /-- MMBX_BI4 (R120). Input-gradient product in BI4 on B. -/
  | mmbxBi4 (c : CtxId) (f : Fields) (i : Issue)
  /-- MMBX_BI16X8 (R120). Input-gradient product in BI16 by BI8 on B. -/
  | mmbxBi16x8 (c : CtxId) (f : Fields) (i : Issue)
  /-- MMBX_BI16 (R120). Input-gradient product in BI16 on B. -/
  | mmbxBi16 (c : CtxId) (f : Fields) (i : Issue)
  /-- MMBW_BI8 (R120). Weight-gradient product X transposed times dY in BI8 on B. -/
  | mmbwBi8 (c : CtxId) (f : Fields) (i : Issue)
  /-- MMBW_BI4 (R120). Weight-gradient product in BI4 on B. -/
  | mmbwBi4 (c : CtxId) (f : Fields) (i : Issue)
  /-- MMBW_BI16X8 (R120). Weight-gradient product in BI16 by BI8 on B. -/
  | mmbwBi16x8 (c : CtxId) (f : Fields) (i : Issue)
  /-- MMBW_BI16 (R120). Weight-gradient product in BI16 on B. -/
  | mmbwBi16 (c : CtxId) (f : Fields) (i : Issue)
  /-- ACC_ZERO (R125). Initialises and binds an accumulator tile from the F queue. -/
  | accZero (c : CtxId) (f : Fields) (i : Issue)
  /-- ACC_ZERO_B (R125). Initialises and binds an accumulator tile from the B queue. -/
  | accZeroB (c : CtxId) (f : Fields) (i : Issue)
  /-- ACC_DRAIN (R126). Drains an accumulator tile from the F queue, folding, fusing and narrowing every element. -/
  | accDrain (c : CtxId) (f : Fields) (i : Issue)
  /-- ACC_DRAIN_B (R126). Drains an accumulator tile from the B queue. -/
  | accDrainB (c : CtxId) (f : Fields) (i : Issue)
  /-- ACC_MAX (R168). Element-wise maximum with winner index into an accumulator tile, F queue. -/
  | accMax (c : CtxId) (f : Fields) (i : Issue)
  /-- ACC_MAX_B (R168). Element-wise maximum with winner index, B queue. -/
  | accMaxB (c : CtxId) (f : Fields) (i : Issue)
  /-- ACC_MIN (R168). Element-wise minimum with winner index, F queue. -/
  | accMin (c : CtxId) (f : Fields) (i : Issue)
  /-- ACC_MIN_B (R168). Element-wise minimum with winner index, B queue. -/
  | accMinB (c : CtxId) (f : Fields) (i : Issue)
  /-- VADD (R128). Lane-wise saturating addition. -/
  | vadd (c : CtxId) (f : Fields) (i : Issue)
  /-- VSUB (R128). Lane-wise saturating subtraction. -/
  | vsub (c : CtxId) (f : Fields) (i : Issue)
  /-- VMUL (R128). Lane-wise saturated multiplication. -/
  | vmul (c : CtxId) (f : Fields) (i : Issue)
  /-- VMULSH (R128). Lane-wise exact product narrowed by a shift. -/
  | vmulsh (c : CtxId) (f : Fields) (i : Issue)
  /-- VMAX (R128). Lane-wise maximum with NaR rule. -/
  | vmax (c : CtxId) (f : Fields) (i : Issue)
  /-- VMIN (R128). Lane-wise minimum with NaR rule. -/
  | vmin (c : CtxId) (f : Fields) (i : Issue)
  /-- VABS (R128). Lane-wise magnitude. -/
  | vabs (c : CtxId) (f : Fields) (i : Issue)
  /-- VNEG (R128). Lane-wise negation. -/
  | vneg (c : CtxId) (f : Fields) (i : Issue)
  /-- VAND (R128). Lane-wise bitwise and. -/
  | vand (c : CtxId) (f : Fields) (i : Issue)
  /-- VOR (R128). Lane-wise bitwise or. -/
  | vor (c : CtxId) (f : Fields) (i : Issue)
  /-- VXOR (R128). Lane-wise bitwise exclusive or. -/
  | vxor (c : CtxId) (f : Fields) (i : Issue)
  /-- VSHL (R127). Lane-wise saturating left shift. -/
  | vshl (c : CtxId) (f : Fields) (i : Issue)
  /-- VSRA (R127). Lane-wise right shift narrowed as vmulsh. -/
  | vsra (c : CtxId) (f : Fields) (i : Issue)
  /-- VCMP (R129). Lane-wise comparison giving all-ones masks. -/
  | vcmp (c : CtxId) (f : Fields) (i : Issue)
  /-- VSEL (R128). Lane-wise select by the old destination. -/
  | vsel (c : CtxId) (f : Fields) (i : Issue)
  /-- VBCAST (R128). Broadcasts a scalar to every lane. -/
  | vbcast (c : CtxId) (f : Fields) (i : Issue)
  /-- VINS (R128). Inserts a scalar into one lane. -/
  | vins (c : CtxId) (f : Fields) (i : Issue)
  /-- VEXT (R128). Extracts one lane into a scalar. -/
  | vext (c : CtxId) (f : Fields) (i : Issue)
  /-- VLD (R128). Loads 512 bytes into a vector register. -/
  | vld (c : CtxId) (f : Fields) (i : Issue)
  /-- VST (R128). Stores a vector register to memory. -/
  | vst (c : CtxId) (f : Fields) (i : Issue)
  /-- VTGET (R179). Moves a row or column pair of a tile register into a vector, optionally aligned. -/
  | vtget (c : CtxId) (f : Fields) (i : Issue)
  /-- VTPUT (R179). Writes a vector into a row or column pair of a tile register, keeping the tag. -/
  | vtput (c : CtxId) (f : Fields) (i : Issue)
  /-- VFN (R182). Applies a table function selected by MOD to each lane. -/
  | vfn (c : CtxId) (f : Fields) (i : Issue)
  /-- VRED_ROW (R180). Reduces each row of a tile register into a lane. -/
  | vredRow (c : CtxId) (f : Fields) (i : Issue)
  /-- VRED_COL (R180). Reduces each column of a tile register into a lane. -/
  | vredCol (c : CtxId) (f : Fields) (i : Issue)
  /-- VCVT (R130). Narrows 128 lanes to block-integer mantissas and counts statistics. -/
  | vcvt (c : CtxId) (f : Fields) (i : Issue)
  /-- VUNPK (R130). Widens 128 tile elements to 32-bit lanes at a target exponent. -/
  | vunpk (c : CtxId) (f : Fields) (i : Issue)
  /-- VRNG (R226). Returns 128 generator words at a position. -/
  | vrng (c : CtxId) (f : Fields) (i : Issue)
  /-- VNOISE (R227). Adds calibrated generator noise to each lane. -/
  | vnoise (c : CtxId) (f : Fields) (i : Issue)
  /-- VSTAT (R230). Returns the statistics record of a tensor and step. -/
  | vstat (c : CtxId) (f : Fields) (i : Issue)
  /-- DMA_GET (R131). Reads bytes or a tile from HBM into local or cluster memory. -/
  | dmaGet (c : CtxId) (f : Fields) (i : Issue)
  /-- DMA_PUT (R131). Writes bytes or a tile from local or cluster memory to HBM. -/
  | dmaPut (c : CtxId) (f : Fields) (i : Issue)
  /-- DMA_COPY (R131). Copies bytes between local or cluster ranges. -/
  | dmaCopy (c : CtxId) (f : Fields) (i : Issue)
  /-- DMA_FILL (R131). Fills a range with a 64-bit pattern. -/
  | dmaFill (c : CtxId) (f : Fields) (i : Issue)
  /-- T_LD (R121). Loads a tile into a tile register and sets its tag. -/
  | tLd (c : CtxId) (f : Fields) (i : Issue)
  /-- T_ST (R131). Stores a tile register in its tag format, saturating out-of-range values. -/
  | tSt (c : CtxId) (f : Fields) (i : Issue)
  /-- PEAT_PUSH (R193). Pushes a tagged entry onto a Peat lane. -/
  | peatPush (c : CtxId) (f : Fields) (i : Issue)
  /-- PEAT_POP (R194). Pops the top entry of a Peat lane if its tag matches. -/
  | peatPop (c : CtxId) (f : Fields) (i : Issue)
  /-- FAB_PUT (R131). Sends bytes to a remote device address. -/
  | fabPut (c : CtxId) (f : Fields) (i : Issue)
  /-- FAB_GET (R537). Reads bytes from a remote device through read request and replies. -/
  | fabGet (c : CtxId) (f : Fields) (i : Issue)
  /-- FAB_MCAST (R288). Sends bytes to every member of a multicast group. -/
  | fabMcast (c : CtxId) (f : Fields) (i : Issue)
  /-- SL_ARM (R93). Arms a sluice with a generation and target. -/
  | slArm (c : CtxId) (f : Fields) (i : Issue)
  /-- SL_SIG (R93). Signals a sluice once every earlier instruction has completed. -/
  | slSig (c : CtxId) (f : Fields) (i : Issue)
  /-- SL_WAIT (R93). Holds dispatch until a sluice is satisfied or later. -/
  | slWait (c : CtxId) (f : Fields) (i : Issue)
  /-- LF_WAIT (R87). Holds dispatch until a local flag reaches a value. -/
  | lfWait (c : CtxId) (f : Fields) (i : Issue)
  /-- LF_CLR (R87). Clears a local flag after its earlier users complete. -/
  | lfClr (c : CtxId) (f : Fields) (i : Issue)
  /-- FRAME_END (R88). Ends the context's segment, or the program with LAST. -/
  | frameEnd (c : CtxId) (f : Fields) (i : Issue)
  /-- CTX_FENCE (R134). Completes when every earlier instruction of the context has completed remotely. -/
  | ctxFence (c : CtxId) (f : Fields) (i : Issue)
  /-- RED_OPEN (R311). Opens a reduction bucket context for the step of the opening work. -/
  | redOpen (c : CtxId) (f : Fields) (i : Issue)
  /-- RED_CONTRIB (R309). Contributes a BI16 tensor to a bucket. -/
  | redContrib (c : CtxId) (f : Fields) (i : Issue)
  /-- RED_CLOSE (R313). Releases the device's bucket context once delivered. -/
  | redClose (c : CtxId) (f : Fields) (i : Issue)
  /-- STEP_COMMIT (R414). Sends the commit signal to both homes once shard code work is done. -/
  | stepCommit (c : CtxId) (f : Fields) (i : Issue)
  /-- SCL_PIN (R60). Pins or unpins a scale-table entry at the next commit. -/
  | sclPin (c : CtxId) (f : Fields) (i : Issue)
  /-- RNG_SET (R134). Sets the generator position and work version at dispatch. -/
  | rngSet (c : CtxId) (f : Fields) (i : Issue)
  /-- INSTRUCTION_START (R83). An engine starts a queued instruction once its operands are ready and arbitration selects it. -/
  | instructionStart (c : CtxId) (q : StartOf)
  /-- INSTRUCTION_COMPLETE (R84). An instruction reaches its completion point and increments its local flag. -/
  | instructionComplete (c : CtxId) (q : Queue) (k : DoneAt) (ev : MemEvent)
  /-- ICACHE_LINE_FILL (R81). A missed instruction line arrives from HBM and dispatch resumes. -/
  | icacheLineFill (c : CtxId)
  /-- SCALE_ENTRY_ARRIVAL (R63). A missing scale-table entry arrives in the slice cache and waiting instructions proceed. -/
  | scaleEntryArrival (n : Fin 8) (tensor : BitVec 20)
  /-- SLUICE_SIGNAL_APPLY (R94). A signal or arm takes effect at the sluice store 2 to 4 cclk after execution. -/
  | sluiceSignalApply (sl : BitVec 14) (n : Nat)
  /-- SLUICE_WAIT_RESUME (R94). A waiter resumes dispatch after its sluice is satisfied. -/
  | sluiceWaitResume (c : CtxId)
  /-- LF_WAIT_RESUME (R87). Dispatch resumes when the awaited flag reaches its value. -/
  | lfWaitResume (c : CtxId)
  /-- DMA_PUT_ACCEPTED (R84). A stack controller accepts an HBM write, making it visible. -/
  | dmaPutAccepted (k : Nat) (ev : MemEvent)
  /-- PEAT_SPILL (R196). The spill engine moves one resident entry to the overflow region for a waiting push. -/
  | peatSpill (n : Fin 8)
  /-- PEAT_FETCH_BACK (R199). The spill engine fetches a lane's newest spilled entry back. -/
  | peatFetchBack (n : Fin 8) (laneB : Bool) (ev : MemEvent)
  /-- PEAT_POP_COPY_COMPLETE (R194). A pop's copy completes and the entry's units become free. -/
  | peatPopCopyComplete (c : CtxId)
  /-- PEAT_PUSH_SPACE_AVAILABLE (R196). A waiting push finds enough space and completes, or faults 0x3C. -/
  | peatPushSpaceAvailable (c : CtxId)
  /-- WEIGHT_WRITE_WAIT_RELEASE (R205). A dma.put waiting on a previous buffer starts when its reference count reaches zero. -/
  | weightWriteWaitRelease (c : CtxId)
  /-- HELD_WRITE_RELEASE (R205). A held incoming fabric write is applied and acknowledged when the count reaches zero. -/
  | heldWriteRelease (q : Fin 8) (k : Nat) (ev : MemEvent)
  /-- COMBINING_DRAIN_RESULT (R171). The root of a split-K group narrows and writes the tree sum. -/
  | combiningDrainResult (c : DrainOf)
  /-- FRAME_TICK (R24). The tick opening a frame runs the ordered tick actions. -/
  | frameTick (m : TickIn)
  /-- SEGMENT_START (R88). A waiting or loaded context starts its next segment. -/
  | segmentStart (c : CtxId)
  /-- LATENESS_EXCEEDS_SLACK (R25). A context's lateness exceeds its slack and raises fault 0x70. -/
  | latenessExceedsSlack (c : CtxId) (dt : Nat)
  /-- PARTITION_PAUSE (R91). At the tick after fault 0x70 the partition's running contexts enter PAUSED. -/
  | partitionPause (q : Fin 8)
  /-- PARTITION_RESUME (R91). At the tick after a resume command paused contexts return with renumbered segments. -/
  | partitionResume (q : Fin 8)
  /-- HEALTH_SCORE_COMPUTE (R427). Every 64 frames the health monitor computes inputs and the score. -/
  | healthScoreCompute (m : HealthIn)
  /-- CLOCK_POINT_CHANGE (R485). A pending clock point and voltage change is applied at a tick. -/
  | clockPointChange
  /-- SEQUENTIAL_MODE_CHANGE (R143). A core enters or leaves sequential operation at the tick after its condition changes. -/
  | sequentialModeChange (n : Fin 8) (core : Fin 64)
  /-- FTIME_STEP (R22). ftime steps to fabric or reference time at the next local tick. -/
  | ftimeStep
  /-- FRAME_PERIOD_CHANGE (R23). An announced change of P takes effect at its tick, rechecking slot tables. -/
  | framePeriodChange
  /-- MESSAGE_AGE_OUT (R11). A message reaching 2 µs in the on-package network is discarded with fault 0x40. -/
  | messageAgeOut (c : CtxId) (q : Queue) (k : Nat)
  /-- UNIT_RESET_EXIT (R409). A unit leaves reset, increments its epoch and announces it. -/
  | unitResetExit (u : BitVec 16)
  /-- CORE_FAILURE (R16). A core fails and is fenced and drained; its work ends with failures. -/
  | coreFailure (n : Fin 8) (core : Fin 64)
  /-- SPARE_SUBSTITUTION (R16). A spare enters service for a failed core at a frame boundary. -/
  | spareSubstitution (n : Fin 8) (core : Fin 64) (b : BitVec 2)
  /-- CLUSTER_LOSS (R412). Cluster memory or its tree fails, making its eight cores absent. -/
  | clusterLoss (n : Fin 8) (cl : Fin 8)
  /-- SLICE_LOSS (R412). A compute or stash die fails and the slice is mapped out. -/
  | sliceLoss (n : Fin 8)
  /-- B_HALF_FAILURE (R147). A half of B fails at run time and is mapped out. -/
  | bHalfFailure (n : Fin 8) (core : Fin 64) (half : Bool)
  /-- CHANNEL_FAIL (R248). An HBM channel fails on retries or uncorrectable errors. -/
  | channelFail (s : Fin 16) (j : Fin 16)
  /-- PATROL_READ (R246). The patrol reads a granule and corrects or poisons it. -/
  | patrolRead (pa : BitVec 48) (ev : MemEvent)
  /-- REFRESH (R243). A stack refreshes banks per the refresh interval. -/
  | refresh (s : Fin 16)
  /-- STACK_TEMP_CROSSING (R243). A stack crosses 85 °C and t_REFI changes from the next interval. -/
  | stackTempCrossing (s : Fin 16) (hot : Bool)
  /-- REFRESH_MODE_CHANGE (R243). A written refresh mode takes effect at the next tick. -/
  | refreshModeChange (s : Fin 16)
  /-- READ_AHEAD_FILL (R425). During a frame the control die and data mover load the next segment's lines, entries and operands. -/
  | readAheadFill (c : CtxId) (ev : MemEvent)
  /-- DRAIN_TIMEOUT (R410). Non-fabric work still running 100 µs after a fence is aborted with 0x60. -/
  | drainTimeout (u : BitVec 16)
  /-- SQ_TAIL_DOORBELL (R446). A submission tail doorbell write names ready entries. -/
  | sqTailDoorbell (fn : Fn) (k : Nat) (v : BitVec 32)
  /-- CQ_HEAD_DOORBELL (R446). A completion head doorbell write frees completion slots. -/
  | cqHeadDoorbell (fn : Fn) (k : Nat) (v : BitVec 32)
  /-- STAITHE_FETCH (R449). The Staithe fetches a submission entry, checks, mirrors and accepts it. -/
  | staitheFetch (fn : Fn) (k : Nat) (entry : BitVec 512)
  /-- STAITHE_RESUME_FETCH (R450). A full Staithe resumes fetching in doorbell order once commands complete. -/
  | staitheResumeFetch
  /-- INTERRUPT_COALESCE_TIMER (R453). A queue's coalescing time or count expires and its MSI-X vector is sent. -/
  | interruptCoalesceTimer (fn : Fn) (k : Nat)
  /-- QUEUE_CONTEXT_GRANT (R445). A freed queue context is taken for a waiting queue 0 and READY becomes 1. -/
  | queueContextGrant (fn : Fn)
  /-- CREATE_QUEUE (R455). Creates a queue pair on the function. -/
  | createQueue (r : CmdRef)
  /-- DELETE_QUEUE (R459). Fences, drains and deletes a queue. -/
  | deleteQueue (r : CmdRef)
  /-- WRITE (R455). Writes host memory into partition memory. -/
  | hostWrite (r : CmdRef) (host : HostData) (ev : MemEvent)
  /-- READ (R455). Reads partition memory into host memory. -/
  | hostRead (r : CmdRef) (hostOk : Bool) (ev : MemEvent)
  /-- LOAD (R456). Checks a program header and loads its contexts. -/
  | load (r : CmdRef)
  /-- UNLOAD (R75). Fences, drains and clears a program's contexts. -/
  | unload (r : CmdRef)
  /-- RESUME (R91). Requests resumption of a paused partition. -/
  | resume (r : CmdRef)
  /-- PLAN (R210). Submits a step plan that the control die expands into records. -/
  | plan (r : CmdRef)
  /-- PLAN_DEFERRED_WRITE (R210). A plan for the next step is written once the previous buffer's count is zero. -/
  | planDeferredWrite (q : Fin 8)
  /-- PAGE (R346). Maps or unmaps partition pages with a domain. -/
  | page (r : CmdRef)
  /-- PAGE_ENTRY_APPLY (R346). A page-table change applies after earlier translations complete, freshening pages. -/
  | pageEntryApply (q : Fin 8)
  /-- DOMAIN (R348). Enables, disables or starts a rekey of a key domain. -/
  | domain (r : CmdRef)
  /-- PACKAGE (R388). Unwraps and decrypts a weight package into a target range. -/
  | package (r : CmdRef)
  /-- CHECKPOINT (R429). Writes an encrypted external checkpoint to host buffers. -/
  | checkpoint (r : CmdRef) (hostOk : Bool)
  /-- RESTORE (R430). Checks and restores an external checkpoint. -/
  | restore (r : CmdRef) (host : HostData)
  /-- REBUILD (R422). Rebuilds a lost shard-code symbol onto a spare device. -/
  | rebuild (r : CmdRef)
  /-- REBUILD_CHUNK (R422). A 64 MiB rebuild chunk is written and verified. -/
  | rebuildChunk (slot : Fin 4) (verified : Bool)
  /-- MANIFEST (R343). Verifies a new manifest and runs a protection reboot. -/
  | manifest (r : CmdRef) (host : ManifestIn)
  /-- ENROL (R377). Burns the operator key digest into the enrolment slot. -/
  | enrol (r : CmdRef) (host : HostData)
  /-- REMOVE (R394). Removes a tenant: fence, abort, complete, revoke and scrub. -/
  | remove (r : CmdRef)
  /-- SCRUB_COMPLETE (R391). A slice scrub ends 80.0 ms after starting. -/
  | scrubComplete (n : Fin 8)
  /-- GRACE_WINDOW_END (R395). The grace window after key revocation ends. -/
  | graceWindowEnd (q : Fin 8)
  /-- ASSIGN (R396). Assigns a removed partition with a new session key pair. -/
  | assign (r : CmdRef)
  /-- RESET (R455). Completes, then resets the device 1 ms later. -/
  | hostReset (r : CmdRef) (boot : BootIn)
  /-- GET_VERSION (R385). SPDM version request. -/
  | getVersion (fn : Fn)
  /-- GET_CAPABILITIES (R385). SPDM capabilities request. -/
  | getCapabilities (fn : Fn)
  /-- NEGOTIATE_ALGORITHMS (R385). SPDM algorithm negotiation selecting SHA3-384 and AES-256-GCM. -/
  | negotiateAlgorithms (fn : Fn)
  /-- PSK_EXCHANGE (R385). Establishes an SPDM session with a pre-shared key. -/
  | pskExchange (fn : Fn) (req : List Byte)
  /-- PSK_FINISH (R385). Finishes an SPDM PSK session setup. -/
  | pskFinish (fn : Fn) (verify : List Byte)
  /-- KEY_UPDATE (R385). Updates SPDM session keys. -/
  | keyUpdate (fn : Fn)
  /-- HEARTBEAT (R385). SPDM session heartbeat. -/
  | spdmHeartbeat (fn : Fn)
  /-- END_SESSION (R385). Ends an SPDM session. -/
  | endSession (fn : Fn)
  /-- SPDM_UNSUPPORTED_REQUEST (R385). Any other SPDM request receives ERROR UnsupportedRequest. -/
  | spdmUnsupportedRequest (fn : Fn) (code : SpdmOther)
  /-- GET_REPORT (R382). Signs and returns a fresh attestation report. -/
  | getReport (fn : Fn) (nonce : List Byte) (part : Byte)
  /-- GET_ENDORSEMENT (R376). Returns the device endorsement. -/
  | getEndorsement (fn : Fn)
  /-- PSK_ENCAP (R385). Decapsulates a ciphertext to the session key and sets the function's PSK. -/
  | pskEncap (fn : Fn) (ciphertext : List Byte)
  /-- KEY_PROG (R365). Programs an IDE stream key. -/
  | keyProg (fn : Fn) (stream : Byte) (keySet : Byte) (key : List Byte)
  /-- K_SET_GO (R365). Activates an IDE key set. -/
  | kSetGo (fn : Fn) (stream : Byte) (keySet : Byte)
  /-- K_SET_STOP (R365). Stops and erases an IDE key set. -/
  | kSetStop (fn : Fn) (stream : Byte) (keySet : Byte)
  /-- QUERY (R365). IDE_KM query. -/
  | ideQuery (fn : Fn) (port : Byte)
  /-- STOP_INTERFACE_REQUEST (R366). Returns a TDISP interface to CONFIG_UNLOCKED. -/
  | stopInterfaceRequest (fn : TdispReq)
  /-- TDISP_REQUEST_CHECK (R366). A request to a device interface lacking the T bit completes as Unsupported Request. -/
  | tdispRequestCheck (fn : Fn) (tBit : Bool) (stream : Byte)
  /-- FUNCTION_LEVEL_RESET (R459). A Function Level Reset fences and drains the function's queues. -/
  | functionLevelReset (fn : Fn)
  /-- PCIE_LINK_DOWN (R460). Link-down or hot reset resets every function of the port. -/
  | pcieLinkDown (p : Fin 2)
  /-- AQ_ENABLE (R462). Setting ENABLE takes a queue context for queue 0. -/
  | aqEnable (fn : Fn) (v : Word)
  /-- AQ_DISABLE (R459). Clearing ENABLE fences and drains every queue of the function. -/
  | aqDisable (fn : Fn) (v : Word)
  /-- FN_CFG_WRITE (R465). Writes function vector and queue limits, ignoring conflicting writes. -/
  | fnCfgWrite (who : Fn) (fn : Fn) (v : Word)
  /-- DISABLE_STATUS_READ (R411). A read of a disable status field is held until the unit has no work in flight. -/
  | disableStatusRead (who : Fn) (unit : StatusUnit)
  /-- FTIME_LOW_READ (R29). A 32-bit read of the low half of CTL.FTIME latches the high half. -/
  | ftimeLowRead (who : Fn)
  /-- REGISTER_WRITE (R4). A write to a register without a row of its own acts by its field access types. -/
  | registerWrite (who : Fn) (off : BitVec 26) (size : WriteSize) (v : Word)
  /-- SCALE_CLEAR (R66). Clears the scale-table counters of a slice. -/
  | scaleClear (who : Fn) (n : Fin 8) (v : Word)
  /-- ACC_CLEAR (R175). Clears the accumulator limit counters. -/
  | accClear (who : Fn) (n : Fin 8) (v : Word)
  /-- VEC_CLEAR (R185). Clears the vector event counters. -/
  | vecClear (who : Fn) (n : Fin 8) (v : Word)
  /-- CLEAR_VER (R220). Clears VER_EVENTS and HOLD_FRAMES. -/
  | clearVer (who : Fn) (n : Fin 8) (v : Word)
  /-- CLEAR_PEAT (R220). Clears PEAT_EVENTS. -/
  | clearPeat (who : Fn) (n : Fin 8) (v : Word)
  /-- STAT_CLEAR (R234). Clears the statistics event counters. -/
  | statClear (who : Fn) (n : Fin 8) (v : Word)
  /-- ERR_CLEAR (R256). Clears stack error counters and LAST_UE. -/
  | errClear (who : Fn) (s : Fin 16) (v : Word)
  /-- PORT_CLEAR (R297). Clears port error counters and slot misses. -/
  | portClear (who : Fn) (p : Fin 32) (v : Word)
  /-- RED_CLEAR (R333). Clears a partition's reduction event counters. -/
  | redClear (who : Fn) (q : Fin 8) (v : Word)
  /-- INTEGRITY_CLEAR (R371). Clears a partition's integrity counters. -/
  | integrityClear (who : Fn) (q : Fin 8) (v : Word)
  /-- PWR_CLEAR (R501). Clears power events, dip count and minimum voltage. -/
  | pwrClear (who : Fn) (v : Word)
  /-- SLU_SIGNAL_WRITE (R98). A write to SLU.SIGNAL acts as a sl.sig on this device. -/
  | sluSignalWrite (who : Fn) (sl : BitVec 14) (v : Word)
  /-- TRAIN (R253). Test engine re-trains the stack interface. -/
  | teTrain (who : Fn) (s : Fin 16) (failed : BitVec 16)
  /-- MARCH (R253). Test engine runs a march test and records failures. -/
  | teMarch (who : Fn) (s : Fin 16) (v : Word) (found : List (Word × Word))
  /-- RAW_WRITE (R253). Test engine writes one granule raw. -/
  | teRawWrite (who : Fn) (s : Fin 16) (v : Word)
  /-- RAW_READ (R253). Test engine reads one granule uncorrected into the buffer. -/
  | teRawRead (who : Fn) (s : Fin 16) (v : Word)
  /-- BUDGET (R253). Test engine reads repair resources. -/
  | teBudget (who : Fn) (s : Fin 16) (v : Word)
  /-- SOFT_REPAIR (R253). Test engine applies a soft row repair. -/
  | teSoftRepair (who : Fn) (s : Fin 16) (v : Word)
  /-- HARD_REPAIR (R253). Test engine applies and verifies an irreversible hard repair. -/
  | teHardRepair (who : Fn) (s : Fin 16) (v : Word) (verified : Bool)
  /-- SOFT_UNDO (R253). Test engine releases a bank's soft repair. -/
  | teSoftUndo (who : Fn) (s : Fin 16) (v : Word)
  /-- P1500 (R253). Test engine shifts an IEEE 1500 instruction and data register. -/
  | teP1500 (who : Fn) (s : Fin 16) (shiftedOut : List Byte)
  /-- TE_INVALID_COMMAND (R253). An unknown test engine opcode completes at once with RESULT 0x01. -/
  | teInvalidCommand (who : Fn) (s : Fin 16) (v : Word)
  /-- TE_COMMAND_DONE (R261). A running test engine command finishes and sets RESULT. -/
  | teCommandDone (s : Fin 16)
  /-- PORT_ENABLE (R266). ENABLE written to 1 starts training of the port. -/
  | portEnable (who : Fn) (p : Fin 32)
  /-- PORT_DISABLE (R295). ENABLE written to 0 fences and drains the port and leaves it DARK. -/
  | portDisable (who : Fn) (p : Fin 32)
  /-- SLOT_COMMIT (R299). Writing COMMIT requests shadow slot tables at the next tick. -/
  | slotCommit (who : Fn) (p : Fin 32) (v : Word)
  /-- SLOT_COMMIT_APPLY (R280). At the tick the shadow slot tables become active or the commit is refused. -/
  | slotCommitApply (p : Fin 32)
  /-- REKEY (R363). Writing REKEY starts a link rekey. -/
  | linkRekey (who : Fn) (p : Fin 32) (v : Word)
  /-- TIME_PERIOD_REQ (R293). Writing GO requests an announced change of P on the reference. -/
  | timePeriodReq (who : Fn) (v : Word)
  /-- FENCE_RESET (R438). HLTH.FENCE action 0: fence, drain and reset a unit. -/
  | fenceReset (who : Fn) (u : BitVec 16)
  /-- FENCE_HOLD (R438). HLTH.FENCE action 1: fence, drain and hold a unit out of service. -/
  | fenceHold (who : Fn) (u : BitVec 16)
  /-- RETURN_TO_SERVICE (R438). HLTH.FENCE action 2: return a unit to service. -/
  | returnToService (who : Fn) (u : BitVec 16)
  /-- THRESH_WRITE (R435). Writes health thresholds, ignoring writes making T2 not above T1. -/
  | threshWrite (who : Fn) (v : Word)
  /-- CAP_WRITE (R486). Writes the power cap, clamped to 1,200–2,400 W, used from the next tick. -/
  | capWrite (who : Fn) (v : Word)
  /-- RELEASE (R481). Writing RELEASE ends bring-up mode and completes the boot to the lock. -/
  | bringupRelease (who : Fn) (v : Word) (boot : BootIn)
  /-- COMMIT (R477). PATCH_CMD COMMIT checks and stores a patch in bring-up mode. -/
  | patchCommit (who : Fn) (v : Word)
  /-- ERASE (R477). PATCH_CMD ERASE empties the patch store. -/
  | patchErase (who : Fn) (v : Word)
  /-- SOCKET_RELEASE (R512). Writing RELEASE drains a socket's ports, writes life and turns light off. -/
  | socketRelease (who : Fn) (k : Fin 4) (v : Word)
  /-- BMC_TRANSACTION (R530). A board management port read or write of its register map. -/
  | bmcTransaction (isWrite : Bool) (off : Byte) (v : Word)
  /-- EXTEST (R528). Boundary-scan EXTEST, allowed only with PERST# low or in bring-up. -/
  | jtagExtest (cells : BitVec 48)
  /-- IDCODE (R528). Boundary-scan IDCODE. -/
  | jtagIdcode
  /-- SAMPLE_PRELOAD (R528). Boundary-scan SAMPLE/PRELOAD. -/
  | jtagSamplePreload (sampled : BitVec 48) (shiftIn : BitVec 48)
  /-- CLAMP (R528). Boundary-scan CLAMP, allowed as EXTEST. -/
  | jtagClamp
  /-- HIGHZ (R528). Boundary-scan HIGHZ, allowed as EXTEST. -/
  | jtagHighz
  /-- UNLOCK (R378). Presents a debug-unlock token through the test port. -/
  | jtagUnlock (token : List Byte)
  /-- DTMCS (R528). RISC-V debug transport control and status access when unlocked. -/
  | jtagDtmcs (v : BitVec 32)
  /-- DMI (R528). RISC-V debug module interface access when unlocked. -/
  | jtagDmi (v : BitVec 41)
  /-- BYPASS (R528). Boundary-scan BYPASS for any other opcode. -/
  | jtagBypass (op : Byte) (tdi : Bool)
  /-- POWER_ON (R478). The last supply becomes valid and the device boots without host action. -/
  | powerOn (boot : BootIn)
  /-- MAIN_INPUT_DIP (R483). The main input falls below 11.0 V and a dip is latched. -/
  | mainInputDip (mv : BitVec 16)
  /-- MAIN_INPUT_RECOVER (R483). The main input returns above 11.0 V and starts the 100 µs timer. -/
  | mainInputRecover (belowNs : Nat) (minMv : BitVec 16)
  /-- DIP_TIMER_EXPIRY (R483). The dip timer expires and a return becomes pending. -/
  | dipTimerExpiry (dt : Nat)
  /-- DIP_RETURN (R483). At a tick at least 10 µs later the clock returns and the dip is logged. -/
  | dipReturn
  /-- SUPPLY_RESET (R484). The main input reaches 10.4 V and the device resets. -/
  | supplyReset (mv : BitVec 16)
  /-- REGULATOR_SHUTDOWN (R484). The main input falls to 9.0 V and the regulators shut down. -/
  | regulatorShutdown
  /-- PWRGOOD_DEASSERT (R526). A PWRGOOD deassertion of 1 µs or more resets the device. -/
  | pwrgoodDeassert
  /-- PERST_ASSERT (R526). PERST# held low for 1 µs or more resets the device. -/
  | perstAssert
  /-- PERST_DEASSERT (R526). PERST# deassertion starts self-test after a reset or a held power-on. -/
  | perstDeassert (boot : BootIn)
  /-- THERMAL_THROTTLE_ONSET (R488). Tj reaches 95 °C and the throttle holds. -/
  | thermalThrottleOnset (src : BitVec 16) (tj : Byte)
  /-- THERMAL_THROTTLE_RELEASE (R488). After 64 frames below 90 °C the throttle releases. -/
  | thermalThrottleRelease
  /-- THERMAL_TRIP (R489). A sensor reaches 110 °C: THERMTRIP#, trip record, shutdown. -/
  | thermalTrip (src : BitVec 16)
  /-- FREFCLK_LOSS (R525). FREFCLK shows no edge for 10 µs and every port goes down. -/
  | frefclkLoss
  /-- FREFCLK_RESTORED (R525). FREFCLK runs for 100 ms and the ports retrain. -/
  | frefclkRestored
  /-- SITE_PPS_EDGE (R291). A PPS edge disciplines or sets the reference's ftime. -/
  | sitePpsEdge (elapsed : Nat)
  /-- SITE_INPUT_VALID (R524). The site input becomes valid after 2 s of good intervals. -/
  | siteInputValid
  /-- SITE_INPUT_INVALID (R524). The site input becomes invalid on a missing edge or PPS. -/
  | siteInputInvalid
  /-- HEARTBEAT_SEND (R471). Each control die sends a heartbeat every 10 µs. -/
  | heartbeatSend
  /-- HEARTBEAT_MISS (R471). Three missed heartbeats or a fatal message declare the other die failed. -/
  | heartbeatMiss (fatal : Bool) (miss : MissIn) (boot : BootIn)
  /-- IDLE_FLIT (R269). An IDLE flit is received. -/
  | idleFlit (p : Fin 32) (fl : Flit)
  /-- HOLD_FLIT (R269). A HOLD flit fills a scheduled window. -/
  | holdFlit (p : Fin 32) (fl : Flit)
  /-- DATA_FLIT (R272). A DATA flit is received and accepted or NAKed under link retry. -/
  | dataFlit (p : Fin 32) (fl : Flit)
  /-- NAK (R272). A link NAK makes the transmitter replay from the named SEQ. -/
  | linkNak (p : CtlRx) (seq : BitVec 16)
  /-- SPARE (R266). A SPARE command moves a bad wavelength to a spare at a named pair. -/
  | spareCmd (p : CtlRx) (lam : Fin 9) (pair : Nat)
  /-- SPARE_ACK (R266). Acknowledges a wavelength spare switch. -/
  | spareAck (p : CtlRx) (lam : Fin 9) (spare : Fin 9)
  /-- PROBE (R290). A time probe is received and answered. -/
  | probe (p : CtlRx) (m : ProbeMsg)
  /-- PROBE_REPLY (R290). A probe reply gives delay and offset and steers ftime. -/
  | probeReply (p : CtlRx) (t1 : Word) (t2 : Word) (t3 : Word) (t4 : Byte)
  /-- RETRAIN (R271). A RETRAIN command makes the port retrain. -/
  | linkRetrain (p : CtlRx)
  /-- CTL_REPEAT_TIMER (R269). An outstanding NAK, SPARE or RETRAIN is repeated every 2 µs. -/
  | ctlRepeatTimer (p : Fin 32)
  /-- PROBE_TIMER (R290). Each ACTIVE port sends a PROBE every 1 ms. -/
  | probeTimer (p : Fin 32)
  /-- WAVELENGTH_BAD (R266). A wavelength loses signal or exceeds the error rate. -/
  | wavelengthBad (p : Fin 32) (lam : Fin 9) (pair : Nat)
  /-- LIGHT_PRESENT (R270). Light from the peer on four wavelengths moves a port to SIGNAL and TRAIN. -/
  | lightPresent (p : Fin 32) (lams : BitVec 9)
  /-- PORT_TRAIN_COMPLETE (R270). Training completes and the port moves to HELLO. -/
  | portTrainComplete (p : Fin 32) (good : BitVec 9) (peerOffer : Nat)
  /-- PORT_TRAIN_RETRY (R270). A FAILED port retries training every 10 s. -/
  | portTrainRetry (p : Fin 32)
  /-- HELLO_RETRY (R270). A REFUSED port retries HELLO every 10 s. -/
  | helloRetry (p : Fin 32)
  /-- UNCORRECTABLE_BURST (R271). More than 16 uncorrectable codewords within 1 ms make the port retrain. -/
  | uncorrectableBurst (p : Fin 32)
  /-- NAK_NO_PROGRESS (R271). A NAK without progress for 1 ms makes the port retrain. -/
  | nakNoProgress (p : Fin 32)
  /-- AUTH_FAIL_BURST (R364). More than 16 tag failures within 1 ms make the port retrain. -/
  | authFailBurst (p : Fin 32)
  /-- LINK_REKEY_TIMER (R363). The rekey interval or the 2^40-flit count starts a link rekey. -/
  | linkRekeyTimer (p : Fin 32)
  /-- HELLO (R274). A hello is received and checked for discovery. -/
  | linkHello (p : Fin 32) (h : HelloMsg)
  /-- OFFER (R362). Link key exchange offer from the initiator. -/
  | linkOffer (p : Fin 32) (m : KeyRx)
  /-- ACCEPT (R362). Link key exchange acceptance from the responder. -/
  | linkAccept (p : Fin 32) (m : KeyRx)
  /-- DONE (R362). Link key exchange confirmation switching to new keys. -/
  | linkDone (p : Fin 32) (m : KeyRx)
  /-- PACKET_FORWARD (R276). A packet not for this device is routed to an output port or discarded. -/
  | packetForward (p : Fin 32) (pk : RxPkt) (ev : MemEvent)
  /-- SCHEDULED_WINDOW_SEND (R281). A queued scheduled packet is sent in its slot window. -/
  | scheduledWindowSend (p : Fin 32) (slot : Fin 64)
  /-- WRITE_PACKET (R287). A remote write packet is delivered, refused or held. -/
  | writePacket (p : Fin 32) (pk : RxPkt) (ev : MemEvent)
  /-- READ_REQUEST (R537). A remote read request is answered by read replies. -/
  | readRequest (p : Fin 32) (pk : RxPkt) (ev : MemEvent)
  /-- READ_REPLY (R537). A read reply is written at the requester. -/
  | readReply (p : Fin 32) (pk : RxPkt)
  /-- ACK_PACKET (R285). A flow ACK accepts packets below E or reports a held write. -/
  | ackPacket (p : Fin 32) (pk : RxPkt)
  /-- FLOW_NAK_PACKET (R286). A flow NAK makes the sender resend retained packets. -/
  | flowNakPacket (p : Fin 32) (pk : RxPkt)
  /-- FLOW_ACK_EMIT (R285). The destination sends a cumulative ACK at a tick or after 32 deliveries. -/
  | flowAckEmit (k : FlowKey)
  /-- FLOW_NAK_EMIT (R285). The destination sends a NAK if E has not arrived by the next tick. -/
  | flowNakEmit (k : FlowKey)
  /-- FLOW_TIMEOUT (R286). A flow timer expires and retained packets are resent. -/
  | flowTimeout (k : FlowKey)
  /-- FLOW_RESET (R286). A flow reset packet sets E and discards held packets. -/
  | flowReset (p : Fin 32) (pk : RxPkt)
  /-- SLUICE_SIGNAL_MESSAGE (R536). A sluice signal or arm message takes effect at the home device. -/
  | sluiceSignalMessage (p : Fin 32) (pk : RxPkt)
  /-- SLUICE_PUBLICATION (R536). A published sluice state, with any commit outcome, arrives at a member. -/
  | sluicePublication (p : Fin 32) (pk : RxPkt)
  /-- COMMIT_DECISION (R415). The home sends its step decision to HOME2, which acknowledges it. -/
  | commitDecision (q : Fin 8) (job : BitVec 16) (rx : Option (Fin 32 × RxPkt))
  /-- COMMIT_DEADLINE_EXPIRY (R415). COMMIT_DEADLINE frames after the first signal the home decides FAILED 0x65. -/
  | commitDeadlineExpiry (q : Fin 8) (job : BitVec 16)
  /-- STEP_ABORT (R417). A step abort reaches a home and fails the step. -/
  | stepAbort (p : Fin 32) (pk : RxPkt)
  /-- HOME2_TAKEOVER (R418). HOME2 takes over on loss of the home and publishes the decision. -/
  | home2Takeover (q : Fin 8) (job : BitVec 16)
  /-- STEP_COMMIT_APPLY (R416). At the tick after learning COMMITTED the step, buffers, scale table and statistics advance. -/
  | stepCommitApply (q : Fin 8) (job : BitVec 16)
  /-- STEP_ROLLBACK (R419). At the tick after learning FAILED the job rolls back. -/
  | stepRollback (q : Fin 8) (job : BitVec 16)
  /-- CONTEXT_RESTART (R419). Rolled-back contexts restart at ENTRY_PC at a tick or resume. -/
  | contextRestart (q : Fin 8) (job : BitVec 16)
  /-- CODE_DELTA (R421). A parity holder applies a code delta to its previous parity buffer. -/
  | codeDelta (p : Fin 32) (pk : RxPkt)
  /-- REBUILD_CONTRIBUTION (R422). A decoded rebuild contribution is combined by XOR toward the spare. -/
  | rebuildContribution (p : Fin 32) (pk : Contribution) (slot : Fin 4)
  /-- RED_CONTRIBUTION_PACKET (R309). A contribution packet is aligned and added at its first adder. -/
  | redContributionPacket (p : Fin 32) (pk : RxFind)
  /-- RED_PARTIAL_PACKET (R317). A partial sum packet is checked and added at a node. -/
  | redPartialPacket (p : Fin 32) (pk : RxFind)
  /-- RED_RESULT_PACKET (R326). A result packet is forwarded down and written by the member. -/
  | redResultPacket (p : Fin 32) (pk : RxFind)
  /-- RED_NOTICE_PACKET (R326). A notice packet delivers the record without data. -/
  | redNoticePacket (p : Fin 32) (pk : RxFind)
  /-- RED_RETRY_PACKET (R324). A retry packet makes nodes discard partials and members resend. -/
  | redRetryPacket (p : Fin 32) (pk : RxFind)
  /-- RED_UNKNOWN_KIND (R314). A reduction packet of KIND 0x15–0x1F is discarded and logged. -/
  | redUnknownKind (p : Fin 32) (pk : RxPkt)
  /-- RED_NODE_CLOSE (R319). At its close tick a node fixes its inclusion set and drops unstarted inputs. -/
  | redNodeClose (job : BitVec 16) (bucket : BucketAt)
  /-- REKEY_BLOCK (R359). The rekey engine re-encrypts one block under NEW and moves the boundary. -/
  | rekeyBlock (n : Fin 8) (d : Fin 64) (ev : MemEvent)
  /-- REKEY_COMPLETE (R359). All slices finish a rekey, OLD is erased and GENERATION increases. -/
  | rekeyComplete (q : Fin 8) (d : Fin 64)
  /-- LASER_PRESENCE_ASSERT (R506). A module's presence holds for 100 ms and authentication begins. -/
  | laserPresenceAssert (k : Fin 4)
  /-- LASER_AUTH_RESPONSE (R506). RESPONSE is read 20 ms after the challenge and compared. -/
  | laserAuthResponse (k : Fin 4) (m : ModuleMap) (busOk : Bool)
  /-- LASER_LIGHT_STABLE (R508). Light is stable and the socket shows LIT. -/
  | laserLightStable (k : Fin 4)
  /-- LASER_BIAS_SAMPLE (R509, R511). Every second the bias is read and equivalent time accrued; `none`: the bus transaction failed. -/
  | laserBiasSample (k : Fin 4) (biasNow : Option (BitVec 16)) (temp : Byte)
  /-- LASER_LIFE_WRITE (R509). Hourly EQ_HOURS write followed by re-authentication. -/
  | laserLifeWrite (k : LifeIn)
  /-- LASER_PRESENCE_DEASSERT (R511). A module's presence deasserts and it is lost. -/
  | laserPresenceDeassert (k : Fin 4)
  /-- LASER_INTERRUPT (R511). A module interrupt with a fault status makes it lost. With no status the signal deasserts (R513). -/
  | laserInterrupt (k : Fin 4) (status : Option Byte)
  /-- HOLDOVER (R292). A device that hears no PROBE carrying its reference for 5 ms enters holdover, keeps its frequency correction and elects again. -/
  | holdover
  /-- FABRIC_DIE_RESET (R412). A fabric die fault resets the die and its 16 ports, fails buckets with a node or context on it, and retrains the ports within 50 ms. -/
  | fabricDieReset (d : Fin 2)
  /-- PWRGOOD_ASSERT (R526). PWRGOOD reasserts with both supplies in range after a deassertion, and the device runs the R479 timeline and logs event 0x0888. -/
  | pwrgoodAssert (boot : BootIn)
  /-- MAIN_INPUT_RETURN (R484). After a supply reset, the main input returns to 11.4 V or above, and the R479 timeline starts. -/
  | mainInputReturn (mv : BitVec 16) (boot : BootIn)
  /-- PORT_TRAIN_FAILED (R270). Training that does not complete within its time limit moves the port from TRAIN to FAILED. -/
  | portTrainFailed (p : Fin 32)
deriving DecidableEq, Repr

end Sys2Proof
end

