-- ==== Sys2Proof/Machine/Tbl.lean ====
section
/-! DEFINITION. Sparse tables and byte memories: reading, writing, and their one canonical form. -/

namespace Sys2Proof

/-- The entry at `k`, or the default. -/
def Tbl.get {α : Type} (d : α) : Tbl α → Nat → α
  | [], _ => d
  | (j, v) :: t, k => if k = j then v else Tbl.get d t k

/-- The table with key `k` put at its place in the order. -/
def Tbl.put {α : Type} : Tbl α → Nat → α → Tbl α
  | [], k, v => [(k, v)]
  | (j, u) :: t, k, v => if k < j then (k, v) :: (j, u) :: t else if k = j then (k, v) :: t else (j, u) :: Tbl.put t k v

/-- The table without key `k`. -/
def Tbl.del {α : Type} : Tbl α → Nat → Tbl α
  | [], _ => []
  | (j, u) :: t, k => if k = j then Tbl.del t k else (j, u) :: Tbl.del t k

/-- The table whose entry at `k` is `v`: an entry equal to the default is not kept. -/
def Tbl.set {α : Type} [DecidableEq α] (d : α) (t : Tbl α) (k : Nat) (v : α) : Tbl α :=
  if v = d then t.del k else t.put k v

/-- The table with `f` applied to its entry at `k`. -/
def Tbl.upd {α : Type} [DecidableEq α] (d : α) (t : Tbl α) (k : Nat) (f : α → α) : Tbl α :=
  Tbl.set d t k (f (Tbl.get d t k))

/-- The `n` entries from key `k` on, in order, of a table in canonical form whose keys are `k` or more. -/
def Tbl.denseFrom {α : Type} (d : α) : Nat → Nat → Tbl α → List α
  | 0, _, _ => []
  | n + 1, k, [] => d :: Tbl.denseFrom d n (k + 1) []
  | n + 1, k, (j, v) :: t => if j = k then v :: Tbl.denseFrom d n (k + 1) t else d :: Tbl.denseFrom d n (k + 1) ((j, v) :: t)

/-- The table of a list's entries, the first at key `k`. -/
def Tbl.ofListFrom {α : Type} [DecidableEq α] (d : α) : Nat → List α → Tbl α
  | _, [] => []
  | k, v :: l => if v = d then Tbl.ofListFrom d (k + 1) l else (k, v) :: Tbl.ofListFrom d (k + 1) l

/-- Every key above `b`, and the keys rise strictly. -/
def Tbl.sortedFrom {α : Type} : Nat → Tbl α → Bool
  | _, [] => true
  | b, (j, _) :: t => decide (b ≤ j) && Tbl.sortedFrom (j + 1) t

/-- The canonical form: keys rise strictly and no entry equals the default. -/
def Tbl.wf {α : Type} [DecidableEq α] (d : α) (t : Tbl α) : Bool :=
  Tbl.sortedFrom 0 t && t.all (fun e => decide (e.2 ≠ d))

/-- A byte of a memory. -/
def Mem.read (m : Mem) (a : Nat) : Byte := Tbl.get 0 m a

/-- A memory with one byte written. -/
def Mem.write (m : Mem) (a : Nat) (b : Byte) : Mem := Tbl.set 0 m a b

/-- `n` bytes from `a`, lowest address first. -/
def Mem.readN (m : Mem) (a : Nat) : Nat → List Byte
  | 0 => []
  | n + 1 => Mem.read m a :: Mem.readN m (a + 1) n

/-- The bytes written from `a` on, the first at `a`. -/
def Mem.writeN : Mem → Nat → List Byte → Mem
  | m, _, [] => m
  | m, a, b :: bs => Mem.writeN (Mem.write m a b) (a + 1) bs

/-- The canonical form of a byte memory. -/
def Mem.wf (m : Mem) : Bool := Tbl.wf (0 : Byte) m

/-- A little-endian number (R2): the first byte is the least significant. -/
def leNat : List Byte → Nat
  | [] => 0
  | b :: bs => b.toNat + 256 * leNat bs

/-- The `n` bytes of a number, least significant first (R2). -/
def leBytes : Nat → Nat → List Byte
  | 0, _ => []
  | n + 1, v => BitVec.ofNat 8 v :: leBytes n (v / 256)

/-- The `n` bytes from position `k` of a list; bytes past the end are zero. -/
def bytesAt (l : List Byte) (k n : Nat) : List Byte :=
  ((l.drop k).take n) ++ List.replicate (n - ((l.drop k).take n).length) 0

/-- The little-endian number of `n` bytes at `k`. -/
def leAt (l : List Byte) (k n : Nat) : Nat := leNat (bytesAt l k n)

/-- A field of a number: `w` bits from bit `lo`. -/
def bitsOf (v lo w : Nat) : Nat := v / 2 ^ lo % 2 ^ w

/-- A counter that stops at its largest value. -/
def satAdd {w : Nat} (x : BitVec w) (n : Nat) : BitVec w :=
  if x.toNat + n < 2 ^ w then BitVec.ofNat w (x.toNat + n) else BitVec.allOnes w

/-- A list with the element at `k` replaced; unchanged when `k` lies past its end. -/
def listSet {α : Type} : List α → Nat → α → List α
  | [], _, _ => []
  | _ :: t, 0, v => v :: t
  | a :: t, k + 1, v => a :: listSet t k v

/-- A list with `f` applied to the element at `k`. -/
def listUpd {α : Type} : List α → Nat → (α → α) → List α
  | [], _, _ => []
  | a :: t, 0, f => f a :: t
  | a :: t, k + 1, f => a :: listUpd t k f

end Sys2Proof
end

