-- ==== Sys2Proof/Machine/Keccak.lean ====
section
/-! DEFINITION. The standard hash functions that the spec names: Keccak-f[1600], SHAKE256, SHA3-384 and KMAC256 (FIPS 202,
SP 800-185; R2, R223, R362, R374-R388, R506). -/

namespace Sys2Proof

/-- Rotation amounts of the 25 lanes, by x + 5 y. -/
def keccakRot : List Nat :=
  [0, 1, 62, 28, 27, 36, 44, 6, 55, 20, 3, 10, 43, 25, 39, 41, 45, 15, 21, 8, 18, 2, 61, 56, 14]

/-- The 24 round constants. -/
def keccakRc : List (BitVec 64) :=
  [0x0000000000000001, 0x0000000000008082, 0x800000000000808A, 0x8000000080008000, 0x000000000000808B, 0x0000000080000001,
   0x8000000080008081, 0x8000000000008009, 0x000000000000008A, 0x0000000000000088, 0x0000000080008009, 0x000000008000000A] ++
  [0x000000008000808B, 0x800000000000008B, 0x8000000000008089, 0x8000000000008003, 0x8000000000008002, 0x8000000000000080,
   0x000000000000800A, 0x800000008000000A, 0x8000000080008081, 0x8000000000008080, 0x0000000080000001, 0x8000000080008008]

/-- One round on 25 lanes: theta, rho and pi, chi, iota. -/
def keccakRound (a : List (BitVec 64)) (rc : BitVec 64) : List (BitVec 64) :=
  let at_ := fun (l : List (BitVec 64)) (x y : Nat) => l.getD (x % 5 + 5 * (y % 5)) 0
  let c := (List.range 5).map fun x => at_ a x 0 ^^^ at_ a x 1 ^^^ at_ a x 2 ^^^ at_ a x 3 ^^^ at_ a x 4
  let d := (List.range 5).map fun x => c.getD ((x + 4) % 5) 0 ^^^ (c.getD ((x + 1) % 5) 0).rotateLeft 1
  let r := (List.range 25).map fun i => (a.getD i 0 ^^^ d.getD (i % 5) 0).rotateLeft (keccakRot.getD i 0)
  let b := (List.range 25).map fun i => at_ r (i % 5 + 3 * (i / 5)) (i % 5)
  (List.range 25).map fun i =>
    let x := i % 5
    let y := i / 5
    let v := at_ b x y ^^^ (~~~(at_ b (x + 1) y) &&& at_ b (x + 2) y)
    if i = 0 then v ^^^ rc else v

/-- Keccak-f[1600]. -/
def keccakF (a : List (BitVec 64)) : List (BitVec 64) := keccakRc.foldl keccakRound a

/-- A block of `rate` bytes absorbed. -/
def keccakAbsorb (a : List (BitVec 64)) (blk : List Byte) : List (BitVec 64) :=
  keccakF ((List.range 25).map fun i => a.getD i 0 ^^^ BitVec.ofNat 64 (leNat (bytesAt blk (8 * i) 8)))

/-- All whole blocks absorbed in order. -/
def keccakBlocks (rate : Nat) : Nat → List (BitVec 64) → List Byte → List (BitVec 64)
  | 0, a, _ => a
  | n + 1, a, bs => keccakBlocks rate n (keccakAbsorb a (bs.take rate)) (bs.drop rate)

/-- Bytes squeezed in blocks of `rate`. -/
def keccakSqueeze (rate : Nat) : Nat → List (BitVec 64) → List Byte
  | 0, _ => []
  | n + 1, a => (a.flatMap fun v => leBytes 8 v.toNat).take rate ++ keccakSqueeze rate n (keccakF a)

/-- The sponge with a suffix byte: `n` bytes of output. -/
def keccakSponge (rate : Nat) (suffix : Nat) (m : List Byte) (n : Nat) : List Byte :=
  let pad := rate - m.length % rate
  let tail := if pad = 1 then [BitVec.ofNat 8 (suffix + 128)]
    else [BitVec.ofNat 8 suffix] ++ List.replicate (pad - 2) 0 ++ [(128 : Byte)]
  let p := m ++ tail
  (keccakSqueeze rate ((n + rate - 1) / rate) (keccakBlocks rate (p.length / rate) (List.replicate 25 0) p)).take n

/-- SHAKE256, `n` bytes. -/
def shake256 (m : List Byte) (n : Nat) : List Byte := keccakSponge 136 0x1F m n
/-- SHA3-384. -/
def sha3_384 (m : List Byte) : List Byte := keccakSponge 104 0x06 m 48

/-- Big-endian bytes of a number without leading zeros, at least one. -/
def beBytes (n : Nat) : List Byte :=
  let l := (leBytes 8 n).reverse.dropWhile fun b => decide (b = 0)
  if l.isEmpty then [0] else l
/-- left_encode of SP 800-185. -/
def leftEncode (n : Nat) : List Byte := BitVec.ofNat 8 (beBytes n).length :: beBytes n
/-- right_encode of SP 800-185. -/
def rightEncode (n : Nat) : List Byte := beBytes n ++ [BitVec.ofNat 8 (beBytes n).length]
/-- encode_string of SP 800-185. -/
def encodeString (s : List Byte) : List Byte := leftEncode (8 * s.length) ++ s
/-- bytepad of SP 800-185 for a rate of 136. -/
def bytePad (s : List Byte) : List Byte :=
  let l := leftEncode 136 ++ s
  l ++ List.replicate ((136 - l.length % 136) % 136) 0
/-- The bytes of an ASCII string. -/
def asciiBytes (s : String) : List Byte := s.toList.map fun c => BitVec.ofNat 8 c.toNat
/-- KMAC256 of a message under a key with a customisation string, 32 bytes. -/
def kmac256 (key m : List Byte) (custom : String) : List Byte :=
  let x := bytePad (encodeString key) ++ m ++ rightEncode 256
  keccakSponge 136 0x04 (bytePad (encodeString (asciiBytes "KMAC") ++ encodeString (asciiBytes custom)) ++ x) 32

end Sys2Proof
end

