-- ==== Sys2Proof/Machine/Aes.lean ====
section
/-! DEFINITION. The standard cipher that the spec names: AES-256 and its Galois/Counter Mode (FIPS 197, SP 800-38D; R351, R353, R361,
R365, R388, R429). What the two standards say is PRESUMED (log entry 110). -/

namespace Sys2Proof

/-- The S-box as one number: entry x is the byte x from the lowest. -/
def aesSbox : Nat :=
  0xC072A49CAFA2D4ADF04759FA7DC982CA76ABD7FE2B670130C56F6BF27B777C63 +
    0x75B227EBE28012079A059618C323C7041531D871F1E5A534CCF73F362693FDB7 * 2 ^ 256 +
    0xCF584C4A39BECB6A5BB1FC20ED00D153842FE329B3D63B52A05A6E1B1A2C8309 * 2 ^ 512 +
    0xD2F3FF1021DAB6BCF5389D928F40A351A89F3C507F02F94585334D43FBAAEFD0 * 2 ^ 768 +
    0xDB0B5EDE14B8EE4688902A22DC4F816073195D643D7EA7C41744975FEC130CCD * 2 ^ 1024 +
    0x08AE7A65EAF4566CA94ED58D6D37C8E779E4959162ACD3C25C2406490A3A32E0 * 2 ^ 1280 +
    0x9E1DC186B95735610EF6034866B53E708A8BBD4B1F74DDE8C6B4A61C2E2578BA * 2 ^ 1536 +
    0x16BB54B00F2D99416842E6BF0D89A18CDF2855CEE9871E9B948ED9691198F8E1 * 2 ^ 1792

/-- A byte through the S-box. -/
def aesSub (b : Byte) : Byte := BitVec.ofNat 8 (aesSbox >>> (8 * b.toNat))

/-- A byte times x in the field of AES. -/
def aesXtime (b : Byte) : Byte := (b <<< 1) ^^^ (if b.getLsbD 7 then 0x1B else 0)

/-- Two byte strings added bit by bit, as long as the shorter. -/
def xorBytes (a b : List Byte) : List Byte := List.zipWith (fun x y => x ^^^ y) a b

/-- A column mixed. -/
def aesMix (c : List Byte) : List Byte :=
  let a := fun i => c.getD (i % 4) 0
  (List.range 4).map fun i => aesXtime (a i) ^^^ (aesXtime (a (i + 1)) ^^^ a (i + 1)) ^^^ a (i + 2) ^^^ a (i + 3)

/-- SubBytes and ShiftRows on the 16 bytes of a state, column after column. -/
def aesSubShift (s : List Byte) : List Byte :=
  (List.range 16).map fun i => aesSub (s.getD (i % 4 + 4 * ((i / 4 + i % 4) % 4)) 0)

/-- MixColumns. -/
def aesMixAll (s : List Byte) : List Byte := (List.range 4).flatMap fun c => aesMix ((s.drop (4 * c)).take 4)

/-- The next words of the key schedule of a 32-byte key, newest first. -/
def aesExpand : Nat → Nat → Byte → List (List Byte) → List (List Byte)
  | 0, _, _, ws => ws
  | n + 1, i, rc, ws =>
    let t := ws.getD 0 []
    let t1 := if i % 8 = 0 then xorBytes ((t.drop 1 ++ t.take 1).map aesSub) [rc, 0, 0, 0] else if i % 8 = 4 then t.map aesSub else t
    aesExpand n (i + 1) (if i % 8 = 0 then aesXtime rc else rc) (xorBytes (ws.getD 7 []) t1 :: ws)

/-- The 15 round keys of a 32-byte key. -/
def aesKeys (key : List Byte) : List (List Byte) :=
  let ws := (aesExpand 52 8 1 (((List.range 8).map fun i => bytesAt key (4 * i) 4).reverse)).reverse
  (List.range 15).map fun r => ((ws.drop (4 * r)).take 4).flatten

/-- The rounds of AES between the first key and the last. -/
def aesRounds (ks : List (List Byte)) (s : List Byte) : List Byte :=
  ks.foldl (fun s k => xorBytes (aesMixAll (aesSubShift s)) k) s

/-- One block through AES-256. -/
def aes256 (key block : List Byte) : List Byte :=
  let ks := aesKeys key
  let s := xorBytes (aesSubShift (aesRounds ((ks.drop 1).take 13) (xorBytes block (ks.getD 0 [])))) (ks.getD 14 [])
  (List.range 16).map fun i => s.getD i 0

/-- A number as `n` bytes, most significant first. -/
def msBytes (n v : Nat) : List Byte := (leBytes n v).reverse
/-- The number of bytes, most significant first. -/
def msNat (b : List Byte) : Nat := leNat b.reverse

/-- A product in the field of GHASH, `n` bits of x at a time from its most significant. -/
def ghashMul (x : Nat) : Nat → Nat → Nat → Nat
  | 0, _, z => z
  | n + 1, v, z =>
    ghashMul x n (if v % 2 = 1 then (v / 2) ^^^ (0xE1 * 2 ^ 120) else v / 2) (if x.testBit n then z ^^^ v else z)

/-- Whole blocks of 16 bytes, the last filled with zeros. -/
def blocks16 (b : List Byte) : List Nat := (List.range ((b.length + 15) / 16)).map fun i => msNat (bytesAt b (16 * i) 16)

/-- GHASH of associated data and ciphertext. -/
def ghash (h : Nat) (aad c : List Byte) : Nat :=
  (blocks16 aad ++ blocks16 c ++ [8 * aad.length * 2 ^ 64 + 8 * c.length]).foldl (fun y b => ghashMul (y ^^^ b) 128 h 0) 0

/-- The key stream of counter mode for `n` bytes under a 12-byte IV. -/
def gcmStream (key iv : List Byte) (n : Nat) : List Byte :=
  (List.range ((n + 15) / 16)).flatMap fun i => aes256 key (iv ++ msBytes 4 (i + 2))

/-- Bytes through counter mode, in either direction. -/
def gcmCrypt (key iv data : List Byte) : List Byte := xorBytes data (gcmStream key iv data.length)

/-- The 16-byte tag of GCM. -/
def gcmTag (key iv aad c : List Byte) : List Byte :=
  xorBytes (msBytes 16 (ghash (msNat (aes256 key (List.replicate 16 0))) aad c)) (aes256 key (iv ++ [0, 0, 0, 1]))

/-- AES-256-GCM encryption: key, IV, associated data, plaintext; ciphertext and tag. -/
def gcmSeal (key iv aad plain : List Byte) : List Byte × List Byte :=
  (gcmCrypt key iv plain, gcmTag key iv aad (gcmCrypt key iv plain))

/-- AES-256-GCM decryption: key, IV, associated data, ciphertext, tag; the plaintext when the tag verifies. -/
def gcmOpen (key iv aad cipher tag : List Byte) : Option (List Byte) :=
  if gcmTag key iv aad cipher = tag then some (gcmCrypt key iv cipher) else none

end Sys2Proof
end

