-- ==== Sys2Proof/Config.lean ====
section
/-! DEFINITION. What an implementation fixes and what the spec leaves open: free values and the standard cryptographic
functions, as constants without a body. -/

namespace Sys2Proof

/-- The n-th free value drawn (R274, R348, R506: fresh random values; every value the spec does not state). -/
opaque Config.freeWord : Nat → BitVec 64

/-- Whether an XMSS^MT signature of a message verifies under a public key (R274, R338, R375, R475). -/
opaque Config.xmssVerify : List Byte → List Byte → List Byte → Bool

/-- Whether the record of a reserved block of leaf indices is written and verified in both control dies' MRAM (R379). -/
opaque Config.blockRecorded : Nat → Bool

/-- The bytes of the randomness and the layers of the device identity's XMSS^MT signature of a message with a leaf index, by position
(R375, R379). -/
opaque Config.xmssByte : Nat → List Byte → Nat → Byte

/-- The public endorsement keys that Haindore publishes, by number (R376). -/
opaque Config.vendorKey : Nat → List Byte

/-- The shared secret that ML-KEM-1024 decapsulation gives for a held key (by number) and a ciphertext (R362, R385). -/
opaque Config.mlkemDecap : Nat → List Byte → List Byte

/-- ML-KEM-1024 encapsulation with the n-th fresh value to an encapsulation key: the ciphertext and the shared secret (R362). -/
opaque Config.mlkemEncap : Nat → List Byte → List Byte × List Byte

/-- The encapsulation key of a held ML-KEM-1024 key (by number) (R381). -/
opaque Config.mlkemPublic : Nat → List Byte

/-- The SHAKE256 digest of this device's mask ROM (R475, R476). -/
opaque Config.romDigest : List Byte

/-- The patch key held in the ROM (R475). -/
opaque Config.patchKey : List Byte

/-- The laser-module authentication key K_L (R374, R506). -/
opaque Config.laserKey : List Byte

/-- The hard repairs that stack s was made with in a bank, as it reports them (R262). -/
opaque Config.hardBudget : Nat → Nat → Nat

/-- SERIAL, VENDOR_KEY and DATE of the device endorsement held in MRAM (R376). -/
opaque Config.serial : BitVec 64
opaque Config.vendorKeyNo : BitVec 32
opaque Config.madeOn : BitVec 32

/-- SIGNATURE of the device endorsement, by position (R376). -/
opaque Config.endorsementByte : Nat → Byte

/-- The body of the SPDM answer to PSK_EXCHANGE: the pre-shared key, the request, a fresh value's number (R385). -/
opaque Config.spdmExchange : List Byte → List Byte → Nat → List Byte

/-- Whether the verify data of PSK_FINISH is right for a pre-shared key and an exchange (R385). -/
opaque Config.spdmFinishOk : List Byte → List Byte → List Byte → Bool

/-- The bodies of the SPDM and IDE_KM answers that the standards fix, by request code (R365, R385). -/
opaque Config.spdmBody : Byte → List Byte

/-- Haindore's PCI vendor ID (R385): the spec gives no value. -/
opaque Config.vendorId : BitVec 16

end Sys2Proof
end

