-- ==== Sys2Proof/Machine/KOp.lean ====
section
/-! DEFINITION. The assigned Kraif operations (R110) as names; `Sys2Proof.Machine.KOp.opcode` in Kraif.lean gives
each its opcode byte. -/

namespace Sys2Proof.Machine

/-- The assigned Kraif operations, in opcode-table order (R117, R120, R124, R128, R131, R134). -/
inductive KOp where
  | nop
  | sAdd
  | sSub
  | sAnd
  | sOr
  | sXor
  | sShl
  | sShr
  | sSra
  | sMul
  | sMulh
  | sDiv
  | sLi
  | sIns
  | sSlt
  | sSltu
  | sLd
  | sSt
  | sRem
  | sSys
  | br
  | beq
  | bne
  | blt
  | bge
  | bltu
  | jr
  | mmfBi8
  | mmfBi4
  | mmfBi16x8
  | mmfBi16
  | mmbxBi8
  | mmbxBi4
  | mmbxBi16x8
  | mmbxBi16
  | mmbwBi8
  | mmbwBi4
  | mmbwBi16x8
  | mmbwBi16
  | accZero
  | accZeroB
  | accDrain
  | accDrainB
  | accMax
  | accMaxB
  | accMin
  | accMinB
  | vadd
  | vsub
  | vmul
  | vmulsh
  | vmax
  | vmin
  | vabs
  | vneg
  | vand
  | vor
  | vxor
  | vshl
  | vsra
  | vcmp
  | vsel
  | vbcast
  | vins
  | vext
  | vld
  | vst
  | vtget
  | vtput
  | vfn
  | vredRow
  | vredCol
  | vcvt
  | vunpk
  | vrng
  | vnoise
  | vstat
  | dmaGet
  | dmaPut
  | dmaCopy
  | dmaFill
  | tLd
  | tSt
  | peatPush
  | peatPop
  | fabPut
  | fabGet
  | fabMcast
  | slArm
  | slSig
  | slWait
  | lfWait
  | lfClr
  | frameEnd
  | ctxFence
  | redOpen
  | redContrib
  | redClose
  | stepCommit
  | sclPin
  | rngSet
deriving DecidableEq, Repr

end Sys2Proof.Machine
end

