-- ==== Sys2Proof/Machine/StKraif.lean ====
section
/-! DEFINITION. The state of cores, contexts and sluices: what R70-R106, R121, R155-R156, R170 name. -/

namespace Sys2Proof.Machine

/-- Context states (R70). -/
inductive CtxState where
  | empty | loaded | running | waiting | paused | faulted | ended | absent
deriving DecidableEq, Repr

/-- Where an instruction that has been dispatched stands: in its queue; started by its engine; a push waiting for
Peat space (R196); a pop whose copy is in flight (R194); a dma.put waiting for a reference count (R205); a write not
yet accepted (R84); complete locally and awaiting remote completion (R84); a combining drain awaiting its use (R171). -/
inductive IStat where
  | queued | started | waitSpace | copying | waitRefs | writing | remote | combining
deriving DecidableEq, Repr

/-- An instruction that a context has dispatched and that has not completed, with what it captured at dispatch:
the values of the scalars named by D, A, B and IMM[5:0] (R85), the generator position (R134), the step of its work
and whether that is the previous step (R225), and the frame of its segment; what it read at its start for its completion
(R113, R235), the units its request went to with the epochs they then had (R19), the halves of B it runs on (R122), and its place in
the order in which B's products started. -/
structure InFlight where
  id : Nat
  op : KOp
  f : Fields
  pc : Nat
  vd : Word
  va : Word
  vb : Word
  vi : Word
  lane : Bool
  mb : BitVec 16
  step : Nat
  prev : Bool
  seg : Nat
  stat : IStat
  missed : Bool
  snap : List Byte
  sentTo : List (BitVec 16 × Byte)
  half : BitVec 2
  startNo : Nat
deriving DecidableEq, Repr

/-- The fault record (R106). -/
structure FaultRec where
  code : Byte
  queue : BitVec 3
  dispatchPc : BitVec 24
  pc : BitVec 24
  discarded : Nat
  detail : BitVec 48
deriving DecidableEq, Repr

/-- What holds a context's dispatch (R70, R81, R87, R88, R93). -/
inductive Hold where
  | none
  | sluice (s : BitVec 14) (g : BitVec 16)
  | flag (n : Fin 16) (v : BitVec 16)
  | frameEnd (last : Bool)
  | tick
  | miss
deriving DecidableEq, Repr

/-- The load descriptor of a context (R71), its windows in bytes. -/
structure CtxDecl where
  imageBase : BitVec 48
  imageSize : Nat
  entryPc : Nat
  vMask : BitVec 64
  aMask : BitVec 64
  tMask : BitVec 16
  nanTrap : Bool
  satTrap : Bool
  domain : BitVec 6
  localBase : Nat
  localSize : Nat
  clusterBase : Nat
  clusterSize : Nat
  arg : Word
deriving DecidableEq, Repr

/-- An entry of a program's operand list for a context (R425, R456): the segment counted from the context's first, and an
HBM range or a tensor's scale entry. -/
structure AheadEnt where
  segment : Nat
  scaleEntry : Bool
  addr : Nat
  bytes : Nat
  tensor : BitVec 20
deriving DecidableEq, Repr

/-- A program context (R70), with its program's ENGINE_MODE (R143), whether an UNLOAD drains it (R75), and its part of the operand
list (R425). -/
structure Ctx where
  st : CtxState
  sregs : Tbl Word
  pc : Nat
  dispatchPc : Nat
  flags : Tbl Nat
  fault : FaultRec
  decl : CtxDecl
  part : Fin 8
  job : BitVec 16
  program : BitVec 32
  startFrame : Nat
  segment : Nat
  slack : Nat
  overrunCounted : Bool
  overruns : Nat
  maxLateness : Nat
  laneSat : Bool
  lane : Bool
  mb : BitVec 16
  latStep : Nat
  latBuf : Bool
  version : Option Bool
  busy : Bool
  hold : Hold
  fault70 : Bool
  pausedFrom : CtxState
  restart : Bool
  infl : List InFlight
  seqMode : Bool
  draining : Bool
  ahead : List AheadEnt
deriving DecidableEq, Repr

/-- A tile register: elements as 32-bit values and the tag's format, axis and 128 exponents (R121). -/
structure Tile where
  elems : Tbl (BitVec 32)
  fmt : BitVec 2
  colAxis : Bool
  exps : BitVec 1024
deriving DecidableEq, Repr

/-- An accumulator tile (R155, R156). In extremum mode it keeps the sense and the NAR_WINS option of the last `acc.zero`,
`acc.max` or `acc.min`, which a combining drain of its root uses (R172). -/
structure Acc where
  elems : Tbl (BitVec 48)
  binding : Word
  extremum : Bool
  minSense : Bool
  narWins : Bool
  pend : BitVec 128
  count : Nat
  deep : Bool
deriving DecidableEq, Repr

/-- A core: its registers, its local memory, the state of B (R150), sequential operation (R143, R144) and the
context each engine serves first at its next choice (R83): the one after the last it served. -/
structure Core where
  vregs : Tbl (BitVec 4096)
  tiles : Tbl Tile
  accs : Tbl Acc
  localMem : Mem
  bState : BitVec 2
  bPending : Option (BitVec 2)
  sequential : Bool
  lastB : Bool
  served : Tbl Nat
deriving DecidableEq, Repr

/-- A spare core's entry of SPARE_MAP (R35), and whether it waits for the frame boundary (R16). -/
structure Spare where
  inUse : Bool
  failed : Bool
  core : BitVec 6
deriving DecidableEq, Repr

/-- A signal or an arm on its way to the sluice store (R94). -/
inductive SluiceOp where
  | signal (g : BitVec 16) (k : BitVec 32)
  | arm (g : BitVec 16) (t : BitVec 32)
deriving DecidableEq, Repr

/-- A sluice (R92, R96-R99), the operations that have not reached the store, each with the unit it comes from (R11, R94), whether its state changed in this
frame, and the frame of the last publication taken (R536). -/
structure Sluice where
  count : BitVec 32
  target : BitVec 32
  gen : BitVec 16
  fabric : Bool
  home : BitVec 16
  owners : List Nat
  rearms : Nat
  discards : Nat
  coming : List (Nat × SluiceOp)
  changed : Bool
  pubFrame : BitVec 32
deriving DecidableEq, Repr

/-- A split-K group of a loaded program (R170): partition, program, tensor, positions and clusters; participants
that count (present at load). -/
structure Group where
  q : Fin 8
  program : BitVec 32
  tensor : BitVec 20
  coreMask : BitVec 8
  clusterMask : BitVec 64
  absentAtLoad : List Nat
deriving DecidableEq, Repr

/-- An input that a participant has given to a use of a split-K group (R171): group tensor, tile, use number, the
package core, MODE, NAR_WINS, the elements and the pending bits. -/
structure CombineIn where
  q : Fin 8
  tensor : BitVec 20
  tile : BitVec 32
  use : Nat
  core : Nat
  extremum : Bool
  elems : Tbl (BitVec 48)
  pend : BitVec 128
deriving DecidableEq, Repr

/-- How many combining drains of a binding a core has given (R171). -/
structure CombineCount where
  q : Fin 8
  tensor : BitVec 20
  tile : BitVec 32
  core : Nat
  n : Nat
deriving DecidableEq, Repr

/-- A combining drain of the root that awaits its use, with the root's sense and NAR_WINS (R171, R172). -/
structure CombineUse where
  q : Fin 8
  tensor : BitVec 20
  tile : BitVec 32
  use : Nat
  minSense : Bool
  narWins : Bool
  ctx : CtxId
  id : Nat
deriving DecidableEq, Repr

end Sys2Proof.Machine
end

