-- ==== Sys2Proof/Machine/StMem.lean ====
section
/-! DEFINITION. The state of the scale table, the stacks, the Peat, jobs, programs, statistics and partitions: what
R54-R66, R188-R263 and R335-R372 name. -/

namespace Sys2Proof.Machine

/-- One block's state (R56). -/
structure BlockSt where
  ePrev : Byte
  e : Byte
  run : BitVec 6
  written : Bool
  high : Bool
  sat : Bool
deriving DecidableEq, Repr

/-- A scale-table entry (R54, R55) with its block states, the job that created it, the programs that declare its
tensor and a change of its pin that waits for the commit (R60). -/
structure ScaleEntry where
  fmt : BitVec 2
  blockCount : Nat
  pinned : Bool
  rows : Nat
  cols : Nat
  stateBase : BitVec 48
  job : BitVec 16
  programs : List (BitVec 32)
  pendingPin : Option Bool
  blocks : Tbl BlockSt
deriving DecidableEq, Repr

/-- Per slice: scale-table events and misses, the tensors in the slice's cache, and those requested (R63-R65). -/
structure SliceScale where
  raises : BitVec 24
  lowers : BitVec 24
  atLimit : BitVec 16
  misses : BitVec 32
  cached : List (Nat × BitVec 20)
deriving DecidableEq, Repr

/-- A pseudo-channel's error and repair counts (R258). -/
structure PcErr where
  corrected : BitVec 32
  uncorrectable : BitVec 16
  soft : Byte
  hard : Byte
deriving DecidableEq, Repr

/-- The memory test engine's view of one stack (R253, R259-R262): its registers, the command in progress with the
result it will publish, its buffer, the granules it wrote raw by physical coordinates, the soft repairs in use and the
hard repairs spent by bank (pc, sid, bank). -/
structure TestEngine where
  cmd : Word
  arg0 : Word
  arg1 : Word
  overflow : BitVec 16
  records : BitVec 16
  result : Byte
  busy : Bool
  doneResult : Byte
  buf : Mem
  raw : Tbl Word
  soft : Tbl Bool
  hardSpent : Tbl Nat
deriving DecidableEq, Repr

/-- A stack and its controller (R236-R263). `recent` counts the words corrected since the health score was last computed (R427). -/
structure Stack where
  chFailed : BitVec 16
  runFailed : BitVec 16
  chMap : BitVec 16
  hot : Bool
  trained : Bool
  present : Bool
  tRefi : Nat
  refreshMode : Bool
  refreshEff : Bool
  refreshes : Nat
  corrected : BitVec 32
  recent : Nat
  uncorrectable : BitVec 16
  poisoned : BitVec 16
  lastUe : Word
  pcErr : Tbl PcErr
  ueGranules : Tbl (List Nat)
  te : TestEngine
deriving DecidableEq, Repr

/-- A counter word of a 512 B block (R352): poison, loss of the tree's node (R358), and the write count. -/
structure CtrWord where
  poison : Bool
  lost : Bool
  count : BitVec 62
deriving DecidableEq, Repr

/-- What an HBM write that a controller has not accepted yet carries (R84): the partition, its parts as addresses with
bytes, and the instruction it belongs to (context and instruction number). -/
structure HbmWrite where
  q : Fin 8
  parts : List (Nat × List Byte)
  ctx : CtxId
  id : Nat
deriving DecidableEq, Repr

/-- Where a Peat entry's bytes are (R192, R196): in the stash, or in overflow pages as pieces (address, length). -/
inductive PeatPlace where
  | resident
  | spilled (pieces : List (Nat × Nat))
deriving DecidableEq, Repr

/-- A Peat entry (R192-R199): TAG, size in 512 B units, the bytes and the runs of units (first, number) that hold them while it
is resident, its key domain, place and
poison. -/
structure PeatEntry where
  tag : Word
  size : Nat
  bytes : List Byte
  dom : BitVec 6
  place : PeatPlace
  units : List (Nat × Nat)
  poison : Bool
deriving DecidableEq, Repr

/-- A pop's copy in flight (R194): its bytes and the instruction, and its units, which are not free yet. -/
structure PeatCopy where
  ctx : CtxId
  id : Nat
  size : Nat
  bytes : List Byte
  units : List (Nat × Nat)
deriving DecidableEq, Repr

/-- An overflow page in use (R198): its address, lane, domain and the bytes placed in it. -/
structure PeatPage where
  addr : Nat
  laneB : Bool
  dom : BitVec 6
  used : Nat
deriving DecidableEq, Repr

/-- The Peat of a slice (R192-R200, R215, R216, R219): the two lanes newest first, the copies in flight, the overflow
pages in use, the overflow region's registers, and the counters. -/
structure Peat where
  laneA : List PeatEntry
  laneB : List PeatEntry
  copies : List PeatCopy
  inUse : List PeatPage
  spillPages : BitVec 14
  spillBase : BitVec 27
  spillDomain : BitVec 6
  ceiling : Nat
  fetchAhead : Nat
  spills : BitVec 24
  fetches : BitVec 24
  popStalls : BitVec 16
  holdFrames : BitVec 32
deriving DecidableEq, Repr

/-- A tensor statistics record on chip (R228, R229). -/
structure StatRec where
  q : Fin 8
  job : BitVec 16
  tensor : BitVec 20
  step : Word
  elements : Word
  zeros : Word
  sats : Word
  nars : Word
  satBlocks : BitVec 32
deriving DecidableEq, Repr

/-- Per slice statistics (R230, R233, R234): the on-chip records, most recently updated first, the steps written to the
table, the counts that reached the table before their step was final, the summary of the last final step and the event
counters. -/
structure SliceStat where
  recs : List StatRec
  tableSteps : List (Fin 8 × BitVec 16 × Word)
  evicted : List StatRec
  sumStep : Word
  sumZeros : Word
  sumSats : Word
  sumFlagged : BitVec 32
  sumNars : BitVec 32
  evictions : BitVec 32
  lost : BitVec 32
deriving DecidableEq, Repr

/-- The weight pair record of a tensor (R202). -/
structure WeightPair where
  tensor : BitVec 20
  base0 : BitVec 48
  base1 : BitVec 48
  bytes : Nat
deriving DecidableEq, Repr

/-- The Peat section of a program (R190). -/
structure PeatSec where
  spillBase : BitVec 48
  pages : Nat
  domain : BitVec 6
  ceiling : Nat
  fetchAhead : Nat
  commitSluice : BitVec 14
  recordBase : BitVec 48
deriving DecidableEq, Repr

/-- The statistics section of a program (R231). -/
structure StatSec where
  base : BitVec 48
  domain : BitVec 6
deriving DecidableEq, Repr

/-- The fabric section of a program (R283): retention region, flow region and the job's members with the offset of their list. -/
structure FabricSec where
  retainBase : BitVec 48
  retainPages : Nat
  retainDomain : BitVec 6
  flowBase : BitVec 48
  membersOff : Nat
  members : List (BitVec 16)
deriving DecidableEq, Repr

/-- The resilience section of a program (R413). -/
structure ResilSec where
  deadline : Nat
  home2 : BitVec 16
  codeK : Nat
  codeM : Nat
  autoReplay : Bool
  codeCount : Nat
  codeBase : BitVec 48
  ownerKey : BitVec 48
  shardBytes : Nat
deriving DecidableEq, Repr

/-- A job on this device (R188, R223): its partition, seed and generator key, start step, current step and buffer, and the
sections its programs declare. -/
structure Job where
  q : Fin 8
  seed : List Byte
  key : Word
  start : Word
  step : Word
  buf : Bool
  peat : Option PeatSec
  weights : List WeightPair
  stat : Option StatSec
  fabric : Option FabricSec
  resil : Option ResilSec
  plan : Option (Word × List Byte × CmdRef)
deriving DecidableEq, Repr

/-- A loaded program (R71-R75, R384, R456): its job, contexts, sluices, tensors and digest, and the LOAD command that
completes when its contexts end. -/
structure Program where
  q : Fin 8
  job : BitVec 16
  ctxs : List CtxId
  sluices : List (BitVec 14)
  tensors : List (BitVec 20)
  digest : List Byte
  load : Option CmdRef
  failed : Option (Byte × Word)
deriving DecidableEq, Repr

/-- A partition's page (R344). -/
structure PageEnt where
  peat : Bool
  dom : BitVec 6
  ppage : BitVec 18
deriving DecidableEq, Repr

/-- A change of the page table that waits for earlier translations (R346). -/
structure PageChange where
  page : Nat
  entry : Option PageEnt
  cmd : Option CmdRef
deriving DecidableEq, Repr

/-- A key domain of a partition (R348, R359, R369, R370): its 32-byte key, the old key while it is rekeyed, whether another rekey
follows (R358), and REKEY_BOUNDARY per slice. The stack controllers of the partition's slices and the control dies hold the keys. -/
structure Dom where
  enabled : Bool
  rekeying : Bool
  lost : Bool
  generation : BitVec 16
  key : List Byte
  oldKey : List Byte
  again : Bool
  boundary : Tbl (BitVec 48)
deriving DecidableEq, Repr

/-- A Dyke partition record (R336). -/
structure DykeRec where
  valid : Bool
  slices : Byte
  ports : BitVec 32
  vfs0 : BitVec 16
  vfs1 : BitVec 16
  domainQuota : Byte
  redQuota : Nat
  sluices : BitVec 256
deriving DecidableEq, Repr

/-- A Dyke port record (R337): the partition that holds the port. -/
structure DykePort where
  assigned : Bool
  part : Fin 8
  longHaul : Bool
deriving DecidableEq, Repr

/-- A program or package entry of a partition's attestation record (R384). -/
structure AttEntry where
  digest : List Byte
  job : BitVec 16
  extra : Byte
deriving DecidableEq, Repr

/-- A partition (R335-R372, R381-R384, R389-R396); `pauseFrom` and `resumeFrom` are the frames in which its pause and its resume
were called for (R91). -/
structure Part where
  dyke : DykeRec
  pages : Tbl (Option PageEnt)
  pageChanges : List PageChange
  doms : Tbl Dom
  latePops : BitVec 24
  writeWaits : BitVec 24
  rollbacks : BitVec 16
  tagFails : BitVec 24
  partialRefused : BitVec 16
  treeRepairs : BitVec 16
  treeLosses : Byte
  sessKey : Nat
  history : List Byte
  progEntries : List AttEntry
  pkgEntries : List AttEntry
  removal : BitVec 2
  removeCmd : Option CmdRef
  graceEnd : Option Word
  paused : Bool
  pausePending : Bool
  pauseFrom : Nat
  resumePending : Option (Option CmdRef)
  resumeFrom : Nat
  failed : Bool
  entryJob : List (BitVec 16)
deriving DecidableEq, Repr

end Sys2Proof.Machine
end

