-- ==== Sys2Proof/Machine/StFabric.lean ====
section
/-! DEFINITION. The state of the fabric ports, links, flows, routes and reductions: what R264-R334, R361-R364,
R414-R422 and R536-R537 name. -/

namespace Sys2Proof.Machine

/-- A slot table entry (R300). -/
structure SlotEnt where
  valid : Bool
  start : BitVec 20
  length : BitVec 20
deriving DecidableEq, Repr

/-- A link command that is repeated until its effect is seen (R269). -/
inductive CtlOut where
  | nak (seq : BitVec 16)
  | spare (lam : Fin 9) (pair : Nat)
  | retrain
deriving DecidableEq, Repr

/-- A DATA flit in the replay buffer (R272), or one that is being filled: its SEQ, START and BODY, and the packets that it carries bytes
of. -/
structure ReplayFlit where
  seq : BitVec 16
  start : BitVec 5
  body : List Byte
  pkts : List Pkt
deriving DecidableEq, Repr

/-- A packet's room in a receive buffer (R279): the port and its epoch, the virtual channel, whether it lies in the shared pool, and its
credit units. -/
structure RxHold where
  port : Fin 32
  epoch : Byte
  vc : Nat
  shared : Bool
  units : Nat
deriving DecidableEq, Repr

/-- A packet that waits to leave by a port, and the room that it still takes where it came in. -/
structure Queued where
  pkt : Pkt
  hold : Option RxHold
deriving DecidableEq, Repr

/-- Where a link key exchange stands (R362): none, the initiator's offer sent, the responder's accept sent, or new
keys waiting for their first flit. -/
inductive KeyPhase where
  | idle
  | offered
  | accepted
  | switching (first : Word)
deriving DecidableEq, Repr

/-- A fabric port (R264-R300, R361-R364, R372). `lambdas` are the wavelengths it receives on, `txLambdas` those it sends on, `trained`
those of its last training, `txMoves` and `rxMoves` the moves to spares since, each with its codeword pair, `txBad` those that the peer
named bad; `lineAt` the ftime of its last training, from which codeword pairs count, `line` the flits of the frame that has not closed; `tail` the flit that is being filled, `txFlit` its number or that of the next; `rxNext` the number of the next DATA flit, `rxPkt` that of
the last packet's first flit, `rxFirst` the first one under the keys in use, `cut` the ranges of flits that a long-haul port lost;
`rxRes`, `rxShared` what is taken of its receive buffer, `owed` the credits to return (channel, shared pool, units); `keyFirst` the first
flit sent under the keys in use, `exchAt` the ftime of the last exchange; `sentHello` and `gotHello` the two signed hellos; `kem` the number of its decapsulation key; the keys are the 72 bytes of
R362, in use, announced, and the one before; `probeDelay` the delay of its last probe in 1/256 ns (R290);
`windowUsed` the flits
used of each slot's window in this frame (R281); `graceEnd` the end of its grace window (R395); `drainOf` the packets of transfers that
it had sent packets of when it was fenced (R410, R411); `recent` the symbols corrected since the health score was last computed (R427). -/
structure Port where
  asymNs : BitVec 16
  rttUs : BitVec 11
  part : Fin 8
  assigned : Bool
  longHaul : Bool
  enable : Bool
  peer : BitVec 16
  peerPort : BitVec 5
  retrains : Byte
  lambdas : BitVec 9
  width : Nat
  st : Nat
  light : BitVec 9
  good : BitVec 9
  txLambdas : BitVec 9
  corrected : BitVec 32
  recent : Nat
  uncorrectable : BitVec 16
  flitErrors : BitVec 16
  mereSize : BitVec 6
  mereDomain : BitVec 6
  mereBase : BitVec 24
  misses : BitVec 32
  refused : Bool
  cycle : BitVec 2
  cycleActive : BitVec 2
  commitPending : Bool
  shadow : Tbl SlotEnt
  active : Tbl SlotEnt
  slotQ : Tbl (List Queued)
  windowUsed : Tbl Nat
  graceEnd : Option Word
  txq : List Queued
  tail : Option ReplayFlit
  txFlit : Word
  rxNext : Word
  rxPkt : Word
  rxFirst : Word
  cut : List (Word × Word)
  rxRes : Tbl Nat
  rxShared : Nat
  owed : List (Nat × Bool × Nat)
  keyFirst : Word
  exchAt : Word
  trained : BitVec 9
  txMoves : List (Fin 9 × Fin 9 × Nat)
  rxMoves : List (Fin 9 × Fin 9 × Nat)
  txBad : BitVec 9
  lineAt : Word
  line : List Flit
  replay : List ReplayFlit
  credits : Tbl Nat
  shared : Nat
  ctl : List CtlOut
  nonce : BitVec 128
  peerNonce : List Byte
  peerIdentity : List Byte
  sentSigned : Bool
  sentHello : List Byte
  gotHello : List Byte
  authFails : BitVec 16
  intervalS : BitVec 16
  exchanges : BitVec 16
  keyPhase : KeyPhase
  kem : Option Nat
  linkKey : Option (List Byte)
  newKey : Option (List Byte)
  oldKey : Option (List Byte)
  probeSent : Option Word
  probeDelay : Int
  heard : Option (BitVec 16 × Nat)
  heardAt : Word
  drainOf : List (FlowKey × Word)
deriving DecidableEq, Repr

/-- A routing entry (R301). -/
structure Route where
  valid : Bool
  host : Bool
  count : BitVec 2
  p0 : BitVec 5
  p1 : BitVec 5
  p2 : BitVec 5
  p3 : BitVec 5
deriving DecidableEq, Repr

/-- A multicast entry (R302). -/
structure McastEnt where
  valid : Bool
  part : BitVec 3
  isLocal : Bool
  source : BitVec 16
  ports : BitVec 32
deriving DecidableEq, Repr

/-- What a retained packet belongs to on its sender (R84, R286, R324): an instruction of a context, a reduction
bucket, or the device itself. -/
inductive PktOwner where
  | instr (c : CtxId) (id : Nat)
  | bucket (job : BitVec 16) (bucket : BitVec 16)
  | device
deriving DecidableEq, Repr

/-- A retained packet (R284, R286), its owner, the port it must leave by (R314), if any, for multicast the branches that have not accepted
it (R288), and the ports that have sent it (R410). -/
structure Retained where
  pkt : Pkt
  owner : PktOwner
  port : Option (Fin 32)
  slice : Fin 8
  waiting : List (Fin 32)
  sent : List (Fin 32)
deriving DecidableEq, Repr

/-- A flow at its sender (R283, R286). -/
structure SendFlow where
  next : Word
  retained : List Retained
  resends : Nat
  held : Bool
deriving DecidableEq, Repr

/-- A packet that came out of order (R285): its port, and the room that it takes in the Mere. -/
structure EarlyPkt where
  port : Fin 32
  pkt : Pkt
  hold : Option RxHold
deriving DecidableEq, Repr

/-- A flow at its destination (R285): E, the packets held out of order, the deliveries since
the last ACK, whether a NAK is due, a write that R205 holds, and the port by which the flow last came (R288). -/
structure RecvFlow where
  e : Word
  early : List EarlyPkt
  delivered : Nat
  nakDue : Bool
  heldWrite : Option (Fin 32 × Pkt)
  up : Fin 32
deriving DecidableEq, Repr

/-- An outstanding read of `fab.get` (R537), with the bytes that its replies have brought so far. -/
structure ReadReq where
  tag : BitVec 32
  dev : BitVec 16
  c : CtxId
  id : Nat
  bytes : Nat
  data : List Byte
deriving DecidableEq, Repr

/-- A node of a reduction tree (R330). -/
structure RedNode where
  valid : Bool
  root : Bool
  up : BitVec 5
  lead : Byte
  down : BitVec 32
deriving DecidableEq, Repr

/-- The states of a reduction context (R313). -/
inductive RedPhase where
  | opened | forwarding | waiting | delivered
deriving DecidableEq, Repr

/-- Half a chunk of an input or sum (R314-R317): 256 exact elements (none for NaR64), the residue carried, and the chunk's
NaR and SAT maps. -/
structure RedPiece where
  elems : List (Option Int)
  residue : Nat
  nar : BitVec 16
  sat : BitVec 16
deriving DecidableEq, Repr

/-- An input of a node that has started (R309, R319): its COUNT, the code it FAILED with, 0 for none, and its half chunks
by 2 * chunk + half. -/
structure RedInput where
  count : Nat
  failed : Byte
  pieces : Tbl (Option RedPiece)
deriving DecidableEq, Repr

/-- A reduction descriptor (R135). -/
structure RedDesc where
  classS : Bool
  rules : BitVec 3
  deadline : Nat
  contributors : Nat
  owner : BitVec 16
  sluice : BitVec 14
  tensor : BitVec 20
  result : Word
  resultExp : Word
  blocks : Nat
deriving DecidableEq, Repr

/-- A result chunk (R314, R318): its exponents, mantissa codes, clamp map, NaR and SAT maps. -/
structure RedResult where
  exps : List Byte
  codes : List Nat
  clamp : BitVec 512
  nar : BitVec 16
  sat : BitVec 16
deriving DecidableEq, Repr

/-- A member's own contribution (R309, R327): the geometry and axis of its descriptor, and its blocks in stream order, each
an exponent with 32 elements. -/
structure RedOwn where
  rows : Nat
  cols : Nat
  matrices : Nat
  colAxis : Bool
  blocks : List (Byte × List (Option Int))
deriving DecidableEq, Repr

/-- A notice (R326): INCLUDED, FAILED, POISONED and CODE. -/
structure RedNotice where
  included : Bool
  failed : Bool
  poisoned : Bool
  code : Byte
deriving DecidableEq, Repr

/-- A delivery that waits for the reference count of a previous weight buffer (R205, R328): INCLUDED of the path, FAILED, POISONED, CODE,
and whether the result is written. -/
structure RedHeld where
  path : Bool
  failed : Bool
  poisoned : Bool
  code : Byte
  data : Bool
deriving DecidableEq, Repr

/-- A reduction context (R310-R328). Inputs are numbered by DOWN port 0-31, and 32 for the member's own contribution.
`waiters` are the `red.contrib` instructions that await delivery, `path` the INCLUDED flag of the results received,
`outcome` the code that a delivered bucket completed with, `root` the source of the results that an OWNER takes, `held` a delivery
that waits. -/
structure RedCtx where
  q : Fin 8
  step : Word
  phase : RedPhase
  base : Nat
  node : RedNode
  desc : RedDesc
  rnd : Bool
  fmt : Nat
  eb : List Byte
  inputs : Tbl (Option RedInput)
  inclusion : Option (List Nat)
  dropped : List Nat
  sent : List Nat
  sums : Tbl (Option RedPiece)
  attempts : Nat
  own : Option RedOwn
  waiters : List (CtxId × Nat)
  results : Tbl (Option RedResult)
  path : Bool
  notice : Option RedNotice
  n : Nat
  failCode : Byte
  closeAsked : Bool
  outcome : Byte
  root : Option (BitVec 16)
  held : Option RedHeld
deriving DecidableEq, Repr

/-- A reduction packet that waits in a fabric die (R322): for the open of its bucket, or for a window; and the room it takes in its
receive buffer. -/
structure RedEarly where
  port : Fin 32
  pkt : Pkt
  hold : Option RxHold
deriving DecidableEq, Repr

/-- A partition's reduction events (R331, R332). -/
structure RedEvents where
  dropped : BitVec 24
  stale : BitVec 16
  retries : BitVec 12
  failed : BitVec 12
deriving DecidableEq, Repr

/-- A step decision (R415, R536): the step and generation, the outcome and its cause. -/
structure Decision where
  step : Word
  gen : BitVec 16
  committed : Bool
  cause : Byte
deriving DecidableEq, Repr

/-- The commit state of a job on this device (R414-R421, R439). At HOME2: the counts by generation, the decision it
holds, and whether the home is lost. At a deciding home: the frame of the first signal, the decision and how far it has
gone to HOME2, whether it decides alone. Aborts received, by step. On every device: the outcome learned and due, the
attempts, the steps whose attempt it has aborted, the step's `step.commit` and its generation, the bytes of code deltas applied
by each data symbol, whether its own deltas are sent, whether a third rollback has stopped the job, and the frame at
which a replay starts. -/
structure CommitSt where
  counts : Tbl Nat
  heldDecision : Option Decision
  homeLost : Bool
  takenOver : Bool
  firstSignal : Option Nat
  decided : Option Decision
  sentToHome2 : Bool
  alone : Bool
  aborts : List (Word × Byte)
  learned : Option Decision
  attempt : Nat
  lastCommitted : Word
  cause : Byte
  aborted : List Word
  signalled : Bool
  lastGen : Option (BitVec 16)
  deltas : Tbl Nat
  codeSent : Bool
  stopped : Bool
  replayAt : Option Nat
deriving DecidableEq, Repr

/-- A rebuild slot (R422, R440): its registers, the partition and job, the lost symbols and the code entry of the command,
the command, the contributions combined so far for the chunk in progress, and whether it pauses at that chunk's boundary (R423). -/
structure RebuildSlot where
  q : Fin 8
  lost : BitVec 32
  entry : Nat
  group : BitVec 16
  symbol : Byte
  st : BitVec 3
  done : BitVec 16
  total : BitVec 16
  job : BitVec 16
  cmd : Option CmdRef
  chunk : Mem
  pausing : Bool
deriving DecidableEq, Repr

end Sys2Proof.Machine
end

