-- ==== Sys2Proof/Machine/StHost.lean ====
section
/-! DEFINITION. The state of the host interface and of the security sessions, and what leaves the device: what
R365-R366, R376-R400 and R442-R467 name. -/

namespace Sys2Proof.Machine

/-- A PCI Express port (R466). -/
structure PciePort where
  downEvents : BitVec 16
  up : Bool
  flit : Bool
  width : BitVec 4
  rate : BitVec 4
deriving DecidableEq, Repr

/-- The fields of AQ_CTL that software writes (R462). -/
structure AqVals where
  time : BitVec 16
  vector : BitVec 11
  l : BitVec 5
  count : Byte
deriving DecidableEq, Repr

/-- The fields of FN_CFG (R465). -/
structure FnLimits where
  vectorBase : BitVec 11
  vectorCount : BitVec 12
  maxQueues : BitVec 13
deriving DecidableEq, Repr

/-- A function (R461-R465): its admin queue registers, the values of AQ_CTL that its last enabling found, its events, its limits as written and as in force, and whether
queue 0 waits for a queue context (R445) or the function drains (R459). -/
structure FnSt where
  aqSq : Word
  aqCq : Word
  aqAck : Word
  enable : Bool
  ready : Bool
  aq : AqVals
  aqEff : AqVals
  event : BitVec 6
  cfg : FnLimits
  cfgEff : FnLimits
  waiting : Bool
deriving DecidableEq, Repr

/-- Where an accepted command stands (R451, R456): waiting, running, its effect taken, or done with STATUS and
RESULT. -/
inductive CmdSt where
  | accepted
  | started
  | effect
  | done (status : BitVec 16) (result : BitVec 48)
deriving DecidableEq, Repr

/-- A completion that is due, in acceptance order (R449, R452): a command, a copy for a resubmitted SEQ (`dup`), or a
refusal of a SEQ that was not the expected one (`bad`). -/
structure CmdEnt where
  seq : BitVec 48
  dup : Bool
  bad : Bool
  entry : BitVec 512
  st : CmdSt
deriving DecidableEq, Repr

/-- A queue context (R445-R453): ring bases, size, interrupt settings; tail and fetch position; completion slots freed
and written so far; X; whether an ACK word
is due (R449); the completions due; the last 4,096 outcomes; completions not signalled; whether it drains
(R459) and for which DELETE_QUEUE. -/
structure QueueSt where
  sq : Word
  cq : Word
  ack : Word
  l : Nat
  vector : Nat
  count : Nat
  time : Nat
  tail : Nat
  fetch : Nat
  cqHead : Nat
  cqTail : Nat
  x : BitVec 48
  ackDue : Bool
  cmds : List CmdEnt
  history : Tbl (Option (BitVec 16 × BitVec 48))
  unsignalled : Nat
  draining : Bool
  deleteBy : Option CmdRef
deriving DecidableEq, Repr

/-- The SPDM responder of a function (R385): how far negotiation has come, the pre-shared key of PSK_ENCAP and its hint, the
exchange of the session in progress, whether it is established, and the key updates in it. -/
structure Spdm where
  version : Bool
  caps : Bool
  algs : Bool
  psk : Option (List Byte)
  hint : BitVec 128
  session : Option (List Byte)
  established : Bool
  updates : Nat
deriving DecidableEq, Repr

/-- An IDE stream of a PCI Express port (R365): two key sets, the set in use, and the function whose session programmed its keys. -/
structure IdeStream where
  key0 : Option (List Byte)
  key1 : Option (List Byte)
  active : Option Bool
  owner : Option Nat
deriving DecidableEq, Repr

/-- The states of a TDISP interface (R366). -/
inductive Tdisp where
  | configUnlocked | configLocked | run | error
deriving DecidableEq, Repr

/-- A TDISP interface (R366): its state and the IDE stream bound to it. -/
structure TdispIf where
  st : Tdisp
  bound : Option Nat
deriving DecidableEq, Repr

/-- What has left the device. -/
inductive Emit where
  | completion (fn : Fn) (q : Nat) (slot : Nat) (entry : BitVec 128)
  | ackWord (fn : Fn) (q : Nat) (seq : BitVec 48)
  | msix (fn : Fn) (vector : Nat)
  | hostWrite (fn : Fn) (addr : Word) (bytes : List Byte)
  | reg (who : Fn) (off : Nat) (v : Word)
  | packet (port : Fin 32) (p : Pkt)
  | flit (port : Fin 32) (f : Flit)
  | pair (port : Fin 32) (number : Nat) (lanes : List (Fin 9 × List Nat))
  | ordered (port : Fin 32) (typ : Byte) (lam : Fin 9) (offer : Nat)
  | hello (port : Fin 32) (h : HelloMsg)
  | key (port : Fin 32) (code : Byte) (m : KeyMsg)
  | spdm (fn : Fn) (code : Byte) (bytes : List Byte)
  | ide (fn : Fn) (code : Byte) (bytes : List Byte)
  | unsupported (fn : Fn)
  | bmc (off : Byte) (v : Word)
  | tdo (bits : Nat) (v : BitVec 64)
  | module (socket : Fin 4) (reg : Byte) (bytes : List Byte)
  | heartbeat (die : Fin 2)
  | epoch (u : BitVec 16) (e : Byte)
deriving DecidableEq, Repr

end Sys2Proof.Machine
end

