-- ==== Sys2Proof/Machine/StControl.lean ====
section
/-! DEFINITION. The state of time, slices, the control dies, start-up, power, the log, health, lasers, pins, fuses and
keys: what R19-R36, R338-R343, R367-R404, R427-R440 and R468-R531 name. -/

namespace Sys2Proof.Machine

/-- A step of ftime that waits for the next tick (R22, R291): the new value is the tick's ftime plus `delta`, and the
cause of event 0x0787. -/
structure FtimeJump where
  delta : Word
  cause : BitVec 2
deriving DecidableEq, Repr

/-- Time (R21-R23, R29-R32, R290-R293, R303-R304) and the clock point in force (R485, R499); `heardP` is the P that the upstream
device last told, `lockP` the fabric's P that a device which has locked again still has to take, 0 for none (R22, R293). -/
structure TimeSt where
  ftime : Word
  latch : Option (BitVec 32)
  period : BitVec 11
  nextPeriod : BitVec 11
  changeAt : Word
  refHolder : Bool
  stepCount : Byte
  st : BitVec 2
  jump : Option FtimeJump
  epochSec : BitVec 32
  remoteRtt : BitVec 11
  siteInput : Bool
  candidate : Bool
  address : BitVec 16
  reference : BitVec 16
  hops : BitVec 4
  upstream : BitVec 5
  offsetNs : BitVec 32
  periodAt : Word
  nextUs : BitVec 11
  slew : Int
  ppsSet : Bool
  point : BitVec 2
  heardP : BitVec 11
  lockP : BitVec 11
deriving DecidableEq, Repr

/-- A slice: its state, spares, absent cores and the events its units count (R33, R35, R36, R153, R174, R185), with
its scale cache, Peat and statistics. -/
structure SliceSt where
  part : Fin 8
  mappedOut : Bool
  gated : Bool
  assigned : Bool
  present : Bool
  spares : Tbl Spare
  waitingSpare : List (Nat × Nat)
  coreAbsent : BitVec 64
  runtimeLosses : Byte
  bootLosses : Byte
  accLong : BitVec 24
  accDeep : BitVec 24
  combineFails : BitVec 16
  laneSats : BitVec 32
  fnNars : BitVec 32
  scale : SliceScale
  peat : Peat
  stat : SliceStat
  treeKey : List Byte
deriving DecidableEq, Repr

/-- An event log entry (R491). -/
structure LogEnt where
  ftime : Word
  source : BitVec 16
  code : BitVec 16
  severity : Byte
  part : Byte
  sequence : BitVec 16
  payload : BitVec 128
deriving DecidableEq, Repr

/-- The event log (R491-R493, R502): entries newest first. -/
structure LogSt where
  entries : List LogEnt
  nextSeq : BitVec 16
  lost : BitVec 32
  alert : Bool
  window : Bool
deriving DecidableEq, Repr

/-- The host interface (R445-R466): functions, queues keyed 4096 f + k, ports, the Staithe's stalls, the queues whose
fetching waits, in doorbell order, and whether they are being fetched again; the values of performance counters that functions have
latched, with the ftime of each (R389); the MANIFEST command that a protection reboot
serves. -/
structure HostSt where
  fns : Tbl FnSt
  queues : Tbl (Option QueueSt)
  pcie : Tbl PciePort
  stalls : BitVec 16
  stalled : Bool
  order : List (Fn × Nat)
  resuming : Bool
  latches : Tbl (Option (Word × Word))
  rebootCmd : Option CmdRef
deriving DecidableEq, Repr

/-- The fabric (R264-R305): ports, routes keyed q, multicast groups, flows, outstanding reads and the tag of the next
read, the acknowledgements of multicast branches (R288), the packets discarded without a route (R276), the packets of each partition
that are for this device itself and not yet delivered (R276), and the room that the packet in hand takes in a receive buffer (none between
commands). -/
structure FabSt where
  ports : Tbl Port
  groupRoutes : Tbl Route
  memberRoutes : Tbl Route
  mcast : Tbl McastEnt
  send : List (FlowKey × SendFlow)
  recv : List (FlowKey × RecvFlow)
  reads : List ReadReq
  nextTag : BitVec 32
  memberAcks : List (FlowKey × Word × Fin 32)
  noRoute : Nat
  loop : List (Fin 8 × Pkt)
  hold : Option RxHold
deriving DecidableEq, Repr

/-- Reductions (R306-R334): nodes keyed 2q + class, events per partition, contexts keyed by job and bucket, packets for
buckets not opened, and packets held back for a window. -/
structure RedSt where
  nodes : Tbl RedNode
  events : Tbl RedEvents
  ctxs : Tbl (Option RedCtx)
  early : List RedEarly
  held : List RedEarly
deriving DecidableEq, Repr

/-- A held incoming fabric write (R205): the partition, the port it came by and the packet. -/
structure HeldWrite where
  q : Fin 8
  port : Fin 32
  pkt : Pkt
deriving DecidableEq, Repr

/-- A read-ahead buffer of a cluster (R425): the context and segment it serves, its partition, and the range of partition
addresses it holds. -/
structure ReadAhead where
  ctx : CtxId
  segment : Nat
  q : Fin 8
  addr : Nat
  bytes : Nat
deriving DecidableEq, Repr

/-- What programs, packets and host commands act on. -/
structure Work where
  time : TimeSt
  slices : Tbl SliceSt
  ctxs : Tbl Ctx
  cores : Tbl Core
  clusters : Tbl Mem
  sluices : Tbl Sluice
  groups : List Group
  combineIns : List CombineIn
  combineUses : List CombineUse
  combineCounts : List CombineCount
  failedUses : List CombineUse
  scale : Tbl (Option ScaleEntry)
  jobs : Tbl (Option Job)
  progs : Tbl (Option Program)
  hbm : Mem
  tags : Tbl (BitVec 64)
  ctr : Tbl CtrWord
  nodes : Tbl CtrWord
  lostPassed : List Nat
  writes : List HbmWrite
  memStacks : Tbl Stack
  parts : Tbl Part
  fab : FabSt
  red : RedSt
  commits : Tbl CommitSt
  rebuild : Tbl RebuildSlot
  heldWrites : List HeldWrite
  readAhead : List ReadAhead
  host : HostSt
  log : LogSt
  epochs : Tbl Byte
  fenced : List (BitVec 16)
  inReset : List (BitVec 16)
  testFailed : List (BitVec 16)
  out : List Emit
  fresh : Nat
  nextId : Nat
deriving DecidableEq, Repr

/-- The control dies (R20, R34, R471). -/
structure DieSt where
  active : Fin 2
  failovers : Byte
  standbyReady : Bool
  otherHeld : Bool
deriving DecidableEq, Repr

/-- Start-up (R382, R476-R481, R495-R497): the phase, the flags, the digest of the patch that was applied, and the patch store and
buffer. -/
structure BootSt where
  readyMs : BitVec 32
  romOnly : Bool
  patched : Bool
  patchDigest : List Byte
  bringup : Bool
  bringupNext : Bool
  phase : BitVec 3
  patchSerial : BitVec 32
  patchStore : Option (List Byte)
  patchBusy : Bool
  patchResult : Byte
  patchBuf : Mem
deriving DecidableEq, Repr

/-- Supplies, clock points, cap and temperature (R482-R489, R498-R501). `sample` is the telemetry sample closed last (R24), `energy`
and `spanNs` the samples of the 100 ms average in W·ns and ns (R500), `hotTj` the Tj of the throttle's last onset (R488), `dipAges` how long ago, in ns of closed frames, the dips of the last 24 h were
(R427). -/
structure PwrSt where
  mainMv : BitVec 16
  minMv : BitVec 16
  dips : BitVec 16
  returnPending : Bool
  dip : Bool
  dipTimer : Bool
  returnAt : Word
  dipMinMv : BitVec 16
  dipNs : Nat
  cause : BitVec 4
  maxPoint : BitVec 2
  share : Nat
  watts : BitVec 12
  capPoint : Nat
  lowRun : Nat
  watts8 : BitVec 16
  temps : BitVec 40
  tj : Byte
  throttle : Bool
  throttleSrc : BitVec 16
  tripTime : Word
  tripSource : BitVec 16
  tripped : Bool
  capUnmet : BitVec 32
  unmetRun : Nat
  sample : Nat
  energy : Nat
  spanNs : Nat
  hotTj : Byte
  coolRun : Nat
  dipAges : List Nat
  pointChanges : BitVec 16
  throttles : BitVec 16
deriving DecidableEq, Repr

/-- The package pins the model keeps (R521-R527): PERST#, PWRGOOD, THERMTRIP# as driven, whether FREFCLK runs, and
whether the device is off, held in reset or waiting for its input to return; and whether FREFCLK was lost in operation. -/
structure PinSt where
  perstLow : Bool
  pwrgood : Bool
  thermtrip : Bool
  frefclk : Bool
  off : Bool
  heldSupply : Bool
  lostInOp : Bool
deriving DecidableEq, Repr

/-- The test port (R528): the instruction, the boundary register, and the words last shifted into DTMCS and DMI; and of the debug
modules (R469) the hart selected and, of the eight harts, those halted. -/
structure JtagSt where
  ir : Byte
  boundary : BitVec 48
  driving : Bool
  dtmcs : BitVec 32
  dmi : BitVec 41
  hart : BitVec 20
  halted : Byte
deriving DecidableEq, Repr

/-- The fuse bank and enrolment (R374-R378, R397-R399). -/
structure FuseSt where
  identity : List Byte
  identityBurned : Bool
  laserKeyBurned : Bool
  debugHash : List Byte
  operator : Option (List Byte)
  debugUnlocked : Bool
deriving DecidableEq, Repr

/-- Signatures (R379, R400). -/
structure XmssSt where
  nextIndex : BitVec 60
  reservedEnd : BitVec 60
  nextBlock : BitVec 60
  signatures : BitVec 32
  halted : Bool
deriving DecidableEq, Repr

/-- Health (R427, R428, R433-R435, R437), with the capability block as last recorded. -/
structure HealthSt where
  frame : BitVec 32
  migrateReq : Bool
  ckptReq : Bool
  score : Byte
  inputs : List Byte
  weights : List Byte
  t1 : Byte
  t2 : Byte
  ckptArmed : Bool
  migrateArmed : Bool
  generation : BitVec 16
  caps : List Word
deriving DecidableEq, Repr

/-- Fencing (R410, R438): the unit and ACTION of the last GO, whether there was one, what it aborted and its state; and the units, with
their ACTION, that still drain although a later GO named another. -/
structure FenceSt where
  aborted : BitVec 16
  unit : BitVec 16
  act : BitVec 2
  st : BitVec 2
  named : Bool
  others : List (BitVec 16 × BitVec 2)
deriving DecidableEq, Repr

/-- The Dyke as a whole, the manifest in force, the one recorded in MRAM, and the one that a protection reboot applies
(R338-R343, R367). -/
structure DykeSt where
  locked : Bool
  rebooting : Bool
  reboots : Byte
  manifestValid : Bool
  enrolled : Bool
  serial : Word
  manifest : List Byte
  mramSerial : Word
  mramManifest : List Byte
  next : List Byte
  ports : Tbl DykePort
  reports : List (Nat × List Byte × Byte)
deriving DecidableEq, Repr

/-- Scrubs (R391, R401). -/
structure ScrubSt where
  count : BitVec 32
  active : Byte
  graceDrops : BitVec 32
deriving DecidableEq, Repr

/-- A laser socket and its module (R505-R515): the challenge in use and its failures so far, whether the module has answered
and its light is coming up, whether it answers the hourly write, the life thresholds logged, the bus transactions that have failed in a
row, and its presence signal. -/
structure Laser where
  st : BitVec 3
  temp : Byte
  authFails : Byte
  int : Bool
  id : List Byte
  eqHours : BitVec 32
  eqPart : Nat
  biasNow : BitVec 16
  biasStart : BitVec 16
  biasNom : BitVec 16
  nonce : BitVec 128
  tries : Nat
  authed : Bool
  hourly : Bool
  logged : Nat
  busFails : Nat
  present : Bool
deriving DecidableEq, Repr

/-- The management of the device. -/
structure Ctl where
  dies : DieSt
  boot : BootSt
  pwr : PwrSt
  pins : PinSt
  jtag : JtagSt
  fuse : FuseSt
  xmss : XmssSt
  health : HealthSt
  fence : FenceSt
  dyke : DykeSt
  scrub : ScrubSt
  lasers : Tbl Laser
  spdm : Tbl Spdm
  ide : Tbl IdeStream
  tdisp : Tbl TdispIf
deriving DecidableEq, Repr

end Sys2Proof.Machine
end

