-- ==== Sys2Proof/Machine/State.lean ====
section
/-! DEFINITION. The state of one Jelvo J20 as plain data, the values of units that nothing has touched, the reasons to
stop, and the state after reset. -/

namespace Sys2Proof.Machine

/-- The reasons for a fault of the model: none. Every fault the spec describes is a next state. -/
inductive Fault
deriving DecidableEq, Repr

/-- The reasons for a refusal. -/
inductive Refusal where
  /-- Answered by an arm of `exec` that has no meaning yet; safe: nothing is claimed of the command. -/
  | notModelled (mnemonic : String)
deriving DecidableEq, Repr

/-- The whole state: what commands act on, the management of the device, and the commands that are waiting, first in,
first out. -/
structure State where
  w : Work
  ctl : Ctl
  pending : List Instr
deriving DecidableEq, Repr

/-- No fault recorded (R106). -/
def FaultRec.none : FaultRec := ⟨0, 0, 0, 0, 0, 0⟩

/-- A load descriptor with every field zero (R71). -/
def CtxDecl.zero : CtxDecl :=
  { imageBase := 0, imageSize := 0, entryPc := 0, vMask := 0, aMask := 0, tMask := 0, nanTrap := false,
    satTrap := false, domain := 0, localBase := 0, localSize := 0, clusterBase := 0, clusterSize := 0, arg := 0 }

/-- An EMPTY context (R70) at reset; its registers are zero (DESIGN CHOICE, log entry 3). -/
def Ctx.empty : Ctx :=
  { st := .empty, sregs := [], pc := 0, dispatchPc := 0, flags := [], fault := .none, decl := .zero, part := 0,
    job := 0, program := 0, startFrame := 0, segment := 0, slack := 0, overrunCounted := false,
    overruns := 0, maxLateness := 0, laneSat := false, lane := false, mb := 0, latStep := 0, latBuf := false,
    version := .none, busy := false, hold := .none, fault70 := false, pausedFrom := .empty, restart := false,
    infl := [], seqMode := false, draining := false, ahead := [] }

/-- A tile register at reset (DESIGN CHOICE, log entry 3). -/
def Tile.zero : Tile := { elems := [], fmt := 0, colAxis := false, exps := 0 }

/-- An accumulator tile at reset (DESIGN CHOICE, log entry 3). -/
def Acc.zero : Acc := { elems := [], binding := 0, extremum := false, minSense := false, narWins := false, pend := 0, count := 0, deep := false }

/-- A core at reset (DESIGN CHOICE, log entry 3). -/
def Core.zero : Core :=
  { vregs := [], tiles := [], accs := [], localMem := [], bState := 0, bPending := none, sequential := false,
    lastB := false, served := [] }

/-- A spare not in use (R35). -/
def Spare.free : Spare := { inUse := false, failed := false, core := 0 }

/-- A sluice not declared (R96). -/
def Sluice.zero : Sluice :=
  { count := 0, target := 0, gen := 0, fabric := false, home := 0, owners := [], rearms := 0, discards := 0,
    coming := [], changed := false, pubFrame := 0 }

/-- A pseudo-channel without errors (R258). -/
def PcErr.zero : PcErr := ⟨0, 0, 0, 0⟩

/-- The test engine's registers at reset (R259-R261). -/
def TestEngine.zero : TestEngine :=
  { cmd := 0, arg0 := 0, arg1 := 0, overflow := 0, records := 0, result := 0, busy := false, doneResult := 0,
    buf := [], raw := [], soft := [], hardSpent := [] }

/-- A stack at reset (R254-R262). -/
def Stack.zero : Stack :=
  { chFailed := 0, runFailed := 0, chMap := 0, hot := false, trained := false, present := false, tRefi := 3900,
    refreshMode := false, refreshEff := false, refreshes := 0, corrected := 0, recent := 0, uncorrectable := 0, poisoned := 0,
    lastUe := 0, pcErr := [], ueGranules := [], te := .zero }

/-- A fresh block's counter word (R352). -/
def CtrWord.fresh : CtrWord := ⟨false, false, 0⟩

/-- An empty Peat (R192, R215, R216). -/
def Peat.zero : Peat :=
  { laneA := [], laneB := [], copies := [], inUse := [], spillPages := 0, spillBase := 0, spillDomain := 0, ceiling := 0,
    fetchAhead := 0, spills := 0, fetches := 0, popStalls := 0, holdFrames := 0 }

/-- A slice at reset (R33, R35, R36): gated, present, not assigned. -/
def SliceSt.zero : SliceSt :=
  { part := 0, mappedOut := false, gated := true, assigned := false, present := true, spares := [],
    waitingSpare := [], coreAbsent := 0, runtimeLosses := 0, bootLosses := 0, accLong := 0, accDeep := 0,
    combineFails := 0, laneSats := 0, fnNars := 0,
    scale := { raises := 0, lowers := 0, atLimit := 0, misses := 0, cached := [] }, peat := .zero,
    stat := { recs := [], tableSteps := [], evicted := [], sumStep := 0, sumZeros := 0, sumSats := 0, sumFlagged := 0, sumNars := 0,
              evictions := 0, lost := 0 }
    treeKey := [] }

/-- A partition record that holds nothing (R336). -/
def DykeRec.zero : DykeRec :=
  { valid := false, slices := 0, ports := 0, vfs0 := 0, vfs1 := 0, domainQuota := 0, redQuota := 0, sluices := 0 }

/-- A domain that is not enabled (R348, R369). -/
def Dom.zero : Dom :=
  { enabled := false, rekeying := false, lost := false, generation := 0, key := [], oldKey := [], again := false, boundary := [] }

/-- A partition at reset (R367-R371). -/
def Part.zero : Part :=
  { dyke := .zero, pages := [], pageChanges := [], doms := [], latePops := 0, writeWaits := 0, rollbacks := 0, tagFails := 0, partialRefused := 0, treeRepairs := 0,
    treeLosses := 0, sessKey := 0, history := [], progEntries := [], pkgEntries := [], removal := 0,
    removeCmd := none, graceEnd := none, paused := false, pausePending := false, pauseFrom := 0, resumePending := none, resumeFrom := 0,
    failed := false, entryJob := [] }

/-- A slot entry at reset (R300). -/
def SlotEnt.zero : SlotEnt := ⟨false, 0, 0⟩

/-- A port at reset (R295-R300, R372): ENABLE 1, INTERVAL_S 3,600. -/
def Port.zero : Port :=
  { asymNs := 0, rttUs := 0, part := 0, assigned := false, longHaul := false, enable := true, peer := 0,
    peerPort := 0, retrains := 0, lambdas := 0, width := 0, st := 0, light := 0, good := 0, txLambdas := 0,
    corrected := 0, recent := 0, uncorrectable := 0, flitErrors := 0, mereSize := 0, mereDomain := 0, mereBase := 0, misses := 0,
    refused := false, cycle := 0, cycleActive := 0, commitPending := false, shadow := [], active := [], slotQ := [], windowUsed := [], graceEnd := none,
    txq := [], tail := none, txFlit := 0, rxNext := 0, rxPkt := 0, rxFirst := 0, cut := [], rxRes := [], rxShared := 0, owed := [],
    keyFirst := 0, exchAt := 0, trained := 0, txMoves := [], rxMoves := [], txBad := 0, lineAt := 0, line := [], replay := [], credits := [], shared := 0, ctl := [], nonce := 0,
    peerNonce := [], peerIdentity := [], sentSigned := false, sentHello := [], gotHello := [], authFails := 0, intervalS := 3600, exchanges := 0,
    keyPhase := .idle, kem := none, linkKey := none, newKey := none, oldKey := none, probeSent := none, probeDelay := 0, heard := none, heardAt := 0,
    drainOf := [] }

/-- A routing entry at reset (R301). -/
def Route.zero : Route := ⟨false, false, 0, 0, 0, 0, 0⟩

/-- A multicast entry at reset (R302). -/
def McastEnt.zero : McastEnt := ⟨false, 0, false, 0, 0⟩

/-- A reduction node at reset (R330). -/
def RedNode.zero : RedNode := ⟨false, false, 0, 0, 0⟩

/-- Reduction events at reset (R332). -/
def RedEvents.zero : RedEvents := ⟨0, 0, 0, 0⟩

/-- A job's commit state before its first step (R414, R439). -/
def CommitSt.zero : CommitSt :=
  { counts := [], heldDecision := none, homeLost := false, takenOver := false, firstSignal := none, decided := none,
    sentToHome2 := false, alone := false, aborts := [], learned := none, attempt := 0,
    lastCommitted := 0, cause := 0, aborted := [], signalled := false, lastGen := none, deltas := [], codeSent := false,
    stopped := false, replayAt := none }

/-- A rebuild slot at reset (R440). -/
def RebuildSlot.zero : RebuildSlot :=
  { q := 0, lost := 0, entry := 0, group := 0, symbol := 0, st := 0, done := 0, total := 0, job := 0, cmd := none, chunk := [], pausing := false }

/-- Function i of a port at reset (R461-R465): VECTOR 1, L 4, COUNT 1; 128 vectors from 128 i; 512 queues. -/
def FnSt.zero (i : Nat) : FnSt :=
  { aqSq := 0, aqCq := 0, aqAck := 0, enable := false, ready := false, aq := ⟨0, 1, 4, 1⟩, aqEff := ⟨0, 1, 4, 1⟩, event := 0,
    cfg := ⟨BitVec.ofNat 11 (128 * i), 128, 512⟩, cfgEff := ⟨BitVec.ofNat 11 (128 * i), 128, 512⟩,
    waiting := false }

/-- A PCI Express port at reset (R466). -/
def PciePort.zero : PciePort := ⟨0, false, false, 0, 0⟩

/-- An SPDM responder before negotiation (R385). -/
def Spdm.zero : Spdm := ⟨false, false, false, none, 0, none, false, 0⟩

/-- An IDE stream without keys (R365). -/
def IdeStream.zero : IdeStream := ⟨none, none, none, none⟩

/-- A TDISP interface at reset (R366). -/
def TdispIf.zero : TdispIf := ⟨.configUnlocked, none⟩

/-- A Dyke port record that assigns nothing (R337). -/
def DykePort.zero : DykePort := ⟨false, 0, false⟩

/-- An empty laser socket (R513-R515). -/
def Laser.zero : Laser :=
  { st := 0, temp := 0, authFails := 0, int := false, id := [], eqHours := 0, eqPart := 0, biasNow := 0,
    biasStart := 0, biasNom := 0, nonce := 0, tries := 0, authed := false, hourly := false, logged := 0,
    busFails := 0, present := false }

/-- Time at reset (R29-R32, R303, R304): ftime 0, P = 16 µs, local time. -/
def TimeSt.zero : TimeSt :=
  { ftime := 0, latch := none, period := 16, nextPeriod := 0, changeAt := 0, refHolder := false, stepCount := 0,
    st := 0, jump := none, epochSec := 0, remoteRtt := 0, siteInput := false, candidate := false, address := 0,
    reference := 0, hops := 0, upstream := 0, offsetNs := 0, periodAt := 0, nextUs := 0, slew := 0, ppsSet := false,
    point := 0, heardP := 0, lockP := 0 }

/-- What commands act on, after reset: nothing loaded, every unit as its registers' reset columns say. -/
def Work.reset : Work :=
  { time := .zero, slices := [], ctxs := [], cores := [], clusters := [], sluices := [], groups := [],
    combineIns := [], combineUses := [], combineCounts := [], failedUses := [], scale := [], jobs := [], progs := [], hbm := [], tags := [], ctr := [], nodes := [], lostPassed := [], writes := [],
    memStacks := [], parts := [],
    fab := { ports := [], groupRoutes := [], memberRoutes := [], mcast := [], send := [], recv := [], reads := [],
             nextTag := 0, memberAcks := [], noRoute := 0, loop := [], hold := none },
    red := { nodes := [], events := [], ctxs := [], early := [], held := [] },
    commits := [], rebuild := [], heldWrites := [], readAhead := [],
    host := { fns := [], queues := [], pcie := [], stalls := 0, stalled := false, order := [], resuming := false, latches := [], rebootCmd := none },
    log := { entries := [], nextSeq := 0, lost := 0, alert := false, window := false },
    epochs := [], fenced := [], inReset := [], testFailed := [], out := [], fresh := 0, nextId := 0 }

/-- The management of the device after reset (R34, R379, R397-R403, R427-R438, R495-R501). Fused and MRAM values are
DESIGN CHOICE (log entry 4), the levels of the pins too (log entry 2); the test port holds IDCODE (PRESUMED, log entry
101). -/
def Ctl.reset : Ctl :=
  { dies := { active := 0, failovers := 0, standbyReady := false, otherHeld := false },
    boot := { readyMs := 0, romOnly := false, patched := false, patchDigest := [], bringup := false, bringupNext := false, phase := 0,
              patchSerial := 0, patchStore := none, patchBusy := false, patchResult := 0,
              patchBuf := [] },
    pwr := { mainMv := 0, minMv := 0xFFFF, dips := 0, returnPending := false, dip := false, dipTimer := false,
             returnAt := 0, dipMinMv := 0xFFFF, dipNs := 0, cause := 0, maxPoint := 0,
             share := 0, watts := 2400, capPoint := 0, lowRun := 0, watts8 := 0, temps := 0, tj := 0,
             throttle := false, throttleSrc := 0, tripTime := 0, tripSource := 0, tripped := false,
             capUnmet := 0, unmetRun := 0, sample := 0, energy := 0, spanNs := 0, hotTj := 0, coolRun := 0, dipAges := [], pointChanges := 0, throttles := 0 },
    pins := { perstLow := false, pwrgood := true, thermtrip := false, frefclk := true, off := false,
              heldSupply := false, lostInOp := false },
    jtag := { ir := 1, boundary := 0, driving := false, dtmcs := 0, dmi := 0, hart := 0, halted := 0 },
    fuse := { identity := List.replicate 64 0, identityBurned := true, laserKeyBurned := true,
              debugHash := List.replicate 32 0, operator := none, debugUnlocked := false },
    xmss := { nextIndex := 0, reservedEnd := 0, nextBlock := 0, signatures := 0, halted := false },
    health := { frame := 0, migrateReq := false, ckptReq := false, score := 0, inputs := List.replicate 7 0,
                weights := [64, 64, 96, 128, 96, 128, 96], t1 := 128, t2 := 192, ckptArmed := true,
                migrateArmed := true, generation := 0, caps := List.replicate 10 0 },
    fence := { aborted := 0, unit := 0, act := 0, st := 0, named := false, others := [] },
    dyke := { locked := false, rebooting := false, reboots := 0, manifestValid := false, enrolled := false,
              serial := 0, manifest := [], mramSerial := 0, mramManifest := [], next := [], ports := [], reports := [] },
    scrub := { count := 0, active := 0, graceDrops := 0 },
    lasers := [], spdm := [], ide := [], tdisp := [] }

/-- The machine right after reset: every field at the value the spec states, or the log names; no command waits. -/
def State.reset : State := { w := .reset, ctl := .reset, pending := [] }

end Sys2Proof.Machine
end

