-- ==== Sys2Proof/Machine/Base.lean ====
section
/-! DEFINITION. Reading and changing one unit of the state; frames; units; free values; the event log. -/

namespace Sys2Proof.Machine

/-- The register block index of a context: 256 n + 4 c + k (R104). -/
def ctxKey (c : CtxId) : Nat := c.slice.val * 256 + c.core.val * 4 + c.ctx.val

/-- The package number of a core: 64 n + c (R13). -/
def coreKey (c : CtxId) : Nat := c.slice.val * 64 + c.core.val

/-- The package number of a core's cluster: 8 n + c / 8 (R13). -/
def clusterKey (c : CtxId) : Nat := c.slice.val * 8 + c.core.val / 8

/-- The context with a register block index. -/
def ctxOfKey (k : Nat) : CtxId :=
  ⟨⟨k / 256 % 8, Nat.mod_lt _ (by decide)⟩, ⟨k / 4 % 64, Nat.mod_lt _ (by decide)⟩, ⟨k % 4, Nat.mod_lt _ (by decide)⟩⟩

/-- Function f = 16 p + i (R461). -/
def fnKey (f : Fn) : Nat := f.port.val * 16 + f.fn.val

/-- The function numbered f. -/
def fnOfKey (k : Nat) : Fn := ⟨⟨k / 16 % 2, Nat.mod_lt _ (by decide)⟩, ⟨k % 16, Nat.mod_lt _ (by decide)⟩⟩

/-- A queue's place among the queue contexts. -/
def queueKey (f : Fn) (k : Nat) : Nat := fnKey f * 4096 + k

/-- A tensor's or job's or program's place in a partition's table. -/
def partKey (q : Fin 8) (w k : Nat) : Nat := q.val * 2 ^ w + k

/-- A context. -/
def Work.ctx (w : Work) (c : CtxId) : Ctx := w.ctxs.get .empty (ctxKey c)
/-- A context changed. -/
def Work.updCtx (w : Work) (c : CtxId) (f : Ctx → Ctx) : Work := { w with ctxs := w.ctxs.upd .empty (ctxKey c) f }
/-- A core. -/
def Work.core (w : Work) (c : CtxId) : Core := w.cores.get .zero (coreKey c)
/-- A core changed. -/
def Work.updCore (w : Work) (c : CtxId) (f : Core → Core) : Work := { w with cores := w.cores.upd .zero (coreKey c) f }
/-- A slice. -/
def Work.slice (w : Work) (n : Nat) : SliceSt := w.slices.get .zero n
/-- A slice changed. -/
def Work.updSlice (w : Work) (n : Nat) (f : SliceSt → SliceSt) : Work := { w with slices := w.slices.upd .zero n f }
/-- A sluice. -/
def Work.sluice (w : Work) (i : Nat) : Sluice := w.sluices.get .zero i
/-- A sluice changed. -/
def Work.updSluice (w : Work) (i : Nat) (f : Sluice → Sluice) : Work := { w with sluices := w.sluices.upd .zero i f }
/-- A stack. -/
def Work.stack (w : Work) (s : Nat) : Stack := w.memStacks.get .zero s
/-- A stack changed. -/
def Work.updStack (w : Work) (s : Nat) (f : Stack → Stack) : Work := { w with memStacks := w.memStacks.upd .zero s f }
/-- A partition. -/
def Work.part (w : Work) (q : Fin 8) : Part := w.parts.get .zero q.val
/-- A partition changed. -/
def Work.updPart (w : Work) (q : Fin 8) (f : Part → Part) : Work := { w with parts := w.parts.upd .zero q.val f }
/-- A fabric port. -/
def Work.port (w : Work) (p : Nat) : Port := w.fab.ports.get .zero p
/-- A fabric port changed. -/
def Work.updPort (w : Work) (p : Nat) (f : Port → Port) : Work :=
  { w with fab := { w.fab with ports := w.fab.ports.upd .zero p f } }
/-- A job of a partition. -/
def Work.job (w : Work) (q : Fin 8) (j : BitVec 16) : Option Job := w.jobs.get none (partKey q 16 j.toNat)
/-- A job of a partition set or removed. -/
def Work.setJob (w : Work) (q : Fin 8) (j : BitVec 16) (v : Option Job) : Work :=
  { w with jobs := w.jobs.set none (partKey q 16 j.toNat) v }
/-- A job changed, where the partition has it. -/
def Work.updJob (w : Work) (q : Fin 8) (j : BitVec 16) (f : Job → Job) : Work := w.setJob q j ((w.job q j).map f)
/-- A loaded program. -/
def Work.prog (w : Work) (q : Fin 8) (n : BitVec 32) : Option Program := w.progs.get none (partKey q 32 n.toNat)
/-- A loaded program set or removed. -/
def Work.setProg (w : Work) (q : Fin 8) (n : BitVec 32) (v : Option Program) : Work :=
  { w with progs := w.progs.set none (partKey q 32 n.toNat) v }
/-- A scale-table entry. -/
def Work.entry (w : Work) (q : Fin 8) (t : BitVec 20) : Option ScaleEntry := w.scale.get none (partKey q 20 t.toNat)
/-- A scale-table entry set or removed. -/
def Work.setEntry (w : Work) (q : Fin 8) (t : BitVec 20) (v : Option ScaleEntry) : Work :=
  { w with scale := w.scale.set none (partKey q 20 t.toNat) v }
/-- A function. -/
def Work.fn (w : Work) (f : Fn) : FnSt := w.host.fns.get (.zero f.fn.val) (fnKey f)
/-- A function changed. -/
def Work.updFn (w : Work) (f : Fn) (g : FnSt → FnSt) : Work :=
  { w with host := { w.host with fns := w.host.fns.upd (.zero f.fn.val) (fnKey f) g } }
/-- A queue context. -/
def Work.queue (w : Work) (f : Fn) (k : Nat) : Option QueueSt :=
  if k < 4096 then w.host.queues.get none (queueKey f k) else none
/-- Where the epochs hold a function's (R412), which has no unit identifier (R18). -/
def fnEpochKey (f : Fn) : Nat := 2 ^ 16 + fnKey f
/-- A function has been reset (R19, R412): its epoch increases. It has no identifier under which to announce it (log entry 126). -/
def Work.nextFnEpoch (w : Work) (f : Fn) : Work := { w with epochs := w.epochs.upd 0 (fnEpochKey f) (· + 1) }
/-- A queue context set or released. -/
def Work.setQueue (w : Work) (f : Fn) (k : Nat) (v : Option QueueSt) : Work :=
  { w with host := { w.host with queues := w.host.queues.set none (queueKey f k) v } }
/-- The commit state of a job. -/
def Work.commit (w : Work) (q : Fin 8) (j : BitVec 16) : CommitSt := w.commits.get .zero (partKey q 16 j.toNat)
/-- The commit state of a job changed. -/
def Work.updCommit (w : Work) (q : Fin 8) (j : BitVec 16) (f : CommitSt → CommitSt) : Work :=
  { w with commits := w.commits.upd .zero (partKey q 16 j.toNat) f }
/-- A reduction context. -/
def Work.redCtx (w : Work) (job bucket : BitVec 16) : Option RedCtx :=
  w.red.ctxs.get none (job.toNat * 65536 + bucket.toNat)
/-- A reduction context set or released. -/
def Work.setRed (w : Work) (job bucket : BitVec 16) (v : Option RedCtx) : Work :=
  { w with red := { w.red with ctxs := w.red.ctxs.set none (job.toNat * 65536 + bucket.toNat) v } }
/-- A partition's reduction events changed. -/
def Work.updRedEv (w : Work) (q : Fin 8) (f : RedEvents → RedEvents) : Work :=
  { w with red := { w.red with events := w.red.events.upd .zero q.val f } }
/-- A key domain of a partition. -/
def Work.dom (w : Work) (q : Fin 8) (d : Nat) : Dom := (w.part q).doms.get .zero d
/-- A key domain changed. -/
def Work.updDom (w : Work) (q : Fin 8) (d : Nat) (f : Dom → Dom) : Work :=
  w.updPart q fun p => { p with doms := p.doms.upd .zero d f }

/-- P in ns (R21). -/
def TimeSt.periodNs (t : TimeSt) : Nat := t.period.toNat * 1000
/-- The current frame, ⌊ftime ÷ P⌋ (R21, R30). -/
def TimeSt.frame (t : TimeSt) : Nat := t.ftime.toNat / t.periodNs
/-- ftime stands at a tick (R21). -/
def TimeSt.atTick (t : TimeSt) : Bool := decide (t.ftime.toNat % t.periodNs = 0)
/-- The next tick. -/
def TimeSt.tickAfter (t : TimeSt) : Nat := (t.frame + 1) * t.periodNs
/-- The current frame. -/
def Work.frame (w : Work) : Nat := w.time.frame

/-- ftime moves on within its frame; none where a tick would come first. -/
def Work.advance (w : Work) (dt : Nat) : Option Work :=
  if w.time.ftime.toNat % w.time.periodNs + dt < w.time.periodNs then
    some { w with time := { w.time with ftime := w.time.ftime + BitVec.ofNat 64 dt } }
  else none

/-- Every context of the device. -/
def allCtxs : List CtxId := (List.range 2048).map ctxOfKey
/-- The contexts that hold something. -/
def Work.liveCtxs (w : Work) : List CtxId := w.ctxs.map fun e => ctxOfKey e.1
/-- The partitions' numbers. -/
def allParts : List (Fin 8) := [0, 1, 2, 3, 4, 5, 6, 7]

/-- Unit identifiers (R18): CLASS, INDEX, UNIT. -/
def unitId (cls idx u : Nat) : BitVec 16 := BitVec.ofNat 16 (cls * 4096 + idx * 256 + u)
/-- A core's unit. -/
def coreUnit (n c : Nat) : BitVec 16 := unitId 0 n c
/-- A fabric port's unit. -/
def portUnit (p : Nat) : BitVec 16 := unitId 2 (p / 16) (p % 16)
/-- A stack controller's unit. -/
def stackUnit (s u : Nat) : BitVec 16 := unitId 4 s u

/-- A register word from its fields: value, lowest bit, width. Bits that no field covers are reserved and zero (R5). -/
def packReg (l : List (Nat × Nat × Nat)) : Word :=
  BitVec.ofNat 64 (l.foldl (fun n e => n + e.1 % 2 ^ e.2.2 * 2 ^ e.2.1) 0)

/-- One 64-bit free value. -/
def Work.draw (w : Work) : BitVec 64 × Work := (Config.freeWord w.fresh, { w with fresh := w.fresh + 1 })
/-- A fresh 16-byte value. -/
def Work.draw128 (w : Work) : BitVec 128 × Work :=
  (Config.freeWord w.fresh ++ Config.freeWord (w.fresh + 1), { w with fresh := w.fresh + 2 })
/-- A fresh 256-bit key (R348). -/
def Work.drawKey (w : Work) : List Byte × Work :=
  ((List.range 4).flatMap fun i => leBytes 8 (Config.freeWord (w.fresh + i)).toNat, { w with fresh := w.fresh + 4 })
/-- A number for a new key or instruction, not used before. -/
def Work.newId (w : Work) : Nat × Work := (w.nextId, { w with nextId := w.nextId + 1 })

/-- Something leaves the device. -/
def Work.emit (w : Work) (e : Emit) : Work := { w with out := e :: w.out }

/-- A unit is out of service for requests: in reset or reported absent (R409). -/
def Work.isDown (w : Work) (u : BitVec 16) : Bool := w.inReset.contains u
/-- A unit is fenced (R410). -/
def Work.isFenced (w : Work) (u : BitVec 16) : Bool := w.fenced.contains u
/-- A unit leaves reset: its epoch increases and is announced (R19, R409). -/
def Work.newEpoch (w : Work) (u : BitVec 16) : Work :=
  let e := w.epochs.get 0 u.toNat + 1
  ({ w with epochs := w.epochs.set 0 u.toNat e }).emit (.epoch u e)

/-- Every unit of R18, in ascending order. -/
def unitList : List (BitVec 16) :=
  (List.range 8).flatMap (fun n => (List.range 0x44 ++ (List.range 8).map (0x80 + ·) ++ [0xFF]).map (unitId 0 n)) ++
  (List.range 8).flatMap (fun n => [0x00, 0x01, 0x02, 0xFF].map (unitId 1 n)) ++
  (List.range 2).flatMap (fun d => (List.range 0x10 ++ [0x40, 0x41, 0x42, 0x43, 0xFF]).map (unitId 2 d)) ++
  (List.range 2).flatMap (fun d =>
    [0x00, 0x01, 0x02, 0x03, 0x10, 0x11, 0x20, 0x21, 0x30, 0x31, 0x32, 0x40, 0x41, 0x42, 0x43, 0xFF].map (unitId 3 d)) ++
  (List.range 16).flatMap (fun s => (List.range 0x20 ++ [0xFF]).map (unitId 4 s)) ++
  (List.range 4).flatMap (fun k => [0x00, 0xFF].map (unitId 5 k))

/-- The units that are reset with a unit (R18): itself; all of its die or stack for UNIT 0xFF; the eight cores of a cluster. -/
def unitsUnder (u : BitVec 16) : List (BitVec 16) :=
  let n := u.toNat % 256
  u :: unitList.filter fun x => decide (x ≠ u) && decide (x.toNat / 256 = u.toNat / 256) &&
    (decide (n = 0xFF) || (decide (u.toNat / 4096 = 0) && decide (x.toNat % 256 < 64) && decide (n = 0x80 + x.toNat % 256 / 8)))

/-- A unit leaves reset with all that was reset with it (R19, R409). -/
def Work.newEpochs (w : Work) (u : BitVec 16) : Work := (unitsUnder u).foldl (fun w x => w.newEpoch x) w

/-- What a core keeps when its registers and memories are cleared: the state of its B and how it shares the core (R143, R144, R147). -/
def Core.emptied (k : Core) : Core :=
  { Core.zero with bState := k.bState, bPending := k.bPending, sequential := k.sequential, lastB := k.lastB }

/-- An entry joins the log (R491-R493): SEQUENCE counts on, the oldest of 32,768 is overwritten, severities 4 and 5 set
ALERT (R502). -/
def LogSt.add (l : LogSt) (ft : Word) (src : BitVec 16) (code : BitVec 16) (sev part : Byte) (pl : BitVec 128) : LogSt :=
  { l with entries := (⟨ft, src, code, sev, part, l.nextSeq, pl⟩ :: l.entries).take 32768
           nextSeq := l.nextSeq + 1
           lost := if l.entries.length < 32768 then l.lost else satAdd l.lost 1
           alert := l.alert || decide (4 ≤ sev.toNat) }

/-- An event is logged at the current ftime. -/
def Work.logEv (w : Work) (src : BitVec 16) (code : Nat) (sev : Nat) (part : Byte) (pl : Nat) : Work :=
  { w with log := w.log.add w.time.ftime src (BitVec.ofNat 16 code) (BitVec.ofNat 8 sev) part (BitVec.ofNat 128 pl) }

/-- A fresh block of leaf indices is reserved (R379); where its record cannot be written and verified, signing halts. -/
def XmssSt.freshBlock (x : XmssSt) : XmssSt :=
  { x with
    nextIndex := x.nextBlock * 4096, reservedEnd := x.nextBlock * 4096 + 4096, nextBlock := x.nextBlock + 1
    halted := !Config.blockRecorded x.nextBlock.toNat }

/-- Signing that halts is logged (R379); the event has no code of its own (DESIGN CHOICE, log entry 15). -/
def Work.noteHalt (w : Work) (x : XmssSt) : Work :=
  { w with log := if x.halted then (w.logEv (unitId 3 0 0x11) 0x05FF 3 0xFF (x.nextBlock.toNat - 1)).log else w.log }

/-- A partition's number in a log entry. -/
def partByte (q : Fin 8) : Byte := BitVec.ofNat 8 q.val

/-- The log code of a fault: its range's subsystem above the code (R432, R492). -/
def faultEvent (code : Byte) : Nat :=
  let k := code.toNat
  (if k < 0x20 then 0x100 else if k < 0x30 then 0x200 else if k < 0x40 then 0x300 else if k < 0x50 then 0x400
   else if k < 0x60 then 0x500 else if k < 0x70 then 0x600 else 0x700) + k

/-- The partition a function serves (R335, R443); the management functions serve none. -/
def Work.partOf (w : Work) (f : Fn) : Option (Fin 8) :=
  if f.fn = 0 then none
  else allParts.find? fun q =>
    let d := (w.part q).dyke
    d.valid && (if f.port = 0 then d.vfs0 else d.vfs1).getLsbD f.fn.val

/-- A partition's functions. -/
def Work.fnsOf (w : Work) (q : Fin 8) : List Fn :=
  (List.range 32).map fnOfKey |>.filter fun f => w.partOf f = some q

/-- A bit of FN_EVENT is set; a bit that becomes 1 sends the event vector (R464). -/
def Work.fnEvent (w : Work) (f : Fn) (bit : Nat) : Work :=
  let old := (w.fn f).event
  let w' := w.updFn f fun s => { s with event := s.event ||| BitVec.ofNat 6 (2 ^ bit) }
  if old.getLsbD bit then w' else w'.emit (.msix f 0)

/-- A bit of FN_EVENT is set at every function of a partition. -/
def Work.partEvent (w : Work) (q : Fin 8) (bit : Nat) : Work :=
  (w.fnsOf q).foldl (fun w f => w.fnEvent f bit) w

/-- The slices of a partition in ascending order. -/
def Work.slicesOf (w : Work) (q : Fin 8) : List Nat :=
  (List.range 8).filter fun n => (w.part q).dyke.slices.getLsbD n
/-- The partition that holds a slice. -/
def Work.sliceOwner (w : Work) (n : Nat) : Option (Fin 8) :=
  allParts.find? fun q => (w.part q).dyke.valid && (w.part q).dyke.slices.getLsbD n
/-- The ports of a partition. -/
def Work.portsOf (w : Work) (q : Fin 8) : List Nat :=
  (List.range 32).filter fun p => (w.part q).dyke.ports.getLsbD p

/-- A change of what commands act on. -/
def State.onW (s : State) (f : Work → Work) : State := { s with w := f s.w }
/-- A change of the management state. -/
def State.onCtl (s : State) (f : Ctl → Ctl) : State := { s with ctl := f s.ctl }

/-- A management function (R336). -/
def physical (who : Fn) : Bool := decide (who.fn = 0)

/-- A function answers its host (R336, R392, R396): a management function, or a virtual function of a partition that no removal
holds. -/
def Work.fnUp (w : Work) (f : Fn) : Bool :=
  decide (f.fn = 0) || (match w.partOf f with | some q => decide ((w.part q).removal = 0) | none => false)

/-- The device is not held in reset or without supply by its pins (R484, R526). -/
def PinSt.released (p : PinSt) : Bool := !p.off && !p.heldSupply && p.pwrgood && !p.perstLow

/-- The device is Ready (R478, R481, R495, R526): the boot, or bring-up mode, is reached and nothing holds the device. -/
def Ctl.ready (c : Ctl) : Bool := c.pins.released && decide (4 ≤ c.boot.phase.toNat)

/-- A slice of the function's partition is being scrubbed (R392). -/
def State.scrubs (s : State) (f : Fn) : Bool :=
  match s.w.partOf f with
  | some q => (s.w.slicesOf q).any fun n => s.ctl.scrub.active.getLsbD n
  | none => false

/-- A function accepts memory requests of its host (R336, R366, R392, R396, R478): the device is Ready, the function answers, its
slices are not being scrubbed and its interface is not in ERROR. -/
def State.fnOpen (s : State) (f : Fn) : Bool :=
  s.ctl.ready && s.w.fnUp f && !s.scrubs f && decide ((s.ctl.tdisp.get .zero (fnKey f)).st ≠ .error)

/-- A memory write of a function: one that is not accepted completes as Unsupported Request and changes nothing (R366, R392, R478). -/
def State.request (s : State) (who : Fn) (f : State → State) : State := if s.fnOpen who then f s else s

end Sys2Proof.Machine
end

