-- ==== Sys2Proof/Machine/HostOps.lean ====
section
/-! DEFINITION. Completions, interrupts and the life of an accepted command (R405, R449-R454, R459). -/

namespace Sys2Proof.Machine

/-- Fields of a submission entry (R448): `n` bytes at offset `o`, little-endian. -/
def cmdArg (e : BitVec 512) (o n : Nat) : Nat := bitsOf e.toNat (8 * o) (8 * n)
/-- OPCODE (R448). -/
def cmdOpcode (e : BitVec 512) : Nat := cmdArg e 0 1
/-- FLAGS[0] ORDERED (R448, R451). -/
def cmdOrdered (e : BitVec 512) : Bool := e.getLsbD 8
/-- FLAGS[1] URGENT (R448, R453). -/
def cmdUrgent (e : BitVec 512) : Bool := e.getLsbD 9
/-- SEQ (R448). -/
def cmdSeq (e : BitVec 512) : BitVec 48 := BitVec.ofNat 48 (cmdArg e 2 6)
/-- JOB (R448). -/
def cmdJob (e : BitVec 512) : BitVec 16 := BitVec.ofNat 16 (cmdArg e 8 2)
/-- PARTITION (R448). -/
def cmdPart (e : BitVec 512) : Nat := cmdArg e 10 1

/-- Slots of a queue's ring. -/
def QueueSt.size (q : QueueSt) : Nat := 2 ^ q.l
/-- Completions written and not yet freed (R447). -/
def QueueSt.used (q : QueueSt) : Nat := q.cqTail - q.cqHead

/-- A command that is accepted and not complete (R405). -/
def CmdEnt.live (e : CmdEnt) : Bool :=
  !e.dup && !e.bad && (match e.st with | .done _ _ => false | _ => true)
/-- A command that has not started. -/
def CmdEnt.unstarted (e : CmdEnt) : Bool := !e.dup && !e.bad && decide (e.st = .accepted)
/-- A command that has taken effect (R451). -/
def CmdEnt.effective (e : CmdEnt) : Bool :=
  e.dup || e.bad || (match e.st with | .done _ _ => true | .effect => true | _ => false)

/-- Accepted commands not completed, device-wide (R450, R466). -/
def Work.held (w : Work) : Nat :=
  w.host.queues.foldl (fun n e => n + (match e.2 with | some q => (q.cmds.filter CmdEnt.live).length | none => 0)) 0
/-- Queue contexts in use (R445, R466). -/
def Work.queuesInUse (w : Work) : Nat := w.host.queues.length
/-- Queues a function holds (R463). -/
def Work.queuesOf (w : Work) (f : Fn) : List Nat :=
  (w.host.queues.filter fun e => e.1 / 4096 = fnKey f).map fun e => e.1 % 4096
/-- Whether a function may take another queue context (R445). -/
def Work.queueRoom (w : Work) (f : Fn) : Bool :=
  decide ((w.queuesOf f).length < min (w.fn f).cfgEff.maxQueues.toNat 4096) && decide (w.queuesInUse < 16384)

/-- A queue sends its interrupt (R453). -/
def Work.interrupt (w : Work) (f : Fn) (k : Nat) : Work :=
  match w.queue f k with
  | none => w
  | some q => (w.setQueue f k (some { q with unsignalled := 0 })).emit (.msix f q.vector)

/-- The 16-byte completion entry (R452). -/
def completionEntry (seq : BitVec 48) (status : BitVec 16) (result : BitVec 48) (phase dup : Bool) : BitVec 128 :=
  BitVec.ofNat 16 (phase.toNat + 2 * dup.toNat) ++ result ++ status ++ seq

/-- The outcome of the first due completion of a queue, if it may be written: its own, or, for a copy, the original's
(R449, R467). -/
def QueueSt.ready (q : QueueSt) : Option (CmdEnt × BitVec 16 × BitVec 48) :=
  match q.cmds with
  | [] => none
  | e :: _ =>
    if q.used < q.size - 1 then
      if e.dup then (q.history.get none e.seq.toNat).map fun r => (e, r.1, r.2)
      else match e.st with | .done st r => some (e, st, r) | _ => none
    else none

/-- One completion is written (R452): the slot, PHASE, the outcome kept for resubmissions, the interrupt rule (R453).
One slot of a ring stays unused (DEDUCED, log entry 11). -/
def Work.writeCompletion (w : Work) (f : Fn) (k : Nat) : Work :=
  match w.queue f k with
  | none => w
  | some q =>
    match q.ready with
    | none => w
    | some (e, st, r) =>
      let ph := q.cqTail / q.size % 2 == 0
      let q' := { q with cmds := q.cmds.tail, cqTail := q.cqTail + 1, unsignalled := q.unsignalled + 1
                         history := if e.dup || e.bad then q.history
                                    else (q.history.put e.seq.toNat (some (st, r))).del (e.seq - 4096).toNat }
      let w1 := (w.setQueue f k (some q')).emit
        (.completion f k (q.cqTail % q.size) (completionEntry e.seq st r ph e.dup))
      if cmdUrgent e.entry || decide (q.count ≤ q'.unsignalled) || q.time == 0 then w1.interrupt f k else w1

/-- Completions are written in acceptance order as far as they can be (R452). -/
def Work.flush (w : Work) (f : Fn) (k : Nat) : Nat → Work
  | 0 => w
  | n + 1 =>
    match (w.queue f k).bind QueueSt.ready with
    | none => w
    | some _ => Work.flush (w.writeCompletion f k) f k n

/-- A command of a queue receives its outcome; RESULT is 0 unless STATUS is success (R452). The completion joins the
due ones. -/
def QueueSt.settle (q : QueueSt) (seq : BitVec 48) (st : BitVec 16) (r : BitVec 48) : QueueSt :=
  { q with cmds := q.cmds.map fun e =>
      if e.live && decide (e.seq = seq) then { e with st := .done st (if st = 0 then r else 0) } else e }

/-- A queue that drains and has nothing left is released; the DELETE_QUEUE that asked for it is settled with the queue's
last completion written (R459). -/
def Work.releaseDrained (w : Work) (f : Fn) (k : Nat) : Work :=
  match w.queue f k with
  | none => w
  | some q =>
    if q.draining && q.cmds.isEmpty then
      let w1 := w.setQueue f k none
      match q.deleteBy with
      | none => w1
      | some r =>
        match w1.queue r.fn r.queue with
        | none => w1
        | some q2 =>
          let w2 := w1.setQueue r.fn r.queue (some (q2.settle r.seq 0 0))
          w2.flush r.fn r.queue (q2.cmds.length + 1)
    else w

/-- A command ends with STATUS and RESULT: one completion, in acceptance order (R405, R406, R452). -/
def Work.finish (w : Work) (r : CmdRef) (st : Nat) (res : Nat) : Work :=
  match w.queue r.fn r.queue with
  | none => w
  | some q =>
    let w1 := w.setQueue r.fn r.queue (some (q.settle r.seq (BitVec.ofNat 16 st) (BitVec.ofNat 48 res)))
    (w1.flush r.fn r.queue (q.cmds.length + 1)).releaseDrained r.fn r.queue

/-- A live command changes its standing. -/
def Work.markCmd (w : Work) (r : CmdRef) (st : CmdSt) : Work :=
  match w.queue r.fn r.queue with
  | none => w
  | some q =>
    let cmds := q.cmds.map fun e => if e.live && decide (e.seq = r.seq) then { e with st := st } else e
    w.setQueue r.fn r.queue (some { q with cmds := cmds })

/-- The command named by a reference, if it is live. -/
def Work.cmd (w : Work) (r : CmdRef) : Option CmdEnt :=
  (w.queue r.fn r.queue).bind fun q => q.cmds.find? fun e => e.live && decide (e.seq = r.seq)

/-- Whether an accepted command may start (R451): every earlier command of its queue has started, and if it is ORDERED
has taken effect. -/
def Work.mayStart (w : Work) (r : CmdRef) : Bool :=
  match w.queue r.fn r.queue with
  | none => false
  | some q =>
    let earlier := q.cmds.takeWhile fun e => !(e.live && decide (e.seq = r.seq))
    match q.cmds.find? fun e => e.live && decide (e.seq = r.seq) with
    | none => false
    | some e =>
      e.unstarted && !q.draining && earlier.all (fun x => !x.unstarted) &&
        (!cmdOrdered e.entry || earlier.all CmdEnt.effective)

/-- An accepted command of the given opcode starts: its entry, when it may. -/
def Work.startCmd (w : Work) (r : CmdRef) (opcode : Nat) : Option (BitVec 512) :=
  if w.mayStart r then
    (w.cmd r).bind fun e => if cmdOpcode e.entry = opcode then some e.entry else none
  else none

/-- What waits for a command that has ended otherwise lets it go (R419, R456, R459): its LOAD runs on without it, and what it
had still to do is not done. -/
def Work.detach (w : Work) (r : CmdRef) : Work :=
  let keep := fun (c : Option CmdRef) => if c = some r then none else c
  let w1 : Work := { w with
    progs := w.progs.map fun e => (e.1, e.2.map fun (p : Program) => { p with load := keep p.load })
    jobs := w.jobs.map fun e => (e.1, e.2.map fun (j : Job) => { j with plan := if j.plan.any (fun p => decide (p.2.2 = r)) then none else j.plan })
    host := { w.host with
      queues := w.host.queues.map fun e => (e.1, e.2.map fun (q : QueueSt) => { q with deleteBy := keep q.deleteBy })
      rebootCmd := keep w.host.rebootCmd } }
  let w2 := allParts.foldl (fun w q => w.updPart q fun p =>
    { p with removeCmd := keep p.removeCmd
             resumePending := if p.resumePending = some (some r) then none else p.resumePending
             pageChanges := p.pageChanges.filter fun c => decide (c.cmd ≠ some r) }) w1
  [0, 1, 2, 3].foldl (fun (w : Work) i =>
    { w with rebuild := w.rebuild.upd .zero i fun s => if s.cmd = some r then { s with st := 4, cmd := none, chunk := [], pausing := false } else s }) w2

/-- The ACK word is written for the last command taken of a batch (R449). -/
def Work.ackBatch (w : Work) (f : Fn) (k : Nat) : Work :=
  match w.queue f k with
  | some q => if q.ackDue then (w.setQueue f k (some { q with ackDue := false })).emit (.ackWord f k (q.x - 1)) else w
  | none => w

/-- Every live command that satisfies a test ends with a status (R394, R419, R459). -/
def Work.abortCmds (w : Work) (f : Fn) (k : Nat) (test : CmdEnt → Bool) (st : Nat) : Work :=
  match w.queue f k with
  | none => w
  | some q =>
    (q.cmds.filter fun e => e.live && test e).foldl (fun w e => (w.detach ⟨f, k, e.seq⟩).finish ⟨f, k, e.seq⟩ st 0) w

/-- A command that has not started, or a LOAD whose checks are over: a disable ends it (R410, R456, R459). -/
def CmdEnt.endsAtFence (e : CmdEnt) : Bool := e.unstarted || decide (e.st = .effect)

/-- A queue is fenced and drained (R459, R410): what has been taken of it is acknowledged (R449), commands not yet started end with
0x0360, and so does a LOAD that waits for its program (R456); what has started runs on. A queue that drains already does so for whoever
asked first. -/
def Work.disableQueue (w : Work) (f : Fn) (k : Nat) (by_ : Option CmdRef) : Work :=
  match (w.ackBatch f k).queue f k with
  | none => w
  | some q =>
    if q.draining then w
    else
      let w1 := (w.ackBatch f k).setQueue f k (some { q with draining := true, deleteBy := by_ })
      (w1.abortCmds f k CmdEnt.endsAtFence 0x360).releaseDrained f k

/-- The Staithe's unit (R18). -/
def staitheUnit : BitVec 16 := unitId 3 0 0x10

/-- 100 µs after the fence, what still runs of a draining queue ends with 0x0360 (R410, R459). -/
def Work.abortDraining (w : Work) : Work :=
  (w.host.queues.map fun e => (fnOfKey (e.1 / 4096), e.1 % 4096)).foldl (fun w x =>
    match w.queue x.1 x.2 with
    | some q => if q.draining then w.abortCmds x.1 x.2 (fun _ => true) 0x360 else w
    | none => w) w

end Sys2Proof.Machine
end

