-- ==== Sys2Proof/Machine/Wire.lean ====
section
/-! DEFINITION. What travels on a link: codewords over wavelengths, flits, packets and their encryption (R266-R269, R282, R361, R363). -/

namespace Sys2Proof.Machine

/-- One bit of CRC-64 with the ECMA-182 polynomial (R268). -/
def crcStep (c : BitVec 64) : BitVec 64 := if c.getLsbD 63 then (c <<< 1) ^^^ 0x42F0E1EBA9EA3693 else c <<< 1

/-- CRC-64 with the ECMA-182 polynomial (R268), from 0, most significant bit first, as ECMA-182 has it (PRESUMED, log entry 112). -/
def crc64 (l : List Byte) : BitVec 64 :=
  l.foldl (fun (c : BitVec 64) (b : Byte) => crcStep (crcStep (crcStep (crcStep (crcStep (crcStep (crcStep (crcStep (c ^^^ (b.setWidth 64 <<< 56)))))))))) 0

/-- The header word of a flit (R268). -/
def flitHead (f : Flit) : Word :=
  packReg [(f.seq.toNat, 48, 16), (f.ack.toNat, 32, 16), (f.cvc.toNat, 29, 3), (f.cshared.toNat, 28, 1), (f.credits.toNat, 16, 12),
           (f.start.toNat, 8, 5), (f.typ.toNat, 0, 4)]

/-- Bytes 0-247 of a flit (R268). -/
def flitFront (f : Flit) : List Byte := leBytes 8 (flitHead f).toNat ++ bytesAt f.body 0 240

/-- The 256 bytes of a flit (R268). -/
def flitBytes (f : Flit) : List Byte := flitFront f ++ leBytes 8 f.crc.toNat

/-- A codeword that carries bytes of the flit was not corrected (R267): it has more than 15 bad symbols. -/
def flitFailed (f : Flit) : Bool := f.codewords.any fun c => c.2 && decide (15 < c.1)

/-- A flit that can be used (R267, R269): its codewords were corrected, and its CRC holds. -/
def flitGood (f : Flit) : Bool := !flitFailed f && decide (f.crc = crc64 (flitFront f))

/-- A flit with its CRC. -/
def mkFlit (typ : BitVec 4) (seq ack : BitVec 16) (cvc : BitVec 3) (cshared : Bool) (credits : BitVec 12) (start : BitVec 5)
    (body : List Byte) : Flit :=
  let f : Flit := ⟨seq, ack, cvc, cshared, credits, start, typ, body, 0, []⟩
  { f with crc := crc64 (flitFront f) }

/-- A product in GF(2^10) over x^10 + x^3 + 1, the field of RS(544,514) in IEEE 802.3 (R267; PRESUMED, log entry 112). -/
def gf10Mul (x : Nat) : Nat → Nat → Nat
  | 0, _ => 0
  | n + 1, y =>
    let r := 2 * gf10Mul x n (y / 2)
    let r1 := if 1024 ≤ r then r ^^^ 0x409 else r
    if y.testBit 0 then r1 ^^^ x else r1

/-- The 30 coefficients below the first of the generator polynomial, highest first: the roots are the powers 0 to 29 of 2 (R267;
PRESUMED, log entry 112). -/
def rsGenerator : List Nat :=
  ((List.range 30).foldl (fun (s : Nat × List Nat) _ =>
    let g := s.2
    (gf10Mul 2 10 s.1, (List.range (g.length + 1)).map fun i => (g.getD i 0) ^^^ (if i = 0 then 0 else gf10Mul s.1 10 (g.getD (i - 1) 0))))
    (1, [1])).2.drop 1

/-- The 30 parity symbols of a message of 10-bit symbols (R267): the remainder by the generator polynomial. -/
def rsParity (message : List Nat) : List Nat :=
  message.foldl (fun (r : List Nat) m =>
    let lead := (r.getD 0 0) ^^^ m
    (List.range 30).map fun i => (r.getD (i + 1) 0) ^^^ (gf10Mul lead 10 (rsGenerator.getD i 0))) (List.replicate 30 0)

/-- A block of 32 bytes as its 257-bit all-data transcoded block (R267): a 1, then the 256 bits. -/
def transcode (b : List Byte) : Nat := 1 + 2 * leNat b

/-- The 544 symbols of the codeword that carries twenty blocks of 32 bytes (R267), in the order they are sent. -/
def codeword (bytes : List Byte) : List Nat :=
  let bits := (List.range 20).foldr (fun i n => transcode (bytesAt bytes (32 * i) 32) + 2 ^ 257 * n) 0
  let message := (List.range 514).map fun i => bits / 1024 ^ i % 1024
  message ++ rsParity message

/-- The codeword pair that carries five flits (R267). -/
def codewordPair (fs : List Flit) : List (List Nat) :=
  let bytes := fs.flatMap flitBytes
  [codeword (bytes.take 640), codeword (bytes.drop 640)]

/-- The symbols that one wavelength carries of a codeword (R267): symbol i goes to the (i mod WIDTH)-th wavelength in use, in ascending
order. -/
def lambdaSymbols (inUse : BitVec 9) (lam : Nat) (c : List Nat) : List Nat :=
  let used := (List.range 9).filter fun k => inUse.getLsbD k
  ((List.range c.length).filter fun i => decide (used[i % used.length]? = some lam)).map fun i => c.getD i 0

/-- The wavelengths in use for a codeword pair after moves (R266): a spare takes the place of a bad one from its pair on. -/
def movedLams (trained : BitVec 9) (moves : List (Fin 9 × Fin 9 × Nat)) (pair : Nat) : BitVec 9 :=
  moves.foldl (fun m e => if e.2.2 ≤ pair then (m &&& ~~~(BitVec.ofNat 9 (2 ^ e.1.val))) ||| BitVec.ofNat 9 (2 ^ e.2.1.val) else m) trained

/-- The wavelengths that a port sends a codeword pair on (R266). -/
def Port.txLambdasAt (p : Port) (pair : Nat) : BitVec 9 := movedLams p.trained p.txMoves pair
/-- The wavelengths that a port receives a codeword pair on (R266). -/
def Port.rxLambdasAt (p : Port) (pair : Nat) : BitVec 9 := movedLams p.trained p.rxMoves pair

/-- What each wavelength in use carries of the codeword pair of five flits (R267). -/
def pairLanes (inUse : BitVec 9) (fs : List Flit) : List (Fin 9 × List Nat) :=
  (([0, 1, 2, 3, 4, 5, 6, 7, 8] : List (Fin 9)).filter fun l => inUse.getLsbD l.val).map fun l =>
    (l, (codewordPair fs).flatMap (lambdaSymbols inUse l.val))

/-- The body of a CTL flit (R269): byte 0 the code, bytes 8-39 the arguments, the rest zero. -/
def ctlBody (code : Byte) (args : List Byte) : List Byte := code :: List.replicate 7 0 ++ bytesAt args 0 32

/-- A received CTL flit as the flit that it is (R268). -/
def CtlRx.flit (r : CtlRx) : Flit := ⟨0, r.ack, r.cvc, r.cshared, r.credits, 31, 3, [], 0, r.codewords⟩

/-- Whole words of 8 bytes that hold a payload (R282). -/
def padded (b : List Byte) : List Byte := bytesAt b 0 ((b.length + 7) / 8 * 8)

/-- Bytes of a packet on a link (R282): header, payload padded to a multiple of 8, tag. -/
def pktBytes (k : Pkt) : Nat := 32 + (k.payload.length + 7) / 8 * 8 + 16

/-- The 32-byte header of a packet (R282). -/
def pktHeader (k : Pkt) : List Byte :=
  leBytes 2 k.dest.toNat ++ leBytes 2 k.src.toNat ++ leBytes 2 k.job.toNat ++
    [k.kind, BitVec.ofNat 8 (k.bestEffort.toNat + 2 * k.mcast.toNat + 4 * k.retx.toNat + 8 * k.held.toNat + 16 * k.hops.toNat),
     k.slot.setWidth 8, k.status] ++
    leBytes 2 k.payload.length ++ leBytes 4 k.frame.toNat ++ leBytes 8 k.seq.toNat ++ leBytes 8 k.addr.toNat

/-- The key and the salt of a direction among the 72 bytes of R362. -/
def dirKey (keys : List Byte) (fromLower : Bool) : List Byte × List Byte :=
  if fromLower then (keys.take 32, bytesAt keys 64 4) else ((keys.drop 32).take 32, bytesAt keys 68 4)

/-- The IV of a packet (R361): the salt, then the 64-bit number of its first flit, most significant byte first (DEDUCED, log entry
109). -/
def pktIv (salt : List Byte) (n : Word) : List Byte := salt ++ msBytes 8 n.toNat

/-- A packet's payload as it travels (R282, R361). -/
def pktCipher (keys : List Byte) (fromLower : Bool) (n : Word) (k : Pkt) : List Byte :=
  let d := dirKey keys fromLower
  gcmCrypt d.1 (pktIv d.2 n) (padded k.payload)

/-- A packet's 16-byte tag (R282, R361): the header is authenticated, the payload encrypted. -/
def pktTag (keys : List Byte) (fromLower : Bool) (n : Word) (k : Pkt) : List Byte :=
  let d := dirKey keys fromLower
  gcmTag d.1 (pktIv d.2 n) (pktHeader k) (pktCipher keys fromLower n k)

/-- The bytes of a packet on a link (R282, R361). -/
def pktWire (keys : List Byte) (fromLower : Bool) (n : Word) (k : Pkt) : List Byte :=
  pktHeader k ++ pktCipher keys fromLower n k ++ pktTag keys fromLower n k

/-- A packet's bytes on a link whose session has no keys yet (R274, R361): in the clear, its tag zero (DESIGN CHOICE, log entry 113). -/
def pktClear (k : Pkt) : List Byte := pktHeader k ++ padded k.payload ++ List.replicate 16 0

/-- A hello or a message of a link key exchange (R282): a packet of the link itself, in no flow. -/
def Pkt.ofLink (k : Pkt) : Bool := k.kind == 0x08 || k.kind == 0x0A

/-- The device identity's XMSS^MT signature (R375, R379): 8,392 bytes, of which the first 8 are the leaf index; then 32 bytes of
randomness and three layers of 87 values of 32 bytes. -/
def xmssSign (index : Nat) (message : List Byte) : List Byte :=
  leBytes 8 index ++ (List.range 8384).map (Config.xmssByte index message)

/-- The device endorsement of an identity key (R28, R376): 8,504 bytes. -/
def endorsement (identity : List Byte) : List Byte :=
  leBytes 4 0x4A32454E ++ leBytes 4 112 ++ leBytes 8 Config.serial.toNat ++ [0x01, 0x10] ++ leBytes 2 0x0020 ++
    leBytes 4 Config.vendorKeyNo.toNat ++ leBytes 4 Config.madeOn.toNat ++ leBytes 4 0 ++ bytesAt identity 0 64 ++ List.replicate 16 0 ++
    (List.range 8392).map Config.endorsementByte

/-- An endorsement of an identity key verifies (R274, R376): its form, the key, and the signature by the key it numbers. -/
def endorsementOk (identity e : List Byte) : Bool :=
  decide (e.length = 8504 ∧ leAt e 0 4 = 0x4A32454E ∧ leAt e 4 4 = 112 ∧ bytesAt e 32 64 = bytesAt identity 0 64) &&
    Config.xmssVerify (Config.vendorKey (leAt e 20 4)) (e.take 112) (e.drop 112)

/-- A flit's number (R361): its SEQ extended to the nearest value above the last number. -/
def extendSeq (last : Word) (seq : BitVec 16) : Word := last + 1 + ((seq - (last + 1).setWidth 16).setWidth 64)

/-- The flits in which a packet has bytes, from its START (R268, R282). -/
def pktSpan (start : BitVec 5) (k : Pkt) : Nat := (8 * start.toNat + pktBytes k + 239) / 240

/-- The flits that a packet takes credits for (R279): that in which it starts is charged to the packet before it where one ends there. -/
def pktCharge (start : BitVec 5) (k : Pkt) : Nat := pktSpan start k - (if start = 0 then 0 else 1)

end Sys2Proof.Machine
end

