-- ==== Sys2Proof/Machine/FabOps.lean ====
section
/-! DEFINITION. Routing, credits both ways, flits and packets sent, slot windows, and flows at the sender (R268-R286, R305, R314,
R361). -/

namespace Sys2Proof.Machine

/-- Port states by code (R270). -/
def Port.dark : Nat := 0
/-- ACTIVE (R270). -/
def Port.isActive (p : Port) : Bool := p.st == 5
/-- An entry's ports in order (R301). -/
def Route.ports (e : Route) : List Nat :=
  ([e.p0, e.p1, e.p2, e.p3].map BitVec.toNat).take (e.count.toNat + 1)

/-- The routing entry of partition q for a destination (R276). -/
def Work.route (w : Work) (q : Fin 8) (dest : BitVec 16) : Route :=
  if dest.toNat / 64 = w.time.address.toNat / 64 then w.fab.memberRoutes.get .zero (q.val * 64 + dest.toNat % 64)
  else w.fab.groupRoutes.get .zero (q.val * 1024 + dest.toNat / 64)

/-- The ACTIVE ports of the entry that partition q holds, in order (R276). -/
def Work.routePorts (w : Work) (q : Fin 8) (dest : BitVec 16) : List Nat :=
  let e := w.route q dest
  if e.valid then e.ports.filter fun p => (w.port p).isActive && (w.port p).assigned && (w.port p).part == q else []

/-- Credits a port has for virtual channel h, in flits (R276, R279). -/
def Port.creditFlits (p : Port) (h : Nat) : Nat := (p.credits.get 0 h + p.shared) * (if p.longHaul then 64 else 1)

/-- The first port of a list with the most credits for a channel (R276). -/
def Work.mostCredits (w : Work) (h : Nat) : List Nat → Option Nat
  | [] => none
  | p :: ps =>
    match w.mostCredits h ps with
    | none => some p
    | some b => if (w.port b).creditFlits h ≤ (w.port p).creditFlits h then some p else some b

/-- The port by which a packet at hop h leaves (R276): scheduled packets by the first, best-effort packets by the port
with the most credits. -/
def Work.choosePort (w : Work) (q : Fin 8) (dest : BitVec 16) (bestEffort : Bool) (h : Nat) : Option Nat :=
  let c := w.routePorts q dest
  if bestEffort then w.mostCredits h c else c.head?

/-- A port's credits after a packet has taken its own, from its channel's reserve or else from the shared pool (R279);
none when neither has enough. -/
def Port.takeCredits (p : Port) (h n : Nat) : Option Port :=
  let n' := if p.longHaul then (n + 63) / 64 else n
  if n' ≤ p.credits.get 0 h then some { p with credits := p.credits.set 0 h (p.credits.get 0 h - n') }
  else if n' ≤ p.shared then some { p with shared := p.shared - n' }
  else none

/-- This end of a link has the lower device address (R362). -/
def Work.initiator (w : Work) (p : Nat) : Bool := decide (w.time.address.toNat < (w.port p).peer.toNat)

/-- The keys that a port sends under (R363): new ones from its DONE on. -/
def Port.txKeys (p : Port) : List Byte := (p.newKey.orElse fun _ => p.linkKey).getD []

/-- A packet travels in the scheduled class: ACK and NAK packets, whose CTRL[0] names the class of the flow they answer
(R285), travel best-effort (DESIGN CHOICE, log entry 33). -/
def Pkt.scheduled (k : Pkt) : Bool := !k.bestEffort && decide (k.kind ≠ 0x04) && decide (k.kind ≠ 0x05)

/-- A packet can begin in the flit that is being filled (R268, R281): no other begins there, and what it holds is of the same class. -/
def Port.canJoin (p : Port) (k : Pkt) : Bool :=
  match p.tail with | some f => decide (f.start = 31) && f.pkts.all fun x => Pkt.scheduled x == Pkt.scheduled k | none => true

/-- Where a packet begins in its flit (R268). -/
def Port.nextStart (p : Port) (k : Pkt) : BitVec 5 :=
  match p.tail with | some f => if p.canJoin k then BitVec.ofNat 5 (f.body.length / 8) else 0 | none => 0

/-- The credits that the next flit returns (R268, R279): at most 4,095 units, of one channel or the shared pool. -/
def Port.nextCredit (p : Port) : (BitVec 3 × Bool × BitVec 12) × Port :=
  match p.owed with
  | [] => ((0, false, 0), p)
  | (h, sh, n) :: l =>
    if n ≤ 4095 then ((BitVec.ofNat 3 h, sh, BitVec.ofNat 12 n), { p with owed := l })
    else ((BitVec.ofNat 3 h, sh, 4095), { p with owed := (h, sh, n - 4095) :: l })

/-- A flit leaves by a port (R268): it acknowledges and returns credits. It joins the frame's line of flits. -/
def Work.sendFlit (w : Work) (p : Fin 32) (typ : BitVec 4) (seq : BitVec 16) (start : BitVec 5) (body : List Byte) : Work :=
  let c := (w.port p.val).nextCredit
  let f := mkFlit typ seq (c.2.rxNext.setWidth 16) c.1.1 c.1.2.1 c.1.2.2 start body
  (w.updPort p.val fun _ => { c.2 with line := c.2.line ++ [f] }).emit (.flit p f)

/-- The DATA flit that is being filled leaves, its rest zero (R268, R272); on a direct port it stays in the replay buffer. -/
def Work.flushTail (w : Work) (p : Fin 32) : Work :=
  match (w.port p.val).tail with
  | none => w
  | some f =>
    (w.updPort p.val fun y =>
      { y with tail := none, txFlit := y.txFlit + 1, replay := if y.longHaul then [] else y.replay ++ [f] }).sendFlit p 2 f.seq f.start f.body

/-- Bytes of a packet enter the flits of a port, the first at START `st` where it is not 31 (R268). -/
def Work.putBytes (w : Work) (p : Fin 32) (k : Pkt) : Nat → List Byte → BitVec 5 → Work
  | 0, _, _ => w
  | n + 1, bs, st =>
    let po := w.port p.val
    let f := po.tail.getD ⟨po.txFlit.setWidth 16, 31, [], []⟩
    let room := 240 - f.body.length
    let f1 : ReplayFlit := { f with start := if st = 31 then f.start else st, body := f.body ++ bs.take room, pkts := f.pkts ++ [k] }
    let w1 := w.updPort p.val fun y => { y with tail := some f1 }
    let w2 := if 240 ≤ f1.body.length then w1.flushTail p else w1
    if bs.length ≤ room then w2 else Work.putBytes w2 p k n (bs.drop room) 31

/-- The flow a packet of partition q travels on, seen from its sender (R283). -/
def pktFlowOut (k : Pkt) (q : Fin 8) : FlowKey := ⟨q, k.dest, k.bestEffort, k.mcast⟩

/-- A port has sent a packet that this device retains (R410). -/
def Work.markSent (w : Work) (p : Fin 32) (k : Pkt) : Work :=
  let key := pktFlowOut k (w.port p.val).part
  let mark := fun (r : Retained) => if r.pkt.seq = k.seq ∧ r.pkt.kind = k.kind ∧ r.sent.contains p = false then { r with sent := p :: r.sent } else r
  if k.src = w.time.address then
    { w with fab := { w.fab with send := w.fab.send.map fun e => if e.1 = key then (key, { e.2 with retained := e.2.retained.map mark }) else e } }
  else w

/-- A packet is put on the link (R268, R272, R282, R361): right behind the one before it, or in a flit of its own where another begins in
the flit being filled. A link that is not ACTIVE has no keys yet. A flit that is not full leaves before any other flit of the port, and
at the tick (DESIGN CHOICE, log entry 113). -/
def Work.putPacket (w : Work) (p : Fin 32) (k : Pkt) : Work :=
  let w1 := if (w.port p.val).canJoin k then w else w.flushTail p
  let po := w1.port p.val
  let wire := if po.isActive then pktWire po.txKeys (w1.initiator p.val) po.txFlit k else pktClear k
  ((w1.putBytes p k (wire.length / 240 + 2) wire (po.nextStart k)).markSent p k).emit (.packet p k)

/-- The flits that a packet takes at a port: those in which the one before it has no bytes (R279). -/
def Port.charge (p : Port) (k : Pkt) : Nat := pktCharge (p.nextStart k) k

/-- Room in the replay buffer (R272). -/
def Port.replayRoom (p : Port) (k : Pkt) : Bool := p.longHaul || decide (p.replay.length + p.tail.toList.length + p.charge k ≤ 6144)

/-- IDLE flits return what credits are owed (R269, R279). -/
def Work.idle (w : Work) (p : Fin 32) : Nat → Work
  | 0 => w
  | n + 1 => if (w.port p.val).owed.isEmpty then w else Work.idle (w.sendFlit p 0 0 31 []) p n

/-- A port returns the credits that it owes, in the flit being filled and then in IDLE flits, at once (R279; DESIGN CHOICE, log entry
113). -/
def Work.returnCredits (w : Work) (p : Fin 32) : Work :=
  if (w.port p.val).isActive && !(w.port p.val).owed.isEmpty then
    let w1 := w.flushTail p
    w1.idle p (((w1.port p.val).owed.map fun e => e.2.2 / 4095 + 1).sum)
  else w

/-- The epoch of a port (R19). -/
def Work.portEpoch (w : Work) (p : Nat) : Byte := w.epochs.get 0 (portUnit p).toNat

/-- A packet has left a receive buffer (R279): its room is free, and its credits go back. Room of an earlier link session is gone with
it. -/
def Work.giveBack (w : Work) (h : RxHold) : Work :=
  if w.portEpoch h.port.val = h.epoch then
    (w.updPort h.port.val fun y =>
      { y with
        rxRes := if h.shared then y.rxRes else y.rxRes.upd 0 h.vc (· - h.units)
        rxShared := if h.shared then y.rxShared - h.units else y.rxShared
        owed := y.owed ++ [(h.vc, h.shared, h.units)] }).returnCredits h.port
  else w

/-- The room of a packet, if it takes any, is given back. -/
def Work.giveRoom (w : Work) (h : Option RxHold) : Work :=
  match h with
  | none => w
  | some h => w.giveBack h

/-- A packet is taken in hand, with its room. -/
def Work.inHand (w : Work) (h : Option RxHold) : Work := { w with fab := { w.fab with hold := h } }

/-- The room of the packet in hand goes with it to where it waits. -/
def Work.unhand (w : Work) : Work := w.inHand none

/-- The packet in hand leaves its receive buffer, unless it waits somewhere (R279). -/
def Work.settleHold (w : Work) : Work := w.unhand.giveRoom w.fab.hold

/-- Flits that pass in a time at a port's rate (R264): 390.625 per µs at WIDTH 8. -/
def Port.flitsIn (p : Port) (ns : Nat) : Nat := ns * (if p.width = 4 then 50 else 100) / 256
/-- The time in ns after which a number of flits has passed. -/
def Port.flitNs (p : Port) (n : Nat) : Nat := if p.width = 4 then (n * 256 + 49) / 50 else (n * 256 + 99) / 100

/-- The slot table of this frame (R280): T = 1, 2 or 4 tables in turn. -/
def Port.tableNo (p : Port) (frame : Nat) : Nat :=
  frame % (if p.cycleActive = 0 then 1 else if p.cycleActive = 1 then 2 else 4)

/-- Slot k's window in this frame (R280, R281): its start and length in flits, both halved at WIDTH 4; none where it has none. -/
def Port.window (p : Port) (frame k : Nat) : Option (Nat × Nat) :=
  let e := p.active.get .zero (64 * p.tableNo frame + k)
  let d := if p.width = 4 then 2 else 1
  if e.valid then some (e.start.toNat / d, e.length.toNat / d) else none

/-- The flits of a slot's window that are gone (R281): those sent, and those whose time has passed. -/
def Work.windowGone (w : Work) (p : Fin 32) (k start : Nat) : Nat :=
  max ((w.port p.val).windowUsed.get 0 k) ((w.port p.val).flitsIn (w.time.ftime.toNat % w.time.periodNs) - start)

/-- A scheduled packet comes to a port after its slot's window of the frame has closed (R305). -/
def Work.windowClosed (w : Work) (p : Fin 32) (k : Nat) : Bool :=
  match (w.port p.val).window w.frame k with
  | some (st, len) => decide (len ≤ w.windowGone p k st)
  | none => false

/-- A packet of `n` flits that leaves a number of flits after the tick meets no scheduled window of the frame (R281). -/
def Port.clearOf (p : Port) (frame at_ n : Nat) : Bool :=
  (List.range 64).all fun k =>
    match p.window frame k with
    | some (st, len) => decide (at_ + n ≤ st ∨ st + len ≤ at_)
    | none => true

/-- A best-effort packet may leave by a port now (R281). -/
def Work.mayLeave (w : Work) (p : Fin 32) (n : Nat) : Bool :=
  (w.port p.val).clearOf w.frame ((w.port p.val).flitsIn (w.time.ftime.toNat % w.time.periodNs)) n

/-- A packet waits in a slot's queue or for credits, with the room that it takes where it came in (R279, R281, R305). -/
def Work.waitAt (w : Work) (p : Fin 32) (x : Queued) : Work :=
  if Pkt.scheduled x.pkt then
    let late := w.windowClosed p x.pkt.slot.toNat
    w.updPort p.val fun y =>
      { y with slotQ := y.slotQ.upd [] x.pkt.slot.toNat (· ++ [x]), misses := if late then satAdd y.misses 1 else y.misses }
  else w.updPort p.val fun y => { y with txq := y.txq ++ [x] }

/-- A packet leaves by a port, or waits there: scheduled packets for their slot's window (R281), best-effort packets for
credits, replay room and the end of scheduled windows (R272, R279, R281). -/
def Work.transmit (w : Work) (p : Fin 32) (x : Queued) : Work :=
  let po := w.port p.val
  let k := x.pkt
  if Pkt.scheduled k then w.waitAt p x
  else if po.txq.isEmpty && po.replayRoom k && w.mayLeave p (po.charge k) then
    match po.takeCredits k.hops.toNat (po.charge k) with
    | some po' => ((w.updPort p.val fun _ => po').putPacket p k).giveRoom x.hold
    | none => w.waitAt p x
  else w.waitAt p x

/-- A packet of this device's own leaves by a port, or waits there. -/
def Work.transmitOwn (w : Work) (p : Fin 32) (k : Pkt) : Work := w.transmit p ⟨k, none⟩

/-- Waiting best-effort packets leave while credits and replay room last (R272, R279), outside scheduled windows (R281): with `free` in
what the frame has had beside them, else as the time stands. -/
def Work.drainTx (w : Work) (p : Fin 32) (free : Bool) : Nat → Work
  | 0 => w
  | n + 1 =>
    let po := w.port p.val
    match po.txq with
    | [] => w
    | x :: rest =>
      if po.isActive && po.replayRoom x.pkt && (free || w.mayLeave p (po.charge x.pkt)) then
        match po.takeCredits x.pkt.hops.toNat (po.charge x.pkt) with
        | some po' =>
          Work.drainTx (((w.updPort p.val fun _ => { po' with txq := rest }).putPacket p x.pkt).giveRoom x.hold) p free n
        | none => w
      else w

/-- A port's number as a bounded one. -/
def portFin (p : Nat) : Fin 32 := ⟨p % 32, Nat.mod_lt _ (by decide)⟩
/-- A partition's number as a bounded one. -/
def partFin (q : Nat) : Fin 8 := ⟨q % 8, Nat.mod_lt _ (by decide)⟩

/-- A packet is discarded without an ACTIVE port to leave by (R276). -/
def Work.countNoRoute (w : Work) : Work := { w with fab := { w.fab with noRoute := w.fab.noRoute + 1 } }

/-- A packet for this device itself leaves by no port: it is on its way to its delivery in the sender's partition (R276), which is
a command of its own (DESIGN CHOICE, log entry 25). -/
def Work.loopBack (w : Work) (q : Fin 8) (k : Pkt) : Work := { w with fab := { w.fab with loop := w.fab.loop ++ [(q, k)] } }

/-- A multicast packet of partition q is copied to a port (R276, R288): a listed one that is ACTIVE and the partition's. -/
def Work.copiesTo (w : Work) (q : Fin 8) (e : McastEnt) (p : Nat) : Bool :=
  e.ports.getLsbD p && (w.port p).isActive && (w.port p).assigned && decide ((w.port p).part = q)

/-- A packet leaves at hop 0 by its route (R276); the lack of an ACTIVE port in a valid entry is counted. -/
def Work.sendByRoute (w : Work) (q : Fin 8) (k : Pkt) : Work :=
  if (w.route q k.dest).valid then
    match w.choosePort q k.dest (!Pkt.scheduled k) 0 with
    | some p => w.transmitOwn (portFin p) k
    | none => w.countNoRoute
  else w

/-- A packet leaves by a port that the tables do not choose, where it is ACTIVE (R288, R314). -/
def Work.sendByPort (w : Work) (p : Fin 32) (k : Pkt) : Work := if (w.port p.val).isActive then w.transmitOwn p k else w

/-- A packet of partition q leaves this device at hop 0, by the port named, or by its route, or by every branch of its
multicast group; without an ACTIVE port it stays in retention (R276, R286, R288, R314). -/
def Work.launch (w : Work) (q : Fin 8) (k : Pkt) (via : Option (Fin 32)) : Work :=
  match via with
  | some p => w.sendByPort p k
  | none =>
    if !k.mcast && decide (k.dest = w.time.address) then w.loopBack q k
    else if k.mcast then
      let e := w.fab.mcast.get .zero (k.dest.toNat % 4096)
      (List.range 32).foldl (fun w p => if w.copiesTo q e p then w.transmitOwn (portFin p) k else w) w
    else w.sendByRoute q k

/-- A flow at its sender before its first packet (R283). -/
def SendFlow.fresh : SendFlow := ⟨0, [], 0, false⟩
/-- A flow at its destination before its first packet (R283). -/
def RecvFlow.fresh : RecvFlow := ⟨0, [], 0, false, none, 0⟩

/-- The flow of a key at its sender. -/
def Work.sendFlow (w : Work) (k : FlowKey) : SendFlow := ((w.fab.send.find? fun e => e.1 = k).map (·.2)).getD .fresh
/-- A flow at its sender set. -/
def Work.setSend (w : Work) (k : FlowKey) (f : SendFlow) : Work :=
  { w with fab := { w.fab with send := (k, f) :: w.fab.send.filter fun e => e.1 ≠ k } }
/-- The flow of a key at its destination. -/
def Work.recvFlow (w : Work) (k : FlowKey) : RecvFlow := ((w.fab.recv.find? fun e => e.1 = k).map (·.2)).getD .fresh
/-- A flow at its destination set. -/
def Work.setRecv (w : Work) (k : FlowKey) (f : RecvFlow) : Work :=
  { w with fab := { w.fab with recv := (k, f) :: w.fab.recv.filter fun e => e.1 ≠ k } }

/-- The flow a packet of partition q travels on, seen from its destination (R283): by source, or by multicast group. -/
def pktFlowIn (k : Pkt) (q : Fin 8) : FlowKey := ⟨q, if k.mcast then k.dest else k.src, k.bestEffort, k.mcast⟩

/-- Branches and local delivery that a multicast packet waits for (R288). -/
def Work.branches (w : Work) (k : Pkt) : List (Fin 32) :=
  if k.mcast then
    let e := w.fab.mcast.get .zero (k.dest.toNat % 4096)
    ((List.range 32).filter fun p => e.ports.getLsbD p).map portFin
  else []

/-- A packet enters its flow: the next sequence number, retention, and its way out (R283-R286). -/
def Work.sendPkt (w : Work) (q : Fin 8) (k : Pkt) (owner : PktOwner) (sl : Fin 8) (via : Option (Fin 32)) : Work :=
  let key := pktFlowOut k q
  let fl := w.sendFlow key
  let k' := { k with seq := fl.next, src := w.time.address, frame := BitVec.ofNat 32 w.frame, hops := 0 }
  let keep := if k'.mcast && (w.branches k').isEmpty then [] else [⟨k', owner, via, sl, w.branches k', []⟩]
  (w.setSend key { fl with next := fl.next + 1, retained := fl.retained ++ keep }).launch q k' via

/-- A packet that belongs to no flow (R285): an ACK, a NAK, or the packet that resets a flow (R286); routed by its DEST. -/
def Work.sendLoose (w : Work) (q : Fin 8) (k : Pkt) (via : Option (Fin 32)) : Work :=
  let k' := { k with src := w.time.address, frame := BitVec.ofNat 32 w.frame, hops := 0 }
  match via with
  | some p => w.sendByPort p k'
  | none => if k.dest = w.time.address then w.loopBack q k' else w.sendByRoute q k'

/-- A packet with every field zero but those named. -/
def mkPkt (dest job : BitVec 16) (kind : Byte) (addr : Word) (payload : List Byte) : Pkt :=
  { dest, src := 0, job, kind, bestEffort := true, mcast := false, retx := false, held := false, hops := 0, slot := 0,
    status := 0, frame := 0, seq := 0, addr, payload }

/-- Bytes of the packets a slice retains, with their headers (R284). -/
def Work.retainedBytes (w : Work) (sl : Fin 8) : Nat :=
  w.fab.send.foldl (fun n e => e.2.retained.foldl (fun n r =>
    if r.slice = sl then n + 32 + r.pkt.payload.length else n) n) 0

/-- Room for n more bytes in the retention region of a slice (R284). -/
def Work.retainRoom (w : Work) (q : Fin 8) (job : BitVec 16) (sl : Fin 8) (n : Nat) : Bool :=
  match (w.job q job).bind Job.fabric with
  | none => true
  | some f => decide (w.retainedBytes sl + 32 + n ≤ f.retainPages * 2097152)

end Sys2Proof.Machine
end

