-- ==== Sys2Proof/Machine/CommitOps.lean ====
section
/-! DEFINITION. Homes of a job's commit sluice, deciding, and step aborts (R414, R415, R417, R418), and the failure of a
partition (R406, R412, R417). -/

namespace Sys2Proof.Machine

/-- The commit sluice of a job (R190, R414). -/
def Job.commitSluice (j : Job) : Option Nat := j.peat.map fun p => p.commitSluice.toNat

/-- The home device of a job's commit sluice (R97, R414); this device where the job names none or the sluice is local. -/
def Work.homeOf (w : Work) (j : Job) : BitVec 16 :=
  match j.commitSluice with
  | some n => if (w.sluice n).fabric then (w.sluice n).home else w.time.address
  | none => w.time.address

/-- Whether a partition may use the fabric for a job: a fabric section was declared (R283). -/
def Job.onFabric (j : Job) : Bool := j.fabric.isSome

/-- The second home, where it is another device than the home (R413, R415). -/
def Work.home2Of (w : Work) (j : Job) : Option (BitVec 16) :=
  match j.resil with
  | some r => if r.home2 = w.homeOf j then none else some r.home2
  | none => none

/-- Whether this device decides the job's steps: it is the home, or HOME2 after a takeover (R415, R418). -/
def Work.decides (w : Work) (q : Fin 8) (job : BitVec 16) (j : Job) : Bool :=
  decide (w.homeOf j = w.time.address) || (w.commit q job).takenOver

/-- Whether this device is HOME2 of a job and not its home. -/
def Work.isHome2 (w : Work) (j : Job) : Bool := decide (w.home2Of j = some w.time.address)

/-- The outcome of a step is learned (R416): due at the next tick, unless one is due already or it names another
step. -/
def Work.learn (w : Work) (q : Fin 8) (job : BitVec 16) (d : Decision) : Work :=
  match w.job q job with
  | none => w
  | some j =>
    let cs := w.commit q job
    if cs.learned.isSome || decide (d.step ≠ j.step) then w
    else w.updCommit q job fun c => { c with learned := some d, cause := if d.committed then c.cause else d.cause }

/-- A decision is published (R415, R416): the commit sluice changed, and this device learns the outcome. -/
def Work.publishDecision (w : Work) (q : Fin 8) (job : BitVec 16) (d : Decision) : Work :=
  let w1 := match (w.job q job).bind Job.commitSluice with
    | some n => w.updSluice n fun s => { s with changed := true }
    | none => w
  w1.learn q job d

/-- The home decides a step, once (R415). Without another device as HOME2, or when it decides alone, it publishes at
once; otherwise the decision waits for HOME2. -/
def Work.decideStep (w : Work) (q : Fin 8) (job : BitVec 16) (committed : Bool) (cause : Byte) : Work :=
  match w.job q job with
  | none => w
  | some j =>
    let cs := w.commit q job
    if cs.decided.isSome then w
    else
      let gen := match j.commitSluice with | some n => (w.sluice n).gen | none => 0
      let d : Decision := ⟨j.step, gen, committed, if committed then 0 else cause⟩
      let w1 := w.updCommit q job fun c => { c with decided := some d }
      if (w.home2Of j).isNone || cs.alone || cs.takenOver then w1.publishDecision q job d else w1

/-- A step abort reaches this device (R415, R417): the deciding home fails the step it names when it is undecided; an abort
of a later step, and any abort at HOME2, is kept. -/
def Work.abortAtHome (w : Work) (q : Fin 8) (job : BitVec 16) (step : Word) (cause : Byte) : Work :=
  match w.job q job with
  | none => w
  | some j =>
    if w.decides q job j && step == j.step then w.decideStep q job false cause
    else if step.ult j.step then w
    else w.updCommit q job fun c => { c with aborts := if c.aborts.any (·.1 == step) then c.aborts else (step, cause) :: c.aborts }

/-- The 16 payload bytes of a step abort (R417). -/
def abortPayload (step : Word) (cause : Byte) (partFailed : Bool) : List Byte :=
  leBytes 8 step.toNat ++ [cause, if partFailed then 1 else 0] ++ List.replicate 6 0

/-- A device's one step abort for an attempt of a step, to both homes (R417): it names the earliest step whose
`step.commit` has not been sent. -/
def Work.stepAbort (w : Work) (q : Fin 8) (job : BitVec 16) (cause : Byte) (partFailed : Bool) : Work :=
  match w.job q job with
  | none => w
  | some j =>
    match j.peat with
    | none => w
    | some _ =>
      let cs := w.commit q job
      let step := if cs.signalled then j.step + 1 else j.step
      if cs.aborted.contains step || cs.stopped then w
      else
        let w1 := w.updCommit q job fun c => { c with aborted := step :: c.aborted }
        let send := fun (w : Work) (d : BitVec 16) =>
          if d = w.time.address then w.abortAtHome q job step cause
          else if j.onFabric then
            w.sendPkt q (mkPkt d job 0x0B 0 (abortPayload step cause partFailed)) .device 0 none
          else w
        let w2 := send w1 (w1.homeOf j)
        match w2.home2Of j with
        | some d => send w2 d
        | none => w2

/-- The jobs of a partition. -/
def Work.jobsOf (w : Work) (q : Fin 8) : List (BitVec 16) :=
  (w.jobs.filter fun e => e.1 / 65536 = q.val).map fun e => BitVec.ofNat 16 e.1

/-- A partition fails (R358, R412, R417): its jobs abort their steps. -/
def Work.failPartition (w : Work) (q : Fin 8) (cause : Byte) : Work :=
  let w1 := w.updPart q fun p => { p with failed := true }
  (w1.jobsOf q).foldl (fun w j => w.stepAbort q j cause true) w1

end Sys2Proof.Machine
end

