-- ==== Sys2Proof/Machine/MemOps.lean ====
section
/-! DEFINITION. HBM: the address map, translation, errors, poison, and reading and writing blocks (R236-R258,
R344-R359). -/

namespace Sys2Proof.Machine

/-- LIST_n (R240): the channels of a slice that are in the map, alternating between its stacks. -/
def Work.channelList (w : Work) (n : Nat) : List (Nat × Nat) :=
  (List.range 32).filterMap fun i =>
    let s := 2 * n + i % 2
    if (w.stack s).chMap.getLsbD (i / 2) then some (s, i / 2) else none

/-- C_n (R240). -/
def Work.channels (w : Work) (n : Nat) : Nat := (w.channelList n).length

/-- Where a device physical address lies (R239). -/
structure HbmLoc where
  stack : Nat
  channel : Nat
  pc : Nat
  sid : Nat
  bank : Nat
  row : Nat
  column : Nat
deriving DecidableEq, Repr

/-- Whether a device physical address is populated (R238). -/
def Work.populated (w : Work) (pa : Nat) : Bool :=
  decide (pa < 2 ^ 39) && decide (pa % 2 ^ 36 < w.channels (pa / 2 ^ 36) * 0x60000000)

/-- The decode of a populated address (R239). -/
def Work.decodePa (w : Work) (pa : Nat) : HbmLoc :=
  let n := pa / 2 ^ 36
  let off := pa % 2 ^ 36
  let r := off / 2048
  let l := w.channelList n
  let sj := l.getD (r % l.length) (0, 0)
  let u := r / l.length
  let row := u / 16 % 16384
  { stack := sj.1, channel := sj.2, pc := 2 * sj.2 + off / 1024 % 2, sid := u / 262144
    bank := (u % 16) ^^^ (row % 16), row := row, column := off % 1024 }

/-- Translation of a partition address (R344, R345): the device physical address and the domain. -/
def Work.translate (w : Work) (q : Fin 8) (a : Nat) : Option (Nat × Nat) :=
  if a < 2 ^ 48 then
    ((w.part q).pages.get none (a / 2097152)).map fun e => (e.ppage.toNat * 2097152 + a % 2097152, e.dom.toNat)
  else none

/-- The number of the 512 B block of a device physical address. -/
def blockOf (pa : Nat) : Nat := pa / 512
/-- A block's counter word (R352). -/
def Work.ctrWord (w : Work) (b : Nat) : CtrWord := w.ctr.get .fresh b
/-- A block's counter word set. -/
def Work.setCtr (w : Work) (b : Nat) (c : CtrWord) : Work := { w with ctr := w.ctr.set .fresh b c }
/-- A block is fresh: its word is 0 (R352). -/
def CtrWord.isFresh (c : CtrWord) : Bool := decide (c = .fresh)

/-- The number of node `i` of level `k` of a slice's counter tree (R353). -/
def nodeKey (n k i : Nat) : Nat := (8 * n + k) * 2 ^ 27 + i
/-- The word that the parent of a node holds for it (R353): for the one node of level 5, the root register of the slice. -/
def Work.nodeWord (w : Work) (n k i : Nat) : CtrWord := w.nodes.get .fresh (nodeKey n k i)
/-- A node's word set. -/
def Work.setNode (w : Work) (n k i : Nat) (c : CtrWord) : Work := { w with nodes := w.nodes.set .fresh (nodeKey n k i) c }
/-- A node is written back: its word in the parent increases (R353). -/
def Work.nodeBack (w : Work) (n k i : Nat) : Work := w.setNode n k i { w.nodeWord n k i with count := (w.nodeWord n k i).count + 1 }

/-- The nodes above a block are written back, level after level (R353). When a changed node leaves the metadata cache is not stated:
here it is at once (DESIGN CHOICE, log entry 108). -/
def Work.writeBack (w : Work) (b : Nat) : Work :=
  (List.range 5).foldl (fun w j => w.nodeBack (b / 2 ^ 27) (j + 1) (b % 2 ^ 27 / 63 ^ (j + 1))) w

/-- A counter word as its 64 bits (R352). -/
def CtrWord.word (c : CtrWord) : Nat := c.poison.toNat * 2 ^ 63 + c.lost.toNat * 2 ^ 62 + c.count.toNat

/-- The 63 words of a node of a counter tree (R353): those of its blocks, or of its nodes one level down. -/
def Work.nodeWords (w : Work) (n k i : Nat) : List CtrWord :=
  (List.range 63).map fun j => if k = 1 then w.ctrWord (n * 2 ^ 27 + 63 * i + j) else w.nodeWord n (k - 1) (63 * i + j)

/-- The IV of a block or a node (R351, R353): bits [40:9] of its device physical address, then the 64-bit word, most significant byte
first (DEDUCED, log entry 109). -/
def blockIv (pa : Nat) (c : CtrWord) : List Byte := msBytes 4 (bitsOf pa 9 32) ++ msBytes 8 c.word

/-- The node tag (R353): GMAC under the slice's tree key over the 63 words, of the copy of the node that lies at `pa`; the first
64 bits. -/
def Work.nodeTag (w : Work) (n k i pa : Nat) : BitVec 64 :=
  BitVec.ofNat 64 (leNat ((gcmTag (w.slice n).treeKey (blockIv pa (w.nodeWord n k i))
    ((w.nodeWords n k i).flatMap fun c => leBytes 8 c.word) []).take 8))

/-- A block is poisoned (R354). -/
def Work.poison (w : Work) (b : Nat) : Work := (w.setCtr b { w.ctrWord b with poison := true }).writeBack b

/-- The memory of a slice is gone (R352): stored bytes, tags, counter words and nodes. -/
def Work.eraseSlice (w : Work) (n : Nat) : Work :=
  { w with
    hbm := w.hbm.filter fun e => decide (e.1 / 2 ^ 36 ≠ n)
    tags := w.tags.filter fun e => decide (e.1 / 2 ^ 27 ≠ n)
    ctr := w.ctr.filter fun e => decide (e.1 / 2 ^ 27 ≠ n)
    nodes := w.nodes.filter fun e => decide (e.1 / 2 ^ 30 ≠ n)
    lostPassed := w.lostPassed.filter fun b => decide (b / 2 ^ 27 ≠ n) }

/-- A security alarm (R354): a log entry of severity 4 with the domain and device physical address, and TAG_FAILS. The
payload's layout is that of event 0x0380 (DESIGN CHOICE, log entry 15). -/
def Work.alarm (w : Work) (q : Fin 8) (pa d : Nat) : Work :=
  (w.logEv (stackUnit (w.decodePa pa).stack 0xFF) 0x0331 4 (partByte q) (pa / 512 * 512 + d * 2 ^ 48)).updPart q
    fun p => { p with tagFails := satAdd p.tagFails 1 }

/-- A channel fails at run time (R248): its bit, the log entry (no code is assigned:
DESIGN CHOICE, log entry 15), and the failure of the partition that holds the
slice. -/
def Work.failChannel (w : Work) (s j : Nat) : Work :=
  let st := w.stack s
  if st.chFailed.getLsbD j || !st.chMap.getLsbD j then w
  else
    let w1 := (w.updStack s fun x => { x with chFailed := x.chFailed ||| BitVec.ofNat 16 (2 ^ j), runFailed := x.runFailed ||| BitVec.ofNat 16 (2 ^ j) }).logEv
      (stackUnit s (2 * j)) 0x03FF 3 0xFF j
    let w2 := (w1.newEpoch (stackUnit s (2 * j))).newEpoch (stackUnit s (2 * j + 1))
    match w2.sliceOwner (s / 2) with
    | some q => w2.failPartition q 0x40
    | none => w2

/-- A granule's place in its stack (R239, R248), which no change of the channel map moves. -/
def HbmLoc.granule (l : HbmLoc) : Nat := (((l.pc * 3 + l.sid) * 16 + l.bank) * 16384 + l.row) * 2 + l.column / 512

/-- Uncorrectable words of one granule, `more` beside the first (R245, R248): counters, LAST_UE, poison and the log entry; the channel
fails at its eighth granule. -/
def Work.uncorrectable (w : Work) (pa more : Nat) : Work :=
  let l := w.decodePa pa
  let g := blockOf pa
  let st := w.stack l.stack
  let grans := st.ueGranules.get [] l.channel
  let grans' := if grans.contains l.granule then grans else l.granule :: grans
  let w1 := w.updStack l.stack fun x =>
    { x with uncorrectable := satAdd x.uncorrectable (more + 1)
             poisoned := if (w.ctrWord g).poison then x.poisoned else satAdd x.poisoned 1
             lastUe := BitVec.ofNat 64 (2 ^ 63 + l.pc * 2 ^ 48 + g * 512)
             pcErr := x.pcErr.upd .zero l.pc fun e => { e with uncorrectable := satAdd e.uncorrectable (more + 1) }
             ueGranules := x.ueGranules.set [] l.channel grans' }
  let w2 := (w1.poison g).logEv (stackUnit l.stack l.pc) 0x0331 3
    (((w.sliceOwner (pa / 2 ^ 36)).map partByte).getD 0xFF) (g * 512 + l.pc * 2 ^ 48)
  if 8 ≤ grans'.length then w2.failChannel l.stack l.channel else w2

/-- Corrected words at an address (R244). -/
def Work.corrected (w : Work) (pa n : Nat) : Work :=
  let l := w.decodePa pa
  w.updStack l.stack fun x =>
    { x with corrected := satAdd x.corrected n, recent := x.recent + n
             pcErr := x.pcErr.upd .zero l.pc fun e => { e with corrected := satAdd e.corrected n } }

/-- A rekey of a domain starts (R359): NEW beside OLD, the boundary of every slice at the domain's lowest page. -/
def Work.startRekey (w : Work) (q : Fin 8) (d : Nat) : Work :=
  let dm := w.dom q d
  if dm.enabled && !dm.rekeying then
    let (k, w1) := w.drawKey
    let low := fun n => (w1.part q).pages.foldl (fun (m : Option Nat) e =>
      match e.2 with
      | some pe =>
        let pa := pe.ppage.toNat * 2097152
        if pe.dom.toNat = d ∧ pa / 2 ^ 36 = n then some (match m with | some x => min x pa | none => pa) else m
      | none => m) none
    let b := (w1.slicesOf q).foldl (fun (t : Tbl (BitVec 48)) n =>
      match low n with | some pa => t.set 0 n (BitVec.ofNat 48 pa) | none => t) []
    w1.updDom q d fun x => { x with rekeying := true, oldKey := x.key, key := k, boundary := b }
  else w

/-- A counter node of level 1 to 5 bad in both copies (R353, R358): it is rebuilt with every word POISON and LOST, and so is every
block of the slice beneath it, under a new word in its parent; the partition fails; a rekey starts for every domain that maps a page under
the node, and follows a rekey that runs already (DEDUCED, log entry 111). -/
def Work.loseNode (w : Work) (q : Fin 8) (pa level : Nat) : Work :=
  let n := pa / 2 ^ 36
  let k := min (max level 1) 5
  let node := pa % 2 ^ 36 / 512 / 63 ^ k
  let first := node * 63 ^ k
  let size := min (63 ^ k) (2 ^ 27 - first)
  let blk := fun i => n * 2 ^ 27 + first + i
  let bad := fun (c : CtrWord) => { c with poison := true, lost := true }
  let w0 := (List.range size).foldl (fun w i => w.setCtr (blk i) (bad (w.ctrWord (blk i)))) w
  let words := if k = 1 then w0
    else (List.range 63).foldl (fun w j => w.setNode n (k - 1) (63 * node + j) (bad (w.nodeWord n (k - 1) (63 * node + j)))) w0
  let w1 : Work := (({ words with lostPassed := words.lostPassed.filter fun b => decide (b < blk 0 ∨ blk size ≤ b) } : Work)).nodeBack n k node
  let doms := (w.part q).pages.filterMap fun e =>
    match e.2 with
    | some pe =>
      let b := blockOf (pe.ppage.toNat * 2097152)
      if b + 4096 ≤ blk 0 ∨ blk size ≤ b then none else some pe.dom.toNat
    | none => none
  let w2 := w1.updPart q fun p => { p with treeLosses := satAdd p.treeLosses 1 }
  let w3 := (w2.logEv (stackUnit (w.decodePa pa).stack 0xFF) 0x0331 3 (partByte q) (pa / 512 * 512)).failPartition q 0x31
  doms.dedup.foldl (fun w d =>
    ((w.updDom q d fun x => { x with lost := true, again := x.rekeying }).startRekey q d)) w3

/-- The stack that holds a copy of a slice's counter nodes (R347): the nodes lie on the even stack of the slice and their mirrors on the
odd one (DESIGN CHOICE, log entry 108). -/
def copyStack (n : Nat) (mirror : Bool) : Nat := 2 * n + mirror.toNat

/-- A stack has failed: no channel of its map is left (R248). -/
def Work.stackFailed (w : Work) (s : Nat) : Bool := decide ((w.stack s).chMap &&& ~~~(w.stack s).chFailed = 0)

/-- One copy of a counter node is bad (R358): it is rewritten from the other; where the stack that holds the other has failed, both are
lost (R373). -/
def Work.repairNode (w : Work) (q : Fin 8) (pa level : Nat) (mirror : Bool) : Work :=
  if w.stackFailed (copyStack (pa / 2 ^ 36) !mirror) then w.loseNode q pa level
  else
    (w.updPart q fun p => { p with treeRepairs := satAdd p.treeRepairs 1 }).logEv
      (stackUnit (copyStack (pa / 2 ^ 36) mirror) 0xFF) 0x0331 1 (partByte q) (pa / 512 * 512)

/-- What an access finds at its first block. -/
def evHere : MemEvent → MemEvent
  | .each e _ => evHere e
  | e => e

/-- A finding of uncorrectable words (R245). -/
def evUe : MemEvent → Bool
  | .uncorrectable _ => true
  | _ => false

/-- What an access finds after its first block. -/
def evLater : MemEvent → MemEvent
  | .each _ l => l
  | _ => .ok

/-- What an access finds after its first `n` blocks. -/
def evAfter : MemEvent → Nat → MemEvent
  | e, 0 => e
  | e, n + 1 => evAfter (evLater e) n

/-- What the controller finds at an address before it serves a request of partition q (R244, R245, R354, R357, R358). -/
def Work.meet (w : Work) (q : Fin 8) (pa d : Nat) : MemEvent → Work
  | .ok => w
  | .corrected n => w.corrected pa n
  | .uncorrectable n => w.uncorrectable pa n
  | .tagFail => if (w.ctrWord (blockOf pa)).isFresh then w else (w.alarm q pa d).poison (blockOf pa)
  | .tagArea =>
    let b := blockOf pa / 64 * 64
    ((List.range 64).foldl (fun w i => w.poison (b + i)) w).logEv (stackUnit (w.decodePa pa).stack 0xFF) 0x0331 3
      (partByte q) (b * 512)
  | .nodeRepair level mirror => w.repairNode q pa level mirror
  | .nodeLoss level => w.loseNode q pa level
  | .each _ _ => w

/-- A domain has a block with LOST set in one of its pages (R369). -/
def Work.lostIn (w : Work) (q : Fin 8) (d : Nat) : Bool :=
  w.ctr.any fun e => e.2.lost && (w.part q).pages.any fun g =>
    match g.2 with | some x => decide (x.dom.toNat = d ∧ x.ppage.toNat = e.1 / 4096) | none => false

/-- LOST of every domain falls when no block with LOST set remains in it (R369). -/
def Work.sweepLost (w : Work) : Work :=
  allParts.foldl (fun w q => w.updPart q fun p =>
    { p with doms := (p.doms.map fun e => (e.1, { e.2 with lost := e.2.lost && w.lostIn q e.1 })).filter fun (e : Nat × Dom) => decide (e.2 ≠ .zero) }) w

/-- The key that the controller uses for a block of a domain (R345, R359): NEW below the boundary of the slice, OLD from it on. -/
def Work.blockKey (w : Work) (q : Fin 8) (d pa : Nat) : List Byte :=
  let x := w.dom q d
  if x.rekeying && decide ((x.boundary.get 0 (pa / 2 ^ 36)).toNat ≤ pa / 512 * 512) then x.oldKey else x.key

/-- The tag of a block's ciphertext under a key and its counter word (R351): the first 64 bits of the GCM tag. -/
def blockTag (key : List Byte) (b : Nat) (c : CtrWord) (cipher : List Byte) : BitVec 64 :=
  BitVec.ofNat 64 (leNat ((gcmTag key (blockIv (512 * b) c) [] cipher).take 8))

/-- A block is encrypted under a key and a new counter word, and stored with its tag (R351, R352). -/
def Work.sealBlock (w : Work) (key : List Byte) (b : Nat) (c : CtrWord) (plain : List Byte) : Work :=
  let cipher := gcmCrypt key (blockIv (512 * b) c) plain
  ({ w with
     hbm := w.hbm.writeN (512 * b) cipher, tags := w.tags.set 0 b (blockTag key b c cipher), ctr := w.ctr.set .fresh b c } : Work).writeBack b

/-- What a block decrypts to under a key, its tag unchecked. -/
def Work.plainOf (w : Work) (key : List Byte) (b : Nat) : List Byte :=
  gcmCrypt key (blockIv (512 * b) (w.ctrWord b)) (w.hbm.readN (512 * b) 512)

/-- The tag check of a block under a key (R351). -/
def Work.tagGood (w : Work) (key : List Byte) (b : Nat) : Bool :=
  decide (w.tags.get 0 b = blockTag key b (w.ctrWord b) (w.hbm.readN (512 * b) 512))

/-- A request that fails before a block is reached: 0x09 for an address that is not populated is logged (R238), as the fault's own
event (DESIGN CHOICE, log entry 15). -/
def Work.unreached (w : Work) (q : Fin 8) (pa : Nat) (code : Byte) : Work :=
  if code = 0x09 then w.logEv (unitId 0 (pa / 2 ^ 36) 0xFF) (faultEvent 0x09) 3 (partByte q) pa else w

/-- A request reaches a block: 0x09 where nothing is populated (R238), 0x40 at a failed channel or an absent slice
(R248, R409), 0x60 at a fenced one (R410), else 0. -/
def Work.reach (w : Work) (pa : Nat) : Byte :=
  let n := pa / 2 ^ 36
  let sl := w.slice n
  if !w.populated pa then 0x09
  else if sl.mappedOut || sl.gated || w.isDown (unitId 0 n 0xFF) then 0x40
  else if w.isFenced (unitId 0 n 0xFF) then 0x60
  else
    let l := w.decodePa pa
    if (w.stack l.stack).chFailed.getLsbD l.channel then 0x40 else 0

/-- The parts of a range of partition addresses by 512 B block: address and length. -/
def blockParts : Nat → Nat → Nat → List (Nat × Nat)
  | 0, _, _ => []
  | fuel + 1, a, n =>
    if n = 0 then []
    else
      let k := min n (512 - a % 512)
      (a, k) :: blockParts fuel (a + k) (n - k)

/-- A range by blocks. -/
def rangeBlocks (a n : Nat) : List (Nat × Nat) := blockParts (n / 512 + 2) a n

/-- Whether every byte of a range is mapped (R345): its blocks are, since a block lies in one page. -/
def Work.mapped (w : Work) (q : Fin 8) (a n : Nat) : Bool :=
  (rangeBlocks a n).all fun b => (w.translate q b.1).isSome

/-- What a read returns: a fault code, 0 for none, and the bytes. -/
structure Got where
  code : Byte
  bytes : List Byte
deriving DecidableEq, Repr

/-- The read-ahead buffers of a context are discarded (R426). -/
def Work.cancelAhead (w : Work) (c : CtxId) : Work := { w with readAhead := w.readAhead.filter fun r => decide (r.ctx ≠ c) }

/-- One block of a read (R351, R352, R354): it is decrypted under its domain's key, and its tag is checked. -/
def Work.readBlock (w : Work) (q : Fin 8) (a n : Nat) (ev : MemEvent) : Got × Work :=
  match w.translate q a with
  | none => (⟨0x09, []⟩, w)
  | some (pa, d) =>
    let c := w.reach pa
    if c ≠ 0 then (⟨c, []⟩, w.unreached q pa c)
    else
      let b := blockOf pa
      let was := (w.ctrWord b).poison
      let w1 := if was && ev = .tagFail then w else w.meet q pa d ev
      let word := w1.ctrWord b
      if word.poison then
        (⟨0x31, []⟩, if !was && (ev = .tagFail || evUe ev) then w1 else w1.alarm q pa d)
      else if word.isFresh then (⟨0, List.replicate n 0⟩, w1)
      else
        let key := w1.blockKey q d pa
        if w1.tagGood key b then (⟨0, ((w1.plainOf key b).drop (pa % 512)).take n⟩, w1)
        else (⟨0x31, []⟩, (w1.alarm q pa d).poison b)

/-- The blocks of a read in ascending order; `ev` is what they meet. The first fault ends it. -/
def Work.readBlocks (w : Work) (q : Fin 8) : List (Nat × Nat) → MemEvent → Got × Work
  | [], _ => (⟨0, []⟩, w)
  | (a, n) :: rest, ev =>
    let (g, w1) := w.readBlock q a n (evHere ev)
    if g.code ≠ 0 then (g, w1)
    else
      let (g2, w2) := Work.readBlocks w1 q rest (evLater ev)
      (⟨g2.code, if g2.code ≠ 0 then [] else g.bytes ++ g2.bytes⟩, w2)

/-- The ranges of a partition in which the device keeps retained packets, flow state and received packets (R283, R284, R289), in a layout
that the spec does not give. -/
def Work.deviceRanges (w : Work) (q : Fin 8) : List (Nat × Nat) :=
  (w.jobs.flatMap fun e =>
    if e.1 / 2 ^ 16 = q.val then
      match e.2.bind Job.fabric with
      | some f =>
        [(f.retainBase.toNat, (List.range 8).countP (fun n => (w.part q).dyke.slices.getLsbD n) * f.retainPages * 2097152),
         (f.flowBase.toNat, 4194304)]
      | none => []
    else []) ++
  (w.fab.ports.filter fun e => e.2.assigned && decide (e.2.part = q ∧ e.2.mereSize ≠ 0)).map fun e =>
    (e.2.mereBase.toNat * 2 ^ 24, e.2.mereSize.toNat * 2 ^ 24)

/-- What a read finds where the device keeps data of its own: free bytes (DESIGN CHOICE, log entry 70). -/
def Work.overDevice (w : Work) (q : Fin 8) (a : Nat) (bytes : List Byte) : List Byte × Work :=
  let rs := w.deviceRanges q
  let own := fun (i : Nat) => rs.any fun r => decide (r.1 ≤ a + i ∧ a + i < r.1 + r.2)
  if rs.any fun r => decide (r.1 < a + bytes.length ∧ a < r.1 + r.2) then
    ((List.range bytes.length).map fun i => if own i then BitVec.ofNat 8 (Config.freeWord (w.fresh + i)).toNat else bytes.getD i 0,
     { w with fresh := w.fresh + bytes.length })
  else (bytes, w)

/-- A read of HBM by a requester of partition q (R245, R345, R352, R354): 0x09 when an address is not mapped. -/
def Work.hbmRead (w : Work) (q : Fin 8) (a n : Nat) (ev : MemEvent) : Got × Work :=
  if w.mapped q a n then
    let (g, w1) := w.readBlocks q (rangeBlocks a n) ev
    if g.code = 0 then
      let (b, w2) := w1.overDevice q a g.bytes
      (⟨0, b⟩, w2)
    else (g, w1)
  else (⟨0x09, []⟩, w)

/-- Bytes over a part of others, from a position. -/
def overlay (old : List Byte) (at_ : Nat) (new : List Byte) : List Byte := old.take at_ ++ new ++ old.drop (at_ + new.length)

/-- A write of one block (R351, R352, R355, R356): it is encrypted under its domain's key with the next count. A partial write reads,
checks and merges; it is refused at a poisoned block, and so is a full one where LOST is set and no rekey has passed the block since. -/
def Work.writeBlock (w : Work) (q : Fin 8) (a : Nat) (bs : List Byte) (ev : MemEvent) : Byte × Work :=
  match w.translate q a with
  | none => (0x09, w)
  | some (pa, d) =>
    let c := w.reach pa
    if c ≠ 0 then (c, w.unreached q pa c)
    else
      let b := blockOf pa
      let full := bs.length = 512
      let was := (w.ctrWord b).poison
      let unread := decide full && (ev = .tagFail || evUe ev)
      let w1 := if unread || (was && ev = .tagFail) then w else w.meet q pa d ev
      let word := w1.ctrWord b
      let key := w1.blockKey q d pa
      let store := fun (w : Work) (plain : List Byte) =>
        let w2 := w.sealBlock key b ⟨false, false, word.count + 1⟩ plain
        let w3 : Work := { w2 with
          lostPassed := w2.lostPassed.filter fun x => decide (x ≠ b)
          readAhead := w2.readAhead.filter fun r => !(decide (r.q = q) && decide (r.addr < a + bs.length) && decide (a < r.addr + r.bytes)) }
        if word.lost then w3.sweepLost else w3
      let refused := fun (w : Work) => ((0x31 : Byte), w.updPart q fun p => { p with partialRefused := satAdd p.partialRefused 1 })
      if word.poison then
        if full ∧ (!word.lost || w1.lostPassed.contains b) = true then
          (0, (store w1 bs).logEv (stackUnit (w.decodePa pa).stack 0xFF) 0x0380 1 (partByte q) (b * 512 + d * 2 ^ 48))
        else refused (if !was && ev = .tagFail && !unread then w1 else w1.alarm q pa d)
      else if full then (0, store w1 bs)
      else if word.isFresh then (0, store w1 (overlay (List.replicate 512 0) (pa % 512) bs))
      else if w1.tagGood key b then (0, store w1 (overlay (w1.plainOf key b) (pa % 512) bs))
      else refused ((w1.alarm q pa d).poison b)

/-- The blocks of a write in ascending order; each is a request of its own (R241), and the first code that is not 0 is
the write's. -/
def Work.writeBlocks (w : Work) (q : Fin 8) : List (Nat × Nat) → List Byte → MemEvent → Byte × Work
  | [], _, _ => (0, w)
  | (a, n) :: rest, bs, ev =>
    let (c, w1) := w.writeBlock q a (bs.take n) (evHere ev)
    let (c2, w2) := Work.writeBlocks w1 q rest (bs.drop n) (evLater ev)
    (if c ≠ 0 then c else c2, w2)

/-- A write of HBM by a requester of partition q: nothing is written when an address is not mapped (0x09). -/
def Work.hbmWrite (w : Work) (q : Fin 8) (a : Nat) (bs : List Byte) (ev : MemEvent) : Byte × Work :=
  if w.mapped q a bs.length then w.writeBlocks q (rangeBlocks a bs.length) bs ev else (0x09, w)

/-- Event 0x0381 (R346, R492): a page-table entry changed. -/
def Work.logPage (w : Work) (q : Fin 8) (page : Nat) (old new : Option PageEnt) : Work :=
  let n := match new with
    | some e => e.ppage.toNat * 2 ^ 27 + e.dom.toNat * 2 ^ 45 + 2 ^ 51 + e.peat.toNat * 2 ^ 52
    | none => 0
  let o := match old with
    | some e => e.ppage.toNat * 2 ^ 53 + 2 ^ 71
    | none => 0
  w.logEv (unitId 3 0 0x11) 0x0381 0 (partByte q) (page % 2 ^ 27 + n + o)

/-- A physical page becomes fresh (R346, R352): its blocks' words are 0 and its old contents are gone. -/
def Work.freshPage (w : Work) (ppage : Nat) : Work :=
  let lost := w.ctr.any fun e => e.2.lost && decide (e.1 / 4096 = ppage)
  let w1 : Work := { w with
    ctr := w.ctr.filter fun e => decide (e.1 / 4096 ≠ ppage)
    tags := w.tags.filter fun e => decide (e.1 / 4096 ≠ ppage)
    lostPassed := w.lostPassed.filter fun b => decide (b / 4096 ≠ ppage)
    hbm := w.hbm.filter fun e => decide (e.1 / 2097152 ≠ ppage) }
  let w2 := (List.range 66).foldl (fun w j => w.writeBack (4096 * ppage + min (63 * j) 4095)) w1
  if lost then w2.sweepLost else w2

/-- The bytes of a partition range as they stand, for the device's own use: fresh blocks read zero, others as they decrypt. -/
def Work.peek (w : Work) (q : Fin 8) (a n : Nat) : List Byte :=
  (rangeBlocks a n).flatMap fun b =>
    match w.translate q b.1 with
    | some (pa, d) =>
      if (w.ctrWord (blockOf pa)).isFresh then List.replicate b.2 0
      else ((w.plainOf (w.blockKey q d pa) (blockOf pa)).drop (pa % 512)).take b.2
    | none => List.replicate b.2 0

/-- Bytes of an overflow page. -/
def pageBytes : Nat := 2097152

/-- Pages that a range of partition addresses touches. -/
def pagesOf (a n : Nat) : List Nat :=
  if n = 0 then [] else (List.range ((a + n - 1) / pageBytes - a / pageBytes + 1)).map fun i => a / pageBytes + i

/-- Whether every page of a range is mapped, with the domain where one is named (R350). -/
def Work.pagesMapped (w : Work) (q : Fin 8) (a n : Nat) (d : Option (BitVec 6)) : Bool :=
  decide (a + n ≤ 2 ^ 48) && (pagesOf a n).all fun g =>
    match (w.part q).pages.get none g with
    | some e => (match d with | some x => e.dom == x | none => true)
    | none => false

end Sys2Proof.Machine
end

