-- ==== Sys2Proof/Machine/Ops.lean ====
section
/-! DEFINITION. Registers of a context, local and cluster memory, and taking a fault: the one operation that stops a
context (R76-R79, R87, R90, R100-R102, R417, R456). -/

namespace Sys2Proof.Machine

/-- The queue of an operation, by opcode group (R82): its code in the fault record (R106). -/
def KOp.queue : KOp → Queue
  | .nop | .sAdd | .sSub | .sAnd | .sOr | .sXor | .sShl | .sShr | .sSra | .sMul | .sMulh | .sDiv | .sLi | .sIns
  | .sSlt | .sSltu | .sLd | .sSt | .sRem | .sSys | .br | .beq | .bne | .blt | .bge | .bltu | .jr => .C
  | .mmfBi8 | .mmfBi4 | .mmfBi16x8 | .mmfBi16 | .accZero | .accDrain | .accMax | .accMin => .F
  | .mmbxBi8 | .mmbxBi4 | .mmbxBi16x8 | .mmbxBi16 | .mmbwBi8 | .mmbwBi4 | .mmbwBi16x8 | .mmbwBi16
  | .accZeroB | .accDrainB | .accMaxB | .accMinB => .B
  | .vadd | .vsub | .vmul | .vmulsh | .vmax | .vmin | .vabs | .vneg | .vand | .vor | .vxor | .vshl | .vsra | .vcmp
  | .vsel | .vbcast | .vins | .vext | .vld | .vst | .vtget | .vtput | .vfn | .vredRow | .vredCol | .vcvt | .vunpk
  | .vrng | .vnoise | .vstat => .V
  | .dmaGet | .dmaPut | .dmaCopy | .dmaFill | .tLd | .tSt | .peatPush | .peatPop | .fabPut | .fabGet | .fabMcast => .M
  | .slArm | .slSig | .slWait | .lfWait | .lfClr | .frameEnd | .ctxFence | .redOpen | .redContrib | .redClose | .stepCommit
  | .sclPin | .rngSet => .C

/-- A queue's code in the fault record (R106). -/
def queueCode : Queue → BitVec 3
  | .C => 0
  | .F => 1
  | .B => 2
  | .V => 3
  | .M => 4

/-- Instructions a queue holds (R82). -/
def queueDepth : Queue → Nat
  | .C => 8
  | .F | .B | .V => 16
  | .M => 32

/-- The value of a scalar register: s0 reads as zero (R76). -/
def Ctx.getS (x : Ctx) (i : Nat) : Word := if i = 0 then 0 else x.sregs.get 0 i
/-- A scalar register written: a write to s0 is ignored (R76). -/
def Ctx.setS (x : Ctx) (i : Nat) (v : Word) : Ctx := if i = 0 then x else { x with sregs := x.sregs.set 0 i v }
/-- A local flag (R87). -/
def Ctx.flag (x : Ctx) (n : Nat) : BitVec 16 := BitVec.ofNat 16 (x.flags.get 0 n)
/-- A local flag increased by 1, wrapping (R87). -/
def Ctx.bumpFlag (x : Ctx) (n : Nat) : Ctx := { x with flags := x.flags.set 0 n ((x.flags.get 0 n + 1) % 65536) }

/-- A scalar register of a context. -/
def Work.sreg (w : Work) (c : CtxId) (i : Nat) : Word := (w.ctx c).getS i
/-- A scalar register of a context written. -/
def Work.setSreg (w : Work) (c : CtxId) (i : Nat) (v : Word) : Work := w.updCtx c fun x => x.setS i v

/-- A vector register's lane: 32 bits at 32 i (R77). -/
def lane (v : BitVec 4096) (i : Nat) : BitVec 32 := v.extractLsb' (32 * i) 32
/-- A vector from its 128 lanes. -/
def ofLanes (f : Nat → BitVec 32) : BitVec 4096 :=
  BitVec.ofNat 4096 ((List.range 128).foldr (fun i n => (f i).toNat + 2 ^ 32 * n) 0)
/-- A vector register. -/
def Work.vreg (w : Work) (c : CtxId) (i : Nat) : BitVec 4096 := (w.core c).vregs.get 0 i
/-- A vector register written. -/
def Work.setVreg (w : Work) (c : CtxId) (i : Nat) (v : BitVec 4096) : Work :=
  w.updCore c fun k => { k with vregs := k.vregs.set 0 i v }
/-- A tile register. -/
def Work.tile (w : Work) (c : CtxId) (i : Nat) : Tile := (w.core c).tiles.get .zero i
/-- A tile register written. -/
def Work.setTile (w : Work) (c : CtxId) (i : Nat) (t : Tile) : Work :=
  w.updCore c fun k => { k with tiles := k.tiles.set .zero i t }
/-- An accumulator tile. -/
def Work.acc (w : Work) (c : CtxId) (i : Nat) : Acc := (w.core c).accs.get .zero i
/-- An accumulator tile written. -/
def Work.setAcc (w : Work) (c : CtxId) (i : Nat) (a : Acc) : Work :=
  w.updCore c fun k => { k with accs := k.accs.set .zero i a }

/-- The bytes of a vector register, and a vector of 512 bytes. -/
def vBytes (v : BitVec 4096) : List Byte := (List.range 512).map fun i => v.extractLsb' (8 * i) 8
/-- A vector of 512 bytes, the first least significant. -/
def vOfBytes (bs : List Byte) : BitVec 4096 := BitVec.ofNat 4096 (leNat (bs.take 512))

/-- A byte range of local or cluster memory of a context: where it lies, or the fault and faulting offset (R78, R79). -/
inductive Span where
  | loc (a : Nat)
  | clu (a : Nat)
  | bad (code : Byte) (at_ : Nat)
deriving DecidableEq, Repr

/-- The range of `n` bytes at an offset in the context's local or cluster window (R79): it must end within the window. The faulting address
of 0x07 and 0x08 (R106) is taken to be where the range starts (DESIGN CHOICE, log entry 116). -/
def Ctx.span (x : Ctx) (cluster : Bool) (off n : Nat) : Span :=
  if cluster then
    if off + n ≤ x.decl.clusterSize then .clu (x.decl.clusterBase + off) else .bad 0x08 off
  else
    if off + n ≤ x.decl.localSize then .loc (x.decl.localBase + off) else .bad 0x07 off

/-- The bytes of a range. -/
def Work.spanRead (w : Work) (c : CtxId) (s : Span) (n : Nat) : List Byte :=
  match s with
  | .loc a => (w.core c).localMem.readN a n
  | .clu a => Mem.readN (w.clusters.get [] (clusterKey c)) a n
  | .bad _ _ => []

/-- A range written. -/
def Work.spanWrite (w : Work) (c : CtxId) (s : Span) (bs : List Byte) : Work :=
  match s with
  | .loc a => w.updCore c fun k => { k with localMem := k.localMem.writeN a bs }
  | .clu a => { w with clusters := w.clusters.upd [] (clusterKey c) fun m => Mem.writeN m a bs }
  | .bad _ _ => w

/-- The two words of a fault record (R106). -/
def FaultRec.word0 (r : FaultRec) : Word :=
  BitVec.ofNat 64 (r.code.toNat * 2 ^ 56 + r.queue.toNat * 2 ^ 50 + r.dispatchPc.toNat * 2 ^ 24 + r.pc.toNat)
/-- Word 1 of a fault record (R106). -/
def FaultRec.word1 (r : FaultRec) : Word := BitVec.ofNat 64 (min r.discarded 65535 * 2 ^ 48 + r.detail.toNat)

/-- The event-log entry of a context fault: the core's unit, its partition, the record's two words (R102, R491). Its
severity is 3, error (DESIGN CHOICE, log entry 15). -/
def Work.logFault (w : Work) (c : CtxId) (r : FaultRec) : Work :=
  w.logEv (coreUnit c.slice.val c.core.val) (faultEvent r.code) 3 (partByte (w.ctx c).part)
    (r.word0.toNat + r.word1.toNat * 2 ^ 64)

/-- The program of a faulted context: its LOAD, if outstanding, completes with 0x02xx (R102, R456), and its job aborts
the step (R417). -/
def Work.notifyFault (w : Work) (c : CtxId) (code : Byte) : Work :=
  let x := w.ctx c
  match w.prog x.part x.program with
  | none => w
  | some p =>
    let w1 := match p.load with
      | some r => (w.setProg x.part x.program (some { p with load := none })).finish r (0x200 + code.toNat) 0
      | none => w
    w1.stepAbort x.part x.job code false

/-- A context has ENDED: when every context of its program has, the LOAD completes with the frame of this ending (R456). -/
def Work.noteEnd (w : Work) (c : CtxId) : Work :=
  let x := w.ctx c
  match w.prog x.part x.program with
  | none => w
  | some p =>
    match p.load with
    | none => w
    | some r =>
      if p.ctxs.all fun d => decide ((w.ctx d).st = .ended) then
        (w.setProg x.part x.program (some { p with load := none })).finish r 0 w.frame
      else w

/-- The lateness of a context in ns (R25, R90): zero unless it is RUNNING or WAITING and its segment has not reached
`frame.end` at its closing tick. -/
def Ctx.lateAt (k : Ctx) (t : TimeSt) : Nat :=
  if (k.st = .running ∨ k.st = .waiting) ∧ k.hold ≠ .tick then t.ftime.toNat - (k.segment + 1) * t.periodNs else 0

/-- The largest lateness since load is kept (R105): noted whenever a segment ends or stops. -/
def Ctx.noteLate (k : Ctx) (t : TimeSt) : Ctx := { k with maxLateness := max k.maxLateness (min (k.lateAt t) (2 ^ 32 - 1)) }

/-- A segment that has passed its closing tick is counted once (R25, R105): at the tick that finds it running, or, where it
began after that tick, when it ends or stops. -/
def Ctx.countOverrun (k : Ctx) (n : Nat) : Ctx :=
  if (k.st = .running ∨ k.st = .waiting) ∧ k.hold ≠ .tick ∧ k.segment < n ∧ k.overrunCounted = false then
    { k with overrunCounted := true, overruns := k.overruns + 1 }
  else k

/-- A segment ends or stops now (R105). -/
def Ctx.noteEnd (k : Ctx) (t : TimeSt) : Ctx := (k.countOverrun t.frame).noteLate t

/-- Taking a fault (R100, R102): the record is filled, the instructions behind the faulting one in its queue are
discarded, the context is FAULTED, the log entry is written and the program's LOAD completes. In a context that is
FAULTED already the instruction ends and the log entry is written, and what its queues hold goes on. `x` is the faulting instruction,
none for a fetch. -/
def Work.fault (w : Work) (c : CtxId) (x : Option InFlight) (pc : Nat) (code : Byte) (detail : Nat) : Work :=
  let k := w.ctx c
  let same := fun (y : InFlight) =>
    match x with
    | some i => decide (y.op.queue = i.op.queue ∧ i.id < y.id) && decide (y.stat = .queued)
    | none => false
  let behind := if k.st = .faulted then [] else k.infl.filter same
  let infl := k.infl.filter fun y => !behind.contains y && decide (some y.id ≠ x.map (·.id))
  let r : FaultRec :=
    { code := code, queue := match x with | some i => queueCode i.op.queue | none => 7
      dispatchPc := BitVec.ofNat 24 k.dispatchPc, pc := BitVec.ofNat 24 pc
      discarded := behind.length, detail := BitVec.ofNat 48 detail }
  if k.st = .faulted then (w.updCtx c fun y => { y with infl := infl }).logFault c r
  else if k.st = .empty ∨ k.st = .absent then w.updCtx c fun y => { y with infl := infl }
  else
    (((w.cancelAhead c).updCtx c fun y => { y.noteEnd w.time with st := .faulted, fault := r, hold := .none, version := none, infl := infl }).logFault
      c r).notifyFault c code

/-- Fault 0x70 (R90, R102): recorded and notified as any fault, but the context runs on; the partition pauses at the
next tick (R91). -/
def Work.fault70 (w : Work) (c : CtxId) : Work :=
  let k := w.ctx c
  let r : FaultRec :=
    { code := 0x70, queue := 7, dispatchPc := BitVec.ofNat 24 k.dispatchPc, pc := BitVec.ofNat 24 k.dispatchPc
      discarded := 0, detail := 0 }
  (((w.updCtx c fun y => { y.noteLate w.time with fault := r, fault70 := true }).logFault c r).notifyFault c 0x70).updPart k.part
    fun p => { p with pausePending := true, pauseFrom := w.frame }

/-- An instruction leaves the context's list: complete; the flag it names increases by 1 (R84, R87). -/
def Work.retire (w : Work) (c : CtxId) (x : InFlight) (flag : Option (Fin 16)) : Work :=
  w.updCtx c fun k =>
    let k' := { k with infl := k.infl.filter fun y => decide (y.id ≠ x.id) }
    match flag with
    | some n => k'.bumpFlag n.val
    | none => k'

/-- What an instruction read at its start is kept for its completion (R113, R235). -/
def Work.noteSnap (w : Work) (c : CtxId) (id : Nat) (bs : List Byte) : Work :=
  w.updCtx c fun k => { k with infl := k.infl.map fun y => if y.id = id then { y with snap := bs } else y }

/-- An instruction stands elsewhere (R84). -/
def Work.setStat (w : Work) (c : CtxId) (id : Nat) (st : IStat) : Work :=
  w.updCtx c fun k => { k with infl := k.infl.map fun y => if y.id = id then { y with stat := st } else y }

end Sys2Proof.Machine
end

