-- ==== Sys2Proof/Machine/Operands.lean ====
section
/-! DEFINITION. Every operand form of Kraif: register classes, tile handles, byte ranges, lengths, descriptors, and what
an instruction reads and writes for the ordering of R85 (R107-R116). -/

namespace Sys2Proof.Machine

/-- The register class of an operand field (R108): 0 scalar, 1 vector, 2 tile, 3 accumulator. -/
def fieldClass (b : Byte) : Nat := b.toNat / 64
/-- The register number of an operand field (R108). -/
def fieldNum (b : Byte) : Nat := b.toNat % 64

/-- What an instruction does with an operand field: the classes it accepts, none when it does not use the field. -/
abbrev Accepts := List Nat

/-- The classes that D, A and B accept (R117, R120, R124, R128, R131, R134); a field that is not used accepts all and
is listed empty. -/
def KOp.accepts (op : KOp) (f : Fields) : Accepts × Accepts × Accepts :=
  match op with
  | .nop | .lfWait | .lfClr | .frameEnd | .ctxFence => ([], [], [])
  | .sAdd | .sSub | .sAnd | .sOr | .sXor | .sShl | .sShr | .sSra | .sSlt | .sSltu =>
    ([0], [0], if f.mod.getLsbD 0 then [] else [0])
  | .sMul | .sMulh | .sDiv | .sRem => ([0], [0], [0])
  | .sLi | .sIns | .sSys | .br => ([0], [], [])
  | .sLd | .jr => ([0], [0], [])
  | .sSt | .beq | .bne | .blt | .bge | .bltu => ([], [0], [0])
  | .mmfBi8 | .mmfBi4 | .mmfBi16x8 | .mmfBi16 | .mmbxBi8 | .mmbxBi4 | .mmbxBi16x8 | .mmbxBi16
  | .mmbwBi8 | .mmbwBi4 | .mmbwBi16x8 | .mmbwBi16 => ([3], [0, 2], [0, 2])
  | .accZero | .accZeroB => ([3], if f.mod.toNat % 4 = 3 then [] else [0], [])
  | .accDrain | .accDrainB => ([0], [3], if f.mod.getLsbD 6 || f.mod.getLsbD 3 || f.mod.getLsbD 4 then [0] else [])
  | .accMax | .accMaxB | .accMin | .accMinB => ([3], [0, 2], [])
  | .vadd | .vsub | .vmul | .vmulsh | .vmax | .vmin | .vand | .vor | .vxor | .vshl | .vsra | .vsel =>
    ([1], [1], [0, 1])
  | .vcmp => ([1], [1], if f.mod.toNat / 4 % 8 < 6 then [0, 1] else [])
  | .vabs | .vneg => ([1], [1], [])
  | .vbcast | .vins | .vld | .vrng => ([1], [0], [])
  | .vext => ([0], [1], [])
  | .vst => ([], [1], [0])
  | .vtget | .vredRow | .vredCol => ([1], [2], [])
  | .vtput => ([2], [1], [])
  | .vfn | .vcvt | .vnoise => ([1], [1], [0])
  | .vunpk | .vstat => ([1], [0], [0])
  | .dmaGet | .dmaPut | .dmaCopy | .dmaFill | .fabPut | .fabGet | .fabMcast | .slArm => ([0], [0], [0])
  | .tLd => ([2], [0], [])
  | .tSt => ([0], [2], [])
  | .peatPush | .peatPop => ([0], [0], [])
  | .slSig | .slWait | .stepCommit | .redContrib => ([], [0], [0])
  | .redOpen | .redClose | .sclPin | .rngSet => ([], [0], [])

/-- The fault of one operand field (R101, R108): a class that is not accepted or t16-t63 gives 0x03, a register the
context did not declare 0x04; the detail is the field (R106). -/
def Ctx.fieldFault (x : Ctx) (ok : Accepts) (b : Byte) : Option (Byte × Nat) :=
  if ok = [] then none
  else if !ok.contains (fieldClass b) then some (0x03, b.toNat)
  else
    let n := fieldNum b
    match fieldClass b with
    | 1 => if x.decl.vMask.getLsbD n then none else some (0x04, b.toNat)
    | 2 => if 16 ≤ n then some (0x03, b.toNat) else if x.decl.tMask.getLsbD n then none else some (0x04, b.toNat)
    | 3 => if x.decl.aMask.getLsbD n then none else some (0x04, b.toNat)
    | _ => none

/-- The first fault of an instruction's operand fields, D before A before B. -/
def Ctx.operandFault (x : Ctx) (op : KOp) (f : Fields) : Option (Byte × Nat) :=
  let (d, a, b) := op.accepts f
  (x.fieldFault d f.d).orElse fun _ => (x.fieldFault a f.a).orElse fun _ => x.fieldFault b f.b

/-- Whether D names a scalar register that the instruction writes. -/
def KOp.writesD : KOp → Bool
  | .sAdd | .sSub | .sAnd | .sOr | .sXor | .sShl | .sShr | .sSra | .sMul | .sMulh | .sDiv | .sLi | .sIns | .sSlt
  | .sSltu | .sLd | .sRem | .sSys | .br | .jr | .vext => true
  | _ => false

/-- The scalar register an instruction writes. -/
def KOp.scalarDst (op : KOp) (f : Fields) : Option Nat :=
  if op.writesD && fieldClass f.d == 0 then some (fieldNum f.d) else none

/-- The scalar registers an instruction reads at dispatch (R85). -/
def KOp.scalarSrcs (op : KOp) (f : Fields) : List Nat :=
  let (d, a, b) := op.accepts f
  (if d.contains 0 && fieldClass f.d == 0 && (!op.writesD || op = .sIns) then [fieldNum f.d] else []) ++
  (if a.contains 0 && fieldClass f.a == 0 then [fieldNum f.a] else []) ++
  (if b.contains 0 && fieldClass f.b == 0 then [fieldNum f.b] else []) ++
  (if op = .vcvt then [f.imm.toNat % 64] else [])

/-- Sign-extended IMM (R117). -/
def immS (f : Fields) : Word := f.imm.signExtend 64
/-- Sign-extended IMM as an integer. -/
def immI (f : Fields) : Int := f.imm.toInt
/-- A field of MOD. -/
def modBits (f : Fields) (lo w : Nat) : Nat := bitsOf f.mod.toNat lo w
/-- A bit of MOD. -/
def modBit (f : Fields) (i : Nat) : Bool := f.mod.getLsbD i

/-- The local flag an instruction of queue F, B, V or M names (R116). -/
def InFlight.flag (x : InFlight) : Option (Fin 16) :=
  if x.op.queue ≠ .C ∧ modBit x.f 15 = true then some ⟨modBits x.f 11 4, Nat.mod_lt _ (by decide)⟩ else none

/-- Bits of an element of a format, coded as in R55: BI4, BI8, BI16, BI32. -/
def fmtBits (k : Nat) : Nat := 4 * 2 ^ k
/-- Bytes of a tile of a format (R37). -/
def tileBytes (k : Nat) : Nat := 512 * fmtBits k

/-- SPACE of a handle (R111). -/
def hSpace (h : Word) : Bool := h.getLsbD 63
/-- MANT of a handle (R111). -/
def hMant (h : Word) : Nat := bitsOf h.toNat 0 24
/-- EXP of a handle (R111). -/
def hExp (h : Word) : Nat := bitsOf h.toNat 32 24
/-- The byte length in sB (R112). -/
def lenB (b : Word) : Nat := if bitsOf b.toNat 6 18 = 0 then 16777216 else bitsOf b.toNat 6 18 * 64
/-- The HBM address of an operand (R112). -/
def hbmAddr (a : Word) : Nat := bitsOf a.toNat 0 48

/-- A fault of an operand: its code and detail. -/
abbrev OpFault := Byte × Nat

/-- The byte range of a handle (R111): alignment 64 B gives 0x0A, then the bounds (R79). -/
def Ctx.range (x : Ctx) (h : Word) (n : Nat) : Except OpFault Span :=
  if hMant h % 64 ≠ 0 then .error (0x0A, hMant h)
  else match x.span (hSpace h) (hMant h) n with
    | .bad c a => .error (c, a)
    | s => .ok s

/-- The mantissas and the exponents of a tile at two offsets of a window (R79, R111). -/
def Ctx.tileSpansAt (x : Ctx) (space : Bool) (mant exp fmt : Nat) : Except OpFault (Span × Span) :=
  if mant % 512 ≠ 0 then .error (0x0A, mant)
  else if exp % 128 ≠ 0 then .error (0x0A, exp)
  else match x.span space mant (tileBytes fmt), x.span space exp 128 with
    | .bad c a, _ => .error (c, a)
    | _, .bad c a => .error (c, a)
    | m, e => .ok (m, e)

/-- The mantissas and the exponents of a tile handle (R111). -/
def Ctx.tileSpans (x : Ctx) (h : Word) (fmt : Nat) : Except OpFault (Span × Span) :=
  x.tileSpansAt (hSpace h) (hMant h) (hExp h) fmt

/-- A tensor descriptor (R113). -/
structure TensorDesc where
  mant : Nat
  exp : Nat
  rows : Nat
  cols : Nat
  matrices : Nat
  tensor : BitVec 20
  fmt : Nat
  colAxis : Bool
deriving DecidableEq, Repr

/-- The descriptor in 64 bytes. -/
def TensorDesc.ofBytes (b : List Byte) : TensorDesc :=
  let attr := leAt b 28 4
  { mant := leAt b 0 8, exp := leAt b 8 8, rows := leAt b 16 4, cols := leAt b 20 4, matrices := leAt b 24 4
    tensor := BitVec.ofNat 20 attr, fmt := bitsOf attr 20 2, colAxis := bitsOf attr 22 1 == 1 }

/-- A base that violates R51 or R113, or a zero extent (R113): fault 0x23. A base beyond the partition is no layout fault: its
addresses are not mapped (R114, R345). -/
def TensorDesc.ok (d : TensorDesc) : Bool :=
  d.mant % 512 == 0 && d.exp % 512 == 0 && d.rows != 0 && d.cols != 0 && d.matrices != 0

/-- Tiles per matrix (R114). -/
def TensorDesc.tm (d : TensorDesc) : Nat := ((d.rows + 63) / 64) * ((d.cols + 63) / 64)
/-- The address of a tile's mantissas (R114). -/
def TensorDesc.mantAt (d : TensorDesc) (t : Nat) : Nat := d.mant + (t / d.tm * d.tm + t % d.tm) * tileBytes d.fmt
/-- The address of a tile's exponents (R114). -/
def TensorDesc.expAt (d : TensorDesc) (t : Nat) : Nat :=
  d.exp + t / d.tm * 512 * ((d.tm * 128 + 511) / 512) + t % d.tm * 128

/-- The descriptor at offset MANT of a window (R113): 64-byte aligned, read when the instruction starts. -/
def Work.descAt (w : Work) (c : CtxId) (h : Word) : Except OpFault TensorDesc :=
  match (w.ctx c).range h 64 with
  | .error e => .error e
  | .ok s =>
    let d := TensorDesc.ofBytes (w.spanRead c s 64)
    if d.ok then .ok d else .error (0x23, 0)

/-- A register or 4 KiB local granule that R85 orders. -/
inductive Res where
  | v (i : Nat)
  | t (i : Nat)
  | a (i : Nat)
  | g (k : Nat)
deriving DecidableEq, Repr

/-- The local granules of a window range; a cluster range is not ordered (R78, R85). -/
def Ctx.granules (x : Ctx) (cluster : Bool) (off n : Nat) : List Res :=
  if cluster || n == 0 then []
  else
    let lo := (x.decl.localBase + off) / 4096
    let hi := (x.decl.localBase + off + n - 1) / 4096
    (List.range (hi + 1 - lo)).map fun i => .g (lo + i)

/-- The granules of a byte range. -/
def Ctx.rangeRes (x : Ctx) (h : Word) (n : Nat) : List Res := x.granules (hSpace h) (hMant h) n
/-- The granules of a tile and its exponents. -/
def Ctx.tileRes (x : Ctx) (h : Word) (fmt : Nat) : List Res :=
  x.granules (hSpace h) (hMant h) (tileBytes fmt) ++ x.granules (hSpace h) (hExp h) 128

/-- The granules of the tile that follows a tile: mantissas + S, exponents + 128 (R126). -/
def Ctx.nextTileRes (x : Ctx) (h : Word) (fmt : Nat) : List Res :=
  x.granules (hSpace h) (hMant h + tileBytes fmt) (tileBytes fmt) ++ x.granules (hSpace h) (hExp h + 128) 128

/-- A source operand that is a tile register or a tile in memory. -/
def Ctx.srcTile (x : Ctx) (b : Byte) (h : Word) (fmt : Nat) : List Res :=
  if fieldClass b = 2 then [.t (fieldNum b)] else x.tileRes h fmt

/-- The formats of a product's two operands (R120). -/
def KOp.fmts : KOp → Nat × Nat
  | .mmfBi4 | .mmbxBi4 | .mmbwBi4 => (0, 0)
  | .mmfBi16x8 | .mmbxBi16x8 | .mmbwBi16x8 => (2, 1)
  | .mmfBi16 | .mmbxBi16 | .mmbwBi16 => (2, 2)
  | _ => (1, 1)

/-- A matrix product (R120). -/
def KOp.isProduct : KOp → Bool
  | .mmfBi8 | .mmfBi4 | .mmfBi16x8 | .mmfBi16 | .mmbxBi8 | .mmbxBi4 | .mmbxBi16x8 | .mmbxBi16
  | .mmbwBi8 | .mmbwBi4 | .mmbwBi16x8 | .mmbwBi16 => true
  | _ => false

/-- A fabric instruction (R84, R134): it has a remote completion. -/
def KOp.isFabric : KOp → Bool
  | .fabPut | .fabGet | .fabMcast | .redContrib => true
  | _ => false

/-- A vector source in field B, if it is one. -/
def vSrcB (f : Fields) : List Res := if fieldClass f.b = 1 then [.v (fieldNum f.b)] else []

/-- The format of a described tensor, read where the instruction will read it. -/
def Work.descFmt (w : Work) (c : CtxId) (h : Word) : Nat :=
  match w.descAt c h with
  | .ok d => d.fmt
  | .error _ => 3

/-- The format of the entry an accumulator is bound to (R115). -/
def Work.boundFmt (w : Work) (c : CtxId) (ai : Nat) : Nat :=
  match w.entry (w.ctx c).part (BitVec.ofNat 20 (bitsOf (w.acc c ai).binding.toNat 32 20)) with
  | some e => e.fmt.toNat
  | none => 3

/-- The offset of a vector load or store (R128). -/
def vOff (h : Word) (f : Fields) : Int := (hMant h : Int) + 64 * immI f

/-- What an instruction reads (R85). -/
def Work.reads (w : Work) (c : CtxId) (x : InFlight) : List Res :=
  let k := w.ctx c
  let f := x.f
  match x.op with
  | .sLd => k.granules (modBit f 1) (x.va + immS f).toNat 8
  | .mmfBi8 | .mmfBi4 | .mmfBi16x8 | .mmfBi16 | .mmbxBi8 | .mmbxBi4 | .mmbxBi16x8 | .mmbxBi16
  | .mmbwBi8 | .mmbwBi4 | .mmbwBi16x8 | .mmbwBi16 =>
    [.a (fieldNum f.d)] ++ k.srcTile f.a x.va x.op.fmts.1 ++ k.srcTile f.b x.vb x.op.fmts.2
  | .accZero | .accZeroB => []
  | .accDrain | .accDrainB =>
    [.a (fieldNum f.a)] ++
      (if !modBit f 6 && modBits f 3 2 ≠ 0 then k.tileRes x.vb (modBits f 1 2) ++
        (if modBits f 3 2 = 3 then k.nextTileRes x.vb (modBits f 1 2)
         else []) else [])
  | .accMax | .accMaxB | .accMin | .accMinB =>
    [.a (fieldNum f.d)] ++ k.srcTile f.a x.va (w.boundFmt c (fieldNum f.d))
  | .vadd | .vsub | .vmul | .vmulsh | .vmax | .vmin | .vand | .vor | .vxor | .vshl | .vsra | .vcmp =>
    .v (fieldNum f.a) :: vSrcB f
  | .vsel => .v (fieldNum f.d) :: .v (fieldNum f.a) :: vSrcB f
  | .vabs | .vneg | .vext | .vfn | .vcvt | .vnoise | .vtput | .vst => [.v (fieldNum f.a)]
  | .vins => [.v (fieldNum f.d)]
  | .vld => k.granules (hSpace x.va) (vOff x.va f).toNat 512
  | .vtget | .vredRow | .vredCol | .tSt => [.t (fieldNum f.a)]
  | .vunpk =>
    k.tileRes x.va (modBits f 1 2)
  | .dmaGet => if modBit f 0 then k.rangeRes x.va 64 else []
  | .dmaPut =>
    if modBit f 0 then k.rangeRes x.vd 64 ++ k.tileRes x.va (w.descFmt c x.vd) else k.rangeRes x.va (lenB x.vb)
  | .dmaCopy | .fabPut | .fabMcast => k.rangeRes x.va (lenB x.vb)
  | .tLd => k.tileRes x.va (modBits f 1 2)
  | .peatPush => k.rangeRes x.va ((f.imm.toNat + 1) * 512)
  | .redOpen => k.granules false (hMant x.va) 64
  | .redContrib => k.granules false (hMant x.vb) 64
  | _ => []

/-- What an instruction writes (R85, R132). -/
def Work.writesOf (w : Work) (c : CtxId) (x : InFlight) : List Res :=
  let k := w.ctx c
  let f := x.f
  match x.op with
  | .sSt => k.granules (modBit f 1) (x.va + immS f).toNat 8
  | .mmfBi8 | .mmfBi4 | .mmfBi16x8 | .mmfBi16 | .mmbxBi8 | .mmbxBi4 | .mmbxBi16x8 | .mmbxBi16
  | .mmbwBi8 | .mmbwBi4 | .mmbwBi16x8 | .mmbwBi16
  | .accZero | .accZeroB | .accMax | .accMaxB | .accMin | .accMinB => [.a (fieldNum f.d)]
  | .accDrain | .accDrainB =>
    (if modBit f 5 then [.a (fieldNum f.a)] else []) ++ k.tileRes x.vd (modBits f 1 2) ++
      (if modBit f 6 then k.rangeRes x.vb 8192 else [])
  | .vadd | .vsub | .vmul | .vmulsh | .vmax | .vmin | .vabs | .vneg | .vand | .vor | .vxor | .vshl | .vsra | .vcmp
  | .vsel | .vbcast | .vins | .vld | .vtget | .vfn | .vredRow | .vredCol | .vcvt | .vunpk | .vrng | .vnoise
  | .vstat => [.v (fieldNum f.d)]
  | .vst => k.granules (hSpace x.vb) (vOff x.vb f).toNat 512
  | .vtput | .tLd => [.t (fieldNum f.d)]
  | .dmaGet => if modBit f 0 then k.tileRes x.vd (w.descFmt c x.va) else k.rangeRes x.vd (lenB x.vb)
  | .dmaCopy | .dmaFill | .fabGet => k.rangeRes x.vd (lenB x.vb)
  | .tSt => k.tileRes x.vd (w.tile c (fieldNum f.a)).fmt.toNat
  | .peatPop =>
    match (w.slice c.slice.val).peat.copies.find? fun p => decide (p.ctx = c ∧ p.id = x.id) with
    | some p => k.rangeRes x.vd (p.size * 512)
    | none => k.granules (hSpace x.vd) (hMant x.vd) (k.decl.localSize - hMant x.vd)
  | _ => []

/-- Two lists share a member. -/
def meets (a b : List Res) : Bool := a.any fun r => b.contains r

/-- Whether an earlier instruction of the context holds a later one back (R85): a read after its write, or a write after
its read or write. A write already given to a controller and a packet already sent have read their sources (R84). A
product does not hold back a later product of its queue on the same tile. -/
def Work.holdsBack (w : Work) (c : CtxId) (y x : InFlight) : Bool :=
  let pipe := y.op.isProduct && x.op.isProduct && decide (y.op.queue = x.op.queue) && y.f.d == x.f.d
  let drop := fun (l : List Res) => if pipe then l.filter fun r => decide (r ≠ .a (fieldNum x.f.d)) else l
  let yw := drop (w.writesOf c y)
  let yr := match y.stat with
    | .remote | .writing => []
    | _ => drop (w.reads c y)
  meets (w.reads c x) yw || meets (w.writesOf c x) (yr ++ yw)

/-- Whether an instruction's operands are ready (R85). -/
def Work.operandsReady (w : Work) (c : CtxId) (x : InFlight) : Bool :=
  (w.ctx c).infl.all fun y => decide (x.id ≤ y.id) || !w.holdsBack c y x

end Sys2Proof.Machine
end

