-- ==== Sys2Proof/Machine/Effect.lean ====
section
/-! DEFINITION. How the effect of one instruction ends, and lateness (R25, R84, R100). -/

namespace Sys2Proof.Machine

/-- How an instruction's effect ends: complete; a fault with its detail; not yet, so that it stays where it is; or
standing elsewhere until another event completes it. -/
inductive Ending where
  | complete
  | fault (code : Byte) (detail : Nat)
  | waiting
  | standing (st : IStat)
deriving DecidableEq, Repr

/-- The effect of an instruction on the state. -/
structure Effect where
  w : Work
  ending : Ending

/-- A complete effect. -/
def Effect.done (w : Work) : Effect := ⟨w, .complete⟩
/-- A fault without effect on any destination. -/
def Effect.flt (w : Work) (e : OpFault) : Effect := ⟨w, .fault e.1 e.2⟩
/-- An instruction that must wait. -/
def Effect.wait (w : Work) : Effect := ⟨w, .waiting⟩
/-- An instruction that now stands elsewhere. -/
def Effect.stand (w : Work) (st : IStat) : Effect := ⟨w, .standing st⟩

/-- An effect that needs an operand which may be at fault. -/
def withOp {α : Type} (w : Work) (e : Except OpFault α) (f : α → Effect) : Effect :=
  match e with
  | .ok a => f a
  | .error b => .flt w b

/-- The lateness of a context in ns (R25, R90). -/
def Work.lateness (w : Work) (c : CtxId) : Nat := (w.ctx c).lateAt w.time

/-- An instruction whose operands an SRAM gives with an uncorrectable error (R432): fault 0x31, nothing written. -/
def withSram (w : Work) (ev : MemEvent) (f : Effect) : Effect := if evUe (evHere ev) then .flt w (0x31, 0) else f

/-- The clock point in MHz (R485). -/
def pointMhz (p : BitVec 2) : Nat := if p = 0 then 700 else if p = 1 then 525 else 350

/-- The step and buffer of the job a context works for (R188): those of its latched step (R189). -/
def Work.jobOf (w : Work) (c : CtxId) : Option Job := w.job (w.ctx c).part (w.ctx c).job

/-- A Peat lane's fill in bytes: the resident and spilled sizes of its entries (R119, R192). -/
def laneFill (l : List PeatEntry) : Nat := l.foldl (fun n e => n + e.size * 512) 0

end Sys2Proof.Machine
end

