-- ==== Sys2Proof/Machine/Flags.lean ====
section
/-! DEFINITION. Block-integer arithmetic: codes, NaR, widening, narrowing with its rounding modes and saturation flag,
the storage layout of tiles, and the block states that a narrowing sets (R37-R52, R57, R61). -/

namespace Sys2Proof.Machine

/-- The number a code of width w holds, none for NaR (R37, R39). -/
def elemOf (w code : Nat) : Option Int :=
  let c := code % 2 ^ w
  if c = 2 ^ (w - 1) then none else some (if c < 2 ^ (w - 1) then (c : Int) else (c : Int) - 2 ^ w)

/-- The code of width w of a number, or NaR (R37, R43). -/
def codeOf (w : Nat) : Option Int → Nat
  | none => 2 ^ (w - 1)
  | some v => (v % 2 ^ w).toNat

/-- The largest magnitude at width w (R37). -/
def maxMag (w : Nat) : Int := 2 ^ (w - 1) - 1

/-- A rounding mode: to nearest with ties to even (R45), stochastic with its random word (R46), or toward minus
infinity. -/
inductive Rnd where
  | even
  | stoch (u : BitVec 32)
  | floor
deriving DecidableEq, Repr

/-- The rounding decision (R45, R46). -/
def roundUp (m : Rnd) (q : Int) (r d : Nat) : Bool :=
  match m with
  | .even => decide (2 ^ (d - 1) < r) || (decide (r = 2 ^ (d - 1)) && decide (q % 2 = 1))
  | .stoch u => decide (u.toNat < if d ≤ 32 then r * 2 ^ (32 - d) else r / 2 ^ (d - 32))
  | .floor => false

/-- The quotient of a value with `d` bits dropped (R44): exact when d is not positive. -/
def roundShift (x d : Int) (m : Rnd) : Int :=
  if d ≤ 0 then x * 2 ^ (-d).toNat
  else
    let q := x / 2 ^ d.toNat
    let r := x - q * 2 ^ d.toNat
    if roundUp m q r.toNat d.toNat then q + 1 else q

/-- A value clamped to magnitude `lim`, and whether it was (R47). -/
def clampMag (lim q : Int) : Int × Bool :=
  if lim < q then (lim, true) else if q < -lim then (-lim, true) else (q, false)

/-- Narrowing of x at scale s to width w with exponent E (R44): the mantissa and the saturation flag. -/
def narrow (x s e : Int) (w : Nat) (m : Rnd) : Int × Bool := clampMag (maxMag w) (roundShift x (e - s) m)

/-- Narrowing of an element that may be NaR (R42, R47). -/
def narrowElem (x : Option Int) (s e : Int) (w : Nat) (m : Rnd) : Option Int × Bool :=
  match x with
  | none => (none, false)
  | some v => let r := narrow v s e w m; (some r.1, r.2)

/-- A block exponent as an integer (R38). -/
def expInt (b : Byte) : Int := b.toInt

/-- The codes of a stored tile or part of one: element i of width w in its bytes (R49, R50). -/
def codeAt (w : Nat) (bs : List Byte) (i : Nat) : Nat :=
  if w = 4 then bitsOf ((bs.getD (i / 2) 0).toNat) (4 * (i % 2)) 4 else leAt bs (i * (w / 8)) (w / 8)

/-- The first n codes of width w in bytes, in order (R49, R50). -/
def unpackCodes (w : Nat) : Nat → List Byte → List Nat
  | 0, _ => []
  | n + 1, bs =>
    if w = 4 then
      match n with
      | 0 => [((bs.getD 0 0).toNat) % 16]
      | k + 1 => (bs.getD 0 0).toNat % 16 :: (bs.getD 0 0).toNat / 16 :: unpackCodes w k (bs.drop 1)
    else leNat (bs.take (w / 8)) :: unpackCodes w n (bs.drop (w / 8))

/-- The bytes of codes of width w (R49, R50). -/
def packCodes (w : Nat) : List Nat → List Byte
  | [] => []
  | a :: rest =>
    if w = 4 then
      match rest with
      | [] => [BitVec.ofNat 8 a]
      | b :: rest' => BitVec.ofNat 8 (a % 16 + 16 * (b % 16)) :: packCodes w rest'
    else leBytes (w / 8) a ++ packCodes w rest

/-- The byte of a tile's exponents that holds the exponent of the element at row ρ and column γ (R51). -/
def expIdx (colAxis : Bool) (row col : Nat) : Nat := if colAxis then 64 * (row / 32) + col else 2 * row + col / 32

/-- A tile as its elements by row and column, and their exponents. -/
structure TileVal where
  elems : Array (Option Int)
  exps : Array Byte
  colAxis : Bool

/-- The element at a row and column. -/
def TileVal.el (t : TileVal) (row col : Nat) : Option Int := t.elems.getD (64 * row + col) (some 0)
/-- The exponent of the element at a row and column. -/
def TileVal.ex (t : TileVal) (row col : Nat) : Int := expInt (t.exps.getD (expIdx t.colAxis row col) 0)

/-- A tile in its mantissa and exponent bytes, in a format and along an axis (R49-R51). -/
def tileOfBytes (fmt : Nat) (colAxis : Bool) (m e : List Byte) : TileVal :=
  { elems := ((unpackCodes (fmtBits fmt) 4096 m).map (elemOf (fmtBits fmt))).toArray, exps := e.toArray, colAxis }

/-- The exponents of a tile register's tag. -/
def Tile.expBytes (t : Tile) : List Byte := (List.range 128).map fun i => t.exps.extractLsb' (8 * i) 8
/-- A tile register's contents (R121). -/
def Tile.val (t : Tile) : TileVal :=
  { elems := ((Tbl.denseFrom 0 4096 0 t.elems).map fun v => elemOf 32 v.toNat).toArray
    exps := t.expBytes.toArray, colAxis := t.colAxis }
/-- A tile register holding elements, a format, an axis and exponents (R121). -/
def Tile.make (els : List (BitVec 32)) (fmt : BitVec 2) (colAxis : Bool) (exps : List Byte) : Tile :=
  { elems := Tbl.ofListFrom 0 0 els, fmt, colAxis
    exps := BitVec.ofNat 1024 (leNat (exps.take 128)) }

/-- Whether a stored mantissa makes its block HIGH (R57): |m| ≥ 2^(w−5). -/
def isHigh (w : Nat) : Option Int → Bool
  | none => false
  | some m => decide ((2 ^ (w - 1) : Int) ≤ 16 * (m.natAbs : Int))

/-- A block state that has stored these results (R57). -/
def BlockSt.note (b : BlockSt) (high sat : Bool) : BlockSt :=
  { b with written := true, high := b.high || high, sat := b.sat || sat }

/-- The state of a block never written: what an entry's blocks read as where none is listed. -/
def BlockSt.zero : BlockSt := ⟨0, 0, 0, false, false, false⟩

/-- A block's state. -/
def ScaleEntry.block (e : ScaleEntry) (b : Nat) : BlockSt := e.blocks.get .zero b
/-- The exponent a block is narrowed with: E, or E_PREV for work of the previous step (R61). -/
def ScaleEntry.expo (e : ScaleEntry) (prev : Bool) (b : Nat) : Byte := if prev then (e.block b).ePrev else (e.block b).e

/-- The exponents of the 128 blocks of a tile (R115). -/
def ScaleEntry.tileExps (e : ScaleEntry) (prev : Bool) (tile : Nat) : List Byte :=
  (List.range 128).map fun b => e.expo prev (128 * tile + b)

end Sys2Proof.Machine
end

