-- ==== Sys2Proof/Machine/Stats.lean ====
section
/-! DEFINITION. The counter-based generator and the tensor statistics records (R222-R232). -/

namespace Sys2Proof.Machine

/-- One round of Philox4×32 (R222). -/
def philoxRound (x : BitVec 32 × BitVec 32 × BitVec 32 × BitVec 32) (k0 k1 : BitVec 32) :
    BitVec 32 × BitVec 32 × BitVec 32 × BitVec 32 :=
  let p0 : BitVec 64 := (0xD2511F53 : BitVec 64) * x.1.setWidth 64
  let p1 : BitVec 64 := (0xCD9E8D57 : BitVec 64) * x.2.2.1.setWidth 64
  (p1.extractLsb' 32 32 ^^^ x.2.1 ^^^ k0, p1.setWidth 32, p0.extractLsb' 32 32 ^^^ x.2.2.2 ^^^ k1, p0.setWidth 32)

/-- The rounds of Philox4×32 with the key schedule (R222). -/
def philoxRounds : Nat → BitVec 32 × BitVec 32 × BitVec 32 × BitVec 32 → BitVec 32 → BitVec 32 →
    BitVec 32 × BitVec 32 × BitVec 32 × BitVec 32
  | 0, x, _, _ => x
  | n + 1, x, k0, k1 => philoxRounds n (philoxRound x k0 k1) (k0 + 0x9E3779B9) (k1 + 0xBB67AE85)

/-- The four output words of a counter under a key (R222). -/
def philox (ctr : BitVec 128) (key : Word) : List (BitVec 32) :=
  let r := philoxRounds 10 (ctr.setWidth 32, ctr.extractLsb' 32 32, ctr.extractLsb' 64 32, ctr.extractLsb' 96 32)
    (key.setWidth 32) (key.extractLsb' 32 32)
  [r.1, r.2.1, r.2.2.1, r.2.2.2]

/-- The counter of R224. -/
def genCounter (step purpose : Nat) (lane : Bool) (mb : BitVec 16) (indexing : Bool) (tensor : BitVec 20) (index : Nat) :
    BitVec 128 :=
  BitVec.ofNat 40 step ++ BitVec.ofNat 2 purpose ++ BitVec.ofBool lane ++ mb ++ BitVec.ofBool indexing ++ (0 : BitVec 4) ++
    tensor ++ BitVec.ofNat 44 index

/-- The random word of element i for purposes 0 and 1 (R224, R226). -/
def genWord (key : Word) (step purpose : Nat) (lane : Bool) (mb : BitVec 16) (indexing : Bool) (tensor : BitVec 20)
    (i : Nat) : BitVec 32 :=
  let i' := i % 2 ^ 44
  (philox (genCounter step purpose lane mb indexing tensor (i' / 4)) key).getD (i' % 4) 0

/-- The four words of element i for `vnoise` (R224, R227). -/
def genNoise (key : Word) (step : Nat) (lane : Bool) (mb : BitVec 16) (tensor : BitVec 20) (i : Nat) : List (BitVec 32) :=
  philox (genCounter step 2 lane mb false tensor (i % 2 ^ 44)) key

/-- The generator key of the job a context works for (R223). -/
def Work.genKey (w : Work) (c : CtxId) : Word := ((w.jobOf c).map Job.key).getD 0

/-- The position of a slice among its partition's slices (R231). -/
def Work.sliceRank (w : Work) (q : Fin 8) (n : Nat) : Nat := ((w.slicesOf q).filter (· < n)).length

/-- The address of a tensor and step's record in a slice's table (R231). -/
def statAddr (sec : StatSec) (rank : Nat) (tensor : BitVec 20) (step : Word) : Nat :=
  sec.base.toNat + rank * 268435456 + 64 * (1048576 * (step.toNat % 4) + tensor.toNat)

/-- The 64 bytes of a record (R229). -/
def statBytes (r : StatRec) (incomplete : Bool) : List Byte :=
  leBytes 4 (r.tensor.toNat + 2 ^ 20 + incomplete.toNat * 2 ^ 21) ++ leBytes 8 r.step.toNat ++
    leBytes 8 r.elements.toNat ++ leBytes 8 r.zeros.toNat ++ leBytes 8 r.sats.toNat ++ leBytes 8 r.nars.toNat ++
    leBytes 4 r.satBlocks.toNat ++ List.replicate 16 0

/-- Two records' counts added, saturating (R229). -/
def StatRec.add (r : StatRec) (e z s n b : Nat) : StatRec :=
  { r with elements := satAdd r.elements e, zeros := satAdd r.zeros z, sats := satAdd r.sats s
           nars := satAdd r.nars n, satBlocks := satAdd r.satBlocks b }

/-- A record's counts with the table's part added (R230): an entry of another step adds nothing. -/
def StatRec.addTable (r : StatRec) (b : List Byte) : StatRec :=
  if bitsOf (leAt b 0 4) 20 1 = 1 ∧ leAt b 4 8 = r.step.toNat then
    r.add (leAt b 12 8) (leAt b 20 8) (leAt b 28 8) (leAt b 36 8) (leAt b 44 4)
  else r

/-- Event 0x0281 (R230, R492). -/
def Work.logStatLoss (w : Work) (n : Nat) (r : StatRec) (read : Bool) : Work :=
  w.logEv (unitId 0 n 0xFF) 0x0281 2 (partByte r.q) (r.tensor.toNat + read.toNat * 2 ^ 20 + r.step.toNat * 2 ^ 64)

/-- A record's counts added into the slice's table (R230, R231): whether the write succeeded; `ev` is what the block it
merges into shows. -/
def Work.statToTable (w : Work) (n : Nat) (r : StatRec) (sec : StatSec) (ev : MemEvent) : Bool × Work :=
  let a := statAddr sec (w.sliceRank r.q n) r.tensor r.step
  let old := w.peek r.q a 64
  let (c, w1) := w.hbmWrite r.q a (statBytes (r.addTable old) false) ev
  if c = 0 then
    (true, w1.updSlice n fun s =>
      { s with stat := { s.stat with tableSteps := ((r.q, r.job, r.step) :: s.stat.tableSteps).dedup
                                     evicted := r :: s.stat.evicted } })
  else (false, w1.logStatLoss n r false)

/-- The statistics section of a job. -/
def Work.statSec (w : Work) (q : Fin 8) (job : BitVec 16) : Option StatSec := (w.job q job).bind Job.stat

/-- The record least recently updated is evicted (R230). -/
def Work.evictStat (w : Work) (n : Nat) (r : StatRec) (ev : MemEvent) : Work :=
  let lose := fun (w : Work) => w.updSlice n fun s => { s with stat := { s.stat with lost := satAdd s.stat.lost 1 } }
  match w.statSec r.q r.job with
  | none => lose w
  | some sec =>
    let (ok, w1) := w.statToTable n r sec ev
    if ok then w1.updSlice n fun s => { s with stat := { s.stat with evictions := satAdd s.stat.evictions 1 } } else lose w1

/-- Counts added to the record of a tensor and step in a slice (R228, R230): allocated where it is not on chip. Jobs of one partition
that write one tensor at one step share the record, which stays with the job that allocated it (DESIGN CHOICE, log entry 138). -/
def Work.statAdd (w : Work) (n : Nat) (q : Fin 8) (job : BitVec 16) (tensor : BitVec 20) (step : Word)
    (e z s nr b : Nat) (ev : MemEvent) : Work :=
  let rs := (w.slice n).stat.recs
  let hit := fun (r : StatRec) => decide (r.q = q ∧ r.tensor = tensor ∧ r.step = step)
  match rs.find? hit with
  | some r =>
    w.updSlice n fun x => { x with stat := { x.stat with recs := r.add e z s nr b :: x.stat.recs.filter fun y => !hit y } }
  | none =>
    let w1 := match rs.getLast? with
      | some old =>
        if 4096 ≤ rs.length then
          (w.evictStat n old ev).updSlice n fun x => { x with stat := { x.stat with recs := x.stat.recs.dropLast } }
        else w
      | none => w
    let r : StatRec :=
      { q, job, tensor, step, elements := 0, zeros := 0, sats := 0, nars := 0, satBlocks := 0 }
    w1.updSlice n fun x => { x with stat := { x.stat with recs := r.add e z s nr b :: x.stat.recs } }

/-- The stored results of a narrowing counted (R228): each as its element and whether it was clamped. -/
def Work.statCount (w : Work) (c : CtxId) (tensor : BitVec 20) (step : Nat) (els : List (Option Int × Bool))
    (ev : MemEvent) : Work :=
  if els.isEmpty then w
  else
    w.statAdd c.slice.val (w.ctx c).part (w.ctx c).job tensor (BitVec.ofNat 64 step) els.length
      (els.countP fun e => decide (e.1 = some 0)) (els.countP fun e => e.2) (els.countP fun e => e.1.isNone) 0 ev

/-- The record that `vstat` returns (R230): the on-chip part and, where the slice has written a record of the step, the
table's part; marked when the table could not be read. -/
def Work.statRead (w : Work) (c : CtxId) (tensor : BitVec 20) (step : Word) (ev : MemEvent) : List Byte × Work :=
  let q := (w.ctx c).part
  let n := c.slice.val
  let job := (w.ctx c).job
  let on := (w.slice n).stat.recs.find? fun r => decide (r.q = q ∧ r.tensor = tensor ∧ r.step = step)
  let base : StatRec := on.getD
    { q, job, tensor, step, elements := 0, zeros := 0, sats := 0, nars := 0, satBlocks := 0 }
  let blank := List.replicate 64 (0 : Byte)
  let plain := fun (r : StatRec) (valid inc : Bool) =>
    if valid then statBytes r inc
    else leBytes 4 (tensor.toNat + inc.toNat * 2 ^ 21) ++ leBytes 8 step.toNat ++ blank.drop 12
  match w.statSec q job with
  | some sec =>
    if (w.slice n).stat.tableSteps.contains (q, job, step) then
      let (g, w1) := w.hbmRead q (statAddr sec (w.sliceRank q n) tensor step) 64 ev
      if g.code ≠ 0 then (plain base on.isSome true, w1.logStatLoss n base true)
      else
        let has := bitsOf (leAt g.bytes 0 4) 20 1 = 1 ∧ leAt g.bytes 4 8 = step.toNat
        (plain (base.addTable g.bytes) (on.isSome || decide has) false, w1)
    else (plain base on.isSome false, w)
  | none => (plain base on.isSome false, w)

end Sys2Proof.Machine
end

