-- ==== Sys2Proof/Machine/Acc.lean ====
section
/-! DEFINITION. The accumulator tile: its element, the alignment and summation of products, maximum and minimum, the
fused operand and the arithmetic of a drain (R155-R169). -/

namespace Sys2Proof.Machine

/-- The elements of an accumulator tile, row-major. -/
def Acc.list (a : Acc) : List (BitVec 48) := Tbl.denseFrom 0 4096 0 a.elems
/-- The VALUE code of NaR (R155). -/
def narValue : Int := -(2 ^ 35)
/-- VALUE of an element (R155). -/
def xValue (x : BitVec 48) : Int := x.toInt / 4096
/-- FIELD of an element (R155). -/
def xField (x : BitVec 48) : Nat := x.toNat % 4096
/-- An element from VALUE and FIELD (R155). -/
def xMake (v : Int) (f : Nat) : BitVec 48 := BitVec.ofInt 48 (v * 4096 + f)
/-- An element is NaR (R155). -/
def xNar (x : BitVec 48) : Bool := decide (xValue x = narValue)
/-- The largest X and the magnitude of VALUE (R155, R159). -/
def xMax : Int := 2 ^ 47 - 1
/-- The most negative X of a number (R155, R159). -/
def xMin : Int := -(2 ^ 47 - 4096)
/-- The largest magnitude of VALUE in extremum mode (R167). -/
def vLimit : Int := 2 ^ 35 - 1

/-- E − s for an output format (R157). -/
def scaleOff (fmt : Nat) : Int := if fmt = 0 then 28 else if fmt = 1 then 24 else if fmt = 2 then 16 else 4

/-- AXIS of a binding (R115). -/
def bindAxis (b : Word) : Bool := b.getLsbD 63
/-- TENSOR_ID of a binding (R115). -/
def bindTensor (b : Word) : BitVec 20 := b.extractLsb' 32 20
/-- TILE of a binding (R115). -/
def bindTile (b : Word) : Nat := bitsOf b.toNat 0 32

/-- The block of element e (row-major) of the bound tile (R51, R115). -/
def elBlock (axis : Bool) (e : Nat) : Nat := expIdx axis (e / 64) (e % 64)

/-- A value clamped to the range of X (R158, R159), and whether it was. -/
def clampX (v : Int) : Int × Bool := if xMax < v then (xMax, true) else if v < xMin then (xMin, true) else (v, false)

/-- A product aligned to scale s − 12 (R158): the aligned value, whether places were lost, whether it clamped. -/
def alignProduct (m p s : Int) : Int × Bool × Bool :=
  let k := s - 12 - p
  let a := if k ≤ 0 then m * 2 ^ (-k).toNat else m / 2 ^ k.toNat
  let deep := !decide (k ≤ 0) && decide (a * 2 ^ k.toNat ≠ m)
  let c := clampX a
  (c.1, deep, c.2)

/-- What the adder tree delivers for one element (R158-R160): the sum, none when a product is NaR; places lost; a
product clamped. -/
structure TreeOut where
  sum : Option Int
  deep : Bool
  clamped : Bool

/-- One product added in the tree. -/
def TreeOut.add (t : TreeOut) (a b : Option Int) (p s : Int) : TreeOut :=
  match a, b with
  | some x, some y =>
    let r := alignProduct (x * y) p s
    { sum := t.sum.map (· + r.1), deep := t.deep || r.2.1, clamped := t.clamped || r.2.2 }
  | _, _ => { t with sum := none }

/-- The 64 products of one element, from the two operands read along the reduction dimension (R137, R139). -/
def dot64 (fa fb : Nat → Option Int × Int) (s : Int) : TreeOut :=
  (List.range 64).foldl (fun t k => t.add (fa k).1 (fb k).1 ((fa k).2 + (fb k).2) s) ⟨some 0, false, false⟩

/-- X after one instruction's sum is added (R159, R160): the element and whether the addition clamped. A NaR element
stays as it is; an element that becomes NaR takes FIELD `nf`, which the spec does not state. -/
def addX (x : BitVec 48) (sum : Option Int) (nf : Nat) : BitVec 48 × Bool :=
  if xNar x then (x, false)
  else
    match sum with
    | none => (xMake narValue nf, false)
    | some v => let c := clampX (x.toInt + v); (BitVec.ofInt 48 c.1, c.2)

/-- The tile switched to sum mode for a product (R169). -/
def Acc.toSum (a : Acc) : Acc :=
  if a.extremum then
    { a with extremum := false, elems := Tbl.ofListFrom 0 0 (a.list.map fun x => xMake (xValue x) 0) }
  else a

/-- The tile switched to extremum mode for `acc.max` or `acc.min` (R169). -/
def Acc.toExtremum (a : Acc) : Acc :=
  if a.extremum then a
  else { a with extremum := true, elems := Tbl.ofListFrom 0 0 (a.list.map fun x => xMake (xValue x) 0xFFF) }

/-- Pending saturation bits with those of some blocks set. -/
def setPend (p : BitVec 128) (bs : List Nat) : BitVec 128 := bs.foldl (fun p b => p ||| BitVec.twoPow 128 b) p

/-- The FIELD that an element made NaR by a product takes: a free value (R155: its FIELD is not stated). -/
def narField (fresh e : Nat) : Nat := (Config.freeWord (fresh + e)).toNat % 4096

/-- One product instruction added into a tile (R158-R161, R169): `fa` and `fb` give the two operands of output element
(row, column) along the reduction dimension; `es` the exponents of the 128 bound blocks. -/
def Acc.addProduct (a0 : Acc) (fa fb : Nat → Nat → Nat → Option Int × Int) (fmt : Nat) (es : Array Byte) (fresh : Nat) :
    Acc :=
  let a := a0.toSum
  let axis := bindAxis a.binding
  let outs := a.list.zipIdx.map fun e =>
    let b := elBlock axis e.2
    let s := expInt (es.getD b 0) - scaleOff fmt
    let t := dot64 (fa (e.2 / 64) (e.2 % 64)) (fb (e.2 / 64) (e.2 % 64)) s
    let r := addX e.1 t.sum (narField fresh e.2)
    (r.1, t.deep, t.clamped || r.2, b)
  { a with elems := Tbl.ofListFrom 0 0 (outs.map (·.1))
           pend := setPend a.pend ((outs.filter (·.2.2.1)).map (·.2.2.2))
           count := if a.count < 262145 then a.count + 1 else a.count
           deep := a.deep || outs.any (·.2.1) }

/-- A source element aligned to scale s for `acc.max` and `acc.min` (R167), and whether it clamped. -/
def alignExt (m e s : Int) : Int × Bool :=
  let d := e - s
  clampMag vLimit (if 0 ≤ d then m * 2 ^ d.toNat else m / 2 ^ (-d).toNat)

/-- Whether an element is empty for a sense (R167). -/
def xEmpty (min : Bool) (x : BitVec 48) : Bool :=
  decide (xField x = 0xFFF) && decide (xValue x = if min then vLimit else -vLimit)

/-- Whether the incoming (v, i), none for NaR, is taken over the current element (R168). -/
def extTakes (min narWins : Bool) (x : BitVec 48) (v : Option Int) (i : Nat) : Bool :=
  match v with
  | some v =>
    if xNar x then !narWins
    else if v = xValue x then decide (i < xField x)
    else if min then decide (v < xValue x) else decide (xValue x < v)
  | none => if xNar x then decide (i < xField x) else xEmpty min x || narWins

/-- An element after `acc.max` or `acc.min` of a source element (R167, R168): the element and whether the source clamped.
-/
def extElem (min narWins : Bool) (i : Nat) (x : BitVec 48) (m : Option Int) (e s : Int) : BitVec 48 × Bool :=
  match m with
  | none => (if extTakes min narWins x none i then xMake narValue i else x, false)
  | some m =>
    let v := alignExt m e s
    (if extTakes min narWins x (some v.1) i then xMake v.1 i else x, v.2)

/-- `acc.max` or `acc.min` of a source tile (R167-R169). -/
def Acc.addExtremum (a0 : Acc) (min narWins : Bool) (i : Nat) (src : TileVal) (fmt : Nat) (es : Array Byte) : Acc :=
  let a := a0.toExtremum
  let axis := bindAxis a.binding
  let outs := a.list.zipIdx.map fun e =>
    let b := elBlock axis e.2
    let s := expInt (es.getD b 0) - scaleOff fmt
    let r := extElem min narWins i e.1 (src.el (e.2 / 64) (e.2 % 64)) (src.ex (e.2 / 64) (e.2 % 64)) s
    (r.1, r.2, b)
  { a with elems := Tbl.ofListFrom 0 0 (outs.map (·.1))
           pend := setPend a.pend ((outs.filter (·.2.1)).map (·.2.2))
           minSense := min, narWins := narWins }

/-- A tile as `acc.zero` leaves it (R125, R156): by code, with its binding. -/
def Acc.init (code : Nat) (binding : Word) : Acc :=
  let v : BitVec 48 := if code = 1 then xMake (-vLimit) 0xFFF else if code = 2 then xMake vLimit 0xFFF else 0
  { elems := Tbl.ofListFrom 0 0 (List.replicate 4096 v), binding, extremum := code == 1 || code == 2
    minSense := code == 2, narWins := false, pend := 0, count := 0, deep := false }

/-- An element as a drain reads it: a number (X in sum mode, VALUE in extremum mode), none for NaR; and FIELD. -/
structure DrainEl where
  v : Option Int
  field : Nat

/-- An element read by a drain (R165). -/
def drainEl (extremum : Bool) (x : BitVec 48) : DrainEl :=
  ⟨if xNar x then none else some (if extremum then xValue x else x.toInt), xField x⟩

/-- A fused operand's element and exponent. -/
abbrev Fused := Option Int × Int

/-- A value with its scale after the fused operands (R166); none for NaR. -/
def fuse (mode : Nat) (x sc : Int) (a b : Fused) : Option (Int × Int) :=
  let plus := fun (av : Int) =>
    let l := min sc a.2
    (x * 2 ^ (sc - l).toNat + av * 2 ^ (a.2 - l).toNat, l)
  match mode with
  | 0 => some (x, sc)
  | 1 => a.1.map plus
  | 2 => a.1.map fun av => (x * av, sc + a.2)
  | _ =>
    match a.1, b.1 with
    | some av, some bv => some ((plus av).1 * bv, (plus av).2 + b.2)
    | _, _ => none

/-- One element of a drain (R165): the narrowed element, none for NaR, and whether the narrowing clamped. -/
def drainElement (extremum : Bool) (d : DrainEl) (e : Int) (fmt mode : Nat) (a b : Fused) (rnd : Rnd) :
    Option Int × Bool :=
  let s := e - scaleOff fmt
  match d.v with
  | none => (none, false)
  | some x =>
    match fuse mode x (if extremum then s else s - 12) a b with
    | none => (none, false)
    | some (y, sc) => narrowElem (some y) sc e (fmtBits fmt) rnd

/-- The elements of two inputs added at full width in sum mode (R172); NaR wins, with the FIELD of the first NaR in core order (DESIGN
CHOICE, log entry 104). -/
def treeAdd (a b : DrainEl) : DrainEl :=
  match a.v, b.v with
  | some x, some y => ⟨some (x + y), ((x + y) % 4096).toNat⟩
  | none, _ => a
  | _, none => b

/-- Whether an input's element is empty for a sense (R167). -/
def DrainEl.empty (min : Bool) (d : DrainEl) : Bool :=
  decide (d.field = 0xFFF) && decide (d.v = some (if min then vLimit else -vLimit))

/-- The better of two inputs in extremum mode (R168, R172), the same whichever comes first: an empty element yields to
NaR. -/
def treeBest (min narWins : Bool) (a b : DrainEl) : DrainEl :=
  match a.v, b.v with
  | some x, some y =>
    if x = y then (if b.field < a.field then b else a)
    else if min then (if y < x then b else a) else (if x < y then b else a)
  | none, none => if b.field < a.field then b else a
  | none, some _ => if narWins || b.empty min then a else b
  | some _, none => if narWins || a.empty min then b else a

end Sys2Proof.Machine
end

