-- ==== Sys2Proof/Machine/Matrix.lean ====
section
/-! DEFINITION. The matrix and accumulator instructions: products on F and B, `acc.zero`, `acc.max`, `acc.min`,
`acc.drain` and the combining drains of split-K groups (R120-R126, R137-R139, R155-R173). -/

namespace Sys2Proof.Machine

/-- The scale-table entry of a binding as an instruction finds it (R63, R115). -/
inductive Bound where
  | ok (e : ScaleEntry)
  | fault (f : OpFault)
  | miss

/-- A tensor's entry: 0x22 where none is valid; absent from the slice's cache, it must arrive (R63). -/
def Work.tensorEntry (w : Work) (c : CtxId) (t : BitVec 20) : Bound :=
  let q := (w.ctx c).part
  match w.entry q t with
  | none => .fault (0x22, 0)
  | some e => if (w.slice c.slice.val).scale.cached.contains (q.val, t) then .ok e else .miss

/-- The entry of a binding: 0x23 where its tile lies beyond BLOCK_COUNT (R115). -/
def Work.bound (w : Work) (c : CtxId) (b : Word) : Bound :=
  match w.entry (w.ctx c).part (bindTensor b) with
  | none => .fault (0x22, 0)
  | some e => if e.blockCount ≤ 128 * bindTile b + 127 then .fault (0x23, 0) else w.tensorEntry c (bindTensor b)

/-- A miss counted once for the instruction that waits (R63, R65). -/
def Work.noteMiss (w : Work) (c : CtxId) (x : InFlight) : Work :=
  if x.missed then w
  else
    (w.updCtx c fun k => { k with infl := k.infl.map fun y => if y.id = x.id then { y with missed := true } else y }).updSlice
      c.slice.val fun s => { s with scale := { s.scale with misses := satAdd s.scale.misses 1 } }

/-- An effect that needs a binding's entry (R63, R115). -/
def withBound (w : Work) (c : CtxId) (x : InFlight) (b : Bound) (f : ScaleEntry → Effect) : Effect :=
  match b with
  | .ok e => f e
  | .fault e => .flt w e
  | .miss => .wait (w.noteMiss c x)

/-- A source operand of a matrix instruction in a required format and axis (R120, R121, R138): a tile register whose tag
differs gives 0x23; a tile in memory is read as required. -/
def Work.srcTile (w : Work) (c : CtxId) (fld : Byte) (h : Word) (fmt : Nat) (axis : Bool) : Except OpFault TileVal :=
  if fieldClass fld = 2 then
    let t := w.tile c (fieldNum fld)
    if t.fmt.toNat = fmt ∧ t.colAxis = axis then .ok t.val else .error (0x23, 0)
  else
    match (w.ctx c).tileSpans h fmt with
    | .error e => .error e
    | .ok (m, e) => .ok (tileOfBytes fmt axis (w.spanRead c m (tileBytes fmt)) (w.spanRead c e 128))

/-- Whether a tile holds a NaR element. -/
def TileVal.hasNar (t : TileVal) : Bool := t.elems.any Option.isNone

/-- The three shapes of a product (R137). -/
inductive Shape where
  | mmf | mmbx | mmbw
deriving DecidableEq, Repr

/-- The shape of a product instruction. -/
def KOp.shape : KOp → Shape
  | .mmbxBi8 | .mmbxBi4 | .mmbxBi16x8 | .mmbxBi16 => .mmbx
  | .mmbwBi8 | .mmbwBi4 | .mmbwBi16x8 | .mmbwBi16 => .mmbw
  | _ => .mmf

/-- Whether the second source of a shape must be column-blocked (R138); every first source is row-blocked. -/
def Shape.colB : Shape → Bool
  | .mmbw => false
  | _ => true

/-- An operand's element and exponent at a row and column. -/
def TileVal.at (t : TileVal) (row col : Nat) : Option Int × Int := (t.el row col, t.ex row col)

/-- The first operand's factors of output element (r, col) along the reduction dimension (R137). -/
def Shape.left (s : Shape) (a : TileVal) (r _col k : Nat) : Option Int × Int :=
  match s with
  | .mmbw => a.at k r
  | _ => a.at r k

/-- The second operand's factors (R137): `mmbx` reads W transposed. -/
def Shape.right (s : Shape) (b : TileVal) (_r col k : Nat) : Option Int × Int :=
  match s with
  | .mmbx => b.at col k
  | _ => b.at k col

/-- The bound exponents of a tile as an array. -/
def ScaleEntry.exps (e : ScaleEntry) (prev : Bool) (tile : Nat) : Array Byte := (e.tileExps prev tile).toArray

/-- A matrix product (R120, R158-R161): aD gains the product of the two sources; fault 0x20 when the NaR trap is enabled
and a source holds NaR. -/
def effProduct (w : Work) (c : CtxId) (x : InFlight) (ev : MemEvent) : Effect :=
  let sh := x.op.shape
  let i := fieldNum x.f.d
  withOp w (w.srcTile c x.f.a x.va x.op.fmts.1 false) fun a =>
  withOp w (w.srcTile c x.f.b x.vb x.op.fmts.2 sh.colB) fun b =>
  withBound w c x (w.bound c (w.acc c i).binding) fun e =>
    withSram w ev <|
    if (w.ctx c).decl.nanTrap && (a.hasNar || b.hasNar) then .flt w (0x20, 0)
    else
      let acc := w.acc c i
      let es := e.exps x.prev (bindTile acc.binding)
      .done { w.setAcc c i (acc.addProduct (sh.left a) (sh.right b) e.fmt.toNat es w.fresh) with fresh := w.fresh + 4096 }

/-- `acc.zero` (R125, R156): the initial contents by MOD[1:0]; code 3 keeps the binding and ignores sA. -/
def effAccZero (w : Work) (c : CtxId) (x : InFlight) : Effect :=
  let i := fieldNum x.f.d
  let code := modBits x.f 0 2
  if code = 3 then .done (w.setAcc c i (.init 3 (w.acc c i).binding))
  else withBound w c x (w.bound c x.va) fun _ => .done (w.setAcc c i (.init code x.va))

/-- The source of `acc.max` and `acc.min` (R124): a tile register with its own tag, or memory in the binding's format and
axis. -/
def Work.extSource (w : Work) (c : CtxId) (x : InFlight) (fmt : Nat) (axis : Bool) : Except OpFault TileVal :=
  if fieldClass x.f.a = 2 then .ok (w.tile c (fieldNum x.f.a)).val
  else
    match (w.ctx c).tileSpans x.va fmt with
    | .error e => .error e
    | .ok (m, e) => .ok (tileOfBytes fmt axis (w.spanRead c m (tileBytes fmt)) (w.spanRead c e 128))

/-- `acc.max` and `acc.min` (R124, R167-R169). -/
def effExtremum (w : Work) (c : CtxId) (x : InFlight) (min : Bool) : Effect :=
  let i := fieldNum x.f.d
  let acc := w.acc c i
  withBound w c x (w.bound c acc.binding) fun e =>
  withOp w (w.extSource c x e.fmt.toNat (bindAxis acc.binding)) fun src =>
    if (w.ctx c).decl.nanTrap && src.hasNar then .flt w (0x20, 0)
    else
      let es := e.exps x.prev (bindTile acc.binding)
      .done (w.setAcc c i (acc.addExtremum min (modBit x.f 0) (x.f.imm.toNat % 4096) src e.fmt.toNat es))

/-- Whether element (row, column) of a tile of an entry is padding (R52, R535). -/
def ScaleEntry.padding (e : ScaleEntry) (tile row col : Nat) : Bool :=
  let tc := (e.cols + 63) / 64
  let tm := (e.rows + 63) / 64 * tc
  let j := tile % tm
  decide (e.rows ≤ 64 * (j / tc) + row) || decide (e.cols ≤ 64 * (j % tc) + col)

/-- A block of a tile is made entirely of padding (R51, R52): the first of its elements is. -/
def ScaleEntry.blockPad (e : ScaleEntry) (axis : Bool) (tile b : Nat) : Bool :=
  if axis then e.padding tile (32 * (b / 64)) (b % 64) else e.padding tile (b / 2) (32 * (b % 2))

/-- The exponents that a narrowing into a tile stores (R52, R126): those of its blocks, 0x00 for a block of padding only. -/
def ScaleEntry.outExps (e : ScaleEntry) (prev axis : Bool) (tile : Nat) : List Byte :=
  (e.tileExps prev tile).zipIdx.map fun p => if e.blockPad axis tile p.2 then 0 else p.1

/-- What a drain reads: the elements, the mode, the pending bits. -/
structure DrainIn where
  els : List DrainEl
  extremum : Bool
  pend : BitVec 128

/-- An accumulator tile as a drain reads it. -/
def Acc.drainIn (a : Acc) : DrainIn := ⟨a.list.map (drainEl a.extremum), a.extremum, a.pend⟩

/-- FUSE in force: none with IDX (R126). -/
def fuseMode (f : Fields) : Nat := if modBit f 6 then 0 else modBits f 3 2

/-- Where a drain writes and reads memory: the destination's mantissas and exponents, the index range, and the fused
tiles (R126). -/
structure DrainSpans where
  mant : Span
  exp : Span
  idx : Option Span
  f1 : Option (Span × Span)
  f2 : Option (Span × Span)

/-- The addresses of a drain checked (R79, R111, R126). -/
def Ctx.drainSpans (k : Ctx) (x : InFlight) : Except OpFault DrainSpans :=
  let fmt := modBits x.f 1 2
  let mode := fuseMode x.f
  match k.tileSpans x.vd fmt with
  | .error e => .error e
  | .ok (m, e) =>
    if modBit x.f 6 then
      match k.range x.vb 8192 with
      | .error er => .error er
      | .ok i => .ok ⟨m, e, some i, none, none⟩
    else if mode = 0 then .ok ⟨m, e, none, none, none⟩
    else
      match k.tileSpans x.vb fmt with
      | .error er => .error er
      | .ok t1 =>
        if mode = 3 then
          match k.tileSpansAt (hSpace x.vb) (hMant x.vb + tileBytes fmt) (hExp x.vb + 128) fmt with
          | .error er => .error er
          | .ok t2 => .ok ⟨m, e, none, some t1, some t2⟩
        else .ok ⟨m, e, none, some t1, none⟩

/-- A fused tile read in the format FMT and the binding's axis (R166). -/
def Work.fusedTile (w : Work) (c : CtxId) (fmt : Nat) (axis : Bool) : Option (Span × Span) → TileVal
  | some (m, e) => tileOfBytes fmt axis (w.spanRead c m (tileBytes fmt)) (w.spanRead c e 128)
  | none => ⟨#[], #[], axis⟩

/-- The rounding of a drained element (R126, R226). -/
def Work.drainRnd (w : Work) (c : CtxId) (x : InFlight) (binding : Word) (e : Nat) : Rnd :=
  if modBit x.f 0 then
    .stoch (genWord (w.genKey c) x.step 0 x.lane x.mb true (bindTensor binding) (4096 * bindTile binding + e))
  else .even

/-- The 4,096 narrowed elements of a drain with their clamps (R165, R166). -/
def Work.drainOut (w : Work) (c : CtxId) (x : InFlight) (binding : Word) (d : DrainIn) (es : Array Byte) (sp : DrainSpans) :
    List (Option Int × Bool) :=
  let fmt := modBits x.f 1 2
  let axis := bindAxis binding
  let mode := fuseMode x.f
  let t1 := w.fusedTile c fmt axis sp.f1
  let t2 := w.fusedTile c fmt axis sp.f2
  d.els.zipIdx.map fun p =>
    let e := p.2
    drainElement d.extremum p.1 (expInt (es.getD (elBlock axis e) 0)) fmt mode (t1.at (e / 64) (e % 64))
      (t2.at (e / 64) (e % 64)) (w.drainRnd c x binding e)

/-- The blocks of a tile that a drain saturated: pending, or by the narrowing (R165). -/
def satBlocks (axis : Bool) (pend : BitVec 128) (outs : List (Option Int × Bool)) : BitVec 128 :=
  setPend pend ((outs.zipIdx.filter (·.1.2)).map fun p => elBlock axis p.2)

/-- The blocks of a tile with an element that makes them HIGH (R57). -/
def highBlocks (axis : Bool) (fmt : Nat) (outs : List (Option Int × Bool)) : BitVec 128 :=
  setPend 0 ((outs.zipIdx.filter fun p => isHigh (fmtBits fmt) p.1.1).map fun p => elBlock axis p.2)

/-- The block states of a tile after a narrowing into it (R57). -/
def ScaleEntry.noteTile (e : ScaleEntry) (tile : Nat) (high sat : BitVec 128) : ScaleEntry :=
  { e with blocks := (List.range 128).foldl (fun t b =>
      t.upd .zero (128 * tile + b) fun s => s.note (high.getLsbD b) (sat.getLsbD b)) e.blocks }

/-- What a drain writes (R126, R165): the tile, the indexes, the block states of current work and the statistics, where `ev` is
what the write of an evicted record finds; padding elements hold code 0 (R52); fault
0x21 instead, with nothing written, when the saturation trap is enabled and a block saturated. -/
def drainTo (w : Work) (c : CtxId) (x : InFlight) (binding : Word) (d : DrainIn) (e : ScaleEntry) (sp : DrainSpans)
    (ev : MemEvent) : Effect :=
  let fmt := modBits x.f 1 2
  let axis := bindAxis binding
  let tile := bindTile binding
  let es := e.tileExps x.prev tile
  let outs := (w.drainOut c x binding d es.toArray sp).zipIdx.map fun p =>
    if e.padding tile (p.2 / 64) (p.2 % 64) then (some 0, false) else p.1
  let sat := satBlocks axis d.pend outs
  if (w.ctx c).decl.satTrap && decide (sat ≠ 0) then .flt w (0x21, 0)
  else
    let w1 := w.spanWrite c sp.mant (packCodes (fmtBits fmt) (outs.map fun o => codeOf (fmtBits fmt) o.1))
    let w2 := w1.spanWrite c sp.exp (e.outExps x.prev axis tile)
    let w3 := match sp.idx with
      | some i => w2.spanWrite c i (d.els.flatMap fun (el : DrainEl) => leBytes 2 el.field)
      | none => w2
    let q := (w.ctx c).part
    let w4 := if x.prev then w3
      else w3.setEntry q (bindTensor binding) (some (e.noteTile tile (highBlocks axis fmt outs) sat))
    let counted := (outs.zipIdx.filter fun p => !e.padding tile (p.2 / 64) (p.2 % 64)).map (·.1)
    .done (w4.statCount c (bindTensor binding) x.step counted ev)

/-- DEEP and LONG counted at a drain (R164, R174). -/
def Work.noteLimits (w : Work) (n : Nat) (a : Acc) : Work :=
  w.updSlice n fun s =>
    { s with accDeep := if a.deep then satAdd s.accDeep 1 else s.accDeep
             accLong := if 262144 < a.count then satAdd s.accLong 1 else s.accLong }

/-- CLEAR after a drain (R126, R156). -/
def Work.drainClear (w : Work) (c : CtxId) (x : InFlight) : Work :=
  let i := fieldNum x.f.a
  if modBit x.f 5 then w.setAcc c i (.init 3 (w.acc c i).binding) else w

/-- The drain's reading done: limits counted, the tile cleared (R164, R165). -/
def Effect.afterDrain (r : Effect) (c : CtxId) (x : InFlight) (a : Acc) : Effect :=
  match r.ending with
  | .complete => ⟨(r.w.noteLimits c.slice.val a).drainClear c x, r.ending⟩
  | _ => r

/-- The participating cores of a group, by package number, that were present at its load (R170). -/
def Group.cores (g : Group) : List Nat :=
  ((List.range 64).filter fun j => g.clusterMask.getLsbD j).flatMap fun j =>
    ((List.range 8).filter fun p => g.coreMask.getLsbD p).map (fun p => 8 * j + p) |>.filter fun k =>
      !g.absentAtLoad.contains k

/-- The split-K group of a drain's binding (R171). A drain of a core that is no participant is an ordinary drain, though its binding
names a group's tensor (DESIGN CHOICE, log entry 104). -/
def Work.groupOf (w : Work) (c : CtxId) (binding : Word) : Option Group :=
  w.groups.find? fun g => decide (g.q = (w.ctx c).part ∧ g.tensor = bindTensor binding) && g.cores.contains (coreKey c)

/-- How many combining drains a core has given of a binding (R171). -/
def Work.useNo (w : Work) (q : Fin 8) (b : Word) (core : Nat) : Nat :=
  ((w.combineCounts.find? fun u =>
    decide (u.q = q ∧ u.tensor = bindTensor b ∧ u.tile = b.setWidth 32 ∧ u.core = core)).map (·.n)).getD 0

/-- One more combining drain of a core (R171). The counts go on over a rollback and a restart (DESIGN CHOICE, log entry 104). -/
def Work.bumpUse (w : Work) (q : Fin 8) (b : Word) (core : Nat) : Work :=
  let other := fun (u : CombineCount) =>
    decide (¬(u.q = q ∧ u.tensor = bindTensor b ∧ u.tile = b.setWidth 32 ∧ u.core = core))
  { w with combineCounts := ⟨q, bindTensor b, b.setWidth 32, core, w.useNo q b core + 1⟩ :: w.combineCounts.filter other }

/-- The use of a group that a core's next combining drain of a binding belongs to (R171), as one of a root in a context. -/
def Work.useOf (w : Work) (q : Fin 8) (b : Word) (core : Nat) (root : CtxId) : CombineUse :=
  { q, tensor := bindTensor b, tile := b.setWidth 32, use := w.useNo q b core, minSense := false, narWins := false, ctx := root, id := 0 }

/-- Two names of one use. -/
def CombineUse.same (u v : CombineUse) : Bool := decide (u.q = v.q ∧ u.tensor = v.tensor ∧ u.tile = v.tile ∧ u.use = v.use)

/-- A use has failed (R173). -/
def Work.useDead (w : Work) (u : CombineUse) : Bool := w.failedUses.any fun v => v.same u

/-- Every participant of a use has given its drain, or its group is gone: nothing can come for it any more. -/
def Work.useOver (w : Work) (u : CombineUse) : Bool :=
  match w.groups.find? fun g => decide (g.q = u.q ∧ g.tensor = u.tensor) with
  | some g => g.cores.all fun k => decide (u.use < w.useNo u.q (u.tile.setWidth 64 ||| (u.tensor.setWidth 64 <<< 32)) k)
  | none => true

/-- A core's combining drain of a binding is past: it counts (R171), and failed uses that nothing can come for are forgotten. -/
def Work.passUse (w : Work) (q : Fin 8) (b : Word) (core : Nat) : Work :=
  let w1 := w.bumpUse q b core
  { w1 with failedUses := w1.failedUses.filter fun u => !w1.useOver u }

/-- An input enters the tree (R171); that of a use that has failed is discarded (R173). -/
def Work.giveInput (w : Work) (c : CtxId) (a : Acc) : Work :=
  let q := (w.ctx c).part
  let i : CombineIn :=
    { q, tensor := bindTensor a.binding, tile := a.binding.setWidth 32, use := w.useNo q a.binding (coreKey c)
      core := coreKey c, extremum := a.extremum, elems := a.elems, pend := a.pend }
  let w1 : Work := if w.useDead (w.useOf q a.binding (coreKey c) c) then w else { w with combineIns := i :: w.combineIns }
  w1.passUse q a.binding (coreKey c)

/-- Whether every context of a core has stopped (R173). -/
def Work.coreStopped (w : Work) (core : Nat) : Bool :=
  (List.range 4).all fun k =>
    match (w.ctxs.get .empty (core * 4 + k)).st with
    | .empty => true
    | .ended => true
    | .faulted => true
    | .absent => true
    | _ => false

/-- The inputs of a use leave the tree. -/
def Work.dropUse (w : Work) (u : CombineUse) : Work :=
  { w with
    combineIns := w.combineIns.filter fun i =>
      decide (¬(i.q = u.q ∧ i.tensor = u.tensor ∧ i.tile = u.tile ∧ i.use = u.use))
    combineUses := w.combineUses.filter fun v => decide (v ≠ u) }

/-- A use fails (R173): its inputs are discarded, those that come later too, and it counts, once. -/
def Work.useFailed (w : Work) (u : CombineUse) : Work :=
  let w1 := w.dropUse u
  if w1.useDead u then w1
  else
    let w2 : Work := { w1 with failedUses := if w1.useOver u then w1.failedUses else { u with minSense := false, narWins := false, id := 0 } :: w1.failedUses }
    w2.updSlice u.ctx.slice.val fun s => { s with combineFails := satAdd s.combineFails 1 }

/-- The uses of split-K groups that have an input and no drain of their root, as uses of that root (R173). -/
def Work.openUses (w : Work) : List (Group × CombineUse) :=
  (w.combineIns.filterMap fun i =>
    (w.groups.find? fun g => decide (g.q = i.q ∧ g.tensor = i.tensor)).bind fun g =>
      match g.cores.head? with
      | none => none
      | some root =>
        if w.combineIns.any fun j => decide (j.q = i.q ∧ j.tensor = i.tensor ∧ j.tile = i.tile ∧ j.use = i.use ∧ j.core = root) then none
        else some (g, ⟨i.q, i.tensor, i.tile, i.use, false, false, ctxOfKey (4 * root), 0⟩)).dedup

/-- The uses whose root has stopped before its drain fail (R173): their inputs are discarded, and each counts in the root's slice. -/
def Work.sweepUses (w : Work) : Work :=
  (w.openUses.filter fun u => w.coreStopped (coreKey u.2.ctx)).foldl (fun w u => w.useFailed u.2) w

/-- A drain of a group's root faults before its input is given (R173): its use is discarded, and it is past. -/
def Work.rootFails (w : Work) (c : CtxId) (x : InFlight) : Work :=
  let b := (w.acc c (fieldNum x.f.a)).binding
  let q := (w.ctx c).part
  if decide (x.op = .accDrain ∨ x.op = .accDrainB) && fieldClass x.f.a == 3 &&
      ((w.groupOf c b).bind fun g => g.cores.head?) == some (coreKey c) then
    (w.useFailed (w.useOf q b (coreKey c) c)).passUse q b (coreKey c)
  else w

/-- What a fault of a drain does besides (R173). -/
def Effect.failsRoot (e : Effect) (c : CtxId) (x : InFlight) : Effect :=
  match e.ending with
  | .fault _ _ => ⟨e.w.rootFails c x, e.ending⟩
  | _ => e

/-- A combining drain (R126, R171, R173): the format of every participant is checked; its tile enters the tree, and there its limits
are counted, whatever becomes of the use (DESIGN CHOICE, log entry 104). The root's drain then stands until its use is complete, and
only its handles are checked; its tile is cleared with the result. -/
def effCombine (w : Work) (c : CtxId) (x : InFlight) (g : Group) (e : ScaleEntry) : Effect :=
  let a := w.acc c (fieldNum x.f.a)
  let q := (w.ctx c).part
  if modBits x.f 1 2 ≠ e.fmt.toNat then .flt w (0x23, 0)
  else if g.cores.head? = some (coreKey c) then
    if w.useDead (w.useOf q a.binding (coreKey c) c) then .flt w (0x40, 0)
    else withOp w ((w.ctx c).drainSpans x) fun _ =>
      let use := { w.useOf q a.binding (coreKey c) c with minSense := a.minSense, narWins := a.narWins, id := x.id }
      let w1 := (w.giveInput c a).noteLimits c.slice.val a
      .stand { w1 with combineUses := w1.combineUses ++ [use] } .combining
  else .done (((w.giveInput c a).noteLimits c.slice.val a).drainClear c x).sweepUses

/-- `acc.drain` (R126, R165). -/
def effAccDrain (w : Work) (c : CtxId) (x : InFlight) (ev : MemEvent) : Effect :=
  let a := w.acc c (fieldNum x.f.a)
  (withBound w c x (w.bound c a.binding) fun e =>
    match w.groupOf c a.binding with
    | some g => effCombine w c x g e
    | none =>
      if modBits x.f 1 2 ≠ e.fmt.toNat then .flt w (0x23, 0)
      else
        withOp w ((w.ctx c).drainSpans x) fun sp =>
          (drainTo w c x a.binding a.drainIn e sp ev).afterDrain c x a).failsRoot c x

/-- An input as a drain reads it. -/
def CombineIn.drainIn (i : CombineIn) : DrainIn :=
  ⟨(Tbl.denseFrom 0 4096 0 i.elems).map (drainEl i.extremum), i.extremum, i.pend⟩

/-- Two inputs of a tree node combined (R172). -/
def DrainIn.combine (a b : DrainIn) (u : CombineUse) : DrainIn :=
  { els := (a.els.zip b.els).map fun p =>
      if a.extremum then treeBest u.minSense u.narWins p.1 p.2 else treeAdd p.1 p.2
    extremum := a.extremum, pend := a.pend ||| b.pend }

/-- The inputs of a use in core order. -/
def Work.inputsOf (w : Work) (u : CombineUse) (cores : List Nat) : List CombineIn :=
  cores.filterMap fun k =>
    w.combineIns.find? fun i =>
      decide (i.q = u.q ∧ i.tensor = u.tensor ∧ i.tile = u.tile ∧ i.use = u.use ∧ i.core = k)

/-- The leaves of the tree that do not participate (R17, R172): an element of zero in either mode, VALUE 0 and FIELD 0 (DEDUCED, log
entry 16). -/
def DrainIn.zeroLeaf (extremum : Bool) : DrainIn := ⟨List.replicate 4096 ⟨some 0, 0⟩, extremum, 0⟩

/-- The root's result (R171-R173): the inputs of all participants, and the zero of the other leaves of the tree's 512, combined and
narrowed once; the root's tile is cleared where it names CLEAR; fault 0x40 when a participant
stopped before its input or holds another mode; it waits while an input is missing. -/
def effCombineResult (w : Work) (x : InFlight) (u : CombineUse) (ev : MemEvent) : Effect :=
  let c := u.ctx
  let binding : Word := u.tile.setWidth 64 ||| (u.tensor.setWidth 64 <<< 32)
  match w.groups.find? fun g => decide (g.q = u.q ∧ g.tensor = u.tensor) with
  | none => .flt (w.useFailed u) (0x40, 0)
  | some g =>
    let ins := w.inputsOf u g.cores
    let arrived := fun k => ins.any fun i => decide (i.core = k)
    match ins with
    | [] => .flt (w.useFailed u) (0x40, 0)
    | i0 :: rest =>
      if rest.any fun i => decide (i.extremum ≠ i0.extremum) then .flt (w.useFailed u) (0x40, 0)
      else if g.cores.all arrived then
        match w.entry u.q u.tensor, (w.ctx c).drainSpans x with
        | some e, .ok sp =>
          let axis := bindAxis (w.acc c (fieldNum x.f.a)).binding
          let b := if axis then binding ||| BitVec.twoPow 64 63 else binding
          let d0 := rest.foldl (fun d i => d.combine i.drainIn u) i0.drainIn
          let d := if ins.length < 512 then d0.combine (.zeroLeaf i0.extremum) u else d0
          let r := drainTo (w.dropUse u) c x b d e sp ev
          match r.ending with
          | .complete => ⟨r.w.drainClear c x, r.ending⟩
          | _ => ⟨w.useFailed u, r.ending⟩
        | none, _ => .flt (w.useFailed u) (0x22, 0)
        | _, .error er => .flt (w.useFailed u) er
      else if g.cores.any fun k => !arrived k && w.coreStopped k then .flt (w.useFailed u) (0x40, 0)
      else .wait w

end Sys2Proof.Machine
end

