-- ==== Sys2Proof/Machine/Rom.lean ====
section
/-! DEFINITION. The function tables of `vfn` (R183, R186, R538): every coefficient, from the exact real values carried in
fixed point with 128 fraction bits, which decides every rounding of R538. -/

namespace Sys2Proof.Machine

/-- One in the fixed point of the tables. -/
def fxOne : Int := 2 ^ 128

/-- e^z for a small z, by its series with n terms. -/
def fxSmallExp (z : Int) : Nat → Int → Int
  | 0, acc => acc
  | n + 1, acc => fxSmallExp z n (fxOne + z * acc / ((n + 1) * fxOne))

/-- Repeated squaring. -/
def fxSquare : Nat → Int → Int
  | 0, a => a
  | n + 1, a => fxSquare n (a * a / fxOne)

/-- e^z: the 256th power of e^(z/256). -/
def fxExp (z : Int) : Int := fxSquare 8 (fxSmallExp (z / 256) 60 fxOne)

/-- The series of artanh from term k, its power so far and the sum so far. -/
def fxArtanhGo (t2 : Int) : Nat → Nat → Int → Int → Int
  | 0, _, _, acc => acc
  | n + 1, k, p, acc => fxArtanhGo t2 n (k + 1) (p * t2 / fxOne) (acc + p / (2 * k + 1))

/-- artanh t. -/
def fxArtanh (t : Int) : Int := fxArtanhGo (t * t / fxOne) 80 0 t 0

/-- ln 2. -/
def fxLn2 : Int := 2 * fxArtanh (fxOne / 3)

/-- The series of arctan (1/n). -/
def fxArctanGo (n : Int) : Nat → Nat → Int → Int → Int
  | 0, _, _, acc => acc
  | m + 1, k, p, acc => fxArctanGo n m (k + 1) (p / (n * n)) (if k % 2 = 0 then acc + p / (2 * k + 1) else acc - p / (2 * k + 1))

/-- π by Machin's formula. -/
def fxPi : Int := 4 * (4 * fxArctanGo 5 80 0 (fxOne / 5) 0 - fxArctanGo 239 80 0 (fxOne / 239) 0)

/-- The integer square root below 2^bits. -/
def fxRoot (n : Int) : Nat → Int → Int
  | 0, r => r
  | b + 1, r => if (r + 2 ^ b) * (r + 2 ^ b) ≤ n then fxRoot n b (r + 2 ^ b) else fxRoot n b r

/-- √(2π). -/
def fxRootTwoPi : Int := fxRoot (2 * fxPi * fxOne) 132 0

/-- The series x + x³/3 + x⁵/(3·5) + …. -/
def fxPhiGo (x2 : Int) : Nat → Nat → Int → Int → Int
  | 0, _, _, acc => acc
  | m + 1, n, t, acc => fxPhiGo x2 m (n + 1) (t * x2 / ((2 * n + 3) * fxOne)) (acc + t)

/-- The standard normal distribution function Φ (R183). -/
def fxPhi (x : Int) : Int :=
  let x2 := x * x / fxOne
  fxOne / 2 + fxExp (-x2 / 2) * fxPhiGo x2 300 0 x 0 / fxRootTwoPi

/-- The ROM_f column of R183 at u = num/den; rsqrt (3) takes its own form below. -/
def romValue (f : Nat) (num den : Int) : Int :=
  let u := num * fxOne / den
  match f with
  | 0 => fxExp (u * fxLn2 / fxOne)
  | 1 => 2 * fxArtanh (num * fxOne / (2 * den + num))
  | 2 => den * fxOne / (den + num)
  | 4 => fxOne * fxOne / (fxOne + fxExp (-16 * u))
  | 5 => (fxOne - fxExp (-32 * u)) * fxOne / (fxOne + fxExp (-32 * u))
  | _ => (16 * u - 8 * fxOne) * fxPhi (16 * u - 8 * fxOne) / (16 * fxOne)

/-- (s (1 + num/den))^−½ (R183). -/
def romRsqrt (s num den : Int) : Int := fxRoot (den * fxOne * fxOne / (s * (den + num))) 129 0

/-- A real rounded to units of 2⁻³⁰ (R538). No value of the tables lies within the carried error of a tie. -/
def romRound (v : Int) : Int := (v + 2 ^ 97) / 2 ^ 98

/-- (C0, C1, C2) of segment k of function f (R538). -/
def romEntry (f k : Nat) : Int × Int × Int :=
  let y := fun (i : Nat) =>
    if f = 3 then romRsqrt (if 512 ≤ k then 2 else 1) (2 * (k % 512 : Nat) + i) 1024
    else romValue f (2 * (k : Nat) + i) 2048
  let y0 := y 0
  let ym := y 1
  let y1 := y 2
  (romRound y0, romRound (-3 * y0 + 4 * ym - y1), romRound (2 * y0 - 4 * ym + 2 * y1))

/-- floor (x × 2^e). -/
def floorShift (x e : Int) : Int := if 0 ≤ e then x * 2 ^ e.toNat else x / 2 ^ (-e).toNat

/-- The polynomial of R182 narrowed to exponent b. -/
def romEval (f k t : Nat) (n sgn off b : Int) : Int × Bool :=
  let (c0, c1, c2) := romEntry f k
  let y := c0 * 2 ^ 44 + c1 * t * 2 ^ 22 + c2 * t * t
  narrow (sgn * (y + off)) (n - 74) b 32 .even

/-- Segment and offset of a 32-bit fraction (R183). -/
def romSplit (u : Int) : Nat × Nat := ((u / 2 ^ 22).toNat, (u % 2 ^ 22).toNat)

/-- `vfn` on a number x at scale a for an output exponent b (R182, R183): the lane and whether it saturated; none outside
the domain. Where the error bound of R184 conflicts with this construction, at a small b, the construction stands (DESIGN CHOICE, log
entry 115). Beyond 2^±1024 the exponential saturates or is 0 at every b, so that its m is cut there. -/
def vfnValue (f : Nat) (x a b : Int) : Option (Int × Bool) :=
  match f with
  | 0 =>
    let z := floorShift (x * 0xB8AA3B295C) (a - 7)
    let s := romSplit (z % 2 ^ 32)
    some (romEval 0 s.1 s.2 (max (-1024) (min (z / 2 ^ 32) 1024)) 1 0 b)
  | 4 =>
    let s := romSplit (min (floorShift x.natAbs (a + 28)) (2 ^ 32 - 1))
    some (if 0 ≤ x then romEval 4 s.1 s.2 0 1 0 b else romEval 4 s.1 s.2 0 (-1) (-(2 ^ 74)) b)
  | 5 =>
    let s := romSplit (min (floorShift x.natAbs (a + 28)) (2 ^ 32 - 1))
    some (romEval 5 s.1 s.2 0 (if 0 ≤ x then 1 else -1) 0 b)
  | 6 =>
    let v := floorShift x (a + 28)
    if 8 * 2 ^ 28 ≤ v then some (narrow x a b 32 .even)
    else if v < -(8 * 2 ^ 28) then some (0, false)
    else
      let s := romSplit (v + 8 * 2 ^ 28)
      some (romEval 6 s.1 s.2 4 1 0 b)
  | 7 => some (narrow x a b 32 .even)
  | _ =>
    if x = 0 ∨ (x < 0 ∧ f ≠ 2) then none
    else
      let l := Nat.log2 x.natAbs
      let m := (l : Int) + a
      let u := floorShift ((x.natAbs : Int) - 2 ^ l) (32 - l)
      match f with
      | 1 =>
        let s := romSplit u
        some (romEval 1 s.1 s.2 0 1 (m * 0xB17217F7D1 * 2 ^ 34) b)
      | 2 =>
        let s := romSplit u
        some (romEval 2 s.1 s.2 (-m) (if 0 ≤ x then 1 else -1) 0 b)
      | _ => some (romEval 3 (512 * (m % 2).toNat + (u / 2 ^ 23).toNat) (u / 2 % 2 ^ 22).toNat (-(m / 2)) 1 0 b)

end Sys2Proof.Machine
end

