-- ==== Sys2Proof/Machine/Vector.lean ====
section
/-! DEFINITION. The vector group, opcodes 0x60-0x7D: lanes, element-wise arithmetic, moves between tiles and vectors,
reductions, functions, conversions, the generator and the statistics (R127-R130, R177-R184, R226-R230). -/

namespace Sys2Proof.Machine

/-- A lane width (R127): bits, and whether lanes are unsigned. -/
structure LaneW where
  bits : Nat
  uns : Bool
deriving DecidableEq, Repr

/-- The lane width of MOD[1:0] (R127). -/
def laneW (f : Fields) : LaneW :=
  match modBits f 0 2 with
  | 0 => ⟨32, false⟩
  | 1 => ⟨16, false⟩
  | 2 => ⟨8, false⟩
  | _ => ⟨32, true⟩

/-- Signed 32-bit lanes: where no W field applies (R128). -/
def lane32 : LaneW := ⟨32, false⟩

/-- Lanes in a register (R177). -/
def LaneW.count (l : LaneW) : Nat := 4096 / l.bits
/-- The codes of a register's lanes (R177). -/
def LaneW.lanes (l : LaneW) (v : BitVec 4096) : List Nat :=
  (List.range l.count).map fun i => v.toNat / 2 ^ (l.bits * i) % 2 ^ l.bits
/-- A register from the codes of its lanes (R177). -/
def LaneW.pack (l : LaneW) (cs : List Nat) : BitVec 4096 :=
  BitVec.ofNat 4096 (cs.foldr (fun c n => c % 2 ^ l.bits + 2 ^ l.bits * n) 0)
/-- A lane's value, none for NaR (R127): `.u32` lanes have no NaR. -/
def LaneW.val (l : LaneW) (c : Nat) : Option Int := if l.uns then some (c : Int) else elemOf l.bits c
/-- A value as a lane's code, saturated (R127), and whether it saturated. -/
def LaneW.sat (l : LaneW) (v : Int) : Nat × Bool :=
  if l.uns then
    if v < 0 then (0, true) else if 2 ^ l.bits ≤ v then (2 ^ l.bits - 1, true) else (v.toNat, false)
  else
    let r := clampMag (maxMag l.bits) v
    (codeOf l.bits (some r.1), r.2)
/-- A value or NaR as a lane's code. -/
def LaneW.out (l : LaneW) : Option Int → Nat × Bool
  | none => (codeOf l.bits none, false)
  | some v => l.sat v

/-- The lanes of operand B: a vector, or the low bits of sB in every lane (R127). -/
def Work.lanesB (w : Work) (c : CtxId) (x : InFlight) (l : LaneW) : List Nat :=
  if fieldClass x.f.b = 1 then l.lanes (w.vreg c (fieldNum x.f.b))
  else List.replicate l.count (x.vb.toNat % 2 ^ l.bits)

/-- LANE_SAT set and the instruction counted, if a lane saturated (R127, R185). -/
def Work.laneSat (w : Work) (c : CtxId) (sat : Bool) : Work :=
  if sat then
    (w.updCtx c fun k => { k with laneSat := true }).updSlice c.slice.val fun s =>
      { s with laneSats := satAdd s.laneSats 1 }
  else w

/-- vD written from lanes, with their saturations. -/
def putLanes (w : Work) (c : CtxId) (x : InFlight) (l : LaneW) (out : List (Nat × Bool)) : Effect :=
  .done ((w.setVreg c (fieldNum x.f.d) (l.pack (out.map (·.1)))).laneSat c (out.any (·.2)))

/-- An element-wise instruction on two operands' codes (R128). -/
def elementwise2 (w : Work) (c : CtxId) (x : InFlight) (g : LaneW → Nat → Nat → Nat × Bool) : Effect :=
  let l := laneW x.f
  putLanes w c x l (((l.lanes (w.vreg c (fieldNum x.f.a))).zip (w.lanesB c x l)).map fun p => g l p.1 p.2)

/-- An element-wise instruction on one operand's codes (R128). -/
def elementwise1 (w : Work) (c : CtxId) (x : InFlight) (g : LaneW → Nat → Nat × Bool) : Effect :=
  let l := laneW x.f
  putLanes w c x l ((l.lanes (w.vreg c (fieldNum x.f.a))).map (g l))

/-- A function of two lane values; NaR propagates (R42, R127). -/
def lift2 (h : Int → Int → Int) (l : LaneW) (a b : Nat) : Nat × Bool :=
  match l.val a, l.val b with
  | some u, some v => l.out (some (h u v))
  | _, _ => l.out none

/-- `vadd` (R128). -/
def effVadd (w : Work) (c : CtxId) (x : InFlight) : Effect := elementwise2 w c x (lift2 (· + ·))
/-- `vsub` (R128). -/
def effVsub (w : Work) (c : CtxId) (x : InFlight) : Effect := elementwise2 w c x (lift2 (· - ·))
/-- `vmul` (R128). -/
def effVmul (w : Work) (c : CtxId) (x : InFlight) : Effect := elementwise2 w c x (lift2 (· * ·))
/-- The rounding of `vmulsh` and `vsra` by MOD[2] (R128). -/
def shiftRnd (f : Fields) : Rnd := if modBit f 2 then .floor else .even
/-- `vmulsh` (R128). -/
def effVmulsh (w : Work) (c : CtxId) (x : InFlight) : Effect :=
  elementwise2 w c x (lift2 fun a b => roundShift (a * b) (x.f.imm.toNat % 64 : Nat) (shiftRnd x.f))

/-- Maximum and minimum of two lanes with the NaR rule (R128). -/
def pick (min narWins : Bool) (l : LaneW) (a b : Nat) : Nat × Bool :=
  match l.val a, l.val b with
  | some u, some v => l.out (some (if min then (if v < u then v else u) else (if u < v then v else u)))
  | some u, none => if narWins then l.out none else l.out (some u)
  | none, some v => if narWins then l.out none else l.out (some v)
  | none, none => l.out none

/-- `vmax` (R128). -/
def effVmax (w : Work) (c : CtxId) (x : InFlight) : Effect := elementwise2 w c x (pick false (modBit x.f 2))
/-- `vmin` (R128). -/
def effVmin (w : Work) (c : CtxId) (x : InFlight) : Effect := elementwise2 w c x (pick true (modBit x.f 2))
/-- `vabs` (R128). -/
def effVabs (w : Work) (c : CtxId) (x : InFlight) : Effect :=
  elementwise1 w c x fun l a => l.out ((l.val a).map fun v => (v.natAbs : Int))
/-- `vneg` (R128). -/
def effVneg (w : Work) (c : CtxId) (x : InFlight) : Effect := elementwise1 w c x fun l a => l.out ((l.val a).map fun v => -v)
/-- `vand` (R127, R128): raw bits. -/
def effVand (w : Work) (c : CtxId) (x : InFlight) : Effect := elementwise2 w c x fun _ a b => (a &&& b, false)
/-- `vor` (R128). -/
def effVor (w : Work) (c : CtxId) (x : InFlight) : Effect := elementwise2 w c x fun _ a b => (a ||| b, false)
/-- `vxor` (R128). -/
def effVxor (w : Work) (c : CtxId) (x : InFlight) : Effect := elementwise2 w c x fun _ a b => (a ^^^ b, false)
/-- `vshl` (R127): by the low log₂ w bits of the count lane. -/
def effVshl (w : Work) (c : CtxId) (x : InFlight) : Effect :=
  elementwise2 w c x fun l a b => l.out ((l.val a).map fun v => v * 2 ^ (b % l.bits))
/-- `vsra` (R127, R128). -/
def effVsra (w : Work) (c : CtxId) (x : InFlight) : Effect :=
  elementwise2 w c x fun l a b => l.out ((l.val a).map fun v => roundShift v (b % l.bits : Nat) (shiftRnd x.f))

/-- A comparison of `vcmp` (R129). -/
def cmpHolds (cond : Nat) (a b : Option Int) : Bool :=
  match cond with
  | 6 => a.isNone
  | 7 => decide (a = some 0)
  | _ =>
    match a, b with
    | some u, some v =>
      match cond with
      | 0 => decide (u = v)
      | 1 => decide (u ≠ v)
      | 2 => decide (u < v)
      | 3 => decide (u ≤ v)
      | 4 => decide (v < u)
      | _ => decide (v ≤ u)
    | _, _ => cond == 1

/-- `vcmp` (R128, R129). -/
def effVcmp (w : Work) (c : CtxId) (x : InFlight) : Effect :=
  elementwise2 w c x fun l a b =>
    (if cmpHolds (modBits x.f 2 3) (l.val a) (l.val b) then 2 ^ l.bits - 1 else 0, false)

/-- `vsel` (R128): by the old lanes of vD. -/
def effVsel (w : Work) (c : CtxId) (x : InFlight) : Effect :=
  let l := laneW x.f
  let d := l.lanes (w.vreg c (fieldNum x.f.d))
  let ab := (l.lanes (w.vreg c (fieldNum x.f.a))).zip (w.lanesB c x l)
  putLanes w c x l ((d.zip ab).map fun p => (if p.1 ≠ 0 then p.2.1 else p.2.2, false))

/-- `vbcast` (R128). -/
def effVbcast (w : Work) (c : CtxId) (x : InFlight) : Effect :=
  let l := laneW x.f
  putLanes w c x l (List.replicate l.count (x.va.toNat % 2 ^ l.bits, false))

/-- `vins` (R128). -/
def effVins (w : Work) (c : CtxId) (x : InFlight) : Effect :=
  let l := laneW x.f
  let k := x.f.imm.toNat % l.count
  putLanes w c x l ((l.lanes (w.vreg c (fieldNum x.f.d))).zipIdx.map fun p =>
    (if p.2 = k then x.va.toNat % 2 ^ l.bits else p.1, false))

/-- `vext` (R128). -/
def effVext (w : Work) (c : CtxId) (x : InFlight) : Effect :=
  let l := laneW x.f
  let v := (l.lanes (w.vreg c (fieldNum x.f.a))).getD (x.f.imm.toNat % l.count) 0
  let v' : Int := if l.uns || decide (v < 2 ^ (l.bits - 1)) then v else (v : Int) - 2 ^ l.bits
  .done (w.setSreg c (fieldNum x.f.d) (BitVec.ofInt 64 v'))

/-- The 512-byte range of `vld` and `vst` (R111, R128). -/
def Ctx.vSpan (k : Ctx) (h : Word) (f : Fields) : Except OpFault Span :=
  let o := vOff h f
  if hMant h % 64 ≠ 0 then .error (0x0A, hMant h)
  else if o < 0 then .error (if hSpace h then 0x08 else 0x07, (BitVec.ofInt 64 o).toNat)
  else
    match k.span (hSpace h) o.toNat 512 with
    | .bad code a => .error (code, a)
    | s => .ok s

/-- `vld` (R128). -/
def effVld (w : Work) (c : CtxId) (x : InFlight) : Effect :=
  withOp w ((w.ctx c).vSpan x.va x.f) fun s => .done (w.setVreg c (fieldNum x.f.d) (vOfBytes (w.spanRead c s 512)))

/-- `vst` (R128). -/
def effVst (w : Work) (c : CtxId) (x : InFlight) : Effect :=
  withOp w ((w.ctx c).vSpan x.vb x.f) fun s => .done (w.spanWrite c s (vBytes (w.vreg c (fieldNum x.f.a))))

/-- The element of a tile that lane i of a pair of rows, or of columns, holds (R179): row and column. -/
def pairAt (cols : Bool) (r i : Nat) : Nat × Nat := if cols then (i % 64, 2 * r + i / 64) else (2 * r + i / 64, i % 64)

/-- A signed byte of a number. -/
def byteInt (n lo : Nat) : Int := (BitVec.ofNat 8 (bitsOf n lo 8)).toInt

/-- `vtget` (R128, R179): the elements' values, or aligned to IMM[15:8]. -/
def effVtget (w : Work) (c : CtxId) (x : InFlight) : Effect :=
  let t := w.tile c (fieldNum x.f.a)
  let r := x.f.imm.toNat % 32
  let tv := t.val
  let at_ := fun i =>
    let p := pairAt (modBit x.f 2) r i
    if modBit x.f 3 then
      let n := narrowElem (tv.el p.1 p.2) (tv.ex p.1 p.2) (byteInt x.f.imm.toNat 8) 32 .even
      (codeOf 32 n.1, n.2)
    else ((t.elems.get 0 (64 * p.1 + p.2)).toNat, false)
  putLanes w c x lane32 ((List.range 128).map at_)

/-- `vtput` (R128, R179): the inverse, the tag unchanged. -/
def effVtput (w : Work) (c : CtxId) (x : InFlight) : Effect :=
  let d := fieldNum x.f.d
  let t := w.tile c d
  let r := x.f.imm.toNat % 32
  let elems := ((lane32.lanes (w.vreg c (fieldNum x.f.a))).zipIdx).foldl (fun es p =>
    let q := pairAt (modBit x.f 2) r p.2
    Tbl.set 0 es (64 * q.1 + q.2) (BitVec.ofNat 32 p.1)) t.elems
  .done (w.setTile c d { t with elems := elems })

/-- `vfn` (R182, R183): the results, and the lanes outside the domain counted. -/
def effVfn (w : Work) (c : CtxId) (x : InFlight) : Effect :=
  let a := byteInt x.vb.toNat 8
  let b := byteInt x.vb.toNat 0
  let one := fun (code : Nat) =>
    match elemOf 32 code with
    | none => ((codeOf 32 none, false), false)
    | some v =>
      match vfnValue (modBits x.f 2 3) v a b with
      | none => ((codeOf 32 none, false), true)
      | some r => ((codeOf 32 (some r.1), r.2), false)
  let outs := (lane32.lanes (w.vreg c (fieldNum x.f.a))).map one
  let nars := (outs.filter (·.2)).length
  putLanes (w.updSlice c.slice.val fun s => { s with fnNars := satAdd s.fnNars nars }) c x lane32 (outs.map (·.1))

/-- The reduction of one line (R180, R181): values at scale −128 with their indexes; the result, its index, whether it
saturated. -/
def reduceLine (kind : Nat) (narWins : Bool) (b : Int) (els : List (Option Int)) : Option Int × Nat × Bool :=
  let nars := (els.zipIdx.filter fun p => p.1.isNone).map (·.2)
  let nums := els.zipIdx.filterMap fun p => p.1.map fun v => (v, p.2)
  if kind = 0 ∨ kind = 3 then
    let s := nums.foldl (fun acc p => acc + if kind = 3 then (p.1.natAbs : Int) else p.1) 0
    let n := narrow s (-128) b 32 .even
    (if nars.isEmpty then some n.1 else none, 0, n.2)
  else
    let better := fun (u v : Int) => if kind = 1 then decide (u < v) else decide (v < u)
    let best := nums.foldl (fun (m : Option (Int × Nat)) p =>
      match m with
      | none => some p
      | some q => if better q.1 p.1 then some p else some q) none
    match best with
    | none => (none, nars.headD 0, false)
    | some q =>
      if narWins && !nars.isEmpty then (none, nars.headD 0, false)
      else
        let n := narrow q.1 (-128) b 32 .even
        (some n.1, q.2, n.2)

/-- `vred.row` and `vred.col` (R180, R181). -/
def effVred (w : Work) (c : CtxId) (x : InFlight) (cols : Bool) : Effect :=
  let tv := (w.tile c (fieldNum x.f.a)).val
  let imm := x.f.imm.toNat
  let el := fun row col =>
    let e := if modBit x.f 6 then byteInt imm 8 else tv.ex row col
    (tv.el row col).map fun m => m * 2 ^ (e + 128).toNat
  let line := fun r => (List.range 64).map fun i => if cols then el i r else el r i
  let outs := (List.range 64).map fun r => reduceLine (modBits x.f 2 2) (modBit x.f 4) (byteInt imm 0) (line r)
  let lo := outs.map fun o => (codeOf 32 o.1, o.2.2)
  let hi := outs.map fun o => (if modBit x.f 5 then codeOf 32 o.1 else o.2.1, false)
  putLanes w c x lane32 (lo ++ hi)

/-- `vred.row.*` (R180). -/
def effVredRow (w : Work) (c : CtxId) (x : InFlight) : Effect := effVred w c x false
/-- `vred.col.*` (R180). -/
def effVredCol (w : Work) (c : CtxId) (x : InFlight) : Effect := effVred w c x true

/-- The tensor ID in sB[51:32] (R130). -/
def statTensor (v : Word) : BitVec 20 := v.extractLsb' 32 20

/-- `vcvt` (R130). -/
def effVcvt (w : Work) (c : CtxId) (x : InFlight) (ev : MemEvent) : Effect :=
  let fmt := modBits x.f 1 2
  let wd := fmtBits fmt
  let t := statTensor x.vb
  let rnd := fun j =>
    if modBit x.f 0 then Rnd.stoch (genWord (w.genKey c) x.step 0 x.lane x.mb false t (x.vi.toNat + j)) else Rnd.even
  let outs := (lane32.lanes (w.vreg c (fieldNum x.f.a))).zipIdx.map fun p =>
    narrowElem (elemOf 32 p.1) (byteInt x.vb.toNat 8) (byteInt x.vb.toNat 0) wd (rnd p.2)
  let sat := outs.any (·.2)
  if (w.ctx c).decl.satTrap && sat then .flt w (0x21, 0)
  else
    let w1 := w.setVreg c (fieldNum x.f.d) (vOfBytes (packCodes wd (outs.map fun o => codeOf wd o.1)))
    .done ((w1.laneSat c sat).statCount c t x.step outs ev)

/-- `vunpk` (R130): rows 2r and 2r+1 of a tile in memory, widened to 32-bit lanes. -/
def effVunpk (w : Work) (c : CtxId) (x : InFlight) (ev : MemEvent) : Effect :=
  let fmt := modBits x.f 1 2
  withOp w ((w.ctx c).tileSpans x.va fmt) fun sp =>
    let t := tileOfBytes fmt (modBit x.f 3) (w.spanRead c sp.1 (tileBytes fmt)) (w.spanRead c sp.2 128)
    let r := x.f.imm.toNat % 32
    let outs := (List.range 128).map fun i =>
      let p := pairAt false r i
      narrowElem (t.el p.1 p.2) (t.ex p.1 p.2) (byteInt x.vb.toNat 0) 32 .even
    let r := putLanes w c x lane32 (outs.map fun o => (codeOf 32 o.1, o.2))
    .done (r.w.statCount c (statTensor x.vb) x.step outs ev)

/-- `vrng` (R226): 128 words of the generator. -/
def effVrng (w : Work) (c : CtxId) (x : InFlight) : Effect :=
  let t := x.va.extractLsb' 44 20
  let i := bitsOf x.va.toNat 0 44
  putLanes w c x lane32 ((List.range 128).map fun j =>
    ((genWord (w.genKey c) x.step 1 x.lane x.mb false t (i + j)).toNat, false))

/-- The set bits of a word. -/
def popCount (v : BitVec 32) : Nat := (List.range 32).foldl (fun n i => n + (v.getLsbD i).toNat) 0

/-- `vnoise` (R227). -/
def effVnoise (w : Work) (c : CtxId) (x : InFlight) : Effect :=
  let t := x.vb.extractLsb' 44 20
  let i := bitsOf x.vb.toNat 0 44
  let noise := fun j =>
    let ws := genNoise (w.genKey c) x.step x.lane x.mb t (i + j)
    let n : Int := popCount (ws.getD 0 0) + popCount (ws.getD 1 0) - popCount (ws.getD 2 0) - popCount (ws.getD 3 0)
    (narrow (n * x.f.imm.toNat) 0 (modBits x.f 2 6 : Nat) 32 .even).1
  putLanes w c x lane32 ((lane32.lanes (w.vreg c (fieldNum x.f.a))).zipIdx.map fun p =>
    lane32.out ((elemOf 32 p.1).map fun v => v + noise p.2))

/-- `vstat` starts (R230, R235): it reads the records as they stand now. -/
def startVstat (w : Work) (c : CtxId) (x : InFlight) (ev : MemEvent) : Effect :=
  let (bs, w1) := w.statRead c (x.va.setWidth 20) x.vb ev
  .stand (w1.noteSnap c x.id bs) .started

/-- `vstat` (R229, R230, R235): the record that it read at its start, in lanes 0-15. -/
def effVstat (w : Work) (c : CtxId) (x : InFlight) : Effect := .done (w.setVreg c (fieldNum x.f.d) (vOfBytes x.snap))

end Sys2Proof.Machine
end

