-- ==== Sys2Proof/Machine/Peat.lean ====
section
/-! DEFINITION. The Peat, weight versions and their reference counts (R192-R208), and plan records (R209-R212). -/

namespace Sys2Proof.Machine

/-- LANE of a tag (R132). -/
def tagLane (t : Word) : Bool := t.getLsbD 63
/-- VERSION of a tag (R132). -/
def tagVersion (t : Word) : Bool := t.getLsbD 62
/-- MICRO_BATCH of a tag (R132). -/
def tagMb (t : Word) : BitVec 16 := t.extractLsb' 40 16

/-- A lane's entries, newest first. -/
def Peat.lane (p : Peat) (b : Bool) : List PeatEntry := if b then p.laneB else p.laneA
/-- A lane's entries set. -/
def Peat.setLane (p : Peat) (b : Bool) (l : List PeatEntry) : Peat := if b then { p with laneB := l } else { p with laneA := l }
/-- An entry is resident. -/
def PeatEntry.resident (e : PeatEntry) : Bool := decide (e.place = .resident)
/-- Resident units of a lane, of 512 B. -/
def residentUnits (l : List PeatEntry) : Nat := l.foldl (fun n e => if e.resident then n + e.size else n) 0
/-- Spilled units of a lane. -/
def spilledUnits (l : List PeatEntry) : Nat := l.foldl (fun n e => if e.resident then n else n + e.size) 0
/-- Free units: 1.5 GiB less the resident entries and the copies in flight (R192, R194). -/
def Peat.free (p : Peat) : Nat :=
  3145728 - (residentUnits p.laneA + residentUnits p.laneB + p.copies.foldl (fun n c => n + c.size) 0)

/-- A run of units put in its place among runs that rise. -/
def insertRun (r : Nat × Nat) : List (Nat × Nat) → List (Nat × Nat)
  | [] => [r]
  | x :: l => if r.1 ≤ x.1 then r :: x :: l else x :: insertRun r l

/-- The runs of free units from a unit on, between runs in use that rise (R192). -/
def freeRuns (from_ : Nat) : List (Nat × Nat) → List (Nat × Nat)
  | [] => if from_ < 3145728 then [(from_, 3145728 - from_)] else []
  | x :: l => (if from_ < x.1 then [(from_, x.1 - from_)] else []) ++ freeRuns (max from_ (x.1 + x.2)) l

/-- The runs of units that a Peat has in use, rising: of resident entries and of copies in flight (R192, R194). -/
def Peat.usedRuns (p : Peat) : List (Nat × Nat) :=
  ((p.laneA ++ p.laneB).flatMap (·.units) ++ p.copies.flatMap (·.units)).foldr insertRun []

/-- The lowest `n` units of free runs that rise. -/
def takeLow : Nat → List (Nat × Nat) → List (Nat × Nat)
  | _, [] => []
  | n, x :: l => if n ≤ x.2 then (if n = 0 then [] else [(x.1, n)]) else x :: takeLow (n - x.2) l

/-- The highest `n` units of free runs that fall. -/
def takeHigh : Nat → List (Nat × Nat) → List (Nat × Nat)
  | _, [] => []
  | n, x :: l => if n ≤ x.2 then (if n = 0 then [] else [(x.1 + x.2 - n, n)]) else x :: takeHigh (n - x.2) l

/-- The units that an entry of a lane takes (R192): lane A from the lowest free units upward, lane B from the highest downward. -/
def Peat.takeUnits (p : Peat) (laneB : Bool) (n : Nat) : List (Nat × Nat) :=
  let free := freeRuns 0 p.usedRuns
  if laneB then takeHigh n free.reverse else takeLow n free

/-- The Peat of a slice changed. -/
def Work.updPeat (w : Work) (n : Nat) (f : Peat → Peat) : Work := w.updSlice n fun s => { s with peat := f s.peat }
/-- The Peat of a slice. -/
def Work.peat (w : Work) (n : Nat) : Peat := (w.slice n).peat

/-- The work version of a context (R201): the version it holds, else the latched buffer. -/
def Ctx.workVersion (x : Ctx) : Bool := x.version.getD x.latBuf

/-- Whether a state is live for reference counts (R204). -/
def CtxState.live (s : CtxState) : Bool :=
  match s with
  | .running => true
  | .waiting => true
  | .paused => true
  | _ => false

/-- The reference count of buffer v (R204): entries in the Peat of the partition's slices and live contexts of the job that holds the
weight pairs; contexts of other jobs do not count (DESIGN CHOICE, log entry 134). -/
def Work.refs (w : Work) (q : Fin 8) (job : BitVec 16) (v : Bool) : Nat :=
  let inLane := fun (l : List PeatEntry) => l.countP fun e => decide (tagVersion e.tag = v)
  (w.slicesOf q).foldl (fun n s => n + inLane (w.peat s).laneA + inLane (w.peat s).laneB) 0 +
    w.ctxs.countP fun e =>
      decide (e.2.part = q ∧ e.2.job = job) && e.2.st.live && decide (e.2.workVersion = v)

/-- Whether two ranges overlap. -/
def overlap (a n b m : Nat) : Bool := decide (a < b + m) && decide (b < a + n)

/-- The role of a range among the weight-pair buffers of a partition (R205): the job that holds it and whether it is the
current buffer. -/
inductive WriteRole where
  | free
  | current
  | previous (job : BitVec 16)
deriving DecidableEq, Repr

/-- The role of a range to be written (R205). -/
def Work.writeRole (w : Work) (q : Fin 8) (a n : Nat) : WriteRole :=
  (w.jobsOf q).foldl (fun r j =>
    match w.job q j with
    | none => r
    | some jb =>
      let hit := fun (cur : Bool) => jb.weights.any fun p =>
        overlap a n (if jb.buf == cur then p.base1.toNat else p.base0.toNat) p.bytes
      if r = .current || hit true then .current else if hit false then .previous j else r) .free

/-- Whether a write to a range must wait for a reference count (R205). -/
def Work.mustHold (w : Work) (q : Fin 8) (a n : Nat) : Bool :=
  match w.writeRole q a n with
  | .previous j =>
    match w.job q j with
    | some jb => decide (w.refs q j (!jb.buf) ≠ 0)
    | none => false
  | _ => false

/-- The address of a plan record slot (R212). -/
def slotAddr (p : PeatSec) (step : Nat) : Nat := p.recordBase.toNat + step % 2 * 65536

/-- The key domain of an entry at its push (R198): of the plan record that names its micro-batch, else
DEFAULT_DOMAIN. -/
def Work.pushDomain (w : Work) (q : Fin 8) (p : PeatSec) (step : Nat) (mb : BitVec 16) : BitVec 6 :=
  let a := slotAddr p step
  let h := w.peek q a 16
  if leAt h 0 8 = step then
    let n := leAt h 8 2 + leAt h 10 2
    let rec_ := (List.range n).map fun i => w.peek q (a + 16 + 16 * i) 16
    match rec_.find? fun r => decide (leAt r 0 2 = mb.toNat) with
    | some r => BitVec.ofNat 6 (leAt r 3 1)
    | none => p.domain
  else p.domain

/-- An oldest resident entry that is not the newest of its lane (R196), and the lane without change of order: the
position from the oldest. -/
def oldestResident (l : List PeatEntry) : Option PeatEntry := (l.drop 1).reverse.find? PeatEntry.resident

/-- The oldest resident entry below the newest replaced. -/
def replaceOldest (l : List PeatEntry) (e : PeatEntry) : List PeatEntry :=
  let go := l.reverse
  let pre := go.takeWhile fun x => !x.resident
  match go.drop pre.length with
  | [] => l
  | _ :: rest => (pre ++ e :: rest).reverse

/-- The lane whose entry the spill engine moves for a push of a lane (R196). -/
def Peat.victimLane (p : Peat) (b : Bool) : Option Bool :=
  if (oldestResident (p.lane b)).isSome then some b
  else if (oldestResident (p.lane (!b))).isSome then some (!b) else none

/-- Places for `n` bytes in overflow pages of one lane and domain (R198): what is left of its open page, then fresh
pages from the lowest address; the pieces and the pages in use after, or none when the region has no room. -/
def Peat.placePieces (p : Peat) (laneB : Bool) (dom : BitVec 6) : Nat → Nat → List (Nat × Nat) → Option (List (Nat × Nat) × Peat)
  | 0, n, acc => if n = 0 then some (acc.reverse, p) else none
  | fuel + 1, n, acc =>
    if n = 0 then some (acc.reverse, p)
    else
      match p.inUse.find? fun g => decide (g.laneB = laneB ∧ g.dom = dom ∧ g.used < pageBytes) with
      | some g =>
        let k := min n (pageBytes - g.used)
        let grow := fun (h : PeatPage) => if h.addr = g.addr then { h with used := h.used + k } else h
        ({ p with inUse := p.inUse.map grow } : Peat).placePieces laneB dom fuel (n - k) ((g.addr + g.used, k) :: acc)
      | none =>
        let base := p.spillBase.toNat * pageBytes
        match ((List.range p.spillPages.toNat).map fun i => base + i * pageBytes).find? fun a =>
            p.inUse.all fun h => decide (h.addr ≠ a) with
        | none => none
        | some a =>
          let k := min n pageBytes
          ({ p with inUse := ⟨a, laneB, dom, k⟩ :: p.inUse } : Peat).placePieces laneB dom fuel (n - k) ((a, k) :: acc)

/-- The pages whose addresses are new between two states of a Peat. -/
def Peat.newPages (p p' : Peat) : List PeatPage := p'.inUse.filter fun g => p.inUse.all fun h => decide (h.addr ≠ g.addr)

/-- The spill engine sets a page's domain (R198, R346): a change makes the page fresh. -/
def Work.setPeatPage (w : Work) (q : Fin 8) (g : PeatPage) : Work :=
  let k := g.addr / pageBytes
  match (w.part q).pages.get none k with
  | none => w
  | some e =>
    if e.dom = g.dom then w
    else
      ((w.updPart q fun p => { p with pages := p.pages.set none k (some { e with dom := g.dom }) }).freshPage
        e.ppage.toNat).logPage q k (some e) (some { e with dom := g.dom })

/-- The pages that no spilled entry uses return to the pool (R198). -/
def Peat.releasePages (p : Peat) : Peat :=
  let uses := fun (g : PeatPage) (e : PeatEntry) =>
    match e.place with
    | .spilled ps => ps.any fun q => decide (q.1 / pageBytes = g.addr / pageBytes)
    | .resident => false
  { p with inUse := p.inUse.filter fun g => p.laneA.any (uses g) || p.laneB.any (uses g) }

/-- Pieces of bytes written to their places, in order. -/
def Work.writePieces (w : Work) (q : Fin 8) : List (Nat × Nat) → List Byte → Work
  | [], _ => w
  | (a, n) :: rest, bs => Work.writePieces (w.hbmWrite q a (bs.take n) .ok).2 q rest (bs.drop n)

/-- Pieces read back, in order; `ev` is what the first read meets. -/
def Work.readPieces (w : Work) (q : Fin 8) : List (Nat × Nat) → MemEvent → Got × Work
  | [], _ => (⟨0, []⟩, w)
  | (a, n) :: rest, ev =>
    let (g, w1) := w.hbmRead q a n ev
    if g.code ≠ 0 then (g, w1)
    else
      let (g2, w2) := Work.readPieces w1 q rest .ok
      (⟨g2.code, g.bytes ++ g2.bytes⟩, w2)

/-- One resident entry moved to the overflow region for a push of a lane (R196, R198): unchanged when no entry can be
moved or the region has no room. -/
def Work.spillOne (w : Work) (n : Nat) (laneB : Bool) : Option Work :=
  let p := w.peat n
  match w.sliceOwner n, p.victimLane laneB with
  | some q, some b =>
    match oldestResident (p.lane b) with
    | none => none
    | some e =>
      match p.placePieces b e.dom (e.size * 512 / pageBytes + 3) (e.size * 512) [] with
      | none => none
      | some (pieces, p1) =>
        let w1 := (p.newPages p1).foldl (fun w g => w.setPeatPage q g) w
        let w2 := w1.writePieces q pieces e.bytes
        let e' := { e with place := .spilled pieces, bytes := [], units := [] }
        some (w2.updPeat n fun _ =>
          { p1.setLane b (replaceOldest (p.lane b) e') with spills := satAdd p.spills 1 })
  | _, _ => none

/-- Whether a push of a slice waits for space. -/
def Work.pushWaits (w : Work) (n : Nat) : Option (CtxId × InFlight) :=
  (w.ctxs.filter fun e => e.1 / 256 = n).findSome? fun e =>
    (e.2.infl.find? fun x => decide (x.stat = .waitSpace)).map fun x => (ctxOfKey e.1, x)

/-- Whether the pop at the head of a context's M queue waits for a lane's newest entry, which is spilled (R194). -/
def Work.popWaits (w : Work) (n : Nat) (laneB : Bool) : Bool :=
  match (w.peat n).lane laneB with
  | [] => false
  | e :: _ =>
    !e.resident && (w.ctxs.filter fun k => k.1 / 256 = n).any fun k =>
      match k.2.infl.find? fun x => decide (x.op.queue = .M) && decide (x.stat = .queued) with
      | some x => decide (x.op = .peatPop) && decide (x.va = e.tag)
      | none => false

/-- A lane's newest spilled entry. -/
def newestSpilled (l : List PeatEntry) : Option PeatEntry := l.find? fun e => !e.resident

/-- The newest spilled entry replaced. -/
def replaceSpilled (l : List PeatEntry) (e : PeatEntry) : List PeatEntry :=
  let pre := l.takeWhile PeatEntry.resident
  match l.drop pre.length with
  | [] => l
  | _ :: rest => pre ++ e :: rest

/-- Whether a lane qualifies for a fetch-back (R194, R199): no push of the slice waits for space, its newest spilled entry finds
space, and a pop waits for that entry or the lane's resident bytes are below FETCH_AHEAD. While a push waits, not even a fetch that a
pop waits for starts (DEDUCED, log entry 106). -/
def Work.qualifies (w : Work) (n : Nat) (laneB : Bool) : Bool :=
  let p := w.peat n
  match newestSpilled (p.lane laneB) with
  | none => false
  | some e =>
    (w.pushWaits n).isNone && decide (e.size ≤ p.free) &&
      (w.popWaits n laneB || decide (residentUnits (p.lane laneB) * 512 < p.fetchAhead * 1048576))

/-- Whether the spill engine takes a lane's newest spilled entry next (R194, R199): a fetch that a pop waits for goes ahead of the
other lane's, and else lane A goes ahead of lane B. -/
def Work.mayFetch (w : Work) (n : Nat) (laneB : Bool) : Bool :=
  let mine := w.popWaits n laneB
  let other := w.popWaits n (!laneB)
  w.qualifies n laneB && !(w.qualifies n (!laneB) && ((other && !mine) || (laneB && (other == mine))))

/-- A lane's newest spilled entry comes back (R197, R199): poisoned when its read fails (R198). -/
def Work.fetchBack (w : Work) (n : Nat) (laneB : Bool) (ev : MemEvent) : Work :=
  let p := w.peat n
  match newestSpilled (p.lane laneB), w.sliceOwner n with
  | some e, some q =>
    if w.mayFetch n laneB then
      match e.place with
      | .resident => w
      | .spilled pieces =>
        let (g, w1) := w.readPieces q pieces ev
        let e' := { e with place := .resident, bytes := g.bytes, units := p.takeUnits laneB e.size
                           poison := e.poison || decide (g.code ≠ 0) }
        w1.updPeat n fun p =>
          ({ p.setLane laneB (replaceSpilled (p.lane laneB) e') with fetches := satAdd p.fetches 1 } : Peat).releasePages
    else w
  | _, _ => w

/-- A slice's Peat emptied (R200). -/
def Peat.emptied (p : Peat) : Peat := { p with laneA := [], laneB := [], copies := [], inUse := [] }

/-- `peat.push` (R131, R193): the checks in order, then the entry is the lane's newest; it waits for space where it
must (R196). The operand's own faults come before the checks of R193, and the tag is compared with the work version at each attempt, a
retry included (DESIGN CHOICE, log entry 133). -/
def effPeatPush (w : Work) (c : CtxId) (x : InFlight) (ev : MemEvent) : Effect :=
  withSram w ev <|
  let k := w.ctx c
  let size := x.f.imm.toNat + 1
  let n := c.slice.val
  let p := w.peat n
  let lane := tagLane x.vd
  withOp w (k.range x.va (size * 512)) fun sp =>
    if tagVersion x.vd ≠ k.workVersion then .flt w (0x69, 0)
    else if 32768 ≤ (p.lane lane).length then .flt w (0x3C, 0)
    else if p.free < size then
      if p.copies.isEmpty && ((w.spillOne n lane).isNone) then .flt w (0x3C, 0) else .stand w .waitSpace
    else
      let dom := match (w.jobOf c).bind Job.peat with
        | some s => w.pushDomain k.part s x.step (tagMb x.vd)
        | none => 0
      let e : PeatEntry :=
        { tag := x.vd, size, bytes := w.spanRead c sp (size * 512), dom, place := .resident
          units := p.takeUnits lane size, poison := false }
      .done (w.updPeat n fun p => p.setLane lane (e :: p.lane lane))

/-- `peat.pop` (R131, R132, R194): the newest entry of the lane leaves its directory and its bytes are on their way to
sD; faults 0x06, 0x05, 0x31; a spilled entry must be fetched back first. LATE_POPS (R207) counts a pop by the version that the entry's tag
names, which it sets, and not by the one held before; a pop that ends in 0x31 is not counted (DESIGN CHOICE, log entry 131). -/
def effPeatPop (w : Work) (c : CtxId) (x : InFlight) (ev : MemEvent) : Effect :=
  let k := w.ctx c
  let n := c.slice.val
  let lane := tagLane x.va
  match (w.peat n).lane lane with
  | [] => .flt w (0x06, 0)
  | e :: rest =>
    if e.tag ≠ x.va then .flt w (0x05, 0)
    else if !e.resident then
      .wait (if x.missed then w
        else (w.updPeat n fun p => { p with popStalls := satAdd p.popStalls 1 }).updCtx c fun k =>
          { k with infl := k.infl.map fun y => if y.id = x.id then { y with missed := true } else y })
    else
      withOp w (k.range x.vd (e.size * 512)) fun _ =>
        let w1 := w.updPeat n fun p => (p.setLane lane rest).releasePages
        if e.poison || evUe ev then .flt w1 (0x31, 0)
        else
          let v := tagVersion e.tag
          let late := match w.jobOf c with
            | some j => decide (v ≠ j.buf)
            | none => false
          let w2 := w1.updCtx c fun k => { k with version := some v }
          let w3 := w2.updPeat n fun p => { p with copies := p.copies ++ [⟨c, x.id, e.size, e.bytes, e.units⟩] }
          .stand (if late then w3.updPart k.part fun q => { q with latePops := satAdd q.latePops 1 } else w3) .copying

/-- A plan entry (R209). -/
structure PlanEntry where
  mb : Nat
  lane : Bool
  dom : Nat
  len : Nat
  units : Nat
  reserved : Bool
deriving DecidableEq, Repr

/-- The entries of a plan (R209); `reserved` marks a reserved bit that is not zero. -/
def planEntries (b : List Byte) (n : Nat) : List PlanEntry :=
  (List.range n).map fun i =>
    let o := 16 + 16 * i
    { mb := leAt b o 2, lane := decide (leAt b (o + 2) 1 % 2 = 1), dom := leAt b (o + 3) 1 % 64
      len := leAt b (o + 4) 2, units := leAt b (o + 8) 4
      reserved := decide (leAt b (o + 2) 1 / 2 ≠ 0 ∨ leAt b (o + 3) 1 / 64 ≠ 0 ∨ leAt b (o + 6) 2 ≠ 0 ∨
        leAt b (o + 12) 4 ≠ 0) }

/-- Pieces of an entry (R211). -/
def PlanEntry.pieces (e : PlanEntry) (ceiling : Nat) : Nat := (e.len + max ceiling 1 - 1) / max ceiling 1

/-- Part j of a total divided into n parts, the first (total mod n) one larger (R211). -/
def share (total n j : Nat) : Nat := total / n + if j < total % n then 1 else 0

/-- The parts before part j. -/
def shareBefore (total n j : Nat) : Nat := j * (total / n) + min j (total % n)

/-- The records of one entry from a START (R211, R212). -/
def PlanEntry.records (e : PlanEntry) (ceiling start : Nat) : List (List Byte) :=
  let n := e.pieces ceiling
  (List.range n).map fun j =>
    leBytes 2 e.mb ++
      [BitVec.ofNat 8 (e.lane.toNat + 2 * j + if j + 1 = n then 128 else 0), BitVec.ofNat 8 e.dom] ++
      leBytes 2 (share e.len n j) ++ leBytes 2 (start + shareBefore e.len n j) ++
      leBytes 4 (shareBefore e.units n j) ++ leBytes 4 (share e.units n j)

/-- The records of a lane and its span (R211). -/
def laneRecords (ceiling : Nat) : List PlanEntry → Nat → List (List Byte) × Nat
  | [], s => ([], s)
  | e :: rest, s =>
    let (r, s') := laneRecords ceiling rest (s + e.len)
    (e.records ceiling s ++ r, s')

/-- The records of a plan's two lanes with their spans (R212). -/
def planLanes (ceiling : Nat) (es : List PlanEntry) : (List (List Byte) × Nat) × (List (List Byte) × Nat) :=
  (laneRecords ceiling (es.filter fun e => !e.lane) 0, laneRecords ceiling (es.filter (·.lane)) 0)

/-- The refusal of a plan's contents (R210): the low byte of its status. Where several causes hold, the first of 0x30, 0x34, 0x33, 0x31
and 0x32 is reported (DESIGN CHOICE, log entry 135). -/
def planRefusal (ceiling : Nat) (b : List Byte) : Option Nat :=
  let n := leAt b 8 2
  let es := planEntries b n
  let ls := planLanes ceiling es
  if b.length ≠ 16 + 16 * n ∨ leAt b 10 6 ≠ 0 ∨ es.any (fun e => e.len == 0 || e.reserved) then some 0x34
  else if es.any (fun e => decide (e.mb = 0xFFFF)) ∨ ¬ (es.map (·.mb)).Nodup then some 0x33
  else if es.any (fun e => decide (64 < e.pieces ceiling ∨ e.units < e.pieces ceiling)) then some 0x31
  else if 4095 < ls.1.1.length + ls.2.1.length ∨ 65535 < ls.1.2 ∨ 65535 < ls.2.2 then some 0x32
  else none

/-- The bytes of a slot for a plan (R212): header, lane A's records, lane B's. -/
def planSlot (ceiling : Nat) (b : List Byte) : List Byte :=
  let ls := planLanes ceiling (planEntries b (leAt b 8 2))
  bytesAt b 0 8 ++ leBytes 2 ls.1.1.length ++ leBytes 2 ls.2.1.length ++ leBytes 2 ls.1.2 ++ leBytes 2 ls.2.2 ++
    ls.1.1.flatten ++ ls.2.1.flatten

/-- The slot of a step that begins (R212): a slot that holds another step gets a header with zero counts. -/
def Work.beginSlot (w : Work) (q : Fin 8) (p : PeatSec) (step : Nat) : Work :=
  if leNat (w.peek q (slotAddr p step) 8) = step then w
  else (w.hbmWrite q (slotAddr p step) (leBytes 8 step ++ List.replicate 8 0) .ok).2

end Sys2Proof.Machine
end

