-- ==== Sys2Proof/Machine/Move.lean ====
section
/-! DEFINITION. The data movers: `dma.get`, `dma.put`, `dma.copy`, `dma.fill`, `t.ld` and `t.st` (R84, R131, R205). -/

namespace Sys2Proof.Machine

/-- The detail of a fault of an HBM access (R106): for 0x09 the first address that is not mapped. -/
def Work.hbmDetail (w : Work) (q : Fin 8) (code : Byte) (a n : Nat) : Nat :=
  if code = 0x09 then
    match (rangeBlocks a n).find? fun b => (w.translate q b.1).isNone with
    | some b => b.1
    | none => a
  else 0

/-- An HBM operand's address (R112): bits [5:0] must be zero. -/
def hbmOperand (v : Word) : Except OpFault Nat := if hbmAddr v % 64 ≠ 0 then .error (0x0A, hbmAddr v) else .ok (hbmAddr v)

/-- A read by `dma.get`: from a read-ahead buffer of its context and segment that holds the whole range, which is as the
memory stands (R425, R426); else from the stack. -/
def Work.getRead (w : Work) (c : CtxId) (x : InFlight) (q : Fin 8) (a n : Nat) (ev : MemEvent) : Got × Work :=
  let held := w.readAhead.any fun r =>
    decide (r.ctx = c ∧ r.segment = x.seg ∧ r.q = q ∧ r.addr ≤ a ∧ a + n ≤ r.addr + r.bytes)
  w.hbmRead q a n (if held then .ok else ev)

/-- `dma.get` starts; that of a described tile reads its descriptor now, and its operands are checked (R113). -/
def startDmaGet (w : Work) (c : CtxId) (x : InFlight) : Effect :=
  let k := w.ctx c
  if modBit x.f 0 = false then .stand w .started
  else
  withOp w (w.descAt c x.va) fun d =>
  withOp w (k.tileSpans x.vd d.fmt) fun _ =>
  withOp w (k.range x.va 64) fun s => .stand (w.noteSnap c x.id (w.spanRead c s 64)) .started

/-- `dma.get` (R131): bytes of a range, or a described tile with its exponents, whose descriptor was read at the start (R113). -/
def effDmaGet (w : Work) (c : CtxId) (x : InFlight) (ev : MemEvent) : Effect :=
  let k := w.ctx c
  let q := k.part
  if modBit x.f 0 then
    let d := TensorDesc.ofBytes x.snap
    withOp w (k.tileSpans x.vd d.fmt) fun sp =>
      let t := x.vb.toNat
      let (g, w1) := w.getRead c x q (d.mantAt t) (tileBytes d.fmt) ev
      if g.code ≠ 0 then .flt w1 (g.code, w.hbmDetail q g.code (d.mantAt t) (tileBytes d.fmt))
      else
        let (e, w2) := w1.getRead c x q (d.expAt t) 128 (evAfter ev (rangeBlocks (d.mantAt t) (tileBytes d.fmt)).length)
        if e.code ≠ 0 then .flt w2 (e.code, w.hbmDetail q e.code (d.expAt t) 128)
        else .done ((w2.spanWrite c sp.1 g.bytes).spanWrite c sp.2 e.bytes)
  else
    let n := lenB x.vb
    withOp w (hbmOperand x.va) fun a =>
    withOp w (k.range x.vd n) fun sp =>
      let (g, w1) := w.getRead c x q a n ev
      if g.code ≠ 0 then .flt w1 (g.code, w.hbmDetail q g.code a n) else .done (w1.spanWrite c sp g.bytes)

/-- The parts that a `dma.put` writes, as address and bytes read at its start (R131). -/
def Work.putParts (w : Work) (c : CtxId) (x : InFlight) : Except OpFault (List (Nat × List Byte)) :=
  let k := w.ctx c
  if modBit x.f 0 then
    match w.descAt c x.vd with
    | .error e => .error e
    | .ok d =>
      match k.tileSpans x.va d.fmt with
      | .error e => .error e
      | .ok sp =>
        .ok [(d.mantAt x.vb.toNat, w.spanRead c sp.1 (tileBytes d.fmt)), (d.expAt x.vb.toNat, w.spanRead c sp.2 128)]
  else
    match hbmOperand x.vd with
    | .error e => .error e
    | .ok a =>
      match k.range x.va (lenB x.vb) with
      | .error e => .error e
      | .ok sp => .ok [(a, w.spanRead c sp (lenB x.vb))]

/-- `dma.put` starts (R84, R131, R205): its source is read and the write is on its way to a stack controller; 0x68 where
it overlaps the current buffer of a weight pair; it waits while a previous buffer it overlaps is in use. -/
def effDmaPut (w : Work) (c : CtxId) (x : InFlight) (ev : MemEvent) : Effect :=
  let q := (w.ctx c).part
  withOp w (w.putParts c x) fun ps =>
  withSram w ev (
    match ps.find? fun p => !w.mapped q p.1 p.2.length with
    | some p => .flt w (0x09, w.hbmDetail q 0x09 p.1 p.2.length)
    | none =>
      if ps.any fun p => decide (w.writeRole q p.1 p.2.length = .current) then .flt w (0x68, 0)
      else if ps.any fun p => w.mustHold q p.1 p.2.length then
        .stand (if x.stat = .waitRefs then w
          else w.updPart q fun p => { p with writeWaits := satAdd p.writeWaits 1 }) .waitRefs
      else .stand { w with writes := w.writes ++ [⟨q, ps, c, x.id⟩] } .writing)

/-- The parts of an accepted write applied in order (R84): the first code that is not 0, with its address. -/
def Work.applyParts (w : Work) (q : Fin 8) : List (Nat × List Byte) → MemEvent → (Byte × Nat) × Work
  | [], _ => ((0, 0), w)
  | (a, bs) :: rest, ev =>
    let (code, w1) := w.hbmWrite q a bs ev
    let (r, w2) := Work.applyParts w1 q rest (evAfter ev (rangeBlocks a bs.length).length)
    (if code ≠ 0 then (code, w.hbmDetail q code a bs.length) else r, w2)

/-- `dma.copy` (R131). Where the ranges overlap, the whole source is read before the destination is written (DESIGN CHOICE, log
entry 104). -/
def effDmaCopy (w : Work) (c : CtxId) (x : InFlight) : Effect :=
  let n := lenB x.vb
  withOp w ((w.ctx c).range x.va n) fun src =>
  withOp w ((w.ctx c).range x.vd n) fun dst => .done (w.spanWrite c dst (w.spanRead c src n))

/-- `dma.fill` (R131): the 64-bit pattern sA. -/
def effDmaFill (w : Work) (c : CtxId) (x : InFlight) : Effect :=
  let n := lenB x.vb
  withOp w ((w.ctx c).range x.vd n) fun dst =>
    .done (w.spanWrite c dst ((List.replicate (n / 8) (leBytes 8 x.va.toNat)).flatten))

/-- `t.ld` (R121, R131): elements widened (R43), FMT and AXIS in the tag. -/
def effTLd (w : Work) (c : CtxId) (x : InFlight) : Effect :=
  let fmt := modBits x.f 1 2
  withOp w ((w.ctx c).tileSpans x.va fmt) fun sp =>
    let codes := unpackCodes (fmtBits fmt) 4096 (w.spanRead c sp.1 (tileBytes fmt))
    let els := codes.map fun v => BitVec.ofNat 32 (codeOf 32 (elemOf (fmtBits fmt) v))
    .done (w.setTile c (fieldNum x.f.d) (Tile.make els (BitVec.ofNat 2 fmt) (modBit x.f 3) (w.spanRead c sp.2 128)))

/-- A 32-bit element stored as a code of width w (R131): the code and whether it saturated. -/
def storeCode (wd : Nat) (v : BitVec 32) : Nat × Bool :=
  match elemOf 32 v.toNat with
  | none => (codeOf wd none, false)
  | some m => let r := clampMag (maxMag wd) m; (codeOf wd (some r.1), r.2)

/-- `t.st` (R131). -/
def effTSt (w : Work) (c : CtxId) (x : InFlight) : Effect :=
  let t := w.tile c (fieldNum x.f.a)
  let wd := fmtBits t.fmt.toNat
  withOp w ((w.ctx c).tileSpans x.vd t.fmt.toNat) fun sp =>
    let outs := (Tbl.denseFrom 0 4096 0 t.elems).map (storeCode wd)
    let w1 := (w.spanWrite c sp.1 (packCodes wd (outs.map (·.1)))).spanWrite c sp.2 t.expBytes
    .done (if outs.any (·.2) then w1.updCtx c fun k => { k with laneSat := true } else w1)

end Sys2Proof.Machine
end

