-- ==== Sys2Proof/Machine/Sync.lean ====
section
/-! DEFINITION. Sluices, local flags, segments and the control instructions (R87-R94, R134, R188-R191, R201, R536). -/

namespace Sys2Proof.Machine

/-- COUNT has reached a value, modulo 2^32 (R92). -/
def reached32 (count v : BitVec 32) : Bool := decide ((count - v).toNat < 2 ^ 31)
/-- A generation is later than another (R92). -/
def laterGen (a b : BitVec 16) : Bool := decide (1 ≤ (a - b).toNat) && decide ((a - b).toNat ≤ 32767)
/-- A local flag has reached a value (R87). -/
def reached16 (f v : BitVec 16) : Bool := decide ((f - v).toNat < 2 ^ 15)

/-- A sluice is declared by some loaded program (R97). -/
def Sluice.declared (s : Sluice) : Bool := !s.owners.isEmpty
/-- COUNT has reached TARGET (R92). -/
def Sluice.full (s : Sluice) : Bool := reached32 s.count s.target
/-- What `sl.wait` waits for (R93). -/
def Sluice.satisfied (s : Sluice) (g : BitVec 16) : Bool := (s.gen == g && s.full) || laterGen s.gen g

/-- `sl.arm` at the store (R93). A publication follows only where the state changes (R94). -/
def Sluice.armed (s : Sluice) (g : BitVec 16) (t : BitVec 32) : Sluice :=
  { s with count := 0, target := t, gen := g, changed := s.changed || !(s.count == 0 && s.target == t && s.gen == g)
           rearms := if s.full then s.rearms else min (s.rearms + 1) 65535 }

/-- `sl.sig` at the store (R93). A publication follows only where COUNT changes (R94). -/
def Sluice.signalled (s : Sluice) (g : BitVec 16) (k : BitVec 32) : Sluice :=
  if s.gen = g then { s with count := s.count + k, changed := s.changed || decide (k ≠ 0) }
  else { s with discards := min (s.discards + 1) 65535 }

/-- An operation at the store. -/
def Sluice.apply (s : Sluice) : SluiceOp → Sluice
  | .arm g t => s.armed g t
  | .signal g k => s.signalled g k

/-- The jobs whose commit sluice a number is, with their partitions. -/
def Work.commitJobs (w : Work) (i : Nat) : List (Fin 8 × BitVec 16) :=
  w.jobs.filterMap fun e =>
    match e.2 with
    | some j => if j.commitSluice = some i then some (partFin (e.1 / 65536), BitVec.ofNat 16 e.1) else none
    | none => none

/-- The deciding home of a job looks at its commit sluice after a signal (R415): the deadline runs from the first signal
of the generation, and the step is COMMITTED when COUNT has reached TARGET. -/
def Work.checkCommit (w : Work) (i : Nat) (g : BitVec 16) : Work :=
  (w.commitJobs i).foldl (fun w e =>
    match w.job e.1 e.2 with
    | none => w
    | some j =>
      if w.decides e.1 e.2 j && (w.sluice i).gen == g then
        let w1 := if (w.commit e.1 e.2).firstSignal.isNone then
            w.updCommit e.1 e.2 fun c => { c with firstSignal := some w.frame } else w
        if (w1.sluice i).full then w1.decideStep e.1 e.2 true 0 else w1
      else w) w

/-- An operation takes effect at the authoritative store of a sluice. -/
def Work.applySluice (w : Work) (i : Nat) (op : SluiceOp) : Work :=
  let w1 := w.updSluice i fun s => s.apply op
  match op with
  | .signal g _ => w1.checkCommit i g
  | .arm _ _ => w1

/-- The home of a sluice is another device. -/
def Work.remoteSluice (w : Work) (i : Nat) : Bool := (w.sluice i).fabric && decide ((w.sluice i).home ≠ w.time.address)

/-- The payload of a sluice message (R536). -/
def SluiceOp.payload : SluiceOp → List Byte
  | .signal g k => [0, 0] ++ leBytes 2 g.toNat ++ leBytes 4 k.toNat ++ List.replicate 8 0
  | .arm g t => [1, 0] ++ leBytes 2 g.toNat ++ leBytes 4 t.toNat ++ List.replicate 8 0

/-- The operation that a sluice message carries. -/
def SluiceOp.ofPayload (b : List Byte) : SluiceOp :=
  if leAt b 0 1 = 1 then .arm (BitVec.ofNat 16 (leAt b 2 2)) (BitVec.ofNat 32 (leAt b 4 4))
  else .signal (BitVec.ofNat 16 (leAt b 2 2)) (BitVec.ofNat 32 (leAt b 4 4))

/-- A sluice message to a device (R94, R536), in the best-effort class (DESIGN CHOICE, log entry 22). -/
def Work.sluiceMsg (w : Work) (q : Fin 8) (job : BitVec 16) (dev : BitVec 16) (i : Nat) (op : SluiceOp) (owner : PktOwner)
    (sl : Fin 8) : Work :=
  w.sendPkt q (mkPkt dev job 0x06 (BitVec.ofNat 64 i) op.payload) owner sl none

/-- A signal or an arm issued on this device (R94): on its way to the local store, or to the home; `src` is the unit it
comes from: a package core, 4096 the host, 8192 the reductions. -/
def Work.issueSluice (w : Work) (q : Fin 8) (job : BitVec 16) (i : Nat) (op : SluiceOp) (sl : Fin 8) (src : Nat) : Work :=
  if w.remoteSluice i then w.sluiceMsg q job (w.sluice i).home i op .device sl
  else w.updSluice i fun s => { s with coming := s.coming ++ [(src, op)] }

/-- Whether the program of a context declares a sluice (R93). -/
def Work.declares (w : Work) (c : CtxId) (i : Nat) : Bool :=
  match w.prog (w.ctx c).part (w.ctx c).program with
  | some p => p.sluices.contains (BitVec.ofNat 14 i)
  | none => false

/-- The sluice that sA names (R134). -/
def InFlight.sluiceNo (x : InFlight) : Nat := bitsOf x.va.toNat 0 14
/-- The generation that sB names (R134). -/
def InFlight.gen (x : InFlight) : BitVec 16 := x.vb.setWidth 16

/-- Every earlier instruction of the context has completed, remote completion included (R93, R134). -/
def Ctx.allBefore (k : Ctx) (x : InFlight) : Bool := k.infl.all fun y => decide (x.id ≤ y.id)

/-- An instruction that names an undeclared sluice faults with 0x0C and the sluice number (R93, R106). -/
def withSluice (w : Work) (c : CtxId) (x : InFlight) (f : Effect) : Effect :=
  if w.declares c x.sluiceNo then f else .flt w (0x0C, x.sluiceNo)

/-- `sl.arm` (R93, R134). -/
def effSlArm (w : Work) (c : CtxId) (x : InFlight) : Effect :=
  withSluice w c x (.done (w.issueSluice (w.ctx c).part (w.ctx c).job x.sluiceNo (.arm x.gen (x.vd.setWidth 32)) c.slice (coreKey c)))

/-- `sl.sig` (R93, R134). -/
def effSlSig (w : Work) (c : CtxId) (x : InFlight) : Effect :=
  withSluice w c x
    (if (w.ctx c).allBefore x then
      .done (w.issueSluice (w.ctx c).part (w.ctx c).job x.sluiceNo (.signal x.gen (x.f.imm.setWidth 32)) c.slice (coreKey c))
    else .wait w)

/-- Dispatch resumes after a wait: the context runs on, unless its partition is paused or it has stopped (R93, R103). -/
def Work.resumeDispatch (w : Work) (c : CtxId) : Work :=
  w.updCtx c fun k => { k with hold := .none, st := if k.st = .waiting then .running else k.st }

/-- `sl.wait` (R93): complete when the sluice shows the generation filled or a later one; a paused context's wait stays
pending (R103). -/
def effSlWait (w : Work) (c : CtxId) (x : InFlight) : Effect :=
  withSluice w c x
    (if (w.sluice x.sluiceNo).satisfied x.gen && decide ((w.ctx c).st ≠ .paused) then .done (w.resumeDispatch c)
    else .wait w)

/-- The local flag that `lf.wait` and `lf.clr` name (R134). -/
def InFlight.lf (x : InFlight) : Nat := modBits x.f 0 4

/-- `lf.wait` (R87). -/
def effLfWait (w : Work) (c : CtxId) (x : InFlight) : Effect :=
  if reached16 ((w.ctx c).flag x.lf) x.f.imm && decide ((w.ctx c).st ≠ .paused) then .done (w.resumeDispatch c)
  else .wait w

/-- `lf.clr` (R87): it waits for every earlier instruction that names the flag. -/
def effLfClr (w : Work) (c : CtxId) (x : InFlight) : Effect :=
  if (w.ctx c).infl.all fun y => decide (x.id ≤ y.id) || decide (y.flag.map Fin.val ≠ some x.lf) then
    .done (w.updCtx c fun k => { k with flags := k.flags.set 0 x.lf 0 })
  else .wait w

/-- `ctx.fence` (R134). -/
def effCtxFence (w : Work) (c : CtxId) (x : InFlight) : Effect :=
  if (w.ctx c).allBefore x then .done w else .wait w

/-- A context's segment starts (R73, R88, R189): the step and the buffer are latched. -/
def Ctx.begin (k : Ctx) (seg : Nat) (j : Option Job) : Ctx :=
  { k with st := .running, hold := .none, segment := seg, busy := false, overrunCounted := false
           latStep := (j.map fun (b : Job) => b.step.toNat).getD k.latStep
           latBuf := (j.map fun (b : Job) => b.buf).getD k.latBuf }

/-- A segment of a context starts; what was read ahead for earlier ones is discarded (R425). -/
def Work.beginSegment (w : Work) (c : CtxId) (seg : Nat) : Work :=
  let j := w.jobOf c
  let w1 : Work := { w with readAhead := w.readAhead.filter fun r => decide (r.ctx ≠ c ∨ seg ≤ r.segment) }
  w1.updCtx c fun k => k.begin seg j

/-- A hold frame is counted in its slice (R191). -/
def Work.countHold (w : Work) (c : CtxId) : Work :=
  if (w.ctx c).busy then w
  else w.updPeat c.slice.val fun p => { p with holdFrames := satAdd p.holdFrames 1 }

/-- The largest lateness since load is kept, and an overrun is counted, as a segment ends (R105). -/
def Work.noteLateness (w : Work) (c : CtxId) : Work := w.updCtx c fun k => k.noteEnd w.time

/-- `frame.end` (R88, R89, R191): complete when every earlier instruction has completed, fabric instructions locally.
With LAST the context ENDS. Otherwise it waits for its tick, or, after its closing tick, its next segment starts. -/
def effFrameEnd (w : Work) (c : CtxId) (x : InFlight) : Effect :=
  let k := w.ctx c
  if k.infl.all fun y => decide (x.id ≤ y.id) || decide (y.stat = .remote) then
    let w1 := (w.noteLateness c).countHold c
    if k.st = .faulted then .done w
    else if modBit x.f 0 then .done ((w1.updCtx c fun k => { k with st := .ended, hold := .none, version := none }).noteEnd c)
    else if k.st = .paused then .wait w
    else if w.frame < k.segment + 1 then .done (w1.updCtx c fun k => { k with st := .waiting, hold := .tick })
    else .done (w1.beginSegment c (k.segment + 1))
  else .wait w

/-- `scl.pin` (R60): the change waits for the next commit; 0x22 without an entry. -/
def effSclPin (w : Work) (c : CtxId) (x : InFlight) : Effect :=
  let q := (w.ctx c).part
  let t := x.va.setWidth 20
  match w.entry q t with
  | none => .flt w (0x22, 0)
  | some e => .done (w.setEntry q t (some { e with pendingPin := some (x.f.imm.getLsbD 0) }))

/-- What `rng.set` does at its dispatch (R134, R201): the generator position and the work version. -/
def Ctx.rngSet (k : Ctx) (a : Word) : Ctx :=
  { k with lane := a.getLsbD 16, mb := a.setWidth 16
           version := if a.setWidth 16 = (0xFFFF : BitVec 16) then none else some k.latBuf }

/-- `rng.set` (R134): complete; its effect came at its dispatch. -/
def effRngSet (w : Work) (_ : CtxId) (_ : InFlight) : Effect := .done w

end Sys2Proof.Machine
end

