-- ==== Sys2Proof/Machine/Fabric.lean ====
section
/-! DEFINITION. The fabric instructions `fab.put`, `fab.get` and `fab.mcast` (R131, R276, R281-R288, R537), publications
(R94, R536) and the remote completion of instructions (R84). -/

namespace Sys2Proof.Machine

/-- Slot k is valid in some active table of a port (R280, R281). -/
def Port.slotValid (p : Port) (k : Nat) : Bool := (List.range 4).any fun t => (p.active.get .zero (64 * t + k)).valid

/-- The first port of a route (R276, R281): the first ACTIVE port of C, as R305 has a scheduled packet leave, or PORT0 when none is ACTIVE
(DESIGN CHOICE, log entry 121). -/
def Work.firstPort (w : Work) (q : Fin 8) (dest : BitVec 16) : Nat :=
  match w.routePorts q dest with
  | p :: _ => p
  | [] => (w.route q dest).p0.toNat

/-- The class that MOD[1] selects: best-effort, or scheduled with the slot of IMM[5:0] (R131). -/
def InFlight.bestEffort (x : InFlight) : Bool := modBit x.f 1
/-- The slot of a scheduled fabric instruction (R131). -/
def InFlight.slot (x : InFlight) : BitVec 6 := x.f.imm.setWidth 6

/-- The device address of a remote operand (R131). -/
def remoteDev (v : Word) : BitVec 16 := v.extractLsb' 48 16

/-- Whether a device belongs to the job of a context (R283). -/
def Work.isMember (w : Work) (c : CtxId) (d : BitVec 16) : Bool :=
  match (w.jobOf c).bind Job.fabric with
  | some f => f.members.contains d
  | none => false

/-- The faults of a unicast fabric instruction before it sends (R79, R101, R276, R281): the remote address misaligned
(0x0A), the device no member (0x0B), no route (0x41), the slot (0x42). A packet to this device itself needs no route. DETAIL of 0x0B holds
the 16-bit device address (DESIGN CHOICE, log entry 116). -/
def Work.fabFault (w : Work) (c : CtxId) (x : InFlight) (far : Word) : Option OpFault :=
  let q := (w.ctx c).part
  let d := remoteDev far
  if hbmAddr far % 64 ≠ 0 then some (0x0A, hbmAddr far)
  else if !w.isMember c d then some (0x0B, d.toNat)
  else if d = w.time.address then none
  else if !(w.route q d).valid then some (0x41, 0)
  else if !x.bestEffort && !(w.port (w.firstPort q d)).slotValid x.slot.toNat then some (0x42, 0)
  else none

/-- Bytes in packets of at most 4,096 (R282), with their offsets. -/
def packetParts : Nat → Nat → List Byte → List (Nat × List Byte)
  | 0, _, _ => []
  | fuel + 1, o, bs => if bs.isEmpty then [] else (o, bs.take 4096) :: packetParts fuel (o + 4096) (bs.drop 4096)

/-- The packets of a range. -/
def rangePackets (bs : List Byte) : List (Nat × List Byte) := packetParts (bs.length / 4096 + 1) 0 bs

/-- Whether a fabric instruction may start (R284): its packets fit the retention region of its slice; an empty region
takes any (DESIGN CHOICE, log entry 23). -/
def Work.mayRetain (w : Work) (c : CtxId) (n : Nat) : Bool :=
  decide (w.retainedBytes c.slice = 0) ||
    w.retainRoom (w.ctx c).part (w.ctx c).job c.slice (n + 32 * ((n + 4095) / 4096))

/-- Write packets sent for a range (R131, R282, R284), owned by the instruction. -/
def Work.sendWrites (w : Work) (c : CtxId) (x : InFlight) (dest : BitVec 16) (mcast : Bool) (a : Nat) (bs : List Byte) : Work :=
  let q := (w.ctx c).part
  (rangePackets bs).foldl (fun w p =>
    w.sendPkt q { mkPkt dest (w.ctx c).job 0x01 (BitVec.ofNat 64 (a + p.1)) p.2 with
      bestEffort := x.bestEffort, slot := if x.bestEffort then 0 else x.slot, mcast := mcast }
      (.instr c x.id) c.slice none) w

/-- `fab.put` (R84, R131, R284): the source is read and its packets are retained and sent; local completion. -/
def effFabPut (w : Work) (c : CtxId) (x : InFlight) : Effect :=
  let n := lenB x.vb
  withOp w ((w.ctx c).range x.va n) fun sp =>
    match w.fabFault c x x.vd with
    | some e => .flt w e
    | none =>
      if w.mayRetain c n then
        .stand (w.sendWrites c x (remoteDev x.vd) false (hbmAddr x.vd) (w.spanRead c sp n)) .remote
      else .wait w

/-- `fab.get` (R131, R537): a read request with a tag of its own. -/
def effFabGet (w : Work) (c : CtxId) (x : InFlight) : Effect :=
  let n := lenB x.vb
  withOp w ((w.ctx c).range x.vd n) fun _ =>
    match w.fabFault c x x.va with
    | some e => .flt w e
    | none =>
      if w.mayRetain c 8 then
        let tag := w.fab.nextTag
        let d := remoteDev x.va
        let w1 : Work := { w with fab := { w.fab with nextTag := tag + 1, reads := w.fab.reads ++ [⟨tag, d, c, x.id, n, []⟩] } }
        .stand (w1.sendPkt (w.ctx c).part
          { mkPkt d (w.ctx c).job 0x02 (BitVec.ofNat 64 (hbmAddr x.va)) (leBytes 4 tag.toNat ++ leBytes 4 n) with
            bestEffort := x.bestEffort, slot := if x.bestEffort then 0 else x.slot }
          (.instr c x.id) c.slice none) .remote
      else .wait w

/-- The multicast faults (R79, R281, R288): the address, bits [15:12] of the group, the entry, its partition and its
SOURCE (0x43), and the slot on the first port listed (0x42). -/
def Work.mcastFault (w : Work) (c : CtxId) (x : InFlight) : Option OpFault :=
  let g := (remoteDev x.vd).toNat
  let e := w.fab.mcast.get .zero (g % 4096)
  if hbmAddr x.vd % 64 ≠ 0 then some (0x0A, hbmAddr x.vd)
  else if 4096 ≤ g ∨ e.valid = false ∨ e.part.toNat ≠ (w.ctx c).part.val ∨ e.source ≠ w.time.address then some (0x43, 0)
  else
    match (List.range 32).find? fun p => e.ports.getLsbD p with
    | some p => if !x.bestEffort && !(w.port p).slotValid x.slot.toNat then some (0x42, 0) else none
    | none => none

/-- `fab.mcast` (R131, R288): as `fab.put` to the ports of a group. The source device writes no copy of its own
(DESIGN CHOICE, log entry 24). -/
def effFabMcast (w : Work) (c : CtxId) (x : InFlight) : Effect :=
  let n := lenB x.vb
  withOp w ((w.ctx c).range x.va n) fun sp =>
    match w.mcastFault c x with
    | some e => .flt w e
    | none =>
      if w.mayRetain c n then
        let w1 := w.sendWrites c x (remoteDev x.vd) true (hbmAddr x.vd) (w.spanRead c sp n)
        .stand w1 .remote
      else .wait w

/-- Whether packets or reads of an instruction are still out (R84). -/
def Work.owesRemote (w : Work) (c : CtxId) (id : Nat) : Bool :=
  (w.fab.send.any fun e => e.2.retained.any fun r => decide (r.owner = .instr c id)) ||
    w.fab.reads.any fun r => decide (r.c = c ∧ r.id = id)

/-- The instruction of a context with a number. -/
def Work.instr (w : Work) (c : CtxId) (id : Nat) : Option InFlight := (w.ctx c).infl.find? fun y => decide (y.id = id)

/-- Everything an instruction has out is withdrawn. -/
def Work.forgetRemote (w : Work) (c : CtxId) (id : Nat) : Work :=
  { w with fab := { w.fab with
      reads := w.fab.reads.filter fun r => !decide (r.c = c ∧ r.id = id) } }

/-- Remote completion (R84, R286, R287): an accepted packet completes the instruction when nothing of it is out; a
status faults it in its context. A `step.commit` completes when either home accepts it, and so ends with a status only when the other
home's copy is not out either (R414). -/
def Work.remoteDone (w : Work) (c : CtxId) (id : Nat) (status : Byte) : Work :=
  match w.instr c id with
  | none => w
  | some x =>
    if decide (status ≠ 0) && x.op = .stepCommit && w.owesRemote c id then w
    else if status ≠ 0 then (w.forgetRemote c id).fault c (some x) x.pc status 0
    else if x.op = .stepCommit || !w.owesRemote c id then w.retire c x x.flag else w

/-- A multicast source without any branch has nothing to wait for. -/
def Work.settleEmpty (w : Work) (c : CtxId) (x : InFlight) : Work :=
  if x.stat = .remote then w.remoteDone c x.id 0 else w

/-- The members of the job that a sluice belongs to, other than this device (R94, R283), with its partition and job. -/
def Work.sluiceMembers (w : Work) (s : Sluice) : Option (Fin 8 × BitVec 16 × List (BitVec 16)) :=
  s.owners.findSome? fun o =>
    match w.progs.get none o with
    | none => none
    | some p =>
      match (w.job p.q p.job).bind Job.fabric with
      | some f => some (p.q, p.job, f.members.filter fun m => decide (m ≠ w.time.address))
      | none => none

/-- The outcome that a publication of sluice i carries (R536): that of the job whose commit sluice it is. -/
def Work.outcomeOf (w : Work) (q : Fin 8) (job : BitVec 16) (i : Nat) : List Byte :=
  let d := match w.job q job with
    | some j => if j.commitSluice = some i then (w.commit q job).learned else none
    | none => none
  match d with
  | some d => [if d.committed then 1 else 2, d.cause] ++ List.replicate 4 0 ++ leBytes 8 d.step.toNat
  | none => List.replicate 14 0

/-- The 24 payload bytes of a publication (R536). -/
def Work.publication (w : Work) (q : Fin 8) (job : BitVec 16) (i : Nat) : List Byte :=
  let s := w.sluice i
  leBytes 4 s.count.toNat ++ leBytes 4 s.target.toNat ++ leBytes 2 s.gen.toNat ++ w.outcomeOf q job i

/-- This device publishes a sluice: it is its home, or HOME2 after a takeover (R94, R418). -/
def Work.publishes (w : Work) (i : Nat) (s : Sluice) (q : Fin 8) (job : BitVec 16) : Bool :=
  s.fabric && (decide (s.home = w.time.address) ||
    match w.job q job with
    | some j => decide (j.commitSluice = some i) && (w.commit q job).takenOver
    | none => false)

/-- Action 3 of a tick (R24, R94): the state of every fabric-wide sluice that changed in the frame is published. -/
def Work.publishSluices (w : Work) : Work :=
  w.sluices.foldl (fun w e =>
    let s := w.sluice e.1
    if s.changed then
      let w1 := w.updSluice e.1 fun s => { s with changed := false }
      match w.sluiceMembers s with
      | some (q, job, ms) =>
        if w.publishes e.1 s q job then
          ms.foldl (fun w m => w.sendPkt q (mkPkt m job 0x07 (BitVec.ofNat 64 e.1) (w.publication q job e.1)) .device 0 none) w1
        else w1
      | none => w1
    else w) w

end Sys2Proof.Machine
end

