-- ==== Sys2Proof/Machine/Reduce.lean ====
section
/-! DEFINITION. In-network reduction at this device's node: alignment, exact sums, residues, inclusion, narrowing, delivery,
and `red.open`, `red.contrib` and `red.close` (R306-R334). -/

namespace Sys2Proof.Machine

/-- The source of reduction events: the adders of fabric die 0 (DESIGN CHOICE, log entry 15). -/
def redUnit : BitVec 16 := unitId 2 0 0x40

/-- The largest aligned magnitude (R316). -/
def alignLimit : Int := 2 ^ 47 - 1

/-- An element aligned to units of 2^(E_b - 16), and whether it clamped (R316). -/
def alignElem (m : Option Int) (e eb : Int) : Option Int × Bool :=
  match m with
  | none => (none, false)
  | some m =>
    let k := e - eb + 16
    let a := if 0 ≤ k then m * 2 ^ k.toNat else m / 2 ^ (-k).toNat
    let r := clampMag alignLimit a
    (some r.1, r.2)

/-- The residue of elements; NaR counts as 0 (R323). -/
def residue (l : List (Option Int)) : Nat :=
  l.foldl (fun n x => match x with | some v => (n + (v % 65535).toNat) % 65535 | none => n) 0

/-- Element j of block b of a tile, along its axis (R51, R314). -/
def blockEl (colAxis : Bool) (b j : Nat) : Nat :=
  if colAxis then 64 * (32 * (b / 64) + j) + b % 64 else 64 * (b / 2) + 32 * (b % 2) + j

/-- A map with the bits of a list set. -/
def map16 (l : List Nat) : BitVec 16 := l.foldl (fun m i => m ||| BitVec.ofNat 16 (2 ^ i)) 0

/-- The descriptor of a bucket and its bucket number (R135). -/
def RedDesc.ofBytes (b : List Byte) : BitVec 16 × RedDesc :=
  (BitVec.ofNat 16 (leAt b 0 2),
   { classS := decide (leAt b 2 1 ≠ 0), rules := BitVec.ofNat 3 (leAt b 3 1)
     deadline := if leAt b 4 2 = 0 then 65536 else leAt b 4 2, contributors := leAt b 6 2
     owner := BitVec.ofNat 16 (leAt b 8 2), sluice := BitVec.ofNat 14 (leAt b 10 2)
     tensor := BitVec.ofNat 20 (leAt b 12 4), result := BitVec.ofNat 64 (leAt b 16 8)
     resultExp := BitVec.ofNat 64 (leAt b 24 8), blocks := leAt b 32 4 })

/-- The DOWN ports of a node (R330). -/
def RedNode.downs (n : RedNode) : List Nat := (List.range 32).filter fun p => n.down.getLsbD p

/-- A member with no children (R309). -/
def RedCtx.leaf (b : RedCtx) : Bool := !b.node.root && b.node.downs.isEmpty
/-- The number of the member's own input. -/
def ownInput : Nat := 32
/-- The expected inputs of a node (R309). -/
def RedCtx.expected (b : RedCtx) : List Nat := ownInput :: b.node.downs
/-- Chunks of a bucket (R314). -/
def RedCtx.chunks (b : RedCtx) : Nat := (b.desc.blocks + 15) / 16
/-- The generation of a bucket (R311). -/
def RedCtx.gen (b : RedCtx) : BitVec 16 := b.step.setWidth 16
/-- The frame whose opening tick closes a node (R319). -/
def RedCtx.closeFrame (b : RedCtx) : Nat :=
  max (b.base + b.desc.deadline - if b.node.root then 0 else b.node.lead.toNat) (b.base + 1)
/-- The forerunner rule (R135, R321). -/
def RedDesc.forerunner (d : RedDesc) : Bool := d.rules.getLsbD 0
/-- Bucket poisoning on NaR (R325). -/
def RedDesc.poisons (d : RedDesc) : Bool := d.rules.getLsbD 1
/-- Reduce-to-owner (R326). -/
def RedDesc.toOwner (d : RedDesc) : Bool := d.rules.getLsbD 2

/-- The header of a reduction packet (R315). -/
structure RedHdr where
  gen : BitVec 16
  included : Bool
  failed : Bool
  poisoned : Bool
  half : Bool
  code : Byte
  chunk : Nat
  count : Nat
  residue : Nat
  nar : BitVec 16
  sat : BitVec 16
deriving DecidableEq, Repr

/-- A header with the bucket's generation and nothing else. -/
def RedCtx.hdr (b : RedCtx) : RedHdr := ⟨b.gen, false, false, false, false, 0, 0, 0, 0, 0, 0⟩

/-- The 24 bytes of a header (R315). -/
def RedHdr.bytes (h : RedHdr) : List Byte :=
  leBytes 2 h.gen.toNat ++
    [BitVec.ofNat 8 (h.included.toNat + 2 * h.failed.toNat + 4 * h.poisoned.toNat + 8 * h.half.toNat), h.code] ++
    leBytes 4 h.chunk ++ leBytes 4 h.count ++ leBytes 2 h.residue ++ leBytes 2 h.nar.toNat ++ leBytes 2 h.sat.toNat ++
    List.replicate 6 0

/-- The header of a payload (R315). -/
def RedHdr.ofBytes (b : List Byte) : RedHdr :=
  let f := leAt b 2 1
  { gen := BitVec.ofNat 16 (leAt b 0 2), included := f % 2 == 1, failed := f / 2 % 2 == 1, poisoned := f / 4 % 2 == 1
    half := f / 8 % 2 == 1, code := BitVec.ofNat 8 (leAt b 3 1), chunk := leAt b 4 4, count := leAt b 8 4 % 2 ^ 17
    residue := leAt b 12 2, nar := BitVec.ofNat 16 (leAt b 14 2), sat := BitVec.ofNat 16 (leAt b 16 2) }

/-- A padding block (R52). -/
def padBlock : Byte × List (Option Int) := (0, List.replicate 32 (some 0))

/-- Eight blocks from position k of a list, padded (R314). -/
def eightBlocks (l : List (Byte × List (Option Int))) (k : Nat) : List (Byte × List (Option Int)) :=
  let a := (l.drop k).take 8
  a ++ List.replicate (8 - a.length) padBlock

/-- Half a chunk of a contribution aligned (R316): half i holds blocks 8i to 8i + 7 of the bucket. -/
def RedCtx.alignHalf (b : RedCtx) (i : Nat) (bl : List (Byte × List (Option Int))) : RedPiece :=
  let rows : List (List (Option Int) × Bool) := bl.zipIdx.map fun p =>
    let blk := 8 * i + p.2
    if b.desc.blocks ≤ blk then (List.replicate 32 (some 0), false)
    else
      let r := p.1.2.map fun m => alignElem m (expInt p.1.1) (expInt (b.eb.getD blk 0))
      (r.map (·.1), r.any (·.2))
  let els := rows.flatMap (·.1)
  let at_ := fun (t : List (Option Int) × Bool → Bool) =>
    map16 ((rows.zipIdx.filter fun r => t r.1).map fun r => 8 * (i % 2) + r.2)
  { elems := els, residue := residue els, nar := at_ fun r => r.1.any Option.isNone, sat := at_ fun r => r.2 }

/-- The member's own input (R309): its contribution aligned, COUNT 1. -/
def RedCtx.ownPieces (b : RedCtx) (o : RedOwn) : RedInput :=
  { count := 1, failed := 0
    pieces := (List.range (2 * b.chunks)).map fun i => (i, some (b.alignHalf i (eightBlocks o.blocks (8 * i)))) }

/-- A half chunk of zeros. -/
def RedPiece.zero : RedPiece := ⟨List.replicate 256 (some 0), 0, 0, 0⟩

/-- Two half chunks added (R317, R324): exact; a NaR wins its element, and the number it masks leaves the carried residue
(DEDUCED, log entry 26). -/
def RedPiece.add (a b : RedPiece) : RedPiece :=
  let masked := (a.elems.zip b.elems).foldl (fun (n : Int) p =>
    match p with
    | (some u, none) => n + u % 65535
    | (none, some v) => n + v % 65535
    | _ => n) 0
  { elems := (a.elems.zip b.elems).map fun p =>
      match p with
      | (some u, some v) => some (u + v)
      | _ => none
    residue := (((a.residue + b.residue : Nat) - masked) % 65535).toNat
    nar := a.nar ||| b.nar, sat := a.sat ||| b.sat }

/-- The sum of half chunk i over a set of inputs, when each has delivered it (R319). -/
def RedCtx.sumHalf (b : RedCtx) (inc : List Nat) (i : Nat) : Option RedPiece :=
  inc.foldl (fun acc k =>
    match acc, (b.inputs.get none k).bind fun x => x.pieces.get none i with
    | some s, some p => some (s.add p)
    | _, _ => none) (some .zero)

/-- The inclusion set fixed as the inputs that have started (R319); under the forerunner rule a missing input fails the
bucket (R321). -/
def RedCtx.fix (b : RedCtx) : RedCtx :=
  let inc := b.expected.filter fun k => (b.inputs.get none k).isSome
  { b with inclusion := some inc, phase := .forwarding
           failCode := if b.failCode = 0 ∧ b.desc.forerunner = true ∧ inc.length < b.expected.length then 0x47
                       else b.failCode }

/-- The contributions in the inclusion set (R319). -/
def RedCtx.total (b : RedCtx) (inc : List Nat) : Nat :=
  inc.foldl (fun n k => n + ((b.inputs.get none k).map RedInput.count).getD 0) 0

/-- A failed included input fails the sum (R322, R326). -/
def RedCtx.inputFailure (b : RedCtx) (inc : List Nat) : Byte :=
  if b.failCode ≠ 0 then b.failCode
  else (inc.findSome? fun k => (b.inputs.get none k).bind fun x => if x.failed ≠ 0 then some x.failed else none).getD 0

/-- The slice that retains what a node sends for a bucket: the first of the partition (DESIGN CHOICE, log entry 27). -/
def Work.redSlice (w : Work) (q : Fin 8) : Fin 8 := partFin ((w.slicesOf q).headD 0)

/-- A reduction packet by a port to its peer (R314). -/
def Work.redSend (w : Work) (b : RedCtx) (job bucket : BitVec 16) (sl : Fin 8) (port : Nat) (kind : Byte) (h : RedHdr)
    (body : List Byte) : Work :=
  w.sendPkt b.q (mkPkt (w.port port).peer job kind (bucket.setWidth 64) (h.bytes ++ body)) (.bucket job bucket) sl
    (some (portFin port))

/-- The bytes of 64-bit sums, NaR64 as -2^63 (R316). -/
def sumBytes (l : List (Option Int)) : List Byte :=
  l.flatMap fun x => leBytes 8 (codeOf 64 x)

/-- A chunk of the node's sum sent up, as two partials (R314, R319, R324). -/
def Work.redSendPartial (w : Work) (b : RedCtx) (job bucket : BitVec 16) (inc : List Nat) (c : Nat) (p0 p1 : RedPiece) : Work :=
  let h := { b.hdr with failed := decide (b.failCode ≠ 0), code := b.failCode, chunk := c, count := b.total inc
                        nar := p0.nar ||| p1.nar, sat := p0.sat ||| p1.sat }
  let s := w.redSlice b.q
  (w.redSend b job bucket s b.node.up.toNat 0x11 { h with residue := p0.residue } (sumBytes p0.elems)).redSend b job bucket s
    b.node.up.toNat 0x11 { h with residue := p1.residue, half := true } (sumBytes p1.elems)

/-- The body of a contribution or result chunk: exponents, then codes of width w. -/
def codesBody (exps : List Byte) (w : Nat) (codes : List Nat) : List Byte :=
  exps ++ codes.flatMap fun v => leBytes (w / 8) v

/-- A leaf's contribution sent up (R309, R314). -/
def Work.redSendContrib (w : Work) (b : RedCtx) (job bucket : BitVec 16) (sl : Fin 8) (o : RedOwn) : Work :=
  (List.range b.chunks).foldl (fun w c =>
    let bl := eightBlocks o.blocks (16 * c) ++ eightBlocks o.blocks (16 * c + 8)
    let els := bl.flatMap (·.2)
    let nar := map16 ((bl.zipIdx.filter fun p => p.1.2.any Option.isNone).map (·.2))
    w.redSend b job bucket sl b.node.up.toNat 0x10 { b.hdr with chunk := c, count := 1, residue := residue els, nar := nar }
      (codesBody (bl.map (·.1)) 16 (els.map (codeOf 16)))) w

/-- A result chunk to a device (R314), by a port or by its route. -/
def Work.redSendResult (w : Work) (b : RedCtx) (job bucket : BitVec 16) (dest : BitVec 16) (via : Option (Fin 32)) (incl : Bool)
    (c : Nat) (r : RedResult) : Work :=
  let wd := fmtBits b.fmt
  let h := { b.hdr with included := incl, chunk := c, count := b.n, nar := r.nar, sat := r.sat
                        residue := residue (r.codes.map (elemOf wd)) }
  w.sendPkt b.q (mkPkt dest job 0x12 (bucket.setWidth 64)
    (h.bytes ++ codesBody r.exps wd r.codes ++ leBytes 64 r.clamp.toNat)) (.bucket job bucket) (w.redSlice b.q) via

/-- Whether a DOWN port is in the inclusion set (R326). -/
def RedCtx.includes (b : RedCtx) (k : Nat) : Bool := match b.inclusion with | some l => l.contains k | none => false

/-- Result chunks sent to every child (R326). -/
def Work.redDownResults (w : Work) (b : RedCtx) (job bucket : BitVec 16) (path : Bool) (rs : List (Nat × RedResult)) : Work :=
  b.node.downs.foldl (fun w p =>
    rs.foldl (fun w r => w.redSendResult b job bucket (w.port p).peer (some (portFin p)) (path && b.includes p) r.1 r.2) w) w

/-- A notice sent to every child (R326). -/
def Work.redDownNotice (w : Work) (b : RedCtx) (job bucket : BitVec 16) (n : RedNotice) : Work :=
  b.node.downs.foldl (fun w p =>
    w.redSend b job bucket (w.redSlice b.q) p 0x13
      { b.hdr with included := n.included && b.includes p, failed := n.failed, poisoned := n.poisoned, code := n.code
                   count := b.n } []) w

/-- A retry packet sent to every child (R324). -/
def Work.redDownRetry (w : Work) (b : RedCtx) (job bucket : BitVec 16) : Work :=
  b.node.downs.foldl (fun w p => w.redSend b job bucket (w.redSlice b.q) p 0x14 b.hdr []) w

/-- The results held, in chunk order. -/
def RedCtx.resultList (b : RedCtx) : List (Nat × RedResult) := b.results.filterMap fun e => e.2.map fun r => (e.1, r)

/-- The number of blocks marked in the maps of the results. -/
def RedCtx.marked (b : RedCtx) (f : RedResult → BitVec 16) : List Nat :=
  b.resultList.flatMap fun r =>
    ((List.range 16).filter fun k => (f r.2).getLsbD k && decide (16 * r.1 + k < b.desc.blocks)).map fun k => 16 * r.1 + k

/-- A code of the result: block blk, element j. -/
def RedCtx.resultCode (b : RedCtx) (blk j : Nat) : Nat :=
  match b.results.get none (blk / 16) with
  | some r => r.codes.getD (32 * (blk % 16) + j) 0
  | none => 0

/-- The geometry a result is written with (R327): that of the own contribution; without one, a single matrix of one row of tiles, whose
extent is the least of R312 (DEDUCED, log entry 28). -/
def RedCtx.geometry (b : RedCtx) : RedOwn :=
  b.own.getD { rows := 64, cols := 64 * max 1 ((b.desc.blocks + 127) / 128), matrices := 1, colAxis := false, blocks := [] }

/-- Tiles per matrix of a geometry (R114). -/
def RedOwn.tm (o : RedOwn) : Nat := ((o.rows + 63) / 64) * ((o.cols + 63) / 64)

/-- The descriptor under which a result is written (R327). -/
def RedCtx.resultDesc (b : RedCtx) : TensorDesc :=
  let g := b.geometry
  { mant := b.desc.result.toNat, exp := b.desc.resultExp.toNat, rows := g.rows, cols := g.cols, matrices := g.matrices
    tensor := b.desc.tensor, fmt := b.fmt, colAxis := g.colAxis }

/-- Whether an element of tile t is padding by a logical shape (R52). -/
def isPad (rows cols t e : Nat) : Bool :=
  let nc := (cols + 63) / 64
  let tm := ((rows + 63) / 64) * nc
  let k := t % tm
  decide (rows ≤ 64 * (k / nc) + e / 64) || decide (cols ≤ 64 * (k % nc) + e % 64)

/-- The mantissa codes of result tile t (R327). -/
def RedCtx.tileCodes (b : RedCtx) (t : Nat) : List Nat :=
  let g := b.geometry
  (List.range 4096).map fun e =>
    let bb := elBlock g.colAxis e
    let blk := 128 * t + bb
    if b.desc.blocks ≤ blk ∨ isPad g.rows g.cols t e = true then 0
    else b.resultCode blk (if g.colAxis then e / 64 % 32 else e % 32)

/-- The exponents of result tile t: 0x00 beyond BLOCKS and for a block wholly of padding (R52, R327). -/
def RedCtx.tileExpBytes (b : RedCtx) (t : Nat) : List Byte :=
  let g := b.geometry
  (List.range 128).map fun k =>
    if b.desc.blocks ≤ 128 * t + k ∨ ((List.range 32).all fun j => isPad g.rows g.cols t (blockEl g.colAxis k j)) = true then 0
    else b.eb.getD (128 * t + k) 0

/-- A delivery on its way (R328): the state, the first failure as 0x09, 0x31 or 0x68, the 512 B blocks of partition addresses that were
not written, and what the next blocks show. -/
structure RedPut where
  w : Work
  code : Byte
  missed : List Nat
  ev : MemEvent

/-- One block of a delivery written (R205, R328): a block of the current buffer of a weight pair is not written
(DESIGN CHOICE, log entry 29); delivery goes on after a failure. -/
def RedPut.block (q : Fin 8) (s : RedPut) (a : Nat) (bs : List Byte) : RedPut :=
  let (c, w1) := if s.w.writeRole q a bs.length = .current then ((0x68 : Byte), s.w) else s.w.hbmWrite q a bs (evHere s.ev)
  { w := w1, ev := evLater s.ev
    code := if s.code ≠ 0 ∨ c = 0 then s.code else if c = 0x09 ∨ c = 0x68 then c else 0x31
    missed := if c = 0 then s.missed else a / 512 :: s.missed }

/-- One part of a delivery written, block after block. -/
def RedPut.part (q : Fin 8) (s : RedPut) (a : Nat) (bs : List Byte) : RedPut :=
  ((rangeBlocks a bs.length).foldl (fun (r : RedPut × List Byte) b => (r.1.block q b.1 (r.2.take b.2), r.2.drop b.2)) (s, bs)).1

/-- The tiles of a result. -/
def RedCtx.resultTiles (b : RedCtx) : List Nat :=
  List.range (min ((b.desc.blocks + 127) / 128) (b.resultDesc.matrices * b.resultDesc.tm))

/-- The counts of a written result (R52, R228): of the elements that were stored, those of its tiles that are no padding and whose block is
not among the `missed`; `ev` is what the write of an evicted record finds. -/
def Work.redAccount (w : Work) (b : RedCtx) (job : BitVec 16) (missed : List Nat) (ev : MemEvent) : Work :=
  match w.translate b.q b.desc.result.toNat, w.entry b.q b.desc.tensor with
  | some (pa, _), some e =>
    let wd := fmtBits b.fmt
    let g := b.geometry
    let els := (List.range (min b.desc.blocks (128 * b.resultTiles.length))).flatMap fun blk =>
      (List.range 32).filterMap fun j =>
        let el := blockEl g.colAxis (blk % 128) j
        if isPad e.rows e.cols (blk / 128) el || isPad g.rows g.cols (blk / 128) el || missed.contains ((b.resultDesc.mantAt (blk / 128) + el * wd / 8) / 512) then none
        else some (elemOf wd (b.resultCode blk j),
          match b.results.get none (blk / 16) with
          | some r => r.clamp.getLsbD (32 * (blk % 16) + j)
          | none => false)
    w.statAdd (pa / 2 ^ 36) b.q job b.desc.tensor b.step els.length
      (els.countP fun x => decide (x.1 = some 0)) (els.countP fun x => x.2) (els.countP fun x => x.1.isNone) 0 ev
  | _, _ => w

/-- SAT of the flagged blocks on every member (R318), and, where the result is written, WRITTEN and HIGH (R57); nothing for
a bucket of the previous step (R61). -/
def Work.redFlags (w : Work) (b : RedCtx) (job : BitVec 16) (written : Bool) : Work :=
  match w.job b.q job, w.entry b.q b.desc.tensor with
  | some j, some e =>
    if j.step ≠ b.step then w
    else
      let wd := fmtBits b.fmt
      let sat := b.marked RedResult.sat
      let blocks := if written then
          (List.range b.desc.blocks).foldl (fun (t : Tbl BlockSt) blk => t.upd .zero blk fun s =>
            if 128 * b.resultTiles.length ≤ blk then { s with sat := s.sat || sat.contains blk }
            else s.note ((List.range 32).any fun i => isHigh wd (elemOf wd (b.resultCode blk i))) (sat.contains blk)) e.blocks
        else sat.foldl (fun (t : Tbl BlockSt) blk => t.upd .zero blk fun s => { s with sat := true }) e.blocks
      w.setEntry b.q b.desc.tensor (some { e with blocks := blocks })
  | _, _ => w

/-- The 64 bytes of the result record (R327). -/
def RedCtx.recordBytes (b : RedCtx) (incl failed poisoned wf : Bool) (code : Byte) (nars sats : Nat) : List Byte :=
  let exp := b.desc.contributors + 1
  let flags := incl.toNat + 2 * failed.toNat + 4 * poisoned.toNat + 8 * (decide (nars ≠ 0)).toNat +
    16 * (decide (sats ≠ 0)).toNat + 32 * min b.attempts 2 + 128 * wf.toNat + 256 * code.toNat
  leBytes 8 b.step.toNat ++ leBytes 4 exp ++ leBytes 4 b.n ++ leBytes 4 flags ++ leBytes 4 nars ++ leBytes 4 sats ++
    leBytes 4 (if b.desc.forerunner then 0 else exp - b.n) ++ List.replicate 32 0

/-- The NaR map of the result (R327). -/
def RedCtx.narMap (b : RedCtx) (nars : List Nat) : List Byte :=
  (List.range ((b.desc.blocks + 7) / 8)).map fun i =>
    nars.foldl (fun (m : Byte) k => if k / 8 = i then m ||| BitVec.ofNat 8 (2 ^ (k % 8)) else m) 0

/-- The place of a result record (R327). -/
def RedCtx.recordAt (b : RedCtx) : Nat :=
  let d := b.resultDesc
  d.exp + d.matrices * 512 * ((d.tm * 128 + 511) / 512)

/-- The ranges that a delivery writes (R327): the record with its map, and the tiles of a result that is written. -/
def RedCtx.spans (b : RedCtx) (write : Bool) : List (Nat × Nat) :=
  let d := b.resultDesc
  (b.recordAt, 64 + (b.desc.blocks + 7) / 8) ::
    (if write then b.resultTiles.flatMap fun t => [(d.mantAt t, tileBytes b.fmt), (d.expAt t, 128)] else [])

/-- The delivery or its wait is past (R205, R313): nothing delivers the bucket again. -/
def RedCtx.ended (b : RedCtx) : Bool := decide (b.phase = .delivered) || b.held.isSome

/-- Delivery on this member as it is performed (R327, R328): mantissas, exponents, map and record, then the sluice, the completion of
its `red.contrib`, and the release that a close asked for. A failed or poisoned bucket aborts the step (R417). -/
def Work.redWrite (w : Work) (job bucket : BitVec 16) (b : RedCtx) (path failed poisoned : Bool) (code : Byte) (data : Bool)
    (ev : MemEvent) : Work :=
  let bad := failed || poisoned
  let write := data && b.own.isSome && !bad
  let incl := path && b.own.isSome && (b.leaf || b.includes ownInput)
  let nars := b.marked RedResult.nar
  let sats := b.marked RedResult.sat
  let d := b.resultDesc
  let s0 : RedPut := ⟨w, 0, [], ev⟩
  let s1 := if write then
      b.resultTiles.foldl (fun s t => s.part b.q (d.mantAt t) (packCodes (fmtBits b.fmt) (b.tileCodes t))) s0 else s0
  let s2 := if write then b.resultTiles.foldl (fun s t => s.part b.q (d.expAt t) (b.tileExpBytes t)) s1 else s1
  let s3 := s2.part b.q (b.recordAt + 64) (b.narMap nars)
  let s4 := s3.part b.q b.recordAt (b.recordBytes incl failed poisoned (decide (s3.code ≠ 0)) code nars.length sats.length)
  let w1 := if s4.code = 0 then s4.w else s4.w.logEv redUnit (faultEvent s4.code) 3 (partByte b.q) b.recordAt
  let out := if bad then code else s4.code
  let w2 := if bad then w1 else (if write then w1.redAccount b job s1.missed s4.ev else w1).redFlags b job write
  let w3 := w2.setRed job bucket (if b.closeAsked then none
    else some { b with phase := .delivered, outcome := out, waiters := [], inputs := [], sums := [] })
  let w4 := w3.issueSluice b.q job b.desc.sluice.toNat (.signal b.gen 1) (w.redSlice b.q) 8192
  let w5 := b.waiters.foldl (fun w c => w.remoteDone c.1 c.2 out) w4
  if bad then w5.stepAbort b.q job code false else w5

/-- Delivery on this member (R205, R327, R328): it waits while one of its ranges lies in a previous weight buffer whose reference count
is not zero (DEDUCED from R205 and R206, log entry 29). -/
def Work.redDeliver (w : Work) (job bucket : BitVec 16) (b : RedCtx) (path failed poisoned : Bool) (code : Byte) (data : Bool)
    (ev : MemEvent := .ok) : Work :=
  if b.held.isSome then w
  else if (b.spans (data && b.own.isSome && !(failed || poisoned))).any fun r => w.mustHold b.q r.1 r.2 then
    w.setRed job bucket (some { b with held := some ⟨path, failed, poisoned, code, data⟩ })
  else w.redWrite job bucket b path failed poisoned code data ev

/-- A bucket ends without data (R321, R324, R325): notices down, and delivery here; counted at the root. -/
def Work.redEnd (w : Work) (job bucket : BitVec 16) (b : RedCtx) (failed poisoned : Bool) (code : Byte)
    (ev : MemEvent := .ok) : Work :=
  let w1 := if b.node.root then w.updRedEv b.q fun e => { e with failed := satAdd e.failed 1 } else w
  (w1.redDownNotice b job bucket ⟨true, failed, poisoned, code⟩).redDeliver job bucket b true failed poisoned code false ev

/-- The rounding of element i at the root (R318, R226). -/
def Work.redRnd (w : Work) (b : RedCtx) (job : BitVec 16) (i : Nat) : Rnd :=
  if b.rnd then
    .stoch (genWord (((w.job b.q job).map Job.key).getD 0) b.step.toNat 0 false 0 true b.desc.tensor i)
  else .even

/-- The root's narrowing of chunk c (R318). -/
def Work.redNarrow (w : Work) (b : RedCtx) (job : BitVec 16) (c : Nat) (s : RedPiece) : RedResult :=
  let wd := fmtBits b.fmt
  let outs := s.elems.zipIdx.map fun p =>
    let blk := 16 * c + p.2 / 32
    if b.desc.blocks ≤ blk then (some 0, false)
    else
      let eb := expInt (b.eb.getD blk 0)
      narrowElem p.1 (eb - 16) eb wd (w.redRnd b job (512 * c + p.2))
  { exps := (List.range 16).map fun k => if 16 * c + k < b.desc.blocks then b.eb.getD (16 * c + k) 0 else 0
    codes := outs.map fun o => codeOf wd o.1
    clamp := outs.zipIdx.foldl (fun m p => if p.1.2 then m ||| BitVec.twoPow 512 p.2 else m) 0
    nar := s.nar
    sat := s.sat ||| map16 ((outs.zipIdx.filter fun p => p.1.2).map fun p => p.2 / 32) }

/-- Partial sums discarded for a retry, with the inclusion set kept (R324). -/
def RedCtx.restart (b : RedCtx) : RedCtx :=
  { b with sent := [], sums := [], phase := .forwarding
           inputs := b.inputs.map fun e => if e.1 = ownInput then e
             else (e.1, e.2.map fun (i : RedInput) => { i with pieces := [] }) }

/-- Whether packets of a bucket to a device are still retained. -/
def Work.redOwes (w : Work) (job bucket : BitVec 16) (dest : BitVec 16) : Bool :=
  w.fab.send.any fun e => e.2.retained.any fun r => decide (r.owner = .bucket job bucket ∧ r.pkt.dest = dest)

/-- The root ends a bucket whose result stands at OWNER, or that has no other owner: success everywhere (R326). -/
def Work.redSucceed (w : Work) (job bucket : BitVec 16) (b : RedCtx) (ev : MemEvent := .ok) : Work :=
  if b.desc.toOwner then
    (w.redDownNotice b job bucket ⟨true, false, false, 0⟩).redDeliver job bucket b true false false 0
      (decide (b.desc.owner = w.time.address)) ev
  else (w.redDownResults b job bucket true b.resultList).redDeliver job bucket b true false false 0 true ev

/-- The root has every chunk of the final sum (R320, R324, R325, R326): the residue check and its retries, failure,
poisoning, or narrowing and the results. With OWNER elsewhere, the notices follow the acceptance of the results
(DEDUCED from R334, log entry 30). -/
def Work.redFinal (w : Work) (job bucket : BitVec 16) (b : RedCtx) (inc : List Nat) (ev : MemEvent := .ok) : Work :=
  let bad := b.sums.filterMap fun e =>
    e.2.bind fun s => if residue s.elems = s.residue then none else some e.1
  let n := b.total inc
  let b1 := { b with n := n, attempts := if bad.isEmpty then b.attempts else b.attempts + 1 }
  let w1 := bad.foldl (fun (w : Work) c => (w.updRedEv b.q fun e => { e with retries := satAdd e.retries 1 }).logEv redUnit 0x0483 2
    (partByte b.q) (job.toNat + bucket.toNat * 2 ^ 16 + c * 2 ^ 32 + b1.attempts * 2 ^ 64)) w
  if !bad.isEmpty && decide (b1.attempts < 3) then
    (w1.setRed job bucket (some b1.restart)).redDownRetry b1 job bucket
  else
    let code : Byte := if b.failCode ≠ 0 then b.failCode else if !bad.isEmpty then 0x44
      else if b.desc.contributors + 1 < n then 0x47 else 0
    let pois := b.desc.poisons && b.sums.any fun e => match e.2 with | some s => decide (s.nar ≠ 0) | none => false
    if code ≠ 0 ∨ pois = true then
      w1.redEnd job bucket b1 (decide (code ≠ 0)) pois (if code ≠ 0 then code else 0x48) ev
    else
      let b2 := { b1 with phase := .waiting, results := b1.sums.filterMap fun e =>
                    e.2.map fun s => (e.1, some (w.redNarrow b1 job e.1 s)) }
      if b2.desc.toOwner && decide (b2.desc.owner ≠ w.time.address) then
        b2.resultList.foldl (fun w r => w.redSendResult b2 job bucket b2.desc.owner none false r.1 r.2)
          (w1.setRed job bucket (some b2))
      else w1.redSucceed job bucket b2 ev

/-- Two halves as one chunk. -/
def RedPiece.join (a b : RedPiece) : RedPiece :=
  { elems := a.elems ++ b.elems, residue := (a.residue + b.residue) % 65535, nar := a.nar ||| b.nar, sat := a.sat ||| b.sat }

/-- A node acts as far as its inputs allow (R319): it fixes its inclusion set when every expected input has started,
forwards each chunk that every included input has delivered, and ends when all are sent, or, at the root, summed. -/
def Work.redGo (w : Work) (job bucket : BitVec 16) (ev : MemEvent := .ok) : Work :=
  match w.redCtx job bucket with
  | none => w
  | some b0 =>
    if b0.leaf || !(decide (b0.phase = .opened) || decide (b0.phase = .forwarding)) then w
    else
      let b1 := if b0.inclusion.isNone && b0.expected.all (fun k => (b0.inputs.get none k).isSome) then b0.fix else b0
      match b1.inclusion with
      | none => w
      | some inc =>
        let b2 := { b1 with failCode := b1.inputFailure inc }
        let step := fun (s : Work × RedCtx) (c : Nat) =>
          if s.2.sent.contains c then s
          else match s.2.sumHalf inc (2 * c), s.2.sumHalf inc (2 * c + 1) with
            | some p0, some p1 =>
              if s.2.node.root then (s.1, { s.2 with sent := c :: s.2.sent, sums := s.2.sums.set none c (some (p0.join p1)) })
              else (s.1.redSendPartial s.2 job bucket inc c p0 p1, { s.2 with sent := c :: s.2.sent })
            | _, _ => s
        let s := (List.range b2.chunks).foldl step (w, b2)
        if s.2.sent.length < s.2.chunks then s.1.setRed job bucket (some s.2)
        else if s.2.node.root then s.1.redFinal job bucket s.2 inc ev
        else s.1.setRed job bucket (some { s.2 with phase := .waiting })

/-- An input dropped after the close (R320), counted once; under the forerunner rule the bucket has failed, and no input is dropped
(R321). -/
def Work.redDrop (w : Work) (job bucket : BitVec 16) (b : RedCtx) (k count : Nat) (src : BitVec 16) : Work :=
  if b.desc.forerunner then w.setRed job bucket (some b)
  else if b.dropped.contains k then w
  else
    ((w.setRed job bucket (some { b with dropped := k :: b.dropped })).updRedEv b.q fun e =>
      { e with dropped := satAdd e.dropped count }).logEv redUnit 0x0481 2 (partByte b.q)
        (job.toNat + bucket.toNat * 2 ^ 16 + src.toNat * 2 ^ 32 + count * 2 ^ 48)

/-- Event 0x0482 (R309, R314, R492): an unknown KIND, or a packet by a port the node does not use for it, which is also
STALE. -/
def Work.redWrong (w : Work) (q : Fin 8) (p : Nat) (k : Pkt) (port : Bool) : Work :=
  (if port then w.updRedEv q fun e => { e with stale := satAdd e.stale 1 } else w).logEv redUnit 0x0482 2 (partByte q)
    (k.kind.toNat + port.toNat * 2 ^ 8 + p * 2 ^ 16 + k.src.toNat * 2 ^ 24 + k.job.toNat * 2 ^ 40 +
      bitsOf k.addr.toNat 0 16 * 2 ^ 56)

/-- The 16 blocks of a contribution's body (R314). -/
def bodyBlocks (b : List Byte) : List (Byte × List (Option Int)) :=
  (List.range 16).map fun k =>
    (b.getD k 0, (unpackCodes 16 32 ((b.drop (16 + 64 * k)).take 64)).map (elemOf 16))

/-- The input that a contribution or partial adds to (R314, R316, R324): a difference between RESIDUE and the packet's own
residue is carried. -/
def RedCtx.addPacket (b : RedCtx) (i : RedInput) (kind : Byte) (h : RedHdr) (body : List Byte) : RedInput :=
  if b.chunks ≤ h.chunk then i
  else if kind = 0x10 then
    let bl := bodyBlocks body
    let diff := (h.residue + 65535 - residue (bl.flatMap (·.2))) % 65535
    let p0 := b.alignHalf (2 * h.chunk) (bl.take 8)
    let p1 := b.alignHalf (2 * h.chunk + 1) (bl.drop 8)
    { i with pieces := (i.pieces.set none (2 * h.chunk) (some { p0 with residue := (p0.residue + diff) % 65535 })).set none
                          (2 * h.chunk + 1) (some p1) }
  else
    let els := (unpackCodes 64 256 body).map (elemOf 64)
    { i with pieces := i.pieces.set none (2 * h.chunk + h.half.toNat) (some ⟨els, h.residue, h.nar, h.sat⟩) }

/-- A contribution or partial reaches this node (R309, R319, R320). -/
def Work.redInput (w : Work) (b : RedCtx) (p : Nat) (k : Pkt) (h : RedHdr) (ev : MemEvent := .ok) : Work :=
  let bucket : BitVec 16 := k.addr.setWidth 16
  let count := if k.kind = 0x10 then 1 else h.count
  if !b.node.downs.contains p then w.redWrong b.q p k true
  else if b.inclusion.isSome && !b.includes p then w.redDrop k.job bucket b p count k.src
  else
    let i0 : RedInput := (b.inputs.get none p).getD ⟨count, 0, []⟩
    let i1 := if h.failed then { i0 with failed := if h.code = 0 then 0x47 else h.code } else i0
    (w.setRed k.job bucket (some { b with inputs := b.inputs.set none p (some (b.addPacket i1 k.kind h (k.payload.drop 24))) })).redGo
      k.job bucket ev

/-- Delivery once what it needs has arrived (R326). -/
def Work.redMaybe (w : Work) (job bucket : BitVec 16) (ev : MemEvent := .ok) : Work :=
  match w.redCtx job bucket with
  | none => w
  | some b =>
    if b.ended then w
    else
      let full := decide (b.chunks ≤ b.resultList.length)
      let mine := decide (b.desc.owner = w.time.address)
      match b.notice with
      | some n =>
        if n.failed || n.poisoned then w.redDeliver job bucket b n.included n.failed n.poisoned n.code false ev
        else if full || !mine then w.redDeliver job bucket b n.included false false 0 (mine && b.desc.toOwner) ev
        else w
      | none => if full && !b.desc.toOwner then w.redDeliver job bucket b b.path false false 0 true ev else w

/-- Whether an OWNER takes a result from a source (R309, R326): the owner is not the root itself, the source is a member of the job,
and it is the source of the results taken before, which stands for the root (DEDUCED, log entry 71). -/
def Work.fromRoot (w : Work) (b : RedCtx) (k : Pkt) : Bool :=
  !b.node.root && decide (b.desc.owner = w.time.address) && (b.root.all fun a => a == k.src) &&
    match (w.job b.q k.job).bind Job.fabric with | some f => f.members.contains k.src | none => false

/-- A result chunk reaches this member (R324, R326): none where its residue mismatches, so that the flow resends it. -/
def Work.redResult (w : Work) (b : RedCtx) (p : Nat) (k : Pkt) (h : RedHdr) (ev : MemEvent := .ok) : Option Work :=
  let bucket : BitVec 16 := k.addr.setWidth 16
  if !b.desc.toOwner && (b.node.root || decide (p ≠ b.node.up.toNat)) then some (w.redWrong b.q p k true)
  else if b.desc.toOwner && !w.fromRoot b k then some (w.redWrong b.q p k true)
  else
    let wd := fmtBits b.fmt
    let body := k.payload.drop 24
    let codes := unpackCodes wd 512 (body.drop 16)
    if residue (codes.map (elemOf wd)) ≠ h.residue then none
    else if b.chunks ≤ h.chunk ∨ b.ended = true then some w
    else
      let r : RedResult :=
        { exps := body.take 16, codes, clamp := BitVec.ofNat 512 (leNat ((body.drop (16 + 64 * wd)).take 64)), nar := h.nar
          sat := h.sat }
      let b1 := { b with results := b.results.set none h.chunk (some r), n := h.count, path := h.included
                         root := if b.desc.toOwner then some k.src else b.root }
      let w1 := w.setRed k.job bucket (some b1)
      some ((if b.desc.toOwner then w1 else w1.redDownResults b1 k.job bucket h.included [(h.chunk, r)]).redMaybe k.job bucket ev)

/-- A notice reaches this member (R326). -/
def Work.redNotice (w : Work) (b : RedCtx) (p : Nat) (k : Pkt) (h : RedHdr) (ev : MemEvent := .ok) : Work :=
  let bucket : BitVec 16 := k.addr.setWidth 16
  if b.node.root || decide (p ≠ b.node.up.toNat) then w.redWrong b.q p k true
  else if b.ended then w
  else
    let n : RedNotice := ⟨h.included, h.failed, h.poisoned, h.code⟩
    let b1 := { b with notice := some n, n := h.count }
    ((w.setRed k.job bucket (some b1)).redDownNotice b1 k.job bucket n).redMaybe k.job bucket ev

/-- A retry packet reaches this member (R324). -/
def Work.redRetry (w : Work) (b : RedCtx) (p : Nat) (k : Pkt) (ev : MemEvent := .ok) : Work :=
  let bucket : BitVec 16 := k.addr.setWidth 16
  if b.node.root || decide (p ≠ b.node.up.toNat) then w.redWrong b.q p k true
  else if b.ended then w
  else if b.leaf then
    let b1 := { b with attempts := b.attempts + 1 }
    match b.own with
    | some o => (w.setRed k.job bucket (some b1)).redSendContrib b1 k.job bucket (w.redSlice b.q) o
    | none => w.setRed k.job bucket (some b1)
  else
    let b1 := { b.restart with attempts := b.attempts + 1 }
    ((w.setRed k.job bucket (some b1)).redDownRetry b1 k.job bucket).redGo k.job bucket ev

/-- The windows of partial sums in use on a fabric die (R322): of each bucket and each 64 chunks, where a chunk of an input by a port of
the die has come and is not in a sum that has left. -/
def Work.redWindows (w : Work) (d : Nat) : List (Nat × Nat) :=
  (w.red.ctxs.flatMap fun e =>
    match e.2 with
    | none => []
    | some b => (b.inputs.filter fun i => decide (i.1 / 16 = d)).flatMap fun i =>
        match i.2 with
        | none => []
        | some x => (x.pieces.filter fun c => c.2.isSome && !b.sent.contains (c.1 / 2)).map fun c => (e.1, c.1 / 128)).dedup

/-- Whether a chunk of an input by port p finds a window (R322): its window is in use already, or fewer than 128 of the port's die are. -/
def Work.redRoom (w : Work) (job bucket : BitVec 16) (p chunk : Nat) : Bool :=
  let l := w.redWindows (p / 16)
  l.contains (job.toNat * 65536 + bucket.toNat, chunk / 64) || decide (l.length < 128)

/-- Whether a partition's job has rolled back on this device and has not restarted yet, or has stopped for good (R334, R419). -/
def Work.redRolledBack (w : Work) (q : Fin 8) (job : BitVec 16) (gen : BitVec 16) : Bool :=
  (match w.job q job with | some j => decide ((j.step.setWidth 16 : BitVec 16) = gen) | none => false) &&
    ((w.commit q job).stopped || w.ctxs.any fun e => decide (e.2.part = q ∧ e.2.job = job) && e.2.restart)

/-- Whether the residue of a result that waits for its bucket's open is right (R324); the width of its mantissas is that of its length. -/
def earlyResultOk (k : Pkt) : Bool :=
  let wd := (k.payload.length - 104) / 64
  decide (residue ((unpackCodes wd 512 (k.payload.drop 40)).map (elemOf wd)) = (RedHdr.ofBytes k.payload).residue)

/-- A reduction packet that its flow delivers by port p of partition q (R314, R322): a packet for a bucket that is not open
waits, but is stale between a rollback and the restart (R334; DESIGN CHOICE, log entry 71); one of another generation is stale; an input
whose chunk finds no window is held back; none where the packet is to be resent. -/
def Work.redPacket (w : Work) (q : Fin 8) (p : Nat) (k : Pkt) (ev : MemEvent := .ok) : Option Work :=
  if 0x15 ≤ k.kind.toNat then some (w.redWrong q p k false)
  else
    let h := RedHdr.ofBytes k.payload
    match w.redCtx k.job (k.addr.setWidth 16) with
    | none =>
      if w.redRolledBack q k.job h.gen then some (w.updRedEv q fun e => { e with stale := satAdd e.stale 1 })
      else if k.kind = 0x12 ∧ earlyResultOk k = false then none
      else some { w.unhand with red := { w.red with early := w.red.early ++ [⟨portFin p, k, w.fab.hold⟩] } }
    | some b =>
      if h.gen ≠ b.gen then some (w.updRedEv q fun e => { e with stale := satAdd e.stale 1 })
      else if k.kind = 0x12 then w.redResult b p k h ev
      else if k.kind = 0x13 then some (w.redNotice b p k h ev)
      else if k.kind = 0x14 then some (w.redRetry b p k ev)
      else if b.node.downs.contains p && (b.inclusion.isNone || b.includes p) && !w.redRoom k.job (k.addr.setWidth 16) p h.chunk then
        some { w.unhand with red := { w.red with held := w.red.held ++ [⟨portFin p, k, w.fab.hold⟩] } }
      else some (w.redInput b p k h ev)

/-- A reduction packet that waited is taken again (R322), and leaves its receive buffer unless it waits on; the packet in hand stays in
hand. -/
def Work.redTake (w : Work) (q : Fin 8) (e : RedEarly) (ev : MemEvent := .ok) : Work :=
  let w1 := w.inHand e.hold
  (((w1.redPacket q e.port.val e.pkt ev).getD w1).settleHold).inHand w.fab.hold

/-- The packets that were held back for a window are taken as far as windows are free (R322), so many times at most. -/
def Work.redUnholdUpTo : Nat → Work → MemEvent → Work
  | 0, w, _ => w
  | n + 1, w, ev =>
    let w1 := w.red.held.foldl (fun w e => w.redTake (w.port e.port.val).part e ev) { w with red := { w.red with held := [] } }
    if w1.red.held.length < w.red.held.length then Work.redUnholdUpTo n w1 ev else w1

/-- The packets that were held back for a window are taken until none finds one (R322). -/
def Work.redUnhold (w : Work) (ev : MemEvent := .ok) : Work :=
  if w.red.held.isEmpty then w else Work.redUnholdUpTo w.red.held.length w ev

/-- The packets that waited for a bucket's open are added (R322). -/
def Work.redReplay (w : Work) (q : Fin 8) (job bucket : BitVec 16) (ev : MemEvent := .ok) : Work :=
  let mine := fun (e : RedEarly) => decide (e.pkt.job = job ∧ (e.pkt.addr.setWidth 16 : BitVec 16) = bucket)
  let l := w.red.early.filter mine
  let w1 : Work := { w with red := { w.red with early := w.red.early.filter fun e => !mine e } }
  l.foldl (fun w e => w.redTake q e ev) w1

/-- Reduction contexts a partition holds (R331). -/
def Work.redInUse (w : Work) (q : Fin 8) : Nat :=
  w.red.ctxs.countP fun e => match e.2 with | some b => decide (b.q = q) | none => false

/-- Whether a class L node names a port that R308 forbids. -/
def Work.forbiddenPort (w : Work) (n : RedNode) : Bool :=
  (n.downs ++ if n.root then [] else [n.up.toNat]).any fun p =>
    let po := w.port p
    po.longHaul || (decide (4 ≤ po.st ∧ po.st ≤ 5) && decide (po.peer.toNat / 64 ≠ w.time.address.toNat / 64))

/-- The conditions of fault 0x4A (R312). -/
def Work.redMisfit (w : Work) (q : Fin 8) (job : BitVec 16) (d : RedDesc) (n : RedNode) (e : ScaleEntry) : Bool :=
  let wd := fmtBits e.fmt.toNat
  let known := fun (a : BitVec 16) => decide (a = w.time.address) || ((w.route q a).valid &&
    match (w.job q job).bind Job.fabric with | some f => f.members.contains a | none => false)
  !n.valid || (!d.classS && w.forbiddenPort n) || decide (e.fmt.toNat < 2) || decide (e.blockCount < d.blocks) ||
    !w.mapped q d.result.toNat (4 * d.blocks * wd) ||
    !w.mapped q d.resultExp.toNat (d.blocks + 64 + (d.blocks + 7) / 8) || (d.toOwner && !known d.owner)

/-- The 64-byte descriptor at a local offset (R135): 64-byte aligned, in the local window. -/
def Work.localDesc (w : Work) (c : CtxId) (h : Word) : Except OpFault (List Byte) :=
  match (w.ctx c).range (BitVec.ofNat 64 (hMant h)) 64 with
  | .error e => .error e
  | .ok s => .ok (w.spanRead c s 64)

/-- A context opened (R307, R311): the node latched, the exponents of the bucket's step, the base frame of the segment. -/
def RedCtx.open_ (q : Fin 8) (x : InFlight) (d : RedDesc) (n : RedNode) (e : ScaleEntry) : RedCtx :=
  { q, step := BitVec.ofNat 64 x.step, phase := .opened, base := x.seg, node := n, desc := d, rnd := modBit x.f 0
    fmt := e.fmt.toNat, eb := (List.range d.blocks).map (e.expo x.prev), inputs := [], inclusion := none, dropped := []
    sent := [], sums := [], attempts := 0, own := none, waiters := [], results := [], path := false, notice := none, n := 0
    failCode := 0, closeAsked := false, outcome := 0, root := none, held := none }

/-- `red.open` (R310-R312, R136). -/
def effRedOpen (w : Work) (c : CtxId) (x : InFlight) (ev : MemEvent) : Effect :=
  let q := (w.ctx c).part
  let job := (w.ctx c).job
  withOp w (w.localDesc c x.va) fun bs =>
    let (bucket, d) := RedDesc.ofBytes bs
    if !w.declares c d.sluice.toNat then .flt w (0x0C, d.sluice.toNat)
    else
      let n := w.red.nodes.get .zero (2 * q.val + d.classS.toNat)
      let held := w.redCtx job bucket
      let step := BitVec.ofNat 64 x.step
      let take := fun (e : ScaleEntry) =>
        Effect.done ((w.setRed job bucket (some (.open_ q x d n e))).redReplay q job bucket ev).redUnhold
      withBound w c x (w.tensorEntry c d.tensor) fun e =>
        if w.redMisfit q job d n e then .flt w (0x4A, 0)
        else match held with
          | none => if (w.part q).dyke.redQuota ≤ w.redInUse q then .flt w (0x49, 0) else take e
          | some b =>
            if b.step = step then .done w
            else if step.ult b.step then .done (w.updRedEv q fun v => { v with stale := satAdd v.stale 1 })
            else if b.phase = .delivered then take e else .wait w

/-- The blocks of a BI16 tensor in stream order, as far as a bucket needs them (R314), read tile by tile. -/
def Work.readTiles (w : Work) (q : Fin 8) (d : TensorDesc) : List Nat → MemEvent →
    Except OpFault (List (Byte × List (Option Int))) × Work
  | [], _ => (.ok [], w)
  | t :: ts, ev =>
    let (g, w1) := w.hbmRead q (d.mantAt t) (tileBytes d.fmt) ev
    if g.code ≠ 0 then (.error (g.code, w.hbmDetail q g.code (d.mantAt t) (tileBytes d.fmt)), w1)
    else
      let n := (rangeBlocks (d.mantAt t) (tileBytes d.fmt)).length
      let (e, w2) := w1.hbmRead q (d.expAt t) 128 (evAfter ev n)
      if e.code ≠ 0 then (.error (e.code, w.hbmDetail q e.code (d.expAt t) 128), w2)
      else
        let (r, w3) := Work.readTiles w2 q d ts (evAfter ev (n + (rangeBlocks (d.expAt t) 128).length))
        match r with
        | .error f => (.error f, w3)
        | .ok rest =>
          let codes := (unpackCodes 16 4096 g.bytes).toArray
          let mine := (List.range 128).map fun b =>
            (e.bytes.getD b 0, (List.range 32).map fun j => elemOf 16 (codes.getD (blockEl d.colAxis b j) 0))
          (.ok (mine ++ rest), w3)

/-- A `red.contrib` that is discarded on the device (R311, R327). -/
def Work.redDiscard (w : Work) (q : Fin 8) (job bucket : BitVec 16) (step : Nat) : Work :=
  (w.updRedEv q fun e => { e with stale := satAdd e.stale 1 }).logEv redUnit 0x0480 1 (partByte q)
    (job.toNat + bucket.toNat * 2 ^ 16 + step * 2 ^ 64)

/-- A contribution joins its context (R309, R320, R327). -/
def Work.redContribute (w : Work) (c : CtxId) (x : InFlight) (bucket : BitVec 16) (b : RedCtx) (o : RedOwn)
    (ev : MemEvent := .ok) : Work :=
  let job := (w.ctx c).job
  let b1 := { b with own := some o, waiters := b.waiters ++ [(c, x.id)] }
  if b.leaf then
    (w.setRed job bucket (some { b1 with phase := .waiting })).redSendContrib b1 job bucket c.slice o
  else if b.inclusion.isSome then w.redDrop job bucket b1 ownInput 1 w.time.address
  else
    (w.setRed job bucket (some { b1 with inputs := b1.inputs.set none ownInput (some (b1.ownPieces o)) })).redGo job bucket ev

/-- `red.contrib` (R84, R136, R309, R311, R327): it waits for the open; a contribution of an earlier step, or a second one, is
discarded; one that comes after delivery completes with the record's outcome. -/
def effRedContrib (w : Work) (c : CtxId) (x : InFlight) (ev : MemEvent) : Effect :=
  let q := (w.ctx c).part
  let job := (w.ctx c).job
  let bucket : BitVec 16 := x.va.setWidth 16
  match w.redCtx job bucket with
  | none => .wait w
  | some b =>
    if b.step.toNat < x.step then .wait w
    else if x.step < b.step.toNat then .done (w.redDiscard q job bucket x.step)
    else if b.own.isSome then .done (w.redDiscard q job bucket x.step)
    else if b.phase = .delivered then
      if b.outcome = 0 then .done w else .flt w (b.outcome, 0)
    else
      withOp w (w.descAt c (BitVec.ofNat 64 (hMant x.vb))) fun d =>
        if d.fmt ≠ 2 then .flt w (0x23, 0)
        else if b.leaf && !w.mayRetain c (1064 * b.chunks) then .wait w
        else
          let tiles := List.range (min ((b.desc.blocks + 127) / 128) (d.matrices * d.tm))
          let (r, w1) := w.readTiles q d tiles ev
          withOp w1 r fun blocks =>
            let o : RedOwn := { rows := d.rows, cols := d.cols, matrices := d.matrices, colAxis := d.colAxis, blocks }
            let used := tiles.foldl (fun n t =>
              n + (rangeBlocks (d.mantAt t) (tileBytes d.fmt)).length + (rangeBlocks (d.expAt t) 128).length) 0
            .stand (w1.redContribute c x bucket b o (evAfter ev used)).redUnhold .remote

/-- `red.close` (R136, R313). -/
def effRedClose (w : Work) (c : CtxId) (x : InFlight) : Effect :=
  let job := (w.ctx c).job
  let bucket : BitVec 16 := x.va.setWidth 16
  match w.redCtx job bucket with
  | none => .done w
  | some b =>
    if b.phase = .delivered then .done (w.setRed job bucket none)
    else .done (w.setRed job bucket (some { b with closeAsked := true }))

/-- A node's close tick (R319). -/
def Work.redClose (w : Work) (job bucket : BitVec 16) (ev : MemEvent := .ok) : Work :=
  match w.redCtx job bucket with
  | none => w
  | some b =>
    if !b.leaf && decide (b.phase = .opened) && b.inclusion.isNone && decide (b.closeFrame ≤ w.frame) then
      (w.setRed job bucket (some b.fix)).redGo job bucket ev
    else w

/-- A bucket fails at this node (R322, R412): nothing more is waited for, its sum goes up FAILED, and the root ends it; a
member that can no longer send up ends it here (`cut`). -/
def Work.redFailHere (w : Work) (job bucket : BitVec 16) (cut : Bool) : Work :=
  match w.redCtx job bucket with
  | none => w
  | some b =>
    if b.ended then w
    else if b.node.root || cut || b.leaf then w.redEnd job bucket { b with failCode := 0x47 } true false 0x47
    else
      let inc := b.inclusion.getD (b.expected.filter fun k => (b.inputs.get none k).isSome)
      let fill := fun (i : RedInput) =>
        { i with pieces := (List.range (2 * b.chunks)).foldl (fun t k =>
            if (t.get none k).isSome then t else t.set none k (some .zero)) i.pieces }
      (w.setRed job bucket (some
        { b with failCode := 0x47, inclusion := some inc, phase := if b.phase = .opened then .forwarding else b.phase
                 inputs := b.inputs.map fun e => (e.1, e.2.map fill) })).redGo job bucket

/-- A bucket fails at this node, and packets that were held back may find the windows that it leaves (R322). -/
def Work.redFail (w : Work) (job bucket : BitVec 16) (cut : Bool) : Work := (w.redFailHere job bucket cut).redUnhold

/-- The contexts of a job that satisfy a test are released, with the packets that wait (R313, R322). -/
def Work.redRelease (w : Work) (job : BitVec 16) (test : RedCtx → Bool) : Work :=
  let gone := ((w.red.early ++ w.red.held).filter fun e => decide (e.pkt.job = job)).filterMap (·.hold)
  Work.redUnhold <| gone.foldl Work.giveBack { w with red := { w.red with
      ctxs := w.red.ctxs.filter fun e => !(decide (e.1 / 65536 = job.toNat) && (match e.2 with | some b => test b | none => false))
      early := w.red.early.filter fun e => decide (e.pkt.job ≠ job)
      held := w.red.held.filter fun e => decide (e.pkt.job ≠ job) } }

/-- The buckets of a partition whose delivery waits (R205). -/
def Work.redWaiting (w : Work) (q : Fin 8) : List (Nat × RedCtx) :=
  w.red.ctxs.filterMap fun e => e.2.bind fun b => if b.q = q ∧ b.held.isSome = true then some (e.1, b) else none

/-- A delivery that waits is performed once no range of it must wait (R205). -/
def Work.redUnwait (w : Work) (e : Nat × RedCtx) (ev : MemEvent) : Work :=
  match e.2.held with
  | none => w
  | some h =>
    if (e.2.spans (h.data && e.2.own.isSome && !(h.failed || h.poisoned))).any fun r => w.mustHold e.2.q r.1 r.2 then w
    else w.redWrite (BitVec.ofNat 16 (e.1 / 65536)) (BitVec.ofNat 16 e.1) { e.2 with held := none } h.path h.failed h.poisoned h.code
      h.data ev

end Sys2Proof.Machine
end

