-- ==== Sys2Proof/Machine/Commit.lean ====
section
/-! DEFINITION. Step commit and rollback: `step.commit`, the shard code, what a commit and a rollback change, restarts, and
the second home's takeover (R58-R62, R212, R232, R413-R422). -/

namespace Sys2Proof.Machine

/-- A product in GF(2^8) with the polynomial 0x11D (R420), over the low `n` bits of `b`. -/
def gfMulBits : Nat → Nat → Nat → Nat
  | 0, _, _ => 0
  | n + 1, a, b =>
    let a2 := if 2 * a < 256 then 2 * a else (2 * a) ^^^ 0x11D
    (if b % 2 = 1 then a else 0) ^^^ gfMulBits n a2 (b / 2)
/-- A product in GF(2^8) (R420). -/
def gfMul (a b : Nat) : Nat := gfMulBits 8 a b
/-- The inverse in GF(2^8); 0 for 0 (R420). -/
def gfInv (a : Nat) : Nat := ((List.range 256).find? fun b => gfMul a b = 1).getD 0
/-- The coefficient c(j, i) for m parity symbols (R420). -/
def codeCoeff (m j i : Nat) : Nat := gfInv (j ^^^ (m + i))

/-- A code entry (R420). -/
structure CodeEntry where
  group : Nat
  role : Nat
  parity0 : Nat
  parity1 : Nat
  members : List (BitVec 16)
deriving DecidableEq, Repr

/-- The entry in 64 bytes (R420), for k + m symbols. -/
def CodeEntry.ofBytes (b : List Byte) (n : Nat) : CodeEntry :=
  { group := leAt b 0 2, role := leAt b 2 1, parity0 := leAt b 8 8, parity1 := leAt b 16 8
    members := (List.range n).map fun i => BitVec.ofNat 16 (leAt b (24 + 2 * i) 2) }

/-- The code entries of a job, as they stand in its memory (R413, R420). -/
def Work.codeEntries (w : Work) (q : Fin 8) (r : ResilSec) : List CodeEntry :=
  if r.codeK = 0 then []
  else (List.range r.codeCount).map fun i => .ofBytes (w.peek q (r.codeBase.toNat + 64 * i) 64) (r.codeK + r.codeM)

/-- A shard: the bytes of one buffer of every weight pair, in record order (R420). -/
def Work.shard (w : Work) (q : Fin 8) (j : Job) (buf : Bool) : List Byte :=
  j.weights.flatMap fun p => w.peek q (if buf then p.base1.toNat else p.base0.toNat) p.bytes

/-- The code deltas of a data member sent to its parity holders (R421): packets of KIND 0x0C. The chapter gives the packet
no layout: ADDR holds the offset in [47:0] and the group in [63:48] (DESIGN CHOICE, log entry 31). -/
def Work.sendDeltas (w : Work) (q : Fin 8) (job : BitVec 16) (j : Job) (r : ResilSec) (sl : Fin 8) : Work :=
  let cur := w.shard q j j.buf
  let prev := w.shard q j (!j.buf)
  let delta := (cur.zip prev).map fun p => p.1 ^^^ p.2
  (w.codeEntries q r).foldl (fun w e =>
    if e.role < r.codeK then
      (List.range r.codeM).foldl (fun w k =>
        let c := codeCoeff r.codeM k e.role
        let body := delta.map fun d => BitVec.ofNat 8 (gfMul c d.toNat)
        (rangePackets body).foldl (fun w p =>
          w.sendPkt q (mkPkt (e.members.getD (r.codeK + k) 0) job 0x0C (BitVec.ofNat 64 (e.group * 2 ^ 48 + p.1)) p.2) .device sl
            none) w) w
    else w) w

/-- Code deltas of a job that no parity holder has accepted yet. -/
def Work.deltasOut (w : Work) (q : Fin 8) (job : BitVec 16) : Bool :=
  w.fab.send.any fun e => decide (e.1.q = q) && e.2.retained.any fun r => decide (r.pkt.kind = 0x0C ∧ r.pkt.job = job)

/-- This device's parity is current: every data symbol's delta is applied to each entry it holds as parity (R421). -/
def Work.parityDone (w : Work) (q : Fin 8) (job : BitVec 16) (r : ResilSec) : Bool :=
  (w.codeEntries q r).zipIdx.all fun e =>
    decide (e.1.role < r.codeK) ||
      (List.range r.codeK).all fun i => decide (r.shardBytes ≤ (w.commit q job).deltas.get 0 (32 * e.2 + i))

/-- HOME2 counts a signal (R414, R418); after a takeover it decides by its own count. -/
def Work.home2Signal (w : Work) (q : Fin 8) (job : BitVec 16) (g : BitVec 16) (k : Nat) : Work :=
  match w.job q job with
  | none => w
  | some j =>
    let w1 := w.updCommit q job fun c => { c with counts := c.counts.upd 0 g.toNat (· + k) }
    match j.commitSluice with
    | some n =>
      if (w1.commit q job).takenOver && (w1.sluice n).gen == g then
        let w2 := w1.updSluice n fun s => { s with count := s.count + BitVec.ofNat 32 k, changed := s.changed || decide (BitVec.ofNat 32 k ≠ 0) }
        w2.checkCommit n g
      else w1
    | none => w1

/-- The commit signal to both homes (R414), and how `step.commit` ends: complete where this device is a home, else when
either home accepts. -/
def Work.sendCommit (w : Work) (c : CtxId) (x : InFlight) (j : Job) : Effect :=
  let q := (w.ctx c).part
  let job := (w.ctx c).job
  let op : SluiceOp := .signal x.gen (x.f.imm.setWidth 32)
  let here := decide (w.homeOf j = w.time.address) || w.isHome2 j
  let owner : PktOwner := if here then .device else .instr c x.id
  let w0 := w.updCommit q job fun s => { s with signalled := true, lastGen := some x.gen }
  let w1 := if w0.homeOf j = w.time.address then w0.updSluice x.sluiceNo fun s => { s with coming := s.coming ++ [(coreKey c, op)] }
    else w0.sluiceMsg q job (w0.homeOf j) x.sluiceNo op owner c.slice
  let w2 := match w1.home2Of j with
    | none => w1
    | some d => if d = w.time.address then w1.home2Signal q job x.gen x.f.imm.toNat
      else w1.sluiceMsg q job d x.sluiceNo op owner c.slice
  if here then .done w2 else .stand w2 .remote

/-- `step.commit` (R134, R414, R417, R421). One for a step that this device has aborted completes and sends nothing (DESIGN CHOICE, log entry
118). -/
def effStepCommit (w : Work) (c : CtxId) (x : InFlight) : Effect :=
  let q := (w.ctx c).part
  let job := (w.ctx c).job
  withSluice w c x
    (if !(w.ctx c).allBefore x then .wait w
    else match w.jobOf c with
      | none => .done w
      | some j =>
        if j.commitSluice ≠ some x.sluiceNo then
          .done (w.issueSluice q job x.sluiceNo (.signal x.gen (x.f.imm.setWidth 32)) c.slice (coreKey c))
        else if (w.commit q job).lastGen = some x.gen ∨ (w.commit q job).aborted.contains j.step = true then .done w
        else match j.resil with
          | none => w.sendCommit c x j
          | some r =>
            if r.codeK ≠ 0 ∧ (w.commit q job).codeSent = false then
              .wait ((w.sendDeltas q job j r c.slice).updCommit q job fun s => { s with codeSent := true })
            else if w.deltasOut q job || !w.parityDone q job r then .wait w
            else w.sendCommit c x j)

/-- The outcome of a block at a commit (R58): its new state, and whether it rose, fell, or was held at a limit. -/
def BlockSt.commit (b : BlockSt) (pinned fresh : Bool) : BlockSt × Int × Bool :=
  let b0 := { b with ePrev := b.e, run := if fresh then 0 else b.run, written := false, high := false, sat := false }
  if pinned then (b0, 0, false)
  else if b.sat then
    if b.e = 127 then ({ b0 with run := 0 }, 0, true) else ({ b0 with e := b.e + 1, run := 0 }, 1, false)
  else if b.written && !b.high then
    if b0.run = 63 then
      if b.e = 0x80 then ({ b0 with run := 0 }, 0, true) else ({ b0 with e := b.e - 1, run := 0 }, -1, false)
    else ({ b0 with run := b0.run + 1 }, 0, false)
  else if b.written then ({ b0 with run := 0 }, 0, false)
  else (b0, 0, false)

/-- The slice whose stack holds the state word of a block (R64). -/
def ScaleEntry.blockSlice (e : ScaleEntry) (b : Nat) : Nat := (e.stateBase.toNat + 4 * b) / 2 ^ 36 % 8

/-- One entry at a commit of its job's step (R58, R60, R62, R64, R228), with what is left of the findings of its writes. A pending
`scl.pin` that names the state already in force is taken like any other and zeroes RUN (DESIGN CHOICE, log entry 107). -/
def Work.commitEntry (w : Work) (q : Fin 8) (job : BitVec 16) (t : BitVec 20) (e : ScaleEntry) (step : Word) (ev : MemEvent) :
    Work × MemEvent :=
  let pin := e.pendingPin.getD e.pinned
  let outs := e.blocks.map fun b => (b.1, b.2.commit pin e.pendingPin.isSome, b.2.sat)
  let e' := { e with pinned := pin, pendingPin := none
                     blocks := (outs.map fun o => (o.1, o.2.1.1)).filter fun o => decide (o.2 ≠ .zero) }
  let w1 := w.setEntry q t (some e')
  let w2 := outs.foldl (fun (w : Work) (o : Nat × (BlockSt × Int × Bool) × Bool) =>
    w.updSlice (e.blockSlice o.1) fun s => { s with scale := { s.scale with
      raises := if o.2.1.2.1 = 1 then satAdd s.scale.raises 1 else s.scale.raises
      lowers := if o.2.1.2.1 = -1 then satAdd s.scale.lowers 1 else s.scale.lowers
      atLimit := if o.2.1.2.2 then satAdd s.scale.atLimit 1 else s.scale.atLimit } }) w1
  let held := outs.countP fun o => o.2.1.2.2
  let w3 := if held = 0 then w2
    else w2.logEv (unitId 3 0 0xFF) 0x0280 1 (partByte q) (t.toNat + held * 2 ^ 32 + step.toNat * 2 ^ 64)
  (w.slicesOf q).foldl (fun (a : Work × MemEvent) n =>
    let k := outs.countP fun o => o.2.2 && decide (e.blockSlice o.1 = n)
    if k = 0 then a else (a.1.statAdd n q job t step 0 0 0 0 k a.2, evLater a.2)) (w3, ev)

/-- The entries that a commit of a job updates (R58): those of its own tensors; entries of another job of the partition wait for that
job's commit (DESIGN CHOICE, log entry 130). -/
def Work.entriesOf (w : Work) (q : Fin 8) (job : BitVec 16) : List (BitVec 20 × ScaleEntry) :=
  w.scale.filterMap fun k =>
    match k.2 with
    | some e => if k.1 / 2 ^ 20 = q.val ∧ e.job = job then some (BitVec.ofNat 20 k.1, e) else none
    | none => none

/-- Records of one step added up by tensor. -/
def mergeRecs (l : List StatRec) : List StatRec :=
  l.foldl (fun acc r =>
    match acc.find? fun a => decide (a.tensor = r.tensor) with
    | some a => a.add r.elements.toNat r.zeros.toNat r.sats.toNat r.nars.toNat r.satBlocks.toNat ::
        acc.filter fun b => decide (b.tensor ≠ r.tensor)
    | none => r :: acc) []

/-- The records of a step become final in one slice (R232): written to the table, each meeting the next finding of `ev`, or
discarded, and summarised: STAT_SUMMARY (R233) then shows this job's step, whichever jobs were finalised before it (DESIGN CHOICE, log
entry 137). -/
def Work.finalizeSlice (w : Work) (q : Fin 8) (job : BitVec 16) (step : Word) (n : Nat) (ev : MemEvent) : Work × MemEvent :=
  let mine := fun (r : StatRec) => decide (r.q = q ∧ r.job = job ∧ r.step = step)
  let now := (w.slice n).stat.recs.filter mine
  let w0 := w.updSlice n fun s => { s with stat := { s.stat with recs := s.stat.recs.filter fun r => !mine r } }
  let (w1, kept, ev1) := now.foldl (fun (acc : Work × List StatRec × MemEvent) r =>
    match acc.1.statSec q job with
    | none => (acc.1, r :: acc.2.1, acc.2.2)
    | some sec =>
      let (ok, w) := acc.1.statToTable n r sec (evHere acc.2.2)
      (if ok then w else w.updSlice n fun s => { s with stat := { s.stat with lost := satAdd s.stat.lost 1 } },
        acc.2.1, evLater acc.2.2)) (w0, [], ev)
  let all := mergeRecs (kept ++ (w1.slice n).stat.evicted.filter mine)
  (w1.updSlice n fun s => { s with stat := { s.stat with
    evicted := s.stat.evicted.filter fun r => !mine r
    sumStep := step
    sumZeros := all.foldl (fun a r => satAdd a r.zeros.toNat) 0
    sumSats := all.foldl (fun a r => satAdd a r.sats.toNat) 0
    sumFlagged := satAdd 0 (all.countP fun r => decide (r.sats ≠ 0 ∨ r.nars ≠ 0))
    sumNars := all.foldl (fun a r => satAdd a r.nars.toNat) 0 } }, ev1)

/-- The deciding home after its own commit (R415): the sluice re-armed for the next generation with the same TARGET, and an
abort that named the new step takes effect. -/
def Work.nextGeneration (w : Work) (q : Fin 8) (job : BitVec 16) (g : BitVec 16) : Work :=
  match w.job q job with
  | none => w
  | some j =>
    if w.decides q job j then
      let w1 := match j.commitSluice with
        | some n => w.updSluice n fun s => s.armed (g + 1) s.target
        | none => w
      match (w1.commit q job).aborts.find? fun a => a.1 == j.step with
      | some a => w1.decideStep q job false a.2
      | none => w1
    else w

/-- The contexts of a job that hold a program. -/
def Work.ctxsOf (w : Work) (q : Fin 8) (job : BitVec 16) : List CtxId :=
  w.liveCtxs.filter fun c =>
    let k := w.ctx c
    decide (k.part = q ∧ k.job = job) && !(k.st = .empty || k.st = .absent)

/-- What a context has dispatched and not completed is, after a commit, work of the previous step (R61, R201, R207). -/
def Ctx.agePrev (k : Ctx) : Ctx := { k with infl := k.infl.map fun y => { y with prev := true } }

/-- A commit completes on this device (R24, R58, R188, R212, R232, R416); `ev` is what the writes of statistics records find,
one after another, and what is left of it is answered. -/
def Work.commitStep (w : Work) (q : Fin 8) (job : BitVec 16) (d : Decision) (ev : MemEvent) : Work × MemEvent :=
  match w.job q job with
  | none => (w, ev)
  | some j =>
    let old := j.step
    let a1 := (w.entriesOf q job).foldl (fun (a : Work × MemEvent) e => a.1.commitEntry q job e.1 e.2 old a.2) (w, ev)
    let a2 := if j.start.toNat < old.toNat then
        (a1.1.slicesOf q).foldl (fun (a : Work × MemEvent) n => a.1.finalizeSlice q job (old - 1) n a.2) a1
      else a1
    let w3 := a2.1.updJob q job fun b => { b with step := old + 1, buf := !b.buf }
    let w4 := w3.updCommit q job fun c =>
      { c with learned := none, decided := none, sentToHome2 := false, heldDecision := none, firstSignal := none
               attempt := 0, lastCommitted := old, signalled := false, deltas := [], codeSent := false
               counts := c.counts.del d.gen.toNat, aborts := c.aborts.filter fun a => a.1 != old
               aborted := c.aborted.filter fun a => a != old }
    let w5 := match j.peat with
      | some p => w4.beginSlot q p (old.toNat + 1)
      | none => w4
    let w6 := (w5.ctxsOf q job).foldl (fun w c => w.updCtx c Ctx.agePrev) w5
    (w6.nextGeneration q job d.gen, a2.2)

/-- What a rollback does to a context's instructions (R419): what has not started, and transfers that have sent no packet,
are gone; started matrix, vector and control work, and what awaits its remote completion, stays. -/
def Ctx.cutInstructions (k : Ctx) : Ctx :=
  { k with infl := k.infl.filter fun y =>
      decide (y.stat = .remote) || decide (y.stat = .combining) || (decide (y.stat = .started) && decide (y.op.queue ≠ .M)) }

/-- Peat copies and HBM writes of instructions that are gone are withdrawn. -/
def Work.dropOrphans (w : Work) (c : CtxId) : Work :=
  let has := fun (id : Nat) => (w.ctx c).infl.any fun y => decide (y.id = id)
  ({ w with writes := w.writes.filter fun x => decide (x.ctx ≠ c) || has x.id } : Work).updPeat c.slice.val fun p =>
    { p with copies := p.copies.filter fun x => decide (x.ctx ≠ c) || has x.id }

/-- The scale table of a job at a rollback (R59, R60). -/
def Work.rollbackScale (w : Work) (q : Fin 8) (job : BitVec 16) : Work :=
  (w.entriesOf q job).foldl (fun w e =>
    let kept := (e.2.blocks.map fun b => (b.1, { b.2 with written := false, high := false, sat := false })).filter
      fun (b : Nat × BlockSt) => decide (b.2 ≠ .zero)
    w.setEntry q e.1 (some { e.2 with pendingPin := none, blocks := kept })) w

/-- The statistics of a step at its rollback (R232): on chip and in the tables, set to zero. -/
def Work.rollbackStats (w : Work) (q : Fin 8) (job : BitVec 16) (step : Word) : Work :=
  (w.slicesOf q).foldl (fun w n =>
    let mine := fun (r : StatRec) => decide (r.q = q ∧ r.job = job ∧ r.step = step)
    let gone := ((w.slice n).stat.evicted.filter mine)
    let w1 := match w.statSec q job with
      | none => w
      | some sec => gone.foldl (fun (w : Work) (r : StatRec) =>
          (w.hbmWrite q (statAddr sec (w.sliceRank q n) r.tensor step) (List.replicate 64 0) .ok).2) w
    w1.updSlice n fun s => { s with stat := { s.stat with
      recs := s.stat.recs.filter fun r => !mine r, evicted := s.stat.evicted.filter fun r => !mine r } }) w

/-- The host commands of a job that are not complete end (R419, R456): all but LOAD. -/
def Work.abortJobCmds (w : Work) (q : Fin 8) (job : BitVec 16) (status : Nat) : Work :=
  (w.fnsOf q).foldl (fun w f =>
    (w.queuesOf f).foldl (fun w k =>
      w.abortCmds f k (fun e => decide (cmdJob e.entry = job) && decide (cmdOpcode e.entry ≠ 0x20)) status) w) w

/-- The Peat of a partition's slices emptied (R200). -/
def Work.emptyPeats (w : Work) (q : Fin 8) : Work :=
  (w.slicesOf q).foldl (fun w n => w.updPeat n Peat.emptied) w

/-- A context of a job that rolls back (R419): it stops with 0x61 at the third rollback of a step, one that is FAULTED already too, else
it waits to restart. -/
def Work.rollbackCtx (w : Work) (c : CtxId) (third : Bool) : Work :=
  let w1 := ((w.updCtx c fun k => { (k.noteEnd w.time).cutInstructions with version := none, hold := .none }).dropOrphans c).cancelAhead c
  if third then (w1.updCtx c fun k => { k with st := .paused }).fault c none (w.ctx c).dispatchPc 0x61 0
  else w1.updCtx c fun k => { k with st := .paused, pausedFrom := .running, restart := true }

/-- The split-K groups of a job's programs (R170). -/
def Work.jobGroups (w : Work) (q : Fin 8) (job : BitVec 16) : List Group :=
  w.groups.filter fun g => decide (g.q = q) && (match w.prog q g.program with | some p => decide (p.job = job) | none => false)

/-- Every participant's input to a use has arrived (R171). -/
def Work.useFull (w : Work) (g : Group) (u : CombineUse) : Bool :=
  g.cores.all fun k => (w.inputsOf u g.cores).any fun i => decide (i.core = k)

/-- The uses of a group at a rollback (R171, R173, R419): one that lacks inputs fails, since what would give them starts again; a root's
drain that waits for it ends with it, without a fault, and every participant's next drain of a binding is its first of one use again
(DESIGN CHOICE, log entry 127). -/
def Work.rollbackGroup (w : Work) (g : Group) : Work :=
  let mine := fun (q : Fin 8) (t : BitVec 20) => decide (q = g.q ∧ t = g.tensor)
  let lack := (w.combineUses.filter fun u => mine u.q u.tensor && !w.useFull g u) ++
    (w.openUses.filter fun u => mine u.2.q u.2.tensor).map fun u => u.2
  let w1 := lack.foldl (fun (w : Work) u =>
    (w.useFailed u).updCtx u.ctx fun k => { k with infl := k.infl.filter fun y => decide (y.stat ≠ .combining ∨ y.id ≠ u.id) }) w
  let tiles := ((w1.combineCounts.filter fun n => mine n.q n.tensor).map fun n => n.tile).dedup
  let most := fun (t : BitVec 32) => (w1.combineCounts.filter fun n => mine n.q n.tensor && decide (n.tile = t)).foldl (fun m n => max m n.n) 0
  { w1 with
    combineCounts := (w1.combineCounts.filter fun n => !mine n.q n.tensor) ++
      tiles.flatMap fun t => g.cores.map fun k => ⟨g.q, g.tensor, t, k, most t⟩
    failedUses := w1.failedUses.filter fun u => !mine u.q u.tensor }

/-- A rollback completes on this device (R59, R200, R208, R232, R313, R419). Until it restarts, a context shows PAUSED
(DESIGN CHOICE, log entry 32). -/
def Work.rollbackStep (w : Work) (q : Fin 8) (job : BitVec 16) (d : Decision) : Work :=
  match w.job q job with
  | none => w
  | some j =>
    let cs := w.commit q job
    let attempt := cs.attempt + 1
    let third := decide (3 ≤ attempt)
    let replay := !third && (match j.resil with | some r => r.autoReplay | none => false) &&
      !(d.cause = 0x40 || d.cause = 0x65)
    let w1 := w.updCommit q job fun c =>
      { c with learned := none, decided := none, sentToHome2 := false, heldDecision := none, firstSignal := none, attempt
               cause := d.cause, signalled := false, lastGen := none, deltas := []
               codeSent := false, counts := c.counts.del d.gen.toNat, stopped := third
               aborts := c.aborts.filter fun a => a.1 != j.step, aborted := c.aborted.filter fun a => a != j.step
               replayAt := if replay then some (w.frame + 1) else none }
    let w2 := match j.commitSluice with
      | some n => if w1.decides q job j then w1.updSluice n fun s => { s with changed := true } else w1
      | none => w1
    let w3 := (w2.jobGroups q job).foldl (fun w g => w.rollbackGroup g) ((w2.ctxsOf q job).foldl (fun w c => w.rollbackCtx c third) w2)
    let w4 := (((w3.emptyPeats q).redRelease job fun b => b.step == j.step).rollbackScale q job).rollbackStats q job j.step
    let w5 := (w4.abortJobCmds q job 0x361).updPart q fun p => { p with rollbacks := satAdd p.rollbacks 1 }
    if third || replay then w5
    else (w5.updPart q fun p => { p with paused := true }).partEvent q 1

/-- Action 4 of a tick for one job (R24, R416). -/
def Work.applyOutcome (w : Work) (q : Fin 8) (job : BitVec 16) (ev : MemEvent) : Work × MemEvent :=
  match (w.commit q job).learned with
  | some d => if d.committed then w.commitStep q job d ev else (w.rollbackStep q job d, ev)
  | none => (w, ev)

/-- Action 4 of a tick (R24): every job's outcome that has been learned. -/
def Work.applyOutcomes (w : Work) (ev : MemEvent) : Work :=
  (w.jobs.foldl (fun (a : Work × MemEvent) e => a.1.applyOutcome (partFin (e.1 / 65536)) (BitVec.ofNat 16 e.1) a.2) (w, ev)).1

/-- A context restarts (R73, R419): s1 and s3 as at load, s2 the frame of the restart, every other scalar and flag zero. Matrix and vector
instructions that are still running run to completion. -/
def Ctx.restarted (k : Ctx) (m : Nat) : Ctx :=
  { k with sregs := (Tbl.set 0 (Tbl.set 0 (Tbl.set 0 ([] : Tbl Word) 1 (k.getS 1)) 2 (BitVec.ofNat 64 m)) 3 k.decl.arg)
           flags := [], pc := k.decl.entryPc, lane := false, mb := 0, version := none, restart := false
           infl := k.infl.filter fun y => decide (y.stat = .combining) || (decide (y.stat = .started) && decide (y.op.queue ≠ .M))
           fault70 := false }

/-- s1 as a load writes it (R73). -/
def Work.loadS1 (w : Work) (c : CtxId) : Word :=
  w.time.address ++ (w.ctx c).job ++ BitVec.ofNat 8 c.slice.val ++ BitVec.ofNat 8 c.core.val ++ (0 : BitVec 8) ++
    BitVec.ofNat 8 c.ctx.val

/-- What a context still has out on the fabric is no longer reported to it. -/
def Work.disown (w : Work) (c : CtxId) : Work :=
  let off := fun (r : Retained) =>
    match r.owner with
    | .instr d _ => if d = c then { r with owner := .device } else r
    | _ => r
  { w with fab := { w.fab with
    send := w.fab.send.map fun e => (e.1, { e.2 with retained := e.2.retained.map off })
    reads := w.fab.reads.filter fun r => decide (r.c ≠ c) } }

/-- A rolled-back context starts again with the segment of frame m (R419). -/
def Work.restartCtx (w : Work) (c : CtxId) (m : Nat) : Work :=
  let w1 := w.disown c
  let s1 := w1.loadS1 c
  (w1.updCtx c fun k => ({ k with sregs := k.sregs.set 0 1 s1, startFrame := m } : Ctx).restarted m).beginSegment c m

/-- HOME2 takes over from a lost home (R418): it publishes the decision it holds, or decides from its own counts and the
aborts it has received, with the deadline measured from now. -/
def Work.takeOver (w : Work) (q : Fin 8) (job : BitVec 16) : Work :=
  match w.job q job with
  | none => w
  | some j =>
    let cs := w.commit q job
    if w.isHome2 j && cs.homeLost && !cs.takenOver then
      let w1 := w.updCommit q job fun c => { c with takenOver := true, firstSignal := some w.frame }
      match cs.heldDecision with
      | some d => (w1.updCommit q job fun c => { c with decided := some d }).publishDecision q job d
      | none =>
        match cs.aborts.find? fun a => a.1 == j.step with
        | some a => w1.decideStep q job false a.2
        | none =>
          match j.commitSluice with
          | some n =>
            let g := (w1.sluice n).gen
            let w2 := w1.updSluice n fun s => { s with count := BitVec.ofNat 32 (cs.counts.get 0 g.toNat) }
            if cs.counts.get 0 g.toNat ≠ 0 ∧ (w2.sluice n).full = true then w2.decideStep q job true 0 else w2
          | none => w1
    else w

/-- The commit deadline (R415): a home that has not decided within COMMIT_DEADLINE frames of the first signal fails the
step with 0x65. -/
def Work.commitDeadline (w : Work) (q : Fin 8) (job : BitVec 16) : Work :=
  match w.job q job with
  | none => w
  | some j =>
    let cs := w.commit q job
    match j.resil, cs.firstSignal with
    | some r, some f =>
      if w.decides q job j && cs.decided.isNone && decide (f + r.deadline ≤ w.frame) then w.decideStep q job false 0x65 else w
    | _, _ => w

/-- The home sends its decision to HOME2 (R415, R536). -/
def Work.sendDecision (w : Work) (q : Fin 8) (job : BitVec 16) : Work :=
  match w.job q job with
  | none => w
  | some j =>
    let cs := w.commit q job
    match cs.decided, w.home2Of j with
    | some d, some h2 =>
      if cs.sentToHome2 || cs.alone || cs.learned.isSome || decide (w.homeOf j ≠ w.time.address) then w
      else
        let w1 := w.updCommit q job fun c => { c with sentToHome2 := true }
        let n := j.commitSluice.getD 0
        w1.sendPkt q (mkPkt h2 job 0x0E (BitVec.ofNat 64 n)
          (leBytes 8 d.step.toNat ++ leBytes 2 d.gen.toNat ++ [if d.committed then 1 else 2, d.cause] ++ List.replicate 4 0))
          .device 0 none
    | _, _ => w

/-- HOME2 receives a decision (R415, R418, R536). -/
def Work.holdDecision (w : Work) (q : Fin 8) (job : BitVec 16) (b : List Byte) : Work :=
  let d : Decision := ⟨BitVec.ofNat 64 (leAt b 0 8), BitVec.ofNat 16 (leAt b 8 2), decide (leAt b 10 1 = 1),
    BitVec.ofNat 8 (leAt b 11 1)⟩
  w.updCommit q job fun c => { c with heldDecision := some d }

/-- The decision packet's fate at the home (R415): acknowledged, the home publishes; lost, it publishes alone and says so. -/
def Work.decisionSettled (w : Work) (q : Fin 8) (job : BitVec 16) (ok : Bool) : Work :=
  match w.job q job, (w.commit q job).decided with
  | some j, some d =>
    if ok then w.publishDecision q job d
    else
      let h2 := ((w.home2Of j).getD 0).toNat
      ((w.updCommit q job fun c => { c with alone := true }).logEv (unitId 3 0 0xFF) 0x0681 3 (partByte q)
        (job.toNat + h2 * 2 ^ 16 + d.step.toNat * 2 ^ 64)).publishDecision q job d
  | _, _ => w

/-- A step abort packet at a home (R415, R417, R418). -/
def Work.abortPacket (w : Work) (q : Fin 8) (k : Pkt) : Work :=
  let step := BitVec.ofNat 64 (leAt k.payload 0 8)
  let w1 := w.abortAtHome q k.job step (BitVec.ofNat 8 (leAt k.payload 8 1))
  match w1.job q k.job with
  | some j =>
    if leAt k.payload 9 1 % 2 = 1 ∧ k.src = w1.homeOf j ∧ w1.isHome2 j = true then
      w1.updCommit q k.job fun c => { c with homeLost := true }
    else w1
  | none => w1

/-- A code delta at a parity holder (R420, R421): the previous parity takes the XOR; the first delta of an attempt starts
again from the current parity. A delta whose write fails is not applied, so the holder's `step.commit` waits. -/
def Work.codeDelta (w : Work) (q : Fin 8) (k : Pkt) : Work :=
  match (w.job q k.job).bind fun j => j.resil.map fun r => (j, r) with
  | none => w
  | some (j, r) =>
    let group := bitsOf k.addr.toNat 48 16
    let off := bitsOf k.addr.toNat 0 48
    (w.codeEntries q r).zipIdx.foldl (fun w e =>
      let i := e.1.members.idxOf k.src
      if e.1.group = group ∧ r.codeK ≤ e.1.role ∧ i < r.codeK then
        let cur := if j.buf then e.1.parity1 else e.1.parity0
        let prev := if j.buf then e.1.parity0 else e.1.parity1
        let started := (w.commit q k.job).deltas.any fun d => decide (d.1 / 32 = e.2)
        let x1 := if started then (0, w) else w.hbmWrite q prev (w.peek q cur r.shardBytes) .ok
        let old := x1.2.peek q (prev + off) k.payload.length
        let x2 := x1.2.hbmWrite q (prev + off) ((old.zip k.payload).map fun p => p.1 ^^^ p.2) .ok
        if x1.1 ≠ 0 ∨ x2.1 ≠ 0 then x2.2
        else x2.2.updCommit q k.job fun c => { c with deltas := c.deltas.upd 0 (32 * e.2 + i) (· + k.payload.length) }
      else w) w

end Sys2Proof.Machine
end

