-- ==== Sys2Proof/Machine/Rebuild.lean ====
section
/-! DEFINITION. Rebuilding a lost symbol of the shard code: on this device as the spare, and its contributions as a survivor (R420, R422,
R423, R440). -/

namespace Sys2Proof.Machine

/-- Bytes of a rebuild chunk (R422). -/
def chunkBytes : Nat := 67108864

/-- The pieces of a shard in one buffer, in record order (R420): address and length. -/
def Job.shardParts (j : Job) (buf : Bool) : List (Nat × Nat) :=
  j.weights.map fun p => (if buf then p.base1.toNat else p.base0.toNat, p.bytes)

/-- Bytes written at an offset of a sequence of pieces; the first code that is not 0 is the write's. -/
def Work.putPieces (w : Work) (q : Fin 8) : List (Nat × Nat) → Nat → List Byte → Byte × Work
  | [], _, _ => (0, w)
  | (a, n) :: rest, off, bs =>
    if n ≤ off then Work.putPieces w q rest (off - n) bs
    else if bs.isEmpty then (0, w)
    else
      let (c, w1) := w.hbmWrite q (a + off) (bs.take (n - off)) .ok
      let (c2, w2) := Work.putPieces w1 q rest 0 (bs.drop (n - off))
      (if c ≠ 0 then c else c2, w2)

/-- A rebuild slot changed. -/
def Work.updRebuild (w : Work) (i : Nat) (f : RebuildSlot → RebuildSlot) : Work :=
  { w with rebuild := w.rebuild.upd .zero i f }
/-- A rebuild slot. -/
def Work.rebuildSlot (w : Work) (i : Nat) : RebuildSlot := w.rebuild.get .zero i

/-- Where the rebuilt symbol is written: the current buffers for a data symbol, the current parity buffer for a parity
symbol (R420, R422). -/
def Work.rebuildParts (w : Work) (s : RebuildSlot) (j : Job) (r : ResilSec) : List (Nat × Nat) :=
  let e := CodeEntry.ofBytes (w.peek s.q s.entry 64) (r.codeK + r.codeM)
  if s.symbol.toNat < r.codeK then j.shardParts j.buf else [(if j.buf then e.parity1 else e.parity0, r.shardBytes)]

/-- The slot of a contribution: running, for its group and job (R422). ADDR holds the offset in [47:0] and the group in
[63:48] (DESIGN CHOICE, log entry 31). -/
def Work.rebuildFor (w : Work) (q : Fin 8) (k : Pkt) : Option Nat :=
  [0, 1, 2, 3].find? fun i =>
    let s := w.rebuildSlot i
    decide (s.st = 1 ∧ s.q = q ∧ s.job = k.job ∧ s.group.toNat = bitsOf k.addr.toNat 48 16)

/-- A decoded contribution is combined by XOR into the chunk in progress (R422). -/
def Work.rebuildPacket (w : Work) (q : Fin 8) (k : Pkt) : Work :=
  match w.rebuildFor q k with
  | none => w
  | some i =>
    let off := bitsOf k.addr.toNat 0 48
    w.updRebuild i fun s =>
      let old := s.chunk.readN off k.payload.length
      { s with chunk := s.chunk.writeN off ((old.zip k.payload).map fun p => p.1 ^^^ p.2) }

/-- A row of symbols times a factor in GF(2^8). -/
def gfScale (c : Nat) (r : List Nat) : List Nat := r.map (gfMul c)

/-- Gauss-Jordan elimination over GF(2^8) by columns: the rows with a pivot, in the order of the columns. -/
def gfReduce : List Nat → List (List Nat) → List (List Nat) → List (List Nat)
  | [], done, _ => done
  | c :: cs, done, todo =>
    match todo.find? fun r => decide (r.getD c 0 ≠ 0) with
    | none => gfReduce cs done todo
    | some r =>
      let p := gfScale (gfInv (r.getD c 0)) r
      let clear := fun (x : List Nat) => (x.zip (gfScale (x.getD c 0) p)).map fun e => e.1 ^^^ e.2
      gfReduce cs (done.map clear ++ [p]) ((todo.erase r).map clear)

/-- A symbol of a code group as a combination of its k data symbols (R420). -/
def symbolRow (k m s : Nat) : List Nat :=
  (List.range k).map fun i => if s < k then (if s = i then 1 else 0) else codeCoeff m (s - k) i

/-- The survivors that rebuild a group's symbols (R420, R422): any k recover the rest; the lowest-numbered ones (DESIGN CHOICE, log
entry 77). -/
def survivorsOf (k m : Nat) (lost : BitVec 32) : List Nat := ((List.range (k + m)).filter fun s => !lost.getLsbD s).take k

/-- The factors with which k survivors add up to a symbol (R420, R422, R423). -/
def decodeFactors (k m : Nat) (from_ : List Nat) (symbol : Nat) : List Nat :=
  let rows := (List.range k).map fun i => (from_.map fun s => (symbolRow k m s).getD i 0) ++ [(symbolRow k m symbol).getD i 0]
  (gfReduce (List.range k) [] rows).map fun r => r.getD k 0

/-- A survivor's decoded contribution for a chunk (R422): its current buffer of the group's symbol that it holds, times its factor, in
packets of KIND 0x0D to the spare. -/
def Work.sendContribution (w : Work) (q : Fin 8) (job group dest : BitVec 16) (symbol : Byte) (lost : BitVec 32) (chunk : Nat) : Work :=
  match (w.job q job).bind fun j => j.resil.map fun r => (j, r) with
  | none => w
  | some (j, r) =>
    match (w.codeEntries q r).find? fun e => decide (e.group = group.toNat) with
    | none => w
    | some e =>
      let l := survivorsOf r.codeK r.codeM lost
      if l.contains e.role then
        let c := (decodeFactors r.codeK r.codeM l symbol.toNat).getD (l.idxOf e.role) 0
        let mine := if e.role < r.codeK then w.shard q j j.buf else w.peek q (if j.buf then e.parity1 else e.parity0) r.shardBytes
        let off := chunk * chunkBytes
        (rangePackets (((mine.drop off).take chunkBytes).map fun d => BitVec.ofNat 8 (gfMul c d.toNat))).foldl (fun w p =>
          w.sendPkt q (mkPkt dest job 0x0D (BitVec.ofNat 64 (group.toNat * 2 ^ 48 + off + p.1)) p.2) .device 0 none) w
      else w

/-- A rebuild ends: its state, and its command's outcome. -/
def Work.endRebuild (w : Work) (i : Nat) (st : BitVec 3) (status res : Nat) : Work :=
  let s := w.rebuildSlot i
  let w1 := w.updRebuild i fun s => { s with st := st, cmd := none, chunk := [], pausing := false }
  match s.cmd with
  | some r => w1.finish r status res
  | none => w1

/-- A rebuild stands at a chunk boundary (R423): one that was called on to pause is paused there. -/
def RebuildSlot.atBoundary (s : RebuildSlot) : RebuildSlot :=
  { s with chunk := [], st := if s.pausing then 2 else s.st, pausing := false }

/-- A chunk has been combined: verified, it is written and counts; otherwise it is repeated (R422, R423). A rebuild that is paused resumes
from its recorded chunk (DESIGN CHOICE, log entry 77). -/
def Work.rebuildChunk (w : Work) (i : Nat) (verified : Bool) : Work :=
  let s := w.rebuildSlot i
  match (w.job s.q s.job).bind fun j => j.resil.map fun r => (j, r) with
  | none => w
  | some (j, r) =>
    if s.st = 2 then w.updRebuild i fun s => { s with st := 1 }
    else if s.st ≠ 1 then w
    else if !verified then w.updRebuild i RebuildSlot.atBoundary
    else
      let off := s.done.toNat * chunkBytes
      let n := min chunkBytes (r.shardBytes - off)
      let (c, w1) := w.putPieces s.q (w.rebuildParts s j r) off (s.chunk.readN off n)
      if c ≠ 0 then w1.endRebuild i 4 (0x200 + c.toNat) 0
      else
        let w2 := w1.updRebuild i fun s => { s.atBoundary with done := s.done + 1 }
        if s.done + 1 = s.total then w2.endRebuild i 3 0 s.total.toNat else w2

/-- Symbols named in a set. -/
def symbolsIn (b : BitVec 32) : Nat := (List.range 32).countP fun i => b.getLsbD i

/-- A rebuild learns of another loss in its group (R423): it pauses at its chunk boundary, and its factors are then those of the survivors
that remain. -/
def RebuildSlot.widen (s : RebuildSlot) (lost : BitVec 32) : RebuildSlot :=
  let s1 := { s with lost := lost, pausing := decide (s.st = 1) }
  if s.chunk.isEmpty then s1.atBoundary else s1

/-- The rebuild command (R422, R423, R455). Erasures beyond CODE_M stop every rebuild of the group with 0x0263; another
erasure within it joins those of the rebuilds of the group, which pause. With its four slots busy the device starts no rebuild. -/
def Work.startRebuild (w : Work) (q : Fin 8) (r : CmdRef) (e : BitVec 512) : Work :=
  let entry := cmdArg e 16 8
  let lost : BitVec 32 := BitVec.ofNat 32 (cmdArg e 24 4)
  let sym := cmdArg e 28 1
  match (w.job q (cmdJob e)).bind fun j => j.resil with
  | none => w.finish r 0x106 0
  | some rs =>
    if entry % 64 ≠ 0 ∨ 32 ≤ sym ∨ lost.getLsbD sym = false ∨ rs.codeK + rs.codeM ≤ sym then w.finish r 0x102 0
    else if !w.mapped q entry 64 then w.finish r 0x107 0
    else
      let ce := CodeEntry.ofBytes (w.peek q entry 64) (rs.codeK + rs.codeM)
      let g : BitVec 16 := BitVec.ofNat 16 ce.group
      let same := [0, 1, 2, 3].filter fun i =>
        let s := w.rebuildSlot i
        decide (s.q = q ∧ s.job = cmdJob e ∧ s.group = g ∧ (s.st = 1 ∨ s.st = 2))
      let all := same.foldl (fun l i => l ||| (w.rebuildSlot i).lost) lost
      if rs.codeM < symbolsIn all then
        (same.foldl (fun w i => w.endRebuild i 4 0x263 0) w).finish r 0x263 0
      else
        match [0, 1, 2, 3].find? fun i => decide ((w.rebuildSlot i).st ≠ 1 ∧ (w.rebuildSlot i).st ≠ 2) with
        | none => w
        | some i =>
          let w1 := same.foldl (fun w i => w.updRebuild i fun s => s.widen all) (w.markCmd r .started)
          let total := (rs.shardBytes + chunkBytes - 1) / chunkBytes
          w1.updRebuild i fun _ =>
            { q := q, lost := all, entry := entry, group := g, symbol := BitVec.ofNat 8 sym, st := 1, done := 0
              total := BitVec.ofNat 16 total, job := cmdJob e, cmd := some r, chunk := [], pausing := false }

end Sys2Proof.Machine
end

