-- ==== Sys2Proof/Machine/Flow.lean ====
section
/-! DEFINITION. Flows: what a packet does where it is delivered, acceptance, refusal, holding, acknowledgement, resending,
failure and reset, forwarding and multicast (R205, R276, R283-R288, R418, R536, R537). -/

namespace Sys2Proof.Machine

/-- What delivery of a packet comes to (R205, R285, R287): accepted; refused or failed with a status; a write held; or not
taken, so that its flow resends it (R324). -/
inductive Delivery where
  | accepted (w : Work)
  | refused (w : Work) (status : Byte)
  | held (w : Work)
  | undone (w : Work)

/-- A program of the job is loaded in the partition (R287). -/
def Work.jobLoaded (w : Work) (q : Fin 8) (job : BitVec 16) : Bool :=
  w.progs.any fun e => match e.2 with | some p => decide (p.q = q ∧ p.job = job) | none => false

/-- The codes that a packet's outcome may carry at memory (R287): an integrity failure; anything else is a refusal. -/
def packetStatus (c : Byte) : Byte := if c = 0x31 then 0x31 else 0x46

/-- A write packet's access to memory (R287): the alarm of R355 is raised by the write itself. -/
def Work.applyWrite (w : Work) (q : Fin 8) (k : Pkt) (ev : MemEvent) : Delivery :=
  let (c, w1) := w.hbmWrite q k.addr.toNat k.payload ev
  if c = 0 then .accepted w1 else .refused w1 (packetStatus c)

/-- A write packet (R205, R287): a write into a current weight buffer is rejected with 0x68, one into a previous buffer
waits for the count of its version. -/
def Work.deliverWrite (w : Work) (q : Fin 8) (k : Pkt) (ev : MemEvent) : Delivery :=
  let n := k.payload.length
  if !w.mapped q k.addr.toNat n then .refused w 0x46
  else
    match w.writeRole q k.addr.toNat n with
    | .current => .refused w 0x68
    | _ => if w.mustHold q k.addr.toNat n then .held w else w.applyWrite q k ev

/-- The slice whose stack holds a partition address. -/
def Work.sliceOfAddr (w : Work) (q : Fin 8) (a : Nat) : Fin 8 :=
  match w.translate q a with
  | some (pa, _) => partFin (pa / 2 ^ 36)
  | none => 0

/-- Read replies for a range (R284, R537): in the class and slot of the request, retained in the slice that holds the data;
after a failed read every later reply carries its code and no payload. -/
def Work.sendReplies (w : Work) (q : Fin 8) (k : Pkt) (tag : Nat) : Nat → Nat → Nat → Byte → MemEvent → Work
  | 0, _, _, _, _ => w
  | fuel + 1, off, left, code, ev =>
    if left = 0 then w
    else
      let n := min left 4096
      let a := k.addr.toNat + off
      let (g, w1) := if code ≠ 0 then (⟨code, []⟩, w) else w.hbmRead q a n ev
      let reply := { mkPkt k.src k.job 0x03 (BitVec.ofNat 64 (tag + off * 2 ^ 32)) (if g.code ≠ 0 then [] else g.bytes) with
        bestEffort := k.bestEffort, slot := k.slot, status := g.code }
      Work.sendReplies (w1.sendPkt q reply .device (w.sliceOfAddr q a) none) q k tag fuel (off + n) (left - n) g.code .ok

/-- A read request (R287, R537). -/
def Work.deliverReadReq (w : Work) (q : Fin 8) (k : Pkt) (ev : MemEvent) : Delivery :=
  let tag := leAt k.payload 0 4
  let n := leAt k.payload 4 4
  if !w.mapped q k.addr.toNat n then .refused w 0x46
  else .accepted (w.sendReplies q k tag (n / 4096 + 1) 0 n 0 ev)

/-- A read reply at the requester (R537): replies arrive in order; the range is written at sD when the last is here. -/
def Work.deliverReply (w : Work) (k : Pkt) : Work :=
  let tag : BitVec 32 := k.addr.setWidth 32
  match w.fab.reads.find? fun r => decide (r.tag = tag ∧ r.dev = k.src) with
  | none => w
  | some r =>
    if k.status ≠ 0 then w.remoteDone r.c r.id k.status
    else if bitsOf k.addr.toNat 32 24 ≠ r.data.length then w
    else
      let data := r.data ++ k.payload
      if data.length < r.bytes then
        { w with fab := { w.fab with
            reads := w.fab.reads.map fun (x : ReadReq) => if x.tag = r.tag ∧ x.dev = r.dev then { x with data := data } else x } }
      else
        let w1 := w.forgetRemote r.c r.id
        let w2 := match w1.instr r.c r.id with
          | some x => (match (w1.ctx r.c).range x.vd r.bytes with
            | .ok sp => (w1.spanWrite r.c sp (data.take r.bytes)).retire r.c x x.flag
            | .error _ => w1)
          | none => w1
        w2

/-- A program of the partition declares a sluice (R287). -/
def Work.declaredIn (w : Work) (q : Fin 8) (i : Nat) : Bool :=
  (w.sluice i).declared && (w.part q).dyke.sluices.getLsbD (i / 64)

/-- A sluice message at its home, or at the second home of a commit sluice (R94, R414, R536). -/
def Work.deliverSluice (w : Work) (q : Fin 8) (k : Pkt) : Delivery :=
  let i := bitsOf k.addr.toNat 0 14
  let op := SluiceOp.ofPayload k.payload
  if !w.declaredIn q i then .refused w 0x46
  else if !w.remoteSluice i then .accepted (w.applySluice i op)
  else
    match op, w.job q k.job with
    | .signal g n, some j => if w.isHome2 j && decide (j.commitSluice = some i) then .accepted (w.home2Signal q k.job g n.toNat)
        else .accepted w
    | _, _ => .accepted w

/-- A publication at a member (R94, R416, R536): the state of the highest FRAME stands; an outcome is learned. -/
def Work.deliverPublication (w : Work) (q : Fin 8) (k : Pkt) : Delivery :=
  let i := bitsOf k.addr.toNat 0 14
  if !w.declaredIn q i then .refused w 0x46
  else
    let b := k.payload
    let w1 := if (w.sluice i).pubFrame.toNat ≤ k.frame.toNat ∧ w.remoteSluice i = true then
        w.updSluice i fun s => { s with count := BitVec.ofNat 32 (leAt b 0 4), target := BitVec.ofNat 32 (leAt b 4 4)
                                        gen := BitVec.ofNat 16 (leAt b 8 2), pubFrame := k.frame }
      else w
    let out := leAt b 10 1 % 4
    let d : Decision := ⟨BitVec.ofNat 64 (leAt b 16 8), BitVec.ofNat 16 (leAt b 8 2), decide (out = 1), BitVec.ofNat 8 (leAt b 11 1)⟩
    match w1.job q k.job with
    | some j => if (out = 1 ∨ out = 2) ∧ j.commitSluice = some i then .accepted (w1.learn q k.job d) else .accepted w1
    | none => .accepted w1

/-- What a packet does where it is delivered, by KIND (R282, R287). A KIND the table does not list does nothing
(DESIGN CHOICE, log entry 34). -/
def Work.deliver (w : Work) (q : Fin 8) (p : Fin 32) (k : Pkt) (ev : MemEvent) : Delivery :=
  if !w.jobLoaded q k.job then .refused w 0x46
  else if k.kind = 0x01 then w.deliverWrite q k ev
  else if k.kind = 0x02 then w.deliverReadReq q k ev
  else if k.kind = 0x03 then .accepted (w.deliverReply k)
  else if k.kind = 0x06 then w.deliverSluice q k
  else if k.kind = 0x07 then w.deliverPublication q k
  else if k.kind = 0x0B then .accepted (w.abortPacket q k)
  else if k.kind = 0x0C then .accepted (w.codeDelta q k)
  else if k.kind = 0x0D then .accepted (w.rebuildPacket q k)
  else if k.kind = 0x0E then
    (if w.declaredIn q (bitsOf k.addr.toNat 0 14) then .accepted (w.holdDecision q k.job k.payload) else .refused w 0x46)
  else if 0x10 ≤ k.kind.toNat ∧ k.kind.toNat ≤ 0x1F then
    match w.redPacket q p.val k ev with
    | some w1 => .accepted (w1.redUnhold ev)
    | none => .undone w
  else .accepted w

/-- The ports of a multicast group, and whether it delivers here (R288, R302). -/
def Work.mcastEntry (w : Work) (g : BitVec 16) : McastEnt := w.fab.mcast.get .zero (g.toNat % 4096)

/-- The number below which the local delivery and every branch of a multicast flow have accepted (R288). -/
def Work.mcastFloor (w : Work) (key : FlowKey) : Word :=
  let e := w.mcastEntry key.peer
  let here := (w.recvFlow key).e
  let branch := fun (p : Nat) =>
    ((w.fab.memberAcks.find? fun a => decide (a.1 = key ∧ a.2.2.val = p)).map fun a => a.2.1).getD 0
  let l := (if e.isLocal then [here] else []) ++ ((List.range 32).filter fun p => e.ports.getLsbD p).map branch
  match l with
  | [] => here
  | x :: xs => xs.foldl (fun m y => if y.toNat < m.toNat then y else m) x

/-- An ACK or NAK for a flow (R285, R288): to the flow's source, or for a multicast flow upstream by the port the flow
comes by. -/
def Work.sendAck (w : Work) (key : FlowKey) (kind : Byte) (e : Word) (status : Byte) (held : Bool) : Work :=
  if key.mcast then
    w.sendLoose key.q { mkPkt (w.mcastEntry key.peer).source 0 kind (BitVec.ofNat 64 (key.peer.toNat % 4096)) [] with
      bestEffort := key.bestEffort, mcast := true, seq := e, status := status, held := held } (some (w.recvFlow key).up)
  else
    w.sendLoose key.q { mkPkt key.peer 0 kind 0 [] with
      bestEffort := key.bestEffort, seq := e, status := status, held := held } none

/-- The cumulative ACK of a flow (R285, R288): with HELD while a write is held at E. -/
def Work.ackFlow (w : Work) (key : FlowKey) : Work :=
  let f := w.recvFlow key
  let e := if key.mcast then w.mcastFloor key else f.e
  (w.setRecv key { f with delivered := 0 }).sendAck key 0x04 e 0 (f.heldWrite.isSome && f.e == e)

/-- The packet at E has been dealt with (R285): E passes it; the 32nd delivery since the last ACK sends one, and a status
goes in an ACK of its own. -/
def Work.passE (w : Work) (key : FlowKey) (status : Byte) : Work :=
  let f := w.recvFlow key
  let f1 := { f with e := f.e + 1, nakDue := false, heldWrite := none, delivered := if status = 0 then f.delivered + 1 else f.delivered }
  let w1 := w.setRecv key f1
  if status ≠ 0 then w1.sendAck key 0x04 f1.e status false
  else if 32 ≤ f1.delivered then w1.ackFlow key else w1

/-- The packet at E is delivered: the state after, and whether the flow goes on to E + 1. -/
def Work.deliverAtE (w : Work) (key : FlowKey) (p : Fin 32) (k : Pkt) (ev : MemEvent) : Work × Bool :=
  match w.deliver key.q p k ev with
  | .accepted w1 => (w1.passE key 0, true)
  | .refused w1 st => (w1.passE key st, true)
  | .held w1 =>
    let w2 := w1.setRecv key { w1.recvFlow key with heldWrite := some (p, k), nakDue := false }
    let w3 : Work := { w2 with heldWrites := w2.heldWrites ++ [⟨key.q, p, k⟩] }
    (w3.ackFlow key, false)
  | .undone w1 => (w1, false)

/-- Packets held out of order that have become deliverable are delivered in order (R285), and leave the Mere. -/
def Work.drainEarly (w : Work) (key : FlowKey) : Nat → Work
  | 0 => w
  | fuel + 1 =>
    let f := w.recvFlow key
    if f.heldWrite.isSome then w
    else
      match f.early.find? fun x => decide (x.pkt.seq = f.e) with
      | none => w
      | some x =>
        let w1 := w.setRecv key { f with early := f.early.filter fun y => decide (y.pkt.seq ≠ f.e) }
        let r := (w1.inHand x.hold).deliverAtE key x.port x.pkt .ok
        let w2 := r.1.settleHold
        if r.2 then Work.drainEarly w2 key fuel else w2

/-- Bytes that the reorder buffer of a fabric die holds (R285). -/
def Work.reorderBytes (w : Work) (die : Nat) : Nat :=
  w.fab.recv.foldl (fun n e => e.2.early.foldl (fun n x =>
    if x.port.val / 16 = die ∧ (w.port x.port.val).longHaul = false then n + 32 + x.pkt.payload.length else n) n) 0

/-- Room for a packet out of order: in the Mere behind a long-haul port, else in the 8 MiB reorder buffer (R285). -/
def Work.reorderRoom (w : Work) (p : Fin 32) (k : Pkt) : Bool :=
  (w.port p.val).longHaul || decide (w.reorderBytes (p.val / 16) + 32 + k.payload.length ≤ 8388608)

/-- A packet reaches its flow (R285): a duplicate is acknowledged, the packet at E is delivered with what has waited
behind it, a later one is held within 4,096. -/
def Work.receive (w : Work) (key : FlowKey) (p : Fin 32) (k : Pkt) (ev : MemEvent) : Work :=
  let w0 := w.setRecv key { w.recvFlow key with up := p }
  let f := w0.recvFlow key
  if k.seq.toNat < f.e.toNat then w0.ackFlow key
  else if k.seq = f.e then
    if f.heldWrite.isSome then w0.ackFlow key
    else
      let (w1, go) := w0.deliverAtE key p k ev
      if go then w1.settleHold.drainEarly key (f.early.length + 1) else w1
  else if k.seq.toNat < f.e.toNat + 4096 then
    if f.early.any fun x => decide (x.pkt.seq = k.seq) then w0
    else if w0.reorderRoom p k then
      let stays := (w0.port p.val).longHaul
      (if stays then w0.unhand else w0).setRecv key
        { f with early := f.early ++ [⟨p, k, if stays then w0.fab.hold else none⟩], nakDue := f.heldWrite.isNone }
    else w0
  else w0

/-- A packet on its way leaves by its next hop (R276): HOPS increases; at 8 it is discarded and logged, and without a route
or an ACTIVE port it is discarded. No code is assigned (DESIGN CHOICE, log entry 15). -/
def Work.forward (w : Work) (q : Fin 8) (k : Pkt) (port : Option Nat) : Work :=
  if 7 ≤ k.hops.toNat then
    w.logEv (unitId 2 0 0xFF) 0x04FF 1 (partByte q) (k.dest.toNat + k.src.toNat * 2 ^ 16 + k.job.toNat * 2 ^ 32)
  else
    let k' := { k with hops := k.hops + 1 }
    match port with
    | some p => w.unhand.transmit (portFin p) ⟨k', w.fab.hold⟩
    | none =>
      if !(w.route q k.dest).valid then w
      else match w.choosePort q k.dest (!Pkt.scheduled k) k'.hops.toNat with
        | some p => w.unhand.transmit (portFin p) ⟨k', w.fab.hold⟩
        | none => w.countNoRoute

/-- A multicast packet at a device of its group (R288): copied to every listed port, and delivered when LOCAL is set. -/
def Work.mcastArrive (w : Work) (q : Fin 8) (p : Fin 32) (k : Pkt) (ev : MemEvent) : Work :=
  let e := w.mcastEntry k.dest
  if e.valid = false ∨ e.part.toNat ≠ q.val then w
  else
    let key := pktFlowIn k q
    let w1 := w.setRecv key { w.recvFlow key with up := p }
    let w2 := (List.range 32).foldl (fun w i =>
      if w.copiesTo q e i then w.forward q k (some i) else w) w1
    if e.isLocal then w2.receive key p k ev else w2

/-- A packet arrives by a port that is ACTIVE (R276, R288): multicast, for this device, or on its way. -/
def Work.arrive (w : Work) (p : Fin 32) (k : Pkt) (ev : MemEvent) : Work :=
  let po := w.port p.val
  if !(po.isActive && po.assigned) then w
  else if k.mcast then w.mcastArrive po.part p k ev
  else if k.dest = w.time.address then w.receive (pktFlowIn k po.part) p k ev
  else w.forward po.part k none

/-- The partition of a packet that is on its way within this device (R276). -/
def Work.looped (w : Work) (k : Pkt) : Option (Fin 8) := (w.fab.loop.find? fun e => decide (e.2 = k)).map (·.1)
/-- A packet on its way within this device is taken off. -/
def Work.unloop (w : Work) (q : Fin 8) (k : Pkt) : Work := { w with fab := { w.fab with loop := w.fab.loop.erase (q, k) } }

/-- The number of a packet's first flit (R361): above that of the last packet, since a flit holds at most one start. -/
def Port.number (p : Port) (a : RxPkt) : Word := extendSeq p.rxPkt a.seq

/-- The keys that a packet's number names (R363). -/
def Port.rxKeys (p : Port) (n : Word) : Option (List Byte) := if p.rxFirst.toNat ≤ n.toNat then p.linkKey else p.oldKey

/-- A packet's tag verifies (R361, R363). -/
def Work.tagOk (w : Work) (p : Nat) (a : RxPkt) : Bool :=
  let po := w.port p
  match po.rxKeys (po.number a) with
  | some keys => decide (a.tag = pktTag keys (!w.initiator p) (po.number a) a.pkt)
  | none => false

/-- A best-effort packet takes room in the receive buffer of its port (R279): of its channel's reserve, or else of the shared pool, as
its sender counts it. -/
def Work.takeRoom (w : Work) (p : Fin 32) (a : RxPkt) : Work :=
  if Pkt.scheduled a.pkt then w
  else
    let po := w.port p.val
    let h := a.pkt.hops.toNat
    let n := if po.longHaul then (pktCharge a.start a.pkt + 63) / 64 else pktCharge a.start a.pkt
    let sh := decide ((if po.longHaul then 1 else 64) < po.rxRes.get 0 h + n)
    (w.updPort p.val fun y =>
      { y with rxRes := if sh then y.rxRes else y.rxRes.upd 0 h (· + n), rxShared := if sh then y.rxShared + n else y.rxShared }).inHand
      (some ⟨p, w.portEpoch p.val, h, sh, n⟩)

/-- A long-haul port has lost a flit in which a packet has bytes (R273). -/
def Port.cuts (p : Port) (a : RxPkt) : Bool :=
  let n := (p.number a).toNat
  p.cut.any fun r => decide (r.1.toNat < n + pktSpan a.start a.pkt ∧ n < r.2.toNat)

/-- A packet that has verified is noted at its port (R361, R363): the old keys are erased once it came under the new ones. -/
def Port.noteRx (p : Port) (a : RxPkt) : Port :=
  let n := p.number a
  { p with rxPkt := n, oldKey := if p.rxFirst.toNat ≤ n.toNat then none else p.oldKey
           cut := p.cut.filter fun r => decide (n.toNat < r.2.toNat) }

/-- A packet that has verified takes its room, is acted on unless a flit of it was lost, and leaves the room unless it waits (R273,
R279). -/
def Work.fromLink (w : Work) (p : Fin 32) (a : RxPkt) (act : Work → Work) : Work :=
  let w1 := (w.takeRoom p a).updPort p.val fun y => y.noteRx a
  (if (w.port p.val).cuts a then w1 else act w1).settleHold

/-- The rows that carry a packet of one KIND for this device. -/
def Work.isFor (w : Work) (k : Pkt) (kinds : List Nat) : Bool :=
  kinds.contains k.kind.toNat && (k.mcast || decide (k.dest = w.time.address))

/-- A retained packet's outcome reaches what sent it (R84, R286, R287, R326, R415): an instruction's remote completion; the
results at OWNER, or a bucket whose way is lost; HOME2's hold on a decision. -/
def Work.settle (w : Work) (q : Fin 8) (r : Retained) (status : Byte) : Work :=
  match r.owner with
  | .instr c id => w.remoteDone c id status
  | .device =>
    if r.pkt.kind = 0x0E then w.decisionSettled q r.pkt.job (decide (status = 0)) else w
  | .bucket job bucket =>
    match w.redCtx job bucket with
    | none => w
    | some b =>
      let result := decide (r.pkt.kind = 0x12) && b.desc.toOwner && b.node.root
      if status = 0 then
        if result && decide (b.phase = .waiting) && !w.redOwes job bucket b.desc.owner then w.redSucceed job bucket b else w
      else if result then (if b.ended then w else (w.redEnd job bucket b true false 0x47).redUnhold)
      else if r.pkt.kind = 0x10 ∨ r.pkt.kind = 0x11 then w.redFail job bucket true
      else w

/-- The retained packets of a flow that a test selects leave retention, each with its outcome, oldest first. -/
def Work.release (w : Work) (key : FlowKey) (test : Retained → Bool) (status : Byte) : Work :=
  let f := w.sendFlow key
  let gone := f.retained.filter test
  let w1 := w.setSend key { f with retained := f.retained.filter fun r => !test r, resends := if gone.isEmpty then f.resends else 0 }
  gone.foldl (fun w r => w.settle key.q r status) w1

/-- A branch of a multicast flow has accepted some packets: they wait for it no more (R288). -/
def Work.branchAccepts (w : Work) (key : FlowKey) (p : Fin 32) (test : Retained → Bool) : Work :=
  let f := w.sendFlow key
  let kept := f.retained.map fun (r : Retained) =>
    if test r then { r with waiting := r.waiting.filter fun x => decide (x ≠ p) } else r
  w.setSend key { f with retained := kept }

/-- An ACK at the flow's source (R285-R288): every packet below E is accepted, or the one packet E - 1 has a status; HELD
stops the timer. -/
def Work.takeAck (w : Work) (key : FlowKey) (p : Fin 32) (k : Pkt) : Work :=
  let w0 := w.setSend key { w.sendFlow key with held := k.held }
  let below := fun (r : Retained) =>
    if k.status = 0 then decide (r.pkt.seq.toNat < k.seq.toNat) else decide (r.pkt.seq + 1 = k.seq)
  if key.mcast then
    let w1 := if k.status = 0 then w0
      else (w0.sendFlow key).retained.foldl (fun w r => if below r then w.settle key.q r k.status else w) w0
    (w1.branchAccepts key p below).release key (fun r => below r && r.waiting.isEmpty) 0
  else w0.release key below k.status

/-- A branch's ACK at a device that relays the multicast (R288): noted, and passed on when the floor of the group moves; a
status or a hold at the floor is passed on as it is. -/
def Work.relayAck (w : Work) (key : FlowKey) (p : Fin 32) (k : Pkt) : Work :=
  if k.status ≠ 0 then w.sendAck key 0x04 k.seq k.status false
  else
    let old := w.mcastFloor key
    let w1 : Work := { w with fab := { w.fab with
      memberAcks := (key, k.seq, p) :: w.fab.memberAcks.filter fun a => !decide (a.1 = key ∧ a.2.2 = p) } }
    let e := w1.mcastFloor key
    if old.toNat < e.toNat ∨ k.held = true then w1.sendAck key 0x04 e 0 (k.held && k.seq == e) else w1

/-- A routing entry has become invalid under packets that an instruction still has out: no route at hop 0 (R276, 0x41). They stay in
retention. -/
def Work.routeLost (w : Work) (key : FlowKey) (rs : List Retained) : Work :=
  if key.mcast || decide (key.peer = w.time.address) || (w.route key.q key.peer).valid then w
  else rs.foldl (fun w r => match r.owner, r.port with | .instr c id, none => w.remoteDone c id 0x41 | _, _ => w) w

/-- Every retained packet of a flow is sent again, from the oldest, with the retransmission bit (R286). -/
def Work.resendAll (w : Work) (key : FlowKey) : Work :=
  let f := w.sendFlow key
  (f.retained).foldl (fun w r => w.launch key.q { r.pkt with retx := true } r.port)
    ((w.setSend key { f with resends := f.resends + 1 }).routeLost key f.retained)

/-- A flow fails (R286, R415, R418): its retained packets complete with 0x45, a flow reset carries the next unused number,
and a second home that loses its home takes note. The reset itself is no packet of the flow (DEDUCED, log entry 35). -/
def Work.failFlow (w : Work) (key : FlowKey) : Work :=
  let f := w.sendFlow key
  let job := (f.retained.head?.map fun r => r.pkt.job).getD 0
  let w1 := (w.setSend key { f with retained := [], resends := 0, held := false })
  let w2 := f.retained.foldl (fun w r => w.settle key.q r 0x45) w1
  let reset := { mkPkt key.peer job 0x09 0 [] with bestEffort := key.bestEffort, mcast := key.mcast, seq := f.next }
  let w3 := if key.mcast then w2.launch key.q { reset with src := w.time.address, frame := BitVec.ofNat 32 w.frame } none
    else w2.sendLoose key.q reset none
  if key.mcast then w3
  else (w3.jobsOf key.q).foldl (fun w j =>
    match w.job key.q j with
    | some b => if w.isHome2 b && decide (w.homeOf b = key.peer) then w.updCommit key.q j fun c => { c with homeLost := true } else w
    | none => w) w3

/-- A NAK or an expired timer (R286): the retained packets are resent, eight times at most. -/
def Work.flowAgain (w : Work) (key : FlowKey) : Work :=
  let f := w.sendFlow key
  if f.retained.isEmpty then w
  else if 8 ≤ f.resends then w.failFlow key else w.resendAll key

/-- The flow that an ACK or NAK answers, seen from its source (R285). -/
def ackKey (k : Pkt) (q : Fin 8) : FlowKey :=
  ⟨q, if k.mcast then BitVec.ofNat 16 (k.addr.toNat % 4096) else k.src, k.bestEffort, k.mcast⟩

/-- An ACK or NAK at its flow's source (R285, R286). -/
def Work.ackHere (w : Work) (q : Fin 8) (p : Fin 32) (k : Pkt) : Work :=
  if k.kind = 0x05 then w.flowAgain (ackKey k q) else w.takeAck (ackKey k q) p k

/-- An ACK or NAK arrives by a port (R285, R286, R288): at the flow's source, at a relay of its group, or on its way. -/
def Work.ackByPort (w : Work) (p : Fin 32) (k : Pkt) : Work :=
  let po := w.port p.val
  let key := ackKey k po.part
  if !(po.isActive && po.assigned) then w
  else if k.dest = w.time.address then w.ackHere po.part p k
  else if k.mcast && (w.mcastEntry key.peer).valid && (w.mcastEntry key.peer).ports.getLsbD p.val then
    if k.kind = 0x05 then w.sendAck key 0x05 k.seq 0 false else w.relayAck key p k
  else w.forward po.part k none

/-- A flow reset (R286): E becomes its number and what is held for the flow is discarded. A bucket with an included input
whose flow has failed fails with it (R322). -/
def Work.resetFlow (w0 : Work) (q : Fin 8) (k : Pkt) : Work :=
    let key := pktFlowIn k q
    let f := w0.recvFlow key
    let wBack := (f.early.filterMap (·.hold)).foldl Work.giveBack w0
    let w1 := wBack.setRecv key { f with e := k.seq, early := [], nakDue := false, heldWrite := none, delivered := 0 }
    let still := w1.heldWrites.filter fun (h : HeldWrite) => !decide (h.q = key.q ∧ f.heldWrite = some (h.port, h.pkt))
    let w2 : Work := { w1 with heldWrites := still }
    if k.mcast then w2
    else w2.red.ctxs.foldl (fun w e =>
      let job : BitVec 16 := BitVec.ofNat 16 (e.1 / 65536)
      let bucket : BitVec 16 := BitVec.ofNat 16 e.1
      match w.redCtx job bucket with
      | some b =>
        let from_ := b.node.downs.filter fun d => decide ((w.port d).peer = k.src)
        let waits := from_.any fun d =>
          match b.inputs.get none d with
          | some i => decide (i.pieces.length < 2 * b.chunks) && (b.inclusion.isNone || b.includes d)
          | none => false
        if b.q = key.q ∧ waits = true then w.redFail job bucket false else w
      | none => w) w2

/-- A flow reset arrives by a port (R286, R288): for this device, for a multicast group, or on its way. -/
def Work.resetByPort (w : Work) (p : Fin 32) (k : Pkt) : Work :=
  let po := w.port p.val
  if !(po.isActive && po.assigned) then w
  else if !k.mcast && decide (k.dest ≠ w.time.address) then w.forward po.part k none
  else
    (if k.mcast then
        (List.range 32).foldl (fun w i =>
          if w.copiesTo po.part (w.mcastEntry k.dest) i then w.forward po.part k (some i) else w) w
      else w).resetFlow po.part k

/-- A held write whose version's count has reached zero is written and acknowledged, and its flow goes on (R205, R285); after the held
writes of the partition, `i` numbers its deliveries of reductions that wait. -/
def Work.releaseHeld (w : Work) (q : Fin 8) (i : Nat) (ev : MemEvent) : Work :=
  let mine := w.heldWrites.filter fun h => decide (h.q = q)
  match mine[i]? with
  | none => match (w.redWaiting q)[i - mine.length]? with | some e => w.redUnwait e ev | none => w
  | some h =>
    let key := pktFlowIn h.pkt q
    if w.mustHold q h.pkt.addr.toNat h.pkt.payload.length then w
    else
      let w1 : Work := { w with heldWrites := w.heldWrites.filter fun x => decide (x ≠ h) }
      let (c, w2) := w1.hbmWrite q h.pkt.addr.toNat h.pkt.payload ev
      let w3 := w2.passE key (if c = 0 then 0 else packetStatus c)
      (if c = 0 then w3.ackFlow key else w3).drainEarly key ((w3.recvFlow key).early.length + 1)

end Sys2Proof.Machine
end

