-- ==== Sys2Proof/Machine/Scalar.lean ====
section
/-! DEFINITION. The scalar group, opcodes 0x00-0x1A (R117-R119). -/

namespace Sys2Proof.Machine

/-- sD written, and the instruction complete. -/
def putS (w : Work) (c : CtxId) (x : InFlight) (v : Word) : Effect := .done (w.setSreg c (fieldNum x.f.d) v)

/-- sB, or sign-extended IMM when MOD[0] is 1 (R117). -/
def srcB (x : InFlight) : Word := if modBit x.f 0 then immS x.f else x.vb

/-- One as a word if a condition holds. -/
def boolWord (b : Bool) : Word := if b then 1 else 0

/-- `nop` (R117). -/
def effNop (w : Work) (_ : CtxId) (_ : InFlight) : Effect := .done w
/-- `s.add` (R117). -/
def effSAdd (w : Work) (c : CtxId) (x : InFlight) : Effect := putS w c x (x.va + srcB x)
/-- `s.sub` (R117). -/
def effSSub (w : Work) (c : CtxId) (x : InFlight) : Effect := putS w c x (x.va - srcB x)
/-- `s.and` (R117). -/
def effSAnd (w : Work) (c : CtxId) (x : InFlight) : Effect := putS w c x (x.va &&& srcB x)
/-- `s.or` (R117). -/
def effSOr (w : Work) (c : CtxId) (x : InFlight) : Effect := putS w c x (x.va ||| srcB x)
/-- `s.xor` (R117). -/
def effSXor (w : Work) (c : CtxId) (x : InFlight) : Effect := putS w c x (x.va ^^^ srcB x)
/-- `s.shl` (R117): only bits [5:0] of the count. -/
def effSShl (w : Work) (c : CtxId) (x : InFlight) : Effect := putS w c x (x.va <<< ((srcB x).toNat % 64))
/-- `s.shr` (R117). -/
def effSShr (w : Work) (c : CtxId) (x : InFlight) : Effect := putS w c x (x.va >>> ((srcB x).toNat % 64))
/-- `s.sra` (R117). -/
def effSSra (w : Work) (c : CtxId) (x : InFlight) : Effect := putS w c x (x.va.sshiftRight ((srcB x).toNat % 64))
/-- `s.mul` (R117). -/
def effSMul (w : Work) (c : CtxId) (x : InFlight) : Effect := putS w c x (x.va * x.vb)
/-- `s.mulh` (R117): the high half of the signed product. -/
def effSMulh (w : Work) (c : CtxId) (x : InFlight) : Effect :=
  putS w c x (BitVec.ofInt 64 (x.va.toInt * x.vb.toInt / 2 ^ 64))
/-- The signed quotient truncated toward zero, −1 for a zero divisor (R118). -/
def sQuot (a b : Word) : Word := if b = 0 then -1 else BitVec.ofInt 64 (a.toInt.tdiv b.toInt)
/-- The signed remainder with the dividend's sign, the dividend for a zero divisor (R118). -/
def sRemainder (a b : Word) : Word := if b = 0 then a else BitVec.ofInt 64 (a.toInt.tmod b.toInt)
/-- `s.div` (R118). -/
def effSDiv (w : Work) (c : CtxId) (x : InFlight) : Effect := putS w c x (sQuot x.va x.vb)
/-- `s.rem` (R118). -/
def effSRem (w : Work) (c : CtxId) (x : InFlight) : Effect := putS w c x (sRemainder x.va x.vb)
/-- `s.li` (R117). -/
def effSLi (w : Work) (c : CtxId) (x : InFlight) : Effect := putS w c x (immS x.f)
/-- `s.ins` (R117): IMM into the 16-bit field k = MOD[1:0]. -/
def effSIns (w : Work) (c : CtxId) (x : InFlight) : Effect :=
  let k := 16 * modBits x.f 0 2
  putS w c x ((x.vd &&& ~~~((0xFFFF : Word) <<< k)) ||| (x.f.imm.setWidth 64 <<< k))
/-- `s.slt` (R117). -/
def effSSlt (w : Work) (c : CtxId) (x : InFlight) : Effect := putS w c x (boolWord (x.va.slt (srcB x)))
/-- `s.sltu` (R117). -/
def effSSltu (w : Work) (c : CtxId) (x : InFlight) : Effect := putS w c x (boolWord (x.va.ult (srcB x)))

/-- The 8-byte range of `s.ld` and `s.st` at sA + IMM (R117): misaligned gives 0x0A, then the bounds. -/
def scalarSpan (k : Ctx) (x : InFlight) : Except OpFault Span :=
  let a := (x.va + immS x.f).toNat
  if a % 8 ≠ 0 then .error (0x0A, a)
  else match k.span (modBit x.f 1) a 8 with
    | .bad code o => .error (code, o)
    | s => .ok s

/-- `s.ld` (R117). -/
def effSLd (w : Work) (c : CtxId) (x : InFlight) : Effect :=
  withOp w (scalarSpan (w.ctx c) x) fun s => putS w c x (BitVec.ofNat 64 (leNat (w.spanRead c s 8)))
/-- `s.st` (R117). -/
def effSSt (w : Work) (c : CtxId) (x : InFlight) : Effect :=
  withOp w (scalarSpan (w.ctx c) x) fun s => .done (w.spanWrite c s (leBytes 8 x.vb.toNat))

/-- The cores of a context's cluster that are present (R119 selector 10). -/
def Work.presentCores (w : Work) (c : CtxId) : Nat :=
  (List.range 8).foldl (fun n p =>
    if (w.slice c.slice.val).coreAbsent.getLsbD (c.core.val / 8 * 8 + p) then n else n + 2 ^ p) 0

/-- The system value of a selector (R119). -/
def Work.sysValue (w : Work) (c : CtxId) (sel : Nat) : Nat :=
  let k := w.ctx c
  let pe := (w.slice c.slice.val).peat
  match sel with
  | 0 => w.time.ftime.toNat
  | 1 => w.frame
  | 2 => k.segment
  | 3 => w.lateness c
  | 4 => k.latStep
  | 5 => laneFill pe.laneA
  | 6 => laneFill pe.laneB
  | 7 => k.latBuf.toNat
  | 8 => pointMhz w.time.point
  | 9 => k.laneSat.toNat
  | 10 => w.presentCores c
  | _ => 0

/-- `s.sys` (R119): selector 9 clears LANE_SAT. -/
def effSSys (w : Work) (c : CtxId) (x : InFlight) : Effect :=
  let sel := x.f.imm.toNat
  let v := BitVec.ofNat 64 (w.sysValue c sel)
  let w1 := if sel = 9 then w.updCtx c fun k => { k with laneSat := false } else w
  putS w1 c x v

/-- A branch resolves at its dispatch (R117): the target, 8 × IMM bytes from the PC; the 24-bit PC of the record and the
check against IMAGE_SIZE see the 64-bit sum. -/
def branchTarget (pc : Nat) (f : Fields) : Nat := (BitVec.ofNat 64 pc + immS f * 8).toNat

/-- The next PC of an instruction dispatched at `pc` (R117): the branch target when the branch is taken. -/
def nextPc (op : KOp) (f : Fields) (pc : Nat) (a b : Word) : Nat :=
  match op with
  | .br => branchTarget pc f
  | .beq => if a = b then branchTarget pc f else pc + 8
  | .bne => if a ≠ b then branchTarget pc f else pc + 8
  | .blt => if a.slt b then branchTarget pc f else pc + 8
  | .bge => if a.slt b then pc + 8 else branchTarget pc f
  | .bltu => if a.ult b then branchTarget pc f else pc + 8
  | .jr => a.toNat
  | _ => pc + 8

/-- `br` (R117): the link, sD = PC + 8; the PC moved at dispatch. -/
def effBr (w : Work) (c : CtxId) (x : InFlight) : Effect := putS w c x (BitVec.ofNat 64 (x.pc + 8))
/-- `beq` (R117): complete once dispatched. -/
def effBeq (w : Work) (_ : CtxId) (_ : InFlight) : Effect := .done w
/-- `bne` (R117). -/
def effBne (w : Work) (_ : CtxId) (_ : InFlight) : Effect := .done w
/-- `blt` (R117). -/
def effBlt (w : Work) (_ : CtxId) (_ : InFlight) : Effect := .done w
/-- `bge` (R117). -/
def effBge (w : Work) (_ : CtxId) (_ : InFlight) : Effect := .done w
/-- `bltu` (R117). -/
def effBltu (w : Work) (_ : CtxId) (_ : InFlight) : Effect := .done w
/-- `jr` (R117): the link. -/
def effJr (w : Work) (c : CtxId) (x : InFlight) : Effect := putS w c x (BitVec.ofNat 64 (x.pc + 8))

end Sys2Proof.Machine
end

