-- ==== Sys2Proof/Machine/Kraif.lean ====
section
/-! DEFINITION. The opcodes of Kraif (R110, R117, R120, R124, R128, R131, R134), the instruction word (R107), and the effect
of each operation. -/

namespace Sys2Proof.Machine

/-- The opcode byte of an operation (R110). -/
def KOp.opcode : KOp → Byte
  | .nop => 0x00
  | .sAdd => 0x01
  | .sSub => 0x02
  | .sAnd => 0x03
  | .sOr => 0x04
  | .sXor => 0x05
  | .sShl => 0x06
  | .sShr => 0x07
  | .sSra => 0x08
  | .sMul => 0x09
  | .sMulh => 0x0A
  | .sDiv => 0x0B
  | .sLi => 0x0C
  | .sIns => 0x0D
  | .sSlt => 0x0E
  | .sSltu => 0x0F
  | .sLd => 0x10
  | .sSt => 0x11
  | .sRem => 0x12
  | .sSys => 0x13
  | .br => 0x14
  | .beq => 0x15
  | .bne => 0x16
  | .blt => 0x17
  | .bge => 0x18
  | .bltu => 0x19
  | .jr => 0x1A
  | .mmfBi8 => 0x20
  | .mmfBi4 => 0x21
  | .mmfBi16x8 => 0x22
  | .mmfBi16 => 0x23
  | .mmbxBi8 => 0x40
  | .mmbxBi4 => 0x41
  | .mmbxBi16x8 => 0x42
  | .mmbxBi16 => 0x43
  | .mmbwBi8 => 0x44
  | .mmbwBi4 => 0x45
  | .mmbwBi16x8 => 0x46
  | .mmbwBi16 => 0x47
  | .accZero => 0x30
  | .accZeroB => 0x50
  | .accDrain => 0x31
  | .accDrainB => 0x51
  | .accMax => 0x32
  | .accMaxB => 0x52
  | .accMin => 0x33
  | .accMinB => 0x53
  | .vadd => 0x60
  | .vsub => 0x61
  | .vmul => 0x62
  | .vmulsh => 0x63
  | .vmax => 0x64
  | .vmin => 0x65
  | .vabs => 0x66
  | .vneg => 0x67
  | .vand => 0x68
  | .vor => 0x69
  | .vxor => 0x6A
  | .vshl => 0x6B
  | .vsra => 0x6C
  | .vcmp => 0x6D
  | .vsel => 0x6E
  | .vbcast => 0x6F
  | .vins => 0x70
  | .vext => 0x71
  | .vld => 0x72
  | .vst => 0x73
  | .vtget => 0x74
  | .vtput => 0x75
  | .vfn => 0x76
  | .vredRow => 0x77
  | .vredCol => 0x78
  | .vcvt => 0x79
  | .vunpk => 0x7A
  | .vrng => 0x7B
  | .vnoise => 0x7C
  | .vstat => 0x7D
  | .dmaGet => 0xA0
  | .dmaPut => 0xA1
  | .dmaCopy => 0xA2
  | .dmaFill => 0xA3
  | .tLd => 0xA4
  | .tSt => 0xA5
  | .peatPush => 0xA6
  | .peatPop => 0xA7
  | .fabPut => 0xA8
  | .fabGet => 0xA9
  | .fabMcast => 0xAA
  | .slArm => 0xD0
  | .slSig => 0xD1
  | .slWait => 0xD2
  | .lfWait => 0xD3
  | .lfClr => 0xD4
  | .frameEnd => 0xD5
  | .ctxFence => 0xD6
  | .redOpen => 0xD7
  | .redContrib => 0xD8
  | .redClose => 0xD9
  | .stepCommit => 0xDA
  | .sclPin => 0xDB
  | .rngSet => 0xDC

/-- Every assigned operation, in opcode-table order (R110). -/
def allKOps : List KOp := List.flatten [
  [.nop, .sAdd, .sSub, .sAnd, .sOr, .sXor, .sShl, .sShr, .sSra, .sMul, .sMulh, .sDiv],
  [.sLi, .sIns, .sSlt, .sSltu, .sLd, .sSt, .sRem, .sSys, .br, .beq, .bne, .blt],
  [.bge, .bltu, .jr, .mmfBi8, .mmfBi4, .mmfBi16x8, .mmfBi16, .mmbxBi8, .mmbxBi4, .mmbxBi16x8, .mmbxBi16, .mmbwBi8],
  [.mmbwBi4, .mmbwBi16x8, .mmbwBi16, .accZero, .accZeroB, .accDrain, .accDrainB, .accMax, .accMaxB, .accMin, .accMinB, .vadd],
  [.vsub, .vmul, .vmulsh, .vmax, .vmin, .vabs, .vneg, .vand, .vor, .vxor, .vshl, .vsra],
  [.vcmp, .vsel, .vbcast, .vins, .vext, .vld, .vst, .vtget, .vtput, .vfn, .vredRow, .vredCol],
  [.vcvt, .vunpk, .vrng, .vnoise, .vstat, .dmaGet, .dmaPut, .dmaCopy, .dmaFill, .tLd, .tSt, .peatPush],
  [.peatPop, .fabPut, .fabGet, .fabMcast, .slArm, .slSig, .slWait, .lfWait, .lfClr, .frameEnd, .ctxFence, .redOpen],
  [.redContrib, .redClose, .stepCommit, .sclPin, .rngSet]]

/-- The operation of an opcode byte, none where it is unassigned (R110). -/
def KOp.ofOpcode (b : Byte) : Option KOp := allKOps.find? fun o => decide (o.opcode = b)

/-- An instruction word (R107): OPCODE [63:56], D [55:48], A [47:40], B [39:32], MOD [31:16], IMM [15:0]. -/
def instrWord (op : Byte) (f : Fields) : Word := op ++ f.d ++ f.a ++ f.b ++ f.mod ++ f.imm

/-- The opcode and operand fields of a word (R107). -/
def wordFields (v : Word) : Byte × Fields :=
  (v.extractLsb' 56 8, ⟨v.extractLsb' 48 8, v.extractLsb' 40 8, v.extractLsb' 32 8, v.extractLsb' 16 16, v.extractLsb' 0 16⟩)

/-- The instruction that a word spells (R107, R110). -/
def decodeWord (v : Word) : Option (KOp × Fields) :=
  let p := wordFields v
  (KOp.ofOpcode p.1).map fun o => (o, p.2)

/-- The fault of an opcode byte that no program may use (R82, R101, R110): 0x02 in the privileged range, 0x01 where it is
unassigned, 0 where it is assigned. -/
def opcodeFault (b : Byte) : Byte := if 0xF0 ≤ b.toNat then 0x02 else if (KOp.ofOpcode b).isNone then 0x01 else 0

/-- An operation of the queue that an opcode group goes to (R82). -/
def groupOp (b : Byte) : KOp :=
  let n := b.toNat
  if n < 0x20 then .nop else if n < 0x40 then .accZero else if n < 0x60 then .accZeroB else if n < 0xA0 then .vadd
  else if n < 0xD0 then .dmaFill else .nop

/-- Operations whose effect, or its first part, is made when they start: those of the control unit (R84), `vstat`, which reads the
records (R235), `dma.get`, which reads its descriptor (R113), a write that is on its way once its source is read (R84, R131), and the
Peat and fabric instructions, which then stand elsewhere (R84, R193, R194). -/
def KOp.actsAtStart (o : KOp) : Bool :=
  decide (o.queue = .C) ||
    match o with
    | .vstat | .dmaGet => true
    | .dmaPut | .peatPush | .peatPop | .fabPut | .fabGet | .fabMcast => true
    | _ => false

/-- The effect of an instruction, by its operation. -/
def KOp.effect (o : KOp) (w : Work) (c : CtxId) (x : InFlight) (ev : MemEvent) : Effect :=
  match o with
  | .nop => effNop w c x
  | .sAdd => effSAdd w c x
  | .sSub => effSSub w c x
  | .sAnd => effSAnd w c x
  | .sOr => effSOr w c x
  | .sXor => effSXor w c x
  | .sShl => effSShl w c x
  | .sShr => effSShr w c x
  | .sSra => effSSra w c x
  | .sMul => effSMul w c x
  | .sMulh => effSMulh w c x
  | .sDiv => effSDiv w c x
  | .sLi => effSLi w c x
  | .sIns => effSIns w c x
  | .sSlt => effSSlt w c x
  | .sSltu => effSSltu w c x
  | .sLd => effSLd w c x
  | .sSt => effSSt w c x
  | .sRem => effSRem w c x
  | .sSys => effSSys w c x
  | .br => effBr w c x
  | .beq => effBeq w c x
  | .bne => effBne w c x
  | .blt => effBlt w c x
  | .bge => effBge w c x
  | .bltu => effBltu w c x
  | .jr => effJr w c x
  | .mmfBi8 => effProduct w c x ev
  | .mmfBi4 => effProduct w c x ev
  | .mmfBi16x8 => effProduct w c x ev
  | .mmfBi16 => effProduct w c x ev
  | .mmbxBi8 => effProduct w c x ev
  | .mmbxBi4 => effProduct w c x ev
  | .mmbxBi16x8 => effProduct w c x ev
  | .mmbxBi16 => effProduct w c x ev
  | .mmbwBi8 => effProduct w c x ev
  | .mmbwBi4 => effProduct w c x ev
  | .mmbwBi16x8 => effProduct w c x ev
  | .mmbwBi16 => effProduct w c x ev
  | .accZero => effAccZero w c x
  | .accZeroB => effAccZero w c x
  | .accDrain => effAccDrain w c x ev
  | .accDrainB => effAccDrain w c x ev
  | .accMax => effExtremum w c x false
  | .accMaxB => effExtremum w c x false
  | .accMin => effExtremum w c x true
  | .accMinB => effExtremum w c x true
  | .vadd => effVadd w c x
  | .vsub => effVsub w c x
  | .vmul => effVmul w c x
  | .vmulsh => effVmulsh w c x
  | .vmax => effVmax w c x
  | .vmin => effVmin w c x
  | .vabs => effVabs w c x
  | .vneg => effVneg w c x
  | .vand => effVand w c x
  | .vor => effVor w c x
  | .vxor => effVxor w c x
  | .vshl => effVshl w c x
  | .vsra => effVsra w c x
  | .vcmp => effVcmp w c x
  | .vsel => effVsel w c x
  | .vbcast => effVbcast w c x
  | .vins => effVins w c x
  | .vext => effVext w c x
  | .vld => effVld w c x
  | .vst => effVst w c x
  | .vtget => effVtget w c x
  | .vtput => effVtput w c x
  | .vfn => effVfn w c x
  | .vredRow => effVredRow w c x
  | .vredCol => effVredCol w c x
  | .vcvt => effVcvt w c x ev
  | .vunpk => effVunpk w c x ev
  | .vrng => effVrng w c x
  | .vnoise => effVnoise w c x
  | .vstat => if x.stat = .queued then startVstat w c x ev else effVstat w c x
  | .dmaGet => if x.stat = .queued then startDmaGet w c x else effDmaGet w c x ev
  | .dmaPut => effDmaPut w c x ev
  | .dmaCopy => effDmaCopy w c x
  | .dmaFill => effDmaFill w c x
  | .tLd => effTLd w c x
  | .tSt => effTSt w c x
  | .peatPush => effPeatPush w c x ev
  | .peatPop => effPeatPop w c x ev
  | .fabPut => effFabPut w c x
  | .fabGet => effFabGet w c x
  | .fabMcast => effFabMcast w c x
  | .slArm => effSlArm w c x
  | .slSig => effSlSig w c x
  | .slWait => effSlWait w c x
  | .lfWait => effLfWait w c x
  | .lfClr => effLfClr w c x
  | .frameEnd => effFrameEnd w c x
  | .ctxFence => effCtxFence w c x
  | .redOpen => effRedOpen w c x ev
  | .redContrib => effRedContrib w c x ev
  | .redClose => effRedClose w c x
  | .stepCommit => effStepCommit w c x
  | .sclPin => effSclPin w c x
  | .rngSet => effRngSet w c x

end Sys2Proof.Machine
end

