-- ==== Sys2Proof/Machine/Issue.lean ====
section
/-! DEFINITION. Dispatch, start and completion of instructions (R81-R89, R100-R103, R133, R134, R225). -/

namespace Sys2Proof.Machine

/-- Whether a context may dispatch (R70, R81, R87, R88, R93): RUNNING, and nothing holds it. -/
def Ctx.mayDispatch (k : Ctx) : Bool := decide (k.st = .running ∧ k.hold = .none)

/-- The PC is misaligned or lies at or beyond IMAGE_SIZE (R81). -/
def Ctx.badPc (k : Ctx) : Bool := decide (k.pc % 8 ≠ 0 ∨ k.decl.imageSize ≤ k.pc)

/-- Instructions that stand in a queue (R82): those not started. -/
def Ctx.queued (k : Ctx) (q : Queue) : Nat := k.infl.countP fun y => decide (y.op.queue = q ∧ y.stat = .queued)

/-- Scalar registers whose earlier writer has not completed (R85). -/
def Ctx.pendingScalar (k : Ctx) (r : Nat) : Bool := decide (r ≠ 0) && k.infl.any fun y => decide (y.op.scalarDst y.f = some r)

/-- The scalar operands of an instruction may be captured (R85). That its own destination is also awaited is DEDUCED
from program order (log entry 36). -/
def Ctx.scalarsReady (k : Ctx) (op : KOp) (f : Fields) : Bool :=
  (op.scalarSrcs f).all (fun r => !k.pendingScalar r) &&
    match op.scalarDst f with
    | some r => !k.pendingScalar r
    | none => true

/-- Whether a context's work is work of the previous step (R201). -/
def Work.prevWork (w : Work) (c : CtxId) : Bool :=
  match w.jobOf c with
  | some j => decide ((w.ctx c).workVersion ≠ j.buf)
  | none => false

/-- The step of the work that a context does now (R225). -/
def Work.workStep (w : Work) (c : CtxId) : Nat :=
  match w.jobOf c with
  | some j => if w.prevWork c then j.step.toNat - 1 else (w.ctx c).latStep
  | none => (w.ctx c).latStep

/-- The value captured for an operand field that names a scalar register (R85, R108). -/
def Ctx.captured (k : Ctx) (b : Byte) : Word := if fieldClass b = 0 then k.getS (fieldNum b) else 0

/-- The instruction as dispatched, with what it captures (R85, R134, R225). Behind a `peat.pop` that has not matched, it captures the
step and the previous-step mark of the work version held then (R201 is silent: DESIGN CHOICE, log entry 132). -/
def Work.capture (w : Work) (c : CtxId) (op : KOp) (f : Fields) : InFlight :=
  let k := w.ctx c
  { id := w.nextId, op, f, pc := k.pc, vd := k.captured f.d, va := k.captured f.a, vb := k.captured f.b
    vi := k.getS (f.imm.toNat % 64), lane := k.lane, mb := k.mb, step := w.workStep c, prev := w.prevWork c
    seg := k.segment, stat := .queued, missed := false, snap := [], sentTo := [], half := 0, startNo := 0 }

/-- What dispatch does to the context (R81-R88, R93, R117, R134, R191): the PC moves on, waits and `frame.end` hold what
follows, `rng.set` takes effect. -/
def Ctx.dispatched (k : Ctx) (x : InFlight) : Ctx :=
  let k1 := { k with pc := nextPc x.op x.f k.pc x.va x.vb, dispatchPc := k.pc, infl := k.infl ++ [x]
                     busy := k.busy || decide (x.op ≠ .frameEnd) }
  match x.op with
  | .slWait => { k1 with hold := .sluice (BitVec.ofNat 14 x.va.toNat) (x.vb.setWidth 16), st := .waiting }
  | .lfWait => { k1 with hold := .flag ⟨x.f.mod.toNat % 16, Nat.mod_lt _ (by decide)⟩ x.f.imm, st := .waiting }
  | .frameEnd => { k1 with hold := .frameEnd (modBit x.f 0) }
  | .rngSet => k1.rngSet x.va
  | _ => k1

/-- A context's core, its cluster or its compute die is fenced (R410). -/
def Work.coreFenced (w : Work) (c : CtxId) : Bool :=
  w.isFenced (coreUnit c.slice.val c.core.val) || w.isFenced (unitId 0 c.slice.val (0x80 + c.core.val / 8)) ||
    w.isFenced (unitId 0 c.slice.val 0xFF)

/-- What is addressed to an absent core completes with 0x40 (R17, R409): a context that is ABSENT takes no fault record, so the
fault is an entry of the event log, as in a context that is FAULTED (R102). -/
def Work.refuseAbsent (w : Work) (c : CtxId) : Work :=
  let k := w.ctx c
  w.logFault c { code := 0x40, queue := 7, dispatchPc := BitVec.ofNat 24 k.dispatchPc, pc := BitVec.ofNat 24 k.pc, discarded := 0, detail := 0 }

/-- Dispatch of one instruction (R17, R81, R82, R85, R410): at an absent core it completes with 0x40; a fenced core raises 0x60; a bad PC raises 0x0D; a full queue or a scalar not yet written leaves the
instruction where it is. The flag says whether it was dispatched. -/
def Work.dispatch (w : Work) (c : CtxId) (op : KOp) (f : Fields) : Work × Bool :=
  let k := w.ctx c
  if k.st = .absent then (w.refuseAbsent c, false)
  else if !k.mayDispatch then (w, false)
  else if w.coreFenced c then (w.fault c none k.pc 0x60 0, false)
  else if k.badPc then (w.fault c none k.pc 0x0D k.pc, false)
  else if queueDepth op.queue ≤ k.queued op.queue then (w, false)
  else if !k.scalarsReady op f then (w, false)
  else
    let x := w.capture c op f
    (({ w with nextId := w.nextId + 1 } : Work).updCtx c fun k => k.dispatched x, true)

/-- Stands at the head of its queue until it goes on (R83, R196, R205). -/
def IStat.blocks : IStat → Bool
  | .queued => true
  | .waitSpace => true
  | .waitRefs => true
  | _ => false

/-- The head of a context's queue (R83). -/
def Work.headOf (w : Work) (c : CtxId) (q : Queue) : Option InFlight :=
  (w.ctx c).infl.find? fun y => decide (y.op.queue = q) && y.stat.blocks

/-- A `peat.pop` waits for every earlier `peat.push` of its context on the lane (R133). -/
def Ctx.popHeld (k : Ctx) (x : InFlight) : Bool :=
  decide (x.op = .peatPop) && k.infl.any fun y =>
    decide (y.id < x.id ∧ y.op = .peatPush ∧ tagLane y.vd = tagLane x.va)

/-- A product completes after the earlier products of its queue on its tile (R85). -/
def Ctx.productHeld (k : Ctx) (x : InFlight) : Bool :=
  x.op.isProduct && k.infl.any fun y =>
    decide (y.id < x.id) && y.op.isProduct && decide (y.op.queue = x.op.queue) && y.f.d == x.f.d

/-- The units that an instruction's request goes to (R18, R19): the pseudo-channels and controllers of the stacks that a `dma`
reads or writes, with the compute die that the stacks attach to (01, "Dies, stacks and slices"), and the lane of the Peat. -/
def Work.destUnits (w : Work) (c : CtxId) (x : InFlight) : List (BitVec 16) :=
  let q := (w.ctx c).part
  let hbmUnits := fun (l : List (Nat × Nat)) => (l.filterMap fun b => (w.translate q b.1).map fun t =>
    let u := w.decodePa t.1
    [stackUnit u.stack u.pc, stackUnit u.stack 0xFF, unitId 0 (u.stack / 2) 0xFF]).flatten.dedup
  match x.op with
  | .dmaGet =>
    if modBit x.f 0 then
      let d := TensorDesc.ofBytes x.snap
      hbmUnits (rangeBlocks (d.mantAt x.vb.toNat) (tileBytes d.fmt) ++ rangeBlocks (d.expAt x.vb.toNat) 128)
    else hbmUnits (rangeBlocks (hbmAddr x.va) (lenB x.vb))
  | .dmaPut => hbmUnits ((w.writes.filter fun h => decide (h.ctx = c ∧ h.id = x.id)).flatMap fun h => h.parts.flatMap fun p => rangeBlocks p.1 p.2.length)
  | .peatPush => [unitId 1 c.slice.val (tagLane x.vd).toNat, unitId 1 c.slice.val 0xFF]
  | .peatPop => [unitId 1 c.slice.val (tagLane x.va).toNat, unitId 1 c.slice.val 0xFF]
  | _ => []

/-- A request leaves with the epochs that its destinations have (R19). -/
def Work.noteSent (w : Work) (c : CtxId) (x : InFlight) : Work :=
  let l := (w.destUnits c ((w.instr c x.id).getD x)).map fun u => (u, w.epochs.get 0 u.toNat)
  w.updCtx c fun k => { k with infl := k.infl.map fun y => if y.id = x.id then { y with sentTo := l } else y }

/-- A reply would carry another epoch than the destination had when the request left (R19). -/
def Work.staleReply (w : Work) (x : InFlight) : Bool := x.sentTo.any fun e => decide (w.epochs.get 0 e.1.toNat ≠ e.2)

/-- How an instruction's effect ends for its context (R84, R87, R100). A multicast without any branch, or a packet that
nothing retains, is complete at once. -/
def Effect.conclude (e : Effect) (c : CtxId) (x : InFlight) : Work :=
  match e.ending with
  | .complete => e.w.retire c x (if x.op.queue = .C then none else x.flag)
  | .fault code d => (e.w.fault c (some x) x.pc code d).sweepUses
  | .waiting => e.w
  | .standing st =>
    let w1 := (e.w.setStat c x.id st).noteSent c x
    if decide (st = .remote) && (x.op = .fabPut || x.op = .fabMcast) && !w1.owesRemote c x.id then w1.remoteDone c x.id 0
    else w1

/-- Whether an instruction at the head of its queue could start, other contexts aside (R83, R85, R133). While a failed half
of B awaits its tick, nothing of the B group starts (R147). -/
def Work.startable (w : Work) (c : CtxId) (x : InFlight) : Bool :=
  decide (x.stat = .queued) && w.operandsReady c x && !(w.ctx c).popHeld x &&
    !(decide (x.op.queue = .B) && (w.core c).bPending.isSome)

/-- The four contexts of a core. -/
def siblings (c : CtxId) : List CtxId := [0, 1, 2, 3].map fun k => { c with ctx := k }

/-- The head of a context's queue could start. -/
def Work.headStartable (w : Work) (c : CtxId) (q : Queue) : Bool :=
  match w.headOf c q with
  | some x => w.startable c x
  | none => false

/-- The engine's choice among the contexts whose head may start: round-robin (R83). A C queue has a unit of its own. -/
def Work.turn (w : Work) (c : CtxId) (q : Queue) : Bool :=
  decide (q = .C) ||
    let first := (w.core c).served.get 0 (queueCode q).toNat
    let order := (List.range 4).map fun i => ({ c with ctx := ⟨(first + i) % 4, Nat.mod_lt _ (by decide)⟩ } : CtxId)
    decide ((order.find? fun d => w.headStartable d q) = some c)

/-- The group that shares the core with a group in sequential operation (R144). -/
def rivalQueue : Queue → Option Queue
  | .F => some .B
  | .B => some .F
  | _ => none

/-- The head of a context's queue is a product that could start. -/
def Work.productStartable (w : Work) (c : CtxId) (q : Queue) : Bool :=
  match w.headOf c q with
  | some x => x.op.isProduct && w.startable c x
  | none => false

/-- A product occupies an engine of the core. -/
def Work.arrayBusy (w : Work) (c : CtxId) (q : Queue) : Bool :=
  (siblings c).any fun d => (w.ctx d).infl.any fun y => y.op.isProduct && decide (y.op.queue = q ∧ y.stat = .started)

/-- Sequential operation (R144), which concerns the products alone, since the accumulator instructions take no array time (R137): the
other engine is empty, and the group that did not start last goes first. -/
def Work.alone (w : Work) (c : CtxId) (x : InFlight) : Bool :=
  if (w.core c).sequential && x.op.isProduct then
    match rivalQueue x.op.queue with
    | none => true
    | some r =>
      !w.arrayBusy c r &&
        !((w.core c).lastB == decide (x.op.queue = .B) && (siblings c).any fun d => w.productStartable d r)
  else true

/-- Whether the instruction at the head of its queue may start (R83, R85, R133, R144). -/
def Work.mayBegin (w : Work) (c : CtxId) (x : InFlight) : Bool :=
  w.startable c x && w.turn c x.op.queue && w.alone c x

/-- An engine notes the context it has served, and the core the group of the product that started last (R83, R144). -/
def Work.noteServed (w : Work) (c : CtxId) (x : InFlight) : Work :=
  let q := x.op.queue
  if q = .C then w
  else w.updCore c fun k =>
    { k with served := k.served.set 0 (queueCode q).toNat ((c.ctx.val + 1) % 4)
             lastB := if x.op.isProduct then decide (q = .B) else k.lastB }

/-- The halves of B that a product takes when it starts (R122, R137, R145, R146): those that HALF names, the whole of B or its idle
half for code 0, and the surviving half where one is out; none where B is out and the product runs on F. With both halves in use, code
0 takes half 0 (DESIGN CHOICE, log entry 39). -/
def Work.halfFor (w : Work) (c : CtxId) (x : InFlight) : BitVec 2 :=
  let out := (w.core c).bState
  let busy := (siblings c).foldl (fun (m : BitVec 2) d => (w.ctx d).infl.foldl (fun m y => if y.stat = .started then m ||| y.half else m) m) 0
  let named : BitVec 2 := BitVec.ofNat 2 (modBits x.f 9 2)
  if !(x.op.isProduct && decide (x.op.queue = .B)) then 0
  else if out ≠ 0 then ~~~out
  else if named ≠ 0 then named
  else if busy = 3 then 1 else ~~~busy

/-- The place of a product of B behind those that have started (R83). -/
def Work.nextStart (w : Work) (c : CtxId) : Nat :=
  (siblings c).foldl (fun n d => (w.ctx d).infl.foldl (fun n y => max n y.startNo) n) 0 + 1

/-- A started product holds its halves of B (R122). -/
def Work.noteHalf (w : Work) (c : CtxId) (x : InFlight) : Work :=
  let h := w.halfFor c x
  if h = 0 then w
  else
    let n := w.nextStart c
    w.updCtx c fun k => { k with infl := k.infl.map fun y => if y.id = x.id then { y with half := h, startNo := n } else y }

/-- An instruction starts (R83, R84, R101): the faults of its operand fields, then the effect it has at its start. -/
def Work.begin (w0 : Work) (c : CtxId) (x : InFlight) (ev : MemEvent) : Work :=
  let w := w0.noteServed c x
  match (w.ctx c).operandFault x.op x.f with
  | some (code, d) => ((w.rootFails c x).fault c (some x) x.pc code d).sweepUses
  | none => if x.op.actsAtStart then (x.op.effect w c x ev).conclude c x else ((w.noteHalf c x).setStat c x.id .started).noteSent c x

/-- The head of a queue starts, where it may (R83). -/
def Work.startHead (w : Work) (c : CtxId) (q : Queue) (ev : MemEvent) : Work :=
  match w.headOf c q with
  | some x => if w.mayBegin c x then w.begin c x ev else w
  | none => w

/-- A started instruction reaches its completion point (R84); a reply of another epoch is discarded, and the request ends with
0x40 (R19, R409). -/
def Work.completeStarted (w : Work) (c : CtxId) (x : InFlight) (ev : MemEvent) : Work :=
  if (w.ctx c).productHeld x then w
  else if w.staleReply x then w.fault c (some x) x.pc 0x40 0
  else (x.op.effect w c x ev).conclude c x

/-- The k-th started instruction of a queue. -/
def Ctx.startedAt (k : Ctx) (q : Queue) (n : Nat) : Option InFlight :=
  (k.infl.filter fun y => decide (y.op.queue = q ∧ y.stat = .started))[n]?

/-- The instruction that a moment of a queue concerns: its head, where it may start, or the k-th started one. -/
def Work.comesTo (w : Work) (c : CtxId) (q : Queue) : Moment → Option InFlight
  | .start => (w.headOf c q).filter fun x => w.mayBegin c x
  | .done k => (w.ctx c).startedAt q k

/-- An instruction comes to its moment (R83, R84). -/
def Work.come (w : Work) (c : CtxId) (x : InFlight) (m : Moment) (ev : MemEvent) : Work :=
  match m with
  | .start => w.begin c x ev
  | .done _ => w.completeStarted c x ev

/-- The context would be FAULTED by it. -/
def Work.wouldFault (w : Work) (c : CtxId) (x : InFlight) (m : Moment) (ev : MemEvent) : Bool :=
  decide ((w.ctx c).st ≠ .faulted) && decide (((w.come c x m ev).ctx c).st = .faulted)

/-- An instruction stands as one behind another in the other's queue, to be discarded with its fault. -/
def InFlight.standBehind (y x : InFlight) : InFlight := { y with op := x.op, stat := .queued }

/-- Instructions of two queues come to their moments in the same cclk (R103), in program order; where both fault, the earlier is
recorded, and the later has written nothing and counts as discarded. -/
def Work.comeBoth (w : Work) (c : CtxId) (x : InFlight) (m : Moment) (ev : MemEvent) (y : InFlight) (o : Coincide) : Work :=
  if w.wouldFault c x m ev && w.wouldFault c y o.moment o.ev then
    ((w.updCtx c fun k => { k with infl := k.infl.map fun z => if z.id = y.id then z.standBehind x else z }).come c x m ev).dropOrphans c
  else
    let w1 := w.come c x m ev
    match o.moment, w1.instr c y.id with
    | .start, some z => if w1.mayBegin c z then w1.begin c z o.ev else w1
    | .done _, some z => w1.completeStarted c z o.ev
    | _, none => w1

/-- An instruction of a queue comes to its moment, alone or with one of another queue (R83, R84, R103). -/
def Work.comeWith (w : Work) (c : CtxId) (q : Queue) (m : Moment) (ev : MemEvent) (also : Option Coincide) : Work :=
  match w.comesTo c q m with
  | none => w
  | some x =>
    match also.bind fun o => if o.queue = q then none else (w.comesTo c o.queue o.moment).map fun y => (y, o) with
    | none => w.come c x m ev
    | some (y, o) =>
      if x.id ≤ y.id then w.comeBoth c x m ev y o else w.comeBoth c y o.moment o.ev x ⟨q, m, ev⟩

/-- A dispatched instruction at the head of its queue starts and completes in the same step, where R83 and R85 allow. -/
def Work.runNow (w : Work) (c : CtxId) (id : Nat) (q : Queue) (ev : MemEvent) : Work :=
  match w.headOf c q with
  | some x =>
    if x.id = id ∧ w.mayBegin c x = true then
      let w1 := w.begin c x ev
      match w1.instr c id with
      | some y => if y.stat = .started then w1.completeStarted c y ev else w1
      | none => w1
    else w
  | none => w

/-- A context's front end meets an instruction (R81, R83, R85): its line is missing; or it is dispatched, and may start. -/
def Work.issue (w : Work) (c : CtxId) (op : KOp) (f : Fields) : Issue → Work
  | .miss => if (w.ctx c).mayDispatch then w.updCtx c fun k => { k with hold := .miss } else w
  | .enqueue => (w.dispatch c op f).1
  | .start ev =>
    let (w1, ok) := w.dispatch c op f
    if ok then w1.runNow c w.nextId op.queue ev else w1

/-- An opcode that no program may use is dispatched (R82, R101, R110). -/
def Work.issueIllegal (w : Work) (c : CtxId) (op : Byte) : Work :=
  let k := w.ctx c
  let code := opcodeFault op
  if code = 0 then w
  else if k.st = .absent then w.refuseAbsent c
  else if !k.mayDispatch then w
  else if k.badPc then w.fault c none k.pc 0x0D k.pc
  else
    let w1 := w.updCtx c fun k => { k with dispatchPc := k.pc }
    if code = 0x02 then w1.fault c none k.pc 0x02 0
    else w1.fault c (some { w1.capture c (groupOp op) ⟨0, 0, 0, 0, 0⟩ with id := w.nextId }) k.pc 0x01 0

end Sys2Proof.Machine
end

