-- ==== Sys2Proof/Machine/Engines.lean ====
section
/-! DEFINITION. What the engines of the slices do in their own time: starts, completions, arrivals and releases (R11, R63,
R81-R94, R171, R194-R205, R425). -/

namespace Sys2Proof.Machine

/-- INSTRUCTION_START (R83): the head of a queue starts where it may; its engine may also complete it later. -/
def execInstructionStart (c : CtxId) (q : StartOf) (s : State) : Host.Outcome State Fault Refusal :=
  .next (s.onW fun w => w.comeWith c q.queue .start q.ev q.also)

/-- INSTRUCTION_COMPLETE (R84): the k-th started instruction of a queue completes; its flag increases (R87). -/
def execInstructionComplete (c : CtxId) (q : Queue) (k : DoneAt) (ev : MemEvent) (s : State) : Host.Outcome State Fault Refusal :=
  .next (s.onW fun w => w.comeWith c q (.done k.k) ev k.also)

/-- A missed line arrives: dispatch is no longer held (R81). -/
def Ctx.lineArrives (k : Ctx) : Ctx := if k.hold = .miss then { k with hold := .none } else k

/-- ICACHE_LINE_FILL (R81). -/
def execIcacheLineFill (c : CtxId) (s : State) : Host.Outcome State Fault Refusal :=
  .next (s.onW fun w => w.updCtx c Ctx.lineArrives)

/-- The entries of a cache list that fit (R63): at most `h` headers with `b` block states; the first stays in any case. -/
def Work.cacheFit (w : Work) : Nat → Nat → List (Nat × BitVec 20) → List (Nat × BitVec 20)
  | 0, _, _ => []
  | _, _, [] => []
  | h + 1, b, e :: l =>
    let n := ((w.entry (partFin e.1) e.2).map fun x => x.blockCount).getD 0
    if n ≤ b then e :: Work.cacheFit w h (b - n) l else []

/-- A scale entry in a slice's cache, which holds 8,192 headers and 65,536 block states (R63): the newest first, and those that no
longer fit leave; an entry with more states than that is held alone (DESIGN CHOICE, log entry 37). -/
def Work.cacheEntry (w : Work) (n : Nat) (q : Fin 8) (t : BitVec 20) : Work :=
  if (w.entry q t).isNone then w
  else w.updSlice n fun s => { s with scale := { s.scale with
    cached := (q.val, t) :: w.cacheFit 8191 (65536 - ((w.entry q t).map fun x => x.blockCount).getD 0)
      (s.scale.cached.filter fun e => decide (e ≠ (q.val, t))) } }

/-- SCALE_ENTRY_ARRIVAL (R63): an entry of the slice's partition enters the cache; what waits for it may proceed. -/
def execScaleEntryArrival (n : Fin 8) (tensor : BitVec 20) (s : State) : Host.Outcome State Fault Refusal :=
  .next (s.onW fun w =>
    match w.sliceOwner n.val with
    | some q => w.cacheEntry n.val q tensor
    | none => w)

/-- A request that is held for an old epoch ends with 0x40, and what it sent is discarded (R19, R409). -/
def Work.endStale (w : Work) (c : CtxId) (id : Nat) : Work :=
  match w.instr c id with
  | none => w
  | some x => (w.fault c (some x) x.pc 0x40 0).dropOrphans c

/-- The n-th operation on its way to a sluice reaches the store, after those that its unit sent before (R11, R94). -/
def Work.sluiceArrives (w : Work) (i n : Nat) : Work :=
  let l := (w.sluice i).coming
  match l[n]? with
  | none => w
  | some (src, op) =>
    if (l.take n).any fun e => decide (e.1 = src) then w
    else (w.updSluice i fun s => { s with coming := s.coming.eraseIdx n }).applySluice i op

/-- SLUICE_SIGNAL_APPLY (R94). -/
def execSluiceSignalApply (sl : BitVec 14) (n : Nat) (s : State) : Host.Outcome State Fault Refusal :=
  .next (s.onW fun w => w.sluiceArrives sl.toNat n)

/-- SLUICE_WAIT_RESUME (R94): a context whose `sl.wait` is satisfied dispatches again. -/
def execSluiceWaitResume (c : CtxId) (s : State) : Host.Outcome State Fault Refusal :=
  .next (s.onW fun w =>
    match (w.ctx c).hold with
    | .sluice _ _ => w.startHead c .C .ok
    | _ => w)

/-- LF_WAIT_RESUME (R87): a context whose `lf.wait` is satisfied dispatches again. -/
def execLfWaitResume (c : CtxId) (s : State) : Host.Outcome State Fault Refusal :=
  .next (s.onW fun w =>
    match (w.ctx c).hold with
    | .flag _ _ => w.startHead c .C .ok
    | _ => w)

/-- The stacks that a write goes to. -/
def Work.writeStacks (w : Work) (h : HbmWrite) : List Nat :=
  ((h.parts.flatMap fun p => rangeBlocks p.1 p.2.length).filterMap fun b => (w.translate h.q b.1).map fun t => (w.decodePa t.1).stack).dedup

/-- A write that the same core sent earlier to one of its stacks has not arrived yet (R11). -/
def Work.overtakes (w : Work) (k : Nat) (h : HbmWrite) : Bool :=
  let l := w.writeStacks h
  (w.writes.take k).any fun e => decide (coreKey e.ctx = coreKey h.ctx) && (w.writeStacks e).any fun s => l.contains s

/-- A stack controller accepts a write (R84), after those of the same core before it (R11): its bytes are visible and its
instruction completes, or faults; a write to a unit that has been reset since is discarded with 0x40 (R19, R409). -/
def Work.acceptWrite (w : Work) (k : Nat) (ev : MemEvent) : Work :=
  match w.writes[k]? with
  | none => w
  | some h =>
    if w.overtakes k h then w
    else if ((w.instr h.ctx h.id).map w.staleReply).getD false then w.endStale h.ctx h.id
    else
    let (r, w1) := ({ w with writes := w.writes.eraseIdx k } : Work).applyParts h.q h.parts ev
    match w1.instr h.ctx h.id with
    | none => w1
    | some x => if r.1 = 0 then w1.retire h.ctx x x.flag else w1.fault h.ctx (some x) x.pc r.1 r.2

/-- DMA_PUT_ACCEPTED (R84). -/
def execDmaPutAccepted (k : Nat) (ev : MemEvent) (s : State) : Host.Outcome State Fault Refusal :=
  .next (s.onW fun w => w.acceptWrite k ev)

/-- PEAT_SPILL (R196): for a push that waits in the slice, one resident entry moves to the overflow region. -/
def execPeatSpill (n : Fin 8) (s : State) : Host.Outcome State Fault Refusal :=
  .next (s.onW fun w =>
    match w.pushWaits n.val with
    | some (_, x) => (w.spillOne n.val (tagLane x.vd)).getD w
    | none => w)

/-- PEAT_FETCH_BACK (R199). -/
def execPeatFetchBack (n : Fin 8) (laneB : Bool) (ev : MemEvent) (s : State) : Host.Outcome State Fault Refusal :=
  .next (s.onW fun w => w.fetchBack n.val laneB ev)

/-- A pop's copy ends (R194): its bytes are at sD and its units are free. -/
def Work.endCopy (w : Work) (c : CtxId) : Work :=
  match (w.peat c.slice.val).copies.find? fun p => decide (p.ctx = c) with
  | none => w
  | some p =>
    if ((w.instr c p.id).map w.staleReply).getD false then w.endStale c p.id
    else
    let w1 := w.updPeat c.slice.val fun y => { y with copies := y.copies.erase p }
    match w1.instr c p.id with
    | none => w1
    | some x =>
      match (w1.ctx c).range x.vd (p.size * 512) with
      | .ok sp => (w1.spanWrite c sp p.bytes).retire c x x.flag
      | .error e => w1.fault c (some x) x.pc e.1 e.2

/-- PEAT_POP_COPY_COMPLETE (R194). -/
def execPeatPopCopyComplete (c : CtxId) (s : State) : Host.Outcome State Fault Refusal :=
  .next (s.onW fun w => w.endCopy c)

/-- An instruction that stands at the head of a queue for a reason tries again. -/
def Work.retry (w : Work) (c : CtxId) (q : Queue) (st : IStat) (eff : Work → CtxId → InFlight → Effect) : Work :=
  match w.headOf c q with
  | some x => if x.stat = st then (eff w c x).conclude c x else w
  | none => w

/-- PEAT_PUSH_SPACE_AVAILABLE (R196): a waiting push completes, or faults when no space can come. -/
def execPeatPushSpaceAvailable (c : CtxId) (s : State) : Host.Outcome State Fault Refusal :=
  .next (s.onW fun w => w.retry c .M .waitSpace fun w c x => effPeatPush w c x .ok)

/-- WEIGHT_WRITE_WAIT_RELEASE (R205): a `dma.put` that waits for a reference count starts once it is zero. -/
def execWeightWriteWaitRelease (c : CtxId) (s : State) : Host.Outcome State Fault Refusal :=
  .next (s.onW fun w => w.retry c .M .waitRefs fun w c x => effDmaPut w c x .ok)

/-- HELD_WRITE_RELEASE (R205). -/
def execHeldWriteRelease (q : Fin 8) (k : Nat) (ev : MemEvent) (s : State) : Host.Outcome State Fault Refusal :=
  .next (s.onW fun w => w.releaseHeld q k ev)

/-- A root's use is complete or has failed (R171, R173). -/
def Work.useDue (w : Work) (c : CtxId) (u : CombineUse) : Bool :=
  decide (u.ctx = c) &&
    match w.instr c u.id with
    | some x => decide ((effCombineResult w x u .ok).ending ≠ .waiting)
    | none => true

/-- The combining drain of a root ends with its use (R171-R173): the first of its pending uses that is due. Uses of other roots whose
root has stopped fail too. -/
def Work.combineEnds (w : Work) (c : CtxId) (ev : MemEvent) : Work :=
  match w.combineUses.find? fun u => w.useDue c u with
  | none => w.sweepUses
  | some u =>
    match w.instr c u.id with
    | some x => (effCombineResult w x u ev).conclude c x
    | none => w.useFailed u

/-- COMBINING_DRAIN_RESULT (R171). -/
def execCombiningDrainResult (d : DrainOf) (s : State) : Host.Outcome State Fault Refusal :=
  .next (s.onW fun w => w.combineEnds d.ctx d.ev)

/-- The operations that a core has on their way to the sluice store: the sluice and the place in its list. -/
def Work.sluiceOps (w : Work) (c : CtxId) : List (Nat × Nat) :=
  w.sluices.flatMap fun e => (e.2.coming.zipIdx.filter fun o => decide (o.1.1 = coreKey c)).map fun o => (e.1, o.2)

/-- A message ages out in the on-package network (R11): it is discarded, with 0x40 in its sender. It is one of a started
instruction; in queue C, whose started instructions are complete at once, one that the core has on its way to a sluice, and the
fault is then that of a context without an instruction (DESIGN CHOICE, log entry 103). -/
def Work.ageOut (w : Work) (c : CtxId) (q : Queue) (k : Nat) : Work :=
  if q = .C then
    match (w.sluiceOps c)[k]? with
    | some o => (w.updSluice o.1 fun s => { s with coming := s.coming.eraseIdx o.2 }).fault c none (w.ctx c).dispatchPc 0x40 0
    | none => w
  else
    match ((w.ctx c).infl.filter fun y => decide (y.op.queue = q) && decide (y.stat ≠ .queued))[k]? with
    | some x => w.endStale c x.id
    | none => w

/-- MESSAGE_AGE_OUT (R11). -/
def execMessageAgeOut (c : CtxId) (q : Queue) (k : Nat) (s : State) : Host.Outcome State Fault Refusal :=
  .next (s.onW fun w => w.ageOut c q k)

/-- What a stack finds at a block of a prefetch (R245, R425): as in a read, but without alarm. -/
def Work.prefetchBlock (w : Work) (q : Fin 8) (a : Nat) (ev : MemEvent) : Work :=
  match w.translate q a with
  | none => w
  | some (pa, d) =>
    if w.reach pa ≠ 0 then w
    else if ev = .tagFail then (if (w.ctrWord (blockOf pa)).isFresh then w else w.poison (blockOf pa))
    else w.meet q pa d ev

/-- A range prefetched, block after block (R425), and what the blocks after it show. -/
def Work.prefetch (w : Work) (q : Fin 8) (a n : Nat) (ev : MemEvent) : Work × MemEvent :=
  (rangeBlocks a n).foldl (fun (s : Work × MemEvent) b => (s.1.prefetchBlock q b.1 (evHere s.2), evLater s.2)) (w, ev)

/-- Bytes of read-ahead buffers in use in a context's cluster. -/
def Work.aheadUsed (w : Work) (c : CtxId) : Nat :=
  w.readAhead.foldl (fun n r => if clusterKey r.ctx = clusterKey c then n + r.bytes else n) 0

/-- One entry of an operand list read ahead for a segment (R425): a scale entry, or a range within the cluster's 512 KiB. -/
def Work.aheadEntry (w : Work) (c : CtxId) (seg : Nat) (e : AheadEnt) (ev : MemEvent) : Work × MemEvent :=
  let q := (w.ctx c).part
  if e.scaleEntry then (w.cacheEntry c.slice.val q e.tensor, ev)
  else if 524288 < w.aheadUsed c + e.bytes ∨ w.mapped q e.addr e.bytes = false then (w, ev)
  else
    let (w1, rest) := w.prefetch q e.addr e.bytes ev
    ({ w1 with readAhead := w1.readAhead ++ [⟨c, seg, q, e.addr, e.bytes⟩] }, rest)

/-- The segment that a context runs next, if it has one (R425): the one after its segment, or its first. -/
def Ctx.nextSegment (k : Ctx) : Option Nat :=
  if k.st = .loaded then some k.startFrame
  else if k.st = .running ∨ k.st = .waiting then some (k.segment + 1) else none

/-- The control die and the data mover load what a context's next segment names (R63, R81, R425), once. -/
def Work.fillAhead (w : Work) (c : CtxId) (ev : MemEvent) : Work :=
  let k := w.ctx c
  match k.nextSegment with
  | none => w
  | some seg =>
    if w.readAhead.any fun r => decide (r.ctx = c ∧ r.segment = seg) then w
    else
      let l := k.ahead.filter fun e => decide (e.segment = seg - k.startFrame)
      (l.foldl (fun (s : Work × MemEvent) e => s.1.aheadEntry c seg e s.2) (w, ev)).1

/-- READ_AHEAD_FILL (R425). -/
def execReadAheadFill (c : CtxId) (ev : MemEvent) (s : State) : Host.Outcome State Fault Refusal :=
  .next (s.onW fun w => w.fillAhead c ev)

end Sys2Proof.Machine
end

