-- ==== Sys2Proof/Machine/PortOps.lean ====
section
/-! DEFINITION. What ports do as links: light, training, hellos, keys, flits, retraining, going down, and time (R22, R23, R264-R281,
R290-R293, R361-R364, R412). -/

namespace Sys2Proof.Machine

/-- A link event in the log (R492): no code is assigned (DESIGN CHOICE, log entry 15). -/
def Work.logPort (w : Work) (p : Nat) (sev pl : Nat) : Work := w.logEv (portUnit p) 0x04FF sev 0xFF pl

/-- A wavelength as a bit. -/
def lamBit (k : Nat) : BitVec 9 := BitVec.ofNat 9 (2 ^ k)
/-- How many wavelengths a set holds. -/
def lamCount (b : BitVec 9) : Nat := (List.range 9).countP fun i => b.getLsbD i
/-- The `n` lowest-numbered wavelengths of a set (R266). -/
def lowestLams (b : BitVec 9) (n : Nat) : BitVec 9 :=
  (((List.range 9).filter fun i => b.getLsbD i).take n).foldl (fun m i => m ||| lamBit i) 0

/-- The packets of a replay buffer, each once, oldest first. -/
def replayPkts (l : List ReplayFlit) : List Pkt :=
  ((l.flatMap (·.pkts)).foldl (fun (acc : List Pkt) (k : Pkt) => if acc.head? = some k then acc else k :: acc) []).reverse

/-- A packet of this device's own leaves by a port that the tables do not choose (R314). -/
def Work.isTied (w : Work) (q : Fin 8) (k : Pkt) : Bool :=
  decide (k.src = w.time.address) && (w.sendFlow (pktFlowOut k q)).retained.any fun r => decide (r.pkt.seq = k.seq ∧ r.pkt.kind = k.kind) && r.port.isSome

/-- A packet that a port holds goes by another port of its route, where there is one; otherwise, and where no table routes it (R288, R314),
it stays behind, in its class (R271, R276), or is dropped with the room that it takes where it came in. -/
def Work.reroute (w : Work) (p : Fin 32) (x : Queued) (keep : Bool) : Work :=
  let q := (w.port p.val).part
  let other := if x.pkt.mcast || w.isTied q x.pkt then none
    else ((w.routePorts q x.pkt.dest).filter fun i => decide (i ≠ p.val)).head?
  match other with
  | some i => w.transmit (portFin i) x
  | none => if keep then w.waitAt p x else w.giveRoom x.hold

/-- What a port holds leaves it: replayed packets, those queued and those in slot queues (R271, R276, R412). With `keep` a
packet without another way stays for this port; otherwise retention recovers it (R286). -/
def Work.evacuate (w : Work) (p : Fin 32) (keep : Bool) : Work :=
  let po := w.port p.val
  let sent := ((replayPkts (po.replay ++ po.tail.toList)).filter fun k => !Pkt.ofLink k).map fun k => (⟨k, none⟩ : Queued)
  let l := sent ++ po.txq ++ po.slotQ.flatMap fun e => e.2
  let w1 := w.updPort p.val fun y => { y with replay := [], tail := none, txq := [], slotQ := [] }
  l.foldl (fun w x => w.reroute p x keep) w1

/-- The link session of a port is gone (R361-R363, R412). -/
def Port.forgetLink (p : Port) : Port :=
  { p with keyPhase := .idle, kem := none, linkKey := none, newKey := none, oldKey := none, nonce := 0, peerNonce := []
           peerIdentity := [], sentSigned := false, sentHello := [], gotHello := [], ctl := [], probeSent := none, heard := none
           txFlit := 0, rxNext := 0, rxPkt := 0, rxFirst := 0, cut := [], rxRes := [], rxShared := 0, owed := [], keyFirst := 0
           txMoves := [], rxMoves := [], txBad := 0, line := [] }

/-- What a port that is not ACTIVE holds of its link session is gone: hellos and key messages alone (R274, R362). -/
def Port.dropLink (p : Port) : Port := { p.forgetLink with replay := [], tail := none }

/-- The WIDTH an end offers (R266). -/
def widthOffer (good : BitVec 9) : Nat := if 8 ≤ lamCount good then 8 else 4

/-- Training ordered sets leave on every wavelength (R266, R270): the type byte, the wavelength and the WIDTH offered. -/
def Work.sendOrdered (w : Work) (p : Fin 32) (typ : Byte) : Work :=
  ([0, 1, 2, 3, 4, 5, 6, 7, 8] : List (Fin 9)).foldl (fun w l => w.emit (.ordered p typ l (widthOffer (w.port p.val).good))) w

/-- A port enters TRAIN (R270): it sends train sets. -/
def Work.train (w : Work) (p : Nat) : Work := (w.updPort p fun y => { y.dropLink with st := 2 }).sendOrdered (portFin p) 0x1E

/-- A link command leaves in a CTL flit (R268, R269), behind the flit that is being filled. -/
def Work.sendCtl (w : Work) (p : Fin 32) (code : Byte) (args : List Byte) : Work := (w.flushTail p).sendFlit p 3 0 31 (ctlBody code args)

/-- The arguments of NAK, SPARE and SPARE_ACK, whose places in bytes 8-39 the spec does not give (R269; DESIGN CHOICE, log entry 122). -/
def nakArgs (seq : BitVec 16) : List Byte := leBytes 2 seq.toNat
/-- SPARE: the bad wavelength, and the codeword pair. -/
def spareArgs (lam : Fin 9) (pair : Nat) : List Byte := leBytes 8 lam.val ++ leBytes 8 pair
/-- SPARE_ACK: the bad wavelength, and the spare. -/
def spareAckArgs (lam spare : Fin 9) : List Byte := leBytes 8 lam.val ++ leBytes 8 spare.val

/-- IDLE flits fill a codeword pair (R267, R269). -/
def Work.fillPair (w : Work) (p : Fin 32) : Nat → Work
  | 0 => w
  | n + 1 => if (w.port p.val).line.length % 5 = 0 then w else Work.fillPair (w.sendFlit p 0 0 31 []) p n

/-- The codeword pair that a port sends at this ftime, counted from its training at its flit rate (R264, R266, R267; DESIGN CHOICE, log
entry 113). -/
def Work.pairNow (w : Work) (p : Fin 32) : Nat :=
  (w.port p.val).flitsIn (w.time.ftime.toNat - (w.port p.val).lineAt.toNat) / 5

/-- The flits of a port's line leave as codeword pairs over its wavelengths (R264, R267), from the pair `n` on. -/
def Work.sendPairs (w : Work) (p : Fin 32) : Nat → List Flit → Nat → Work
  | 0, _, _ => w
  | fuel + 1, l, n =>
    if l.isEmpty then w
    else Work.sendPairs (w.emit (.pair p n (pairLanes ((w.port p.val).txLambdasAt n) (l.take 5)))) p fuel (l.drop 5) (n + 1)

/-- A port's line of flits leaves (R267, R268): the flit that is being filled, IDLE flits to the end of its codeword pair, and the pairs. -/
def Work.closeLine (w : Work) (p : Fin 32) : Work :=
  let w1 := (w.flushTail p).fillPair p 5
  let l := (w1.port p.val).line
  (w1.updPort p.val fun y => { y with line := [] }).sendPairs p (l.length / 5 + 1) l (w1.pairNow p)

/-- Everything that an owner has in retention, by flow. -/
def Work.ownedBy (w : Work) (o : PktOwner) : List (FlowKey × Retained) :=
  w.fab.send.flatMap fun e => (e.2.retained.filter fun r => decide (r.owner = o)).map fun r => (e.1, r)

/-- A transfer has not sent a packet (R410): its first is still in retention, and none has left by a port. -/
def Work.unsent (w : Work) (c : CtxId) (id : Nat) : Bool :=
  let l := w.ownedBy (.instr c id)
  l.all (fun e => e.2.sent.isEmpty) && l.any fun e =>
    e.2.pkt.kind == 0x02 || (e.2.pkt.kind == 0x01 && (w.instr c id).any fun x => decide (e.2.pkt.addr = BitVec.ofNat 64 (hbmAddr x.vd)))

/-- An owner's packets are the last ones of a flow, so that their numbers can be given back. -/
def SendFlow.endsWith (f : SendFlow) (o : PktOwner) : Bool :=
  (f.retained.reverse.dropWhile fun r => decide (r.owner = o)).all fun r => decide (r.owner ≠ o)

/-- A transfer that has sent nothing is withdrawn: its packets leave retention and the queues, and it ends with 0x60 (R410). -/
def Work.withdraw (w : Work) (c : CtxId) (id : Nat) : Work :=
  let o : PktOwner := .instr c id
  let gone := w.ownedBy o
  let here := fun (q : Fin 8) (x : Queued) => decide (x.pkt.src = w.time.address) &&
    gone.any fun e => decide (e.1 = pktFlowOut x.pkt q ∧ e.2.pkt.seq = x.pkt.seq ∧ e.2.pkt.kind = x.pkt.kind)
  let trim := fun (y : Port) => { y with txq := y.txq.filter fun x => !here y.part x
                                         slotQ := y.slotQ.map fun e => (e.1, e.2.filter fun x => !here y.part x) }
  let send := w.fab.send.map fun e =>
    let left := e.2.retained.filter fun r => decide (r.owner ≠ o)
    (e.1, { e.2 with retained := left, next := e.2.next - BitVec.ofNat 64 (e.2.retained.length - left.length) })
  let w1 := (List.range 32).foldl (fun w i => if (w.port i).txq.isEmpty && (w.port i).slotQ.isEmpty then w else w.updPort i trim)
    { w with fab := { w.fab with send := send } }
  w1.remoteDone c id 0x60

/-- The transfers of this device that wait at a port, in order. -/
def Work.transfersAt (w : Work) (p : Nat) : List (CtxId × Nat) :=
  let po := w.port p
  ((po.txq ++ po.slotQ.flatMap fun e => e.2).filter fun x => decide (x.pkt.src = w.time.address)).filterMap fun x =>
    match (w.sendFlow (pktFlowOut x.pkt po.part)).retained.find? fun r => decide (r.pkt.seq = x.pkt.seq ∧ r.pkt.kind = x.pkt.kind) with
    | some r => (match r.owner with | .instr c id => some (c, id) | _ => none)
    | none => none

/-- The abort of a port's fence (R410): every transfer that waits there and has not sent a packet ends with 0x60, the latest first. One
whose flow has numbered packets after it goes by other ports instead (DESIGN CHOICE, log entry 123). -/
def Work.abortUnsent (w : Work) (p : Fin 32) : Work :=
  (w.transfersAt p.val).reverse.foldl (fun w t =>
    let keys := (w.ownedBy (.instr t.1 t.2)).map (·.1)
    if w.unsent t.1 t.2 && keys.all (fun k => (w.sendFlow k).endsWith (.instr t.1 t.2)) then w.withdraw t.1 t.2 else w) w

/-- An ACTIVE port retrains (R271, R412): its epoch and RETRAINS increase, its keys are gone, and its packets go by other
ports or wait. For a cause of its `own` it sends RETRAIN, and repeats it until the peer trains (R269). -/
def Work.retrain (w : Work) (p : Fin 32) (own : Bool) : Work :=
  let po := w.port p.val
  if po.isActive then
    let w1 := (if own then w.sendCtl p 0x06 [] else w).closeLine p
    let w2 := w1.updPort p.val fun y =>
      { y.forgetLink with st := 2, retrains := satAdd y.retrains 1, ctl := if own then [.retrain] else [] }
    ((w2.evacuate p true).newEpoch (portUnit p.val)).sendOrdered p 0x1E
  else w

/-- The packets in retention of the transfers that have sent a packet by a port (R410, R411). -/
def Work.portWork (w : Work) (p : Fin 32) : List (FlowKey × Word) :=
  w.fab.send.flatMap fun e =>
    (e.2.retained.filter fun r => r.sent.contains p ||
      match r.owner with
      | .instr _ _ => (w.ownedBy r.owner).any fun x => x.2.sent.contains p
      | _ => false).map fun r => (e.1, r.pkt.seq)

/-- A fenced port still has work in flight (R411, R441): a transfer that has sent a packet by it waits for its flow to succeed or to
fail (DEDUCED, log entry 85). -/
def Work.portBusy (w : Work) (p : Nat) : Bool :=
  (w.port p).drainOf.any fun e => (w.sendFlow e.1).retained.any fun r => decide (r.pkt.seq = e.2)

/-- A port goes down to a state, fenced and drained (R266, R295, R410, R412): transfers that wait there and have sent nothing are aborted,
its other packets go by other ports, and what it has sent is in flight until accepted. -/
def Work.portDown (w : Work) (p : Fin 32) (st : Nat) : Work :=
  let down := fun (y : Port) => { y with st := st, lambdas := 0, txLambdas := 0 }
  if (w.port p.val).isActive then
    let w1 := (w.closeLine p).abortUnsent p
    (((w1.updPort p.val fun y => { down y.forgetLink with drainOf := w1.portWork p }).evacuate p false).newEpoch (portUnit p.val))
  else w.updPort p.val fun y => { down y.dropLink with drainOf := w.portWork p }

/-- A port is fenced and drained, and DARK (R295, R410). -/
def Work.drainPort (w : Work) (p : Fin 32) : Work := w.portDown p 0

/-- A port fails (R266, R270, R424): the loss is logged. No code is assigned (DESIGN CHOICE, log entry 15). -/
def Work.portFailed (w : Work) (p : Fin 32) : Work := (w.portDown p 6).logPort p.val 3 p.val

/-- The units that a port needs in service: itself, its die and its laser socket (R18, R270, R519). -/
def portNeeds (p : Nat) : List (BitVec 16) := [portUnit p, unitId 2 (p / 16) 0xFF, unitId 5 (p / 8) 0xFF]

/-- Light may start a port (R270, R396): ENABLE, assigned to a partition that no removal holds, and nothing that it needs out of
service. -/
def Work.portMayStart (w : Work) (p : Nat) : Bool :=
  let po := w.port p
  po.enable && po.assigned && decide ((w.part po.part).removal = 0) && (portNeeds p).all fun u => !w.isFenced u && !w.isDown u

/-- The spares of a receiver (R266): good, not in use, and not asked for by a SPARE that still stands. -/
def Port.sparesLeft (p : Port) : Nat :=
  lamCount (p.good &&& ~~~p.lambdas) - p.ctl.countP fun c => match c with | .spare _ _ => true | _ => false

/-- An ACTIVE port has light of a set of wavelengths only (R266, R520): the others are bad. With fewer than four good ones it fails; where
the spares do not serve those in use it retrains; otherwise WAVELENGTH_BAD moves each. -/
def Work.darken (w : Work) (p : Fin 32) : Work :=
  let po := w.port p.val
  let lost := po.lambdas &&& ~~~po.light
  let w1 := w.updPort p.val fun y => { y with good := y.good &&& y.light }
  if lost = 0 then w1
  else if lamCount (w1.port p.val).good < 4 then w1.portFailed p
  else if lamCount lost ≤ (w1.port p.val).sparesLeft then w1
  else w1.retrain p true

/-- Light of a set of wavelengths reaches a port (R270): with four a DARK port passes through SIGNAL and trains; with fewer a port that
is not yet ACTIVE is DARK. An ACTIVE port goes by its bad wavelengths (R266). -/
def Work.lightOn (w : Work) (p : Nat) (lams : BitVec 9) : Work :=
  let w1 := w.updPort p fun y => { y with light := lams }
  if (w.port p).isActive then w1.darken (portFin p)
  else if lamCount lams < 4 then (if (w.port p).st = 0 then w1 else w1.portDown (portFin p) 0)
  else if w1.portMayStart p && decide ((w.port p).st ≤ 1) then w1.train p
  else w1

/-- A port starts again when it may and light is there (R266, R270). -/
def Work.portStart (w : Work) (p : Nat) : Work := w.lightOn p (w.port p).light

/-- The bytes of a hello before its signature (R274). -/
def helloBody (h : HelloMsg) : List Byte :=
  leBytes 2 h.address.toNat ++ [h.port, h.flags, 0, 0, 0, 0] ++ leBytes 8 h.ftime.toNat ++ bytesAt h.nonce 0 16 ++
    bytesAt h.peerNonce 0 16 ++ bytesAt h.identity 0 64 ++ h.endorsement

/-- The bytes of a signed hello. -/
def helloBytes (h : HelloMsg) : List Byte := helloBody h ++ h.signature

/-- The hello of a port (R274): unsigned while it does not hold the peer's nonce. -/
def Work.ownHello (w : Work) (p : Nat) (identity : List Byte) (signed : Option Nat) : HelloMsg :=
  let po := w.port p
  let h : HelloMsg :=
    { address := w.time.address, port := BitVec.ofNat 8 p
      flags := BitVec.ofNat 8 (po.longHaul.toNat + 2 * w.time.candidate.toNat), ftime := w.time.ftime
      nonce := leBytes 16 po.nonce.toNat, peerNonce := if signed.isSome then po.peerNonce else List.replicate 16 0
      identity := identity, endorsement := endorsement identity, signature := [] }
  match signed with
  | some i => { h with signature := xmssSign i (helloBody h) }
  | none => h

/-- The packets of a hello or a key exchange message (R274, R282, R362): at most 4,096 bytes of payload each. Their other header fields are
the model's: DEST the peer as known, ADDR the offset of the part, and for a key message its number in bits [39:32] (DESIGN CHOICE, log entry
113). -/
def linkPackets (dest src : BitVec 16) (kind : Byte) (code : Nat) (frame : BitVec 32) (bs : List Byte) : List Pkt :=
  (rangePackets bs).map fun e => { mkPkt dest 0 kind (BitVec.ofNat 64 (e.1 + code * 2 ^ 32)) e.2 with src := src, frame := frame }

/-- A message of the link leaves in DATA flits, which a direct port replays (R272, R274, R282, R362). It takes no credits (DESIGN CHOICE,
log entry 113). -/
def Work.sendLink (w : Work) (p : Fin 32) (kind : Byte) (code : Nat) (bs : List Byte) : Work :=
  (((linkPackets (w.port p.val).peer w.time.address kind code (BitVec.ofNat 32 w.frame) bs)).foldl (fun w k => w.putPacket p k)
    (w.flushTail p)).flushTail p

/-- A hello leaves (R274). -/
def Work.sendHello (w : Work) (p : Fin 32) (h : HelloMsg) : Work := (w.sendLink p 0x08 0 (helloBytes h)).emit (.hello p h)

/-- The payload of a key exchange message (R362); a DONE ends with the flit number. -/
def keyBytes (code : Byte) (m : KeyMsg) : List Byte := m.kem ++ m.digest ++ m.proof ++ (if code = 3 then leBytes 8 m.firstFlit.toNat else [])

/-- A key exchange message leaves (R362). -/
def Work.sendKeyMsg (w : Work) (p : Fin 32) (code : Byte) (m : KeyMsg) : Work :=
  (w.sendLink p 0x0A code.toNat (keyBytes code m)).emit (.key p code m)

/-- A port enters HELLO (R270, R274): a fresh nonce and a hello without the peer's. -/
def Work.enterHello (w : Work) (p : Fin 32) (identity : List Byte) : Work :=
  let (n, w1) := w.draw128
  let w2 := w1.updPort p.val fun y => { y with st := 3, nonce := n, peerNonce := [], sentSigned := false }
  w2.sendHello p (w2.ownHello p.val identity none)

/-- Training completes (R266, R270): this end confirms with its offer; WIDTH is the lower offer, on the lowest good wavelengths; fewer
than four fail it. A change of WIDTH is logged. -/
def Work.trained (w : Work) (p : Fin 32) (good : BitVec 9) (peerOffer : Nat) (identity : List Byte) : Work :=
  let po := w.port p.val
  if po.st ≠ 2 then w
  else if lamCount good < 4 then (w.updPort p.val fun y => { y with good := good }).portFailed p
  else
    let wd := if peerOffer = 8 then widthOffer good else 4
    let l := lowestLams good wd
    let w1 := (w.updPort p.val fun y =>
      { y with good := good, lambdas := l, txLambdas := l, trained := l, txMoves := [], rxMoves := [], txBad := 0, lineAt := w.time.ftime, width := wd, ctl := [] }).sendOrdered p 0x2D
    let w2 := if po.width = 0 ∨ po.width = wd then w1 else w1.logPort p.val 1 (p.val + wd * 2 ^ 8)
    w2.enterHello p identity

/-- A wavelength of the receiver is bad at a codeword pair (R266): a SPARE command names it and the pair 64 pairs ahead; without a spare
the port retrains, which logs the narrowing it comes to, and with fewer than four good ones it is FAILED. -/
def Work.lamBad (w : Work) (p : Fin 32) (lam : Fin 9) (pair : Nat) : Work :=
  let po := w.port p.val
  let asked := po.ctl.any fun c => match c with | .spare l _ => decide (l = lam) | _ => false
  if !(po.isActive && po.lambdas.getLsbD lam.val) || asked then w
  else
    let good := po.good &&& ~~~(lamBit lam.val)
    let w1 := w.updPort p.val fun y => { y with good := good }
    if (w1.port p.val).sparesLeft ≠ 0 then
      (w1.updPort p.val fun y => { y with ctl := .spare lam (pair + 64) :: y.ctl }).sendCtl p 0x02 (spareArgs lam (pair + 64))
    else if lamCount good < 4 then w1.portFailed p
    else w1.retrain p true

/-- The transmitter's spares (R264, R266): not in use, and not named bad by the peer. -/
def Port.spare (p : Port) : Option (Fin 9) :=
  ([0, 1, 2, 3, 4, 5, 6, 7, 8] : List (Fin 9)).find? fun i => !p.txLambdas.getLsbD i.val && !p.txBad.getLsbD i.val

/-- The spare that a SPARE command has been given already (R266, R269). -/
def Port.moved (p : Port) (lam : Fin 9) (pair : Nat) : Option (Fin 9) :=
  (p.txMoves.find? fun e => decide (e.1 = lam ∧ e.2.2 = pair)).map fun e => e.2.1

/-- The transmitter moves a bad wavelength's symbols to its lowest-numbered spare from the codeword pair named on, and answers; a command
that is repeated is answered again (R266, R269). -/
def Work.spareMove (w : Work) (p : Fin 32) (lam : Fin 9) (pair : Nat) : Work :=
  let po := w.port p.val
  if !po.isActive then w
  else
    match po.moved lam pair with
    | some i => w.sendCtl p 0x03 (spareAckArgs lam i)
    | none =>
      match po.spare with
      | some i =>
        if po.txLambdas.getLsbD lam.val then
          (w.updPort p.val fun y =>
            { y with txLambdas := (y.txLambdas &&& ~~~(lamBit lam.val)) ||| lamBit i.val, txMoves := y.txMoves ++ [(lam, i, pair)]
                     txBad := y.txBad ||| lamBit lam.val }).sendCtl p 0x03 (spareAckArgs lam i)
        else w
      | none => w

/-- The codeword pair that a standing SPARE command names (R266). -/
def Port.askedPair (p : Port) (lam : Fin 9) : Option Nat :=
  p.ctl.findSome? fun c => match c with | .spare l n => if l = lam then some n else none | _ => none

/-- The receiver has its SPARE command answered: it listens on the spare from the pair that it named (R266, R269). -/
def Work.spareDone (w : Work) (p : Fin 32) (lam spare : Fin 9) : Work :=
  match (w.port p.val).askedPair lam with
  | some n =>
    if (w.port p.val).isActive then
      w.updPort p.val fun y =>
        { y with lambdas := (y.lambdas &&& ~~~(lamBit lam.val)) ||| lamBit spare.val, rxMoves := y.rxMoves ++ [(lam, spare, n)]
                 ctl := y.ctl.filter fun c => match c with | .spare l _ => decide (l ≠ lam) | _ => true }
    else w
  | none => w

/-- The wavelengths that a port receives on at this ftime (R266, R296): each move from its codeword pair on. -/
def Work.lambdasNow (w : Work) (p : Fin 32) : BitVec 9 :=
  if (w.port p.val).isActive then (w.port p.val).rxLambdasAt (w.pairNow p) else (w.port p.val).lambdas

/-- The two signed hellos, the lower address's first: T of R362. -/
def Work.kexDigest (w : Work) (p : Nat) : List Byte :=
  let po := w.port p
  shake256 (if w.time.address.toNat < po.peer.toNat then po.sentHello ++ po.gotHello else po.gotHello ++ po.sentHello) 32

/-- An OFFER (R362): a fresh encapsulation key, T, and a signature over both. -/
def Work.sendOffer (w : Work) (p : Fin 32) (sign : Nat) : Work :=
  let (k, w1) := w.newId
  let t := w1.kexDigest p.val
  let ek := bytesAt (Config.mlkemPublic k) 0 1568
  (w1.updPort p.val fun y => { y with kem := some k, keyPhase := .offered }).sendKeyMsg p 1 ⟨ek, t, xmssSign sign (ek ++ t), 0⟩

/-- The port enters KEY (R270, R362): the initiator offers. -/
def Work.enterKey (w : Work) (p : Fin 32) (sign : Nat) : Work :=
  let w1 := w.updPort p.val fun y => { y with st := 4, keyPhase := .idle }
  if w1.initiator p.val then w1.sendOffer p sign else w1

/-- Discovery refuses the peer (R270, R274). -/
def Work.refusePeer (w : Work) (p : Fin 32) (cause : Nat) : Work :=
  (w.updPort p.val fun y => { y.dropLink with st := 7 }).logPort p.val 3 (p.val + cause * 2 ^ 8)

/-- The checks of a signed hello (R274): 0 when it is accepted, else the number of the check that fails. -/
def Work.helloCheck (w : Work) (p : Nat) (h : HelloMsg) : Nat :=
  let po := w.port p
  if !(Config.xmssVerify h.identity (helloBody h) h.signature && endorsementOk h.identity h.endorsement) then 1
  else if h.peerNonce ≠ leBytes 16 po.nonce.toNat then 2
  else if h.address = w.time.address then 3
  else if (List.range 32).any fun i =>
    let o := w.port i
    decide (i ≠ p) && o.isActive && decide (o.peer = h.address) && decide (o.peerIdentity ≠ h.identity) then 4
  else if h.flags.getLsbD 0 ≠ po.longHaul then 5 else 0

/-- Every other port with the same claimed address sees the conflict and refuses too (R274). -/
def Work.refuseConflict (w : Work) (p : Fin 32) (h : HelloMsg) : Work :=
  (List.range 32).foldl (fun w i =>
    let o := w.port i
    if i ≠ p.val ∧ o.isActive = true ∧ o.peer = h.address ∧ o.peerIdentity ≠ h.identity then
      (w.portDown (portFin i) 7).logPort i 3 (i + 4 * 2 ^ 8)
    else w) w

/-- The keys of R362: 72 bytes of the shared secret, T and the ciphertext. -/
def linkKeys (secret t ct : List Byte) : List Byte := shake256 (secret ++ t ++ ct) 72

/-- The proof of a DONE (R362): under the sender's new key, over T. The key of its direction is taken (DESIGN CHOICE, log
entry 38). -/
def doneProof (keys t : List Byte) (fromLower : Bool) : List Byte :=
  kmac256 (if fromLower then keys.take 32 else (keys.drop 32).take 32) t ""

/-- A DONE (R362, R363): it fills one flit of its own, and this end's new keys apply from the flit after it, which it announces; the
decapsulation key is erased. -/
def Work.sendDone (w : Work) (p : Fin 32) (keys : List Byte) : Work :=
  let w1 := w.flushTail p
  let n := (w1.port p.val).txFlit + 1
  (w1.sendKeyMsg p 3 ⟨[], [], doneProof keys (w.kexDigest p.val) (w.initiator p.val), n⟩).updPort p.val fun y =>
    { y with newKey := some keys, kem := none, keyPhase := .switching n, keyFirst := n }

/-- A key exchange fails (R362): back to TRAIN, with the cause in the log. -/
def Work.kexFail (w : Work) (p : Fin 32) (cause : Nat) : Work :=
  let w1 := w.logPort p.val 3 (p.val + cause * 2 ^ 8)
  if (w1.port p.val).isActive then w1.retrain p true else w1.train p.val

/-- A signature of a key exchange message over its key or ciphertext and T (R362). -/
def Work.kexOk (w : Work) (p : Nat) (m : KeyMsg) : Bool :=
  decide (m.digest = w.kexDigest p) && Config.xmssVerify (w.port p).peerIdentity (m.kem ++ m.digest) m.proof

/-- A port may take part in a key exchange: in KEY or ACTIVE (R362, R363). -/
def Port.inKex (p : Port) : Bool := p.st == 4 || p.st == 5

/-- An OFFER that this end answers with an ACCEPT (R362, R363). -/
def Work.willAccept (w : Work) (p : Nat) (m : KeyMsg) : Bool :=
  let po := w.port p
  po.inKex && !(w.initiator p && decide (po.keyPhase = .offered)) && w.kexOk p m

/-- The responder answers an OFFER (R362). If both ends have offered, the initiator's proceeds (R363). -/
def Work.takeOffer (w : Work) (p : Fin 32) (m : KeyMsg) (sign : Nat) : Work :=
  let po := w.port p.val
  if !po.inKex then w
  else if w.initiator p.val && decide (po.keyPhase = .offered) then w
  else if !w.kexOk p.val m then w.kexFail p 6
  else
    let t := w.kexDigest p.val
    let r := Config.mlkemEncap w.fresh m.kem
    let ct := bytesAt r.1 0 1568
    let ss := r.2
    let w1 : Work := { w with fresh := w.fresh + 1 }
    let w2 := w1.updPort p.val fun y => { y with keyPhase := .accepted }
    (w2.sendKeyMsg p 2 ⟨ct, t, xmssSign sign (ct ++ t), 0⟩).sendDone p (linkKeys ss t ct)

/-- The initiator takes an ACCEPT (R362). -/
def Work.takeAccept (w : Work) (p : Fin 32) (m : KeyMsg) : Work :=
  let po := w.port p.val
  match po.kem with
  | none => w
  | some k =>
    if !(po.inKex && decide (po.keyPhase = .offered)) then w
    else if !w.kexOk p.val m then w.kexFail p 6
    else w.sendDone p (linkKeys (Config.mlkemDecap k m.kem) (w.kexDigest p.val) m.kem)

/-- Credits of a port that becomes ACTIVE (R279). A direct port's are the reserves and the shared pool of its peer's receive buffer. A
long-haul port has none until its peer grants them; its own Mere grants the peer 95 % of its size, and 64 flits for each channel, in
units of 64 flits (DEDUCED from R289 and R350, log entry 113). -/
def Port.fillCredits (p : Port) : Port :=
  if p.longHaul then
    { p with credits := [], shared := 0
             owed := (0, true, p.mereSize.toNat * 16777216 * 95 / 100 / 256 / 64) :: (List.range 8).map fun h => (h, false, 1) }
  else
    { p with credits := (List.range 8).foldl (fun (t : Tbl Nat) h => t.set 0 h 64) [], shared := 4608 }

/-- A port may leave KEY (R289, R350): a long-haul port once it has a Mere whose pages are all mapped with MERE_DOMAIN. -/
def Work.mereReady (w : Work) (p : Nat) : Bool :=
  let po := w.port p
  !po.longHaul || (decide (po.mereSize ≠ 0) &&
    w.pagesMapped po.part (po.mereBase.toNat * 2 ^ 24) (po.mereSize.toNat * 2 ^ 24) (some po.mereDomain))

/-- A port added to an entry that the host has not written (R277): four at most. -/
def Route.addPort (e : Route) (p : Nat) : Route :=
  let b : BitVec 5 := BitVec.ofNat 5 p
  if e.host then e
  else if !e.valid then { e with valid := true, count := 0, p0 := b }
  else if e.ports.contains p then e
  else if e.count = 0 then { e with count := 1, p1 := b }
  else if e.count = 1 then { e with count := 2, p2 := b }
  else if e.count = 2 then { e with count := 3, p3 := b }
  else e

/-- A port that has become ACTIVE enters its partition's routing table (R277). -/
def Work.addRoutes (w : Work) (p : Nat) : Work :=
  let po := w.port p
  let q := po.part.val
  let own := w.time.address.toNat
  let peer := po.peer.toNat
  if peer / 64 = own / 64 then
    let m0 := own % 64
    let mp := peer % 64
    let reach := (List.range 64).filter fun m =>
      decide (m = mp) || (decide (m ≠ m0) && ((decide (mp / 8 = m0 / 8) && decide (mp % 8 = m % 8)) || (decide (mp % 8 = m0 % 8) && decide (mp / 8 = m / 8))) &&
        !((List.range 32).any fun i => (w.port i).isActive && decide ((w.port i).peer.toNat = own / 64 * 64 + m)))
    { w with fab := { w.fab with memberRoutes := reach.foldl (fun t m => t.upd .zero (q * 64 + m) fun e => e.addPort p) w.fab.memberRoutes } }
  else { w with fab := { w.fab with groupRoutes := w.fab.groupRoutes.upd .zero (q * 1024 + peer / 64) fun e => e.addPort p } }

/-- A port becomes ACTIVE (R270, R277, R279): credits, routes, and what waited for it leaves. -/
def Work.portActive (w : Work) (p : Fin 32) : Work :=
  let w1 := ((w.updPort p.val fun y => { y.fillCredits with st := 5 }).addRoutes p.val).returnCredits p
  w1.drainTx p false ((w1.port p.val).txq.length + 1)

/-- A port in KEY with its keys becomes ACTIVE when it may (R270, R350). -/
def Work.leaveKey (w : Work) (p : Fin 32) : Work :=
  let po := w.port p.val
  if po.st = 4 ∧ po.linkKey.isSome = true ∧ po.newKey = none ∧ w.mereReady p.val = true then w.portActive p else w

/-- The long-haul ports of a partition that its page table now lets go on (R350). -/
def Work.wakePorts (w : Work) (q : Fin 8) : Work :=
  ((List.range 32).filter fun p => (w.port p).longHaul && decide ((w.port p).part = q)).foldl (fun w p => w.leaveKey (portFin p)) w

/-- A DONE of the peer (R362, R363): verified, the new keys are in use, for what comes from the flit that it announces on; the old ones
stand until a packet under the new ones has verified. The port is ACTIVE, unless it must stay in KEY. -/
def Work.takeDone (w : Work) (p : Fin 32) (m : KeyMsg) : Work :=
  let po := w.port p.val
  match po.newKey with
  | none => w
  | some keys =>
    if !po.inKex then w
    else if m.proof ≠ doneProof keys (w.kexDigest p.val) (!w.initiator p.val) then w.kexFail p 7
    else
      (w.updPort p.val fun y =>
        { y with
          oldKey := y.linkKey, linkKey := some keys, newKey := none, exchanges := y.exchanges + 1, keyPhase := .idle
          rxFirst := m.firstFlit, exchAt := w.time.ftime, rxNext := if po.isActive then y.rxNext else m.firstFlit
          rxPkt := if po.isActive then y.rxPkt else m.firstFlit - 1 }).leaveKey p

/-- A device address that ports may follow, with its hops from here (R291): those heard on ACTIVE ports. -/
def Work.heardRefs (w : Work) : List (Nat × BitVec 16 × Nat) :=
  (List.range 32).filterMap fun p =>
    let po := w.port p
    if po.isActive then po.heard.map fun h => (p, h.1, h.2 + 1) else none

/-- The reference chosen among the candidates known, with the upstream port and hops (R291): the lowest address; the port
with the fewest hops, and of those the lowest. -/
def Work.bestRef (w : Work) : Option (BitVec 16 × Option (Nat × Nat)) :=
  let l := w.heardRefs
  let own := if w.time.candidate then [w.time.address] else []
  match (own ++ l.map fun e => e.2.1) with
  | [] => none
  | a :: as =>
    let low := as.foldl (fun (m : BitVec 16) x => if x.toNat < m.toNat then x else m) a
    if low = w.time.address ∧ w.time.candidate = true then some (low, none)
    else
      let ports := l.filter fun e => decide (e.2.1 = low)
      let best := ports.foldl (fun (b : Option (Nat × Nat)) e =>
        match b with
        | none => some (e.1, e.2.2)
        | some (p, h) => if e.2.2 < h then some (e.1, e.2.2) else some (p, h)) none
      some (low, best)

/-- The device elects its reference again (R291). -/
def Work.elect (w : Work) : Work :=
  match w.bestRef with
  | none => { w with time := { w.time with refHolder := false } }
  | some (r, none) =>
    { w with time := { w.time with refHolder := true, reference := r, hops := 0, upstream := 0, ppsSet := if w.time.refHolder then w.time.ppsSet else false } }
  | some (r, some (p, h)) =>
    { w with time := { w.time with refHolder := false, reference := r, hops := BitVec.ofNat 4 (min h 15), upstream := BitVec.ofNat 5 p } }

/-- A frame number and tick test: ftime is a tick of a period of `us` µs. -/
def isTick (at_ us : Nat) : Bool := decide (us ≠ 0) && decide (at_ % (us * 1000) = 0)

/-- An announced change of P (R21, R23, R293): taken when AT is a tick under both periods and still ahead; refused and logged
otherwise. -/
def Work.announceP (w : Work) (us : Nat) (at_ : Word) : Work :=
  let ok := decide (4 ≤ us ∧ us ≤ 1024 ∧ us % 2 = 0) && isTick at_.toNat us && isTick at_.toNat w.time.period.toNat &&
    decide (w.time.ftime.toNat < at_.toNat)
  if w.time.nextPeriod.toNat = us ∧ w.time.changeAt = at_ then w
  else if ok then { w with time := { w.time with nextPeriod := BitVec.ofNat 11 us, changeAt := at_ } }
  else if at_.toNat ≤ w.time.ftime.toNat ∧ w.time.period.toNat = us then w
  else w.logEv (unitId 3 0 0xFF) 0x07FF 2 0xFF (us + at_.toNat * 2 ^ 64)

/-- The device's clock as a timestamp (R290): ns with 8 fraction bits, which the codeword boundary gives. -/
def Work.stamp (w : Work) (frac : Byte) : Word := BitVec.ofNat 64 (w.time.ftime.toNat * 256 + frac.toNat)

/-- The arguments of a PROBE_REPLY (R269, R290): t1, t2 and t3. -/
def replyArgs (t1 t2 t3 : Word) : List Byte := leBytes 8 t1.toNat ++ leBytes 8 t2.toNat ++ leBytes 8 t3.toNat

/-- The arguments of a PROBE (R269, R290, R291, R293): bytes 0-7 t1; 8-9 the lowest candidate and 10 the hops to it; 11 [0] a candidate,
[1] a change of P; 12-13 the P announced and 16-23 its ftime; 14-15 the sender's own P (DESIGN CHOICE, log entry 84). -/
def probeArgs (t1 : Word) (candidate : Option (BitVec 16 × Nat)) (announce : Option (BitVec 11 × Word)) (period : BitVec 11) : List Byte :=
  leBytes 8 t1.toNat ++ leBytes 2 ((candidate.map (·.1.toNat)).getD 0) ++ leBytes 1 ((candidate.map (·.2)).getD 0) ++
    leBytes 1 (candidate.isSome.toNat + 2 * announce.isSome.toNat) ++ leBytes 2 ((announce.map (·.1.toNat)).getD 0) ++
    leBytes 2 period.toNat ++ leBytes 8 ((announce.map (·.2.toNat)).getD 0)

/-- A PROBE is received (R290, R291, R293): answered with t1, t2 and t3, its candidate noted; the upstream's P is noted and its
announcement taken. The answer leaves at once, so t3 is t2 (DESIGN CHOICE, log entry 84). -/
def Work.takeProbe (w : Work) (p : Fin 32) (m : ProbeMsg) : Work :=
  if !(w.port p.val).isActive then w
  else
    let t := w.stamp m.frac
    let w1 := (w.updPort p.val fun y => { y with heard := m.candidate, heardAt := w.time.ftime }).sendCtl p 0x05 (replyArgs m.t1 t t)
    let w2 := w1.elect
    if p.val = w2.time.upstream.toNat ∧ w2.time.refHolder = false then
      let w3 : Work := { w2 with time := { w2.time with heardP := m.period } }
      match m.announce with
      | some (us, at_) => w3.announceP us at_
      | none => w3
    else w2

/-- A signed number in 32 bits, saturating (R304). -/
def satI32 (v : Int) : BitVec 32 :=
  if 2 ^ 31 - 1 < v then BitVec.ofInt 32 (2 ^ 31 - 1) else if v < -(2 ^ 31) then BitVec.ofInt 32 (-(2 ^ 31)) else BitVec.ofInt 32 v

/-- The delay of a probe in 1/256 ns (R290). -/
def probeDelay (t1 t2 t3 t4 : Int) : Int := ((t4 - t1) - (t3 - t2)) / 2
/-- The offset of a probe in 1/256 ns (R290), with the port's asymmetry in ns. -/
def probeOffset (t1 t2 t3 t4 asym : Int) : Int := ((t2 - t1) - (t4 - t3)) / 2 + asym * 128

/-- The P that a device still has to take once it is locked, 0 for none (R22, R293): the fabric's, after holdover, where its own is
another and no announcement brings it; at the first lock the step brings it. -/
def TimeSt.owedP (t : TimeSt) : BitVec 11 :=
  if t.st = 1 then t.lockP else if t.st = 0 ∨ t.nextPeriod ≠ 0 ∨ t.heardP = t.period then 0 else t.heardP

/-- A probe is answered (R22, R290, R291): t4 is this device's clock, `frac` its fraction bits; the delay is kept, and the offset of
the upstream port steers ftime: below 1 µs it is slewed, otherwise, or at the first lock, stepped at the next tick. -/
def Work.takeReply (w : Work) (p : Fin 32) (t1 t2 t3 : Word) (frac : Byte) : Work :=
  let po := w.port p.val
  let t4 := w.stamp frac
  if !(po.isActive && decide (po.probeSent = some t1)) then w
  else
    let w1 := w.updPort p.val fun y => { y with probeSent := none, probeDelay := probeDelay t1.toNat t2.toNat t3.toNat t4.toNat }
    if w.time.refHolder || decide (w.time.upstream.toNat ≠ p.val) || po.heard.isNone then w1
    else
      let off := probeOffset t1.toNat t2.toNat t3.toNat t4.toNat po.asymNs.toInt / 256
      let tm := { w1.time with offsetNs := satI32 off }
      if w.time.st = 0 then
        { w1 with time := { tm with jump := some ⟨BitVec.ofInt 64 off, 0⟩ } }
      else if off.natAbs < 1000 then { w1 with time := { tm with slew := off, lockP := tm.owedP, st := 1 } }
      else { w1 with time := { tm with jump := some ⟨BitVec.ofInt 64 off, 1⟩ } }

/-- The PROBE that this device sends by a port (R290, R291, R293). -/
def Work.sendProbe (w : Work) (p : Fin 32) : Work :=
  if !(w.port p.val).isActive then w
  else
    let t : Word := BitVec.ofNat 64 (w.time.ftime.toNat * 256)
    let cand := w.bestRef.map fun e => (e.1, (e.2.map (·.2)).getD 0)
    let ann := if w.time.nextPeriod = 0 then none else some (w.time.nextPeriod, w.time.changeAt)
    (w.updPort p.val fun y => { y with probeSent := some t }).sendCtl p 0x04 (probeArgs t cand ann w.time.period)

/-- Credits come back in a flit's header (R268, R279), and packets that waited for them leave. -/
def Work.takeCredit (w : Work) (p : Fin 32) (f : Flit) : Work :=
  let w1 := w.updPort p.val fun y =>
    if f.cshared then { y with shared := y.shared + f.credits.toNat }
    else { y with credits := y.credits.upd 0 f.cvc.toNat (· + f.credits.toNat) }
  w1.drainTx p false ((w1.port p.val).txq.length + 1)

/-- The peer's ACK passes flits of the replay buffer (R272). -/
def Port.takeLinkAck (p : Port) (ack : BitVec 16) : Port :=
  { p with replay := p.replay.filter fun f => decide ((f.seq - ack).toNat < 32768) }

/-- A flit that cannot be used is discarded and counted (R269). -/
def Work.badFlit (w : Work) (p : Fin 32) : Work :=
  w.updPort p.val fun y => { y with flitErrors := satAdd y.flitErrors 1 }

/-- The codewords that a flit reports (R267, R297): corrected symbols, and codewords that more than 15 bad symbols leave uncorrected. -/
def Port.countCodewords (p : Port) (f : Flit) : Port :=
  f.codewords.foldl (fun (p : Port) c =>
    if c.1 ≤ 15 then { p with corrected := satAdd p.corrected c.1, recent := p.recent + c.1 } else { p with uncorrectable := satAdd p.uncorrectable 1 }) p

/-- A good flit's header (R268, R272, R279). -/
def Work.flitHeader (w : Work) (p : Fin 32) (f : Flit) : Work :=
  (w.updPort p.val fun y => y.takeLinkAck f.ack).takeCredit p f

/-- A flit in hand is of no use (R269): a type that the table does not list, or a link command that it does not. -/
def unlisted (f : Flit) : Bool := decide (4 ≤ f.typ.toNat) || (f.typ == 3 && !([1, 2, 3, 4, 5, 6] : List Byte).contains (f.body.getD 0 0))

/-- IDLE and HOLD flits (R267-R269, R272, R279): their header alone counts. A flit of another listed type is not for this row. -/
def Work.takeEmpty (w : Work) (p : Fin 32) (typ : BitVec 4) (f : Flit) : Work :=
  let w1 := w.updPort p.val fun y => y.countCodewords f
  if !flitGood f || unlisted f then w1.badFlit p else if f.typ = typ then w1.flitHeader p f else w

/-- The head of a CTL flit (R267, R268, R272, R279): its codewords are counted, and its ACK and credits taken. -/
def Work.ctlHead (w : Work) (r : CtlRx) : Work :=
  (w.updPort r.port.val fun y => y.countCodewords (CtlRx.flit r)).flitHeader r.port (CtlRx.flit r)

/-- A CTL flit brings a link command (R267-R269, R272, R279): its header counts, then the command acts; one that a codeword left failed
is discarded. -/
def Work.takeCtl (w : Work) (r : CtlRx) (act : Work → Work) : Work :=
  if flitFailed (CtlRx.flit r) then (w.updPort r.port.val fun y => y.countCodewords (CtlRx.flit r)).badFlit r.port
  else act (w.ctlHead r)

/-- A NAK is sent and stands until its flit arrives (R269, R272). -/
def Work.sendNak (w : Work) (p : Fin 32) : Work :=
  let e : BitVec 16 := (w.port p.val).rxNext.setWidth 16
  (w.updPort p.val fun y => { y with ctl := .nak e :: y.ctl.filter fun c => match c with | .nak _ => false | _ => true }).sendCtl p
    0x01 (nakArgs e)

/-- A DATA flit is acknowledged (R268, R272): in the flit being filled, or in an IDLE flit, at once (DESIGN CHOICE, log entry 113). -/
def Work.ackFlit (w : Work) (p : Fin 32) : Work :=
  if (w.port p.val).tail.isSome then w.flushTail p else w.sendFlit p 0 0 31 []

/-- A DATA flit on a long-haul port (R273, R361): its number extends its SEQ; a failed one is the next, and it and those that never came
are lost. -/
def Port.takeSpanFlit (p : Port) (f : Flit) : Port :=
  if flitGood f then
    let n := extendSeq (p.rxNext - 1) f.seq
    { p with rxNext := n + 1, cut := if n = p.rxNext then p.cut else p.cut ++ [(p.rxNext, n)] }
  else { p with rxNext := p.rxNext + 1, cut := p.cut ++ [(p.rxNext, p.rxNext + 1)] }

/-- A DATA flit (R267, R269, R272, R273), or one that cannot be used: on a direct port accepted only with the expected SEQ, else a NAK
names it; on a long-haul port a failed one is discarded, with every packet that has bytes in it. -/
def Work.takeData (w : Work) (p : Fin 32) (f : Flit) : Work :=
  let po := w.port p.val
  let w1 := w.updPort p.val fun y => y.countCodewords f
  if flitGood f && !unlisted f && f.typ != 2 then w
  else if !(po.isActive || po.st == 3 || po.st == 4) then w
  else if flitGood f && unlisted f then w1.badFlit p
  else if !flitGood f then
    let w2 := w1.badFlit p
    if po.longHaul then w2.updPort p.val fun y => y.takeSpanFlit f else w2.sendNak p
  else
    let w2 := w1.flitHeader p f
    if po.longHaul then (w2.updPort p.val fun y => y.takeSpanFlit f).ackFlit p
    else if f.seq = po.rxNext.setWidth 16 then
      (w2.updPort p.val fun y =>
        { y with rxNext := y.rxNext + 1, ctl := y.ctl.filter fun c => match c with | .nak _ => false | _ => true }).ackFlit p
    else w2.sendNak p

/-- The flits from a SEQ onward are sent again (R272). -/
def Work.replayFrom (w : Work) (p : Fin 32) (seq : BitVec 16) : Work :=
  let po := w.port p.val
  if po.longHaul then w
  else
    let w1 := w.updPort p.val fun y => y.takeLinkAck seq
    ((w1.port p.val).replay.filter fun f => decide ((f.seq - seq).toNat < 32768)).foldl (fun w f => w.sendFlit p 2 f.seq f.start f.body) w1

/-- The link commands that stand are sent again (R269). -/
def Work.repeatCtl (w : Work) (p : Fin 32) : Work :=
  (w.port p.val).ctl.foldl (fun w c =>
    match c with
    | .nak e => w.sendCtl p 0x01 (nakArgs e)
    | .spare l pair => w.sendCtl p 0x02 (spareArgs l pair)
    | .retrain => w.sendCtl p 0x06 []) w

end Sys2Proof.Machine
end

