-- ==== Sys2Proof/Machine/Links.lean ====
section
/-! DEFINITION. Ports and links: flits, training, discovery, key exchange, probes and slot windows (R264-R281, R290-R293,
R361-R364). -/

namespace Sys2Proof.Machine

/-- Signatures stop (R378, R379): halted, or the device is debug-unlocked. -/
def Ctl.mayIdentify (c : Ctl) : Bool := !c.xmss.halted && !c.fuse.debugUnlocked

/-- What the next signature finds (R379): a fresh block of 4,096 when the reserved one is used up. -/
def XmssSt.reserved (x : XmssSt) : XmssSt := if x.nextIndex = x.reservedEnd then x.freshBlock else x

/-- A leaf index is used (R379, R400). -/
def XmssSt.used (x : XmssSt) : XmssSt := { x with nextIndex := x.nextIndex + 1, signatures := satAdd x.signatures 1 }

/-- A signature is made with the next leaf index (R379); where no block could be reserved, none is made, and `halt` says what then
happens. -/
def State.withIndex (s : State) (f : Nat → Work → Work) (halt : State → State := fun t => t) : State :=
  let x := s.ctl.xmss.reserved
  if x.halted then halt { s with w := s.w.noteHalt x, ctl := { s.ctl with xmss := x } }
  else { s with w := f x.nextIndex.toNat s.w, ctl := { s.ctl with xmss := x.used } }

/-- The end of a grace window that opens now (R395). -/
def Work.graceFrom (w : Work) : Word :=
  let rtt := (List.range 32).foldl (fun m p => if (w.port p).longHaul then max m (w.port p).rttUs.toNat else m) 0
  w.time.ftime + BitVec.ofNat 64 (4 * w.time.periodNs + rtt * 1000)

/-- The security alarm of a packet that fails its tag (R354, R364): logged with the partition of the port, and counted. No event code is
assigned (DESIGN CHOICE, log entry 15). -/
def Work.linkAlarm (w : Work) (p : Fin 32) : Work :=
  let q := (w.port p.val).part
  (w.logEv (portUnit p.val) 0x04FF 4 (partByte q) p.val).updPart q fun x => { x with tagFails := satAdd x.tagFails 1 }

/-- A packet fails its tag (R364, R395): it is counted, with an alarm outside the grace window. -/
def State.noteFail (s : State) (p : Fin 32) : State :=
  let po := s.w.port p.val
  let w1 := s.w.updPort p.val fun y => { y with authFails := satAdd y.authFails 1 }
  let grace := match po.graceEnd with | some e => decide (s.w.time.ftime.toNat < e.toNat) | none => false
  if grace then { s with w := w1, ctl := { s.ctl with scrub := { s.ctl.scrub with graceDrops := satAdd s.ctl.scrub.graceDrops 1 } } }
  else { s with w := w1.linkAlarm p }

/-- A packet that fails its tag (R364): it is discarded and leaves its receive buffer. -/
def State.authFail (s : State) (p : Fin 32) (a : RxPkt) : State := (s.onW fun w => (w.takeRoom p a).settleHold).noteFail p

/-- A packet comes by a port (R361, R364): one that fails its tag is discarded. A port that is not ACTIVE has no key under which a packet
could verify (R362, R395, R404): it only counts. -/
def State.byLink (s : State) (p : Fin 32) (a : RxPkt) (act : Work → Work) : State :=
  if !(s.w.port p.val).isActive then (if (s.w.port p.val).assigned then s.noteFail p else s)
  else if s.w.tagOk p.val a then s.onW fun w => w.fromLink p a act
  else s.authFail p a

/-- A packet for this device comes (R276, R361): from this device itself, or by a port. -/
def State.takePacket (s : State) (p : Fin 32) (a : RxPkt) (here : Fin 8 → Work → Work) (act : Work → Work) : State :=
  match s.w.looped a.pkt with
  | some q => s.onW fun w => (here q (w.unloop q a.pkt)).settleHold
  | none => s.byLink p a act

/-- The rows that carry a packet of one KIND for this device: it reaches its flow (R285). -/
def State.arriveKind (s : State) (p : Fin 32) (a : RxPkt) (ev : MemEvent) (kinds : List Nat) : State :=
  if s.w.isFor a.pkt kinds then
    s.takePacket p a (fun q w => w.receive (pktFlowIn a.pkt q) p a.pkt ev) fun w => w.arrive p a.pkt ev
  else s

/-- IDLE_FLIT (R267-R269, R272, R279). -/
def execIdleFlit (p : Fin 32) (fl : Flit) (s : State) : Host.Outcome State Fault Refusal := .next (s.onW fun w => w.takeEmpty p 0 fl)

/-- HOLD_FLIT (R267-R269, R272, R279). -/
def execHoldFlit (p : Fin 32) (fl : Flit) (s : State) : Host.Outcome State Fault Refusal := .next (s.onW fun w => w.takeEmpty p 1 fl)

/-- DATA_FLIT (R267-R269, R272, R273). -/
def execDataFlit (p : Fin 32) (fl : Flit) (s : State) : Host.Outcome State Fault Refusal := .next (s.onW fun w => w.takeData p fl)

/-- NAK (R272): the transmitter replays from the named SEQ. -/
def execLinkNak (p : CtlRx) (seq : BitVec 16) (s : State) : Host.Outcome State Fault Refusal :=
  .next (s.onW fun w => w.takeCtl p fun w => w.replayFrom p.port seq)

/-- SPARE (R266). -/
def execSpareCmd (p : CtlRx) (lam : Fin 9) (pair : Nat) (s : State) : Host.Outcome State Fault Refusal :=
  .next (s.onW fun w => w.takeCtl p fun w => w.spareMove p.port lam pair)

/-- SPARE_ACK (R266). -/
def execSpareAck (p : CtlRx) (lam : Fin 9) (spare : Fin 9) (s : State) : Host.Outcome State Fault Refusal :=
  .next (s.onW fun w => w.takeCtl p fun w => w.spareDone p.port lam spare)

/-- PROBE (R290, R291, R293). -/
def execProbe (p : CtlRx) (m : ProbeMsg) (s : State) : Host.Outcome State Fault Refusal :=
  .next (s.onW fun w => w.takeCtl p fun w => w.takeProbe p.port m)

/-- PROBE_REPLY (R290, R291). -/
def execProbeReply (p : CtlRx) (t1 t2 t3 : Word) (t4 : Byte) (s : State) : Host.Outcome State Fault Refusal :=
  .next (s.onW fun w => w.takeCtl p fun w => w.takeReply p.port t1 t2 t3 t4)

/-- RETRAIN (R271, R395): the port retrains, and its grace window opens. -/
def execLinkRetrain (p : CtlRx) (s : State) : Host.Outcome State Fault Refusal :=
  .next (s.onW fun w => w.takeCtl p fun w =>
    if (w.port p.port.val).isActive then (w.updPort p.port.val fun y => { y with graceEnd := some w.graceFrom }).retrain p.port false else w)

/-- CTL_REPEAT_TIMER (R269). -/
def execCtlRepeatTimer (p : Fin 32) (s : State) : Host.Outcome State Fault Refusal :=
  .next (s.onW fun w => w.repeatCtl p)

/-- PROBE_TIMER (R290). -/
def execProbeTimer (p : Fin 32) (s : State) : Host.Outcome State Fault Refusal :=
  .next (s.onW fun w => w.sendProbe p)

/-- WAVELENGTH_BAD (R266). -/
def execWavelengthBad (p : Fin 32) (lam : Fin 9) (pair : Nat) (s : State) : Host.Outcome State Fault Refusal :=
  .next (s.onW fun w => w.lamBad p lam pair)

/-- LIGHT_PRESENT (R270). -/
def execLightPresent (p : Fin 32) (lams : BitVec 9) (s : State) : Host.Outcome State Fault Refusal :=
  .next (s.onW fun w => w.lightOn p.val lams)

/-- PORT_TRAIN_COMPLETE (R266, R270). -/
def execPortTrainComplete (p : Fin 32) (good : BitVec 9) (peerOffer : Nat) (s : State) : Host.Outcome State Fault Refusal :=
  .next (s.onW fun w => w.trained p good peerOffer s.ctl.fuse.identity)

/-- PORT_TRAIN_RETRY (R270): a FAILED port trains again. -/
def execPortTrainRetry (p : Fin 32) (s : State) : Host.Outcome State Fault Refusal :=
  .next (s.onW fun w => if (w.port p.val).st = 6 ∧ w.portMayStart p.val = true then w.train p.val else w)

/-- PORT_TRAIN_FAILED (R270): TRAIN that does not complete leaves the port FAILED. -/
def execPortTrainFailed (p : Fin 32) (s : State) : Host.Outcome State Fault Refusal :=
  .next (s.onW fun w => if (w.port p.val).st = 2 then w.portFailed p else w)

/-- HELLO_RETRY (R270): a REFUSED port tries HELLO again. -/
def execHelloRetry (p : Fin 32) (s : State) : Host.Outcome State Fault Refusal :=
  .next (s.onW fun w => if (w.port p.val).st = 7 then w.enterHello p s.ctl.fuse.identity else w)

/-- UNCORRECTABLE_BURST (R271): more than 16 uncorrectable codewords within 1 ms, each counted with the flit that reported it
(R297). -/
def execUncorrectableBurst (p : Fin 32) (s : State) : Host.Outcome State Fault Refusal := .next (s.onW fun w => w.retrain p true)

/-- NAK_NO_PROGRESS (R271). -/
def execNakNoProgress (p : Fin 32) (s : State) : Host.Outcome State Fault Refusal :=
  .next (s.onW fun w =>
    if (w.port p.val).ctl.any fun c => match c with | .nak _ => true | _ => false then w.retrain p true else w)

/-- AUTH_FAIL_BURST (R364): more than 16 tag failures within 1 ms. -/
def execAuthFailBurst (p : Fin 32) (s : State) : Host.Outcome State Fault Refusal :=
  .next (s.onW fun w => w.retrain p true)

/-- A rekey of an ACTIVE port starts (R363): an OFFER, unless an exchange runs. -/
def State.rekeyLink (s : State) (p : Fin 32) : State :=
  let po := s.w.port p.val
  if po.isActive && decide (po.keyPhase = .idle) && s.ctl.mayIdentify then s.withIndex fun i w => w.sendOffer p i else s

/-- A rekey is due (R363): INTERVAL_S has passed since the last exchange, or 2^40 flits have been sent under the keys in use. -/
def Port.rekeyDue (p : Port) (ftime : Word) : Bool :=
  decide (p.exchAt.toNat + p.intervalS.toNat * 1000000000 ≤ ftime.toNat) || decide (p.keyFirst.toNat + 2 ^ 40 ≤ p.txFlit.toNat)

/-- LINK_REKEY_TIMER (R363). -/
def execLinkRekeyTimer (p : Fin 32) (s : State) : Host.Outcome State Fault Refusal :=
  .next (if (s.w.port p.val).rekeyDue s.w.time.ftime then s.rekeyLink p else s)

/-- INTERVAL_S written (R372): less than 60 stores 60. -/
def Port.setInterval (y : Port) (i : BitVec 16) : Port := { y with intervalS := if i.toNat < 60 then 60 else i }

/-- PORT_KEY written with `v` (R4, R363, R372), by a physical function: INTERVAL_S, and a rekey where bit 0 is 1. -/
def execLinkRekey (who : Fn) (p : Fin 32) (v : Word) (s : State) : Host.Outcome State Fault Refusal :=
  .next (s.request who fun s => if who.fn = 0 then
    let s1 : State := { s with w := s.w.updPort p.val fun y => y.setInterval (v.extractLsb' 32 16) }
    if v.getLsbD 0 then s1.rekeyLink p else s1
  else s)

/-- A hello at a port (R274): the first brings the peer's nonce and is answered by a signed one; a signed one is checked, and
the port goes on to KEY or refuses. Signatures that have stopped leave the port in HELLO (R378, R379). -/
def State.takeHello (s : State) (p : Fin 32) (h : HelloMsg) : State :=
  let po := s.w.port p.val
  if po.st ≠ 3 then s
  else
    let s1 : State := { s with w := s.w.updPort p.val fun y => { y with peerNonce := h.nonce } }
    let reply := fun (s : State) =>
      if (s.w.port p.val).sentSigned || !s.ctl.mayIdentify then s
      else s.withIndex fun i w =>
        let mine := w.ownHello p.val s.ctl.fuse.identity (some i)
        (w.updPort p.val fun y => { y with sentSigned := true, sentHello := helloBytes mine }).sendHello p mine
    if h.peerNonce.all fun b => decide (b = 0) then reply s1
    else
      let c := s.w.helloCheck p.val h
      if c = 4 then { s1 with w := (s1.w.refusePeer p 4).refuseConflict p h }
      else if c ≠ 0 then { s1 with w := s1.w.refusePeer p c }
      else
        let s2 := reply s1
        if !(s2.w.port p.val).sentSigned then s2
        else
          let s3 : State := { s2 with w := s2.w.updPort p.val fun y =>
            { y with peer := h.address, peerPort := BitVec.ofNat 5 h.port.toNat, peerIdentity := h.identity, gotHello := helloBytes h } }
          if s3.w.initiator p.val then s3.withIndex fun i w => w.enterKey p i else { s3 with w := s3.w.enterKey p 0 }

/-- HELLO (R274). -/
def execLinkHello (p : Fin 32) (h : HelloMsg) (s : State) : Host.Outcome State Fault Refusal := .next (s.takeHello p h)

/-- The packets of a rekey's message that come by an ACTIVE port (R361, R363, R364): each must verify under the keys that its number
names; the first that does not is counted, and the message is lost. -/
def State.partsOk (s : State) (p : Fin 32) : List RxPkt → State × Bool
  | [] => (s, true)
  | a :: as =>
    if s.w.tagOk p.val a then State.partsOk (s.onW fun w => w.updPort p.val fun y => y.noteRx a) p as else (s.noteFail p, false)

/-- A link key exchange message comes (R361-R363): in KEY in the clear; by an ACTIVE port in packets of KIND 0x0A that carry it and
verify. -/
def State.takeKey (s : State) (p : Fin 32) (code : Byte) (m : KeyRx) (act : State → State) : State :=
  if (s.w.port p.val).isActive then
    if (m.parts.all fun a => a.pkt.kind == 0x0A) && decide (m.parts.flatMap (fun a => a.pkt.payload) = keyBytes code m.msg) then
      let r := s.partsOk p m.parts
      if r.2 then act r.1 else r.1
    else s
  else act s

/-- OFFER (R362, R363). -/
def execLinkOffer (p : Fin 32) (m : KeyRx) (s : State) : Host.Outcome State Fault Refusal :=
  .next (s.takeKey p 1 m fun s =>
    if !s.ctl.mayIdentify then s
    else if s.w.willAccept p.val m.msg then s.withIndex fun i w => w.takeOffer p m.msg i else s.onW fun w => w.takeOffer p m.msg 0)

/-- ACCEPT (R362). -/
def execLinkAccept (p : Fin 32) (m : KeyRx) (s : State) : Host.Outcome State Fault Refusal :=
  .next (s.takeKey p 2 m fun s => s.onW fun w => w.takeAccept p m.msg)

/-- DONE (R362, R363). -/
def execLinkDone (p : Fin 32) (m : KeyRx) (s : State) : Host.Outcome State Fault Refusal :=
  .next (s.takeKey p 3 m fun s => s.onW fun w => w.takeDone p m.msg)

/-- HOLD flits leave (R269, R281). -/
def Work.sendHolds (w : Work) (p : Fin 32) : Nat → Work
  | 0 => w
  | n + 1 => Work.sendHolds (w.sendFlit p 1 0 31 []) p n

/-- The rest of a slot's window carries HOLD flits (R269, R281). -/
def Work.holdWindow (w : Work) (p : Fin 32) (k gone len : Nat) : Work :=
  ((w.flushTail p).updPort p.val fun y => { y with windowUsed := y.windowUsed.set 0 k len }).sendHolds p (len - gone)

/-- Time passes to the start of a slot's window, where that is still to come in the frame (R280). -/
def Work.toWindow (w : Work) (p : Fin 32) (start : Nat) : Work :=
  (w.advance ((w.port p.val).flitNs start - w.time.ftime.toNat % w.time.periodNs)).getD w

/-- The head of a slot's queue is sent in its window when it fits in what remains (R281); otherwise, and where it comes to the head of a
window that is just used up, it waits for a later frame, and MISSES increases. The window of an empty queue, and that of a paused partition (R91), carries HOLD flits. -/
def Work.windowSend (w0 : Work) (p : Fin 32) (k : Nat) : Work :=
  match (w0.port p.val).window w0.frame k with
  | none => w0
  | some (start, len) =>
    let w := w0.toWindow p start
    let po := w.port p.val
    let gone := w.windowGone p k start
    if !po.isActive || decide (len ≤ gone) then w0
    else
      match po.slotQ.get [] k with
      | [] => w.holdWindow p k gone len
      | x :: rest =>
        let n := po.charge x.pkt
        if (w.part po.part).paused then w.holdWindow p k gone len
        else if gone + n ≤ len ∧ po.replayRoom x.pkt = true then
          let late := decide (gone + n = len) && !rest.isEmpty
          ((w.updPort p.val fun y =>
            { y with slotQ := y.slotQ.set [] k rest, windowUsed := y.windowUsed.set 0 k (gone + n)
                     misses := if late then satAdd y.misses 1 else y.misses }).putPacket p x.pkt).giveRoom x.hold
        else (w.updPort p.val fun y => { y with misses := satAdd y.misses 1 }).holdWindow p k gone len

/-- SCHEDULED_WINDOW_SEND (R281). -/
def execScheduledWindowSend (p : Fin 32) (slot : Fin 64) (s : State) : Host.Outcome State Fault Refusal :=
  .next (s.onW fun w => w.windowSend p slot.val)

/-- HOLDOVER (R292): without its reference for 5 ms the device keeps its frequency correction and elects again. -/
def Work.holdover (w : Work) : Work :=
  if w.time.st = 1 ∧ w.time.refHolder = false then
    let w1 := (List.range 32).foldl (fun w i =>
      if (w.port i).heard.any (fun h => decide (h.1 = w.time.reference)) then w.updPort i fun y => { y with heard := none } else w) w
    ({ w1 with time := { w1.time with st := 2 } } : Work).elect
  else w

/-- HOLDOVER (R292). -/
def execHoldover (s : State) : Host.Outcome State Fault Refusal := .next (s.onW Work.holdover)

end Sys2Proof.Machine
end

