-- ==== Sys2Proof/Machine/Packets.lean ====
section
/-! DEFINITION. Packets as they arrive by a port, flow timers, and the rows of commit, rollback and reductions (R276,
R283-R288, R309-R328, R414-R422, R536, R537). -/

namespace Sys2Proof.Machine

/-- PACKET_FORWARD (R276, R288, R364): a packet that fails its tag is discarded; another is routed on, and a multicast one copied. -/
def execPacketForward (p : Fin 32) (pk : RxPkt) (ev : MemEvent) (s : State) : Host.Outcome State Fault Refusal :=
  .next (if pk.pkt.mcast || decide (pk.pkt.dest ≠ s.w.time.address) then s.byLink p pk fun w => w.arrive p pk.pkt ev else s)

/-- WRITE_PACKET (R205, R285, R287). -/
def execWritePacket (p : Fin 32) (pk : RxPkt) (ev : MemEvent) (s : State) : Host.Outcome State Fault Refusal :=
  .next (s.arriveKind p pk ev [0x01])

/-- READ_REQUEST (R287, R537). -/
def execReadRequest (p : Fin 32) (pk : RxPkt) (ev : MemEvent) (s : State) : Host.Outcome State Fault Refusal :=
  .next (s.arriveKind p pk ev [0x02])

/-- READ_REPLY (R537). -/
def execReadReply (p : Fin 32) (pk : RxPkt) (s : State) : Host.Outcome State Fault Refusal :=
  .next (s.arriveKind p pk .ok [0x03])

/-- An ACK or NAK arrives (R276, R285): from this device itself, or by a port. -/
def State.ackArrive (s : State) (p : Fin 32) (pk : RxPkt) : State :=
  s.takePacket p pk (fun q w => w.ackHere q p pk.pkt) fun w => w.ackByPort p pk.pkt

/-- ACK_PACKET (R285, R286, R288). -/
def execAckPacket (p : Fin 32) (pk : RxPkt) (s : State) : Host.Outcome State Fault Refusal :=
  .next (if pk.pkt.kind = 0x04 then s.ackArrive p pk else s)

/-- FLOW_NAK_PACKET (R286). -/
def execFlowNakPacket (p : Fin 32) (pk : RxPkt) (s : State) : Host.Outcome State Fault Refusal :=
  .next (if pk.pkt.kind = 0x05 then s.ackArrive p pk else s)

/-- FLOW_ACK_EMIT (R285): deliveries since the last ACK are acknowledged. -/
def execFlowAckEmit (k : FlowKey) (s : State) : Host.Outcome State Fault Refusal :=
  .next (s.onW fun w => if (w.recvFlow k).delivered = 0 then w else w.ackFlow k)

/-- FLOW_NAK_EMIT (R285): E has not arrived by the next tick. -/
def execFlowNakEmit (k : FlowKey) (s : State) : Host.Outcome State Fault Refusal :=
  .next (s.onW fun w =>
    let f := w.recvFlow k
    if f.nakDue then (w.setRecv k { f with nakDue := false }).sendAck k 0x05 f.e 0 false else w)

/-- FLOW_TIMEOUT (R286): the timer runs while something is retained and no hold stands. -/
def execFlowTimeout (k : FlowKey) (s : State) : Host.Outcome State Fault Refusal :=
  .next (s.onW fun w => if (w.sendFlow k).held then w else w.flowAgain k)

/-- FLOW_RESET (R286). -/
def execFlowReset (p : Fin 32) (pk : RxPkt) (s : State) : Host.Outcome State Fault Refusal :=
  .next (
    if pk.pkt.kind = 0x09 then
      s.takePacket p pk (fun q w => w.resetFlow q pk.pkt) fun w => w.resetByPort p pk.pkt
    else s)

/-- SLUICE_SIGNAL_MESSAGE (R94, R536). -/
def execSluiceSignalMessage (p : Fin 32) (pk : RxPkt) (s : State) : Host.Outcome State Fault Refusal :=
  .next (s.arriveKind p pk .ok [0x06])

/-- SLUICE_PUBLICATION (R94, R416, R536). -/
def execSluicePublication (p : Fin 32) (pk : RxPkt) (s : State) : Host.Outcome State Fault Refusal :=
  .next (s.arriveKind p pk .ok [0x07])

/-- COMMIT_DECISION (R415, R536): sent by the home, or received by HOME2, whose ACK acknowledges it. -/
def execCommitDecision (q : Fin 8) (job : BitVec 16) (rx : Option (Fin 32 × RxPkt)) (s : State) :
    Host.Outcome State Fault Refusal :=
  .next (
    match rx with
    | none => s.onW fun w => w.sendDecision q job
    | some (p, pk) => s.arriveKind p pk .ok [0x0E])

/-- COMMIT_DEADLINE_EXPIRY (R415). -/
def execCommitDeadlineExpiry (q : Fin 8) (job : BitVec 16) (s : State) : Host.Outcome State Fault Refusal :=
  .next (s.onW fun w => w.commitDeadline q job)

/-- STEP_ABORT (R417). -/
def execStepAbort (p : Fin 32) (pk : RxPkt) (s : State) : Host.Outcome State Fault Refusal :=
  .next (s.arriveKind p pk .ok [0x0B])

/-- HOME2_TAKEOVER (R418). -/
def execHome2Takeover (q : Fin 8) (job : BitVec 16) (s : State) : Host.Outcome State Fault Refusal :=
  .next (s.onW fun w => w.takeOver q job)

/-- STEP_COMMIT_APPLY (R416): a COMMITTED outcome that has been learned takes effect. -/
def execStepCommitApply (q : Fin 8) (job : BitVec 16) (s : State) : Host.Outcome State Fault Refusal :=
  .next (s.onW fun w =>
    match (w.commit q job).learned with
    | some d => if d.committed then (w.commitStep q job d .ok).1 else w
    | none => w)

/-- STEP_ROLLBACK (R419): a FAILED outcome that has been learned takes effect. -/
def execStepRollback (q : Fin 8) (job : BitVec 16) (s : State) : Host.Outcome State Fault Refusal :=
  .next (s.onW fun w =>
    match (w.commit q job).learned with
    | some d => if d.committed then w else w.rollbackStep q job d
    | none => w)

/-- The contexts of a job that wait for their restart start again, in a frame's segment (R419). -/
def Work.restartJob (w : Work) (q : Fin 8) (job : BitVec 16) : Work :=
  ((w.ctxsOf q job).filter fun c => (w.ctx c).restart).foldl (fun w c => w.restartCtx c w.frame)
    (w.updCommit q job fun s => { s with replayAt := none })

/-- CONTEXT_RESTART (R419): the replay of a job whose frame has come. -/
def execContextRestart (q : Fin 8) (job : BitVec 16) (s : State) : Host.Outcome State Fault Refusal :=
  .next (s.onW fun w =>
    match (w.commit q job).replayAt with
    | some f => if f ≤ w.frame then w.restartJob q job else w
    | none => w)

/-- CODE_DELTA (R421). -/
def execCodeDelta (p : Fin 32) (pk : RxPkt) (s : State) : Host.Outcome State Fault Refusal :=
  .next (s.arriveKind p pk .ok [0x0C])

/-- A contribution that arrives (R422): for the slot that rebuilds its group; where none does, for no slot. -/
def State.takeContribution (s : State) (p : Fin 32) (pk : RxPkt) (slot : Fin 4) : State :=
  let i := s.w.rebuildFor ((s.w.looped pk.pkt).getD (s.w.port p.val).part) pk.pkt
  if i = none ∨ i = some slot.val then s.arriveKind p pk .ok [0x0D] else s

/-- REBUILD_CONTRIBUTION (R422): one that arrives, or one that this device owes as a survivor. -/
def execRebuildContribution (p : Fin 32) (c : Contribution) (slot : Fin 4) (s : State) : Host.Outcome State Fault Refusal :=
  .next (match c with
    | .arrived pk => s.takeContribution p pk slot
    | .due q job group dest symbol lost chunk => s.onW fun w => w.sendContribution q job group dest symbol lost chunk)

/-- REBUILD_CHUNK (R422, R423). -/
def execRebuildChunk (slot : Fin 4) (verified : Bool) (s : State) : Host.Outcome State Fault Refusal :=
  .next (s.onW fun w => w.rebuildChunk slot.val verified)

/-- RED_CONTRIBUTION_PACKET (R309, R319, R320). -/
def execRedContributionPacket (p : Fin 32) (pk : RxFind) (s : State) : Host.Outcome State Fault Refusal :=
  .next (s.arriveKind p pk.rx pk.ev [0x10])

/-- RED_PARTIAL_PACKET (R317). -/
def execRedPartialPacket (p : Fin 32) (pk : RxFind) (s : State) : Host.Outcome State Fault Refusal :=
  .next (s.arriveKind p pk.rx pk.ev [0x11])

/-- RED_RESULT_PACKET (R326). -/
def execRedResultPacket (p : Fin 32) (pk : RxFind) (s : State) : Host.Outcome State Fault Refusal :=
  .next (s.arriveKind p pk.rx pk.ev [0x12])

/-- RED_NOTICE_PACKET (R326). -/
def execRedNoticePacket (p : Fin 32) (pk : RxFind) (s : State) : Host.Outcome State Fault Refusal :=
  .next (s.arriveKind p pk.rx pk.ev [0x13])

/-- RED_RETRY_PACKET (R324). -/
def execRedRetryPacket (p : Fin 32) (pk : RxFind) (s : State) : Host.Outcome State Fault Refusal :=
  .next (s.arriveKind p pk.rx pk.ev [0x14])

/-- RED_UNKNOWN_KIND (R314). -/
def execRedUnknownKind (p : Fin 32) (pk : RxPkt) (s : State) : Host.Outcome State Fault Refusal :=
  .next (s.arriveKind p pk .ok [0x15, 0x16, 0x17, 0x18, 0x19, 0x1A, 0x1B, 0x1C, 0x1D, 0x1E, 0x1F])

/-- RED_NODE_CLOSE (R319). -/
def execRedNodeClose (job : BitVec 16) (bucket : BucketAt) (s : State) : Host.Outcome State Fault Refusal :=
  .next (s.onW fun w => (w.redClose job bucket.bucket bucket.ev).redUnhold)

end Sys2Proof.Machine
end

