-- ==== Sys2Proof/Machine/Units.lean ====
section
/-! DEFINITION. Loss, substitution, fencing and reset of units (R14-R19, R143-R147, R243-R248, R409-R412, R438). -/

namespace Sys2Proof.Machine

/-- The four contexts of a core. -/
def coreCtxs (n : Fin 8) (c : Fin 64) : List CtxId := siblings ⟨n, c, 0⟩

/-- A context loses its core (R17, R412): what it has dispatched ends with 0x40 and it is ABSENT; the uses of split-K groups that it
was the root of fail (R173, R176). -/
def Work.loseCtx (w : Work) (c : CtxId) : Work :=
  let w1 := if (w.ctx c).st = .empty ∨ (w.ctx c).st = .absent then w else w.fault c none (w.ctx c).dispatchPc 0x40 0
  let w2 := ((w1.updCtx c fun k => { k with st := .absent, infl := [] }).dropOrphans c).disown c
  ((w2.combineUses.filter fun u => decide (u.ctx = c)).foldl (fun w u => w.useFailed u) w2).sweepUses

/-- What a core holds is lost (R412): registers and local memory. -/
def Work.wipeCore (w : Work) (n : Fin 8) (c : Fin 64) : Work :=
  w.updCore ⟨n, c, 0⟩ Core.emptied

/-- The spare that may take a core's place: of its pair of clusters, free and not failed (R14). -/
def SliceSt.spareFor (s : SliceSt) (c : Nat) : Option Nat :=
  let k := c / 16
  let sp := s.spares.get .free k
  if sp.inUse || sp.failed || s.waitingSpare.any (fun e => decide (e.2 = k)) then none else some k

/-- A spare that stood in for a core has failed with it (R35). -/
def SliceSt.spareLost (s : SliceSt) (c : Nat) : SliceSt :=
  let k := c / 16
  let sp := s.spares.get .free k
  if sp.inUse ∧ sp.core.toNat = c then { s with spares := s.spares.set .free k { sp with inUse := false, failed := true } } else s

/-- The loss of a unit of a slice is logged (R424). The event's code is DESIGN CHOICE (log entry 15). -/
def Work.logLoss (w : Work) (n : Nat) (u : BitVec 16) : Work :=
  w.logEv u 0x06FF 3 (((w.sliceOwner n).map partByte).getD 0xFF) u.toNat

/-- A core is lost (R16, R17, R412, R424): its work ends, its epoch increases, and at the next frame boundary a spare enters or the
core is absent. `sub` says whether a spare may take its place. -/
def Work.loseCore (w : Work) (n : Fin 8) (c : Fin 64) (sub : Bool) : Work :=
  if (w.slice n.val).coreAbsent.getLsbD c.val || (w.slice n.val).waitingSpare.any (fun e => decide (e.1 = c.val)) then w
  else
    let w1 := (coreCtxs n c).foldl (fun w x => w.loseCtx x) w
    let w2 := ((w1.wipeCore n c).newEpoch (coreUnit n.val c.val)).logLoss n.val (coreUnit n.val c.val)
    w2.updSlice n.val fun s =>
      { s with waitingSpare := s.waitingSpare ++ [(c.val, if sub then (s.spareFor c.val).getD 4 else 4)] }

/-- CORE_FAILURE (R16, R17, R412). -/
def execCoreFailure (n : Fin 8) (core : Fin 64) (s : State) : Host.Outcome State Fault Refusal :=
  .next (s.onW fun w => w.loseCore n core true)

/-- A spare enters service for a failed core at a frame boundary (R15, R16), with the B it brings (R147); sequential operation ends, if
it does, at the next tick (R154). -/
def Work.substitute (w : Work) (n : Fin 8) (c : Fin 64) (b : BitVec 2) : Work :=
  match (w.slice n.val).waitingSpare.find? fun e => decide (e.1 = c.val ∧ e.2 < 4) with
  | none => w
  | some e =>
    let w1 := (coreCtxs n c).foldl (fun w x => w.updCtx x fun _ => .empty) w
    let w2 := w1.updCore ⟨n, c, 0⟩ fun k => { Core.zero with bState := b, sequential := k.sequential, lastB := k.lastB }
    w2.updSlice n.val fun s =>
      { s with waitingSpare := s.waitingSpare.filter fun x => decide (x ≠ e)
               spares := s.spares.set .free e.2 ⟨true, false, BitVec.ofNat 6 c.val⟩ }

/-- SPARE_SUBSTITUTION (R16): a spare enters service at a tick. -/
def execSpareSubstitution (n : Fin 8) (core : Fin 64) (b : BitVec 2) (s : State) : Host.Outcome State Fault Refusal :=
  .next (if s.w.time.atTick then s.onW fun w => w.substitute n core b else s)

/-- The cores without a spare are absent from the frame boundary on, and a spare that was lost with its core shows it then (R17, R35,
R36). -/
def SliceSt.markAbsent (s : SliceSt) : SliceSt :=
  let gone := s.waitingSpare.filter fun e => decide (e.2 = 4)
  { gone.foldl (fun s e => s.spareLost e.1) s with
    coreAbsent := gone.foldl (fun m e => m ||| BitVec.ofNat 64 (2 ^ e.1)) s.coreAbsent
    waitingSpare := s.waitingSpare.filter fun e => decide (e.2 ≠ 4) }

/-- CLUSTER_LOSS (R412): the cluster's memory is lost and its eight cores are absent until the next boot. -/
def execClusterLoss (n : Fin 8) (cl : Fin 8) (s : State) : Host.Outcome State Fault Refusal :=
  .next (s.onW fun w =>
    let cores := (List.range 64).filter fun c => decide (c / 8 = cl.val)
    let w1 := cores.foldl (fun w c => w.loseCore n ⟨c % 64, Nat.mod_lt _ (by decide)⟩ false) w
    (({ w1 with clusters := w1.clusters.set [] (8 * n.val + cl.val) [] } : Work).newEpoch (unitId 0 n.val (0x80 + cl.val))).logLoss n.val
      (unitId 0 n.val (0x80 + cl.val)))

/-- A slice is lost (R412): its contexts, cores, memories and Peat; the partition that holds it fails, and its step aborts say so
(R417). -/
def Work.loseSlice (w : Work) (n : Fin 8) : Work :=
  if (w.slice n.val).mappedOut then w
  else
    let w0 := match w.sliceOwner n.val with
      | some q => w.failPartition q 0x40
      | none => w
    let w1 := (w0.liveCtxs.filter fun c => decide (c.slice = n)).foldl (fun w c => w.loseCtx c) w0
    let w2 : Work := { w1 with
      cores := w1.cores.filter fun e => decide (e.1 / 64 ≠ n.val)
      clusters := w1.clusters.filter fun e => decide (e.1 / 8 ≠ n.val) }
    let w3 := (w2.eraseSlice n.val).updSlice n.val fun s => { s with mappedOut := true, peat := s.peat.emptied, waitingSpare := [] }
    [unitId 0 n.val 0xFF, unitId 1 n.val 0xFF, stackUnit (2 * n.val) 0xFF, stackUnit (2 * n.val + 1) 0xFF].foldl
      (fun w u => w.newEpoch u) (w3.logLoss n.val (unitId 0 n.val 0xFF))

/-- SLICE_LOSS (R412). -/
def execSliceLoss (n : Fin 8) (s : State) : Host.Outcome State Fault Refusal := .next (s.onW fun w => w.loseSlice n)

/-- An instruction runs on a half of B (R122, R145): a started product that took it. -/
def usesHalf (x : InFlight) (half : Bool) : Bool := x.half.getLsbD half.toNat

/-- Bits set in the state of B. -/
def halves (b : BitVec 2) : Nat := (b.getLsbD 0).toNat + (b.getLsbD 1).toNat

/-- A half of B fails (R147): the product in its array, the last that started on it, raises 0x40, and those before it that are in the
adder tree complete (R123); the state of B changes at the next tick, and the loss is counted with it (R153). -/
def Work.loseHalf (w : Work) (n : Fin 8) (c : Fin 64) (half : Bool) : Work :=
  let id : CtxId := ⟨n, c, 0⟩
  let now := (w.core id).bPending.getD (w.core id).bState
  let bit : BitVec 2 := if half then 2 else 1
  if now &&& bit ≠ 0 then w
  else
    let runs := (siblings id).flatMap fun x =>
      ((w.ctx x).infl.filter fun y => decide (y.op.queue = .B ∧ y.stat = .started) && usesHalf y half).map fun y => (x, y)
    let last := runs.foldl (fun (b : Option (CtxId × InFlight)) e =>
      match b with
      | none => some e
      | some o => if o.2.startNo < e.2.startNo then some e else some o) none
    let w1 := match last with
      | some (x, y) => w.fault x (some y) y.pc 0x40 0
      | none => w
    let after := now ||| bit
    (w1.updCore id fun k => { k with bPending := some after }).logEv (coreUnit n.val c.val) 0x0680 3
        (((w1.sliceOwner n.val).map partByte).getD 0xFF) (half.toNat + (decide (after = 3)).toNat * 4)

/-- B_HALF_FAILURE (R147). -/
def execBHalfFailure (n : Fin 8) (core : Fin 64) (half : Bool) (s : State) : Host.Outcome State Fault Refusal :=
  .next (s.onW fun w => w.loseHalf n core half)

/-- Whether a core's condition calls for sequential operation (R143). -/
def Work.wantsSequential (w : Work) (c : CtxId) : Bool :=
  decide ((w.core c).bState ≠ 0) ||
    (siblings c).any fun d => (w.ctx d).seqMode && !(decide ((w.ctx d).st = .empty ∨ (w.ctx d).st = .absent))

/-- A core at a tick (R143, R144, R147, R153): a failed half is out and counted, and sequential operation begins or ends. On entering,
the F group goes first. -/
def Work.coreTick (w : Work) (c : CtxId) : Work :=
  let w1 := match (w.core c).bPending with
    | some b => (w.updCore c fun k => { k with bState := b, bPending := none }).updSlice c.slice.val fun s =>
        { s with runtimeLosses := satAdd s.runtimeLosses (halves (b &&& ~~~(w.core c).bState)) }
    | none => w
  let want := w1.wantsSequential c
  if want == (w1.core c).sequential then w1
  else w1.updCore c fun k => { k with sequential := want, lastB := if want then true else k.lastB }

/-- SEQUENTIAL_MODE_CHANGE (R143). -/
def execSequentialModeChange (n : Fin 8) (core : Fin 64) (s : State) : Host.Outcome State Fault Refusal :=
  .next (s.onW fun w => w.coreTick ⟨n, core, 0⟩)

/-- The cores that hold something. -/
def Work.liveCores (w : Work) : List CtxId :=
  ((w.cores.map fun (e : Nat × Core) => e.1 * 4) ++ w.ctxs.map fun (e : Nat × Ctx) => e.1 / 4 * 4).dedup.map ctxOfKey

/-- CHANNEL_FAIL (R248). -/
def execChannelFail (s : Fin 16) (j : Fin 16) (st : State) : Host.Outcome State Fault Refusal :=
  .next (st.onW fun w => w.failChannel s.val j.val)

/-- The patrol reads a granule (R246): it corrects, or poisons and logs; no requester receives a fault. -/
def Work.patrol (w : Work) (pa : Nat) (ev : MemEvent) : Work :=
  if w.reach pa ≠ 0 then w
  else match ev with
    | .corrected n => w.corrected pa n
    | .uncorrectable n => w.uncorrectable pa n
    | _ => w

/-- PATROL_READ (R246). -/
def execPatrolRead (pa : BitVec 48) (ev : MemEvent) (s : State) : Host.Outcome State Fault Refusal :=
  .next (s.onW fun w => w.patrol pa.toNat ev)

/-- REFRESH (R243): a refresh interval starts, with t_REFI as the temperature asks. -/
def execRefresh (s : Fin 16) (st : State) : Host.Outcome State Fault Refusal :=
  .next (st.onW fun w => w.updStack s.val fun x =>
    { x with refreshes := x.refreshes + 1, tRefi := if x.hot then 1950 else 3900 })

/-- STACK_TEMP_CROSSING (R243): 85 °C is crossed; t_REFI changes with the next interval. -/
def execStackTempCrossing (s : Fin 16) (hot : Bool) (st : State) : Host.Outcome State Fault Refusal :=
  .next (st.onW fun w => w.updStack s.val fun x => { x with hot := hot })

/-- REFRESH_MODE_CHANGE (R243): a written mode takes effect. -/
def execRefreshModeChange (s : Fin 16) (st : State) : Host.Outcome State Fault Refusal :=
  .next (st.onW fun w => w.updStack s.val fun x => { x with refreshEff := x.refreshMode })

/-- The fields of a unit identifier (R18). -/
def unitClass (u : BitVec 16) : Nat := bitsOf u.toNat 12 4
/-- INDEX (R18). -/
def unitIndex (u : BitVec 16) : Nat := bitsOf u.toNat 8 4
/-- UNIT (R18). -/
def unitNo (u : BitVec 16) : Nat := bitsOf u.toNat 0 8

/-- The unit identifiers that HLTH.FENCE acts on (R18, R438): of classes 0x0 and 0x2. -/
def fenceable (u : BitVec 16) : Bool :=
  let n := unitNo u
  (unitClass u == 0 && decide (unitIndex u < 8) &&
    (decide (n < 0x44) || (decide (0x80 ≤ n) && decide (n < 0x88)) || n == 0xFF)) ||
  (unitClass u == 2 && decide (unitIndex u < 2) && (decide (n < 0x10) || (decide (0x40 ≤ n) && decide (n < 0x44)) || n == 0xFF))

/-- The cores of a unit of class 0x0 (R18): one, a cluster's, or the die's. -/
def unitCores (u : BitVec 16) : List CtxId :=
  if unitClass u ≠ 0 then []
  else
    let n := unitNo u
    ((List.range 64).filter fun c => decide (n = c ∨ n = 0x80 + c / 8 ∨ n = 0xFF)).map fun c =>
      ⟨partFin (unitIndex u), ⟨c % 64, Nat.mod_lt _ (by decide)⟩, 0⟩

/-- The ports of a unit of class 0x2 (R18): one, or the die's. -/
def unitPorts (u : BitVec 16) : List (Fin 32) :=
  if unitClass u ≠ 2 then []
  else
    let n := unitNo u
    ((List.range 16).filter fun p => decide (n = p ∨ n = 0xFF)).map fun p => portFin (16 * unitIndex u + p)

/-- An instruction that has started, or a transfer that has sent a packet (R410). -/
def InFlight.begun (x : InFlight) : Bool := !(x.stat = .queued || x.stat = .waitSpace || x.stat = .waitRefs)

/-- A context of a fenced unit (R410): what it has not started ends with 0x60, and so does the context; the number of
instructions ended. -/
def Work.fenceCtx (w : Work) (c : CtxId) : Nat × Work :=
  let k := w.ctx c
  let n := k.infl.countP fun x => !x.begun
  let w1 := w.updCtx c fun k => { k with infl := k.infl.filter InFlight.begun }
  if k.st = .running ∨ k.st = .waiting ∨ k.st = .paused ∨ k.st = .loaded then (n, w1.fault c none k.dispatchPc 0x60 0) else (n, w1)

/-- A list of contexts fenced. -/
def Work.fenceCtxs (w : Work) : List CtxId → Nat × Work
  | [] => (0, w)
  | c :: cs =>
    let (n, w1) := w.fenceCtx c
    let (m, w2) := Work.fenceCtxs w1 cs
    (n + m, w2)

/-- A unit of class 0x0 is absent (R17, R35, R438): its slice is mapped out, it is a core or a cluster of cores without a spare, or a
spare that has failed. -/
def Work.unitAbsent (w : Work) (u : BitVec 16) : Bool :=
  let s := w.slice (unitIndex u)
  let n := unitNo u
  decide (unitClass u = 0) && (s.mappedOut ||
    (if 0x40 ≤ n ∧ n < 0x44 then (s.spares.get .free (n - 0x40)).failed
     else decide (n ≠ 0xFF) && (unitCores u).all fun c => s.coreAbsent.getLsbD c.core.val))

/-- Work is in flight on a unit (R410): instructions of its cores, or transfers that have sent a packet by its ports. -/
def Work.unitBusy (w : Work) (u : BitVec 16) : Bool :=
  ((unitCores u).any fun c => (siblings c).any fun d => !(w.ctx d).infl.isEmpty) || (unitPorts u).any fun p => w.portBusy p.val

/-- A unit is reset (R410, R412): its cores are cleared and it is in reset until it leaves it. -/
def Work.resetUnit (w : Work) (u : BitVec 16) : Work :=
  let w1 := (unitCores u).foldl (fun w c =>
    ((siblings c).foldl (fun w d => if (w.ctx d).st = .absent then w else w.updCtx d fun _ => .empty) w).updCore c fun k =>
      k.emptied) w
  { w1 with inReset := u :: w1.inReset.filter fun x => decide (x ≠ u) }

/-- A drain has ended when nothing is in flight: the unit is reset or held out of service (R410, R438). -/
def State.settleFence (s : State) : State :=
  if s.ctl.fence.st = 1 ∧ s.w.unitBusy s.ctl.fence.unit = false then
    let u := s.ctl.fence.unit
    { s with w := if s.ctl.fence.act = 0 then s.w.resetUnit u else s.w, ctl := { s.ctl with fence := { s.ctl.fence with st := 2 } } }
  else s

/-- Every drain that has ended (R410, R438), those that a later GO left behind too (DEDUCED, log entry 85). -/
def State.endDrains (s : State) : State :=
  let s1 := s.settleFence
  let l := s1.ctl.fence.others
  let ended := l.filter fun e => !s1.w.unitBusy e.1
  { s1 with
    w := ended.foldl (fun w e => if e.2 = 0 then w.resetUnit e.1 else w) s1.w
    ctl := { s1.ctl with fence := { s1.ctl.fence with others := l.filter fun e => s1.w.unitBusy e.1 } } }

/-- A unit drains (R438, R441). -/
def FenceSt.drains (f : FenceSt) (u : BitVec 16) : Bool :=
  (decide (f.st = 1) && decide (f.unit = u)) || f.others.any fun e => decide (e.1 = u)

/-- The drains that go on while a GO names a unit. -/
def FenceSt.besides (f : FenceSt) (u : BitVec 16) : List (BitVec 16 × BitVec 2) :=
  (if f.st = 1 then (f.unit, f.act) :: f.others else f.others).filter fun e => decide (e.1 ≠ u)

/-- HLTH.FENCE actions 0 and 1 (R410, R438): fence, abort and drain. A second fence of a unit that drains is ignored (R441). -/
def State.fenceUnit (s : State) (u : BitVec 16) (act : BitVec 2) : State :=
  if s.ctl.fence.drains u then s
  else if fenceable u then
    let ctxs := (unitCores u).flatMap siblings
    let w0 : Work := { s.w with fenced := u :: s.w.fenced.filter fun x => decide (x ≠ u) }
    let (n, w1) := w0.fenceCtxs (ctxs.filter fun c => !((w0.ctx c).st = .empty || (w0.ctx c).st = .absent))
    let w2 := (unitPorts u).foldl (fun w p => w.drainPort p) w1
    (({ s with w := w2, ctl := { s.ctl with fence :=
      { aborted := satAdd 0 n, unit := u, act := act, st := 1, named := true, others := s.ctl.fence.besides u } } } : State)).settleFence
  else s

/-- FENCE_RESET (R432, R438): by physical functions. -/
def execFenceReset (who : Fn) (u : BitVec 16) (s : State) : Host.Outcome State Fault Refusal :=
  .next (s.request who fun s => if physical who then s.fenceUnit u 0 else s)

/-- FENCE_HOLD (R438). -/
def execFenceHold (who : Fn) (u : BitVec 16) (s : State) : Host.Outcome State Fault Refusal :=
  .next (s.request who fun s => if physical who then s.fenceUnit u 1 else s)

/-- A unit returns to service (R438): it is fenced no more, and its ports start. -/
def State.returnUnit (s : State) (u : BitVec 16) : State :=
  if fenceable u then
    let w1 : Work := { s.w with fenced := s.w.fenced.filter fun x => decide (x ≠ u) }
    let w2 := (unitPorts u).foldl (fun w p => w.portStart p.val) w1
    { s with w := w2, ctl := { s.ctl with fence := { aborted := 0, unit := u, act := 2, st := 0, named := true, others := s.ctl.fence.besides u } } }
  else s

/-- RETURN_TO_SERVICE (R438). -/
def execReturnToService (who : Fn) (u : BitVec 16) (s : State) : Host.Outcome State Fault Refusal :=
  .next (s.request who fun s => if physical who then s.returnUnit u else s)

/-- Every requester ends the requests that it still holds for an old epoch with 0x40 (R19, R409). -/
def Work.staleWrites (w : Work) : Work :=
  w.liveCtxs.foldl (fun w c => ((w.ctx c).infl.filter w.staleReply).foldl (fun w x => w.endStale c x.id) w) w

/-- UNIT_RESET_EXIT (R19, R409): the unit leaves reset, with a new epoch; requests held for the old one end with 0x40. -/
def execUnitResetExit (u : BitVec 16) (s : State) : Host.Outcome State Fault Refusal :=
  .next (
    if s.w.isDown u && !s.w.testFailed.contains u && unitClass u != 5 && (unitClass u != 2 || s.ctl.pins.frefclk) then
      let w1 := ({ s.w with inReset := s.w.inReset.filter fun x => decide (x ≠ u)
                            fenced := s.w.fenced.filter fun x => decide (x ≠ u) } : Work).newEpochs u
      let w2 := w1.staleWrites
      let w3 := (unitPorts u).foldl (fun w p => w.portStart p.val) w2
      let f := s.ctl.fence
      { s with w := w3, ctl := { s.ctl with fence := if f.unit = u then { f with st := 0 } else f } }
    else s)

/-- Non-fabric work of a context that still runs 100 µs after the fence is aborted with 0x60 (R410): how much, and the rest. -/
def Work.abortStarted (w : Work) (c : CtxId) : Nat × Work :=
  let k := w.ctx c
  let stop := fun (x : InFlight) => decide (x.stat ≠ .remote)
  let n := k.infl.countP stop
  if n = 0 then (0, w)
  else
    let w1 := (w.updCtx c fun k => { k with infl := k.infl.filter fun x => !stop x }).dropOrphans c
    (n, w1.fault c none k.dispatchPc 0x60 0)

/-- A list of contexts after the drain's time. -/
def Work.abortAll (w : Work) : List CtxId → Nat × Work
  | [] => (0, w)
  | c :: cs =>
    let (n, w1) := w.abortStarted c
    let (m, w2) := Work.abortAll w1 cs
    (n + m, w2)

/-- DRAIN_TIMEOUT (R75, R410): of the Staithe's draining queues, of a fenced unit, or of the contexts that an UNLOAD drains on it. -/
def execDrainTimeout (u : BitVec 16) (s : State) : Host.Outcome State Fault Refusal :=
  .next (
    if u = staitheUnit then s.onW Work.abortDraining
    else if s.w.isFenced u then
      let (n, w1) := s.w.abortAll ((unitCores u).flatMap siblings)
      let f := s.ctl.fence
      (({ s with w := w1, ctl := { s.ctl with fence := if f.unit = u then { f with aborted := satAdd f.aborted n } else f } } : State)).settleFence
    else s.onW fun w => (w.abortAll (((unitCores u).flatMap siblings).filter fun c => (w.ctx c).draining)).2)

/-- A node of a reduction uses a port of a fabric die (R412). -/
def RedNode.onDie (n : RedNode) (d : Nat) : Bool :=
  (!n.root && decide (n.up.toNat / 16 = d)) || n.downs.any fun p => decide (p / 16 = d)

/-- A fabric die is reset (R19, R412): the epochs of its units increase, buckets with a node on it fail with 0x47, its buffers and
link keys are lost, and its ports train. -/
def Work.resetFabricDie (w : Work) (d : Nat) : Work :=
  let mine := (List.range 32).filter fun p => decide (p / 16 = d)
  let w1 := w.red.ctxs.foldl (fun w e =>
    let job : BitVec 16 := BitVec.ofNat 16 (e.1 / 65536)
    let bucket : BitVec 16 := BitVec.ofNat 16 e.1
    match w.redCtx job bucket with
    | some b => if b.node.onDie d then w.redFail job bucket true else w
    | none => w) w
  let lose := fun (f : RecvFlow) => { f with early := f.early.filter fun x => decide (x.port.val / 16 ≠ d) }
  let w2 : Work := { w1 with
    fab := { w1.fab with recv := w1.fab.recv.map fun e => (e.1, lose e.2) }
    red := { w1.red with early := w1.red.early.filter fun e => decide (e.port.val / 16 ≠ d)
                         held := w1.red.held.filter fun e => decide (e.port.val / 16 ≠ d) } }
  let w3 := mine.foldl (fun w p =>
    let on := decide (2 ≤ (w.port p).st)
    w.updPort p fun y =>
      { y.forgetLink with st := if on then 2 else y.st, txq := [], slotQ := [], replay := [], tail := none }) w2
  w3.newEpochs (unitId 2 d 0xFF)

/-- FABRIC_DIE_RESET (R412). -/
def execFabricDieReset (d : Fin 2) (s : State) : Host.Outcome State Fault Refusal :=
  .next (s.onW fun w => w.resetFabricDie d.val)

end Sys2Proof.Machine
end

