-- ==== Sys2Proof/Machine/Power.lean ====
section
/-! DEFINITION. Supplies, clock points, the power cap and temperature (R482-R489, R498-R501). -/

namespace Sys2Proof.Machine

/-- The power manager's unit (R18). -/
def powerUnit : BitVec 16 := unitId 3 0 0x30

/-- The limits of R485: the cap, a dip, the throttle and MAX_POINT. -/
def PwrSt.limits (p : PwrSt) : List Nat :=
  [p.capPoint, if p.dip then 2 else 0, if p.throttle then 2 else 0, p.maxPoint.toNat]

/-- The point that the limits select: the lowest clock, which is the highest number (R485). -/
def PwrSt.select (p : PwrSt) : Nat := p.limits.foldl max 0

/-- The causes shown for a point (R499): each limit at the point, when it is below 700 MHz. -/
def PwrSt.causes (p : PwrSt) (pt : Nat) : BitVec 4 :=
  if pt = 0 then 0
  else p.limits.zipIdx.foldl (fun m e => if e.1 = pt then m ||| BitVec.ofNat 4 (2 ^ e.2) else m) 0

/-- The point in force becomes the one selected (R24 action 1, R485): a change is counted and logged. -/
def State.applyPoint (s : State) : State :=
  let new := s.ctl.pwr.select
  let old := s.w.time.point.toNat
  let c := s.ctl.pwr.causes new
  let p := { s.ctl.pwr with cause := c, pointChanges := if new = old then s.ctl.pwr.pointChanges else satAdd s.ctl.pwr.pointChanges 1 }
  let w1 : Work := { s.w with time := { s.w.time with point := BitVec.ofNat 2 new } }
  let w2 := if new = old then w1 else w1.logEv powerUnit 0x0782 1 0xFF (old + new * 4 + c.toNat * 16)
  { s with w := w2, ctl := { s.ctl with pwr := p } }

/-- CLOCK_POINT_CHANGE (R485): the pending point takes effect, at a tick only. -/
def execClockPointChange (s : State) : Host.Outcome State Fault Refusal := .next (if s.w.time.atTick then s.applyPoint else s)

/-- UP_RATIO in hundredths (R485). -/
def upRatio (k : Nat) : Nat := if k = 1 then 140 else 150

/-- The cap point that the average power M of the closed frame leads to (R486). -/
def PwrSt.chooseCap (p : PwrSt) (m : Nat) : PwrSt :=
  let cap := p.watts.toNat
  if cap < m then { p with capPoint := min (p.capPoint + 1) 2, lowRun := 0 }
  else if 0 < p.capPoint ∧ m * upRatio p.capPoint ≤ (cap - 50) * 100 then
    if p.lowRun + 1 = 16 then { p with capPoint := p.capPoint - 1, lowRun := 0 } else { p with lowRun := p.lowRun + 1 }
  else { p with lowRun := 0 }

/-- The pause share that M leads to (R487), in sixteenths. -/
def PwrSt.nextShare (p : PwrSt) (m : Nat) : Nat :=
  if p.watts.toNat < m then (if p.capPoint = 2 then min (p.share + 1) 12 else p.share) else p.share - 1

/-- The telemetry sample of a closed frame (R24 action 2, R500): M joins the 100 ms average, and every 100 ms the registers take the
average and the sensors' readings. -/
def PwrSt.closeSample (p : PwrSt) (periodNs : Nat) (m : TickIn) : PwrSt :=
  let e := p.energy + m.watts * periodNs
  let t := p.spanNs + periodNs
  if 100000000 ≤ t then
    { p with sample := m.watts, energy := 0, spanNs := 0, watts8 := BitVec.ofNat 16 (e / t / 8), temps := m.temps, tj := m.tj }
  else { p with sample := m.watts, energy := e, spanNs := t }

/-- The sensors' reading of a closed frame (R488, R498): the hottest junction, the run of frames below 90 °C, and the main input. -/
def PwrSt.sampleTj (p : PwrSt) (t : TickIn) : PwrSt :=
  { p with throttleSrc := t.tjSrc, hotTj := t.tj, coolRun := if t.tj.toNat < 90 then p.coolRun + 1 else 0, mainMv := t.mainMv }

/-- A frame passes over the dips of the last 24 h (R427). -/
def PwrSt.ageDips (p : PwrSt) (periodNs : Nat) : PwrSt :=
  { p with dipAges := (p.dipAges.map fun a => a + periodNs).filter fun a => decide (a < 86400000000000) }

/-- The power manager closes a frame with average power M (R24, R486, R487): the telemetry sample, the share, the counter and, when a run of frames with a
share ends, its log entry; then the cap point. -/
def State.closePower (s : State) (t : TickIn) : State :=
  let m := t.watts
  let p := (s.ctl.pwr.closeSample s.w.time.periodNs t).ageDips s.w.time.periodNs
  let sh := p.nextShare m
  let run := if sh = 0 then 0 else p.unmetRun + 1
  let unmet := if sh = 0 then p.capUnmet else satAdd p.capUnmet 1
  let p1 := { p with share := sh, unmetRun := run, capUnmet := unmet }
  let w1 := if sh = 0 ∧ p.unmetRun ≠ 0 then
      s.w.logEv powerUnit 0x0783 2 0xFF (min m 65535 + min p.unmetRun 65535 * 2 ^ 16) else s.w
  { s with w := w1, ctl := { s.ctl with pwr := (p1.chooseCap m).sampleTj t } }

/-- CAP_WRITE (R486, R499): WATTS is clamped to 1,200 to 2,400. -/
def execCapWrite (who : Fn) (v : Word) (s : State) : Host.Outcome State Fault Refusal :=
  let x := bitsOf v.toNat 0 12
  .next (s.request who fun s => if physical who then
      s.onCtl fun c => { c with pwr := { c.pwr with watts := BitVec.ofNat 12 (max 1200 (min x 2400)) } }
    else s)

/-- PWR_CLEAR (R501): events, dips and the minimum. -/
def execPwrClear (who : Fn) (v : Word) (s : State) : Host.Outcome State Fault Refusal :=
  .next (s.request who fun s => if physical who && v.getLsbD 0 then
      s.onCtl fun c => { c with pwr := { c.pwr with
        capUnmet := 0, pointChanges := 0, throttles := 0, dips := 0, minMv := 0xFFFF } }
    else s)

/-- The lower of two voltages. -/
def minMv (a b : BitVec 16) : BitVec 16 := if a.toNat ≤ b.toNat then a else b

/-- MAIN_INPUT_DIP (R483): below 11.0 V and above 10.4 V the dip is latched, and the timer stops. -/
def execMainInputDip (mv : BitVec 16) (s : State) : Host.Outcome State Fault Refusal :=
  .next (
    if mv.toNat < 11000 ∧ 10400 < mv.toNat then
      s.onCtl fun c => { c with pwr := { c.pwr with
        mainMv := mv, minMv := minMv c.pwr.minMv mv, dipMinMv := minMv c.pwr.dipMinMv mv
        dips := satAdd c.pwr.dips 1, dipAges := 0 :: c.pwr.dipAges, dip := true, dipTimer := false, returnPending := false } }
    else s)

/-- MAIN_INPUT_RECOVER (R483): back above 11.0 V, the 100 µs timer starts. -/
def execMainInputRecover (belowNs : Nat) (mv : BitVec 16) (s : State) : Host.Outcome State Fault Refusal :=
  .next (
    if s.ctl.pwr.dip then
      s.onCtl fun c => { c with pwr := { c.pwr with
        mainMv := mv, minMv := minMv c.pwr.minMv mv, dipMinMv := minMv c.pwr.dipMinMv mv, dipNs := c.pwr.dipNs + belowNs, dipTimer := true } }
    else s)

/-- DIP_TIMER_EXPIRY (R483): the return is pending, for a tick at least 10 µs later. -/
def execDipTimerExpiry (dt : Nat) (s : State) : Host.Outcome State Fault Refusal :=
  .next (
    if s.ctl.pwr.dipTimer then
      match s.w.advance dt with
      | some w => { s with w := w, ctl := { s.ctl with pwr := { s.ctl.pwr with
          dipTimer := false, returnPending := true, returnAt := w.time.ftime + 10000 } } }
      | none => s
    else s)

/-- A pending return is due at a tick (R483): one that lies at least 10 µs after the timer's expiry. -/
def PwrSt.returnDue (p : PwrSt) (tick : Nat) : Bool := p.returnPending && decide (p.returnAt.toNat ≤ tick)

/-- A dip returns at a tick that is late enough, and is logged (R483). -/
def State.dipBack (s : State) : State :=
  let p := s.ctl.pwr
  if p.returnDue s.w.time.ftime.toNat then
    { s with w := s.w.logEv powerUnit 0x0780 2 0xFF (p.dipMinMv.toNat + min p.dipNs (2 ^ 32 - 1) * 2 ^ 16)
             ctl := { s.ctl with pwr := { p with dip := false, returnPending := false, dipMinMv := 0xFFFF, dipNs := 0 } } }
  else s

/-- The point at the next tick (R483, R499): a dip whose return is due then limits it no more. -/
def PwrSt.pendingPoint (p : PwrSt) (tick : Nat) : Nat := (if p.returnDue tick then { p with dip := false } else p).select

/-- DIP_RETURN (R483, R485): at a tick at which the return is due. -/
def execDipReturn (s : State) : Host.Outcome State Fault Refusal :=
  .next (if s.w.time.atTick && s.ctl.pwr.returnDue s.w.time.ftime.toNat then s.dipBack.applyPoint else s)

/-- THERMAL_THROTTLE_ONSET (R488): Tj reaches 95 °C. -/
def execThermalThrottleOnset (src : BitVec 16) (tj : Byte) (s : State) : Host.Outcome State Fault Refusal :=
  .next (
    if s.ctl.pwr.throttle || decide (tj.toNat < 95) then s
    else
      { s with w := s.w.logEv powerUnit 0x0784 2 0xFF (src.toNat + tj.toNat * 2 ^ 16)
               ctl := { s.ctl with pwr := { s.ctl.pwr with
                 throttle := true, throttleSrc := src, hotTj := tj, coolRun := 0, throttles := satAdd s.ctl.pwr.throttles 1 } } })

/-- THERMAL_THROTTLE_RELEASE (R488): at a tick after 64 frames below 90 °C; the clock returns with the next point change. -/
def execThermalThrottleRelease (s : State) : Host.Outcome State Fault Refusal :=
  .next (
    if s.ctl.pwr.throttle && s.w.time.atTick && decide (64 ≤ s.ctl.pwr.coolRun) then
      { s with w := s.w.logEv powerUnit 0x0785 1 0xFF (s.ctl.pwr.throttleSrc.toNat + s.ctl.pwr.hotTj.toNat * 2 ^ 16)
               ctl := { s.ctl with pwr := { s.ctl.pwr with throttle := false } } }
    else s)

end Sys2Proof.Machine
end

