-- ==== Sys2Proof/Machine/Health.lean ====
section
/-! DEFINITION. The health score and the capability block (R424, R427, R428, R433-R437). -/

namespace Sys2Proof.Machine

/-- A health input (R427): min(255, ⌊255 v ÷ F⌋). -/
def healthInput (v f : Nat) : Byte := BitVec.ofNat 8 (min 255 (255 * v / f))

/-- A socket's module is authenticated and lit (R508, R513). -/
def Laser.lit (l : Laser) : Bool := l.st == 2 || l.st == 4

/-- The four sockets' states. -/
def Ctl.laser (c : Ctl) (k : Nat) : Laser := c.lasers.get .zero k

/-- The banks that count as repaired (R427): those with soft repair in use (R258), and those whose hard repairs are spent as
far as the stack grants them (DESIGN CHOICE, log entry 40). -/
def Work.repairedBanks (w : Work) : Nat :=
  (List.range 16).foldl (fun n s =>
    let st := w.stack s
    n + st.pcErr.foldl (fun m e => m + e.2.soft.toNat) 0 +
      st.te.hardSpent.countP fun e => decide (Config.hardBudget s e.1 ≤ e.2) && !st.te.soft.get false e.1) 0

/-- The HBM words corrected in the last 64 frames (R244, R427). -/
def Work.recentWords (w : Work) : Nat := (List.range 16).foldl (fun n i => n + (w.stack i).recent) 0

/-- The FEC input (R427): of the worst port, its corrected symbols of the last 64 frames, lasting `ns`, per second per wavelength in
use. -/
def Work.fecInput (w : Work) (ns : Nat) : Byte :=
  (List.range 32).foldl (fun (x : Byte) p =>
    let po := w.port p
    let y := healthInput (10000 * po.recent) (ns * lamCount po.lambdas)
    if po.lambdas ≠ 0 ∧ x.toNat < y.toNat then y else x) 0

/-- The seven inputs of the score, CE first (R427, R510). Corrected SRAM words come with the command (log entry 128). -/
def State.healthInputs (s : State) (m : HealthIn) : List Byte :=
  let ns := 64 * s.w.time.periodNs
  let ls := ((List.range 4).map s.ctl.laser).filter Laser.lit
  let bias := ls.foldl (fun x l => max x (if l.biasStart = 0 then 0
    else 255 * 5 * (l.biasNow.toNat - l.biasStart.toNat) / l.biasStart.toNat)) 0
  let life := ls.foldl (fun x l => max x l.eqHours.toNat) 0
  [healthInput (1000 * (s.w.recentWords + m.sramWords)) ns, s.w.fecInput ns, BitVec.ofNat 8 (min 255 bias), healthInput life 400000,
   healthInput (s.ctl.pwr.tj.toNat - 70) 25, healthInput s.ctl.pwr.dipAges.length 16, healthInput s.w.repairedBanks 1536]

/-- The score S (R427). -/
def healthScore (weights inputs : List Byte) : Nat :=
  min 255 (((weights.zip inputs).foldl (fun n p => n + p.1.toNat * p.2.toNat) 0) / 256)

/-- A bit of FN_EVENT at every function (R428, R464). -/
def Work.allEvents (w : Work) (bit : Nat) : Work := ((List.range 32).map fnOfKey).foldl (fun w f => w.fnEvent f bit) w

/-- A threshold's request (R428): set, logged and signalled when S reaches it while it is armed. The event has no code
(DESIGN CHOICE, log entry 15). -/
def Work.healthEvent (w : Work) (fire : Bool) (score : Nat) : Work :=
  if fire then (w.logEv (unitId 3 0 0x31) 0x06FF 2 0xFF score).allEvents 0 else w

/-- The counts of the next 64 frames begin (R427). -/
def Work.newHealthSpan (w : Work) : Work :=
  let w1 := (List.range 16).foldl (fun (w : Work) i => w.updStack i fun x => { x with recent := 0 }) w
  (List.range 32).foldl (fun (w : Work) p => w.updPort p fun x => { x with recent := 0 }) w1

/-- The score of a frame is computed (R24 action 6, R427, R428). -/
def State.computeHealth (s : State) (m : HealthIn) : State :=
  let h := s.ctl.health
  let x := s.healthInputs m
  let sc := healthScore h.weights x
  let f1 := h.ckptArmed && decide (h.t1.toNat ≤ sc)
  let f2 := h.migrateArmed && decide (h.t2.toNat ≤ sc)
  let h1 := { h with frame := BitVec.ofNat 32 s.w.frame, inputs := x, score := BitVec.ofNat 8 sc
                     ckptReq := h.ckptReq || f1, migrateReq := h.migrateReq || f2
                     ckptArmed := if f1 then false else h.ckptArmed || decide (sc + 16 < h.t1.toNat)
                     migrateArmed := if f2 then false else h.migrateArmed || decide (sc + 16 < h.t2.toNat) }
  { s with w := ((s.w.healthEvent f1 sc).healthEvent f2 sc).newHealthSpan, ctl := { s.ctl with health := h1 } }

/-- HEALTH_SCORE_COMPUTE (R427): in a frame whose number is a multiple of 64, once. -/
def execHealthScoreCompute (m : HealthIn) (s : State) : Host.Outcome State Fault Refusal :=
  .next (if s.w.frame % 64 = 0 ∧ s.ctl.health.frame ≠ BitVec.ofNat 32 s.w.frame then s.computeHealth m else s)

/-- THRESH_WRITE (R435): ignored where T2 would not be above T1. -/
def execThreshWrite (who : Fn) (v : Word) (s : State) : Host.Outcome State Fault Refusal :=
  let t1 : Byte := v.extractLsb' 0 8
  let t2 : Byte := v.extractLsb' 8 8
  .next (s.request who fun s => if physical who && decide (t1.toNat < t2.toNat) then
      s.onCtl fun c => { c with health := { c.health with t1 := t1, t2 := t2 } }
    else s)

/-- Bits set in a number of `n` bits. -/
def onesIn (n v : Nat) : Nat := (List.range n).countP fun i => v.testBit i

/-- HLTH.CAP_SLICE of slice n as it stands (R436). -/
def Work.capSlice (w : Work) (n : Nat) : Word :=
  let s := w.slice n
  let live := !s.gated && !s.mappedOut
  if !live then 0
  else
    let cores := w.cores.filter fun e => decide (e.1 / 64 = n)
    let seq := cores.countP fun e => e.2.sequential && !s.coreAbsent.getLsbD (e.1 % 64)
    let halves := cores.foldl (fun (m : Nat) (e : Nat × Core) => m + onesIn 2 e.2.bState.toNat) 0
    let used := (List.range 4).countP fun k => (s.spares.get .free k).inUse || (s.spares.get .free k).failed
    BitVec.ofNat 64 ((64 - onesIn 64 s.coreAbsent.toNat) * 2 ^ 56 + seq * 2 ^ 48 + halves * 2 ^ 40 + w.channels n * 2 ^ 34 +
      (4 - used) * 2 ^ 31 + 1)

/-- HLTH.CAP_FABRIC as it stands (R437). -/
def Work.capFabric (w : Work) : Word :=
  let ps := (List.range 32).map w.port
  let wide := fun n => ps.countP fun p => p.isActive && p.width == n
  let down := ps.countP fun p => p.assigned && !p.isActive
  let spare := ps.foldl (fun m p => if p.isActive then m + lamCount (p.good &&& ~~~p.lambdas) else m) 0
  BitVec.ofNat 64 (wide 8 * 2 ^ 56 + wide 4 * 2 ^ 48 + down * 2 ^ 40 + spare * 2 ^ 32)

/-- HLTH.CAP_DEVICE as it stands, without GENERATION (R437). -/
def Ctl.capDevice (c : Ctl) : Word :=
  let lasers := (List.range 4).foldl (fun m k => if (c.laser k).lit then m + 2 ^ k else m) 0
  BitVec.ofNat 64 ((if c.dies.standbyReady then 2 else 1) * 2 ^ 8 + lasers)

/-- The capability block as it stands: eight slices, the fabric, the device. -/
def State.capNow (s : State) : List Word := (List.range 8).map s.w.capSlice ++ [s.w.capFabric, s.ctl.capDevice]

/-- At a frame boundary the capability block shows what has changed (R424): GENERATION counts and functions are told. -/
def State.noteCaps (s : State) : State :=
  let c := s.capNow
  if c = s.ctl.health.caps then s
  else { s with w := s.w.allEvents 2, ctl := { s.ctl with health := { s.ctl.health with caps := c, generation := s.ctl.health.generation + 1 } } }

end Sys2Proof.Machine
end

