-- ==== Sys2Proof/Machine/Laser.lean ====
section
/-! DEFINITION. Laser modules and their sockets (R270, R505-R516). -/

namespace Sys2Proof.Machine

/-- A socket's unit (R18). While its light is off it is out of service, and its ports stay DARK (R270, R507). -/
def socketUnit (k : Nat) : BitVec 16 := unitId 5 k 0xFF
/-- The eight ports that a socket lights (R519). -/
def socketPorts (k : Nat) : List (Fin 32) := (List.range 8).map fun i => portFin (8 * k + i)

/-- A socket changed. -/
def State.updLaser (s : State) (k : Nat) (f : Laser → Laser) : State :=
  s.onCtl fun c => { c with lasers := c.lasers.upd .zero k f }

/-- The record that a module's answer covers: bytes 0 to 27 of its map (R505, R506). -/
def moduleRecord (m : ModuleMap) : List Byte :=
  bytesAt m.id 0 16 ++ leBytes 4 m.eqHours.toNat ++ leBytes 2 m.biasStart.toNat ++ leBytes 2 m.biasNow.toNat ++
    leBytes 2 m.biasNom.toNat ++ [m.temp, m.status]

/-- The answer that authenticates a module (R506). -/
def moduleAnswer (nonce : BitVec 128) (m : ModuleMap) : List Byte :=
  kmac256 (kmac256 Config.laserKey (bytesAt m.id 0 16) "ELS-KEY") (leBytes 16 nonce.toNat ++ moduleRecord m) "ELS-AUTH"

/-- A challenge is written (R506): 16 fresh bytes at offset 32 of the module's map. -/
def State.challenge (s : State) (k : Fin 4) : State :=
  let (n, w) := s.w.draw128
  ({ s with w := w.emit (.module k 32 (leBytes 16 n.toNat)) } : State).updLaser k.val fun l => { l with nonce := n }

/-- Authentication of a module begins (R506). -/
def State.beginAuth (s : State) (k : Fin 4) : State :=
  (s.updLaser k.val fun l => { l with st := 1, tries := 0, authed := false, hourly := false, busFails := 0, int := false }).challenge k

/-- LASER_PRESENCE_ASSERT (R506, R510, R516): a module is inserted, and its presence has held for 100 ms; before Ready it waits for it. -/
def execLaserPresenceAssert (k : Fin 4) (s : State) : Host.Outcome State Fault Refusal :=
  .next (
    if (s.ctl.laser k.val).present then s
    else
      let s1 := s.updLaser k.val fun l => { l with present := true, logged := 0 }
      if s.ctl.boot.phase.toNat < 4 then s1 else s1.beginAuth k)

/-- A socket's light goes off: its ports go down, and stay DARK (R270, R511, R512). -/
def Work.lightOff (w : Work) (k : Nat) : Work :=
  (socketPorts k).foldl (fun w p => w.portDown p 0)
    { w with inReset := socketUnit k :: w.inReset.filter fun x => decide (x ≠ socketUnit k)
             fenced := w.fenced.filter fun x => decide (x ≠ socketUnit k) }

/-- A module is lost (R511). -/
def State.loseModule (s : State) (k : Fin 4) : State :=
  ({ s with w := (s.w.lightOff k.val).logEv (socketUnit k.val) 0x0A85 3 0xFF k.val } : State).updLaser k.val fun l =>
    { l with st := 6, authed := false, hourly := false, busFails := 0 }

/-- What an authenticated module's record holds (R505, R506). -/
def Laser.took (l : Laser) (m : ModuleMap) : Laser :=
  { l with id := bytesAt m.id 0 16, eqHours := m.eqHours, biasStart := m.biasStart, biasNow := m.biasNow, biasNom := m.biasNom
           temp := m.temp, authed := true, hourly := false, tries := 0 }

/-- A module is refused (R507). -/
def State.refuseModule (s : State) (k : Fin 4) (m : ModuleMap) : State :=
  ({ s with w := s.w.logEv (socketUnit k.val) 0x0A81 4 0xFF (leNat (bytesAt m.id 0 16)) } : State).updLaser k.val fun l =>
    { l with st := 3, authFails := satAdd l.authFails 1 }

/-- A bus transaction with a module ends (R511): failures count while they follow each other. -/
def State.noteBus (s : State) (k : Fin 4) (ok : Bool) : State :=
  s.updLaser k.val fun l => { l with busFails := if ok then 0 else l.busFails + 1 }

/-- LASER_AUTH_RESPONSE (R506, R507, R509, R511): a failure is tried again twice; the third refuses the module, or loses it where the
authentication was the one after an hourly write, as the third bus transaction that fails in a row does there. -/
def execLaserAuthResponse (k : Fin 4) (m : ModuleMap) (busOk : Bool) (s : State) : Host.Outcome State Fault Refusal :=
  let l := s.ctl.laser k.val
  .next (
    if (l.st = 1 ∧ l.authed = false) ∨ (l.st = 2 ∧ l.hourly = true) then
      let s1 := s.noteBus k busOk
      if busOk && decide (m.response = moduleAnswer l.nonce m) then
        s1.updLaser k.val fun l =>
          if l.hourly then { l.took m with eqPart := l.eqPart, eqHours := l.eqHours } else { l.took m with eqPart := 0 }
      else if l.hourly && (decide (2 ≤ l.tries) || (!busOk && decide (2 ≤ l.busFails))) then s1.loseModule k
      else if l.tries < 2 then (s1.updLaser k.val fun l => { l with tries := l.tries + 1 }).challenge k
      else s1.refuseModule k m
    else s)

/-- LASER_LIGHT_STABLE (R508): the socket is LIT, and its ports start as their peers show light. -/
def execLaserLightStable (k : Fin 4) (s : State) : Host.Outcome State Fault Refusal :=
  let l := s.ctl.laser k.val
  .next (
    if l.st = 1 ∧ l.authed = true then
      (s.onW fun w => (socketPorts k.val).foldl (fun (w : Work) p => w.portStart p.val)
        { w with inReset := w.inReset.filter fun x => decide (x ≠ socketUnit k.val) }).updLaser k.val fun l => { l with st := 2 }
    else s)

/-- One second of a module's life (R509): (BIAS_NOW ÷ BIAS_NOM)² seconds; EQ_HOURS counts 360 of them. With BIAS_NOM 0 the spec
states no result, and EQ_HOURS takes the free value given. -/
def Laser.age (l : Laser) (bias : BitVec 16) (free : BitVec 32) : Laser :=
  let n := l.biasNom.toNat * l.biasNom.toNat
  if n = 0 then { l with biasNow := bias, eqHours := free }
  else
    let p := l.eqPart + bias.toNat * bias.toNat
    { l with biasNow := bias, eqPart := p % (360 * n), eqHours := l.eqHours + BitVec.ofNat 32 (p / (360 * n)) }

/-- The life thresholds that a module has passed (R510). -/
def lifePassed (eqHours : Nat) : Nat :=
  if 400000 ≤ eqHours then 3 else if 360000 ≤ eqHours then 2 else if 320000 ≤ eqHours then 1 else 0

/-- The thresholds passed are logged, once per insertion (R510). -/
def Work.logLife (w : Work) (k old new : Nat) : Work :=
  ([0, 1, 2].filter fun i => decide (old ≤ i ∧ i < new)).foldl (fun w i =>
    w.logEv (socketUnit k) (0x0A82 + i) (if i = 2 then 3 else 2) 0xFF k) w

/-- A bus transaction with a lit module fails (R511): the third in a row loses the module. -/
def State.failBus (s : State) (k : Fin 4) : State :=
  if (s.ctl.laser k.val).busFails < 2 then s.noteBus k false else s.loseModule k

/-- LASER_BIAS_SAMPLE (R509-R511): the third bus transaction that fails in a row loses the module. -/
def execLaserBiasSample (k : Fin 4) (biasNow : Option (BitVec 16)) (temp : Byte) (s : State) : Host.Outcome State Fault Refusal :=
  let l := s.ctl.laser k.val
  .next (
    if l.lit then
      match biasNow with
      | none => s.failBus k
      | some bias =>
        let (v, w1) := if l.biasNom = 0 then s.w.draw else (0, s.w)
        let l1 := { l.age bias (v.setWidth 32) with temp := temp, busFails := 0 }
        let n := lifePassed l1.eqHours.toNat
        ({ s with w := w1.logLife k.val l.logged n } : State).updLaser k.val fun _ => { l1 with logged := max l.logged n }
    else s)

/-- EQ_HOURS is written to the module (R509). -/
def State.writeLife (s : State) (k : Fin 4) : State :=
  s.onW fun w => w.emit (.module k 16 (leBytes 4 (s.ctl.laser k.val).eqHours.toNat))

/-- LASER_LIFE_WRITE (R509, R511, R516): followed by a new authentication; the module's interrupt abandons it, and the module is lost. -/
def execLaserLifeWrite (k : LifeIn) (s : State) : Host.Outcome State Fault Refusal :=
  .next (
    if (s.ctl.laser k.socket.val).st = 2 then
      match k.bus with
      | .done => (((s.writeLife k.socket).noteBus k.socket true).updLaser k.socket.val fun l => { l with hourly := true, tries := 0 }).challenge k.socket
      | .failed => s.failBus k.socket
      | .interrupted => (s.updLaser k.socket.val fun l => { l with int := true }).loseModule k.socket
    else s)

/-- LASER_PRESENCE_DEASSERT (R507, R511, R512, R516). -/
def execLaserPresenceDeassert (k : Fin 4) (s : State) : Host.Outcome State Fault Refusal :=
  let l := s.ctl.laser k.val
  let s1 := s.updLaser k.val fun l => { l with present := false, int := false }
  .next (
    if !l.present then s
    else if l.st = 1 ∨ l.st = 2 ∨ l.st = 4 then s1.loseModule k
    else s1.updLaser k.val fun l => { l with st := 0 })

/-- LASER_INTERRUPT (R511, R513, R516): a laser fault or over-temperature loses the module, as any interrupt does until the authentication
of an hourly write has ended (DEDUCED, log entry 124); INT shows the signal. -/
def execLaserInterrupt (k : Fin 4) (status : Option Byte) (s : State) : Host.Outcome State Fault Refusal :=
  let l := s.ctl.laser k.val
  let s1 := s.updLaser k.val fun l => { l with int := status.isSome }
  .next (
    if !l.present then s
    else if (l.hourly && status.isSome || status.any fun b => b.getLsbD 0 || b.getLsbD 1) && (l.st == 1 || l.st == 2 || l.st == 4) then
      s1.loseModule k
    else s1)

/-- A planned release ends once the eight ports have drained (R411, R512): EQ_HOURS is written, and the light goes off. The release is
logged without a code of its own (DESIGN CHOICE, log entry 15). -/
def State.finishRelease (s : State) (k : Fin 4) : State :=
  if (s.ctl.laser k.val).st = 4 ∧ (socketPorts k.val).any (fun p => s.w.portBusy p.val) = false then
    ((s.writeLife k).onW fun w => (w.lightOff k.val).logEv (socketUnit k.val) 0x0AFF 0 0xFF k.val).updLaser k.val fun l =>
      { l with st := 5, authed := false, hourly := false }
  else s

/-- A planned release of a socket (R512, R513, R516), ignored during an authentication: its ports are fenced and drained, and it shows RELEASING until they are. -/
def State.releaseSocket (s : State) (who : Fn) (k : Fin 4) : State :=
  if physical who && (s.ctl.laser k.val).st == 2 && !(s.ctl.laser k.val).hourly then
    let s1 := s.onW fun w => (socketPorts k.val).foldl (fun w p => w.drainPort p)
      { w with fenced := socketUnit k.val :: w.fenced.filter fun x => decide (x ≠ socketUnit k.val) }
    (s1.updLaser k.val fun l => { l with st := 4, hourly := false }).finishRelease k
  else s

/-- Every drain that has ended: of fenced units, and of the ports of a socket that is released (R410, R411, R512). -/
def State.settleDrains (s : State) : State := ([0, 1, 2, 3] : List (Fin 4)).foldl (fun s k => s.finishRelease k) s.endDrains

/-- SOCKET_RELEASE (R512, R513). -/
def execSocketRelease (who : Fn) (k : Fin 4) (v : Word) (s : State) : Host.Outcome State Fault Refusal :=
  .next (s.request who fun s => if v.getLsbD 8 then s.releaseSocket who k else s)

end Sys2Proof.Machine
end

