-- ==== Sys2Proof/Machine/Patch.lean ====
section
/-! DEFINITION. The patch store (R475-R477, R497). -/

namespace Sys2Proof.Machine

/-- CODE_BYTES of a patch (R475). -/
def patchCode (b : List Byte) : Nat := leAt b 12 4
/-- Bytes of a whole patch (R475). -/
def patchBytes (b : List Byte) : Nat := 64 + patchCode b + 8392
/-- The patch serial number (R475). -/
def patchSerialOf (b : List Byte) : Nat := leAt b 8 4

/-- The check of a patch that a patch serial is recorded for (R476): 0 when it may be applied, else the cause of event 0x0881. -/
def patchCause (b : List Byte) (recorded : Nat) : Nat :=
  let n := patchCode b
  if leAt b 0 4 ≠ 0x4A325054 ∨ leAt b 4 2 ≠ 1 ∨ leAt b 6 2 ≠ 0 ∨ leAt b 48 16 ≠ 0 ∨ n < 8 ∨ 515824 < n ∨ n % 8 ≠ 0 then 1
  else if bytesAt b 16 32 ≠ bytesAt Config.romDigest 0 32 then 2
  else if patchSerialOf b < recorded then 3
  else if !Config.xmssVerify Config.patchKey (bytesAt b 0 (64 + n)) (bytesAt b (64 + n) 8392) then 4 else 0

/-- A patch command's result (R497). -/
def BootSt.patchEnds (b : BootSt) (r : Nat) : BootSt := { b with patchResult := BitVec.ofNat 8 r }

/-- COMMIT (R476, R477, R497): the buffer is checked and stored; outside bring-up mode RESULT is 5. -/
def BootSt.commitPatch (b : BootSt) : BootSt :=
  if !b.bringup then b.patchEnds 5
  else
    let h := b.patchBuf.readN 0 64
    let p := b.patchBuf.readN 0 (min (patchBytes h) 524288)
    let c := patchCause p b.patchSerial.toNat
    if c ≠ 0 then b.patchEnds c
    else ({ b with patchStore := some p, patchSerial := BitVec.ofNat 32 (patchSerialOf p) } : BootSt).patchEnds 0

/-- ERASE (R477, R497): the store is empty; outside bring-up mode RESULT is 5. -/
def BootSt.erasePatch (b : BootSt) : BootSt :=
  if !b.bringup then b.patchEnds 5 else ({ b with patchStore := none } : BootSt).patchEnds 0

/-- RWB fields are writable (R4, R337): before the lock, and not in a protection reboot. -/
def Ctl.rwb (c : Ctl) : Bool := !c.dyke.locked && !c.dyke.rebooting

/-- COMMIT (R477): PATCH_CMD is RWB, so a write after the lock is ignored (R4). -/
def execPatchCommit (who : Fn) (v : Word) (s : State) : Host.Outcome State Fault Refusal :=
  .next (s.request who fun s => if physical who && s.ctl.rwb && v.getLsbD 0 then s.onCtl fun c => { c with boot := c.boot.commitPatch } else s)

/-- ERASE (R477), as COMMIT. -/
def execPatchErase (who : Fn) (v : Word) (s : State) : Host.Outcome State Fault Refusal :=
  .next (s.request who fun s => if physical who && s.ctl.rwb && v.getLsbD 1 then s.onCtl fun c => { c with boot := c.boot.erasePatch } else s)

end Sys2Proof.Machine
end

