-- ==== Sys2Proof/Machine/Manifest.lean ====
section
/-! DEFINITION. Manifests: their layout, when one is valid, and what a protection reboot keeps (R335-R343). -/

namespace Sys2Proof.Machine

/-- A manifest's SERIAL and ADDRESS (R338). -/
def manSerial (b : List Byte) : Nat := leAt b 8 8
/-- ADDRESS of a manifest (R338). -/
def manAddress (b : List Byte) : Nat := leAt b 48 2
/-- The bytes of a partition record (R339). -/
def manPartBytes (b : List Byte) (q : Nat) : List Byte := bytesAt b (64 + 64 * q) 64
/-- The bytes of a port record (R340). -/
def manPortBytes (b : List Byte) (p : Nat) : List Byte := bytesAt b (576 + 16 * p) 16

/-- A partition record (R339). -/
def manPart (b : List Byte) (q : Nat) : DykeRec :=
  let r := manPartBytes b q
  { valid := (leAt r 0 1).testBit 0, slices := BitVec.ofNat 8 (leAt r 1 1), domainQuota := BitVec.ofNat 8 (leAt r 2 1)
    ports := BitVec.ofNat 32 (leAt r 4 4), vfs0 := BitVec.ofNat 16 (leAt r 8 2), vfs1 := BitVec.ofNat 16 (leAt r 10 2)
    redQuota := leAt r 12 2, sluices := BitVec.ofNat 256 (leAt r 16 32) }

/-- The partition records that exist. -/
def manParts (b : List Byte) : List DykeRec := ((List.range 8).map fun q => manPart b q).filter DykeRec.valid

/-- Masks are pairwise disjoint (R336). -/
def disjointMasks {w : Nat} (l : List (BitVec w)) : Bool := decide (l.Pairwise fun a b => a &&& b = 0)

/-- A partition record's bytes are in form (R335, R338, R339): reserved parts zero, and a valid one holds a slice. -/
def manPartOk (b : List Byte) (q : Nat) : Bool :=
  let r := manPartBytes b q
  let d := manPart b q
  decide (leAt r 0 1 ≤ 1 ∧ leAt r 3 1 = 0 ∧ leAt r 14 2 = 0 ∧ leAt r 48 16 = 0 ∧ d.domainQuota.toNat ≤ 64 ∧ d.redQuota ≤ 16384) &&
    !d.vfs0.getLsbD 0 && !d.vfs1.getLsbD 0 && (!d.valid || decide (d.slices ≠ 0))

/-- A port record's bytes are in form (R289, R340, R341). -/
def manPortOk (b : List Byte) (p : Nat) : Bool :=
  let r := manPortBytes b p
  let long := (leAt r 0 1).testBit 0
  let rtt := leAt r 2 2
  decide (leAt r 0 1 ≤ 1 ∧ leAt r 1 1 ≤ 32 ∧ leAt r 4 1 ≤ 63 ∧ leAt r 5 3 = 0 ∧ leAt r 8 8 % 2 ^ 24 = 0) &&
    (if long then decide (1 ≤ rtt ∧ rtt ≤ 1200) else decide (rtt = 0 ∧ leAt r 1 1 = 0))

/-- R336 holds of a manifest's valid records. -/
def manDisjoint (b : List Byte) : Bool :=
  let l := manParts b
  disjointMasks (l.map (·.slices)) && disjointMasks (l.map (·.ports)) && disjointMasks (l.map (·.vfs0)) &&
    disjointMasks (l.map (·.vfs1)) && disjointMasks (l.map (·.sluices)) && decide ((l.map (·.redQuota)).sum ≤ 16384)

/-- A manifest's layout (R338-R341): magic, length, reserved bytes, records, the sum of the Mere sizes. -/
def manForm (b : List Byte) : Bool :=
  decide (b.length = 9544 ∧ leAt b 0 4 = 0x4B594430 ∧ leAt b 4 4 = 1152 ∧ leAt b 50 14 = 0) &&
    (List.range 8).all (fun q => manPartOk b q) && (List.range 32).all (fun p => manPortOk b p) && manDisjoint b &&
    decide (((List.range 32).map fun p => leAt (manPortBytes b p) 1 1).sum ≤ 512)

/-- A manifest is valid for a device (R341). -/
def manValid (f : FuseSt) (b : List Byte) : Bool :=
  let key := bytesAt b 1088 64
  manForm b && decide (some (shake256 key 32) = f.operator) && Config.xmssVerify key (bytesAt b 0 1152) (bytesAt b 1152 8392) &&
    decide (bytesAt b 16 32 = shake256 f.identity 32)

/-- A partition is kept from one manifest to another (R343): it exists, and its record and its ports' are the same bytes. -/
def manKept (old new : List Byte) (q : Nat) : Bool :=
  (manPart old q).valid && decide (manPartBytes old q = manPartBytes new q) &&
    (List.range 32).all fun p => !(manPart old q).ports.getLsbD p || decide (manPortBytes old p = manPortBytes new p)

/-- The refusals of MANIFEST (R342) before its bytes are looked at, 0 for none: the device's own state. -/
def Ctl.manBusy (c : Ctl) : Bool := c.dyke.rebooting || c.boot.bringup

/-- The refusals of MANIFEST (R342), 0 for none. -/
def Ctl.manCause (c : Ctl) (b : List Byte) : Nat :=
  if c.fuse.operator.isNone then 0x41
  else if !manValid c.fuse b then 0x40
  else if manSerial b ≤ c.dyke.mramSerial.toNat then 0x42
  else if (List.range 8).any (fun q => manKept c.dyke.manifest b q) && decide (manAddress c.dyke.manifest ≠ manAddress b) then 0x43
  else 0

/-- The partition that a manifest gives a slice, port or the like to, by its masks. -/
def manOwner (b : List Byte) (holds : DykeRec → Bool) : Option (Fin 8) :=
  allParts.find? fun q => (manPart b q.val).valid && holds (manPart b q.val)

/-- The Dyke's ports as the manifest in force gives them. -/
def manPorts (b : List Byte) : Tbl DykePort :=
  Tbl.ofListFrom .zero 0 ((List.range 32).map fun p =>
    match manOwner b fun d => d.ports.getLsbD p with
    | some q => ⟨true, q, (leAt (manPortBytes b p) 0 1).testBit 0⟩
    | none => .zero)

end Sys2Proof.Machine
end

