-- ==== Sys2Proof/Machine/Frame.lean ====
section
/-! DEFINITION. The tick that opens a frame and the actions it runs, segments, lateness, pauses and steps of ftime (R21-R25,
R70, R88-R91, R280). -/

namespace Sys2Proof.Machine

/-- Segment numbers of the contexts that run move with the numbering of frames (R22, R23). -/
def Ctx.renumber (k : Ctx) (old new : Nat) : Ctx :=
  let f := fun (x : Nat) => if old ≤ new then x + (new - old) else x - (old - new)
  if k.st = .running ∨ k.st = .waiting then { k with segment := f k.segment, startFrame := f k.startFrame } else k

/-- Every context changed. -/
def Work.mapCtxs (w : Work) (f : Ctx → Ctx) : Work :=
  w.liveCtxs.foldl (fun w c => w.updCtx c f) w

/-- Flits of a frame (R280): ⌊P × 390.625⌋ with P in µs. -/
def frameFlits (us : Nat) : Nat := us * 3125 / 8

/-- Whether a slot table may be in use (R280): no two valid windows overlap, none ends beyond F, and together they are at most
⌊0.75 F⌋, with F = P × 390.625 as it is. -/
def tableOk (t : Tbl SlotEnt) (n us : Nat) : Bool :=
  let es := ((List.range 64).map fun k => t.get .zero (64 * n + k)).filter SlotEnt.valid
  let f := frameFlits us
  es.all (fun e => decide (e.start.toNat + e.length.toNat ≤ f)) &&
    decide (es.foldl (fun m e => m + e.length.toNat) 0 ≤ us * 9375 / 32) &&
    decide (es.Pairwise fun a b => a.start.toNat + a.length.toNat ≤ b.start.toNat ∨ b.start.toNat + b.length.toNat ≤ a.start.toNat)

/-- The four tables of a port. -/
def tablesOk (t : Tbl SlotEnt) (us : Nat) : Bool := [0, 1, 2, 3].all fun n => tableOk t n us

/-- A port's active tables against a new F (R280): those that fail are emptied and logged. -/
def Work.recheckSlots (w : Work) (p : Nat) : Work :=
  let bad := [0, 1, 2, 3].filter fun n => !tableOk (w.port p).active n w.time.period.toNat
  if bad.isEmpty then w
  else (w.updPort p fun y => { y with active := y.active.filter fun e => !bad.contains (e.1 / 64) }).logPort p 2 p

/-- The P of a device after a step (R22): at its first lock the fabric's, else its own. -/
def TimeSt.steppedP (t : TimeSt) : BitVec 11 := if t.st = 0 ∧ t.heardP ≠ 0 then t.heardP else t.period

/-- A step of ftime (R22): the running segments have ended on time for their frame, and go on in the new one; counted and
logged. Afterwards the device is locked, and at its first lock it has the fabric's P. -/
def Work.stepTime (w : Work) : Work :=
  match w.time.jump with
  | none => w
  | some j =>
    let old := w.frame
    let w1 : Work := { w with time := { w.time with
      ftime := w.time.ftime + j.delta, jump := none, stepCount := satAdd w.time.stepCount 1
      period := w.time.steppedP, lockP := w.time.owedP, st := 1 } }
    let late := fun (k : Ctx) => { k.renumber old w1.frame with overrunCounted := false }
    let onTime := fun (k : Ctx) =>
      let k1 := late k
      if (k1.st = .running ∨ k1.st = .waiting) ∧ k1.hold ≠ .tick then { k1 with segment := w1.frame, startFrame := k1.startFrame + (w1.frame - k1.segment) } else k1
    let w2 := (w1.mapCtxs onTime).logEv (unitId 3 0 0xFF) 0x0787 1 0xFF (j.delta.toNat + j.cause.toNat * 2 ^ 64)
    if w.time.steppedP = w.time.period then w2 else (List.range 32).foldl (fun w p => w.recheckSlots p) w2

/-- FTIME_STEP (R22, R291): at a local tick the step that is due takes effect. -/
def execFtimeStep (s : State) : Host.Outcome State Fault Refusal :=
  .next (s.onW fun w => if w.time.atTick then w.stepTime else w)

/-- The device's P becomes another (R23, R280): frames are numbered anew and the slot tables are checked against the new F. -/
def Work.setPeriod (w : Work) (us : BitVec 11) : Work :=
  let w1 : Work := { w with time := { w.time with period := us } }
  (List.range 32).foldl (fun w p => w.recheckSlots p) (w1.mapCtxs fun k => k.renumber w.frame w1.frame)

/-- A change of P takes effect: an announced one at its ftime (R23), or, after a lock without an announcement, the fabric's at the
first tick under both periods (R293). -/
def Work.changePeriod (w : Work) : Work :=
  let t := w.time
  if t.nextPeriod ≠ 0 ∧ t.changeAt.toNat ≤ t.ftime.toNat then
    ({ w with time := { t with nextPeriod := 0, changeAt := 0, lockP := 0 } } : Work).setPeriod t.nextPeriod
  else if t.lockP ≠ 0 ∧ isTick t.ftime.toNat t.lockP.toNat = true ∧ t.atTick = true then
    ({ w with time := { t with lockP := 0 } } : Work).setPeriod t.lockP
  else w

/-- FRAME_PERIOD_CHANGE (R23). -/
def execFramePeriodChange (s : State) : Host.Outcome State Fault Refusal := .next (s.onW Work.changePeriod)

/-- A requested slot table becomes active, or is refused (R280, R299). -/
def Work.commitSlots (w : Work) (p : Nat) : Work :=
  if (w.port p).commitPending then
    w.updPort p fun y =>
      if tablesOk y.shadow w.time.period.toNat then
        { y with active := y.shadow, cycleActive := y.cycle, commitPending := false, refused := false }
      else { y with commitPending := false, refused := true }
  else w

/-- SLOT_COMMIT_APPLY (R280). -/
def execSlotCommitApply (p : Fin 32) (s : State) : Host.Outcome State Fault Refusal := .next (s.onW fun w => w.commitSlots p.val)

/-- A partition pauses at a tick after the frame of its 0x70 (R91): its contexts that run or wait are PAUSED, and its functions are
told. -/
def Work.pausePart (w : Work) (q : Fin 8) : Work :=
  if (w.part q).pausePending ∧ (w.part q).pauseFrom < w.frame then
    let w1 := w.mapCtxs fun k =>
      if k.part = q ∧ (k.st = .running ∨ k.st = .waiting) then { k.noteLate w.time with st := .paused, pausedFrom := k.st } else k
    (w1.updPart q fun p => { p with paused := true, pausePending := false }).partEvent q 1
  else w

/-- PARTITION_PAUSE (R91). -/
def execPartitionPause (q : Fin 8) (s : State) : Host.Outcome State Fault Refusal := .next (s.onW fun w => w.pausePart q)

/-- A paused context goes on in frame m (R91): its state as before, its segment the one of the frame, its 0x70 record gone. -/
def Ctx.resumed (k : Ctx) (m : Nat) : Ctx :=
  { k with st := k.pausedFrom, startFrame := k.startFrame + (m - k.segment), segment := m, overrunCounted := false, fault70 := false
           fault := if k.fault.code = 0x70 then .none else k.fault }

/-- A partition resumes in frame m, a later one than that of the command (R91, R419): a rolled-back context restarts. The command
completes. -/
def Work.resumePart (w : Work) (q : Fin 8) : Work :=
  match (w.part q).resumePending with
  | none => w
  | some r =>
    let m := w.frame
    if m ≤ (w.part q).resumeFrom then w
    else
    let mine := w.liveCtxs.filter fun c => decide ((w.ctx c).part = q ∧ (w.ctx c).st = .paused)
    let w1 := mine.foldl (fun w c =>
      if (w.ctx c).restart then w.restartCtx c m else w.updCtx c fun k => k.resumed m) w
    let w2 := w1.updPart q fun p => { p with paused := false, resumePending := none }
    match r with
    | some c => w2.finish c 0 0
    | none => w2

/-- PARTITION_RESUME (R91). -/
def execPartitionResume (q : Fin 8) (s : State) : Host.Outcome State Fault Refusal := .next (s.onW fun w => w.resumePart q)

/-- A job's first step begins at the start frame (R188, R212): its plan slot is checked. -/
def Work.beginFirst (w : Work) (c : CtxId) : Work :=
  match w.jobOf c with
  | none => w
  | some j =>
    match j.peat with
    | some p => if j.step = j.start then w.beginSlot (w.ctx c).part p j.step.toNat else w
    | none => w

/-- A context whose next segment is due starts it (R24 action 7, R70, R88). -/
def Work.startSegment (w : Work) (c : CtxId) : Work :=
  let k := w.ctx c
  if k.st = .waiting ∧ k.hold = .tick ∧ k.segment < w.frame then w.beginSegment c (k.segment + 1)
  else if k.st = .loaded ∧ k.startFrame ≤ w.frame then
    ((w.beginFirst c).beginSegment c w.frame).updCtx c fun k => { k with startFrame := k.segment }
  else w

/-- SEGMENT_START (R88). -/
def execSegmentStart (c : CtxId) (s : State) : Host.Outcome State Fault Refusal := .next (s.onW fun w => w.startSegment c)

/-- LATENESS_EXCEEDS_SLACK (R25, R90): time passes within the frame; beyond the declared slack the context raises 0x70, once. -/
def execLatenessExceedsSlack (c : CtxId) (dt : Nat) (s : State) : Host.Outcome State Fault Refusal :=
  .next (s.onW fun w =>
    match w.advance dt with
    | none => w
    | some w1 =>
      if (w1.ctx c).slack * w1.time.periodNs < w1.lateness c ∧ (w1.ctx c).fault70 = false then w1.fault70 c else w1)

/-- Actions 3 to 5 of a tick, with what becomes true at a frame boundary (R16, R24, R36, R143, R243). -/
def Work.tickWork (w : Work) (ev : MemEvent) : Work :=
  let w1 := w.publishSluices
  let w2 := w1.applyOutcomes ev
  let w3 := (List.range 32).foldl (fun w p => w.commitSlots p) w2
  let w4 := (List.range 8).foldl (fun w n => w.updSlice n SliceSt.markAbsent) w3
  let w5 := w4.liveCores.foldl (fun w c => w.coreTick c) w4
  (List.range 16).foldl (fun w s => w.updStack s fun x => { x with refreshEff := x.refreshMode }) w5

/-- Action 7 of a tick (R24, R25, R91, R419): overruns, pauses, resumes and replays, then the segments that start. -/
def Work.tickSegments (w : Work) : Work :=
  let w1 := w.mapCtxs fun k => k.countOverrun w.frame
  let w2 := allParts.foldl (fun w q => w.pausePart q) w1
  let w3 := allParts.foldl (fun w q => w.resumePart q) w2
  let w4 := w3.commits.foldl (fun w e =>
    match e.2.replayAt with
    | some f => if f ≤ w.frame then w.restartJob (partFin (e.1 / 65536)) (BitVec.ofNat 16 e.1) else w
    | none => w) w3
  w4.liveCtxs.foldl (fun w c => w.startSegment c) w4

/-- ftime reaches the next tick (R21); the windows of the frame open. -/
def Work.toTick (w : Work) : Work :=
  let n := w.frame + 1
  let w1 : Work := { w with time := { w.time with ftime := BitVec.ofNat 64 (n * w.time.periodNs) } }
  { w1 with fab := { w1.fab with ports := (w1.fab.ports.map fun e => (e.1, { e.2 with windowUsed := [] })).filter fun e => decide (e.2 ≠ .zero) } }

/-- A frame closes at the ports (R267, R268, R281): best-effort packets that waited for scheduled windows have left beside them, and the
lines of flits leave. -/
def Work.closeLines (w : Work) : Work :=
  w.fab.ports.foldl (fun w e => (w.drainTx (portFin e.1) true ((w.port e.1).txq.length + 1)).closeLine (portFin e.1)) w

/-- The tick that opens a frame (R22-R24): steps of ftime and changes of P, then the seven actions in order. Drains that have ended
since take their effect before the segments start (R410, log entry 85). -/
def State.tick (s : State) (m : TickIn) : State :=
  let s1 := s.onW fun w => (w.closeLines.toTick.stepTime).changePeriod
  let s2 := s1.dipBack.applyPoint
  let s3 := (s2.closePower m).onW fun w => w.tickWork m.mem
  let s4 := if s3.w.frame % 64 = 0 then s3.computeHealth m.health else s3
  (s4.noteCaps.settleDrains).onW Work.tickSegments

/-- FRAME_TICK (R24). -/
def execFrameTick (m : TickIn) (s : State) : Host.Outcome State Fault Refusal := .next (s.tick m)

end Sys2Proof.Machine
end

