-- ==== Sys2Proof/Machine/Queues.lean ====
section
/-! DEFINITION. Doorbells, the Staithe, interrupts, and the life of queues and functions (R445-R453, R459-R467). -/

namespace Sys2Proof.Machine

/-- The partition byte of a function's log entries. -/
def Work.fnPart (w : Work) (f : Fn) : Byte := ((w.partOf f).map partByte).getD 0xFF

/-- A doorbell write that is ignored (R447): logged, and the function is told. `kind` is 0 for a submission tail, 1 for a
completion head. -/
def Work.badDoorbell (w : Work) (f : Fn) (k kind i : Nat) : Work :=
  (w.logEv staitheUnit 0x0980 2 (w.fnPart f) (fnKey f + k * 2 ^ 16 + kind * 2 ^ 32 + i * 2 ^ 48)).fnEvent f 4

/-- Completions of a queue whose outcome is known and that are not written (R450). -/
def QueueSt.waitingWrites (q : QueueSt) : Nat :=
  q.cmds.countP fun e => e.dup || (match e.st with | .done _ _ => true | _ => false)

/-- Whether the Staithe may fetch from a queue (R446, R450). -/
def Work.canFetch (w : Work) (f : Fn) (k : Nat) : Bool :=
  match w.queue f k with
  | none => false
  | some q =>
    !q.draining && decide (q.fetch ≠ q.tail) && !(decide (q.size - 1 ≤ q.used) && decide (256 ≤ q.waitingWrites))

/-- A queue leaves the order of those to fetch when it has nothing more to fetch; one whose completion ring is full keeps its place
(R450). -/
def Work.trimOrder (w : Work) (f : Fn) (k : Nat) : Work :=
  if (w.queue f k).any fun q => !q.draining && decide (q.fetch ≠ q.tail) then w
  else
    let o := w.host.order.filter fun x => decide (x ≠ (f, k))
    { w with host := { w.host with order := o, resuming := w.host.resuming && !o.isEmpty } }

/-- A submission tail (R446, R447): the entries from the fetch position up to the one before it are ready. A tail equal to the fetch
position ends the batch (R449). -/
def Work.tailDoorbell (w : Work) (f : Fn) (k : Nat) (v : BitVec 32) : Work :=
  match w.queue f k with
  | none => w
  | some q =>
    let i := v.toNat % 65536
    if q.size ≤ i then w.badDoorbell f k 0 i
    else if q.draining then w
    else
      let w1 := w.setQueue f k (some { q with tail := i })
      if i = q.fetch then (w1.ackBatch f k).trimOrder f k
      else if w.host.order.contains (f, k) then w1
      else { w1 with host := { w1.host with order := w1.host.order ++ [(f, k)] } }

/-- SQ_TAIL_DOORBELL (R446). -/
def execSqTailDoorbell (fn : Fn) (k : Nat) (v : BitVec 32) (s : State) : Host.Outcome State Fault Refusal :=
  .next (if s.fnOpen fn then s.onW fun w => w.tailDoorbell fn k v else s)

/-- A completion head (R446, R447): the slots before it are free, and completions that waited for them are written. -/
def Work.headDoorbell (w : Work) (f : Fn) (k : Nat) (v : BitVec 32) : Work :=
  match w.queue f k with
  | none => w
  | some q =>
    let i := v.toNat % 65536
    let d := (i + q.size - q.cqHead % q.size) % q.size
    if q.size ≤ i ∨ q.used < d then w.badDoorbell f k 1 i
    else ((w.setQueue f k (some { q with cqHead := q.cqHead + d })).flush f k (q.cmds.length + 1)).releaseDrained f k

/-- CQ_HEAD_DOORBELL (R446). -/
def execCqHeadDoorbell (fn : Fn) (k : Nat) (v : BitVec 32) (s : State) : Host.Outcome State Fault Refusal :=
  .next (if s.fnOpen fn then s.onW fun w => w.headDoorbell fn k v else s)

/-- Who may issue an opcode (R455). -/
inductive Issuer where
  | any | vf | pf | both
deriving DecidableEq, Repr

/-- The commands: who issues them, and their arguments as offset and size (R455). -/
def cmdForm (op : Nat) : Option (Issuer × List (Nat × Nat)) :=
  match op with
  | 0x01 => some (.any, [(16, 8), (24, 8), (32, 8), (40, 1), (42, 2), (44, 1), (46, 2)])
  | 0x02 => some (.any, [(16, 2)])
  | 0x10 => some (.vf, [(16, 8), (24, 8), (32, 8)])
  | 0x11 => some (.vf, [(16, 8), (24, 8), (32, 8)])
  | 0x20 => some (.vf, [(16, 8), (24, 16), (40, 8), (48, 8), (56, 4)])
  | 0x21 => some (.vf, [(16, 4)])
  | 0x22 => some (.vf, [])
  | 0x23 => some (.vf, [(16, 8), (24, 4)])
  | 0x30 => some (.both, [(16, 8), (24, 8), (32, 4), (36, 1), (37, 1)])
  | 0x31 => some (.both, [(16, 1), (17, 1)])
  | 0x32 => some (.vf, [(16, 8), (24, 8), (32, 1)])
  | 0x40 => some (.vf, [(16, 8), (24, 8), (32, 16)])
  | 0x41 => some (.vf, [(16, 8), (24, 8), (32, 16)])
  | 0x42 => some (.vf, [(16, 8), (24, 4), (28, 1)])
  | 0x50 => some (.pf, [(16, 8)])
  | 0x51 => some (.pf, [(16, 8)])
  | 0x52 => some (.pf, [])
  | 0x53 => some (.pf, [])
  | 0x54 => some (.pf, [])
  | _ => none

/-- Whether the reserved parts of an entry are zero (R448): FLAGS[7:2], bytes 11 to 15, and every argument byte that the
command does not name. -/
def reservedZero (e : BitVec 512) (args : List (Nat × Nat)) : Bool :=
  decide (cmdArg e 1 1 < 4) && decide (cmdArg e 11 5 = 0) &&
    (List.range 48).all fun i =>
      args.any (fun a => decide (a.1 ≤ 16 + i) && decide (16 + i < a.1 + a.2)) || decide (cmdArg e (16 + i) 1 = 0)

/-- The format check of the Staithe (R449 step 2, R454, R455): the low byte of the refusal, 0 for none. The cause for a
command that only a virtual function may issue is DEDUCED (log entry 41). -/
def Work.formatCheck (w : Work) (f : Fn) (k : Nat) (e : BitVec 512) : Nat :=
  let op := cmdOpcode e
  match cmdForm op with
  | none => 0x01
  | some (by_, args) =>
    let pf := decide (f.fn = 0)
    if op ≤ 2 ∧ k ≠ 0 then 0x01
    else if by_ = .vf ∧ pf = true then 0x01
    else if by_ = .pf ∧ pf = false then 0x04
    else if !reservedZero e args then 0x02
    else if pf = false then
      match w.partOf f with
      | none => 0x05
      | some q => if cmdPart e = 0 ∨ cmdPart e = q.val then 0 else 0x04
    else if op = 0x30 ∨ op = 0x31 ∨ op = 0x52 ∨ op = 0x53 then (if 8 ≤ cmdPart e then 0x04 else 0)
    else 0

/-- The partition that a command names (R454, R455): its function's, or for a management function PARTITION's. -/
def Work.cmdTarget (w : Work) (r : CmdRef) (e : BitVec 512) : Option (Fin 8) :=
  if r.fn.fn = 0 then some (partFin (cmdPart e)) else w.partOf r.fn

/-- A partition exists and does not await assignment (R396, R454). -/
def Part.usable (p : Part) : Bool := p.dyke.valid && decide (p.removal = 0)

/-- A SEQ within the last 4,096 that a command of the queue has used (R449). A SEQ in that range that none has used is not the
expected one (DEDUCED, log entry 42). -/
def QueueSt.resubmitted (q : QueueSt) (seq : BitVec 48) : Bool :=
  let d := (q.x - seq).toNat
  decide (1 ≤ d) && decide (d ≤ 4096) &&
    ((q.history.get none seq.toNat).isSome || q.cmds.any fun e => !e.dup && !e.bad && decide (e.seq = seq))

/-- A fetched entry is judged (R449): accepted, refused with its SEQ consumed, answered again, or refused with 0x0103. -/
def QueueSt.judge (q : QueueSt) (e : BitVec 512) (cause : Nat) : QueueSt :=
  let seq := cmdSeq e
  let q1 := { q with fetch := (q.fetch + 1) % q.size }
  if seq = q.x then
    let st := if cause = 0 then CmdSt.accepted else .done (BitVec.ofNat 16 (0x100 + cause)) 0
    { q1 with x := q.x + 1, ackDue := true, cmds := q.cmds ++ [⟨seq, false, false, e, st⟩] }
  else if q.resubmitted seq then { q1 with cmds := q.cmds ++ [⟨seq, true, false, e, .accepted⟩] }
  else { q1 with cmds := q.cmds ++ [⟨seq, false, true, e, .done 0x103 0⟩] }

/-- Whether a queue's turn has come (R450): after a full Staithe, queues are fetched in doorbell order. -/
def Work.fetchTurn (w : Work) (f : Fn) (k : Nat) : Bool :=
  !w.host.resuming ||
    (match w.host.order.find? fun x => w.canFetch x.1 x.2 with | some x => decide (x = (f, k)) | none => true)

/-- The Staithe fetches one entry (R446, R449, R450). A full Staithe stops, once counted; a batch ends at the tail. -/
def Work.fetchOne (w : Work) (f : Fn) (k : Nat) (e : BitVec 512) : Work :=
  match w.queue f k with
  | none => w
  | some q =>
    if w.host.stalled || !w.canFetch f k || !w.fetchTurn f k then w
    else if 65536 ≤ w.held then
      let w1 := w.ackBatch f k
      { w1 with host := { w1.host with stalled := true, resuming := false, stalls := satAdd w1.host.stalls 1 } }
    else
      let w1 := w.setQueue f k (some (q.judge e (w.formatCheck f k e)))
      let w2 := if w1.canFetch f k then w1 else w1.ackBatch f k
      ((w2.flush f k (q.cmds.length + 2)).releaseDrained f k).trimOrder f k

/-- STAITHE_FETCH (R449). -/
def execStaitheFetch (fn : Fn) (k : Nat) (entry : BitVec 512) (s : State) : Host.Outcome State Fault Refusal :=
  .next (s.onW fun w => if w.fnUp fn then w.fetchOne fn k entry else w)

/-- STAITHE_RESUME_FETCH (R450): once commands have completed, the queues that wait are fetched in doorbell order. -/
def execStaitheResumeFetch (s : State) : Host.Outcome State Fault Refusal :=
  .next (s.onW fun w =>
    if w.host.stalled ∧ w.held < 65536 then
      { w with host := { w.host with stalled := false, resuming := !w.host.order.isEmpty } }
    else w)

/-- INTERRUPT_COALESCE_TIMER (R453): the oldest completion not signalled is TIME old. -/
def execInterruptCoalesceTimer (fn : Fn) (k : Nat) (s : State) : Host.Outcome State Fault Refusal :=
  .next (s.onW fun w =>
    match w.queue fn k with
    | some q => if 0 < q.unsignalled then w.interrupt fn k else w
    | none => w)

/-- A queue as it is created (R445, R449). -/
def QueueSt.fresh (sq cq ack : Word) (l vector count time : Nat) : QueueSt :=
  { sq, cq, ack, l, vector, count, time, tail := 0, fetch := 0, cqHead := 0, cqTail := 0, x := 1, ackDue := false, cmds := []
    history := [], unsignalled := 0, draining := false, deleteBy := none }

/-- A vector within a function's (R462). -/
def FnLimits.clampVector (c : FnLimits) (v : Nat) : Nat := if c.vectorCount.toNat ≤ v then c.vectorCount.toNat - 1 else v

/-- Queue 0 takes a queue context (R445, R462). -/
def Work.takeAdmin (w : Work) (f : Fn) : Work :=
  let s := w.fn f
  (w.setQueue f 0 (some (.fresh s.aqSq s.aqCq s.aqAck s.aqEff.l.toNat (s.cfgEff.clampVector s.aqEff.vector.toNat) s.aqEff.count.toNat
    s.aqEff.time.toNat))).updFn f fun s => { s with ready := true, waiting := false }

/-- Whether queue 0 of a function can take a context (R445). -/
def Work.adminRoom (w : Work) (f : Fn) : Bool := (w.queue f 0).isNone && w.queueRoom f

/-- QUEUE_CONTEXT_GRANT (R445): a freed context goes to a queue 0 that waits. -/
def execQueueContextGrant (fn : Fn) (s : State) : Host.Outcome State Fault Refusal :=
  .next (s.onW fun w => if (w.fn fn).waiting && (w.fn fn).enable && w.adminRoom fn then w.takeAdmin fn else w)

/-- The lowest queue number above 0 that a function has free. -/
def Work.freeQueue (w : Work) (f : Fn) : Option Nat := ((List.range 4096).drop 1).find? fun k => (w.queue f k).isNone

/-- CREATE_QUEUE (R445, R455). The number given is the lowest free one (DESIGN CHOICE, log entry 43). -/
def Work.runCreateQueue (w : Work) (r : CmdRef) (e : BitVec 512) : Work :=
  let l := cmdArg e 40 1
  let vec := cmdArg e 42 2
  let cnt := cmdArg e 44 1
  if l < 4 ∨ 16 < l ∨ cnt = 0 ∨ cmdArg e 32 8 % 8 ≠ 0 ∨ (w.fn r.fn).cfgEff.vectorCount.toNat ≤ vec then w.finish r 0x102 0
  else if !w.queueRoom r.fn then w.finish r 0x108 0
  else
    match w.freeQueue r.fn with
    | none => w.finish r 0x108 0
    | some k =>
      (w.setQueue r.fn k (some (.fresh (BitVec.ofNat 64 (cmdArg e 16 8)) (BitVec.ofNat 64 (cmdArg e 24 8))
        (BitVec.ofNat 64 (cmdArg e 32 8)) l vec cnt (cmdArg e 46 2)))).finish r 0 k

/-- CREATE_QUEUE (R455). -/
def execCreateQueue (r : CmdRef) (s : State) : Host.Outcome State Fault Refusal :=
  .next (s.onW fun w => match w.startCmd r 0x01 with | some e => w.runCreateQueue r e | none => w)

/-- DELETE_QUEUE (R455, R459): queue 0, numbers above 4,095 (R444) and queues that do not exist are out of range. -/
def Work.runDeleteQueue (w : Work) (r : CmdRef) (e : BitVec 512) : Work :=
  let k := cmdArg e 16 2
  match w.queue r.fn k with
  | none => w.finish r 0x102 0
  | some q =>
    if k = 0 ∨ q.draining then w.finish r 0x102 0
    else (w.markCmd r .started).disableQueue r.fn k (some r)

/-- DELETE_QUEUE (R459). -/
def execDeleteQueue (r : CmdRef) (s : State) : Host.Outcome State Fault Refusal :=
  .next (s.onW fun w => match w.startCmd r 0x02 with | some e => w.runDeleteQueue r e | none => w)

/-- Every queue of a function is disabled (R459). -/
def Work.disableFn (w : Work) (f : Fn) : Work :=
  let w1 := ((w.queuesOf f).foldl (fun w k => w.disableQueue f k none) w)
  w1.updFn f fun s => { s with enable := false, ready := false, waiting := false }

/-- AQ_CTL as written (R462). -/
def aqWritten (c : FnLimits) (v : Word) : AqVals :=
  let l : BitVec 5 := v.extractLsb' 16 5
  let cnt : Byte := v.extractLsb' 8 8
  { time := v.extractLsb' 32 16
    vector := BitVec.ofNat 11 (c.clampVector (bitsOf v.toNat 21 11))
    l := if l.toNat < 4 ∨ 16 < l.toNat then 4 else l
    count := if cnt = 0 then 1 else cnt }

/-- AQ_CTL written with ENABLE 1 (R445, R462, R465). -/
def Work.enableAq (w : Work) (f : Fn) (v : Word) : Work :=
  if (w.fn f).enable then w.updFn f fun s => { s with aq := aqWritten s.cfgEff v }
  else
    let w1 := w.updFn f fun s => { s with enable := true, cfgEff := s.cfg, aq := aqWritten s.cfg v, aqEff := aqWritten s.cfg v }
    if w1.adminRoom f then w1.takeAdmin f
    else ((w1.updFn f fun s => { s with waiting := true }).logEv staitheUnit 0x0981 2 (w1.fnPart f) (fnKey f)).fnEvent f 5

/-- AQ_ENABLE (R462). -/
def execAqEnable (fn : Fn) (v : Word) (s : State) : Host.Outcome State Fault Refusal :=
  .next (if s.fnOpen fn && v.getLsbD 63 then s.onW fun w => w.enableAq fn v else s)

/-- AQ_DISABLE (R459, R462). -/
def execAqDisable (fn : Fn) (v : Word) (s : State) : Host.Outcome State Fault Refusal :=
  .next (
    if s.fnOpen fn && !v.getLsbD 63 then
      s.onW fun w => (w.disableFn fn).updFn fn fun s => { s with aq := aqWritten s.cfgEff v }
    else s)

/-- The limits a write of FN_CFG names (R465). -/
def fnCfgWritten (v : Word) : FnLimits := ⟨v.extractLsb' 48 11, v.extractLsb' 32 12, v.extractLsb' 0 13⟩

/-- Whether a write of FN_CFG is taken (R465): no overlap with another function of its port, and at most 16,384 queues. Values
outside the fields' ranges are stored (R4; DEDUCED, log entry 44). -/
def Work.cfgOk (w : Work) (f : Fn) (c : FnLimits) : Bool :=
  let others := ((List.range 32).map fnOfKey).filter fun g => decide (g ≠ f)
  others.all (fun g =>
      let d := (w.fn g).cfg
      decide (g.port ≠ f.port) || decide (d.vectorBase.toNat + d.vectorCount.toNat ≤ c.vectorBase.toNat) ||
        decide (c.vectorBase.toNat + c.vectorCount.toNat ≤ d.vectorBase.toNat)) &&
    decide (others.foldl (fun n g => n + (w.fn g).cfg.maxQueues.toNat) c.maxQueues.toNat ≤ 16384)

/-- FN_CFG_WRITE (R465). -/
def execFnCfgWrite (who : Fn) (fn : Fn) (v : Word) (s : State) : Host.Outcome State Fault Refusal :=
  .next (s.request who fun s => s.onW fun w =>
    if physical who && w.cfgOk fn (fnCfgWritten v) then w.updFn fn fun s => { s with cfg := fnCfgWritten v } else w)

/-- FUNCTION_LEVEL_RESET (R412, R459): the function's queues are fenced and drained, and lost; the function has a new epoch. -/
def execFunctionLevelReset (fn : Fn) (s : State) : Host.Outcome State Fault Refusal :=
  .next (s.onW fun w => if s.ctl.ready && w.fnUp fn then (w.disableFn fn).nextFnEpoch fn else w)

/-- A function's queues are released, and nothing more is written to them (R408, R460). -/
def Work.dropQueues (w : Work) (f : Fn) : Work :=
  let w1 := (w.queuesOf f).foldl (fun w k =>
    match w.queue f k with
    | some q => ((q.cmds.filter CmdEnt.live).foldl (fun w e => w.detach ⟨f, k, e.seq⟩) w).setQueue f k none
    | none => w) w
  let o := w1.host.order.filter fun x => decide (x.1 ≠ f)
  ({ w1 with host := { w1.host with order := o } } : Work).updFn f fun s => { s with enable := false, ready := false, waiting := false }

/-- The functions of a port. -/
def portFns (p : Fin 2) : List Fn := ((List.range 32).map fnOfKey).filter fun f => decide (f.port = p)

/-- PCIE_LINK_DOWN (R444, R460, R466): every function of the port is reset. -/
def execPcieLinkDown (p : Fin 2) (s : State) : Host.Outcome State Fault Refusal :=
  .next (s.onW fun w =>
    let w1 := (portFns p).foldl (fun w f => (w.dropQueues f).nextFnEpoch f) w
    { w1 with host := { w1.host with
      pcie := w1.host.pcie.upd .zero p.val fun x => { x with downEvents := satAdd x.downEvents 1, up := false } } })

end Sys2Proof.Machine
end

