-- ==== Sys2Proof/Machine/Header.lean ====
section
/-! DEFINITION. The program header: its layout, its format checks and its sections (R71, R170, R190, R202, R231, R283, R413,
R457, R458, R535). -/

namespace Sys2Proof.Machine

/-- The sections of a header, in the order of their offset fields (R457). -/
inductive Sec where
  | ctx | sluice | operand | splitk | weights | peat | stats | fabric | resil | scale
deriving DecidableEq, Repr

/-- Every section. -/
def allSecs : List Sec := [.ctx, .sluice, .operand, .splitk, .weights, .peat, .stats, .fabric, .resil, .scale]

/-- A section's offset field: from byte 24 on, in order; SCALE_OFF is at 60 (R457). -/
def Sec.field : Sec → Nat
  | .ctx => 24 | .sluice => 28 | .operand => 32 | .splitk => 36 | .weights => 40
  | .peat => 44 | .stats => 48 | .fabric => 52 | .resil => 56 | .scale => 60

/-- Bytes of an entry (R170, R190, R202, R231, R283, R413, R458, R535). -/
def Sec.size : Sec → Nat
  | .ctx => 72 | .sluice => 8 | .operand => 16 | .splitk => 16 | .weights => 32
  | .peat => 32 | .stats => 16 | .fabric => 32 | .resil => 32 | .scale => 32

/-- A section's offset in a header; 0 for an absent one. -/
def secOff (b : List Byte) (s : Sec) : Nat := leAt b s.field 4

/-- The entries of a section that the fixed part counts; a section without a count has one entry where it is present. -/
def secCount (b : List Byte) : Sec → Nat
  | .ctx => leAt b 8 2
  | .sluice => leAt b 12 2
  | .operand => leAt b 16 4
  | .splitk => leAt b 11 1
  | .weights => leAt b 14 2
  | .scale => leAt b 20 4
  | s => if secOff b s = 0 then 0 else 1

/-- The largest count of a section (R457). -/
def Sec.maxCount : Sec → Nat
  | .ctx => 2048 | .sluice => 16384 | .splitk => 16 | .weights => 256 | .scale => 1048576 | _ => 4294967295

/-- The entries of a section. -/
def secEntries (b : List Byte) (s : Sec) : List (List Byte) :=
  (List.range (secCount b s)).map fun i => bytesAt b (secOff b s + s.size * i) s.size

/-- Bytes that a field may use in full. -/
def anyBytes (n : Nat) : List Nat := List.replicate n 255
/-- Reserved bytes. -/
def noBytes (n : Nat) : List Nat := List.replicate n 0

/-- The bits of an entry that a table names, byte by byte; the others are reserved. -/
def Sec.bits : Sec → List Nat
  | .ctx => [7, 63, 3] ++ noBytes 5 ++ anyBytes 34 ++ [15, 3, 63] ++ noBytes 3 ++ [63, 127, 0, 0, 63, 127, 0, 0] ++ anyBytes 8 ++ noBytes 8
  | .sluice => [255, 191, 255, 255] ++ noBytes 4
  | .operand => anyBytes 3 ++ [0] ++ anyBytes 12
  | .splitk => [255, 255, 15, 0, 255] ++ noBytes 3 ++ anyBytes 8
  | .weights => [255, 255, 15] ++ noBytes 5 ++ anyBytes 24
  | .peat => anyBytes 10 ++ [63] ++ anyBytes 4 ++ [63] ++ anyBytes 8 ++ noBytes 8
  | .stats => anyBytes 8 ++ [63] ++ noBytes 7
  | .fabric => anyBytes 10 ++ [63] ++ noBytes 5 ++ anyBytes 16
  | .resil => anyBytes 6 ++ [1] ++ anyBytes 25
  | .scale => anyBytes 24 ++ noBytes 8

/-- Whether every bit outside the named ones is zero. -/
def bitsOk : List Nat → List Byte → Bool
  | m :: ms, b :: bs => decide (b &&& ~~~(BitVec.ofNat 8 m) = 0) && bitsOk ms bs
  | _, _ => true

/-- The places of the sections and of the fixed part: offset and bytes. -/
def secSpans (b : List Byte) : List (Nat × Nat) := (0, 64) :: allSecs.map fun s => (secOff b s, s.size * secCount b s)

/-- Two places share a byte. -/
def spansMeet (x y : Nat × Nat) : Bool := decide (x.1 < y.1 + y.2) && decide (y.1 < x.1 + x.2)

/-- Whether some place meets another of a list. -/
def anyMeet : List (Nat × Nat) → Bool
  | [] => false
  | x :: l => l.any (spansMeet x) || anyMeet l

/-- Ranges of the fields for which no table of causes says more (R458). CODE_M is judged with a shard code only (DEDUCED, log
entry 45). -/
def Sec.inRange (s : Sec) (b : List Byte) (e : List Byte) : Bool :=
  match s with
  | .ctx => decide (bitsOf (leAt e 48 4) 8 7 ≠ 0 ∧ bitsOf (leAt e 52 4) 8 7 ≠ 0)
  | .operand =>
    decide (leAt e 0 2 < secCount b .ctx ∧ leAt e 2 1 ≤ 1) &&
      (if leAt e 2 1 = 0 then decide (leAt e 8 8 % 512 = 0) else decide (leAt e 8 8 < 2 ^ 20))
  | .weights => decide (leAt e 8 8 % 512 = 0 ∧ leAt e 16 8 % 512 = 0 ∧ leAt e 24 8 % 512 = 0 ∧ leAt e 24 8 ≠ 0)
  | .stats => decide (leAt e 0 8 % 2 ^ 28 = 0)
  | .fabric =>
    decide (leAt e 0 8 % 2 ^ 21 = 0 ∧ 1 ≤ leAt e 8 2 ∧ leAt e 8 2 ≤ 4096 ∧ leAt e 16 8 % 2 ^ 22 = 0 ∧
      leAt e 24 4 % 8 = 0 ∧ 1 ≤ leAt e 28 4 ∧ leAt e 28 4 ≤ 65536)
  | .resil =>
    let k := leAt e 4 1
    let m := leAt e 5 1
    decide (1 ≤ leAt e 0 2 ∧ leAt e 7 1 ≤ 16 ∧ leAt e 8 8 % 512 = 0) &&
      (k == 0 || decide (20 < k + m) || decide (2 ≤ k ∧ k ≤ 16 ∧ 1 ≤ m ∧ m ≤ 4))
  | .scale =>
    let rows := leAt e 8 4
    let cols := leAt e 12 4
    let per := (rows + 63) / 64 * 64 * ((cols + 63) / 64 * 64) / 32
    decide (1 ≤ rows ∧ 1 ≤ cols ∧ 1 ≤ leAt e 4 4 ∧ leAt e 4 4 % per = 0) &&
      (decide (bitsOf (leAt e 0 4) 23 1 = 1) || decide (leAt e 16 8 % 64 = 0))
  | _ => true

/-- A list of operand entries in order of CONTEXT and then SEGMENT (R458). -/
def operandsSorted : List (List Byte) → Bool
  | x :: y :: l =>
    (decide (leAt x 0 2 < leAt y 0 2) || (decide (leAt x 0 2 = leAt y 0 2) && decide (leAt x 4 4 ≤ leAt y 4 4))) &&
      operandsSorted (y :: l)
  | _ => true

/-- The slice that a context entry's PLACE names. -/
def placeSlice (e : List Byte) : Nat := bitsOf (leAt e 0 8) 0 3
/-- The context that PLACE names (R458). -/
def placeCtx (e : List Byte) : CtxId :=
  ctxOfKey (placeSlice e * 256 + bitsOf (leAt e 0 8) 8 6 * 4 + bitsOf (leAt e 0 8) 16 2)

/-- The tensors that scale records name. -/
def scaleTensors (b : List Byte) : List Nat := (secEntries b .scale).map fun e => bitsOf (leAt e 0 4) 0 20

/-- MAGIC and LENGTH of a header's first 64 bytes (R457, R458). -/
def headerStart (b : List Byte) : Bool :=
  let n := leAt b 4 4
  decide (leAt b 0 4 = 0x4A325048 ∧ 64 ≤ n ∧ n % 64 = 0 ∧ n ≤ 4194304)

/-- The counts, offsets and places of a header (R457, R458). -/
def headerShape (b : List Byte) : Bool :=
  decide (1 ≤ secCount b .ctx) && allSecs.all (fun s =>
    decide (secCount b s ≤ s.maxCount) && decide (secOff b s % 8 = 0) &&
      (decide (secCount b s = 0) || decide (secOff b s ≠ 0)) &&
      decide (secOff b s + s.size * secCount b s ≤ leAt b 4 4)) &&
    !anyMeet (secSpans b)

/-- The rest of the format check (R458): reserved bits, ranges, order and slices. -/
def headerFields (b : List Byte) (slices : Byte) : Bool :=
  decide (leAt b 10 1 ≤ 1) &&
    allSecs.all (fun s => (secEntries b s).all fun e => bitsOk s.bits e && s.inRange b e) &&
    operandsSorted (secEntries b .operand) && decide (scaleTensors b).Nodup &&
    (secEntries b .ctx).all fun e => slices.getLsbD (placeSlice e)

/-- A header passes R458; otherwise the load is refused with 0x010A. -/
def headerOk (b : List Byte) (slices : Byte) : Bool := headerStart b && headerShape b && headerFields b slices

/-- The declaration of a context section (R71). -/
def declOf (e : List Byte) : CtxDecl :=
  { imageBase := BitVec.ofNat 48 (leAt e 8 8), imageSize := leAt e 16 4, entryPc := leAt e 20 4
    vMask := BitVec.ofNat 64 (leAt e 24 8), aMask := BitVec.ofNat 64 (leAt e 32 8), tMask := BitVec.ofNat 16 (leAt e 40 2)
    satTrap := decide (bitsOf (leAt e 43 1) 1 1 = 1), nanTrap := decide (bitsOf (leAt e 43 1) 0 1 = 1)
    domain := BitVec.ofNat 6 (leAt e 44 1)
    localBase := bitsOf (leAt e 48 4) 0 6 * 65536, localSize := bitsOf (leAt e 48 4) 8 7 * 65536
    clusterBase := bitsOf (leAt e 52 4) 0 6 * 262144, clusterSize := bitsOf (leAt e 52 4) 8 7 * 262144
    arg := BitVec.ofNat 64 (leAt e 56 8) }

/-- The slack of a context section (R71). -/
def slackOf (e : List Byte) : Nat := leAt e 42 1

/-- A weight-pair record (R202). -/
def weightOf (e : List Byte) : WeightPair :=
  { tensor := BitVec.ofNat 20 (leAt e 0 4), base0 := BitVec.ofNat 48 (leAt e 8 8), base1 := BitVec.ofNat 48 (leAt e 16 8)
    bytes := leAt e 24 8 }

/-- The Peat section (R190). -/
def peatOf (e : List Byte) : PeatSec :=
  { spillBase := BitVec.ofNat 48 (leAt e 0 8), pages := leAt e 8 2, domain := BitVec.ofNat 6 (leAt e 10 1), ceiling := leAt e 11 1
    fetchAhead := leAt e 12 2, commitSluice := BitVec.ofNat 14 (leAt e 14 2), recordBase := BitVec.ofNat 48 (leAt e 16 8) }

/-- The statistics section (R231). -/
def statOf (e : List Byte) : StatSec := ⟨BitVec.ofNat 48 (leAt e 0 8), BitVec.ofNat 6 (leAt e 8 1)⟩

/-- The fabric section and its member list (R283). -/
def fabricOf (b e : List Byte) : FabricSec :=
  { retainBase := BitVec.ofNat 48 (leAt e 0 8), retainPages := leAt e 8 2, retainDomain := BitVec.ofNat 6 (leAt e 10 1)
    flowBase := BitVec.ofNat 48 (leAt e 16 8), membersOff := leAt e 24 4
    members := (List.range (leAt e 28 4)).map fun i => BitVec.ofNat 16 (leAt b (leAt e 24 4 + 2 * i) 2) }

/-- The resilience section (R413). -/
def resilOf (e : List Byte) : ResilSec :=
  { deadline := leAt e 0 2, home2 := BitVec.ofNat 16 (leAt e 2 2), codeK := leAt e 4 1, codeM := leAt e 5 1
    autoReplay := decide (leAt e 6 1 % 2 = 1), codeCount := leAt e 7 1, codeBase := BitVec.ofNat 48 (leAt e 8 8)
    ownerKey := BitVec.ofNat 48 (leAt e 16 8), shardBytes := leAt e 24 8 }

/-- The one entry of a section that has one. -/
def secOne (b : List Byte) (s : Sec) : Option (List Byte) := (secEntries b s).head?

/-- The operand list of context entry i (R425, R458). -/
def aheadOf (b : List Byte) (i : Nat) : List AheadEnt :=
  ((secEntries b .operand).filter fun e => decide (leAt e 0 2 = i)).map fun e =>
    let v := leAt e 8 8
    { segment := leAt e 4 4, scaleEntry := decide (leAt e 2 1 = 1), addr := v % 2 ^ 48, bytes := v / 2 ^ 48 * 512
      tensor := BitVec.ofNat 20 v }

end Sys2Proof.Machine
end

