-- ==== Sys2Proof/Machine/Load.lean ====
section
/-! DEFINITION. Loading and unloading programs, resuming, and plans (R71-R75, R170, R188, R203, R209-R212, R223, R231, R283,
R350, R383, R384, R413, R456-R458, R535). -/

namespace Sys2Proof.Machine

/-- The first cause that applies, 0 for none. -/
def firstCause : List (Bool × Nat) → Nat
  | [] => 0
  | (c, n) :: l => if c then n else firstCause l

/-- A range within the partition's address space (R344). -/
def inSpace (x : Nat × Nat) : Bool := decide (x.1 + x.2 ≤ 2 ^ 48)

/-- The buffers of weight pairs. -/
def weightSpans (l : List WeightPair) : List (Nat × Nat) := l.flatMap fun p => [(p.base0.toNat, p.bytes), (p.base1.toNat, p.bytes)]
/-- The overflow region of n slices (R190). -/
def PeatSec.overflow (p : PeatSec) (n : Nat) : Nat × Nat := (p.spillBase.toNat, n * p.pages * pageBytes)
/-- The plan record slots (R190, R212). -/
def PeatSec.slots (p : PeatSec) : Nat × Nat := (p.recordBase.toNat, 131072)
/-- The statistics tables of n slices (R231). -/
def StatSec.tables (p : StatSec) (n : Nat) : Nat × Nat := (p.base.toNat, n * 268435456)
/-- The retention regions of n slices (R283). -/
def FabricSec.retention (p : FabricSec) (n : Nat) : Nat × Nat := (p.retainBase.toNat, n * p.retainPages * pageBytes)
/-- The flow table (R283). -/
def FabricSec.flows (p : FabricSec) : Nat × Nat := (p.flowBase.toNat, 4194304)

/-- A list of device addresses strictly rises (R283). -/
def risingList : List (BitVec 16) → Bool
  | x :: y :: l => decide (x.toNat < y.toNat) && risingList (y :: l)
  | _ => true

/-- What a LOAD asks for: partition, job, name, header and seed. -/
structure LoadReq where
  q : Fin 8
  job : BitVec 16
  program : BitVec 32
  hdr : List Byte
  seed : List Byte

/-- The context entries of a request. -/
def LoadReq.ctxs (l : LoadReq) : List (List Byte) := secEntries l.hdr .ctx

/-- A core is absent or out of service (R17, R72). -/
def Work.coreGone (w : Work) (c : CtxId) : Bool :=
  let s := w.slice c.slice.val
  s.gated || s.mappedOut || s.coreAbsent.getLsbD c.core.val || s.waitingSpare.any (fun e => decide (e.1 = c.core.val)) ||
    w.isDown (coreUnit c.slice.val c.core.val) || decide ((w.ctx c).st = .absent)

/-- Masks of a declaration meet (R72). -/
def declsMeet (x y : CtxDecl) : Bool :=
  decide (x.vMask &&& y.vMask ≠ 0) || decide (x.aMask &&& y.aMask ≠ 0) || decide (x.tMask &&& y.tMask ≠ 0)

/-- Two contexts of one core declare one register (R72, cause 0x10). -/
def Work.registersClash (w : Work) : List (CtxId × CtxDecl) → Bool
  | [] => false
  | (c, d) :: l =>
    l.any (fun x => decide (coreKey x.1 = coreKey c) && declsMeet d x.2) ||
      (siblings c).any (fun x => let k := w.ctx x; !(k.st = .empty || k.st = .absent) && declsMeet d k.decl) ||
      Work.registersClash w l

/-- The causes of R72 that concern contexts, in the table's order, and R410's for a fenced unit. -/
def Work.ctxCause (w : Work) (l : LoadReq) : Nat :=
  let ds := l.ctxs.map fun e => (placeCtx e, declOf e)
  let cs := ds.map (·.1)
  let sl := secEntries l.hdr .sluice
  let onFabric := (secOne l.hdr .fabric).isSome || sl.any fun e => decide (bitsOf (leAt e 0 2) 15 1 = 1)
  firstCause [
    (w.registersClash ds, 0x10),
    (cs.any w.coreGone, 0x11),
    (ds.any fun x => decide (64 * 65536 < x.2.localBase + x.2.localSize) || decide (64 * 262144 < x.2.clusterBase + x.2.clusterSize), 0x12),
    (l.ctxs.any fun e => decide (2 ^ 48 ≤ leAt e 8 8) || decide (leAt e 8 8 % 512 ≠ 0) || decide (leAt e 16 4 % 8 ≠ 0) ||
      decide (16777216 < leAt e 16 4) || decide (leAt e 20 4 % 8 ≠ 0) || decide (leAt e 16 4 ≤ leAt e 20 4), 0x13),
    (l.ctxs.any fun e => decide (slackOf e ≠ slackOf (l.ctxs.headD [])), 0x14),
    (!decide cs.Nodup || cs.any fun c => decide ((w.ctx c).st ≠ .empty), 0x15),
    (onFabric && decide (w.time.st ≠ 1), 0x16),
    (sl.any fun e => !(w.part l.q).dyke.sluices.getLsbD (bitsOf (leAt e 0 2) 0 14 / 64), 0x17),
    (cs.any w.coreFenced, 0x60)]

/-- The split-K groups that a header declares (R170). -/
def Work.groupsOf (w : Work) (l : LoadReq) : List Group :=
  (secEntries l.hdr .splitk).map fun e =>
    let g : Group :=
      { q := l.q, program := l.program, tensor := BitVec.ofNat 20 (leAt e 0 4), coreMask := BitVec.ofNat 8 (leAt e 4 1)
        clusterMask := BitVec.ofNat 64 (leAt e 8 8), absentAtLoad := [] }
    { g with absentAtLoad := g.cores.filter fun k => w.coreGone (ctxOfKey (k * 4)) }

/-- Cause 0x18 (R170). -/
def Work.splitCause (w : Work) (l : LoadReq) : Bool :=
  let gs := w.groupsOf l
  gs.any (fun g => decide (g.coreMask = 0) || decide (g.clusterMask = 0) ||
    (List.range 64).any fun j => g.clusterMask.getLsbD j && !(w.part l.q).dyke.slices.getLsbD (j / 8)) ||
    !decide (gs.map (·.tensor)).Nodup

/-- The sections in force for a job with a program's own (R203, R231, R283, R413). -/
structure Sections where
  weights : List WeightPair
  peat : Option PeatSec
  stat : Option StatSec
  fabric : Option FabricSec
  resil : Option ResilSec

/-- The sections that a header carries. -/
def ownSections (b : List Byte) : Sections :=
  { weights := (secEntries b .weights).map weightOf, peat := (secOne b .peat).map peatOf, stat := (secOne b .stats).map statOf
    fabric := (secOne b .fabric).map (fabricOf b), resil := (secOne b .resil).map resilOf }

/-- A program's sections joined to its job's. -/
def Sections.join (o : Sections) (j : Option Job) : Sections :=
  match j with
  | none => o
  | some j =>
    { weights := j.weights ++ o.weights.filter fun p => !j.weights.contains p
      peat := j.peat <|> o.peat, stat := j.stat <|> o.stat, fabric := j.fabric <|> o.fabric, resil := j.resil <|> o.resil }

/-- A section differs from the one that the job has. -/
def differs {α : Type} [DecidableEq α] (old new : Option α) : Bool :=
  match old, new with
  | some x, some y => decide (x ≠ y)
  | _, _ => false

/-- An 8-byte address field of a section entry lies outside the partition's address space (R344). -/
def farField (e : List Byte) (o : Nat) : Bool := decide (2 ^ 48 ≤ leAt e o 8)

/-- What the weight pairs, Peat section and statistics section of a job hold of the partition (R202, R190, R231): buffers, overflow
region and slots; and its tables. -/
def Sections.spans (n : Sections) (k : Nat) : List (Nat × Nat) × List (Nat × Nat) :=
  (weightSpans n.weights ++ (match n.peat with | some p => [p.overflow k, p.slots] | none => []),
   match n.stat with | some p => [p.tables k] | none => [])

/-- The sections of a job in force. -/
def Job.sections (j : Job) : Sections :=
  { weights := j.weights, peat := j.peat, stat := j.stat, fabric := j.fabric, resil := j.resil }

/-- Whether an optional span meets one of a list. -/
def meetsAny (x : Nat × Nat) (l : List (Nat × Nat)) : Bool := l.any (spansMeet x)

/-- Causes 0x19 to 0x21 of a load (R72, R203, R223, R231, R283, R350, R384, R413, R535), in order. -/
def Work.sectionCause (w : Work) (l : LoadReq) : Nat :=
  let old := w.job l.q l.job
  let o := ownSections l.hdr
  let n := o.join old
  let k := (w.slicesOf l.q).length
  let bufs := weightSpans n.weights
  let ov := (n.peat.map fun p => p.overflow k).getD (0, 0)
  let rec_ := (n.peat.map PeatSec.slots).getD (0, 0)
  let tab := (n.stat.map fun p => p.tables k).getD (0, 0)
  let others := ((w.jobsOf l.q).filter fun j => decide (j ≠ l.job)).any fun j =>
    match w.job l.q j with | some x => !x.weights.isEmpty || x.peat.isSome | none => false
  let adds := !o.weights.isEmpty || o.peat.isSome || o.stat.isSome
  let far := fun (s : Sec) (fields : List Nat) => (secEntries l.hdr s).any fun e => fields.any (farField e)
  let spans := (n.spans k) :: (((w.jobsOf l.q).filter fun j => decide (j ≠ l.job)).filterMap fun j =>
    (w.job l.q j).map fun x => x.sections.spans k)
  let near := spans.flatMap fun x => x.1 ++ x.2
  let mapped := fun (x : Nat × Nat) => w.pagesMapped l.q x.1 x.2 none
  let oldP := old.bind Job.peat
  let oldS := old.bind Job.stat
  let oldF := old.bind Job.fabric
  let oldR := old.bind Job.resil
  firstCause [
    (w.splitCause l, 0x18),
    (((!o.weights.isEmpty || o.peat.isSome) && others) || decide (256 < n.weights.length) || far .weights [8, 16] ||
      !bufs.all mapped || anyMeet bufs, 0x19),
    (far .peat [0, 16] || (adds && n.peat.isSome && (meetsAny ov bufs || meetsAny rec_ bufs)) ||
      (match o.peat with
      | none => false
      | some p =>
        decide (p.spillBase.toNat % pageBytes ≠ 0) || decide (8192 < p.pages) || decide (p.ceiling = 0) || decide (p.fetchAhead = 0) ||
          decide (1536 < p.fetchAhead) || decide (p.recordBase.toNat % 131072 ≠ 0) || differs oldP (some p) || !inSpace ov ||
          !mapped rec_), 0x1A),
    (far .stats [0] || (adds && (spans.flatMap (·.2)).any fun t => meetsAny t (spans.flatMap (·.1))) ||
      (match o.stat with
      | none => false
      | some p => differs oldS (some p) || !inSpace tab), 0x1B),
    ((match old with | some j => decide (j.seed ≠ l.seed) | none => false), 0x1C),
    ((match o.fabric, secOne l.hdr .fabric with
      | some p, some e =>
        far .fabric [0, 16] || decide (leAt l.hdr 4 4 < leAt e 24 4 + 2 * leAt e 28 4) || !risingList p.members || !p.members.contains w.time.address ||
          differs oldF (some p) || !inSpace (p.retention k) || !inSpace p.flows ||
          meetsAny (p.retention k) near || meetsAny p.flows near
      | _, _ => false), 0x1D),
    ((l.ctxs.any fun e => !w.pagesMapped l.q (declOf e).imageBase.toNat (declOf e).imageSize (some (declOf e).domain)) ||
      (match o.stat with | some p => !w.pagesMapped l.q tab.1 tab.2 (some p.domain) | none => false) ||
      (match o.fabric with
       | some p => !w.pagesMapped l.q (p.retention k).1 (p.retention k).2 (some p.retainDomain) ||
           !w.pagesMapped l.q p.flows.1 p.flows.2 (some p.retainDomain)
       | none => false) ||
      (o.peat.isSome && !mapped ov), 0x1E),
    (decide (64 ≤ (w.part l.q).progEntries.length), 0x1F),
    (far .resil [8, 16] || (match o.resil with
      | none => false
      | some p =>
        decide (20 < p.codeK + p.codeM) || decide (p.shardBytes ≠ (n.weights.map (·.bytes)).sum) ||
          !mapped (p.codeBase.toNat, 64 * p.codeCount) || (decide (p.ownerKey ≠ 0) && !mapped (p.ownerKey.toNat, 1568)) ||
          differs oldR (some p)), 0x20)]

/-- A scale record (R535): tensor, its entry without blocks, and where its initial exponents are. -/
def scaleRecOf (job : BitVec 16) (program : BitVec 32) (e : List Byte) : BitVec 20 × ScaleEntry × (Byte ⊕ Nat) :=
  let a := leAt e 0 4
  (BitVec.ofNat 20 a,
   { fmt := BitVec.ofNat 2 (bitsOf a 20 2), blockCount := leAt e 4 4, pinned := decide (bitsOf a 22 1 = 1), rows := leAt e 8 4
     cols := leAt e 12 4, stateBase := 0, job, programs := [program], pendingPin := none, blocks := [] },
   if bitsOf a 23 1 = 1 then .inl (BitVec.ofNat 8 (bitsOf a 24 8)) else .inr (leAt e 16 8))

/-- The scale records of a request. -/
def LoadReq.scales (l : LoadReq) : List (BitVec 20 × ScaleEntry × (Byte ⊕ Nat)) :=
  (secEntries l.hdr .scale).map (scaleRecOf l.job l.program)

/-- The last causes (R54, R72, R535): 0x07 for exponents that are not mapped, 0x21 for an entry that differs. -/
def Work.scaleCause (w : Work) (l : LoadReq) : Nat :=
  firstCause [
    (l.scales.any fun x => match x.2.2 with
      | .inr a => !w.pagesMapped l.q a x.2.1.blockCount none
      | .inl _ => false, 0x07),
    (l.scales.any fun x => match w.entry l.q x.1 with
      | some y => decide (¬(y.job = l.job ∧ y.fmt = x.2.1.fmt ∧ y.blockCount = x.2.1.blockCount ∧ y.rows = x.2.1.rows ∧ y.cols = x.2.1.cols))
      | none => false, 0x21)]

/-- The refusal of a load after R458, 0 for none. -/
def Work.loadCause (w : Work) (l : LoadReq) : Nat :=
  if w.ctxCause l ≠ 0 then w.ctxCause l else if w.sectionCause l ≠ 0 then w.sectionCause l else w.scaleCause l

/-- A place for an entry's block states in a slice of the partition: a free value within the limits of R55. -/
def Work.newStateBase (w : Work) (q : Fin 8) : BitVec 48 × Work :=
  let (v, w1) := w.draw
  let sl := w.slicesOf q
  (BitVec.ofNat 48 (sl.getD (bitsOf v.toNat 32 8 % sl.length) 0 * 2 ^ 36 + bitsOf v.toNat 0 26 * 512), w1)

/-- Initial block states (R535). -/
def initialBlocks (es : List Byte) : Tbl BlockSt := Tbl.ofListFrom .zero 0 (es.map fun e => ⟨e, e, 0, false, false, false⟩)

/-- A scale record takes effect (R54, R535). A block whose initial exponents cannot be read, though they are mapped, starts with
exponent 0, and the load goes on (DESIGN CHOICE, log entry 107). -/
def Work.declareScale (w : Work) (l : LoadReq) (x : BitVec 20 × ScaleEntry × (Byte ⊕ Nat)) : Work :=
  match w.entry l.q x.1 with
  | some y => w.setEntry l.q x.1 (some { y with programs := (l.program :: y.programs).dedup })
  | none =>
    let es := match x.2.2 with
      | .inl b => List.replicate x.2.1.blockCount b
      | .inr a => (w.hbmRead l.q a x.2.1.blockCount .ok).1.bytes
    let (sb, w1) := w.newStateBase l.q
    w1.setEntry l.q x.1 (some { x.2.1 with stateBase := sb, blocks := initialBlocks es })

/-- A sluice declaration takes effect (R95, R97, R458). -/
def Work.declareSluice (w : Work) (owner : Nat) (e : List Byte) : Work :=
  w.updSluice (bitsOf (leAt e 0 2) 0 14) fun s =>
    { s with fabric := decide (bitsOf (leAt e 0 2) 15 1 = 1), home := BitVec.ofNat 16 (leAt e 2 2)
             owners := (owner :: s.owners).dedup, rearms := 0, discards := 0 }

/-- Registers that a declaration names, cleared (R73, R75). -/
def Core.clearDeclared (k : Core) (d : CtxDecl) : Core :=
  { k with
    vregs := (k.vregs.filter fun e => !d.vMask.getLsbD e.1)
    accs := (k.accs.filter fun e => !d.aMask.getLsbD e.1)
    tiles := (k.tiles.filter fun e => !d.tMask.getLsbD e.1) }

/-- A context is LOADED (R71, R73). -/
def Work.loadCtx (w : Work) (l : LoadReq) (sf i : Nat) (e : List Byte) : Work :=
  let c := placeCtx e
  let d := declOf e
  let k : Ctx := { Ctx.empty with
    st := .loaded, decl := d, pc := d.entryPc, part := l.q, job := l.job, program := l.program, startFrame := sf, segment := sf
    slack := slackOf e, seqMode := decide (leAt l.hdr 10 1 = 1), ahead := aheadOf l.hdr i }
  let w1 := (w.updCore c fun x => x.clearDeclared d).updCtx c fun _ => k
  let s1 := w1.loadS1 c
  w1.updCtx c fun k => ((k.setS 1 s1).setS 2 (BitVec.ofNat 64 sf)).setS 3 d.arg

/-- Context entries in order. -/
def Work.loadCtxs (w : Work) (l : LoadReq) (sf : Nat) : Nat → List (List Byte) → Work
  | _, [] => w
  | i, e :: es => Work.loadCtxs (w.loadCtx l sf i e) l sf (i + 1) es

/-- The generator key of a job (R223). -/
def jobKey (seed : List Byte) (job : BitVec 16) : Word := BitVec.ofNat 64 (leNat (shake256 (seed ++ leBytes 2 job.toNat) 8))

/-- The first load of a job (R188, R223, R283). -/
def Work.firstJob (w : Work) (l : LoadReq) (start : Word) : Work :=
  let fabric := (w.jobsOf l.q).any fun j => (match w.job l.q j with | some x => x.fabric.isSome | none => false)
  let w1 : Work := if fabric then w else { w with fab := { w.fab with
    send := w.fab.send.filter fun e => decide (e.1.q ≠ l.q), recv := w.fab.recv.filter fun e => decide (e.1.q ≠ l.q)
    loop := w.fab.loop.filter fun e => decide (e.1 ≠ l.q), memberAcks := w.fab.memberAcks.filter fun e => decide (e.1.q ≠ l.q) } }
  (w1.updCommit l.q l.job fun _ => .zero).setJob l.q l.job (some
    { q := l.q, seed := l.seed, key := jobKey l.seed l.job, start := start, step := start, buf := false, peat := none, weights := []
      stat := none, fabric := none, resil := none, plan := none })

/-- The overflow region's registers of the partition's slices, and its pages marked (R190, R215, R344). -/
def Work.setOverflow (w : Work) (q : Fin 8) (p : PeatSec) : Work :=
  let sl := w.slicesOf q
  let w1 := (sl.zipIdx).foldl (fun (w : Work) (e : Nat × Nat) => w.updPeat e.1 fun x =>
    { x with spillPages := BitVec.ofNat 14 p.pages, spillBase := BitVec.ofNat 27 (p.spillBase.toNat / pageBytes + e.2 * p.pages)
             spillDomain := p.domain, ceiling := p.ceiling, fetchAhead := p.fetchAhead }) w
  let ov := p.overflow sl.length
  w1.updPart q fun x => { x with pages := (pagesOf ov.1 ov.2).foldl (fun t g => t.upd none g fun e => e.map fun (y : PageEnt) => { y with peat := true }) x.pages }

/-- A program's digest (R383). -/
def Work.programDigest (w : Work) (l : LoadReq) : List Byte :=
  shake256 (l.hdr ++ (l.ctxs.flatMap fun e =>
    (w.hbmRead l.q (declOf e).imageBase.toNat (declOf e).imageSize .ok).1.bytes)) 32

/-- HISTORY as its 32 bytes; zero when the partition is built (R383). -/
def Part.historyBytes (p : Part) : List Byte := bytesAt p.history 0 32

/-- The slices of a request, as a mask. -/
def LoadReq.sliceMask (l : LoadReq) : Byte := l.ctxs.foldl (fun m e => m ||| BitVec.ofNat 8 (2 ^ placeSlice e)) 0

/-- A load whose checks have passed (R73, R188, R383, R384, R456). -/
def Work.doLoad (w : Work) (r : CmdRef) (l : LoadReq) (start : Word) (sf0 : Nat) : Work :=
  let sf := if sf0 ≤ w.frame then w.frame + 1 else sf0
  let dg := w.programDigest l
  let groups := w.groupsOf l
  let n := (ownSections l.hdr).join (w.job l.q l.job)
  let w1 := if (w.job l.q l.job).isSome then w else w.firstJob l start
  let w2 := w1.updJob l.q l.job fun j =>
    { j with weights := n.weights, peat := n.peat, stat := n.stat, fabric := n.fabric, resil := n.resil }
  let w3 := match (secOne l.hdr .peat).map peatOf with | some p => w2.setOverflow l.q p | none => w2
  let w4 := l.scales.foldl (fun w x => w.declareScale l x) w3
  let w5 := (secEntries l.hdr .sluice).foldl (fun w e => w.declareSluice (partKey l.q 32 l.program.toNat) e) w4
  let w6 := w5.loadCtxs l sf 0 l.ctxs
  let prog : Program :=
    { q := l.q, job := l.job, ctxs := l.ctxs.map placeCtx
      sluices := (secEntries l.hdr .sluice).map fun e => BitVec.ofNat 14 (leAt e 0 2)
      tensors := l.scales.map (·.1), digest := dg, load := some r, failed := none }
  let w7 : Work := { w6.setProg l.q l.program (some prog) with groups := w6.groups ++ groups }
  let w8 := w7.updPart l.q fun p =>
    { p with history := shake256 (p.historyBytes ++ (1 : Byte) :: dg) 32, progEntries := p.progEntries ++ [⟨dg, l.job, l.sliceMask⟩] }
  w8.markCmd r .effect

/-- LOAD (R456): the header is read, checked and loaded. -/
def Work.runLoad (w : Work) (r : CmdRef) (q : Fin 8) (e : BitVec 512) : Work :=
  let a := cmdArg e 16 8
  let name : BitVec 32 := BitVec.ofNat 32 (cmdArg e 56 4)
  if !(w.part q).usable then w.finish r 0x105 0
  else if (w.prog q name).isSome then w.finish r 0x109 0
  else if !w.mapped q a 64 then w.finish r 0x107 0
  else
    let (g, w1) := w.hbmRead q a 64 .ok
    if g.code ≠ 0 then w1.finish r (0x200 + g.code.toNat) 0
    else if !headerStart g.bytes then w1.finish r 0x10A 0
    else
      let n := leAt g.bytes 4 4
      if !w1.mapped q a n then w1.finish r 0x107 0
      else
        let (h, w2) := w1.hbmRead q a n .ok
        if h.code ≠ 0 then w2.finish r (0x200 + h.code.toNat) 0
        else if !headerOk h.bytes (w2.part q).dyke.slices then w2.finish r 0x10A 0
        else
          let l : LoadReq := ⟨q, cmdJob e, name, h.bytes, leBytes 16 (cmdArg e 24 16)⟩
          let c := w2.loadCause l
          if c ≠ 0 then w2.finish r (0x100 + c) 0
          else w2.doLoad r l (BitVec.ofNat 64 (cmdArg e 40 8)) (cmdArg e 48 8)

/-- LOAD (R456). -/
def execLoad (r : CmdRef) (s : State) : Host.Outcome State Fault Refusal :=
  .next (s.onW fun w =>
    match w.startCmd r 0x20 with
    | some e => (match w.cmdTarget r e with | some q => w.runLoad r q e | none => w.finish r 0x105 0)
    | none => w)

end Sys2Proof.Machine
end

