-- ==== Sys2Proof/Machine/Programs.lean ====
section
/-! DEFINITION. Unloading, resuming, plans, and the host's writes, reads and rebuilds of partition memory (R75, R91, R200,
R205, R209-R212, R215, R384, R422, R455, R456, R467). -/

namespace Sys2Proof.Machine

/-- A command that has started and goes on, or that starts (R451): a command that waits is issued again. -/
def Work.goOn (w : Work) (r : CmdRef) (opcode : Nat) : Option (BitVec 512) :=
  match w.startCmd r opcode with
  | some e => some e
  | none => (w.cmd r).bind fun e => if e.st = .started ∧ cmdOpcode e.entry = opcode then some e.entry else none

/-- A command of a partition that exists runs; else it is refused with 0x0105 (R454). -/
def Work.withPart (w : Work) (r : CmdRef) (e : BitVec 512) (f : Fin 8 → Work) : Work :=
  match w.cmdTarget r e with
  | some q => if (w.part q).usable then f q else w.finish r 0x105 0
  | none => w.finish r 0x105 0

/-- A context of a program as it still stands. -/
def Work.holdsProgram (w : Work) (q : Fin 8) (n : BitVec 32) (c : CtxId) : Bool :=
  let k := w.ctx c
  decide (k.part = q ∧ k.program = n) && !(k.st = .empty || k.st = .absent)

/-- A context that an UNLOAD finds running, waiting or paused dispatches no more; what has not started is discarded (R75). While it
drains it shows RUNNING, whatever it showed before (DESIGN CHOICE, log entry 105). -/
def Work.stopCtx (w : Work) (c : CtxId) : Nat × Work :=
  let k := w.ctx c
  if k.st = .running ∨ k.st = .waiting ∨ k.st = .paused then
    (k.infl.countP fun x => !x.begun,
     (w.updCtx c fun k => { k.noteEnd w.time with st := .running, hold := .tick, version := none, restart := false, draining := true
                                                  infl := k.infl.filter InFlight.begun }).cancelAhead c)
  else (0, w)

/-- A list of contexts stopped, and how many instructions were discarded. -/
def Work.stopCtxs (w : Work) : List CtxId → Nat × Work
  | [] => (0, w)
  | c :: cs =>
    let (n, w1) := w.stopCtx c
    let (m, w2) := Work.stopCtxs w1 cs
    (n + m, w2)

/-- A context without its program (R75, R105, R106): EMPTY, with the counters and the fault record that only a load clears. -/
def Ctx.cleared (k : Ctx) : Ctx := { Ctx.empty with overruns := k.overruns, maxLateness := k.maxLateness, fault := k.fault }

/-- A context cleared (R75): its declared registers, scalars and flags; EMPTY. -/
def Work.clearCtx (w : Work) (c : CtxId) : Work :=
  let d := (w.ctx c).decl
  let w1 := ((((w.updCore c fun k => k.clearDeclared d).updCtx c Ctx.cleared).dropOrphans c).disown c).cancelAhead c
  ((w1.combineUses.filter fun u => decide (u.ctx = c)).foldl (fun w u => w.useFailed u) w1).sweepUses

/-- A program no longer declares a tensor: the entry goes with its last program (R54). -/
def ScaleEntry.undeclare (e : ScaleEntry) (n : BitVec 32) : Option ScaleEntry :=
  let l := e.programs.filter fun x => decide (x ≠ n)
  if l.isEmpty then none else some { e with programs := l }

/-- The scale table without a program (R54). -/
def Work.dropTensors (w : Work) (q : Fin 8) (n : BitVec 32) : Work :=
  (w.scale.filter fun e => decide (e.1 / 2 ^ 20 = q.val)).foldl (fun w x =>
    match x.2 with
    | some e => if e.programs.contains n then w.setEntry q (BitVec.ofNat 20 x.1) (e.undeclare n) else w
    | none => w) w

/-- The split-K groups of a program, with the inputs given to them, removed (R170). -/
def Work.dropGroups (w : Work) (q : Fin 8) (n : BitVec 32) : Work :=
  let mine := fun (g : Group) => decide (g.q = q ∧ g.program = n)
  let ts := (w.groups.filter mine).map fun (g : Group) => g.tensor
  { w with groups := w.groups.filter fun g => !mine g
           combineIns := w.combineIns.filter fun i => !(decide (i.q = q) && ts.contains i.tensor)
           combineCounts := w.combineCounts.filter fun i => !(decide (i.q = q) && ts.contains i.tensor)
           failedUses := w.failedUses.filter fun i => !(decide (i.q = q) && ts.contains i.tensor) }

/-- The overflow region given back (R215, R344). -/
def Work.clearOverflow (w : Work) (q : Fin 8) : Work :=
  let w1 := (w.slicesOf q).foldl (fun (w : Work) n => w.updPeat n fun x =>
    { x with spillPages := 0, spillBase := 0, spillDomain := 0, ceiling := 0, fetchAhead := 0 }) w
  w1.updPart q fun x => { x with pages := x.pages.map fun e => (e.1, e.2.map fun (y : PageEnt) => { y with peat := false }) }

/-- A job ends with its last program on the device (R200, R215, R313, R384; that its state ends then is DEDUCED, log entry 46). Its statistics
records on chip stay, and a later job of its number adds to them (R232 is silent: DESIGN CHOICE, log entry 139). -/
def Work.endJob (w : Work) (q : Fin 8) (job : BitVec 16) : Work :=
  match w.job q job with
  | none => w
  | some j =>
    let w1 := if j.peat.isSome then (w.emptyPeats q).clearOverflow q else w
    let w2 := w1.redRelease job fun b => b.q == q
    let w3 := w2.updPart q fun p => { p with pkgEntries := p.pkgEntries.filter fun e => decide (e.job ≠ job) }
    let w4 := match j.plan with | some p => w3.finish p.2.2 0x360 0 | none => w3
    let w5 := [0, 1, 2, 3].foldl (fun (w : Work) i =>
      let s := w.rebuildSlot i
      if s.q = q ∧ s.job = job ∧ (s.st = 1 ∨ s.st = 2) then w.endRebuild i 4 0x360 0 else w) w4
    (w5.updCommit q job fun _ => .zero).setJob q job none

/-- A program is gone once its contexts have drained (R54, R75, R97, R170, R384). -/
def Work.endProgram (w : Work) (q : Fin 8) (n : BitVec 32) (p : Program) : Work :=
  let w1 := (p.ctxs.filter fun c => w.holdsProgram q n c).foldl (fun w c => w.clearCtx c) w
  let owner := partKey q 32 n.toNat
  let w2 := p.sluices.foldl (fun (w : Work) i => w.updSluice i.toNat fun s =>
    { s with owners := s.owners.filter fun x => decide (x ≠ owner) }) w1
  let w3 := ((w2.dropTensors q n).dropGroups q n).setProg q n none
  let ent := w3.updPart q fun x =>
    { x with progEntries := x.progEntries.eraseIdx (x.progEntries.findIdx fun e => decide (e.digest = p.digest ∧ e.job = p.job)) }
  let more := ent.progs.any fun e => decide (e.1 / 2 ^ 32 = q.val) &&
    (match e.2 with | some x => decide (x.job = p.job) | none => false)
  if more then ent else ent.endJob q p.job

/-- The first part of an UNLOAD (R75, R456): the outstanding LOAD ends with 0x0360, the contexts stop, and the log says how many
instructions were discarded (the event's code is DESIGN CHOICE, log entry 15). -/
def Work.stopProgram (w : Work) (q : Fin 8) (n : BitVec 32) (p : Program) : Work :=
  let w1 := match p.load with
    | some r => (w.setProg q n (some { p with load := none })).finish r 0x360 0
    | none => w
  let (k, w2) := w1.stopCtxs (p.ctxs.filter fun c => w1.holdsProgram q n c)
  w2.logEv (unitId 3 0 0x11) 0x01FF 0 (partByte q) (n.toNat + k * 2 ^ 32)

/-- Whether the contexts of a program have drained (R75, R410): a fault on the way stops a context, and what it has started in its
other queues still runs to completion. -/
def Work.drained (w : Work) (q : Fin 8) (n : BitVec 32) (p : Program) : Bool :=
  p.ctxs.all fun c => !w.holdsProgram q n c || !(w.ctx c).draining || (w.ctx c).infl.isEmpty

/-- A program that an UNLOAD has stopped already drains (R467). -/
def Work.draining (w : Work) (q : Fin 8) (n : BitVec 32) (p : Program) : Bool :=
  p.ctxs.any fun c => w.holdsProgram q n c && (w.ctx c).draining

/-- UNLOAD (R75, R467): the first one stops the program; it completes when the drain has ended, and with it a second one, which has no
effect. -/
def Work.runUnload (w : Work) (r : CmdRef) (q : Fin 8) (n : BitVec 32) (first : Bool) : Work :=
  match w.prog q n with
  | none => w.finish r 0 0
  | some p =>
    let w1 := if first then (if w.draining q n p then w else w.stopProgram q n p).markCmd r .started
              else (w.stopCtxs (p.ctxs.filter fun c => w.holdsProgram q n c && !(w.ctx c).draining)).2
    if w1.drained q n p then (w1.endProgram q n p).finish r 0 0 else w1

/-- UNLOAD (R455). -/
def execUnload (r : CmdRef) (s : State) : Host.Outcome State Fault Refusal :=
  .next (s.onW fun w =>
    match w.goOn r 0x21 with
    | some e => w.withPart r e fun q => w.runUnload r q (BitVec.ofNat 32 (cmdArg e 16 4)) (w.startCmd r 0x21).isSome
    | none => w)

/-- RESUME (R91, R467): at the next tick, or at once if nothing is paused. A second one waits for the first (DESIGN CHOICE, log
entry 47). -/
def execResume (r : CmdRef) (s : State) : Host.Outcome State Fault Refusal :=
  .next (s.onW fun w =>
    match w.startCmd r 0x22 with
    | none => w
    | some e => w.withPart r e fun q =>
      let p := w.part q
      if !p.paused then w.finish r 0 0
      else if p.resumePending.isSome then w
      else (w.markCmd r .started).updPart q fun p => { p with resumePending := some (some r), resumeFrom := w.frame })

/-- A segment of a job's current step has started (R189, R210). -/
def Work.stepBegun (w : Work) (q : Fin 8) (job : BitVec 16) (step : Word) : Bool :=
  (w.ctxsOf q job).any fun c => decide ((w.ctx c).st ≠ .loaded) && decide ((w.ctx c).latStep = step.toNat)

/-- A plan's records are written, and its command completes (R210, R212). -/
def Work.writePlan (w : Work) (r : CmdRef) (q : Fin 8) (p : PeatSec) (b : List Byte) : Work :=
  let (c, w1) := w.hbmWrite q (slotAddr p (leAt b 0 8)) (planSlot p.ceiling b) .ok
  if c = 0 then w1.finish r 0 0 else w1.finish r (0x200 + c.toNat) 0

/-- A plan that has been read (R210): refused, written, or kept until the previous buffer's count is zero. -/
def Work.takePlan (w : Work) (r : CmdRef) (q : Fin 8) (job : BitVec 16) (j : Job) (p : PeatSec) (b : List Byte) : Work :=
  let step : Word := BitVec.ofNat 64 (leAt b 0 8)
  let now := decide (step = j.step) && !w.stepBegun q job j.step
  if !now && decide (step ≠ j.step + 1) then w.finish r 0x130 0
  else match planRefusal p.ceiling b with
    | some c => w.finish r (0x100 + c) 0
    | none =>
      if now || decide (w.refs q job (!j.buf) = 0) then w.writePlan r q p b
      else if j.plan.isSome then w
      else (w.markCmd r .started).updJob q job fun j => { j with plan := some (step, b, r) }

/-- PLAN (R209, R210, R455). -/
def Work.runPlan (w : Work) (r : CmdRef) (q : Fin 8) (e : BitVec 512) : Work :=
  let job := cmdJob e
  match w.job q job with
  | none => w.finish r 0x130 0
  | some j =>
    match j.peat with
    | none => w.finish r 0x130 0
    | some p =>
      let n := cmdArg e 24 4
      if !w.mapped q (cmdArg e 16 8) n then w.finish r 0x107 0
      else
        let (g, w1) := w.hbmRead q (cmdArg e 16 8) n .ok
        if g.code ≠ 0 then w1.finish r (0x200 + g.code.toNat) 0 else w1.takePlan r q job j p g.bytes

/-- PLAN (R455). -/
def execPlan (r : CmdRef) (s : State) : Host.Outcome State Fault Refusal :=
  .next (s.onW fun w =>
    match w.startCmd r 0x23 with
    | some e => w.withPart r e fun q => w.runPlan r q e
    | none => w)

/-- A plan that waits is written when the previous buffer's count is zero, or its step has begun (R210, R212). -/
def Work.writeWaitingPlan (w : Work) (q : Fin 8) (job : BitVec 16) : Work :=
  match w.job q job with
  | none => w
  | some j =>
    match j.plan, j.peat with
    | some (step, b, r), some p =>
      if step ≠ j.step + 1 ∨ w.refs q job (!j.buf) = 0 then (w.updJob q job fun j => { j with plan := none }).writePlan r q p b else w
    | _, _ => w

/-- PLAN_DEFERRED_WRITE (R210). -/
def execPlanDeferredWrite (q : Fin 8) (s : State) : Host.Outcome State Fault Refusal :=
  .next (s.onW fun w => (w.jobsOf q).foldl (fun w j => w.writeWaitingPlan q j) w)

/-- The range of a WRITE or READ is 64-byte aligned (R112, R455). -/
def copyAligned (e : BitVec 512) : Bool := decide (cmdArg e 24 8 % 64 = 0 ∧ cmdArg e 32 8 % 64 = 0)

/-- WRITE (R205, R454, R455): the bytes of host memory are written to the partition. -/
def Work.runWrite (w : Work) (r : CmdRef) (q : Fin 8) (e : BitVec 512) (h : HostData) (ev : MemEvent) : Work :=
  let a := cmdArg e 24 8
  let n := cmdArg e 32 8
  if !copyAligned e then w.finish r 0x102 0
  else if !w.mapped q a n then w.finish r 0x107 0
  else if w.writeRole q a n = .current then w.finish r 0x268 0
  else if w.mustHold q a n then w.markCmd r .started
  else if !h.ok || decide (h.bytes.length < n) then w.finish r 0x240 0
  else
    let (c, w1) := w.hbmWrite q a (h.bytes.take n) ev
    if c = 0 then w1.finish r 0 n else w1.finish r (0x200 + c.toNat) 0

/-- HOST_WRITE (R455): a WRITE to a previous buffer that is in use waits (R205). -/
def execHostWrite (r : CmdRef) (host : HostData) (ev : MemEvent) (s : State) : Host.Outcome State Fault Refusal :=
  .next (s.onW fun w =>
    match w.goOn r 0x10 with
    | some e => w.withPart r e fun q => w.runWrite r q e host ev
    | none => w)

/-- READ (R454, R455): bytes of the partition are written to host memory. -/
def Work.runRead (w : Work) (r : CmdRef) (q : Fin 8) (e : BitVec 512) (hostOk : Bool) (ev : MemEvent) : Work :=
  let a := cmdArg e 24 8
  let n := cmdArg e 32 8
  if !copyAligned e then w.finish r 0x102 0
  else if !w.mapped q a n then w.finish r 0x107 0
  else
    let (g, w1) := w.hbmRead q a n ev
    if g.code ≠ 0 then w1.finish r (0x200 + g.code.toNat) 0
    else if !hostOk then w1.finish r 0x240 0
    else (w1.emit (.hostWrite r.fn (BitVec.ofNat 64 (cmdArg e 16 8)) g.bytes)).finish r 0 n

/-- HOST_READ (R455). -/
def execHostRead (r : CmdRef) (hostOk : Bool) (ev : MemEvent) (s : State) : Host.Outcome State Fault Refusal :=
  .next (s.onW fun w =>
    match w.startCmd r 0x11 with
    | some e => w.withPart r e fun q => w.runRead r q e hostOk ev
    | none => w)

/-- REBUILD (R422, R423, R455). -/
def execRebuild (r : CmdRef) (s : State) : Host.Outcome State Fault Refusal :=
  .next (s.onW fun w =>
    match w.startCmd r 0x42 with
    | some e => w.withPart r e fun q => w.startRebuild q r e
    | none => w)

end Sys2Proof.Machine
end

