-- ==== Sys2Proof/Machine/Pages.lean ====
section
/-! DEFINITION. The page and domain commands, and the rekey engine (R342, R344-R348, R356-R360, R455). -/

namespace Sys2Proof.Machine

/-- A partition has a loaded program (R346). -/
def Work.hasProgram (w : Work) (q : Fin 8) : Bool := w.progs.any fun e => decide (e.1 / 2 ^ 32 = q.val)

/-- A physical page that a partition may map (R342, R347): in one of its slices and below the metadata. -/
def Work.mappable (w : Work) (q : Fin 8) (pp : Nat) : Bool :=
  let n := pp / 32768
  decide (n < 8) && (w.part q).dyke.slices.getLsbD n && decide (pp % 32768 < 731 * w.channels n)

/-- Another entry of the partition maps a physical page (R342). -/
def Work.mappedElsewhere (w : Work) (q : Fin 8) (g pp : Nat) : Bool :=
  (w.part q).pages.any fun e => decide (e.1 ≠ g) && (match e.2 with | some x => decide (x.ppage.toNat = pp) | none => false)

/-- A page lies in an overflow region of a job of the partition (R190, R344). -/
def Work.inOverflow (w : Work) (q : Fin 8) (g : Nat) : Bool :=
  (w.jobsOf q).any fun j =>
    match (w.job q j).bind Job.peat with
    | some p =>
      let ov := p.overflow (w.slicesOf q).length
      decide (ov.1 ≤ g * pageBytes ∧ g * pageBytes < ov.1 + ov.2)
    | none => false

/-- The refusal of a PAGE command (R342, R455), 0 for none. -/
def Work.pageCause (w : Work) (r : CmdRef) (q : Fin 8) (e : BitVec 512) : Nat :=
  let g := cmdArg e 16 8
  let pp := cmdArg e 24 8
  let n := cmdArg e 32 4
  let d := cmdArg e 36 1
  let op := cmdArg e 37 1
  if 1 < op ∨ 63 < d ∨ 2 ^ 27 < g + n then 0x02
  else if r.fn.fn = 0 ∧ w.hasProgram q = true then 0x45
  else if op = 1 then 0
  else if (List.range n).any (fun i => !w.mappable q (pp + i) || w.mappedElsewhere q (g + i) (pp + i)) then 0x44
  else if (w.dom q d).enabled then 0 else 0x45

/-- PAGE is accepted (R346): its entries wait for the requests translated before them. -/
def Work.runPage (w : Work) (r : CmdRef) (q : Fin 8) (e : BitVec 512) : Work :=
  let c := w.pageCause r q e
  let n := cmdArg e 32 4
  if c ≠ 0 then w.finish r (0x100 + c) 0
  else if n = 0 then w.finish r 0 0
  else
    let chg := (List.range n).map fun i =>
      let g := cmdArg e 16 8 + i
      ({ page := g, cmd := some r
         entry := if cmdArg e 37 1 = 1 then none
           else some ⟨w.inOverflow q g, BitVec.ofNat 6 (cmdArg e 36 1), BitVec.ofNat 18 (cmdArg e 24 8 + i)⟩ } : PageChange)
    (w.markCmd r .started).updPart q fun p => { p with pageChanges := chg }

/-- The refusal of PAGE and DOMAIN during a protection reboot and in bring-up mode (R342). -/
def State.refusesMaps (s : State) (r : CmdRef) (op : Nat) : Option State :=
  if s.ctl.manBusy then
    match s.w.startCmd r op with
    | some _ => some (s.onW fun w => w.finish r 0x147 0)
    | none => some s
  else none

/-- PAGE (R342, R455). The PAGE commands of a partition follow one another (DESIGN CHOICE, log entry 48). -/
def execPage (r : CmdRef) (s : State) : Host.Outcome State Fault Refusal :=
  .next ((s.refusesMaps r 0x30).getD (s.onW fun w =>
    match w.startCmd r 0x30 with
    | none => w
    | some e => w.withPart r e fun q => if (w.part q).pageChanges.isEmpty then w.runPage r q e else w))

/-- The ranges of partition addresses that a started `dma.get` reads (R131): of its byte form, or of a tile of the tensor whose
descriptor it read. -/
def InFlight.getRanges (x : InFlight) : List (Nat × Nat) :=
  if x.op = .dmaGet ∧ x.stat = .started then
    if modBit x.f 0 then
      let d := TensorDesc.ofBytes x.snap
      [(d.mantAt x.vb.toNat, tileBytes d.fmt), (d.expAt x.vb.toNat, 128)]
    else [(hbmAddr x.va, lenB x.vb)]
  else []

/-- A page meets a range of partition addresses. -/
def pageMeets (g : Nat) (r : Nat × Nat) : Bool := decide (r.1 / pageBytes ≤ g ∧ g * pageBytes < r.1 + r.2)

/-- A request translated under a page's entry has not completed (R346): a write that a controller has not accepted, or a `dma.get` that
has started. -/
def Work.pageBusy (w : Work) (q : Fin 8) (g : Nat) : Bool :=
  (w.writes.any fun x => decide (x.q = q) && x.parts.any fun p => pageMeets g (p.1, p.2.length)) ||
    w.ctxs.any fun e => decide (e.2.part = q) && e.2.infl.any fun x => x.getRanges.any (pageMeets g)

/-- The physical pages that a change makes fresh (R346). -/
def freshened : Option PageEnt → Option PageEnt → List Nat
  | none, none => []
  | none, some y => [y.ppage.toNat]
  | some x, none => [x.ppage.toNat]
  | some x, some y =>
    if x.ppage ≠ y.ppage then [x.ppage.toNat, y.ppage.toNat] else if x.dom ≠ y.dom then [y.ppage.toNat] else []

/-- An entry of the page table changes (R346): pages become fresh, the event is logged, and what was read ahead from the page is
discarded. -/
def Work.changePage (w : Work) (q : Fin 8) (g : Nat) (new : Option PageEnt) : Work :=
  let old := (w.part q).pages.get none g
  if old = new then w
  else
    let w1 := w.updPart q fun p => { p with pages := p.pages.set none g new }
    let w2 := (freshened old new).foldl (fun w k => w.freshPage k) w1
    let keep := w2.readAhead.filter fun r =>
      !(decide (r.q = q) && decide (r.addr < (g + 1) * pageBytes) && decide (g * pageBytes < r.addr + r.bytes))
    ({ w2 with readAhead := keep } : Work).logPage q g old new

/-- The first waiting change of a partition's page table takes effect; the last one of a command completes it (R346, R455). -/
def Work.applyPage (w : Work) (q : Fin 8) : Work :=
  match (w.part q).pageChanges with
  | [] => w
  | c :: rest =>
    if w.pageBusy q c.page then w
    else
      let w1 := (w.changePage q c.page c.entry).updPart q fun p => { p with pageChanges := rest }
      match c.cmd with
      | none => w1
      | some r =>
        if rest.any fun x => decide (x.cmd = some r) then w1
        else w1.finish r 0 (((w1.cmd r).map fun e => cmdArg e.entry 32 4).getD 0)

/-- PAGE_ENTRY_APPLY (R346). -/
def execPageEntryApply (q : Fin 8) (s : State) : Host.Outcome State Fault Refusal := .next (s.onW fun w => (w.applyPage q).wakePorts q)

/-- A page of the partition maps a domain, now or by a change that waits (R348). -/
def Work.domainMapped (w : Work) (q : Fin 8) (d : Nat) : Bool :=
  let is := fun (e : Option PageEnt) => match e with | some x => decide (x.dom.toNat = d) | none => false
  (w.part q).pages.any (fun e => is e.2) || (w.part q).pageChanges.any fun c => is c.entry

/-- Enabled domains of a partition (R348). -/
def Work.domainsOn (w : Work) (q : Fin 8) : Nat := (w.part q).doms.countP fun e => e.2.enabled

/-- DOMAIN (R342, R348, R359, R369). Enabling an enabled domain, and disabling one that is not, change nothing (DESIGN CHOICE, log
entry 49). -/
def Work.runDomain (w : Work) (r : CmdRef) (q : Fin 8) (e : BitVec 512) : Work :=
  let d := cmdArg e 16 1
  let dm := w.dom q d
  if 63 < d then w.finish r 0x102 0
  else match cmdArg e 17 1 with
    | 0 =>
      if dm.enabled then w.finish r 0 0
      else if (w.part q).dyke.domainQuota.toNat ≤ w.domainsOn q then w.finish r 0x146 0
      else
        let (k, w1) := w.drawKey
        (w1.updDom q d fun _ => { Dom.zero with enabled := true, key := k }).finish r 0 0
    | 1 =>
      if w.domainMapped q d then w.finish r 0x146 0
      else (w.updDom q d fun x => { Dom.zero with generation := x.generation }).finish r 0 0
    | 2 =>
      if !dm.enabled then w.finish r 0x102 0
      else if dm.rekeying then w.finish r 0x146 0
      else (w.startRekey q d).finish r 0 0
    | _ => w.finish r 0x102 0

/-- DOMAIN (R455). -/
def execDomain (r : CmdRef) (s : State) : Host.Outcome State Fault Refusal :=
  .next ((s.refusesMaps r 0x31).getD (s.onW fun w =>
    match w.startCmd r 0x31 with
    | some e => w.withPart r e fun q => w.runDomain r q e
    | none => w))

/-- The device physical addresses of a domain's pages in a slice. -/
def Work.domainPages (w : Work) (q : Fin 8) (d n : Nat) : List Nat :=
  (w.part q).pages.filterMap fun e =>
    match e.2 with
    | some x => if x.dom.toNat = d ∧ x.ppage.toNat / 32768 = n then some (x.ppage.toNat * pageBytes) else none
    | none => none

/-- The least of a list. -/
def leastOf : List Nat → Option Nat
  | [] => none
  | x :: l => match leastOf l with | none => some x | some y => some (min x y)

/-- The first block of a domain's pages in a slice at an address or after it (R359). -/
def Work.nextBlock (w : Work) (q : Fin 8) (d n a : Nat) : Option Nat :=
  leastOf ((w.domainPages q d n).filterMap fun p => if a < p + pageBytes then some (max a p) else none)

/-- The rekey engine's operation on one block (R359, R370): read under OLD, verified, written under NEW, and the boundary moves past
it, to the first block that is still under OLD; after the last block of the slice, to its end. Fresh and poisoned blocks are passed
over; a block with LOST set can be cleared from then on (R356). -/
def Work.rekeyBlock (w : Work) (n : Fin 8) (d : Fin 64) (ev : MemEvent) : Work :=
  match w.sliceOwner n.val with
  | none => w
  | some q =>
    let dm := w.dom q d.val
    if !dm.rekeying then w
    else match w.nextBlock q d.val n.val (dm.boundary.get 0 n.val).toNat with
      | none => w
      | some pa =>
        let b := blockOf pa
        let idle := (w.ctrWord b).isFresh || (w.ctrWord b).poison
        let w1 := if idle then w else w.meet q pa d.val ev
        let c := w1.ctrWord b
        let w2 :=
          if idle || c.poison then (if c.lost then { w1 with lostPassed := b :: w1.lostPassed } else w1)
          else if w1.tagGood dm.oldKey b then w1.sealBlock dm.key b { c with count := c.count + 1 } (w1.plainOf dm.oldKey b)
          else (w1.alarm q pa d.val).poison b
        let next := (w2.nextBlock q d.val n.val (pa + 512)).getD (pa + 512)
        w2.updDom q d.val fun x => { x with boundary := x.boundary.set 0 n.val (BitVec.ofNat 48 next) }

/-- REKEY_BLOCK (R359). -/
def execRekeyBlock (n : Fin 8) (d : Fin 64) (ev : MemEvent) (s : State) : Host.Outcome State Fault Refusal :=
  .next (s.onW fun w => w.rekeyBlock n d ev)

/-- Every slice of the partition has reached the end of a domain (R359). -/
def Work.rekeyDone (w : Work) (q : Fin 8) (d : Nat) : Bool :=
  (w.slicesOf q).all fun n => (w.nextBlock q d n ((w.dom q d).boundary.get 0 n).toNat).isNone

/-- REKEY_COMPLETE (R358, R359): OLD is erased, and GENERATION increases; a rekey that a loss asked for meanwhile starts. -/
def execRekeyComplete (q : Fin 8) (d : Fin 64) (s : State) : Host.Outcome State Fault Refusal :=
  .next (s.onW fun w =>
    if (w.dom q d.val).rekeying && w.rekeyDone q d.val then
      let w1 := w.updDom q d.val fun x =>
        { x with rekeying := false, oldKey := [], again := false, generation := x.generation + 1, boundary := [] }
      if (w.dom q d.val).again then w1.startRekey q d.val else w1
    else w)

end Sys2Proof.Machine
end

