-- ==== Sys2Proof/Machine/Packages.lean ====
section
/-! DEFINITION. Weight packages, checkpoints and restores (R383, R386-R388, R429-R431, R455). -/

namespace Sys2Proof.Machine

/-- Plaintext bytes of a chunk (R387). -/
def bodyChunk : Nat := 65536
/-- Chunks of a body. -/
def bodyChunks (n : Nat) : Nat := (n + bodyChunk - 1) / bodyChunk
/-- Bytes of a body as carried: each chunk is followed by its tag (R387). -/
def carried (n : Nat) : Nat := n + 16 * bodyChunks n

/-- The wrapping key of an entry (R386). -/
def wrapKey (secret id : List Byte) (i : Nat) : List Byte := shake256 (secret ++ id ++ leBytes 2 i) 32

/-- A wrapped key opened (R386): the IV is zero. -/
def unwrap (key wrapped : List Byte) : Option (List Byte) :=
  gcmOpen key (List.replicate 12 0) [] (bytesAt wrapped 0 32) (bytesAt wrapped 32 16)

/-- The IV of chunk k (R387). -/
def chunkIv (id : List Byte) (k : Nat) : List Byte := id ++ leBytes 4 k

/-- The chunks of a body opened in order (R387): the plaintext up to the first tag that fails, and whether none did. -/
def openChunks (key id aad body : List Byte) (total : Nat) : Nat → Nat → List Byte × Bool
  | 0, _ => ([], true)
  | fuel + 1, k =>
    let at_ := k * (bodyChunk + 16)
    let n := min bodyChunk (total - k * bodyChunk)
    match gcmOpen key (chunkIv id k) aad (bytesAt body at_ n) (bytesAt body (at_ + n) 16) with
    | none => ([], false)
    | some p =>
      let (rest, ok) := openChunks key id aad body total fuel (k + 1)
      (p ++ rest, ok)

/-- The chunks of a body sealed in order (R387, R429). -/
def sealChunks (key id aad plain : List Byte) : Nat → Nat → List Byte
  | 0, _ => []
  | fuel + 1, k =>
    let c := gcmSeal key (chunkIv id k) aad ((plain.drop (k * bodyChunk)).take bodyChunk)
    c.1 ++ c.2 ++ sealChunks key id aad plain fuel (k + 1)

/-- The fields of a package's fixed part (R386). -/
def pkgDevices (b : List Byte) : Nat := leAt b 18 2
/-- BODY_BYTES (R386). -/
def pkgBody (b : List Byte) : Nat := leAt b 24 8
/-- Bytes of a package header (R386). -/
def pkgHeader (b : List Byte) : Nat := 64 + 1680 * pkgDevices b

/-- The entry of a package for a device and a session key (R386). -/
def pkgEntry (h dev ses : List Byte) : Option Nat :=
  (List.range (pkgDevices h)).find? fun i => decide (bytesAt h (64 + 1680 * i) 64 = dev ++ ses)

/-- The weight key of a package for a partition (R386): none where no entry fits, an inner none where WRAPPED fails. -/
def Work.pkgKey (w : Work) (q : Fin 8) (h dev : List Byte) : Option (Option (List Byte)) :=
  let k := (w.part q).sessKey
  (pkgEntry h dev (shake256 (bytesAt (Config.mlkemPublic k) 0 1568) 32)).map fun i =>
    let o := 64 + 1680 * i
    unwrap (wrapKey (Config.mlkemDecap k (bytesAt h (o + 64) 1568)) (bytesAt h 8 8) i) (bytesAt h (o + 1632) 48)

/-- Pages of a partition range made fresh (R346). -/
def Work.freshRange (w : Work) (q : Fin 8) (a n : Nat) : Work :=
  (pagesOf a n).foldl (fun w g =>
    match (w.part q).pages.get none g with
    | some e => w.freshPage e.ppage.toNat
    | none => w) w

/-- The conditions on a package's target (R388), 0 for none. -/
def Work.targetCause (w : Work) (q : Fin 8) (a n d : Nat) : Nat :=
  if !w.pagesMapped q a n (some (BitVec.ofNat 6 d)) || !(w.dom q d).enabled then 0x53
  else if w.writeRole q a n = .current then 0x54
  else if 16 ≤ (w.part q).pkgEntries.length then 0x55 else 0

/-- A package whose checks have passed is decrypted (R387, R388). -/
def Work.unpack (w : Work) (r : CmdRef) (q : Fin 8) (h key body : List Byte) (a d : Nat) : Work :=
  let n := pkgBody h
  let (plain, ok) := openChunks key (bytesAt h 8 8) (bytesAt h 0 64) body n (bodyChunks n) 0
  let (c, w1) := w.hbmWrite q a plain .ok
  if c ≠ 0 then w1.finish r (0x200 + c.toNat) 0
  else if !ok || decide (shake256 body 32 ≠ bytesAt h 32 32) then (w1.freshRange q a plain.length).finish r 0x250 0
  else
    let dg := shake256 h 32
    (w1.updPart q fun p =>
      { p with history := shake256 (p.historyBytes ++ (2 : Byte) :: dg) 32
               pkgEntries := p.pkgEntries ++ [⟨dg, BitVec.ofNat 16 (leAt h 16 2), BitVec.ofNat 8 d⟩] }).finish r 0 n

/-- PACKAGE (R388): the checks in the table's order. A target in a previous buffer that is in use makes it wait (R205). -/
def Work.runPackage (w : Work) (r : CmdRef) (q : Fin 8) (e : BitVec 512) (dev : List Byte) : Work :=
  let a := cmdArg e 16 8
  let t := cmdArg e 24 8
  let d := cmdArg e 32 1
  if a % 64 ≠ 0 ∨ t % 64 ≠ 0 ∨ 63 < d then w.finish r 0x102 0
  else if !w.mapped q a 64 then w.finish r 0x150 0
  else
    let (g, w1) := w.hbmRead q a 64 .ok
    let n := pkgBody g.bytes
    let job : BitVec 16 := BitVec.ofNat 16 (leAt g.bytes 16 2)
    let hn := pkgHeader g.bytes
    if g.code ≠ 0 then w1.finish r (0x200 + g.code.toNat) 0
    else if leAt g.bytes 0 4 ≠ 0x4A325750 ∨ leAt g.bytes 4 2 ≠ 1 ∨ pkgDevices g.bytes < 1 ∨ 16384 < pkgDevices g.bytes ∨
        n = 0 ∨ n % 512 ≠ 0 ∨ (w1.job q job).isNone ∨ w1.mapped q a (hn + carried n) = false then w1.finish r 0x150 0
    else
      let (f, w2) := w1.hbmRead q a (hn + carried n) .ok
      let h := bytesAt f.bytes 0 hn
      if f.code ≠ 0 then w2.finish r (0x200 + f.code.toNat) 0
      else match w2.pkgKey q h dev with
        | none => w2.finish r 0x151 0
        | some none => w2.finish r 0x152 0
        | some (some key) =>
          let c := w2.targetCause q t n d
          if c ≠ 0 then w2.finish r (0x100 + c) 0
          else if w2.mustHold q t n then w2.markCmd r .started
          else w2.unpack r q h key (bytesAt f.bytes hn (carried n)) t d

/-- PACKAGE (R388, R455): one that waits has started, and is issued again. -/
def execPackage (r : CmdRef) (s : State) : Host.Outcome State Fault Refusal :=
  .next (s.onW fun w =>
    match w.goOn r 0x32 with
    | some e => w.withPart r e fun q => w.runPackage r q e (shake256 s.ctl.fuse.identity 32)
    | none => w)

/-- A block state as it stands in memory (R56). -/
def BlockSt.bytes (b : BlockSt) : List Byte :=
  leBytes 4 (b.ePrev.toNat * 2 ^ 24 + b.e.toNat * 2 ^ 16 + b.run.toNat * 16 + b.written.toNat * 4 + b.high.toNat * 2 + b.sat.toNat)

/-- A block state read back (R56). -/
def BlockSt.ofBytes (l : List Byte) : BlockSt :=
  let v := leAt l 0 4
  { ePrev := BitVec.ofNat 8 (v / 2 ^ 24), e := BitVec.ofNat 8 (v / 2 ^ 16), run := BitVec.ofNat 6 (v / 16)
    written := v.testBit 2, high := v.testBit 1, sat := v.testBit 0 }

/-- An entry's header (R55). -/
def ScaleEntry.header (e : ScaleEntry) (t : BitVec 20) : List Byte :=
  leBytes 8 (e.blockCount * 2 ^ 32 + e.pinned.toNat * 2 ^ 23 + 2 ^ 22 + e.fmt.toNat * 2 ^ 20 + t.toNat) ++ leBytes 8 e.stateBase.toNat

/-- A block state as of its last commit (R58, R429): the flags of the running step are not of it. -/
def BlockSt.committed (b : BlockSt) : BlockSt := { b with written := false, high := false, sat := false }

/-- An entry with its block states, as a checkpoint holds it (R429). -/
def ScaleEntry.bytes (e : ScaleEntry) (t : BitVec 20) : List Byte :=
  e.header t ++ (List.range e.blockCount).flatMap fun i => (e.blocks.get .zero i).committed.bytes

/-- The bytes of a list of ranges, read in order; the first code that is not 0 ends it. -/
def Work.readSpans (w : Work) (q : Fin 8) : List (Nat × Nat) → Got × Work
  | [] => (⟨0, []⟩, w)
  | (a, n) :: rest =>
    let (g, w1) := w.hbmRead q a n .ok
    if g.code ≠ 0 then (g, w1)
    else
      let (g2, w2) := Work.readSpans w1 q rest
      (⟨g2.code, g.bytes ++ g2.bytes⟩, w2)

/-- BIND (R429). -/
def bindOf (seed : List Byte) (job : BitVec 16) (step : Word) (pos : List Byte) : List Byte :=
  shake256 (seed ++ leBytes 2 job.toNat ++ leBytes 8 step.toNat ++ pos) 32

/-- Additional data of a checkpoint's chunks (R429): bytes 0 to 127 of the header, with BODY_DIGEST, which is taken over the
sealed chunks, as zero (DESIGN CHOICE, log entry 50). -/
def ckptAad (h : List Byte) : List Byte := bytesAt h 0 96 ++ List.replicate 32 0

/-- The first 96 bytes of a checkpoint's header (R429). -/
def Work.ckptHead (w : Work) (q : Fin 8) (job : BitVec 16) (j : Job) (pos id : List Byte) (n : Nat) : List Byte :=
  leBytes 4 0x4A32434B ++ leBytes 2 1 ++ leBytes 2 job.toNat ++ leBytes 8 j.step.toNat ++ pos ++
    bindOf j.seed job j.step pos ++ id ++ leBytes 8 n ++ leBytes 2 w.time.address.toNat ++ [partByte q] ++ List.replicate 13 0

/-- A checkpoint sealed (R429): header, then body. -/
def Work.sealCkpt (w : Work) (q : Fin 8) (job : BitVec 16) (j : Job) (pos owner body : List Byte) : List Byte × Work :=
  let (idw, w1) := w.draw
  let id := leBytes 8 idw.toNat
  let (key, w2) := w1.drawKey
  let head := w2.ckptHead q job j pos id body.length
  let sealed := sealChunks key id (ckptAad head) body (bodyChunks body.length) 0
  let (ct, ss) := Config.mlkemEncap w2.fresh owner
  let wr := gcmSeal (wrapKey ss id 0) (List.replicate 12 0) [] key
  (head ++ shake256 sealed 32 ++ shake256 owner 32 ++ bytesAt ct 0 1568 ++ bytesAt (wr.1 ++ wr.2) 0 48 ++ sealed,
   { w2 with fresh := w2.fresh + 1 })

/-- CHECKPOINT (R429, R455). Without an owner's key, and where the buffer is too small, it is refused with 0x0102 (DESIGN CHOICE,
log entry 51). -/
def Work.runCheckpoint (w : Work) (r : CmdRef) (q : Fin 8) (e : BitVec 512) (hostOk : Bool) : Work :=
  let job := cmdJob e
  match w.job q job with
  | none => w.finish r 0x106 0
  | some j =>
    let tbl := (w.entriesOf q job).flatMap fun x => x.2.bytes x.1
    let n := (j.weights.map (·.bytes)).sum + tbl.length
    let total := 1776 + carried n
    match j.resil with
    | none => w.finish r 0x102 0
    | some rs =>
      if rs.ownerKey = 0 ∨ cmdArg e 24 8 < total then w.finish r 0x102 0
      else
        let (o, w1) := w.hbmRead q rs.ownerKey.toNat 1568 .ok
        let (g, w2) := w1.readSpans q (j.shardParts j.buf)
        if o.code ≠ 0 then w1.finish r (0x200 + o.code.toNat) 0
        else if g.code ≠ 0 then w2.finish r (0x200 + g.code.toNat) 0
        else if !hostOk then w2.finish r 0x240 0
        else
          let (bs, w3) := w2.sealCkpt q job j (leBytes 16 (cmdArg e 32 16)) o.bytes (g.bytes ++ tbl)
          (w3.emit (.hostWrite r.fn (BitVec.ofNat 64 (cmdArg e 16 8)) bs)).finish r 0 bs.length

/-- CHECKPOINT (R455). -/
def execCheckpoint (r : CmdRef) (hostOk : Bool) (s : State) : Host.Outcome State Fault Refusal :=
  .next (s.onW fun w =>
    match w.startCmd r 0x40 with
    | some e => w.withPart r e fun q => w.runCheckpoint r q e hostOk
    | none => w)

/-- A checkpoint's header is consistent with the job it is restored to (R430). -/
def ckptConsistent (h : List Byte) (job : BitVec 16) (j : Job) (pos : List Byte) : Bool :=
  decide (leAt h 0 4 = 0x4A32434B ∧ leAt h 4 2 = 1 ∧ leAt h 6 2 = job.toNat ∧ leAt h 8 8 = j.start.toNat ∧
    bytesAt h 16 16 = pos ∧ bytesAt h 32 32 = bindOf j.seed job (BitVec.ofNat 64 (leAt h 8 8)) (bytesAt h 16 16))

/-- A scale-table entry takes the block states of a checkpoint (R430). -/
def ScaleEntry.restored (e : ScaleEntry) (b : List Byte) : ScaleEntry :=
  { e with pinned := (leAt b 0 4).testBit 23, pendingPin := none
           blocks := Tbl.ofListFrom .zero 0 ((List.range e.blockCount).map fun i => BlockSt.ofBytes (bytesAt b (16 + 4 * i) 4)) }

/-- The scale table of a job restored, entry by entry (R430). -/
def Work.restoreScale (w : Work) (q : Fin 8) : List (BitVec 20 × ScaleEntry) → List Byte → Work
  | [], _ => w
  | (t, e) :: rest, b =>
    Work.restoreScale (w.setEntry q t (some (e.restored b))) q rest (b.drop (16 + 4 * e.blockCount))

/-- What of a list of ranges the first n bytes of a body fill. -/
def filled : List (Nat × Nat) → Nat → List (Nat × Nat)
  | [], _ => []
  | (a, m) :: rest, n => (a, min m n) :: filled rest (n - m)

/-- A restore whose header is consistent (R430). -/
def Work.restoreBody (w : Work) (r : CmdRef) (q : Fin 8) (job : BitVec 16) (j : Job) (h body key : List Byte) : Work :=
  let n := leAt h 72 8
  let parts := j.shardParts j.buf
  let size := (parts.map (·.2)).sum
  let (plain, ok) := openChunks key (bytesAt h 64 8) (ckptAad h) body n (bodyChunks n) 0
  let (c, w1) := w.putPieces q parts 0 plain
  if !ok || decide (shake256 body 32 ≠ bytesAt h 96 32) then
    ((filled parts plain.length).foldl (fun w x => w.freshRange q x.1 x.2) w1).finish r 0x266 0
  else if c ≠ 0 then w1.finish r (0x200 + c.toNat) 0
  else (w1.restoreScale q (w1.entriesOf q job) (plain.drop size)).finish r 0 n

/-- RESTORE (R430, R455): refused where a context of the job is not LOADED (cause DESIGN CHOICE, log entry 51). -/
def Work.runRestore (w : Work) (r : CmdRef) (q : Fin 8) (e : BitVec 512) (host : HostData) : Work :=
  let job := cmdJob e
  let a := cmdArg e 16 8
  match w.job q job with
  | none => w.finish r 0x106 0
  | some j =>
    if (w.ctxsOf q job).any fun c => decide ((w.ctx c).st ≠ .loaded) then w.finish r 0x106 0
    else if a % 64 ≠ 0 then w.finish r 0x102 0
    else if !w.mapped q a 3392 then w.finish r 0x107 0
    else
      let (g, w1) := w.hbmRead q a 3392 .ok
      let k := (w1.part q).sessKey
      if g.code ≠ 0 then w1.finish r (0x200 + g.code.toNat) 0
      else if !ckptConsistent g.bytes job j (leBytes 16 (cmdArg e 32 16)) then w1.finish r 0x262 0
      else match unwrap (wrapKey (Config.mlkemDecap k (bytesAt g.bytes 1776 1568)) (bytesAt g.bytes 64 8) 0) (bytesAt g.bytes 3344 48) with
        | none => w1.finish r 0x266 0
        | some key =>
          let m := carried (leAt g.bytes 72 8)
          if !host.ok || decide (host.bytes.length < m) then w1.finish r 0x240 0
          else w1.restoreBody r q job j g.bytes (host.bytes.take m) key

/-- RESTORE (R455). -/
def execRestore (r : CmdRef) (host : HostData) (s : State) : Host.Outcome State Fault Refusal :=
  .next (s.onW fun w =>
    match w.startCmd r 0x41 with
    | some e => w.withPart r e fun q => w.runRestore r q e host
    | none => w)

end Sys2Proof.Machine
end

