-- ==== Sys2Proof/Machine/Report.lean ====
section
/-! DEFINITION. Attestation reports (R379-R385, R404). -/

namespace Sys2Proof.Machine

/-- A function's SPDM responder. -/
def Ctl.spdmOf (c : Ctl) (f : Fn) : Spdm := c.spdm.get .zero (fnKey f)
/-- A function's SPDM responder changed. -/
def State.updSpdm (s : State) (f : Fn) (g : Spdm → Spdm) : State :=
  s.onCtl fun c => { c with spdm := c.spdm.upd .zero (fnKey f) g }

/-- An SPDM answer leaves by the function's mailbox. -/
def State.spdmSay (s : State) (f : Fn) (code : Byte) (b : List Byte) : State := s.onW fun w => w.emit (.spdm f code b)
/-- What precedes the payload of a vendor-defined message (R385): Standard ID 3 and the vendor ID; the lengths beside them are those of SPDM
1.2 (PRESUMED, log entry 54). -/
def vendorFrame (b : List Byte) : List Byte := leBytes 2 3 ++ [2] ++ leBytes 2 Config.vendorId.toNat ++ leBytes 2 b.length ++ b

/-- A vendor-defined answer leaves (R385). -/
def State.vendorSay (s : State) (f : Fn) (b : List Byte) : State := s.spdmSay f 0x7E (vendorFrame b)

/-- An SPDM ERROR with its code (R385; the codes are those of SPDM 1.2, PRESUMED, log entry 54). -/
def State.spdmError (s : State) (f : Fn) (code : Byte) : State := s.spdmSay f 0x7F [code, 0]

/-- A program or package entry in a report (R384). -/
def AttEntry.bytes (e : AttEntry) : List Byte := bytesAt e.digest 0 32 ++ leBytes 2 e.job.toNat ++ [e.extra, 0, 0, 0, 0, 0]

/-- The identity of a socket's module in a report (R382, R508): none while a module is refused, or has still to be authenticated. -/
def Laser.reportId (l : Laser) : List Byte := if !l.present || decide (l.st = 1 ∨ l.st = 3) then List.replicate 16 0 else bytesAt l.id 0 16

/-- FLAGS of a report (R382). -/
def Ctl.reportFlags (c : Ctl) : Nat := c.fuse.debugUnlocked.toNat + 2 * c.boot.romOnly.toNat

/-- PATCH_DIGEST of a report (R382): of the patch that the boot applied; zero where it applied none. -/
def Ctl.patchDigest (c : Ctl) : List Byte :=
  bytesAt c.boot.patchDigest 0 32

/-- The LOAD of a program entry has not completed (R384, R456). -/
def Work.loading (w : Work) (q : Fin 8) (e : AttEntry) : Bool :=
  w.progs.any fun x => decide (x.1 / 2 ^ 32 = q.val) &&
    (match x.2 with | some p => decide (p.digest = e.digest ∧ p.job = e.job) && p.load.isSome | none => false)

/-- The program entries that a report lists (R384): of programs whose LOAD has completed (DEDUCED, log entry 117). -/
def Work.reportProgs (w : Work) (q : Fin 8) : List AttEntry := (w.part q).progEntries.filter fun e => !w.loading q e

/-- Bytes 0 to 5,151 of a partition's report (R382). -/
def State.reportBody (s : State) (q : Fin 8) (nonce : List Byte) : List Byte :=
  let p := s.w.part q
  let c := s.ctl
  leBytes 4 0x4A325250 ++ leBytes 4 5152 ++ leBytes 2 1 ++ leBytes 2 c.reportFlags ++
    [partByte q, BitVec.ofNat 8 (s.w.reportProgs q).length, BitVec.ofNat 8 p.pkgEntries.length, 0] ++ bytesAt nonce 0 32 ++
    leBytes 8 s.w.time.ftime.toNat ++ leBytes 8 c.dyke.serial.toNat ++ bytesAt c.fuse.identity 0 64 ++
    bytesAt Config.romDigest 0 32 ++ c.patchDigest ++ shake256 c.dyke.manifest 32 ++ p.historyBytes ++
    manPartBytes c.dyke.manifest q.val ++ ((List.range 4).flatMap fun k => (c.laser k).reportId) ++
    bytesAt (Config.mlkemPublic p.sessKey) 0 1568 ++ bytesAt ((s.w.reportProgs q).flatMap AttEntry.bytes) 0 2560 ++
    bytesAt (p.pkgEntries.flatMap AttEntry.bytes) 0 640

/-- A report signed and sent (R379, R382, R385): fresh, with one leaf index. -/
def State.sendReport (s : State) (f : Fn) (q : Fin 8) (nonce : List Byte) : State :=
  let b := s.reportBody q nonce
  s.withIndex (fun i w => w.emit (.spdm f 0x7E (vendorFrame (b ++ xmssSign i b)))) fun t => t.spdmError f 0x03

/-- The partition that a report request is about (R385): the function's own, or the one that a management function names. -/
def State.reportPart (s : State) (f : Fn) (part : Byte) : Option (Fin 8) :=
  let q := if f.fn = 0 then (if part.toNat < 8 then some (partFin part.toNat) else none) else s.w.partOf f
  q.bind fun q => if (s.w.part q).usable then some q else none

/-- A report request is served (R379, R385): ERROR where no partition fits or signing has halted. -/
def State.giveReport (s : State) (f : Fn) (nonce : List Byte) (part : Byte) : State :=
  match s.reportPart f part with
  | none => s.spdmError f 0x01
  | some q => if s.ctl.xmss.halted then s.spdmError f 0x03 else s.sendReport f q nonce

/-- Reports that waited for the lock are answered, in the order in which they were asked for (R380, R404). -/
def State.answerReports (s : State) : State :=
  s.ctl.dyke.reports.foldl (fun (s : State) r => s.giveReport (fnOfKey r.1) r.2.1 r.2.2)
    (s.onCtl fun c => { c with dyke := { c.dyke with reports := [] } })

/-- A function's mailbox answers (R385, R392, R478): it is in configuration space. -/
def State.doeOpen (s : State) (f : Fn) : Bool := s.ctl.ready && s.w.fnUp f

/-- GET_REPORT (R382, R385, R404): during a protection reboot it waits for the lock. -/
def execGetReport (fn : Fn) (nonce : List Byte) (part : Byte) (s : State) : Host.Outcome State Fault Refusal :=
  .next (
    if !s.doeOpen fn then s
    else if s.ctl.dyke.rebooting then
      s.onCtl fun c => { c with dyke := { c.dyke with reports := c.dyke.reports ++ [(fnKey fn, nonce, part)] } }
    else s.giveReport fn nonce part)

end Sys2Proof.Machine
end

