-- ==== Sys2Proof/Machine/Training.lean ====
section
/-! DEFINITION. The units of the device, and HBM training with the memory test, at a boot and for the gated slices that a manifest
assigns (R18, R247, R252, R343, R347, R478, R479). -/

namespace Sys2Proof.Machine

/-- The control dies as a whole (R18): the source of boot events. -/
def bootUnit (d : Fin 2) : BitVec 16 := unitId 3 d.val 0xFF

/-- A failure that self-test finds is logged (R479). -/
def Work.logBad (w : Work) (src u : BitVec 16) : Work := w.logEv src 0x0885 3 0xFF u.toNat

/-- The units that a boot finds bad, spares first, each once. -/
def bootBad (b : BootIn) : List (BitVec 16) :=
  let l := (b.badUnits.filter fun u => unitList.contains u).dedup
  let spare := fun (u : BitVec 16) => decide (unitClass u = 0 ∧ 0x40 ≤ unitNo u ∧ unitNo u < 0x44)
  l.filter spare ++ l.filter fun u => !spare u

/-- The channels of a stack that training and the memory test find good (R247, R252, R479). -/
def goodChannels (b : BootIn) (i : Nat) : BitVec 16 :=
  let bad := (List.range 16).filter fun j =>
    (bootBad b).contains (stackUnit i 0xFF) || (bootBad b).contains (stackUnit i (2 * j)) || (bootBad b).contains (stackUnit i (2 * j + 1))
  if b.stackPresent.getLsbD i then
    (b.chOk.getD i 0) &&& ~~~(bad.foldl (fun m j => m ||| BitVec.ofNat 16 (2 ^ j)) 0)
  else 0

/-- The failing rows that the memory test finds in a stack, by bank (R252), in order. -/
def failingRows (b : BootIn) (i : Nat) : List Nat := (b.softRepairs.filter fun e => decide (e.1 = i ∧ e.2 < 1536)).map (·.2)

/-- The boot test of failing rows (R252): a row takes the soft repair of its bank where that is free; a row whose bank's soft repair is in
use removes its channel from the map. The banks whose soft repairs are in use then, and the channels removed. -/
def repairRows : List Nat → Tbl Bool → Tbl Bool × BitVec 16
  | [], soft => (soft, 0)
  | k :: ks, soft =>
    if soft.get false k then
      let r := repairRows ks soft
      (r.1, r.2 ||| BitVec.ofNat 16 (2 ^ (k / 96)))
    else repairRows ks (soft.set false k true)

/-- A stack after training and the memory test (R247, R252, R254, R258): channels that failed since the last boot are out, and so are
those with a failing row that cannot be repaired. Its counters, its refresh mode and the registers of its test engine keep their values
(R4, R256, R343); the engine's command stops, and its buffer and the stack's raw contents are gone (R250). -/
def Stack.trainedBy (x : Stack) (b : BootIn) (i : Nat) : Stack :=
  let here := b.stackPresent.getLsbD i
  let (soft, lost) := repairRows (failingRows b i) x.te.soft
  let errs : List PcErr := (List.range 32).map fun p =>
    { x.pcErr.get .zero p with soft := BitVec.ofNat 8 (soft.countP fun e => decide (e.1 / 48 = p)) }
  { x with
    present := here, trained := here, chFailed := 0, chMap := goodChannels b i &&& ~~~lost &&& ~~~x.runFailed
    pcErr := Tbl.ofListFrom .zero 0 errs
    te := { x.te with busy := false, doneResult := 0, records := 0, buf := [], raw := [], soft := soft } }

/-- The unit whose failure takes a channel: the stack or a pseudo-channel of it that the boot finds bad, else the channel's first. -/
def channelUnit (b : BootIn) (i j : Nat) : BitVec 16 :=
  (([stackUnit i 0xFF, stackUnit i (2 * j), stackUnit i (2 * j + 1)].find? fun u => (bootBad b).contains u)).getD (stackUnit i (2 * j))

/-- Channels left out of the map and soft repairs are logged (R247, R252, R479), each unit once and none that self-test has logged. `soft`
is what was in use before. -/
def Work.logStack (w : Work) (src : BitVec 16) (b : BootIn) (soft : Nat → Tbl Bool) (logged : List (BitVec 16)) (i : Nat) : Work :=
  let x := w.stack i
  let bad := if !x.present then [stackUnit i 0xFF]
    else (((List.range 16).filter fun j => !x.chMap.getLsbD j).map fun j => channelUnit b i j).dedup
  let w1 := (bad.filter fun u => !logged.contains u).foldl (fun (w : Work) u => w.logBad src u) w
  ((failingRows b i).dedup.filter fun k => !(soft i).get false k).foldl (fun (w : Work) k =>
    w.logEv (stackUnit i (k / 48)) 0x03FF 1 0xFF k) w1

/-- A slice is mapped out where too few channels are left, or a stack of it has none (R9, R247, R347). -/
def Work.mapSlice (w : Work) (n : Nat) : Work :=
  let none := fun (i : Nat) => decide ((w.stack i).chMap = 0)
  if w.channels n < 16 ∨ none (2 * n) = true ∨ none (2 * n + 1) = true then w.updSlice n fun s => { s with mappedOut := true } else w

/-- HBM training and the memory test of a slice's stacks (R247, R252, R343, R478). -/
def Work.trainSlice (w : Work) (src : BitVec 16) (b : BootIn) (logged : List (BitVec 16)) (n : Nat) : Work :=
  let pair := [2 * n, 2 * n + 1]
  let w1 := pair.foldl (fun (w : Work) i => w.updStack i fun x => x.trainedBy b i) w
  (pair.foldl (fun (u : Work) i => u.logStack src b (fun i => (w.stack i).te.soft) logged i) w1).mapSlice n

end Sys2Proof.Machine
end

