-- ==== Sys2Proof/Machine/Tenancy.lean ====
section
/-! DEFINITION. Tenant removal, scrub, assignment, manifests and the protection reboot, and enrolment (R335-R343, R377, R389-R404,
R455). -/

namespace Sys2Proof.Machine

/-- The Dyke's unit in the log (R18). -/
def dykeUnit : BitVec 16 := unitId 3 0 0x11

/-- A security event without a code of its own (DESIGN CHOICE, log entry 15). -/
def Work.logSec (w : Work) (part : Byte) (sev pl : Nat) : Work := w.logEv dykeUnit 0x05FF sev part pl

/-- A management function is told of a change of SEC.REMOVAL (R402, R464). -/
def Work.removalEvent (w : Work) : Work := [fnOfKey 0, fnOfKey 16].foldl (fun w f => w.fnEvent f 3) w

/-- A transfer that removal aborts (R394): a DMA, Peat, fabric or reduction instruction in flight. -/
def InFlight.transfer (x : InFlight) : Bool := x.begun && (decide (x.op.queue = .M) || decide (x.op = .redContrib))

/-- The transfers of a context end with 0x6A (R394). A transfer writes its destination when it ends, so none has written a granule
(log entry 63). -/
def Work.abortTransfers (w : Work) (c : CtxId) : Work :=
  ((w.ctx c).infl.filter InFlight.transfer).foldl (fun w x => w.fault c (some x) x.pc 0x6A 0) w

/-- What the matrix and vector engines have started for a context runs to completion (R394). -/
def Work.finishEngines (w : Work) (c : CtxId) : Work :=
  ((w.ctx c).infl.filter fun x => decide (x.stat = .started) && !x.transfer).foldl (fun w x =>
    match w.instr c x.id with
    | some y => w.completeStarted c y .ok
    | none => w) w

/-- A context whose program is gone. -/
def Ctx.vacated (k : Ctx) : Ctx := if k.st = .absent then { Ctx.empty with st := .absent } else .empty

/-- Commands of a partition's functions end with 0x036A (R394). -/
def Work.endFnCmds (w : Work) (q : Fin 8) (test : CmdEnt → Bool) : Work :=
  (w.fnsOf q).foldl (fun w f => (w.queuesOf f).foldl (fun w k => w.abortCmds f k test 0x36A) w) w

/-- The partition's commands that have not finished end with 0x036A (R394): those of its functions, and a page change that a
management function asked for. -/
def Work.endPartCmds (w : Work) (q : Fin 8) : Work :=
  let w1 := (w.part q).pageChanges.foldl (fun w c =>
    match c.cmd with
    | some r => if r.fn.fn = 0 then (w.detach r).finish r 0x36A 0 else w
    | none => w) w
  w1.endFnCmds q fun _ => true

/-- Steps 1 and 2 of a tenant removal (R394): queued commands that have not started end with 0x036A, started matrix and vector instructions
complete, transfers end with 0x6A. The fence lets no step abort leave (DEDUCED, log entry 63). -/
def Work.fencePart (w : Work) (q : Fin 8) : Work :=
  let w0 := (w.jobsOf q).foldl (fun w j => w.updCommit q j fun c => { c with stopped := true }) (w.endFnCmds q CmdEnt.unstarted)
  let ctxs := w0.liveCtxs.filter fun c => (w0.part q).dyke.slices.getLsbD c.slice.val
  ctxs.foldl (fun w c => w.abortTransfers c) (ctxs.foldl (fun w c => w.finishEngines c) w0)

/-- What the engines hold for a partition is given up (R394): contexts, programs, jobs, sluices, transfers, flows, buckets. -/
def Work.dropPart (w : Work) (q : Fin 8) : Work :=
  let d := (w.part q).dyke
  let mine := fun (c : CtxId) => d.slices.getLsbD c.slice.val
  let w2 := (w.liveCtxs.filter mine).foldl (fun w c => w.updCtx c Ctx.vacated) w
  let early := w2.red.early.filter fun e => decide ((w2.port e.port.val).part ≠ q)
  let w3 : Work := { w2 with
    groups := w2.groups.filter fun g => decide (g.q ≠ q)
    combineIns := w2.combineIns.filter fun i => decide (i.q ≠ q)
    combineUses := w2.combineUses.filter fun i => decide (i.q ≠ q)
    combineCounts := w2.combineCounts.filter fun i => decide (i.q ≠ q)
    failedUses := w2.failedUses.filter fun u => decide (u.q ≠ q)
    jobs := w2.jobs.filter fun e => decide (e.1 / 2 ^ 16 ≠ q.val)
    commits := w2.commits.filter fun e => decide (e.1 / 2 ^ 16 ≠ q.val)
    progs := w2.progs.filter fun e => decide (e.1 / 2 ^ 32 ≠ q.val)
    scale := w2.scale.filter fun e => decide (e.1 / 2 ^ 20 ≠ q.val)
    sluices := w2.sluices.filter fun e => !d.sluices.getLsbD (e.1 / 64)
    rebuild := w2.rebuild.filter fun e => decide (e.2.q ≠ q)
    writes := w2.writes.filter fun e => decide (e.q ≠ q)
    heldWrites := w2.heldWrites.filter fun e => decide (e.q ≠ q)
    readAhead := w2.readAhead.filter fun e => decide (e.q ≠ q)
    fab := { w2.fab with
      send := w2.fab.send.filter fun e => decide (e.1.q ≠ q)
      recv := w2.fab.recv.filter fun e => decide (e.1.q ≠ q)
      memberAcks := w2.fab.memberAcks.filter fun e => decide (e.1.q ≠ q)
      loop := w2.fab.loop.filter fun e => decide (e.1 ≠ q)
      reads := w2.fab.reads.filter fun e => !mine e.c }
    red := { w2.red with
      early := early
      ctxs := w2.red.ctxs.filter fun e => match e.2 with | some b => decide (b.q ≠ q) | none => true } }
  w3.emptyPeats q

/-- A port of a removed partition (R394-R396): its keys are erased, it sends RETRAIN and then only IDLE, and it stays DARK until
its peer offers light again; its grace window opens. -/
def Work.revokePort (w : Work) (e : Word) (p : Nat) : Work :=
  let w1 := w.updPort p fun y => { y with txq := [], slotQ := [], replay := [], tail := none }
  ((w1.sendCtl (portFin p) 0x06 []).portDown (portFin p) 0).updPort p fun y => { y with light := 0, graceEnd := some e }

/-- A partition that removal has emptied (R394, R396): it keeps its Dyke entry and its integrity counters. -/
def Part.vacated (p : Part) (by_ : Option CmdRef) (e : Word) : Part :=
  { Part.zero with
    dyke := p.dyke, latePops := p.latePops, writeWaits := p.writeWaits, rollbacks := p.rollbacks, tagFails := p.tagFails, partialRefused := p.partialRefused, treeRepairs := p.treeRepairs
    treeLosses := p.treeLosses, history := p.history, removal := 2, removeCmd := by_, graceEnd := some e }

/-- The functions bound to a stream whose keys stop enter ERROR (R366). -/
def Ctl.streamStops (c : Ctl) (k : Nat) : Ctl :=
  { c with tdisp := (c.tdisp.map fun e => (e.1, if e.2.bound = some k then { e.2 with st := .error } else e.2)) }

/-- The virtual functions of a partition enter ERROR, and the IDE streams that are bound to them, or whose keys came by their sessions, lose
their keys (R365, R366, R394): the functions bound to those streams enter ERROR too. -/
def Ctl.revokeFns (c : Ctl) (fs : List Fn) : Ctl :=
  fs.foldl (fun (c : Ctl) f =>
    let t := c.tdisp.get .zero (fnKey f)
    let lost := fun (e : Nat × IdeStream) => decide (t.bound = some e.1 ∨ e.2.owner = some (fnKey f))
    let c1 := (c.ide.filter lost).foldl (fun (c : Ctl) e => c.streamStops e.1) c
    { c1 with
      tdisp := c1.tdisp.set .zero (fnKey f) { t with st := .error }
      spdm := c1.spdm.set .zero (fnKey f) .zero
      ide := c1.ide.filter fun e => !lost e }) c

/-- The slices of a partition that a scrub can reach. -/
def Work.scrubbable (w : Work) (q : Fin 8) : List Nat := (w.slicesOf q).filter fun n => !(w.slice n).mappedOut

/-- A set of slices as a mask. -/
def sliceMask (l : List Nat) : Byte := l.foldl (fun m n => m ||| BitVec.ofNat 8 (2 ^ n)) 0

/-- The scrubs of a list of slices start, and are logged (R391). -/
def State.startScrubs (s : State) (q : Fin 8) (l : List Nat) : State :=
  { s with w := l.foldl (fun w n => w.logSec (partByte q) 0 n) s.w
           ctl := { s.ctl with scrub := { s.ctl.scrub with active := s.ctl.scrub.active ||| sliceMask l } } }

/-- Steps 1 to 4 of a tenant removal, and the start of its scrubs (R394). -/
def State.removeTenant (s : State) (q : Fin 8) (by_ : Option CmdRef) : State :=
  let fs := s.w.fnsOf q
  let w1 := ((s.w.fencePart q).endPartCmds q).dropPart q
  let e := w1.graceFrom
  let w2 := (w1.portsOf q).foldl (fun w p => w.revokePort e p) w1
  let w3 := (w2.updPart q fun p => p.vacated by_ e).removalEvent
  ({ s with w := w3, ctl := s.ctl.revokeFns fs } : State).startScrubs q (w3.scrubbable q)

/-- A scrub of a slice of the partition is not over. -/
def State.scrubbing (s : State) (q : Fin 8) : Bool := (s.w.slicesOf q).any fun n => s.ctl.scrub.active.getLsbD n

/-- The scrubs of a removed partition are over (R394, R396, R402): it awaits assignment, and REMOVE completes. -/
def State.endRemoval (s : State) (q : Fin 8) : State :=
  let p := s.w.part q
  if p.removal = 2 ∧ s.scrubbing q = false then
    s.onW fun w =>
      let w1 := (w.updPart q fun x => { x with removal := 3, removeCmd := none }).removalEvent
      match p.removeCmd with
      | some r => w1.finish r 0 0
      | none => w1
  else s

/-- REMOVE (R394, R404, R455): a second removal completes at once; a partition that does not exist or awaits assignment is
refused. -/
def State.runRemove (s : State) (r : CmdRef) (q : Fin 8) : State :=
  let p := s.w.part q
  if !p.dyke.valid || decide (p.removal = 3) then s.onW fun w => w.finish r 0x105 0
  else if p.removal ≠ 0 then s.onW fun w => w.finish r 0 0
  else (({ s with w := s.w.markCmd r .started } : State).removeTenant q (some r)).endRemoval q

/-- REMOVE (R394). -/
def execRemove (r : CmdRef) (s : State) : Host.Outcome State Fault Refusal :=
  .next (
    match s.w.startCmd r 0x52 with
    | some e => s.runRemove r (partFin (cmdPart e))
    | none => s)

/-- A slice's own state after a scrub (R391): its memories are clear; what its hardware is, and its counters, stay (DEDUCED, log
entry 52). -/
def SliceSt.scrubbed (s : SliceSt) : SliceSt :=
  { s with
    scale := { s.scale with cached := [] }
    peat := { Peat.zero with
      spills := s.peat.spills, fetches := s.peat.fetches, popStalls := s.peat.popStalls, holdFrames := s.peat.holdFrames }
    stat := { SliceSt.zero.stat with evictions := s.stat.evictions, lost := s.stat.lost } }

/-- The memories of a slice are overwritten (R391): cores, clusters, contexts, stacks and counter words. -/
def Work.clearSlice (w : Work) (n : Nat) : Work :=
  let w1 := (w.liveCores.filter fun c => decide (c.slice.val = n)).foldl (fun w c => w.updCore c Core.emptied) w
  let w2 := (w1.liveCtxs.filter fun c => decide (c.slice.val = n)).foldl (fun w c => w.updCtx c Ctx.vacated) w1
  ({ w2 with clusters := w2.clusters.filter fun e => decide (e.1 / 8 ≠ n) } : Work).eraseSlice n

/-- The slice's new channel map (R249): the channels that failed at run time leave it; with too few channels, or none in a stack, the
slice is mapped out (R9, R247, R347). -/
def Work.newChannelMap (w : Work) (n : Nat) : Work :=
  ([2 * n, 2 * n + 1].foldl (fun (w : Work) i =>
    w.updStack i fun x => { x with chMap := x.chMap &&& ~~~x.chFailed, chFailed := 0 }) w).mapSlice n

/-- A slice takes a fresh tree key (R343, R391). -/
def Work.newTreeKey (w : Work) (n : Nat) : Work :=
  let (k, w1) := w.drawKey
  w1.updSlice n fun s => { s with treeKey := k }

/-- A slice is scrubbed (R391). The single-use key of step 2 is drawn and not kept; what it encrypts lies under blocks that are fresh
again, which read as zeros (DESIGN CHOICE, log entry 125). -/
def Work.scrubSlice (w : Work) (n : Nat) : Work :=
  ((((w.newChannelMap n).drawKey.2).clearSlice n).updSlice n SliceSt.scrubbed).newTreeKey n

/-- A slice under a new manifest (R336, R343): assigned and powered, or gated. -/
def SliceSt.assign (s : SliceSt) (q : Option (Fin 8)) : SliceSt :=
  match q with
  | some q => { s with part := q, assigned := true, gated := false }
  | none => { s with part := 0, assigned := false, gated := true }

/-- The units of a slice (R18, R412). -/
def sliceUnits (n : Nat) : List (BitVec 16) := [unitId 0 n 0xFF, unitId 1 n 0xFF, stackUnit (2 * n) 0xFF, stackUnit (2 * n + 1) 0xFF]

/-- A slice that no kept partition holds, under a new manifest (R343): its contents are gone, its stacks are up under a fresh tree key,
its units have a new epoch. -/
def Work.placeSlice (w : Work) (b : List Byte) (n : Nat) : Work :=
  let q := manOwner b fun d => d.slices.getLsbD n
  let w1 := ((w.clearSlice n).updSlice n SliceSt.scrubbed).updSlice n fun s => s.assign q
  let w2 := [2 * n, 2 * n + 1].foldl (fun (w : Work) i => w.updStack i fun x => { x with trained := x.present && q.isSome }) w1
  (sliceUnits n).foldl (fun w u => w.newEpochs u) (if q.isSome then w2.newTreeKey n else w2)

/-- A port that no kept partition holds, under a new manifest (R265, R289, R337, R340). -/
def Work.placePort (w : Work) (b : List Byte) (p : Nat) : Work :=
  let q := manOwner b fun d => d.ports.getLsbD p
  let r := manPortBytes b p
  let w1 := w.updPort p fun y =>
    { y with part := q.getD 0, assigned := q.isSome, longHaul := (leAt r 0 1).testBit 0, rttUs := BitVec.ofNat 11 (leAt r 2 2)
             mereSize := BitVec.ofNat 6 (leAt r 1 1), mereDomain := BitVec.ofNat 6 (leAt r 4 1)
             mereBase := BitVec.ofNat 24 (leAt r 8 8 / 2 ^ 24) }
  if q.isSome then w1.portStart p else w1.portDown (portFin p) 0

/-- A partition that is not kept, under a new manifest (R343, R381, R383): a fresh session key, no history. -/
def Work.placePart (w : Work) (b : List Byte) (q : Fin 8) : Work :=
  let d := manPart b q.val
  let (k, w1) := w.newId
  w1.updPart q fun p =>
    { Part.zero with
      dyke := if d.valid then d else .zero, latePops := p.latePops, writeWaits := p.writeWaits, rollbacks := p.rollbacks, tagFails := p.tagFails, partialRefused := p.partialRefused
      treeRepairs := p.treeRepairs, treeLosses := p.treeLosses, sessKey := if d.valid then k else 0, graceEnd := p.graceEnd }

/-- The boot stage writes the entries of a manifest (R337, R343): every partition, slice and port but those kept. -/
def Work.buildDyke (w : Work) (b : List Byte) (kept : Nat → Bool) (old : List Byte) : Work :=
  let held := fun (f : DykeRec → Bool) => match manOwner old f with | some q => kept q.val | none => false
  let w1 := (allParts.filter fun q => !kept q.val).foldl (fun w q => w.placePart b q) w
  let w2 := ((List.range 8).filter fun n => !held fun d => d.slices.getLsbD n).foldl (fun w n => w.placeSlice b n) w1
  let w3 := ((List.range 32).filter fun p => !held fun d => d.ports.getLsbD p).foldl (fun w p => w.placePort b p) w2
  { w3 with time := { w3.time with address := BitVec.ofNat 16 (manAddress b) } }

/-- A kept partition of a reboot in progress. -/
def Ctl.keptNow (c : Ctl) (q : Nat) : Bool := manKept c.dyke.manifest c.dyke.next q

/-- A scrub that the protection reboot waits for is not over (R343). -/
def State.rebootWaits (s : State) : Bool :=
  (List.range 8).any fun n => s.ctl.scrub.active.getLsbD n &&
    !(match s.w.sliceOwner n with | some q => s.ctl.keptNow q.val | none => false)

/-- The lock is set on a Dyke built from a manifest (R337, R343, R497). -/
def Ctl.lockDyke (c : Ctl) (b : List Byte) (reboot : Bool) : Ctl :=
  { c with
    boot := { c.boot with phase := 4, patchBuf := [] }
    dyke := { c.dyke with
      locked := true, rebooting := false, manifestValid := true, serial := BitVec.ofNat 64 (manSerial b), manifest := b
      mramSerial := BitVec.ofNat 64 (manSerial b), mramManifest := b, next := [], ports := manPorts b
      reboots := if reboot then satAdd c.dyke.reboots 1 else c.dyke.reboots } }

/-- The lock is set on a Dyke without partitions, over a manifest that the MRAM takes (R343, R378): the device is debug-unlocked. -/
def Ctl.lockUnlocked (c : Ctl) (b : List Byte) : Ctl :=
  let k := c.lockDyke b true
  { k with dyke := { k.dyke with manifestValid := false, serial := 0, manifest := [], ports := [] } }

/-- The boot stage is re-run with the new manifest once the scrubs are over, MANIFEST completes with SERIAL (R343, R455), and the
reports that waited are answered (R404). A debug-unlocked device gets no partitions from it (R378, R529). -/
def State.endReboot (s : State) : State :=
  if s.ctl.dyke.rebooting && !s.rebootWaits then
    let b := s.ctl.dyke.next
    let w1 := s.w.buildDyke (if s.ctl.fuse.debugUnlocked then [] else b) s.ctl.keptNow s.ctl.dyke.manifest
    let w2 := match w1.host.rebootCmd with
      | some r => ({ w1 with host := { w1.host with rebootCmd := none } } : Work).finish r 0 (manSerial b)
      | none => w1
    ({ s with w := w2, ctl := if s.ctl.fuse.debugUnlocked then s.ctl.lockUnlocked b else s.ctl.lockDyke b true } : State).answerReports
  else s

/-- The tenants of the partitions that the protection reboot does not keep are removed (R343), where their removal has not begun. -/
def State.removeChanged (s : State) : State :=
  let gone := allParts.filter fun q => (s.w.part q).dyke.valid && !s.ctl.keptNow q.val
  gone.foldl (fun (s : State) q => if (s.w.part q).removal = 2 then s else (s.removeTenant q none).endRemoval q) s

/-- Every gated slice that a manifest assigns is powered up, and its stacks are trained and tested (R343). -/
def State.bringUpGated (s : State) (b : List Byte) (boot : BootIn) : State :=
  s.onW fun w =>
    ((List.range 8).filter fun n => (w.slice n).gated && (manOwner b fun d => d.slices.getLsbD n).isSome).foldl (fun (w : Work) n =>
      (w.updSlice n fun x => { x with gated := false }).trainSlice (bootUnit s.ctl.dies.active) boot [] n) w

/-- A protection reboot begins (R343): the changed partitions are emptied, and newly assigned slices come up. The lock stays set until
the boot stage is re-run, which clears and sets it in one step. -/
def State.startReboot (s : State) (r : CmdRef) (b : List Byte) (boot : BootIn) : State :=
  let c := { s.ctl with
    boot := { s.ctl.boot with phase := 6 }, dyke := { s.ctl.dyke with rebooting := true, next := b } }
  let w1 := s.w.markCmd r .started
  ({ s with w := { w1 with host := { w1.host with rebootCmd := some r } }, ctl := c } : State).removeChanged.bringUpGated b boot

/-- A protection reboot is repeated from verification (R373): the standby has the manifest's copy. One that no longer verifies is refused, as
at its start. -/
def State.repeatReboot (s : State) : State :=
  if s.ctl.dyke.rebooting then
    let c := s.ctl.manCause s.ctl.dyke.next
    if c = 0 then s.removeChanged.endReboot
    else
      { s with
        w := match s.w.host.rebootCmd with
          | some r => ({ s.w with host := { s.w.host with rebootCmd := none } } : Work).finish r (0x100 + c) 0
          | none => s.w
        ctl := { s.ctl with boot := { s.ctl.boot with phase := 4 }, dyke := { s.ctl.dyke with rebooting := false, next := [] } } }
  else s

/-- MANIFEST (R341-R343, R455). The order of its causes is DESIGN CHOICE (log entry 53). -/
def State.runManifest (s : State) (r : CmdRef) (x : ManifestIn) : State :=
  let host := x.host
  let b := host.bytes.take 9544
  if s.ctl.manBusy then s.onW fun w => w.finish r 0x147 0
  else if !host.ok || decide (host.bytes.length < 9544) then s.onW fun w => w.finish r 0x240 0
  else
    let c := s.ctl.manCause b
    if c ≠ 0 then s.onW fun w => w.finish r (0x100 + c) 0 else (s.startReboot r b x.boot).endReboot

/-- MANIFEST (R343). -/
def execManifest (r : CmdRef) (host : ManifestIn) (s : State) : Host.Outcome State Fault Refusal :=
  .next (
    match s.w.startCmd r 0x50 with
    | some _ => s.runManifest r host
    | none => s)

/-- A scrub ends (R391, R394, R401): logged and counted; a removal or a protection reboot that waited for it goes on. -/
def State.endScrub (s : State) (n : Nat) : State :=
  if s.ctl.scrub.active.getLsbD n then
    let q := s.w.sliceOwner n
    let sc := { s.ctl.scrub with
      active := s.ctl.scrub.active &&& ~~~(BitVec.ofNat 8 (2 ^ n)), count := satAdd s.ctl.scrub.count 1 }
    let s1 : State := { s with
      w := (s.w.scrubSlice n).logSec ((q.map partByte).getD 0xFF) 0 (n + 2 ^ 8), ctl := { s.ctl with scrub := sc } }
    let s2 := match q with | some q => s1.endRemoval q | none => s1
    s2.endReboot
  else s

/-- SCRUB_COMPLETE (R391). -/
def execScrubComplete (n : Fin 8) (s : State) : Host.Outcome State Fault Refusal := .next (s.endScrub n.val)

/-- A grace window ends (R395): ftime reaches its end, within the frame. -/
def Work.endGrace (w : Work) (q : Fin 8) : Work :=
  match (w.part q).graceEnd with
  | none => w
  | some e =>
    let shut := fun (w : Work) =>
      ((List.range 32).filter fun p => decide ((w.port p).part = q)).foldl (fun (w : Work) p => w.updPort p fun y => { y with graceEnd := none })
        (w.updPart q fun p => { p with graceEnd := none })
    if e.toNat ≤ w.time.ftime.toNat then shut w
    else match w.advance (e.toNat - w.time.ftime.toNat) with
      | some w1 => shut w1
      | none => w

/-- GRACE_WINDOW_END (R395). -/
def execGraceWindowEnd (q : Fin 8) (s : State) : Host.Outcome State Fault Refusal := .next (s.onW fun w => w.endGrace q)

/-- ASSIGN (R396, R455): a new session key, no history, functions CONFIG_UNLOCKED; the ports wait for light. A partition that does
not await assignment is an argument out of range. -/
def State.runAssign (s : State) (r : CmdRef) (q : Fin 8) : State :=
  let p := s.w.part q
  if !p.dyke.valid then s.onW fun w => w.finish r 0x105 0
  else if p.removal ≠ 3 then s.onW fun w => w.finish r 0x102 0
  else
    let fs := s.w.fnsOf q
    let (k, w1) := s.w.newId
    let w2 := (w1.updPart q fun p => { p with removal := 0, sessKey := k, history := [] }).removalEvent
    { s with w := w2.finish r 0 0
             ctl := fs.foldl (fun (c : Ctl) f => { c with tdisp := c.tdisp.set .zero (fnKey f) .zero }) s.ctl }

/-- ASSIGN (R396). -/
def execAssign (r : CmdRef) (s : State) : Host.Outcome State Fault Refusal :=
  .next (
    match s.w.startCmd r 0x53 with
    | some e => s.runAssign r (partFin (cmdPart e))
    | none => s)

/-- The digest of the operator's key is burned, and logged (R377). -/
def State.burnOperator (s : State) (key : List Byte) : State :=
  { s with w := s.w.logSec 0xFF 1 0
           ctl := { s.ctl with
             fuse := { s.ctl.fuse with operator := some (shake256 (key.take 64) 32) }
             dyke := { s.ctl.dyke with enrolled := true } } }

/-- ENROL (R377, R455). -/
def State.runEnrol (s : State) (r : CmdRef) (host : HostData) : State :=
  if s.ctl.fuse.operator.isSome then s.onW fun w => w.finish r 0x148 0
  else if s.ctl.fuse.debugUnlocked then s.onW fun w => w.finish r 0x149 0
  else if !host.ok || decide (host.bytes.length < 64) then s.onW fun w => w.finish r 0x240 0
  else (s.burnOperator host.bytes).onW fun w => w.finish r 0 0

/-- ENROL (R377). -/
def execEnrol (r : CmdRef) (host : HostData) (s : State) : Host.Outcome State Fault Refusal :=
  .next (
    match s.w.startCmd r 0x51 with
    | some _ => s.runEnrol r host
    | none => s)

end Sys2Proof.Machine
end

