-- ==== Sys2Proof/Machine/RegView.lean ====
section
/-! DEFINITION. What reads of the management window return: the registers of every block by offset, and who sees them (R3-R7,
R26-R36, R64-R65, R95-R99, R104-R106, R150-R153, R174, R185-R186, R214-R219, R233-R234, R254-R262, R295-R304, R330-R332, R367-R372,
R389-R403, R433-R440, R461-R466, R495-R502, R513-R515). -/

namespace Sys2Proof.Machine

/-- A performance counter as host functions see it (R389). -/
def coarse (n : Nat) : Nat := n / 1024 * 1024

/-- A function sees what belongs to partition q (R7, R443): a management function everything, a virtual function its own. -/
def State.sees (s : State) (who : Fn) (q : Fin 8) : Bool := physical who || decide (s.w.partOf who = some q)
/-- A function sees slice n's blocks (R27, R389). -/
def State.seesSlice (s : State) (who : Fn) (n : Nat) : Bool :=
  physical who || (match s.w.partOf who with | some q => (s.w.part q).dyke.slices.getLsbD n | none => false)
/-- A function sees port p's registers. -/
def State.seesPort (s : State) (who : Fn) (p : Nat) : Bool :=
  physical who || (match s.w.partOf who with | some q => (s.w.part q).dyke.ports.getLsbD p | none => false)
/-- A function sees a sluice (R95). -/
def State.seesSluice (s : State) (who : Fn) (i : Nat) : Bool :=
  physical who || (match s.w.partOf who with | some q => (s.w.part q).dyke.sluices.getLsbD (i / 64) | none => false)

/-- Blocks SLCn and MEMs of a slice answer (R27, R392): it is neither gated, mapped out nor being scrubbed. -/
def State.sliceOpen (s : State) (n : Nat) : Bool :=
  !(s.w.slice n).gated && !(s.w.slice n).mappedOut && !s.ctl.scrub.active.getLsbD n

/-- CTL.SLICE_STATE (R33). -/
def Work.sliceStateReg (w : Work) : Word :=
  packReg ((List.range 8).flatMap fun n =>
    let x := w.slice n
    [(x.part.val, 8 * n + 5, 3), (x.mappedOut.toNat, 8 * n + 3, 1), (x.gated.toNat, 8 * n + 2, 1), (x.assigned.toNat, 8 * n + 1, 1),
     (x.present.toNat, 8 * n, 1)])

/-- CTL.BOOT_STATE (R495). -/
def BootSt.stateReg (b : BootSt) : Word :=
  packReg [(b.readyMs.toNat, 32, 32), (b.romOnly.toNat, 10, 1), (b.patched.toNat, 9, 1), (b.bringup.toNat, 8, 1), (b.phase.toNat, 0, 3)]

/-- CTL.DEVICE_ID (R28). -/
def deviceIdReg : Word := packReg [(0x01, 32, 8), (0x0020, 16, 16), (0x10, 8, 8)]

/-- Block CTL (R28-R34, R495-R497). -/
def State.readCtl (s : State) (o : Nat) : Word :=
  let t := s.w.time
  let d := s.ctl.dies
  let b := s.ctl.boot
  if 0x80000 ≤ o then (if b.bringup then BitVec.ofNat 64 (leNat (b.patchBuf.readN (o - 0x80000) 8)) else 0)
  else match o with
    | 0x00 => deviceIdReg
    | 0x08 => t.ftime
    | 0x10 => BitVec.ofNat 64 t.frame
    | 0x18 => packReg [(t.nextPeriod.toNat, 32, 11), (t.period.toNat, 0, 11)]
    | 0x20 => t.changeAt
    | 0x28 => packReg [(t.refHolder.toNat, 16, 1), (t.stepCount.toNat, 8, 8), (t.st.toNat, 0, 2)]
    | 0x30 => s.w.sliceStateReg
    | 0x38 => packReg [(d.failovers.toNat, 8, 8), (d.standbyReady.toNat, 1, 1), (d.active.val, 0, 1)]
    | 0x40 => b.stateReg
    | 0x48 => packReg [(b.bringupNext.toNat, 0, 1)]
    | 0x50 => packReg [(b.patchSerial.toNat, 32, 32), (b.patchBusy.toNat, 9, 1), (b.patchStore.isSome.toNat, 8, 1), (b.patchResult.toNat, 0, 8)]
    | _ => 0

/-- PWR.SUPPLY (R498). -/
def PwrSt.supplyReg (p : PwrSt) : Word :=
  packReg [(p.mainMv.toNat, 48, 16), (p.minMv.toNat, 32, 16), (p.dips.toNat, 16, 16), (p.returnPending.toNat, 1, 1), (p.dip.toNat, 0, 1)]
/-- PWR.POWER (R500). -/
def PwrSt.powerReg (p : PwrSt) : Word := packReg [(p.watts8.toNat, 0, 16)]
/-- PWR.TEMP (R500). -/
def PwrSt.tempReg (p : PwrSt) : Word := packReg [(p.temps.toNat, 24, 40), (p.throttle.toNat, 8, 1), (p.tj.toNat, 0, 8)]

/-- Block PWR (R498-R501): a virtual function reads POWER and TEMP. -/
def State.readPwr (s : State) (who : Fn) (o : Nat) : Word :=
  let p := s.ctl.pwr
  if o = 0x18 then p.powerReg
  else if o = 0x20 then p.tempReg
  else if !physical who then 0
  else match o with
    | 0x00 => p.supplyReg
    | 0x08 => packReg [(p.cause.toNat, 8, 4), (p.maxPoint.toNat, 4, 2), (p.pendingPoint s.w.time.tickAfter, 2, 2), (s.w.time.point.toNat, 0, 2)]
    | 0x10 => packReg [(p.share, 16, 12), (p.watts.toNat, 0, 12)]
    | 0x28 => p.tripTime
    | 0x30 => packReg [(p.tripSource.toNat, 0, 16)]
    | 0x38 => packReg [(p.capUnmet.toNat, 32, 32), (p.pointChanges.toNat, 16, 16), (p.throttles.toNat, 0, 16)]
    | _ => 0

/-- LOG.STATE (R502). -/
def LogSt.stateReg (l : LogSt) : Word :=
  packReg [(l.lost.toNat, 32, 32), (l.nextSeq.toNat, 16, 16), (min l.entries.length 32767, 1, 15), (l.alert.toNat, 0, 1)]

/-- Word k of a log entry (R491). -/
def LogEnt.word (e : LogEnt) (k : Nat) : Word :=
  match k with
  | 0 => e.ftime
  | 1 => packReg [(e.source.toNat, 0, 16), (e.code.toNat, 16, 16), (e.severity.toNat, 32, 8), (e.part.toNat, 40, 8), (e.sequence.toNat, 48, 16)]
  | 2 => e.payload.extractLsb' 0 64
  | _ => e.payload.extractLsb' 64 64

/-- Block LOG (R493, R502): the entry with sequence s lies at index s mod 32,768. -/
def State.readLog (s : State) (who : Fn) (o : Nat) : Word :=
  let l := s.w.log
  if 0x80000 ≤ o then
    let i := l.window.toNat * 16384 + (o - 0x80000) / 32
    match l.entries.find? fun e => decide (e.sequence.toNat % 32768 = i) with
    | some e => if physical who || decide ((s.w.partOf who).map partByte = some e.part) then e.word (o % 32 / 8) else 0
    | none => 0
  else if !physical who then 0
  else match o with
    | 0x00 => l.stateReg
    | 0x08 => packReg [(l.window.toNat, 0, 1)]
    | _ => 0

/-- HIF.AQ_CTL (R462). -/
def FnSt.aqReg (f : FnSt) : Word :=
  packReg [(f.enable.toNat, 63, 1), (f.ready.toNat, 62, 1), (f.aq.time.toNat, 32, 16), (f.aq.vector.toNat, 21, 11), (f.aq.l.toNat, 16, 5),
           (f.aq.count.toNat, 8, 8)]
/-- HIF.FN_CFG (R465). -/
def FnLimits.reg (c : FnLimits) : Word :=
  packReg [(c.vectorBase.toNat, 48, 11), (c.vectorCount.toNat, 32, 12), (c.maxQueues.toNat, 0, 13)]

/-- A function's page (R461-R464). -/
def Work.readFnPage (w : Work) (f : Fn) (o : Nat) : Word :=
  let x := w.fn f
  match o with
  | 0x00 => x.aqSq
  | 0x08 => x.aqCq
  | 0x10 => x.aqAck
  | 0x18 => x.aqReg
  | 0x20 => packReg [(x.cfg.maxQueues.toNat, 32, 16), (x.cfg.vectorCount.toNat, 16, 16), ((w.queuesOf f).length, 0, 13)]
  | 0x28 => packReg [(x.event.toNat, 0, 6)]
  | _ => 0

/-- Block HIF (R460-R466): a virtual function reads its own page. FN_STATUS shows no limits before Ready (R463, R478). -/
def State.readHif (s : State) (who : Fn) (o : Nat) : Word :=
  let h := s.w.host
  if o < 0x20000 then
    let f := fnOfKey (o / 0x1000)
    if !(physical who || decide (who = f)) then 0
    else if o % 0x1000 = 0x20 ∧ s.ctl.ready = false then packReg [((s.w.queuesOf f).length, 0, 13)]
    else s.w.readFnPage f (o % 0x1000)
  else if !physical who then 0
  else if o < 0x20100 then (s.w.fn (fnOfKey ((o - 0x20000) / 8))).cfg.reg
  else if o = 0x21000 then packReg [(h.stalls.toNat, 48, 16), (s.w.queuesInUse, 32, 16), (s.w.held, 0, 17)]
  else if o = 0x21008 ∨ o = 0x21010 then
    let p := h.pcie.get .zero ((o - 0x21008) / 8)
    packReg [(p.downEvents.toNat, 48, 16), (p.up.toNat, 9, 1), (p.flit.toNat, 8, 1), (p.width.toNat, 4, 4), (p.rate.toNat, 0, 4)]
  else 0

/-- SEC.PART_CFG and the words after it (R368). -/
def DykeRec.word (d : DykeRec) (o : Nat) : Word :=
  match o with
  | 0x00 => packReg [(d.valid.toNat, 63, 1), (d.redQuota, 40, 15), (d.domainQuota.toNat, 32, 8), (d.vfs1.toNat, 16, 16), (d.vfs0.toNat, 8, 8),
                     (d.slices.toNat, 0, 8)]
  | 0x08 => packReg [(d.ports.toNat, 0, 32)]
  | 0x10 => d.sluices.extractLsb' 0 64
  | 0x18 => d.sluices.extractLsb' 64 64
  | 0x20 => d.sluices.extractLsb' 128 64
  | 0x28 => d.sluices.extractLsb' 192 64
  | 0x30 => packReg [(d.vfs0.toNat / 256, 0, 8)]
  | _ => 0

/-- SEC.DOMAIN (R369). -/
def Part.domainReg (p : Part) (d : Nat) : Word :=
  let x := p.doms.get .zero d
  let n := p.pages.countP fun e => match e.2 with | some y => decide (y.dom.toNat = d) | none => false
  packReg [(n, 32, 32), (x.generation.toNat, 16, 16), (x.lost.toNat, 2, 1), (x.rekeying.toNat, 1, 1), (x.enabled.toNat, 0, 1)]

/-- SEC.REMOVAL (R402). -/
def Work.removalReg (w : Work) : Word := packReg (allParts.map fun q => ((w.part q).removal.toNat, 8 * q.val, 2))

/-- A word of a byte string. -/
def wordAt (b : List Byte) (k : Nat) : Word := BitVec.ofNat 64 (leAt b (8 * k) 8)

/-- SEC.FUSE_STATE (R398): the debug-unlock hash is programmed at manufacture (R374). -/
def FuseSt.reg (f : FuseSt) : Word :=
  packReg [(f.debugUnlocked.toNat, 8, 1), (f.operator.isSome.toNat, 3, 1), (1, 2, 1), (f.laserKeyBurned.toNat, 1, 1), (f.identityBurned.toNat, 0, 1)]

/-- The part of block SEC that belongs to no partition (R367, R397-R403). -/
def State.readSecDevice (s : State) (who : Fn) (o : Nat) : Word :=
  let c := s.ctl
  if 0x5000 ≤ o ∧ o < 0x5040 then wordAt c.fuse.identity ((o - 0x5000) / 8)
  else if o = 0x5040 then c.fuse.reg
  else if 0x5080 ≤ o ∧ o < 0x50A0 then wordAt (c.fuse.operator.getD []) ((o - 0x5080) / 8)
  else if !physical who then 0
  else if 0x50A0 ≤ o ∧ o < 0x50C0 then wordAt c.fuse.debugHash ((o - 0x50A0) / 8)
  else match o with
    | 0x0000 => packReg [(c.dyke.reboots.toNat, 16, 8), (allParts.countP (fun q => (s.w.part q).dyke.valid), 8, 4),
                         (c.fuse.operator.isSome.toNat, 3, 1), (c.dyke.manifestValid.toNat, 2, 1), (c.dyke.rebooting.toNat, 1, 1),
                         (c.dyke.locked.toNat, 0, 1)]
    | 0x0008 => c.dyke.mramSerial
    | 0x50C0 => packReg [(c.xmss.nextIndex.toNat, 0, 60)]
    | 0x50C8 => packReg [(c.xmss.signatures.toNat, 32, 32), (c.xmss.halted.toNat, 0, 1)]
    | 0x5100 => packReg [(c.scrub.count.toNat, 32, 32), (c.scrub.active.toNat, 0, 8)]
    | 0x5108 => s.w.removalReg
    | 0x5110 => packReg [(c.scrub.graceDrops.toNat, 0, 32)]
    | _ => 0

/-- Block SEC (R367-R371, R397-R403): a virtual function reads the entries of its own partition. -/
def State.readSec (s : State) (who : Fn) (o : Nat) : Word :=
  if 0x100 ≤ o ∧ o < 0x300 then
    let q := partFin ((o - 0x100) / 0x40)
    if s.sees who q then (s.w.part q).dyke.word (o % 0x40) else 0
  else if 0x1000 ≤ o ∧ o < 0x2000 then
    let q := partFin ((o - 0x1000) / 0x200)
    if s.sees who q then (s.w.part q).domainReg (o % 0x200 / 8) else 0
  else if 0x2000 ≤ o ∧ o < 0x3000 then
    let n := (o - 0x2000) / 0x200
    match s.w.sliceOwner n with
    | some q =>
      let d := s.w.dom q (o % 0x200 / 8)
      if s.sees who q && d.rekeying then (d.boundary.get 0 n).setWidth 64 else 0
    | none => 0
  else if 0x3000 ≤ o ∧ o < 0x3040 then
    let q := partFin ((o - 0x3000) / 8)
    let p := s.w.part q
    if s.sees who q then
      packReg [(p.tagFails.toNat, 40, 24), (p.partialRefused.toNat, 24, 16), (p.treeRepairs.toNat, 8, 16), (p.treeLosses.toNat, 0, 8)]
    else 0
  else s.readSecDevice who o

/-- ELS.SOCKET (R513). -/
def Laser.reg (l : Laser) : Word := packReg [(l.temp.toNat, 56, 8), (l.authFails.toNat, 32, 8), (l.int.toNat, 3, 1), (l.st.toNat, 0, 3)]

/-- Block ELS (R513-R515). -/
def State.readEls (s : State) (who : Fn) (o : Nat) : Word :=
  let l := s.ctl.laser (o / 0x100)
  if !physical who || decide (0x400 ≤ o) then 0
  else match o % 0x100 with
    | 0x00 => l.reg
    | 0x08 => if l.st = 2 then wordAt l.id 0 else 0
    | 0x10 => if l.st = 2 then wordAt l.id 1 else 0
    | 0x18 => packReg [(l.eqHours.toNat, 32, 32), (l.biasNow.toNat, 16, 16), (l.biasStart.toNat, 0, 16)]
    | _ => 0

/-- HLTH.SCORE (R433). -/
def HealthSt.scoreReg (h : HealthSt) : Word :=
  packReg [(h.frame.toNat, 32, 32), (h.migrateReq.toNat, 17, 1), (h.ckptReq.toNat, 16, 1), (h.score.toNat, 0, 8)]

/-- Seven bytes, the first in bits [7:0] (R434). -/
def sevenReg (l : List Byte) : Word := BitVec.ofNat 64 (leNat (bytesAt l 0 7))

/-- A word of the capability block (R436, R437), as last recorded. -/
def HealthSt.capReg (h : HealthSt) (k : Nat) : Word :=
  let v := h.caps.getD k 0
  if k = 9 then v ||| (h.generation.setWidth 64 <<< (48 : Nat)) else v

/-- The job whose commit state HLTH.COMMIT shows: the lowest-numbered one that has any (DESIGN CHOICE, log entry 55). -/
def Work.commitJob (w : Work) (q : Fin 8) : BitVec 16 :=
  match w.commits.find? fun e => decide (e.1 / 65536 = q.val) with
  | some e => BitVec.ofNat 16 e.1
  | none => ((w.jobsOf q).head?).getD 0

/-- HLTH.COMMIT (R439). ATTEMPT shows 0 to 2. -/
def Work.commitReg (w : Work) (q : Fin 8) (k : Nat) : Word :=
  let j := w.commitJob q
  let c := w.commit q j
  if k = 0 then c.lastCommitted
  else
    let o := match c.learned with | none => 0 | some d => if d.committed then 1 else 2
    packReg [((w.part q).rollbacks.toNat, 48, 16), (min c.attempt 2, 40, 8), (c.cause.toNat, 32, 8), (j.toNat, 16, 16), (o, 0, 2)]

/-- HLTH.FENCE_STATUS (R438). -/
def FenceSt.reg (f : FenceSt) (absent : Bool) : Word :=
  packReg [(f.aborted.toNat, 32, 16), (f.unit.toNat, 16, 16), (if f.named && absent then 3 else f.st.toNat, 0, 2)]

/-- Block HLTH (R433-R440). -/
def State.readHlth (s : State) (who : Fn) (o : Nat) : Word :=
  let h := s.ctl.health
  if 0x100 ≤ o ∧ o < 0x150 then h.capReg ((o - 0x100) / 8)
  else if 0x300 ≤ o ∧ o < 0x380 then
    let q := partFin ((o - 0x300) / 0x10)
    if s.sees who q then s.w.commitReg q (o % 0x10 / 8) else 0
  else if o = 0 then h.scoreReg
  else if !physical who then 0
  else if 0x400 ≤ o ∧ o < 0x420 then
    let r := s.w.rebuildSlot ((o - 0x400) / 8)
    packReg [(r.group.toNat, 48, 16), (r.symbol.toNat, 40, 8), (r.st.toNat, 32, 8), (r.done.toNat, 16, 16), (r.total.toNat, 0, 16)]
  else match o with
    | 0x08 => sevenReg h.inputs
    | 0x10 => sevenReg h.weights
    | 0x18 => packReg [(h.t2.toNat, 8, 8), (h.t1.toNat, 0, 8)]
    | 0x208 => s.ctl.fence.reg (s.w.unitAbsent s.ctl.fence.unit)
    | _ => 0

/-- FABd.PORT_STATE (R296), with the wavelengths in use now (R266). -/
def Port.stateReg (p : Port) (lams : BitVec 9) : Word :=
  packReg [(p.peer.toNat, 48, 16), (p.peerPort.toNat, 43, 5), (p.retrains.toNat, 32, 8), (lams.toNat, 23, 9),
           (if p.isActive then p.width else 0, 16, 4), (p.st, 0, 4)]
/-- FABd.PORT_CFG (R295). -/
def Port.cfgReg (p : Port) : Word :=
  packReg [(p.asymNs.toNat, 48, 16), (p.rttUs.toNat, 26, 11), (p.part.val, 21, 3), (p.assigned.toNat, 20, 1), (p.longHaul.toNat, 1, 1),
           (p.enable.toNat, 0, 1)]

/-- A port's registers (R295-R299, R372), with the wavelengths in use now. -/
def Port.word (p : Port) (lams : BitVec 9) (o : Nat) : Word :=
  match o with
  | 0x00 => p.cfgReg
  | 0x08 => p.stateReg lams
  | 0x10 => packReg [(p.corrected.toNat, 32, 32), (p.uncorrectable.toNat, 16, 16), (p.flitErrors.toNat, 0, 16)]
  | 0x20 => packReg [(p.mereSize.toNat, 54, 6), (p.mereDomain.toNat, 48, 6), (p.mereBase.toNat, 24, 24)]
  | 0x28 => packReg [(coarse p.misses.toNat, 32, 32), (p.refused.toNat, 8, 1), (p.cycle.toNat, 0, 2)]
  | 0x30 => packReg [(p.authFails.toNat, 48, 16), (p.intervalS.toNat, 32, 16), (p.exchanges.toNat, 16, 16)]
  | _ => 0

/-- FABd.SLOT (R300). -/
def SlotEnt.reg (e : SlotEnt) : Word := packReg [(e.valid.toNat, 63, 1), (e.start.toNat, 20, 20), (e.length.toNat, 0, 20)]
/-- FAB0.ROUTE (R301). -/
def Route.reg (e : Route) : Word :=
  packReg [(e.valid.toNat, 63, 1), (e.host.toNat, 62, 1), (e.count.toNat, 20, 2), (e.p3.toNat, 15, 5), (e.p2.toNat, 10, 5), (e.p1.toNat, 5, 5),
           (e.p0.toNat, 0, 5)]
/-- FAB0.MCAST (R302). -/
def McastEnt.reg (e : McastEnt) : Word :=
  packReg [(e.valid.toNat, 63, 1), (e.part.toNat, 53, 3), (e.isLocal.toNat, 52, 1), (e.source.toNat, 32, 16), (e.ports.toNat, 0, 32)]
/-- FAB0.RED_TREE (R330). -/
def RedNode.reg (e : RedNode) : Word :=
  packReg [(e.valid.toNat, 63, 1), (e.root.toNat, 62, 1), (e.up.toNat, 48, 5), (e.lead.toNat, 40, 8), (e.down.toNat, 0, 32)]

/-- The time registers of FAB0 (R303, R304). -/
def TimeSt.fabWord (t : TimeSt) (o : Nat) : Word :=
  match o with
  | 0x00 => packReg [(t.epochSec.toNat, 32, 32), (t.remoteRtt.toNat, 21, 11), (t.siteInput.toNat, 17, 1), (t.candidate.toNat, 16, 1),
                     (t.address.toNat, 0, 16)]
  | 0x08 => packReg [(t.reference.toNat, 48, 16), (t.hops.toNat, 44, 4), (t.upstream.toNat, 39, 5), (t.offsetNs.toNat, 0, 32)]
  | 0x10 => t.periodAt
  | 0x18 => packReg [(t.nextUs.toNat, 0, 11)]
  | _ => 0

/-- A partition's reduction registers (R331, R332). -/
def Work.redWord (w : Work) (q : Fin 8) (o : Nat) : Word :=
  let e := w.red.events.get .zero q.val
  match o with
  | 0x00 => packReg [((w.part q).dyke.redQuota, 32, 15),
                     (w.red.ctxs.countP fun x => match x.2 with | some b => decide (b.q = q) | none => false, 0, 15)]
  | 0x08 => packReg [(coarse e.dropped.toNat, 40, 24), (coarse e.stale.toNat, 24, 16), (coarse e.retries.toNat, 12, 12),
                     (coarse e.failed.toNat, 0, 12)]
  | _ => 0

/-- The tables of FAB0, which FAB1 repeats (R294, R301-R304, R330-R332). -/
def State.readFabShared (s : State) (who : Fn) (o : Nat) : Word :=
  if 0x10000 ≤ o ∧ o < 0x30000 then
    let q := partFin ((o - 0x10000) / 0x4000)
    let i := o % 0x4000
    if !s.sees who q then 0
    else if i < 0x2000 then (s.w.fab.groupRoutes.get .zero (q.val * 1024 + i / 8)).reg
    else if i < 0x2200 then (s.w.fab.memberRoutes.get .zero (q.val * 64 + (i - 0x2000) / 8)).reg
    else 0
  else if 0x60000 ≤ o ∧ o < 0x68000 then
    let e := s.w.fab.mcast.get .zero ((o - 0x60000) / 8)
    if s.sees who (partFin e.part.toNat) then e.reg else 0
  else if 0x70000 ≤ o ∧ o < 0x70020 then s.w.time.fabWord (o - 0x70000)
  else if 0x71000 ≤ o ∧ o < 0x71100 then
    let k := (o - 0x71000) / 0x10
    if s.sees who (partFin (k / 2)) && decide (o % 0x10 = 0) then (s.w.red.nodes.get .zero k).reg else 0
  else if 0x72000 ≤ o ∧ o < 0x72100 then
    let q := partFin ((o - 0x72000) / 0x20)
    if s.sees who q then s.w.redWord q (o % 0x20) else 0
  else 0

/-- Block FABd (R294-R304, R330-R332, R372). -/
def State.readFab (s : State) (who : Fn) (d o : Nat) : Word :=
  if o < 0x1000 then
    let p := 16 * d + o / 0x100
    if s.seesPort who p then (s.w.port p).word (s.w.lambdasNow (portFin p)) (o % 0x100) else 0
  else if 0x40000 ≤ o ∧ o < 0x50000 then
    let i := o % 0x8000
    let p := 16 * d + i / 0x800
    let t := if o < 0x48000 then (s.w.port p).shadow else (s.w.port p).active
    if s.seesPort who p then (t.get .zero (i % 0x800 / 8)).reg else 0
  else s.readFabShared who o

/-- A context's state code (R70). -/
def CtxState.code : CtxState → Nat
  | .empty => 0
  | .loaded => 1
  | .running => 2
  | .waiting => 3
  | .paused => 4
  | .faulted => 5
  | .ended => 6
  | .absent => 7

/-- SLCn.CTX_STATUS (R104). -/
def Ctx.statusReg (k : Ctx) : Word :=
  packReg [(k.segment, 32, 32), (k.fault.code.toNat, 24, 8), (k.slack, 20, 4), (k.st.code, 0, 3)]
/-- SLCn.CTX_OVERRUN (R105): its count coarsened (R390); MAX_LATENESS is no count (DEDUCED, log entry 66). -/
def Ctx.overrunReg (k0 : Ctx) (t : TimeSt) : Word :=
  let k := k0.noteLate t
  packReg [(coarse (min k.overruns (2 ^ 32 - 1)), 32, 32), (min k.maxLateness (2 ^ 32 - 1), 0, 32)]

/-- A number saturated to a field. -/
def satNat (n w : Nat) : Nat := min n (2 ^ w - 1)

/-- SLCn.SPARE_MAP (R35). -/
def SliceSt.spareReg (x : SliceSt) : Word :=
  packReg ((List.range 4).flatMap fun k =>
    let p := x.spares.get .free k
    [(p.inUse.toNat, 8 * k + 7, 1), (p.failed.toNat, 8 * k + 6, 1), (p.core.toNat, 8 * k, 6)])

/-- A field for each of some cores of a slice; an absent core's reads 0 (R150-R152). -/
def Work.coreFields (w : Work) (n lo cnt width : Nat) (f : Core → Nat) : Word :=
  packReg ((List.range cnt).map fun i =>
    (if (w.slice n).coreAbsent.getLsbD (lo + i) then 0 else f (w.cores.get .zero (64 * n + lo + i)), width * i, width))

/-- SLCn.PEAT_LANE_A and B (R214). -/
def laneReg (l : List PeatEntry) : Word :=
  let res := l.foldl (fun n e => match e.place with | .resident => n + e.size | _ => n) 0
  let spl := l.foldl (fun n e => match e.place with | .resident => n | _ => n + e.size) 0
  packReg [(l.length, 48, 16), (spl, 22, 26), (res, 0, 22)]

/-- The job that holds the weight versions of a partition (R217): the lowest-numbered one with a Peat section or a weight pair. -/
def Work.versionJob (w : Work) (q : Fin 8) : Option (BitVec 16 × Job) :=
  (w.jobsOf q).findSome? fun j => (w.job q j).bind fun x => if x.peat.isSome || !x.weights.isEmpty then some (j, x) else none

/-- SLCn.VER_STATE and VER_REFS (R217, R218): with VALID 0 every field reads 0 (DESIGN CHOICE, log entry 136). -/
def Work.versionReg (w : Work) (n k : Nat) : Word :=
  match w.sliceOwner n with
  | none => 0
  | some q =>
    match w.versionJob q with
    | none => 0
    | some (j, x) =>
      if k = 0 then packReg [(x.step.toNat, 32, 32), (j.toNat, 16, 16), (1, 1, 1), (x.buf.toNat, 0, 1)]
      else packReg [(w.refs q j true, 32, 32), (w.refs q j false, 0, 32)]

/-- SLCn.VER_EVENTS (R219): its partition's counters, the same in every slice of it. -/
def Work.verEvents (w : Work) (n : Nat) : Word :=
  match w.sliceOwner n with
  | none => 0
  | some q => packReg [(coarse (w.part q).latePops.toNat, 40, 24), (coarse (w.part q).writeWaits.toNat, 16, 24)]

/-- SLCn.VFN_ROM (R186). -/
def romReg (o : Nat) : Word :=
  let f := o / 0x4000
  let e := romEntry f (o % 0x4000 / 16)
  if o % 16 < 8 then (BitVec.ofInt 32 e.2.1) ++ (BitVec.ofInt 32 e.1) else (BitVec.ofInt 32 e.2.2).setWidth 64

/-- Block SLCn but for contexts and ROM. -/
def Work.sliceWord (w : Work) (n o : Nat) : Word :=
  let x := w.slice n
  match o with
  | 0x000 => x.spareReg
  | 0x008 => x.coreAbsent
  | 0x100 => packReg [(coarse x.scale.raises.toNat, 40, 24), (coarse x.scale.lowers.toNat, 16, 24), (coarse x.scale.atLimit.toNat, 0, 16)]
  | 0x108 => packReg [(coarse x.scale.misses.toNat, 0, 32)]
  | 0x200 => w.coreFields n 0 32 2 fun k => k.bState.toNat
  | 0x208 => w.coreFields n 32 32 2 fun k => k.bState.toNat
  | 0x210 => w.coreFields n 0 64 1 fun k => k.sequential.toNat
  | 0x218 => packReg [(x.runtimeLosses.toNat, 8, 8), (x.bootLosses.toNat, 0, 8)]
  | 0x300 => packReg [(coarse x.accLong.toNat, 40, 24), (coarse x.accDeep.toNat, 16, 24), (coarse x.combineFails.toNat, 0, 16)]
  | 0x400 => packReg [(coarse x.laneSats.toNat, 32, 32), (coarse x.fnNars.toNat, 0, 32)]
  | 0x500 => laneReg x.peat.laneA
  | 0x508 => laneReg x.peat.laneB
  | 0x510 => packReg [(x.peat.spillPages.toNat, 50, 14), (x.peat.spillBase.toNat, 21, 27), (x.peat.spillDomain.toNat, 0, 6)]
  | 0x518 => packReg [(coarse x.peat.spills.toNat, 40, 24), (coarse x.peat.fetches.toNat, 16, 24), (coarse x.peat.popStalls.toNat, 0, 16)]
  | 0x600 => w.versionReg n 0
  | 0x608 => w.versionReg n 1
  | 0x610 => w.verEvents n
  | 0x618 => packReg [(coarse x.peat.holdFrames.toNat, 0, 32)]
  | 0x700 => x.stat.sumStep
  | 0x708 => BitVec.ofNat 64 (coarse x.stat.sumZeros.toNat)
  | 0x710 => BitVec.ofNat 64 (coarse x.stat.sumSats.toNat)
  | 0x718 => packReg [(coarse x.stat.sumFlagged.toNat, 32, 32), (coarse x.stat.sumNars.toNat, 0, 32)]
  | 0x720 => packReg [(coarse x.stat.evictions.toNat, 32, 32), (coarse x.stat.lost.toNat, 0, 32)]
  | _ => 0

/-- Block SLCn (R27, R35-R36, R64-R65, R104-R106, R150-R153, R174, R185-R186, R214-R219, R233-R234). -/
def State.readSlc (s : State) (who : Fn) (n o : Nat) : Word :=
  let ctx := fun (i : Nat) => s.w.ctxs.get .empty (256 * n + i)
  if !(s.seesSlice who n && s.sliceOpen n) then 0
  else if o < 0x1000 then s.w.sliceWord n o
  else if o < 0x1800 then (ctx ((o - 0x1000) / 8)).statusReg
  else if 0x2000 ≤ o ∧ o < 0x2800 then (ctx ((o - 0x2000) / 8)).overrunReg s.w.time
  else if 0x3000 ≤ o ∧ o < 0x4000 then
    let f := (ctx ((o - 0x3000) / 16)).fault
    if o % 16 < 8 then f.word0 else f.word1
  else if 0x10000 ≤ o ∧ o < 0x2C000 then romReg (o - 0x10000)
  else 0

/-- MEMs.TE_STATUS (R261). -/
def TestEngine.statusReg (t : TestEngine) : Word :=
  packReg [(t.overflow.toNat, 32, 16), (t.records.toNat, 16, 16), (t.result.toNat, 8, 8), (t.busy.toNat, 0, 1)]

/-- Block MEMs (R27, R254-R262): a virtual function reads the test engine as zero. -/
def State.readMem (s : State) (who : Fn) (i o : Nat) : Word :=
  let x := s.w.stack i
  if !(s.seesSlice who (i / 2) && s.sliceOpen (i / 2)) then 0
  else if 0x8000 ≤ o then (if physical who then BitVec.ofNat 64 (leNat (x.te.buf.readN (o - 0x8000) 8)) else 0)
  else if 0x100 ≤ o ∧ o < 0x200 then
    let e := x.pcErr.get .zero ((o - 0x100) / 8)
    packReg [(e.corrected.toNat, 32, 32), (e.uncorrectable.toNat, 16, 16), (e.soft.toNat, 8, 8), (e.hard.toNat, 0, 8)]
  else if 0x1000 ≤ o ∧ !physical who then 0
  else match o with
    | 0x0000 => packReg [(x.chFailed.toNat, 32, 16), (x.chMap.toNat, 16, 16), ((x.hot && decide (x.tRefi = 1950)).toNat, 3, 1), (x.trained.toNat, 1, 1), (x.present.toNat, 0, 1)]
    | 0x0008 => packReg [(x.refreshMode.toNat, 0, 1)]
    | 0x0010 => packReg [(x.corrected.toNat, 32, 32), (x.uncorrectable.toNat, 16, 16), (x.poisoned.toNat, 0, 16)]
    | 0x0020 => x.lastUe
    | 0x1000 => x.te.cmd
    | 0x1008 => x.te.arg0
    | 0x1010 => x.te.arg1
    | 0x1018 => x.te.statusReg
    | _ => 0

/-- The sluice window (R95-R99). -/
def State.readSlu (s : State) (who : Fn) (o : Nat) : Word :=
  let i := o / 64
  let x := s.w.sluice i
  if !(decide (i < 16384) && s.seesSluice who i) then 0
  else match o % 64 with
    | 0x00 => packReg [(x.target.toNat, 32, 32), (x.count.toNat, 0, 32)]
    | 0x08 => packReg [(x.home.toNat, 32, 16), (x.fabric.toNat, 17, 1), (x.declared.toNat, 16, 1), (x.gen.toNat, 0, 16)]
    | 0x18 => packReg [(coarse (satNat x.rearms 16), 16, 16), (coarse (satNat x.discards 16), 0, 16)]
    | _ => 0

/-- A register of the management window as a function reads it (R7, R26): `off` is a multiple of 8. -/
def State.readReg (s : State) (who : Fn) (off : Nat) : Word :=
  if off < 0x100000 then (if physical who then s.readCtl off else 0)
  else if off < 0x200000 then s.readPwr who (off - 0x100000)
  else if off < 0x300000 then s.readLog who (off - 0x200000)
  else if off < 0x400000 then s.readHif who (off - 0x300000)
  else if off < 0x500000 then s.readSec who (off - 0x400000)
  else if off < 0x600000 then s.readEls who (off - 0x500000)
  else if off < 0x700000 then s.readHlth who (off - 0x600000)
  else if off < 0x800000 then 0
  else if off < 0xC00000 then s.readFab who ((off - 0x800000) / 0x200000) ((off - 0x800000) % 0x200000)
  else if off < 0x1000000 then 0
  else if off < 0x2000000 then s.readSlc who ((off - 0x1000000) / 0x200000) (off % 0x200000)
  else if off < 0x2100000 then s.readMem who ((off - 0x2000000) / 0x10000) (off % 0x10000)
  else if off < 0x3000000 then 0
  else if off < 0x4000000 then s.readSlu who (off - 0x3000000)
  else 0

/-- The latch of FTIME's high half changed (R29). -/
def State.setLatch (s : State) (h : Option (BitVec 32)) : State := s.onW fun w => { w with time := { w.time with latch := h } }

/-- The bits of a register that are performance counters (R390). -/
def perfBits (off : Nat) : Word :=
  let low : Word := 0xFFFFFFFF
  if 0x1000000 ≤ off ∧ off < 0x2000000 then
    let o := off % 0x200000
    if 0x2000 ≤ o ∧ o < 0x2800 then ~~~low
    else if o = 0x108 ∨ o = 0x618 then low
    else if o = 0x610 then ~~~0xFFFF
    else if [0x100, 0x300, 0x400, 0x518, 0x708, 0x710, 0x718, 0x720].contains o then ~~~0
    else 0
  else if 0x800000 ≤ off ∧ off < 0xC00000 then
    let o := off % 0x200000
    if o < 0x1000 ∧ o % 0x100 = 0x28 then ~~~low else if 0x72000 ≤ o ∧ o < 0x72100 ∧ o % 0x20 = 8 then ~~~0 else 0
  else if 0x3000000 ≤ off ∧ off < 0x4000000 ∧ off % 64 = 0x18 then low
  else 0

/-- Where a function's latch of a register is kept (R389). -/
def latchKey (who : Fn) (off : Nat) : Nat := fnKey who * 2 ^ 26 + off

/-- A register as a function reads it (R389): its performance counters as that function latched them within the last ms of ftime, else as they
are now, and latched. -/
def State.readLatched (s : State) (who : Fn) (off : Nat) : Word × State :=
  let v := s.readReg who off
  let m := perfBits off
  if m = 0 then (v, s)
  else
    let fresh := (v, s.onW fun w => { w with host := { w.host with latches := w.host.latches.set none (latchKey who off) (some (v &&& m, w.time.ftime)) } })
    match s.w.host.latches.get none (latchKey who off) with
    | some (x, t) => if (s.w.time.ftime - t).toNat < 1000000 then ((v &&& ~~~m) ||| x, s) else fresh
    | none => fresh

/-- A function's read of the window: what it returns, and the state it leaves (R3, R29). Naturally aligned 64-bit and 32-bit reads
complete, any other returns zero. A 32-bit read of FTIME's low half latches its high half, and the next 32-bit read of the high half
returns what is latched and uses it up. -/
def State.readWindow (s : State) (who : Fn) (off size : Nat) : Word × State :=
  let r := s.readLatched who (off - off % 8)
  if size = 8 ∧ off % 8 = 0 then r
  else if size = 4 ∧ off % 8 = 0 then
    (r.1 &&& 0xFFFFFFFF,
      if off = 0x08 ∧ physical who = true then s.setLatch (some (s.w.time.ftime.extractLsb' 32 32)) else r.2)
  else if size = 4 ∧ off % 8 = 4 then
    match s.w.time.latch with
    | some h => if off = 0x0C ∧ physical who = true then (h.setWidth 64, s.setLatch none) else (r.1 >>> 32, r.2)
    | none => (r.1 >>> 32, r.2)
  else (0, s)

/-- A read's answer goes back to the function that asked (R3): Unsupported Request where the function's requests are not accepted
(R366, R392, R478), and nothing while the device has no supply (R532). -/
def State.answerRead (s : State) (who : Fn) (off size : Nat) : State :=
  if s.ctl.pins.off then s
  else if !s.fnOpen who then s.onW fun w => w.emit (.unsupported who)
  else
    let r := s.readWindow who off size
    r.2.onW fun w => w.emit (.reg who off r.1)

end Sys2Proof.Machine
end

