-- ==== Sys2Proof/Machine/Registers.lean ====
section
/-! DEFINITION. Writes of the management window, and the reads that act (R3-R7, R23, R29, R66, R98, R175, R185, R220, R234, R255-R260,
R277, R293-R304, R330, R333, R371, R372, R411, R433-R438, R461-R465, R495-R502). -/

namespace Sys2Proof.Machine

/-- The bits of a field that a write carries, over those it had (R3). -/
def mergeBits (old v m : Word) : Word := (old &&& ~~~m) ||| (v &&& m)

/-- Registers of slice n take a function's writes (R27, R392). -/
def State.sliceWritable (s : State) (who : Fn) (n : Nat) : Bool := s.seesSlice who n && s.sliceOpen n

/-- Counters of a slice cleared by a bit of a clear register (R175). -/
def State.clearSlice (s : State) (who : Fn) (n : Nat) (go : Bool) (f : SliceSt → SliceSt) : State :=
  if go && s.sliceWritable who n then s.onW fun w => w.updSlice n f else s

/-- What SCALE_CLEAR clears (R64-R66). -/
def SliceSt.clearScale (x : SliceSt) : SliceSt := { x with scale := { x.scale with raises := 0, lowers := 0, atLimit := 0, misses := 0 } }
/-- What ACC_CLEAR clears (R174, R175). -/
def SliceSt.clearAcc (x : SliceSt) : SliceSt := { x with accLong := 0, accDeep := 0, combineFails := 0 }
/-- What VEC_CLEAR clears (R185). -/
def SliceSt.clearVec (x : SliceSt) : SliceSt := { x with laneSats := 0, fnNars := 0 }
/-- What CLEAR_VER clears of the slice (R219, R220). -/
def SliceSt.clearHolds (x : SliceSt) : SliceSt := { x with peat := { x.peat with holdFrames := 0 } }
/-- What CLEAR_VER clears (R219, R220): the slice's hold frames, and the version events of its partition. -/
def Work.clearVer (w : Work) (n : Nat) : Work :=
  let w1 := w.updSlice n SliceSt.clearHolds
  match w.sliceOwner n with
  | some q => w1.updPart q fun p => { p with latePops := 0, writeWaits := 0 }
  | none => w1
/-- Version events cleared by a bit of SCHED_CLEAR (R220). -/
def State.clearVer (s : State) (who : Fn) (n : Nat) (go : Bool) : State :=
  if go && s.sliceWritable who n then s.onW fun w => w.clearVer n else s
/-- What CLEAR_PEAT clears (R216, R220). -/
def SliceSt.clearPeat (x : SliceSt) : SliceSt := { x with peat := { x.peat with spills := 0, fetches := 0, popStalls := 0 } }
/-- What STAT_CLEAR clears (R234). -/
def SliceSt.clearStat (x : SliceSt) : SliceSt := { x with stat := { x.stat with evictions := 0, lost := 0 } }

/-- SCALE_CLEAR (R66). -/
def execScaleClear (who : Fn) (n : Fin 8) (v : Word) (s : State) : Host.Outcome State Fault Refusal :=
  .next (s.request who fun s => s.clearSlice who n.val (v.getLsbD 0) SliceSt.clearScale)
/-- ACC_CLEAR (R175). -/
def execAccClear (who : Fn) (n : Fin 8) (v : Word) (s : State) : Host.Outcome State Fault Refusal :=
  .next (s.request who fun s => s.clearSlice who n.val (v.getLsbD 0) SliceSt.clearAcc)
/-- VEC_CLEAR (R185). -/
def execVecClear (who : Fn) (n : Fin 8) (v : Word) (s : State) : Host.Outcome State Fault Refusal :=
  .next (s.request who fun s => s.clearSlice who n.val (v.getLsbD 0) SliceSt.clearVec)
/-- CLEAR_VER (R220). -/
def execClearVer (who : Fn) (n : Fin 8) (v : Word) (s : State) : Host.Outcome State Fault Refusal :=
  .next (s.request who fun s => s.clearVer who n.val (v.getLsbD 1))
/-- CLEAR_PEAT (R220). -/
def execClearPeat (who : Fn) (n : Fin 8) (v : Word) (s : State) : Host.Outcome State Fault Refusal :=
  .next (s.request who fun s => s.clearSlice who n.val (v.getLsbD 0) SliceSt.clearPeat)
/-- STAT_CLEAR (R234). -/
def execStatClear (who : Fn) (n : Fin 8) (v : Word) (s : State) : Host.Outcome State Fault Refusal :=
  .next (s.request who fun s => s.clearSlice who n.val (v.getLsbD 0) SliceSt.clearStat)

/-- A stack's registers take a function's writes: a virtual function's are ignored (R254). -/
def State.stackWritable (s : State) (who : Fn) (i : Nat) : Bool := physical who && s.sliceOpen (i / 2)

/-- What ERR_CLEAR clears (R256-R258). -/
def Stack.clearErrors (x : Stack) : Stack :=
  { x with corrected := 0, uncorrectable := 0, poisoned := 0, lastUe := 0
           pcErr := (x.pcErr.map fun e => (e.1, { e.2 with corrected := 0, uncorrectable := 0 })).filter fun e => decide (e.2 ≠ .zero) }

/-- Errors of a stack cleared. -/
def State.clearStack (s : State) (who : Fn) (i : Nat) (go : Bool) : State :=
  if go && s.stackWritable who i then s.onW fun w => w.updStack i Stack.clearErrors else s
/-- ERR_CLEAR (R256). -/
def execErrClear (who : Fn) (s : Fin 16) (v : Word) (st : State) : Host.Outcome State Fault Refusal :=
  .next (st.request who fun st => st.clearStack who s.val (v.getLsbD 0))

/-- Errors of a port cleared (R297, R372). -/
def State.clearPort (s : State) (who : Fn) (p : Nat) (go : Bool) : State :=
  if go && physical who then
    s.onW fun w => w.updPort p fun y => { y with corrected := 0, uncorrectable := 0, flitErrors := 0, misses := 0, authFails := 0 }
  else s
/-- PORT_CLEAR (R297, R372). -/
def execPortClear (who : Fn) (p : Fin 32) (v : Word) (s : State) : Host.Outcome State Fault Refusal :=
  .next (s.request who fun s => s.clearPort who p.val (v.getLsbD 0))

/-- Reduction events of a partition cleared (R333). -/
def State.clearRed (s : State) (who : Fn) (q : Fin 8) (go : Bool) : State :=
  if go && physical who then s.onW fun w => w.updRedEv q fun _ => .zero else s
/-- RED_CLEAR (R333). -/
def execRedClear (who : Fn) (q : Fin 8) (v : Word) (s : State) : Host.Outcome State Fault Refusal :=
  .next (s.request who fun s => s.clearRed who q (v.getLsbD 0))

/-- Integrity counters of a partition cleared (R371). -/
def State.clearIntegrity (s : State) (who : Fn) (q : Fin 8) (go : Bool) : State :=
  if go && s.sees who q then
    s.onW fun w => w.updPart q fun p => { p with tagFails := 0, partialRefused := 0, treeRepairs := 0, treeLosses := 0 }
  else s
/-- INTEGRITY_CLEAR (R371). -/
def execIntegrityClear (who : Fn) (q : Fin 8) (v : Word) (s : State) : Host.Outcome State Fault Refusal :=
  .next (s.request who fun s => s.clearIntegrity who q (v.getLsbD 0))

/-- The partition that holds a sluice (R95). -/
def Work.sluicePart (w : Work) (i : Nat) : Option (Fin 8) :=
  allParts.find? fun q => (w.part q).dyke.valid && (w.part q).dyke.sluices.getLsbD (i / 64)

/-- The job of the program that declares a sluice (R98). -/
def Work.sluiceJob (w : Work) (q : Fin 8) (i : Nat) : BitVec 16 :=
  match (w.sluice i).owners.head? with
  | some k => ((w.prog q (BitVec.ofNat 32 k)).map (·.job)).getD 0
  | none => 0

/-- A signal from the host (R95, R98): as `sl.sig` on this device; ignored while the sluice is not declared. -/
def State.signalSluice (s : State) (who : Fn) (i : Nat) (v : Word) : State :=
  match s.w.sluicePart i with
  | some q =>
    if s.seesSluice who i && (s.w.sluice i).declared then
      s.onW fun w => w.issueSluice q (w.sluiceJob q i) i (.signal (v.extractLsb' 48 16) (v.extractLsb' 0 32))
        (partFin ((w.slicesOf q).head?.getD 0)) 4096
    else s
  | none => s
/-- SLU_SIGNAL_WRITE (R95, R98). -/
def execSluSignalWrite (who : Fn) (sl : BitVec 14) (v : Word) (s : State) : Host.Outcome State Fault Refusal :=
  .next (s.request who fun s => s.signalSluice who sl.toNat v)

/-- ENABLE of a port (R270, R295, R410, R411): 1 lets it start where there is light, 0 fences and drains it and leaves it DARK. -/
def State.enablePort (s : State) (who : Fn) (p : Fin 32) (on : Bool) : State :=
  if !physical who || decide ((s.w.port p.val).enable = on) then s
  else s.onW fun w =>
    let w1 := w.updPort p.val fun y => { y with enable := on, drainOf := [] }
    if on then w1.portStart p.val else w1.drainPort p
/-- PORT_ENABLE (R270, R295). -/
def execPortEnable (who : Fn) (p : Fin 32) (s : State) : Host.Outcome State Fault Refusal := .next (s.request who fun s => s.enablePort who p true)
/-- PORT_DISABLE (R295, R410). -/
def execPortDisable (who : Fn) (p : Fin 32) (s : State) : Host.Outcome State Fault Refusal := .next (s.request who fun s => s.enablePort who p false)

/-- SLOT_CTL as written (R280, R299). -/
def State.writeSlotCtl (s : State) (who : Fn) (p : Nat) (cycle : BitVec 2) (commit : Bool) : State :=
  if physical who then s.onW fun w => w.updPort p fun y => { y with cycle := cycle, commitPending := y.commitPending || commit } else s
/-- SLOT_COMMIT (R4, R280, R299): CYCLE as written; with bit 9 the shadow tables are to become active at the next tick. -/
def execSlotCommit (who : Fn) (p : Fin 32) (v : Word) (s : State) : Host.Outcome State Fault Refusal :=
  .next (s.request who fun s => s.writeSlotCtl who p.val (v.extractLsb' 0 2) (v.getLsbD 9))

/-- A request for a change of P on the reference (R23, R293): refused and logged where AT is less than 100 ms ahead. -/
def Work.requestPeriod (w : Work) : Work :=
  let t := w.time
  if !t.refHolder then w
  else if t.periodAt.toNat < t.ftime.toNat + 100000000 then
    w.logEv (unitId 3 0 0xFF) 0x07FF 2 0xFF (t.nextUs.toNat + t.periodAt.toNat * 2 ^ 64)
  else w.announceP t.nextUs.toNat t.periodAt
/-- TIME_PERIOD_REQ as written (R304). -/
def State.writePeriodReq (s : State) (who : Fn) (us : BitVec 11) (go : Bool) : State :=
  if physical who then
    s.onW fun w =>
      let w1 : Work := { w with time := { w.time with nextUs := us } }
      if go then w1.requestPeriod else w1
  else s
/-- TIME_PERIOD_REQ (R293, R304). -/
def execTimePeriodReq (who : Fn) (v : Word) (s : State) : Host.Outcome State Fault Refusal :=
  .next (s.request who fun s => s.writePeriodReq who (v.extractLsb' 0 11) (v.getLsbD 63))

/-- FTIME_LOW_READ (R29): the high half is latched. A function that does not see CTL reads zero (R7). -/
def execFtimeLowRead (who : Fn) (s : State) : Host.Outcome State Fault Refusal :=
  .next (s.answerRead who 0x08 4)

/-- The offset of the status field of a unit (R411). -/
def statusOffset : StatusUnit → Nat
  | .port p => 0x800000 + p.val / 16 * 0x200000 + p.val % 16 * 0x100 + 0x08
  | .queues f => 0x300000 + fnKey f * 0x1000 + 0x18
  | .fence => 0x600208
  | .socket k => 0x500000 + k.val * 0x100

/-- A unit still drains, and the read of its status is held (R411). -/
def State.stillDrains (s : State) : StatusUnit → Bool
  | .port p => s.w.portBusy p.val
  | .queues f => (s.w.queuesOf f).any fun k => match s.w.queue f k with | some q => q.draining | none => false
  | .fence => decide (s.ctl.fence.st = 1)
  | .socket k => decide ((s.ctl.laser k.val).st = 4)

/-- DISABLE_STATUS_READ (R411): answered once the unit has no work in flight; until then no answer leaves (DESIGN CHOICE, log entry
56). A function that is not served gets Unsupported Request at once (R366, R392, R478). -/
def execDisableStatusRead (who : Fn) (unit : StatusUnit) (s : State) : Host.Outcome State Fault Refusal :=
  let s1 := s.settleDrains
  let o := statusOffset unit
  .next (if s.fnOpen who && s1.stillDrains unit then s1 else s1.answerRead who o 8)

/-- A bit of a write. -/
def bitIn (v m : Word) (i : Nat) : Bool := (v &&& m).getLsbD i

/-- Writes to block CTL (R495-R497). PATCH_CMD is RWB (R4); of a word that sets both COMMIT and ERASE, COMMIT acts alone (DESIGN CHOICE, log
entry 120). -/
def State.writeCtl (s : State) (o : Nat) (v m : Word) : State :=
  let old := s.readCtl o
  if 0x80000 ≤ o then
    if s.ctl.boot.bringup && !s.ctl.dyke.locked then
      s.onCtl fun c => { c with boot := { c.boot with
        patchBuf := c.boot.patchBuf.writeN (o - 0x80000) (leBytes 8 (mergeBits old v m).toNat) } }
    else s
  else if o = 0x48 then s.onCtl fun c => { c with boot := { c.boot with bringupNext := (mergeBits old v m).getLsbD 0 } }
  else if o = 0x58 then
    if !s.ctl.rwb then s
    else if bitIn v m 0 then s.onCtl fun c => { c with boot := c.boot.commitPatch }
    else if bitIn v m 1 then s.onCtl fun c => { c with boot := c.boot.erasePatch } else s
  else s

/-- MAX_POINT as written (R499): 3 stores 2. -/
def maxPointOf (v : Word) : BitVec 2 := if v.extractLsb' 4 2 = 3 then 2 else v.extractLsb' 4 2

/-- WATTS as written (R486): clamped to 1,200 to 2,400. -/
def wattsOf (v : Word) : BitVec 12 := BitVec.ofNat 12 (max 1200 (min (bitsOf v.toNat 0 12) 2400))

/-- Writes to block PWR (R499, R501). -/
def State.writePwr (s : State) (who : Fn) (o : Nat) (v m : Word) : State :=
  let n := mergeBits (s.readPwr who o) v m
  if o = 0x08 then s.onCtl fun c => { c with pwr := { c.pwr with maxPoint := maxPointOf n } }
  else if o = 0x10 then s.onCtl fun c => { c with pwr := { c.pwr with watts := wattsOf n } }
  else if o = 0x40 ∧ bitIn v m 0 = true then
    s.onCtl fun c => { c with pwr := { c.pwr with capUnmet := 0, pointChanges := 0, throttles := 0, dips := 0, minMv := 0xFFFF } }
  else s

/-- ALERT cleared by a 1 (R502). -/
def State.clearAlert (s : State) (go : Bool) : State :=
  if go then s.onW fun w => { w with log := { w.log with alert := false } } else s

/-- Writes to block LOG (R502). -/
def State.writeLog (s : State) (who : Fn) (o : Nat) (v m : Word) : State :=
  let old := s.readLog who o
  if o = 0 then s.clearAlert (bitIn v m 0)
  else if o = 8 then s.onW fun w => { w with log := { w.log with window := (mergeBits old v m).getLsbD 0 } }
  else s

/-- Writes to a function's page (R461-R464): ring addresses only while ENABLE is 0. -/
def State.writeFnPage (s : State) (f : Fn) (o : Nat) (v m : Word) : State :=
  let n := mergeBits (s.w.readFnPage f o) v m
  let idle := !(s.w.fn f).enable
  match o with
  | 0x00 => if idle then s.onW fun w => w.updFn f fun x => { x with aqSq := n &&& ~~~0xFFF } else s
  | 0x08 => if idle then s.onW fun w => w.updFn f fun x => { x with aqCq := n &&& ~~~0xFFF } else s
  | 0x10 => if idle then s.onW fun w => w.updFn f fun x => { x with aqAck := n &&& ~~~7 } else s
  | 0x18 =>
    if n.getLsbD 63 then s.onW fun w => w.enableAq f n
    else s.onW fun w => (w.disableFn f).updFn f fun x => { x with aq := aqWritten x.cfgEff n }
  | 0x28 => s.onW fun w => w.updFn f fun x => { x with event := x.event &&& ~~~((v &&& m).setWidth 6) }
  | _ => s

/-- Writes to block HIF (R461-R465). -/
def State.writeHif (s : State) (who : Fn) (o : Nat) (v m : Word) : State :=
  if o < 0x20000 then
    let f := fnOfKey (o / 0x1000)
    if physical who || decide (who = f) then s.writeFnPage f (o % 0x1000) v m else s
  else if physical who && decide (o < 0x20100) then
    let f := fnOfKey ((o - 0x20000) / 8)
    let c := fnCfgWritten (mergeBits (s.w.fn f).cfg.reg v m)
    if s.w.cfgOk f c then s.onW fun w => w.updFn f fun x => { x with cfg := c } else s
  else s

/-- Writes to block HLTH (R433-R438): by physical functions. A 32-bit write of FENCE's high half acts on the unit that its missing low
half gives as zero, which is unit 0 (DESIGN CHOICE, log entry 67). -/
def State.writeHlth (s : State) (who : Fn) (o : Nat) (v m : Word) : State :=
  let n := mergeBits (s.readHlth who o) v m
  if o = 0 then
    s.onCtl fun c => { c with health := { c.health with
      migrateReq := c.health.migrateReq && !bitIn v m 17, ckptReq := c.health.ckptReq && !bitIn v m 16 } }
  else if o = 0x10 then s.onCtl fun c => { c with health := { c.health with weights := leBytes 7 n.toNat } }
  else if o = 0x18 then
    let t1 : Byte := n.extractLsb' 0 8
    let t2 : Byte := n.extractLsb' 8 8
    if t1.toNat < t2.toNat then s.onCtl fun c => { c with health := { c.health with t1 := t1, t2 := t2 } } else s
  else if o = 0x200 ∧ bitIn v m 63 = true then
    let u : BitVec 16 := (v &&& m).extractLsb' 0 16
    let a : BitVec 2 := (v &&& m).extractLsb' 54 2
    if a = 2 then s.returnUnit u else if a = 3 then s else s.fenceUnit u a
  else s

/-- PORT_CFG as written (R295). -/
def State.writePortCfg (s : State) (who : Fn) (p : Fin 32) (n : Word) : State :=
  let s1 := s.onW fun w => w.updPort p.val fun y =>
    let z := { y with asymNs := n.extractLsb' 48 16 }
    if s.ctl.rwb then { z with rttUs := n.extractLsb' 26 11, longHaul := n.getLsbD 1 } else z
  s1.enablePort who p (n.getLsbD 0)

/-- Writes to a port's registers (R295-R299, R372). -/
def State.writePortReg (s : State) (who : Fn) (p : Fin 32) (o : Nat) (v m : Word) : State :=
  let n := mergeBits ((s.w.port p.val).word (s.w.lambdasNow p) o) v m
  match o with
  | 0x00 => s.writePortCfg who p n
  | 0x18 => s.clearPort who p.val (bitIn v m 0)
  | 0x20 =>
    if s.ctl.rwb then
      s.onW fun w => w.updPort p.val fun y =>
        { y with mereSize := n.extractLsb' 54 6, mereDomain := n.extractLsb' 48 6, mereBase := n.extractLsb' 24 24 }
    else s
  | 0x28 => s.writeSlotCtl who p.val (n.extractLsb' 0 2) (bitIn v m 9)
  | 0x30 =>
    let i : BitVec 16 := n.extractLsb' 32 16
    let s1 := s.onW fun w => w.updPort p.val fun y => y.setInterval i
    if bitIn v m 0 then s1.rekeyLink p else s1
  | _ => s

/-- A slot entry from its word (R300). -/
def SlotEnt.ofReg (n : Word) : SlotEnt := ⟨n.getLsbD 63, n.extractLsb' 20 20, n.extractLsb' 0 20⟩
/-- A routing entry that the host writes (R277, R301): HOST is set. -/
def Route.ofReg (n : Word) : Route :=
  ⟨n.getLsbD 63, true, n.extractLsb' 20 2, n.extractLsb' 0 5, n.extractLsb' 5 5, n.extractLsb' 10 5, n.extractLsb' 15 5⟩
/-- A multicast entry from its word (R302). -/
def McastEnt.ofReg (n : Word) : McastEnt := ⟨n.getLsbD 63, n.extractLsb' 53 3, n.getLsbD 52, n.extractLsb' 32 16, n.extractLsb' 0 32⟩
/-- A reduction node from its word (R330). -/
def RedNode.ofReg (n : Word) : RedNode := ⟨n.getLsbD 63, n.getLsbD 62, n.extractLsb' 48 5, n.extractLsb' 40 8, n.extractLsb' 0 32⟩

/-- The fabric's state changed. -/
def State.onFab (s : State) (f : FabSt → FabSt) : State := s.onW fun w => { w with fab := f w.fab }

/-- Writes to the tables of FAB0 (R294, R301-R304, R330, R333). -/
def State.writeFabShared (s : State) (who : Fn) (o : Nat) (v m : Word) : State :=
  let n := mergeBits (s.readFabShared who o) v m
  if 0x10000 ≤ o ∧ o < 0x30000 then
    let q := (o - 0x10000) / 0x4000
    let i := o % 0x4000
    if i < 0x2000 then s.onFab fun f => { f with groupRoutes := f.groupRoutes.set .zero (q * 1024 + i / 8) (.ofReg n) }
    else if i < 0x2200 then s.onFab fun f => { f with memberRoutes := f.memberRoutes.set .zero (q * 64 + (i - 0x2000) / 8) (.ofReg n) }
    else s
  else if 0x60000 ≤ o ∧ o < 0x68000 then s.onFab fun f => { f with mcast := f.mcast.set .zero ((o - 0x60000) / 8) (.ofReg n) }
  else if o = 0x70000 then
    s.onW fun w => { w with time := { w.time with epochSec := n.extractLsb' 32 32, remoteRtt := n.extractLsb' 21 11 } }
  else if o = 0x70010 then s.onW fun w => { w with time := { w.time with periodAt := n } }
  else if o = 0x70018 then s.writePeriodReq who (n.extractLsb' 0 11) (bitIn v m 63)
  else if 0x71000 ≤ o ∧ o < 0x71100 ∧ o % 0x10 = 0 then
    s.onW fun w => { w with red := { w.red with nodes := w.red.nodes.set .zero ((o - 0x71000) / 0x10) (.ofReg n) } }
  else if 0x72000 ≤ o ∧ o < 0x72100 ∧ o % 0x20 = 0x10 then s.clearRed who (partFin ((o - 0x72000) / 0x20)) (bitIn v m 0)
  else s

/-- Writes to block FABd (R294-R304): by physical functions. -/
def State.writeFab (s : State) (who : Fn) (d o : Nat) (v m : Word) : State :=
  if o < 0x1000 then s.writePortReg who (portFin (16 * d + o / 0x100)) (o % 0x100) v m
  else if 0x40000 ≤ o ∧ o < 0x48000 then
    let p := 16 * d + o % 0x8000 / 0x800
    let k := o % 0x800 / 8
    let n := mergeBits ((s.w.port p).shadow.get .zero k).reg v m
    s.onW fun w => w.updPort p fun y => { y with shadow := y.shadow.set .zero k (.ofReg n) }
  else s.writeFabShared who o v m

/-- Writes to block SLCn: the clear registers (R66, R175, R185, R220, R234). -/
def State.writeSlc (s : State) (who : Fn) (n o : Nat) (v m : Word) : State :=
  match o with
  | 0x110 => s.clearSlice who n (bitIn v m 0) SliceSt.clearScale
  | 0x308 => s.clearSlice who n (bitIn v m 0) SliceSt.clearAcc
  | 0x408 => s.clearSlice who n (bitIn v m 0) SliceSt.clearVec
  | 0x620 => (s.clearVer who n (bitIn v m 1)).clearSlice who n (bitIn v m 0) SliceSt.clearPeat
  | 0x728 => s.clearSlice who n (bitIn v m 0) SliceSt.clearStat
  | _ => s

/-- The test engine's registers changed. -/
def State.updTe (s : State) (i : Nat) (f : TestEngine → TestEngine) : State := s.onW fun w => w.updStack i fun x => { x with te := f x.te }

/-- The fields of TE_CMD that are kept (R259): START reads 0, reserved parts are zero. -/
def teCmdKept (v : Word) : Word := v &&& 0xF0FFFF

/-- The fields of TE_ARG0 that are kept (R260). -/
def teArg0Kept (v : Word) : Word := v &&& 0x3FFF01FF3FFF

/-- Writes to block MEMs (R255-R262): the test engine's only in bring-up mode; its commands are commands of their own. -/
def State.writeMem (s : State) (who : Fn) (i o : Nat) (v m : Word) : State :=
  let n := mergeBits (s.readMem who i o) v m
  let te := s.ctl.boot.bringup && s.ctl.rwb
  if !s.stackWritable who i then s
  else if 0x8000 ≤ o then (if te then s.updTe i fun t => { t with buf := t.buf.writeN (o - 0x8000) (leBytes 8 n.toNat) } else s)
  else match o with
    | 0x0008 => s.onW fun w => w.updStack i fun x => { x with refreshMode := n.getLsbD 0 }
    | 0x0018 => s.clearStack who i (bitIn v m 0)
    | 0x1000 => if te then s.updTe i fun t => { t with cmd := teCmdKept n } else s
    | 0x1008 => if te then s.updTe i fun t => { t with arg0 := teArg0Kept n } else s
    | 0x1010 => if te then s.updTe i fun t => { t with arg1 := n } else s
    | _ => s

/-- A planned release of a laser socket begins by a write (R512, R513). -/
def State.writeEls (s : State) (who : Fn) (o : Nat) (v m : Word) : State :=
  if o % 0x100 = 0 ∧ o < 0x400 ∧ bitIn v m 8 = true then s.releaseSocket who ⟨o / 0x100 % 4, Nat.mod_lt _ (by decide)⟩ else s

/-- The bits `m` of a register are written with `v` (R3-R7, R26). -/
def State.writeReg (s : State) (who : Fn) (off : Nat) (v m : Word) : State :=
  let pf := physical who
  if off < 0x100000 then (if pf then s.writeCtl off v m else s)
  else if off < 0x200000 then (if pf then s.writePwr who (off - 0x100000) v m else s)
  else if off < 0x300000 then (if pf then s.writeLog who (off - 0x200000) v m else s)
  else if off < 0x400000 then s.writeHif who (off - 0x300000) v m
  else if off < 0x500000 then
    if 0x403040 ≤ off ∧ off < 0x403080 then s.clearIntegrity who (partFin ((off - 0x403040) / 8)) (bitIn v m 0) else s
  else if off < 0x600000 then s.writeEls who (off - 0x500000) v m
  else if off < 0x700000 then (if pf then s.writeHlth who (off - 0x600000) v m else s)
  else if 0x800000 ≤ off ∧ off < 0xC00000 then
    (if pf then s.writeFab who ((off - 0x800000) / 0x200000) ((off - 0x800000) % 0x200000) v m else s)
  else if 0x1000000 ≤ off ∧ off < 0x2000000 then s.writeSlc who ((off - 0x1000000) / 0x200000) (off % 0x200000) v m
  else if 0x2000000 ≤ off ∧ off < 0x2100000 then s.writeMem who ((off - 0x2000000) / 0x10000) (off % 0x10000) v m
  else if 0x3000000 ≤ off ∧ off < 0x3100000 then
    (if off % 64 = 0x10 then s.signalSluice who ((off - 0x3000000) / 64) (v &&& m) else s)
  else s

/-- The register, the bits and the lanes of a memory write (R3): naturally aligned 32-bit and 64-bit writes; a 32-bit write touches its
half alone. -/
def writeLanes (o size : Nat) (v : Word) : Option (Nat × Word × Word) :=
  if size = 8 ∧ o % 8 = 0 then some (o, v, BitVec.allOnes 64)
  else if size = 4 ∧ o % 8 = 0 then some (o, v &&& 0xFFFFFFFF, 0xFFFFFFFF)
  else if size = 4 ∧ o % 8 = 4 then some (o - 4, (v &&& 0xFFFFFFFF) <<< (32 : Nat), 0xFFFFFFFF00000000)
  else none

end Sys2Proof.Machine
end

