-- ==== Sys2Proof/Machine/TestEngine.lean ====
section
/-! DEFINITION. The memory test engine's commands (R250-R253, R259-R262). -/

namespace Sys2Proof.Machine

/-- The fields of a command's registers (R259, R260). -/
def teOpcode (cmd : Word) : Nat := bitsOf cmd.toNat 0 8
/-- PC. -/
def tePc (cmd : Word) : Nat := bitsOf cmd.toNat 8 8
/-- PATTERN. -/
def tePattern (cmd : Word) : Nat := bitsOf cmd.toNat 20 4
/-- ROW. -/
def TestEngine.row (t : TestEngine) : Nat := bitsOf t.arg0.toNat 0 14
/-- SID. -/
def TestEngine.sid (t : TestEngine) : Nat := bitsOf t.arg0.toNat 16 4
/-- BANK. -/
def TestEngine.bank (t : TestEngine) : Nat := bitsOf t.arg0.toNat 20 4
/-- GRANULE. -/
def TestEngine.granule (t : TestEngine) : Nat := bitsOf t.arg0.toNat 24 1
/-- ROW_END. -/
def TestEngine.rowEnd (t : TestEngine) : Nat := bitsOf t.arg0.toNat 32 14

/-- A bank of a stack: pseudo-channel, SID, physical bank. -/
def teBank (pc sid bank : Nat) : Nat := (pc * 3 + sid) * 16 + bank
/-- The bank that a command names. -/
def TestEngine.bankKey (t : TestEngine) (cmd : Word) : Nat := teBank (tePc cmd) t.sid t.bank
/-- The granule that a command names. -/
def TestEngine.granuleKey (t : TestEngine) (cmd : Word) : Nat := t.bankKey cmd * 32768 + t.row * 2 + t.granule

/-- A command that names one pseudo-channel and a location names ones that exist (R259, R260). -/
def TestEngine.placeOk (t : TestEngine) (cmd : Word) : Bool := decide (tePc cmd < 32 ∧ t.sid < 3)

/-- A command of the test engine is taken (R27, R250, R253, R254, R478): START is 1, the engine does not run, the device is in bring-up
mode before the lock, and the function is served and may write the block. -/
def State.teTakes (s : State) (who : Fn) (i : Nat) (start : Bool) : Bool :=
  start && s.fnOpen who && s.ctl.boot.bringup && s.ctl.rwb && s.stackWritable who i && !(s.w.stack i).te.busy

/-- START (R253, R261): the fields are kept, the records of the last command are gone, and the engine runs; `res` is the RESULT
that the command ends with. What a command does is taken to be done at its START (DESIGN CHOICE, log entry 57). -/
def TestEngine.begin_ (t : TestEngine) (cmd : Word) (res : Byte) : TestEngine :=
  { t with cmd := teCmdKept cmd, overflow := 0, records := 0, busy := true, doneResult := res }

/-- A command that completes at once (R253). -/
def TestEngine.reject (t : TestEngine) (cmd : Word) (res : Byte) : TestEngine :=
  { t with cmd := teCmdKept cmd, overflow := 0, records := 0, result := res }

/-- Records enter the buffer, up to 2,048 (R261, R262). -/
def TestEngine.record (t : TestEngine) (l : List (Word × Word)) : TestEngine :=
  let kept := l.take 2048
  { t with
    records := BitVec.ofNat 16 kept.length, overflow := satAdd 0 (l.length - 2048)
    buf := t.buf.writeN 0 (kept.flatMap fun e => leBytes 8 e.1.toNat ++ leBytes 8 e.2.toNat) }

/-- A command with the opcode named runs on a stack: arguments out of range end with 0x01, an absent stack with 0x05 (R253,
R259-R261). -/
def State.teRun (s : State) (who : Fn) (i op : Nat) (cmd : Word) (argsOk : TestEngine → Bool) (f : Work → Work) : State :=
  if s.teTakes who i (cmd.getLsbD 63) && decide (teOpcode cmd = op) then
    let x := s.w.stack i
    if !argsOk x.te then s.updTe i fun t => t.reject cmd 0x01
    else if !x.present then s.updTe i fun t => t.reject cmd 0x05
    else s.onW f
  else s

/-- The test engine of a stack and its repair counts change. -/
def Work.updTest (w : Work) (i : Nat) (f : TestEngine → TestEngine) : Work := w.updStack i fun x => { x with te := f x.te }

/-- A failure record of TRAIN (R253, R262): ROW 0x3FFF and the channel's first pseudo-channel; what else it holds the spec does not
state, and is free. -/
def trainRecord (j : Nat) (a b : Word) : Word × Word :=
  ((a &&& ~~~(0x1FFF81F : Word)) ||| BitVec.ofNat 64 (0x3FFF * 2 ^ 11 + 2 * j), b)

/-- The records of the channels that failed training. -/
def Work.trainRecords (w : Work) : List Nat → List (Word × Word) × Work
  | [] => ([], w)
  | j :: js =>
    let (a, w1) := w.draw
    let (b, w2) := w1.draw
    let (l, w3) := Work.trainRecords w2 js
    (trainRecord j a b :: l, w3)

/-- TRAIN of a stack (R253). -/
def Work.runTrain (w : Work) (i : Nat) (cmd : Word) (failed : BitVec 16) : Work :=
  let js := (List.range 16).filter fun j => failed.getLsbD j
  let (l, w1) := w.trainRecords js
  w1.updTest i fun t => (t.begin_ cmd (if js.isEmpty then 0x00 else 0x06)).record l

/-- TRAIN (R253): the row carries no register word; the other fields of TE_CMD stay as they were. -/
def execTeTrain (who : Fn) (s : Fin 16) (failed : BitVec 16) (st : State) : Host.Outcome State Fault Refusal :=
  let cmd : Word := ((st.w.stack s.val).te.cmd &&& ~~~(0xFF : Word)) ||| (0x8000000000000001 : Word)
  .next (st.teRun who s.val 0x01 cmd (fun _ => true) fun w => w.runTrain s.val cmd failed)

/-- MARCH names pseudo-channels, rows and a pattern that exist (R259, R260). -/
def TestEngine.marchOk (t : TestEngine) (cmd : Word) : Bool :=
  decide ((tePc cmd < 32 ∨ tePc cmd = 0xFF) ∧ tePattern cmd ≤ 5 ∧ t.row ≤ t.rowEnd)

/-- A granule lies in the rows that MARCH writes. -/
def TestEngine.marched (t : TestEngine) (cmd : Word) (key : Nat) : Bool :=
  let row := key % 32768 / 2
  decide ((tePc cmd = 0xFF ∨ key / 32768 / 48 = tePc cmd) ∧ t.row ≤ row ∧ row ≤ t.rowEnd)

/-- MARCH of a stack (R253, R262): a record per failing word that it finds; what its last write leaves in the array the spec does
not state. -/
def Work.runMarch (w : Work) (i : Nat) (cmd : Word) (found : List (Word × Word)) : Work :=
  w.updTest i fun t =>
    let u := (t.begin_ cmd (if found.isEmpty then 0x00 else 0x04)).record found
    { u with raw := u.raw.filter fun e => !t.marched cmd e.1 }

/-- MARCH (R253). -/
def execTeMarch (who : Fn) (s : Fin 16) (v : Word) (found : List (Word × Word)) (st : State) : Host.Outcome State Fault Refusal :=
  .next (st.teRun who s.val 0x02 v (fun t => t.marchOk v) fun w => w.runMarch s.val v found)

/-- RAW_WRITE (R253): ARG1 in every word of the granule. -/
def execTeRawWrite (who : Fn) (s : Fin 16) (v : Word) (st : State) : Host.Outcome State Fault Refusal :=
  .next (st.teRun who s.val 0x03 v (fun t => t.placeOk v) fun w => w.updTest s.val fun t =>
    { t.begin_ v 0x00 with raw := t.raw.put (t.granuleKey v) t.arg1 })

/-- `n` free values. -/
def Work.draws (w : Work) : Nat → List Word × Work
  | 0 => ([], w)
  | n + 1 =>
    let (a, w1) := w.draw
    let (l, w2) := Work.draws w1 n
    (a :: l, w2)

/-- RAW_READ of a stack (R253): 64 data words at offset 0 of the buffer and 64 check bytes at 0x200. What a granule that was not
written raw holds, and the check bits of the stack's code, the spec does not state. -/
def Work.runRawRead (w : Work) (i : Nat) (cmd : Word) : Work :=
  let t := (w.stack i).te
  let (free, w1) := w.draws 64
  let (check, w2) := w1.draws 8
  let data := match t.raw.find? fun e => decide (e.1 = t.granuleKey cmd) with
    | some e => List.replicate 64 e.2
    | none => free
  w2.updTest i fun t =>
    let u := t.begin_ cmd 0x00
    { u with buf := (u.buf.writeN 0 (data.flatMap fun x => leBytes 8 x.toNat)).writeN 0x200 (check.flatMap fun x => leBytes 8 x.toNat) }

/-- RAW_READ (R253). -/
def execTeRawRead (who : Fn) (s : Fin 16) (v : Word) (st : State) : Host.Outcome State Fault Refusal :=
  .next (st.teRun who s.val 0x04 v (fun t => t.placeOk v) fun w => w.runRawRead s.val v)

/-- The hard repairs left in a bank (R253, R262; DESIGN CHOICE, log entry 40). -/
def TestEngine.hardLeft (t : TestEngine) (i key : Nat) : Nat := min 15 (Config.hardBudget i key - t.hardSpent.get 0 key)

/-- The budget record of a pseudo-channel and SID (R262). -/
def TestEngine.budget (t : TestEngine) (i pc sid : Nat) : Word × Word :=
  let banks := List.range 16
  (packReg ((sid, 5, 2) :: (pc, 0, 5) :: banks.map fun b => ((t.soft.get false (teBank pc sid b)).toNat, 16 + b, 1)),
   packReg (banks.map fun b => (t.hardLeft i (teBank pc sid b), 4 * b, 4)))

/-- The pseudo-channels that a command selects (R259). -/
def tePcs (cmd : Word) : List Nat := if tePc cmd = 0xFF then List.range 32 else [tePc cmd]

/-- BUDGET (R253): a record per pseudo-channel and SID. -/
def execTeBudget (who : Fn) (s : Fin 16) (v : Word) (st : State) : Host.Outcome State Fault Refusal :=
  .next (st.teRun who s.val 0x05 v (fun _ => decide (tePc v < 32 ∨ tePc v = 0xFF)) fun w => w.updTest s.val fun t =>
    (t.begin_ v 0x00).record ((tePcs v).flatMap fun pc => [0, 1, 2].map fun sid => t.budget s.val pc sid))

/-- A repair command on a stack: the bank's repairs and the counts of its pseudo-channel (R258). -/
def Work.repair (w : Work) (i pc : Nat) (f : TestEngine → TestEngine) (g : PcErr → PcErr) : Work :=
  w.updStack i fun x => { x with te := f x.te, pcErr := x.pcErr.upd .zero pc g }

/-- SOFT_REPAIR of a stack (R253): a bank's soft repair serves one row. -/
def Work.runSoftRepair (w : Work) (i : Nat) (cmd : Word) : Work :=
  let t := (w.stack i).te
  if t.soft.get false (t.bankKey cmd) then w.updTest i fun t => t.begin_ cmd 0x02
  else w.repair i (tePc cmd) (fun t => { t.begin_ cmd 0x00 with soft := t.soft.set false (t.bankKey cmd) true })
    fun e => { e with soft := satAdd e.soft 1 }

/-- SOFT_REPAIR (R253). -/
def execTeSoftRepair (who : Fn) (s : Fin 16) (v : Word) (st : State) : Host.Outcome State Fault Refusal :=
  .next (st.teRun who s.val 0x06 v (fun t => t.placeOk v) fun w => w.runSoftRepair s.val v)

/-- HARD_REPAIR of a stack (R251, R253, R258): irreversible, verified or not. -/
def Work.runHardRepair (w : Work) (i : Nat) (cmd : Word) (verified : Bool) : Work :=
  let t := (w.stack i).te
  if t.hardLeft i (t.bankKey cmd) = 0 then w.updTest i fun t => t.begin_ cmd 0x02
  else w.repair i (tePc cmd)
    (fun t => { t.begin_ cmd (if verified then 0x00 else 0x03) with hardSpent := t.hardSpent.upd 0 (t.bankKey cmd) (· + 1) })
    fun e => { e with hard := satAdd e.hard 1 }

/-- HARD_REPAIR (R253). -/
def execTeHardRepair (who : Fn) (s : Fin 16) (v : Word) (verified : Bool) (st : State) : Host.Outcome State Fault Refusal :=
  .next (st.teRun who s.val 0x07 v (fun t => t.placeOk v) fun w => w.runHardRepair s.val v verified)

/-- SOFT_UNDO of a stack (R253): nothing is released where nothing is in use. -/
def Work.runSoftUndo (w : Work) (i : Nat) (cmd : Word) : Work :=
  let t := (w.stack i).te
  if t.soft.get false (t.bankKey cmd) then
    w.repair i (tePc cmd) (fun t => { t.begin_ cmd 0x00 with soft := t.soft.set false (t.bankKey cmd) false })
      fun e => { e with soft := e.soft - 1 }
  else w.updTest i fun t => t.begin_ cmd 0x00

/-- SOFT_UNDO (R253). -/
def execTeSoftUndo (who : Fn) (s : Fin 16) (v : Word) (st : State) : Host.Outcome State Fault Refusal :=
  .next (st.teRun who s.val 0x08 v (fun t => t.placeOk v) fun w => w.runSoftUndo s.val v)

/-- P1500 of a stack (R253): ARG1[23:8] bits of the buffer are replaced by those shifted out. -/
def Work.runP1500 (w : Work) (i : Nat) (cmd : Word) (shiftedOut : List Byte) : Work :=
  w.updTest i fun t =>
    let n := bitsOf t.arg1.toNat 8 16
    let old := leNat (t.buf.readN 0 ((n + 7) / 8))
    let new := old / 2 ^ n * 2 ^ n + leNat shiftedOut % 2 ^ n
    { t.begin_ cmd 0x00 with buf := t.buf.writeN 0 (leBytes ((n + 7) / 8) new) }

/-- P1500 (R253): the row carries no register word; the other fields of TE_CMD stay as they were. -/
def execTeP1500 (who : Fn) (s : Fin 16) (shiftedOut : List Byte) (st : State) : Host.Outcome State Fault Refusal :=
  let cmd : Word := ((st.w.stack s.val).te.cmd &&& ~~~(0xFF : Word)) ||| (0x8000000000000009 : Word)
  .next (st.teRun who s.val 0x09 cmd (fun _ => true) fun w => w.runP1500 s.val cmd shiftedOut)

/-- TE_INVALID_COMMAND (R253): every opcode but the nine completes at once with RESULT 0x01. -/
def execTeInvalidCommand (who : Fn) (s : Fin 16) (v : Word) (st : State) : Host.Outcome State Fault Refusal :=
  .next (
    if st.teTakes who s.val (v.getLsbD 63) && !decide (1 ≤ teOpcode v ∧ teOpcode v ≤ 9) then
      st.updTe s.val fun t => t.reject v 0x01
    else st)

/-- TE_COMMAND_DONE (R253, R261). -/
def execTeCommandDone (s : Fin 16) (st : State) : Host.Outcome State Fault Refusal :=
  .next (if (st.w.stack s.val).te.busy then st.updTe s.val fun t => { t with busy := false, result := t.doneResult } else st)

end Sys2Proof.Machine
end

