-- ==== Sys2Proof/Machine/Boot.lean ====
section
/-! DEFINITION. What resets keep, the boot from self-test to Ready, bring-up mode, and the RESET command (R14-R20, R147, R247-R252,
R341, R347, R377-R379, R408, R412, R476-R481, R506, R525). -/

namespace Sys2Proof.Machine

/-- The epochs of the units and functions that leave reset increase (R19, R412). -/
def nextEpochs (old : Tbl Byte) (held : BitVec 16 → Bool) : Tbl Byte :=
  (unitList.map (fun (u : BitVec 16) => (u.toNat, if held u then old.get 0 u.toNat else old.get 0 u.toNat + 1)) ++
    (List.range 32).map (fun f => (2 ^ 16 + f, old.get 0 (2 ^ 16 + f) + 1))).filter fun e => decide (e.2 ≠ 0)

/-- What a stack keeps through a device reset (R247, R251, R254, R258): its repairs, which channels have failed since the last boot, and
its temperature. -/
def Stack.kept (x : Stack) : Stack :=
  { Stack.zero with
    runFailed := x.runFailed, hot := x.hot
    pcErr := (x.pcErr.map fun e => (e.1, { e.2 with corrected := 0, uncorrectable := 0 })).filter fun e => decide (e.2 ≠ .zero)
    te := { TestEngine.zero with soft := x.te.soft, hardSpent := x.te.hardSpent } }

/-- What a stack keeps without power (R251): its hard repairs. -/
def Stack.unpowered (x : Stack) : Stack :=
  { Stack.zero with
    hot := x.hot
    pcErr := (x.pcErr.map fun e => (e.1, { PcErr.zero with hard := e.2.hard })).filter fun e => decide (e.2 ≠ .zero)
    te := { TestEngine.zero with hardSpent := x.te.hardSpent } }

/-- A table's entries changed, in canonical form. -/
def remapTbl {α : Type} [DecidableEq α] (d : α) (f : α → α) (t : Tbl α) : Tbl α :=
  (t.map fun e => (e.1, f e.2)).filter fun e => decide (e.2 ≠ d)

/-- A device reset (R408, R412): no completion is written, and everything is lost but the event log. -/
def Work.deviceReset (w : Work) : Work :=
  { Work.reset with
    log := { w.log with window := false }, epochs := w.epochs, memStacks := remapTbl .zero Stack.kept w.memStacks
    out := w.out, fresh := w.fresh, nextId := w.nextId }

/-- Power is lost (R251, R412): everything is lost, the event log too. -/
def Work.powerLoss (w : Work) : Work :=
  { Work.reset with
    memStacks := remapTbl .zero Stack.unpowered w.memStacks, out := w.out, fresh := w.fresh, nextId := w.nextId }

/-- What the fuses and the MRAM hold (R374-R379, R412, R475, R497, R500). -/
def Ctl.stored (c : Ctl) : Ctl :=
  { Ctl.reset with
    pins := c.pins
    boot := { Ctl.reset.boot with patchSerial := c.boot.patchSerial, patchStore := c.boot.patchStore }
    pwr := { Ctl.reset.pwr with tripTime := c.pwr.tripTime, tripSource := c.pwr.tripSource, tripped := c.pwr.tripped }
    fuse := { c.fuse with debugUnlocked := false }
    xmss := { Ctl.reset.xmss with nextIndex := c.xmss.nextIndex, reservedEnd := c.xmss.nextIndex, nextBlock := c.xmss.nextBlock }
    dyke := { Ctl.reset.dyke with
      enrolled := c.fuse.operator.isSome, mramSerial := c.dyke.mramSerial, mramManifest := c.dyke.mramManifest }
    lasers := remapTbl .zero (fun l => { Laser.zero with present := l.present }) c.lasers }

/-- A device reset (R412): fuses and MRAM stay, and so does what only a power-on clears (R34, R367, R378, R400, R401, R437, R496,
R498, R513). -/
def Ctl.deviceReset (c : Ctl) : Ctl :=
  let k := c.stored
  { k with
    jtag := { c.jtag with halted := 0 }
    dies := { k.dies with failovers := c.dies.failovers }
    boot := { k.boot with phase := 1, bringupNext := c.boot.bringupNext }
    pwr := { k.pwr with mainMv := c.pwr.mainMv, minMv := c.pwr.minMv, dips := c.pwr.dips }
    fuse := c.fuse
    xmss := { k.xmss with signatures := c.xmss.signatures }
    health := { k.health with generation := c.health.generation }
    dyke := { k.dyke with reboots := c.dyke.reboots }
    scrub := { k.scrub with count := c.scrub.count }
    lasers := remapTbl .zero (fun l => { Laser.zero with present := l.present, authFails := l.authFails, logged := l.logged }) c.lasers }

/-- EXTEST, CLAMP and HIGHZ are allowed (R528). -/
def Ctl.pinTest (c : Ctl) : Bool := c.pins.perstLow || c.boot.bringup

/-- An instruction of the test port that its condition no longer allows acts as BYPASS (R528): no cell drives a land. -/
def Ctl.settleTap (c : Ctl) : Ctl :=
  if !c.pinTest && [0x00, 0x03, 0x04].contains c.jtag.ir then { c with jtag := { c.jtag with ir := 0xFF, driving := false } } else c

/-- EQ_HOURS is written to the modules that are lit (R509). -/
def State.writeLives (s : State) : State :=
  ([0, 1, 2, 3] : List (Fin 4)).foldl (fun (s : State) k => if (s.ctl.laser k.val).lit then s.writeLife k else s) s

/-- The device is reset (R412, R509), and stays in reset until a boot; before it the modules take their life records. -/
def State.deviceReset (s : State) : State :=
  let t := s.writeLives
  { t with w := t.w.deviceReset, ctl := t.ctl.deviceReset.settleTap }
/-- The device loses its power (R412). -/
def State.powerLoss (s : State) : State := { s with w := s.w.powerLoss, ctl := s.ctl.stored }

/-- A core is absent from this boot on (R17, R36, R70): its bit, and its contexts. -/
def Work.coreMissing (w : Work) (n c : Nat) : Work :=
  ((coreCtxs (partFin n) ⟨c % 64, Nat.mod_lt _ (by decide)⟩).foldl (fun (w : Work) x => w.updCtx x fun _ => { Ctx.empty with st := .absent }) w).updSlice
    n fun s => { s with coreAbsent := s.coreAbsent ||| BitVec.ofNat 64 (2 ^ c) }

/-- A core fails self-test (R14, R16, R17): a spare of its pair of clusters takes its place, or it is absent. -/
def Work.coreBad (w : Work) (n c : Nat) : Work :=
  match (w.slice n).spareFor c with
  | some k => w.updSlice n fun s => { s with spares := s.spares.set .free k ⟨true, false, BitVec.ofNat 6 c⟩ }
  | none => w.coreMissing n c

/-- A spare fails self-test (R35). -/
def SliceSt.spareBad (s : SliceSt) (k : Nat) : SliceSt := { s with spares := s.spares.set .free k ⟨false, true, 0⟩ }

/-- A slice fails self-test (R9, R33): it is mapped out, and PRESENT is 0. -/
def SliceSt.failsTest (s : SliceSt) : SliceSt := { s with mappedOut := true, present := false }

/-- A unit fails self-test (R9, R16, R17, R33, R412, R479). Channels are dealt with in training; a unit of a fabric die stays in reset. -/
def Work.unitBad (w : Work) (u : BitVec 16) : Work :=
  let n := unitIndex u
  let x := unitNo u
  match unitClass u with
  | 0 =>
    if x < 0x40 then w.coreBad n x
    else if x < 0x44 then w.updSlice n fun s => s.spareBad (x - 0x40)
    else if 0x80 ≤ x ∧ x < 0x88 then
      (List.range 8).foldl (fun (w : Work) i => w.coreMissing n (8 * (x - 0x80) + i)) w
    else w.updSlice n SliceSt.failsTest
  | 1 => w.updSlice n SliceSt.failsTest
  | 2 => { w with inReset := u :: w.inReset, testFailed := u :: w.testFailed }
  | _ => w

/-- Halves of B that self-test maps out (R144, R147, R153): the core enters sequential operation, and its F group goes first. -/
def Work.halfBad (w : Work) (src : BitVec 16) (e : Nat × BitVec 2) : Work :=
  let n := e.1 / 64 % 8
  let c := e.1 % 64
  if e.2 = 0 then w
  else
    ((w.updCore ⟨partFin n, ⟨c, Nat.mod_lt _ (by decide)⟩, 0⟩ fun k => { k with bState := e.2, sequential := true, lastB := true }).updSlice n fun s =>
      { s with bootLosses := satAdd s.bootLosses (halves e.2) }).logBad src (coreUnit n c)

/-- A control die fails self-test (R20, R479). -/
def bootDieBad (b : BootIn) (d : Nat) : Bool := (bootBad b).any fun u => decide (unitClass u = 3 ∧ unitIndex u = d)

/-- The control dies after self-test (R20). -/
def DieSt.tested (d : DieSt) (b : BootIn) : DieSt :=
  { d with active := if bootDieBad b 0 then 1 else 0, otherHeld := bootDieBad b 0 || bootDieBad b 1, standbyReady := !(bootDieBad b 0 || bootDieBad b 1) }

/-- The stored patch is checked (R476): the flags of BOOT_STATE and the cause, 0 for none. -/
def BootSt.checkPatch (b : BootSt) : BootSt × Nat :=
  match b.patchStore with
  | none => ({ b with patched := false, patchDigest := [], romOnly := false }, 0)
  | some p =>
    let c := patchCause p b.patchSerial.toNat
    ({ b with patched := decide (c = 0), patchDigest := if c = 0 then shake256 p 32 else [], romOnly := decide (c ≠ 0) }, c)

/-- The units that stay out of service after self-test: the fabric dies without FREFCLK (R525), and the sockets, which are not lit
(R507). -/
def bootHeld (b : BootIn) : List (BitVec 16) :=
  (List.range 4).map socketUnit ++ if b.frefclk then [] else [unitId 2 0 0xFF, unitId 2 1 0xFF]

/-- Events that self-test logs beside the units that fail (R476, R489, R525). -/
def Work.logTest (w : Work) (src : BitVec 16) (c : Ctl) (cause : Nat) (frefclk : Bool) : Work :=
  let w1 := if c.pwr.tripped then
      w.logEv powerUnit 0x0786 5 0xFF (c.pwr.tripTime.toNat + c.pwr.tripSource.toNat * 2 ^ 64) else w
  let w2 := if cause = 0 then w1 else w1.logEv src 0x0881 3 0xFF cause
  if frefclk then w2 else w2.logEv src 0x0886 3 0xFF 0

/-- Self-test (R16, R20, R476, R478, R479, R525). After a device reset every unit that leaves reset has a new epoch; after a
power-on every epoch is 0 (R412). -/
def State.selfTest (s : State) (b : BootIn) : State :=
  let c := s.ctl
  let dies := c.dies.tested b
  let src := bootUnit dies.active
  let (boot, cause) := c.boot.checkPatch
  let stays := fun (u : BitVec 16) => unitClass u = 2 && !b.frefclk
  let w1 : Work := { s.w with inReset := bootHeld b, testFailed := [], epochs := if c.boot.phase = 1 then nextEpochs s.w.epochs stays else s.w.epochs }
  let w2 := (bootBad b).foldl (fun w u => (w.unitBad u).logBad src u) w1
  let w3 := b.badHalves.foldl (fun w e => w.halfBad src e) w2
  { s with
    w := (w3.logTest src c cause b.frefclk).noteHalt c.xmss.freshBlock
    ctl := { c with
      dies := dies, boot := { boot with phase := 2 }, xmss := c.xmss.freshBlock
      pwr := { c.pwr with tripped := false }, pins := { c.pins with frefclk := b.frefclk, lostInOp := false } } }

/-- HBM training and the memory test (R247, R252, R478, R481); `logged` are the bad units that self-test has logged. -/
def State.trainStacks (s : State) (b : BootIn) (logged : List (BitVec 16)) : State :=
  s.onW fun w =>
    (List.range 8).foldl (fun w n => w.trainSlice (bootUnit s.ctl.dies.active) b logged n)
      { w with hbm := [], tags := [], ctr := [], nodes := [], lostPassed := [] }

/-- The lock on a Dyke without partitions (R341, R378). -/
def Ctl.lockEmpty (c : Ctl) : Ctl :=
  { c with
    boot := { c.boot with phase := 4, patchBuf := [] }
    dyke := { c.dyke with locked := true, rebooting := false, manifestValid := false, serial := 0, manifest := [], next := [], ports := [] } }

/-- Why the stored manifest may not be used (R341, R378), 0 where it may: the low bytes of R342 and R455, and 1 where none is stored
(DESIGN CHOICE, log entry 15). -/
def Ctl.bootCause (c : Ctl) : Nat :=
  let m := c.dyke.mramManifest
  if c.fuse.debugUnlocked then 0x49
  else if m.isEmpty then 1
  else if c.fuse.operator.isNone then 0x41
  else if !manValid c.fuse m then 0x40
  else if manSerial m < c.dyke.mramSerial.toNat then 0x42
  else 0

/-- The stored manifest, where it may be used (R341, R378). -/
def Ctl.bootManifest (c : Ctl) : Option (List Byte) := if c.bootCause = 0 then some c.dyke.mramManifest else none

/-- The Dyke is written, keys are generated and the lock is set (R337, R341, R378, R478). The units of the slices have left reset
with the boot itself. -/
def State.lockUp (s : State) : State :=
  let m := s.ctl.bootManifest
  let w1 := s.w.buildDyke (m.getD []) (fun _ => false) []
  let w2 : Work := { w1 with
    epochs := s.w.epochs, out := s.w.out, memStacks := remapTbl .zero (fun x => { x with runFailed := 0 }) w1.memStacks }
  match m with
  | some b => { s with w := w2, ctl := s.ctl.lockDyke b false }
  | none =>
    { s with w := w2.logSec 0xFF 3 s.ctl.bootCause, ctl := s.ctl.lockEmpty }

/-- The links of the PCI Express ports, as they came up (R466, R478). -/
def bootLinks (b : BootIn) : Tbl PciePort :=
  Tbl.ofListFrom .zero 0 ((b.pcie.take 2).map fun l => ⟨0, l.up, l.flit, l.width, l.rate⟩)

/-- Ready (R424, R478, R492, R506): links are up, the boot is logged, and the modules present are authenticated. -/
def State.reachReady (s : State) (b : BootIn) : State :=
  let t := s.ctl.boot
  let w1 := s.w.logEv (bootUnit s.ctl.dies.active) 0x0880 1 0xFF
    (b.readyMs.toNat + t.bringup.toNat * 2 ^ 32 + t.romOnly.toNat * 2 ^ 33)
  let s1 : State := { s with
    w := { w1 with host := { w1.host with pcie := bootLinks b } }, ctl := { s.ctl with boot := { t with readyMs := b.readyMs } } }
  let s2 := ([0, 1, 2, 3] : List (Fin 4)).foldl (fun (s : State) k => if (s.ctl.laser k.val).present then s.beginAuth k else s) s1
  let caps := s2.capNow
  s2.onCtl fun c => { c with health := { c.health with caps := caps } }

/-- Bring-up mode is entered (R480, R481): the boot stage stops before the Dyke. Its test engine reaches every slice (R250). -/
def State.enterBringup (s : State) : State :=
  let w1 := (List.range 8).foldl (fun (w : Work) n => w.updSlice n fun x => { x with gated := false }) s.w
  { s with
    w := w1.logEv (bootUnit s.ctl.dies.active) 0x0883 1 0xFF 0
    ctl := { s.ctl with boot := { s.ctl.boot with bringup := true, bringupNext := false, phase := 5 } } }

/-- The timeline of a boot, from self-test to Ready (R22, R478-R480). It takes no ftime, which starts when it ends. -/
def State.bootUp (s : State) (b : BootIn) : State :=
  let s1 := (s.selfTest b).trainStacks b (bootBad b)
  (if s1.ctl.boot.bringupNext then s1.enterBringup else s1.lockUp).reachReady b

/-- The boot starts when no pin or supply holds the device (R484, R526). -/
def State.bootIfReleased (s : State) (b : BootIn) : State := if s.ctl.pins.released then s.bootUp b else s

/-- RELEASE (R250, R481, R503): the test engine stops, its buffer is cleared, every stack is trained and tested again, and the boot goes
on to the lock. A COMMIT of a patch meanwhile is ignored with RESULT 5. -/
def State.releaseBringup (s : State) (b : BootIn) : State :=
  let s1 := s.trainStacks b []
  let boot : BootSt := { s1.ctl.boot with bringup := false, phase := 3 }
  let s2 : State := { s1 with
    w := s1.w.logEv (bootUnit s.ctl.dies.active) 0x0884 1 0xFF 0
    ctl := ({ s1.ctl with boot := if b.lateCommit then boot.patchEnds 5 else boot } : Ctl).settleTap }
  s2.lockUp

/-- BOOT_CTL is written (R481, R496): BRINGUP_NEXT takes its bit, and RELEASE ends bring-up mode; it is ignored outside. -/
def State.writeBootCtl (s : State) (v : Word) (b : BootIn) : State :=
  let s1 := s.onCtl fun c => { c with boot := { c.boot with bringupNext := v.getLsbD 0 } }
  if v.getLsbD 1 && s.ctl.boot.bringup then s1.releaseBringup b else s1

/-- REGISTER_WRITE (R3, R496): every write that is not naturally aligned is ignored. -/
def execRegisterWrite (who : Fn) (off : BitVec 26) (size : WriteSize) (v : Word) (s : State) : Host.Outcome State Fault Refusal :=
  .next (s.request who fun s =>
    match writeLanes off.toNat size.bytes v with
    | some (o, x, m) =>
      if o = 0x48 ∧ physical who = true then s.writeBootCtl (mergeBits (s.readCtl 0x48) x m) size.boot else s.writeReg who o x m
    | none => s)

/-- BRINGUP_RELEASE: BOOT_CTL is written (R481, R496). -/
def execBringupRelease (who : Fn) (v : Word) (boot : BootIn) (s : State) : Host.Outcome State Fault Refusal :=
  .next (s.request who fun s => if physical who then s.writeBootCtl v boot else s)

/-- RESET (R408, R455, R479, R509): the completion is the last one written; then the device is reset and boots. -/
def execHostReset (r : CmdRef) (boot : BootIn) (s : State) : Host.Outcome State Fault Refusal :=
  .next (
    match s.w.startCmd r 0x54 with
    | some _ => ((s.onW fun w => w.finish r 0 0).deviceReset).bootIfReleased boot
    | none => s)

end Sys2Proof.Machine
end

