-- ==== Sys2Proof/Machine/Pins.lean ====
section
/-! DEFINITION. Supplies, reset pins, the thermal trip, the reference clock, the control dies and the site input (R20, R291, R292,
R471-R473, R482, R484, R489, R524-R527). -/

namespace Sys2Proof.Machine

/-- The pins changed. -/
def State.setPins (s : State) (f : PinSt → PinSt) : State := s.onCtl fun c => { c with pins := f c.pins }

/-- POWER_ON (R412, R478, R480, R482, R526): the last supply becomes valid. PERST# low holds the device before self-test. A device
that runs, or that a thermal trip keeps off, has no power-on. -/
def execPowerOn (boot : BootIn) (s : State) : Host.Outcome State Fault Refusal :=
  .next (
    if s.ctl.boot.phase = 0 ∧ s.ctl.pins.thermtrip = false then
      ((s.powerLoss.setPins fun p => { p with off := false, heldSupply := false, pwrgood := true }).onCtl fun c =>
        { c with pwr := { c.pwr with mainMv := boot.mainMv } }).bootIfReleased boot
    else s)

/-- SUPPLY_RESET (R484): at 10.4 V the device is reset, and held until the input is back. -/
def execSupplyReset (mv : BitVec 16) (s : State) : Host.Outcome State Fault Refusal :=
  .next (
    if mv.toNat ≤ 10400 ∧ s.ctl.pins.off = false ∧ s.ctl.pins.heldSupply = false then
      let low := minMv s.ctl.pwr.dipMinMv mv
      let s1 : State := { s with
        w := s.w.logEv powerUnit 0x0781 5 0xFF low.toNat
        ctl := { s.ctl with pwr := { s.ctl.pwr with mainMv := mv, minMv := minMv s.ctl.pwr.minMv mv } } }
      s1.deviceReset.setPins fun p => { p with heldSupply := true }
    else s)

/-- MAIN_INPUT_RETURN (R484): at 11.4 V the boot starts. -/
def execMainInputReturn (mv : BitVec 16) (boot : BootIn) (s : State) : Host.Outcome State Fault Refusal :=
  .next (
    if 11400 ≤ mv.toNat ∧ s.ctl.pins.heldSupply = true then
      let s1 := s.setPins fun p => { p with heldSupply := false }
      (s1.onCtl fun c => { c with pwr := { c.pwr with mainMv := mv } }).bootIfReleased boot
    else s)

/-- REGULATOR_SHUTDOWN (R484, R489, R527): at 9.0 V the regulators shut down, THERMTRIP# is released, and the next rise is a
power-on. -/
def execRegulatorShutdown (s : State) : Host.Outcome State Fault Refusal :=
  .next (s.powerLoss.setPins fun p => { p with off := true, heldSupply := false, thermtrip := false })

/-- PWRGOOD_DEASSERT (R526): a device reset, held while PWRGOOD stays low. -/
def execPwrgoodDeassert (s : State) : Host.Outcome State Fault Refusal :=
  .next (
    if s.ctl.pins.off ∨ s.ctl.pins.pwrgood = false then s.setPins fun p => { p with pwrgood := false }
    else s.deviceReset.setPins fun p => { p with pwrgood := false })

/-- PWRGOOD_ASSERT (R526, R534): with both supplies in range it is logged, and the boot starts unless PERST# is low. -/
def execPwrgoodAssert (boot : BootIn) (s : State) : Host.Outcome State Fault Refusal :=
  let s1 := s.setPins fun p => { p with pwrgood := true }
  .next (
    if s.ctl.pins.pwrgood then s
    else if s.ctl.pins.off || s.ctl.pins.heldSupply then s1
    else (s1.onW fun w => w.logEv powerUnit 0x0888 5 0xFF 0).bootIfReleased boot)

/-- PERST_ASSERT (R526, R534): a device reset, except before power-on and after a thermal trip. -/
def execPerstAssert (s : State) : Host.Outcome State Fault Refusal :=
  .next (
    if s.ctl.pins.off ∨ s.ctl.boot.phase = 0 then s.setPins fun p => { p with perstLow := true }
    else (s.setPins fun p => { p with perstLow := true }).deviceReset)

/-- PERST_DEASSERT (R526): self-test starts. -/
def execPerstDeassert (boot : BootIn) (s : State) : Host.Outcome State Fault Refusal :=
  .next (if s.ctl.pins.perstLow then ((s.setPins fun p => { p with perstLow := false }).onCtl Ctl.settleTap).bootIfReleased boot else s)

/-- THERMAL_TRIP (R489, R527): THERMTRIP# goes low, the trip record is written, and the device is off. -/
def execThermalTrip (src : BitVec 16) (s : State) : Host.Outcome State Fault Refusal :=
  .next (
    if s.ctl.pins.off then s
    else
      let s1 := s.onCtl fun c => { c with pwr := { c.pwr with tripTime := s.w.time.ftime, tripSource := src, tripped := true } }
      s1.powerLoss.setPins fun p => { p with off := true, thermtrip := true, heldSupply := false })

/-- The units of a port that wait for FREFCLK. -/
def clockUnits : List (BitVec 16) := (List.range 32).map portUnit

/-- FREFCLK_LOSS (R292, R412, R525): every port goes down and waits for the clock; a locked device enters holdover, and elects again. -/
def Work.loseClock (w : Work) (src : BitVec 16) : Work :=
  let w1 := (List.range 32).foldl (fun (w : Work) p => w.portDown (portFin p) 0) w
  let w2 : Work := { w1 with
    inReset := clockUnits ++ w1.inReset.filter fun u => !clockUnits.contains u
    time := { w1.time with st := if w1.time.st = 1 then 2 else w1.time.st } }
  (if w.time.st = 1 then w2.elect else w2).logEv src 0x0886 3 0xFF 1

/-- FREFCLK_LOSS (R525). -/
def execFrefclkLoss (s : State) : Host.Outcome State Fault Refusal :=
  .next (
    if s.ctl.pins.frefclk then
      (s.onW fun w => w.loseClock (bootUnit s.ctl.dies.active)).setPins fun p => { p with frefclk := false, lostInOp := true }
    else s)

/-- The clock runs again (R525): fabric dies that a boot held leave reset, and ports train. A unit that is fenced stays. -/
def Work.clockBack (w : Work) (src : BitVec 16) (lostInOp : Bool) : Work :=
  let stays := fun (u : BitVec 16) => w.isFenced u || w.testFailed.contains u
  let dies := [unitId 2 0 0xFF, unitId 2 1 0xFF].filter fun u => w.isDown u && !stays u
  let ports := clockUnits.filter fun u => w.isDown u && !stays u
  let w1 : Work := { w with inReset := w.inReset.filter fun u => !(dies ++ ports).contains u }
  let w2 := ((dies.flatMap unitsUnder ++ ports).dedup.filter fun u => !w1.isDown u).foldl (fun (w : Work) u => w.newEpoch u) w1
  ((List.range 32).foldl (fun (w : Work) p => w.portStart p) w2).logEv src 0x0887 3 0xFF lostInOp.toNat

/-- FREFCLK_RESTORED (R525). -/
def execFrefclkRestored (s : State) : Host.Outcome State Fault Refusal :=
  .next (
    if s.ctl.pins.frefclk then s
    else (s.onW fun w => w.clockBack (bootUnit s.ctl.dies.active) s.ctl.pins.lostInOp).setPins fun p =>
      { p with frefclk := true, lostInOp := false })

/-- The other control die. -/
def DieSt.other (d : DieSt) : Fin 2 := if d.active = 0 then 1 else 0

/-- HEARTBEAT_SEND (R471): each die that is not held in reset. -/
def execHeartbeatSend (s : State) : Host.Outcome State Fault Refusal :=
  let d := s.ctl.dies
  .next (s.onW fun w =>
    let w1 := w.emit (.heartbeat d.active)
    if d.otherHeld then w1 else w1.emit (.heartbeat d.other))

/-- The standby fails (R471, R503): it is held in reset until the next boot, and the event is logged. -/
def State.loseStandby (s : State) : State :=
  { s with
    w := s.w.logEv (bootUnit s.ctl.dies.active) 0x08FF 3 0xFF s.ctl.dies.other.val
    ctl := { s.ctl with dies := { s.ctl.dies with otherHeld := true, standbyReady := false } } }

/-- Removals whose scrub is not over are repeated from the fence (R404, R473; DEDUCED, log entry 85). -/
def State.repeatRemovals (s : State) : State :=
  (allParts.filter fun q => decide ((s.w.part q).removal = 2)).foldl (fun (s : State) q => s.removeTenant q (s.w.part q).removeCmd) s

/-- An ENROL or a RESET that runs at a failover (R412, R473): it completes with 0x0364. An ENROL may have burned its slot by then. -/
def State.interrupt (s : State) (m : MissIn) : State :=
  match m.running with
  | none => s
  | some r =>
    let s1 := s.onW fun w => w.finish r 0x364 0
    if (s.w.startCmd r 0x51).isSome then
      match m.burned with
      | some key => if s.ctl.fuse.operator.isNone then (s.burnOperator key).onW fun w => w.finish r 0x364 0 else s1
      | none => s1
    else if (s.w.startCmd r 0x54).isSome then s1
    else s

/-- A failover (R20, R373, R379, R412, R471-R473): the standby becomes active 40 µs after the last heartbeat, under a new epoch of the
failed die, with a fresh block of leaf indices; accepted commands go on, and removals and a protection reboot start over (R373, R404). It is
one step of the model. -/
def State.failover (s : State) : State :=
  let d := s.ctl.dies
  ({ s with
    w := ((s.w.newEpoch (bootUnit d.active)).logEv (bootUnit d.other) 0x0882 3 0xFF (d.active.val + 40 * 2 ^ 16)).noteHalt s.ctl.xmss.freshBlock
    ctl := { s.ctl with
      dies := { active := d.other, failovers := satAdd d.failovers 1, standbyReady := false, otherHeld := true }
      xmss := s.ctl.xmss.freshBlock } } : State).repeatRemovals.repeatReboot

/-- The active die fails without a standby that is ready (R471): the alert, and a device reset. -/
def State.alertReset (s : State) (b : BootIn) : State :=
  ((s.onW fun w => w.logEv (bootUnit s.ctl.dies.other) 0x08FF 5 0xFF s.ctl.dies.active.val).deviceReset).bootIfReleased b

/-- HEARTBEAT_MISS (R471-R473, R503): the one die that is left when the other is held declares nothing. Where each declares the other
failed, the active one keeps its role. -/
def execHeartbeatMiss (fatal : Bool) (miss : MissIn) (boot : BootIn) (s : State) : Host.Outcome State Fault Refusal :=
  let _ := fatal
  .next (
    if s.ctl.dies.otherHeld then s
    else if miss.lost ≠ .active then s.loseStandby
    else if s.ctl.dies.standbyReady then (s.interrupt miss).failover
    else s.alertReset boot)

/-- The site input becomes valid or invalid (R291, R524): the device is a time candidate while it is valid, and elects again. -/
def Work.siteValid (w : Work) (on : Bool) : Work :=
  ({ w with time := { w.time with siteInput := on, candidate := on } } : Work).elect

/-- SITE_INPUT_VALID (R524). -/
def execSiteInputValid (s : State) : Host.Outcome State Fault Refusal := .next (s.onW fun w => w.siteValid true)
/-- SITE_INPUT_INVALID (R524). -/
def execSiteInputInvalid (s : State) : Host.Outcome State Fault Refusal := .next (s.onW fun w => w.siteValid false)

/-- The whole second nearest to an ftime. -/
def nearestSecond (ft : Nat) : Nat := (ft + 500000000) / 1000000000

/-- A PPS edge on the reference (R291, R292, R303): from local time the first edge steps ftime to EPOCH_SEC seconds at the next
tick; a reference that had been following slews toward its edges; later edges count EPOCH_SEC on, and ftime slews toward them. -/
def Work.ppsEdge (w : Work) : Work :=
  let t := w.time
  if !t.refHolder then w
  else if !t.ppsSet && decide (t.st ≠ 0) then
    let n := nearestSecond t.ftime.toNat
    { w with time := { t with
      ppsSet := true, st := 1, slew := (n * 1000000000 : Nat) - (t.ftime.toNat : Int), epochSec := BitVec.ofNat 32 (n + 1) } }
  else
    let off := ((t.epochSec.toNat * 1000000000 : Nat) : Int) - (t.ftime.toNat : Int)
    let t1 := { t with ppsSet := true, epochSec := t.epochSec + 1 }
    if t.ppsSet then { w with time := { t1 with slew := off } }
    else { w with time := { t1 with jump := some ⟨BitVec.ofInt 64 off, 2⟩ } }

/-- SITE_PPS_EDGE (R291): `elapsed` ns have passed since the last thing that happened, within the frame. -/
def execSitePpsEdge (elapsed : Nat) (s : State) : Host.Outcome State Fault Refusal :=
  .next (
    match s.w.advance elapsed with
    | some w => { s with w := w.ppsEdge }
    | none => s)

end Sys2Proof.Machine
end

