-- ==== Sys2Proof/Machine/Board.lean ====
section
/-! DEFINITION. The board management port and the test port (R378, R528-R531). -/

namespace Sys2Proof.Machine

/-- The main input is in its operating range (R482), as last measured; it measures 0 before the first power-on. -/
def PwrSt.inRange (p : PwrSt) : Bool := decide (11400 ≤ p.mainMv.toNat) && decide (p.mainMv.toNat ≤ 12600)

/-- The board management port answers (R530): the main input is in range, PWRGOOD is asserted, and the regulators are up; PERST# may
hold the device. -/
def Ctl.bmcOpen (c : Ctl) : Bool :=
  !c.pins.off && !c.pins.heldSupply && c.pins.pwrgood && c.pwr.inRange && (decide (c.boot.phase ≠ 0) || c.pins.perstLow)

/-- The map of the board management port (R531). -/
def State.bmcRead (s : State) (off : Byte) : Word :=
  match off.toNat with
  | 0x00 => deviceIdReg
  | 0x08 => s.ctl.boot.stateReg
  | 0x10 => packReg [(s.ctl.boot.bringupNext.toNat, 0, 1)]
  | 0x18 => s.ctl.pwr.powerReg
  | 0x20 => s.ctl.pwr.tempReg
  | 0x28 => s.ctl.pwr.supplyReg
  | 0x30 => s.w.log.stateReg
  | 0x38 => s.ctl.health.scoreReg
  | _ => 0

/-- A write of the board management port (R480, R531). -/
def State.bmcWrite (s : State) (off : Byte) (v : Word) : State :=
  if off = 0x10 then s.onCtl fun c => { c with boot := { c.boot with bringupNext := v.getLsbD 0 } }
  else if off = 0x30 then s.clearAlert (v.getLsbD 0)
  else s

/-- BMC_TRANSACTION (R530, R531). -/
def execBmcTransaction (isWrite : Bool) (off : Byte) (v : Word) (s : State) : Host.Outcome State Fault Refusal :=
  .next (
    if !s.ctl.bmcOpen then s
    else if isWrite then s.bmcWrite off v
    else s.onW fun w => w.emit (.bmc off (s.bmcRead off)))

/-- The test port has power (R482, R532): while the main input is off the device drives no signal and holds no TAP state. -/
def State.tapOn (s : State) (t : State) : Host.Outcome State Fault Refusal := .next (if s.ctl.pins.off then s else t)

/-- The test port's state changed. -/
def State.setJtag (s : State) (f : JtagSt → JtagSt) : State := s.onCtl fun c => { c with jtag := f c.jtag }

/-- Bits leave TDO. -/
def State.tdo (s : State) (n : Nat) (v : Word) : State := s.onW fun w => w.emit (.tdo n v)

/-- An instruction that acts as BYPASS (R528): one bit, captured as 0, and no pin changes. The instruction in effect is kept as
all ones. -/
def State.bypass (s : State) : State := (s.setJtag fun j => { j with ir := 0xFF, driving := false }).tdo 1 0

/-- Bits that the spec does not give leave TDO. -/
def State.tdoFree (s : State) (n : Nat) : State :=
  let (x, w) := s.w.draw
  ({ s with w := w } : State).tdo n (BitVec.ofNat 64 (x.toNat % 2 ^ n))

/-- EXTEST (R528): the lands' levels leave, which the world outside gives, and the cells drive the lands. -/
def execJtagExtest (cells : BitVec 48) (s : State) : Host.Outcome State Fault Refusal :=
  s.tapOn (
    if s.ctl.pinTest then (s.setJtag fun j => { j with ir := 0x00, boundary := cells, driving := true }).tdoFree 48
    else s.bypass)

/-- IDCODE (R528). -/
def execJtagIdcode (s : State) : Host.Outcome State Fault Refusal :=
  s.tapOn ((s.setJtag fun j => { j with ir := 0x01, driving := false }).tdo 32 0x1A51276B)

/-- SAMPLE/PRELOAD (R528): the lands' levels leave, and the cells are loaded. -/
def execJtagSamplePreload (sampled : BitVec 48) (shiftIn : BitVec 48) (s : State) : Host.Outcome State Fault Refusal :=
  s.tapOn ((s.setJtag fun j => { j with ir := 0x02, boundary := shiftIn, driving := false }).tdo 48 (sampled.setWidth 64))

/-- CLAMP (R528): the cells drive the lands, through the bypass register. -/
def execJtagClamp (s : State) : Host.Outcome State Fault Refusal :=
  s.tapOn (
    if s.ctl.pinTest then (s.setJtag fun j => { j with ir := 0x03, driving := true }).tdo 1 0
    else s.bypass)

/-- HIGHZ (R528): no land is driven, through the bypass register. -/
def execJtagHighz (s : State) : Host.Outcome State Fault Refusal :=
  s.tapOn (
    if s.ctl.pinTest then (s.setJtag fun j => { j with ir := 0x04, driving := false }).tdo 1 0
    else s.bypass)

/-- The token is accepted (R378): in bring-up mode, before the lock, with the digest of the verification hash. -/
def Ctl.unlocks (c : Ctl) (token : List Byte) : Bool :=
  c.boot.bringup && !c.dyke.locked && decide (token.length = 64) && decide (shake256 token 32 = c.fuse.debugHash)

/-- UNLOCK (R378, R528): any other token is ignored and logged. -/
def execJtagUnlock (token : List Byte) (s : State) : Host.Outcome State Fault Refusal :=
  let s1 := s.setJtag fun j => { j with ir := 0x10, driving := false }
  s.tapOn (
    if s.ctl.unlocks token then s1.onCtl fun c => { c with fuse := { c.fuse with debugUnlocked := true } }
    else s1.onW fun w => w.logSec 0xFF 2 0x10)

/-- DTMCS as it is captured (R528): abits = 7 in bits [9:4], where the standard that R528 names has them (PRESUMED, log entry 129);
`x` gives the other bits, which the spec leaves to that standard. -/
def dtmcsOf (x : Word) : Word := BitVec.ofNat 64 ((x &&& 0xFFFFFC0F ||| 0x70).toNat)

/-- DTMCS (R528): reaches the debug modules while the device is debug-unlocked. -/
def execJtagDtmcs (v : BitVec 32) (s : State) : Host.Outcome State Fault Refusal :=
  s.tapOn (
    if s.ctl.fuse.debugUnlocked then
      let s1 := s.setJtag fun j => { j with ir := 0x20, dtmcs := v, driving := false }
      let (x, w) := s1.w.draw
      ({ s1 with w := w } : State).tdo 32 (dtmcsOf x)
    else s.bypass)

/-- What a word shifted into DMI does to the debug modules (R469, R528): a write of dmcontrol selects a hart and halts or resumes it
(PRESUMED from the standard that R528 names, log entry 129). -/
def JtagSt.dmiWrite (j : JtagSt) (v : BitVec 41) : JtagSt :=
  if bitsOf v.toNat 0 2 = 2 ∧ bitsOf v.toNat 34 7 = 0x10 then
    let hart := bitsOf v.toNat 8 10 * 1024 + bitsOf v.toNat 18 10
    let bit : Byte := if hart < 8 then BitVec.ofNat 8 (2 ^ hart) else 0
    { j with hart := BitVec.ofNat 20 hart
             halted := if v.getLsbD 33 then j.halted ||| bit else if v.getLsbD 32 then j.halted &&& ~~~bit else j.halted }
  else j

/-- DMI as it is captured: after a read of dmstatus, whether the hart selected is halted (R469; PRESUMED, log entry 129), in bits [9:8]
of the data, and whether it runs in bits [11:10]; `x` gives the other bits. -/
def JtagSt.dmiRead (j : JtagSt) (x : Word) : Word :=
  let free := x.toNat % 2 ^ 41
  if bitsOf j.dmi.toNat 0 2 = 1 ∧ bitsOf j.dmi.toNat 34 7 = 0x11 then
    let on := j.halted.getLsbD j.hart.toNat
    BitVec.ofNat 64 (free / 2 ^ 14 * 2 ^ 14 + (if on then 3 else 12) * 2 ^ 10 + free % 2 ^ 10)
  else BitVec.ofNat 64 free

/-- DMI (R528): reaches the debug modules of the control harts while the device is debug-unlocked. -/
def execJtagDmi (v : BitVec 41) (s : State) : Host.Outcome State Fault Refusal :=
  s.tapOn (
    if s.ctl.fuse.debugUnlocked then
      let (x, w) := s.w.draw
      let s1 := ({ s with w := w } : State).setJtag fun j => { (j.dmiWrite v) with ir := 0x21, dmi := v, driving := false }
      s1.tdo 41 (s.ctl.jtag.dmiRead x)
    else s.bypass)

/-- BYPASS (R528): the bit shifted in follows the one captured. -/
def execJtagBypass (op : Byte) (tdi : Bool) (s : State) : Host.Outcome State Fault Refusal :=
  let _ := op
  s.tapOn ((s.setJtag fun j => { j with ir := 0xFF, driving := false }).tdo 2 (BitVec.ofNat 64 (2 * tdi.toNat)))

end Sys2Proof.Machine
end

