-- ==== Sys2Proof/Machine/InstrMatrix.lean ====
section
/-! DEFINITION. The meanings of the matrix and accumulator instructions (R120-R123, R140-R175): dispatch, and what follows from it. -/

namespace Sys2Proof.Machine

/-- MMF_BI8 (R120). -/
def execMmfBi8 (c : CtxId) (f : Fields) (i : Issue) (s : State) : Host.Outcome State Fault Refusal :=
  .next (s.onW fun w => w.issue c .mmfBi8 f i)

/-- MMF_BI4 (R120). -/
def execMmfBi4 (c : CtxId) (f : Fields) (i : Issue) (s : State) : Host.Outcome State Fault Refusal :=
  .next (s.onW fun w => w.issue c .mmfBi4 f i)

/-- MMF_BI16X8 (R120). -/
def execMmfBi16x8 (c : CtxId) (f : Fields) (i : Issue) (s : State) : Host.Outcome State Fault Refusal :=
  .next (s.onW fun w => w.issue c .mmfBi16x8 f i)

/-- MMF_BI16 (R120). -/
def execMmfBi16 (c : CtxId) (f : Fields) (i : Issue) (s : State) : Host.Outcome State Fault Refusal :=
  .next (s.onW fun w => w.issue c .mmfBi16 f i)

/-- MMBX_BI8 (R120). -/
def execMmbxBi8 (c : CtxId) (f : Fields) (i : Issue) (s : State) : Host.Outcome State Fault Refusal :=
  .next (s.onW fun w => w.issue c .mmbxBi8 f i)

/-- MMBX_BI4 (R120). -/
def execMmbxBi4 (c : CtxId) (f : Fields) (i : Issue) (s : State) : Host.Outcome State Fault Refusal :=
  .next (s.onW fun w => w.issue c .mmbxBi4 f i)

/-- MMBX_BI16X8 (R120). -/
def execMmbxBi16x8 (c : CtxId) (f : Fields) (i : Issue) (s : State) : Host.Outcome State Fault Refusal :=
  .next (s.onW fun w => w.issue c .mmbxBi16x8 f i)

/-- MMBX_BI16 (R120). -/
def execMmbxBi16 (c : CtxId) (f : Fields) (i : Issue) (s : State) : Host.Outcome State Fault Refusal :=
  .next (s.onW fun w => w.issue c .mmbxBi16 f i)

/-- MMBW_BI8 (R120). -/
def execMmbwBi8 (c : CtxId) (f : Fields) (i : Issue) (s : State) : Host.Outcome State Fault Refusal :=
  .next (s.onW fun w => w.issue c .mmbwBi8 f i)

/-- MMBW_BI4 (R120). -/
def execMmbwBi4 (c : CtxId) (f : Fields) (i : Issue) (s : State) : Host.Outcome State Fault Refusal :=
  .next (s.onW fun w => w.issue c .mmbwBi4 f i)

/-- MMBW_BI16X8 (R120). -/
def execMmbwBi16x8 (c : CtxId) (f : Fields) (i : Issue) (s : State) : Host.Outcome State Fault Refusal :=
  .next (s.onW fun w => w.issue c .mmbwBi16x8 f i)

/-- MMBW_BI16 (R120). -/
def execMmbwBi16 (c : CtxId) (f : Fields) (i : Issue) (s : State) : Host.Outcome State Fault Refusal :=
  .next (s.onW fun w => w.issue c .mmbwBi16 f i)

/-- ACC_ZERO (R125). -/
def execAccZero (c : CtxId) (f : Fields) (i : Issue) (s : State) : Host.Outcome State Fault Refusal :=
  .next (s.onW fun w => w.issue c .accZero f i)

/-- ACC_ZERO_B (R125). -/
def execAccZeroB (c : CtxId) (f : Fields) (i : Issue) (s : State) : Host.Outcome State Fault Refusal :=
  .next (s.onW fun w => w.issue c .accZeroB f i)

/-- ACC_DRAIN (R126). -/
def execAccDrain (c : CtxId) (f : Fields) (i : Issue) (s : State) : Host.Outcome State Fault Refusal :=
  .next (s.onW fun w => w.issue c .accDrain f i)

/-- ACC_DRAIN_B (R126). -/
def execAccDrainB (c : CtxId) (f : Fields) (i : Issue) (s : State) : Host.Outcome State Fault Refusal :=
  .next (s.onW fun w => w.issue c .accDrainB f i)

/-- ACC_MAX (R168). -/
def execAccMax (c : CtxId) (f : Fields) (i : Issue) (s : State) : Host.Outcome State Fault Refusal :=
  .next (s.onW fun w => w.issue c .accMax f i)

/-- ACC_MAX_B (R168). -/
def execAccMaxB (c : CtxId) (f : Fields) (i : Issue) (s : State) : Host.Outcome State Fault Refusal :=
  .next (s.onW fun w => w.issue c .accMaxB f i)

/-- ACC_MIN (R168). -/
def execAccMin (c : CtxId) (f : Fields) (i : Issue) (s : State) : Host.Outcome State Fault Refusal :=
  .next (s.onW fun w => w.issue c .accMin f i)

/-- ACC_MIN_B (R168). -/
def execAccMinB (c : CtxId) (f : Fields) (i : Issue) (s : State) : Host.Outcome State Fault Refusal :=
  .next (s.onW fun w => w.issue c .accMinB f i)

end Sys2Proof.Machine
end

