-- ==== Sys2Proof/Machine/InstrMove.lean ====
section
/-! DEFINITION. The meanings of the data-movement instructions (R131-R133): dispatch, and what follows from it. -/

namespace Sys2Proof.Machine

/-- DMA_GET (R131). -/
def execDmaGet (c : CtxId) (f : Fields) (i : Issue) (s : State) : Host.Outcome State Fault Refusal :=
  .next (s.onW fun w => w.issue c .dmaGet f i)

/-- DMA_PUT (R131). -/
def execDmaPut (c : CtxId) (f : Fields) (i : Issue) (s : State) : Host.Outcome State Fault Refusal :=
  .next (s.onW fun w => w.issue c .dmaPut f i)

/-- DMA_COPY (R131). -/
def execDmaCopy (c : CtxId) (f : Fields) (i : Issue) (s : State) : Host.Outcome State Fault Refusal :=
  .next (s.onW fun w => w.issue c .dmaCopy f i)

/-- DMA_FILL (R131). -/
def execDmaFill (c : CtxId) (f : Fields) (i : Issue) (s : State) : Host.Outcome State Fault Refusal :=
  .next (s.onW fun w => w.issue c .dmaFill f i)

/-- T_LD (R121). -/
def execTLd (c : CtxId) (f : Fields) (i : Issue) (s : State) : Host.Outcome State Fault Refusal :=
  .next (s.onW fun w => w.issue c .tLd f i)

/-- T_ST (R131). -/
def execTSt (c : CtxId) (f : Fields) (i : Issue) (s : State) : Host.Outcome State Fault Refusal :=
  .next (s.onW fun w => w.issue c .tSt f i)

/-- PEAT_PUSH (R193). -/
def execPeatPush (c : CtxId) (f : Fields) (i : Issue) (s : State) : Host.Outcome State Fault Refusal :=
  .next (s.onW fun w => w.issue c .peatPush f i)

/-- PEAT_POP (R194). -/
def execPeatPop (c : CtxId) (f : Fields) (i : Issue) (s : State) : Host.Outcome State Fault Refusal :=
  .next (s.onW fun w => w.issue c .peatPop f i)

/-- FAB_PUT (R131). -/
def execFabPut (c : CtxId) (f : Fields) (i : Issue) (s : State) : Host.Outcome State Fault Refusal :=
  .next (s.onW fun w => w.issue c .fabPut f i)

/-- FAB_GET (R537). -/
def execFabGet (c : CtxId) (f : Fields) (i : Issue) (s : State) : Host.Outcome State Fault Refusal :=
  .next (s.onW fun w => w.issue c .fabGet f i)

/-- FAB_MCAST (R288). -/
def execFabMcast (c : CtxId) (f : Fields) (i : Issue) (s : State) : Host.Outcome State Fault Refusal :=
  .next (s.onW fun w => w.issue c .fabMcast f i)

end Sys2Proof.Machine
end

