-- ==== Sys2Proof/Machine/InstrScalar.lean ====
section
/-! DEFINITION. The meanings of the scalar and control instructions (R117-R119): dispatch, and what follows from it. -/

namespace Sys2Proof.Machine

/-- NOP (R117). -/
def execNop (c : CtxId) (f : Fields) (i : Issue) (s : State) : Host.Outcome State Fault Refusal :=
  .next (s.onW fun w => w.issue c .nop f i)

/-- S_ADD (R117). -/
def execSAdd (c : CtxId) (f : Fields) (i : Issue) (s : State) : Host.Outcome State Fault Refusal :=
  .next (s.onW fun w => w.issue c .sAdd f i)

/-- S_SUB (R117). -/
def execSSub (c : CtxId) (f : Fields) (i : Issue) (s : State) : Host.Outcome State Fault Refusal :=
  .next (s.onW fun w => w.issue c .sSub f i)

/-- S_AND (R117). -/
def execSAnd (c : CtxId) (f : Fields) (i : Issue) (s : State) : Host.Outcome State Fault Refusal :=
  .next (s.onW fun w => w.issue c .sAnd f i)

/-- S_OR (R117). -/
def execSOr (c : CtxId) (f : Fields) (i : Issue) (s : State) : Host.Outcome State Fault Refusal :=
  .next (s.onW fun w => w.issue c .sOr f i)

/-- S_XOR (R117). -/
def execSXor (c : CtxId) (f : Fields) (i : Issue) (s : State) : Host.Outcome State Fault Refusal :=
  .next (s.onW fun w => w.issue c .sXor f i)

/-- S_SHL (R117). -/
def execSShl (c : CtxId) (f : Fields) (i : Issue) (s : State) : Host.Outcome State Fault Refusal :=
  .next (s.onW fun w => w.issue c .sShl f i)

/-- S_SHR (R117). -/
def execSShr (c : CtxId) (f : Fields) (i : Issue) (s : State) : Host.Outcome State Fault Refusal :=
  .next (s.onW fun w => w.issue c .sShr f i)

/-- S_SRA (R117). -/
def execSSra (c : CtxId) (f : Fields) (i : Issue) (s : State) : Host.Outcome State Fault Refusal :=
  .next (s.onW fun w => w.issue c .sSra f i)

/-- S_MUL (R117). -/
def execSMul (c : CtxId) (f : Fields) (i : Issue) (s : State) : Host.Outcome State Fault Refusal :=
  .next (s.onW fun w => w.issue c .sMul f i)

/-- S_MULH (R117). -/
def execSMulh (c : CtxId) (f : Fields) (i : Issue) (s : State) : Host.Outcome State Fault Refusal :=
  .next (s.onW fun w => w.issue c .sMulh f i)

/-- S_DIV (R118). -/
def execSDiv (c : CtxId) (f : Fields) (i : Issue) (s : State) : Host.Outcome State Fault Refusal :=
  .next (s.onW fun w => w.issue c .sDiv f i)

/-- S_LI (R117). -/
def execSLi (c : CtxId) (f : Fields) (i : Issue) (s : State) : Host.Outcome State Fault Refusal :=
  .next (s.onW fun w => w.issue c .sLi f i)

/-- S_INS (R117). -/
def execSIns (c : CtxId) (f : Fields) (i : Issue) (s : State) : Host.Outcome State Fault Refusal :=
  .next (s.onW fun w => w.issue c .sIns f i)

/-- S_SLT (R117). -/
def execSSlt (c : CtxId) (f : Fields) (i : Issue) (s : State) : Host.Outcome State Fault Refusal :=
  .next (s.onW fun w => w.issue c .sSlt f i)

/-- S_SLTU (R117). -/
def execSSltu (c : CtxId) (f : Fields) (i : Issue) (s : State) : Host.Outcome State Fault Refusal :=
  .next (s.onW fun w => w.issue c .sSltu f i)

/-- S_LD (R117). -/
def execSLd (c : CtxId) (f : Fields) (i : Issue) (s : State) : Host.Outcome State Fault Refusal :=
  .next (s.onW fun w => w.issue c .sLd f i)

/-- S_ST (R117). -/
def execSSt (c : CtxId) (f : Fields) (i : Issue) (s : State) : Host.Outcome State Fault Refusal :=
  .next (s.onW fun w => w.issue c .sSt f i)

/-- S_REM (R118). -/
def execSRem (c : CtxId) (f : Fields) (i : Issue) (s : State) : Host.Outcome State Fault Refusal :=
  .next (s.onW fun w => w.issue c .sRem f i)

/-- S_SYS (R119). -/
def execSSys (c : CtxId) (f : Fields) (i : Issue) (s : State) : Host.Outcome State Fault Refusal :=
  .next (s.onW fun w => w.issue c .sSys f i)

/-- BR (R117). -/
def execBr (c : CtxId) (f : Fields) (i : Issue) (s : State) : Host.Outcome State Fault Refusal :=
  .next (s.onW fun w => w.issue c .br f i)

/-- BEQ (R117). -/
def execBeq (c : CtxId) (f : Fields) (i : Issue) (s : State) : Host.Outcome State Fault Refusal :=
  .next (s.onW fun w => w.issue c .beq f i)

/-- BNE (R117). -/
def execBne (c : CtxId) (f : Fields) (i : Issue) (s : State) : Host.Outcome State Fault Refusal :=
  .next (s.onW fun w => w.issue c .bne f i)

/-- BLT (R117). -/
def execBlt (c : CtxId) (f : Fields) (i : Issue) (s : State) : Host.Outcome State Fault Refusal :=
  .next (s.onW fun w => w.issue c .blt f i)

/-- BGE (R117). -/
def execBge (c : CtxId) (f : Fields) (i : Issue) (s : State) : Host.Outcome State Fault Refusal :=
  .next (s.onW fun w => w.issue c .bge f i)

/-- BLTU (R117). -/
def execBltu (c : CtxId) (f : Fields) (i : Issue) (s : State) : Host.Outcome State Fault Refusal :=
  .next (s.onW fun w => w.issue c .bltu f i)

/-- JR (R117). -/
def execJr (c : CtxId) (f : Fields) (i : Issue) (s : State) : Host.Outcome State Fault Refusal :=
  .next (s.onW fun w => w.issue c .jr f i)

/-- ILLEGAL_OPCODE (R82, R101, R110). -/
def execIllegalOpcode (c : CtxId) (op : Byte) (s : State) : Host.Outcome State Fault Refusal :=
  .next (s.onW fun w => w.issueIllegal c op)

end Sys2Proof.Machine
end

