-- ==== Sys2Proof/Machine/InstrSync.lean ====
section
/-! DEFINITION. The meanings of the sync, frame, reduction and step instructions (R134, R135): dispatch, and what follows from it. -/

namespace Sys2Proof.Machine

/-- SL_ARM (R93). -/
def execSlArm (c : CtxId) (f : Fields) (i : Issue) (s : State) : Host.Outcome State Fault Refusal :=
  .next (s.onW fun w => w.issue c .slArm f i)

/-- SL_SIG (R93). -/
def execSlSig (c : CtxId) (f : Fields) (i : Issue) (s : State) : Host.Outcome State Fault Refusal :=
  .next (s.onW fun w => w.issue c .slSig f i)

/-- SL_WAIT (R93). -/
def execSlWait (c : CtxId) (f : Fields) (i : Issue) (s : State) : Host.Outcome State Fault Refusal :=
  .next (s.onW fun w => w.issue c .slWait f i)

/-- LF_WAIT (R87). -/
def execLfWait (c : CtxId) (f : Fields) (i : Issue) (s : State) : Host.Outcome State Fault Refusal :=
  .next (s.onW fun w => w.issue c .lfWait f i)

/-- LF_CLR (R87). -/
def execLfClr (c : CtxId) (f : Fields) (i : Issue) (s : State) : Host.Outcome State Fault Refusal :=
  .next (s.onW fun w => w.issue c .lfClr f i)

/-- FRAME_END (R88). -/
def execFrameEnd (c : CtxId) (f : Fields) (i : Issue) (s : State) : Host.Outcome State Fault Refusal :=
  .next (s.onW fun w => w.issue c .frameEnd f i)

/-- CTX_FENCE (R134). -/
def execCtxFence (c : CtxId) (f : Fields) (i : Issue) (s : State) : Host.Outcome State Fault Refusal :=
  .next (s.onW fun w => w.issue c .ctxFence f i)

/-- RED_OPEN (R311). -/
def execRedOpen (c : CtxId) (f : Fields) (i : Issue) (s : State) : Host.Outcome State Fault Refusal :=
  .next (s.onW fun w => w.issue c .redOpen f i)

/-- RED_CONTRIB (R309). -/
def execRedContrib (c : CtxId) (f : Fields) (i : Issue) (s : State) : Host.Outcome State Fault Refusal :=
  .next (s.onW fun w => w.issue c .redContrib f i)

/-- RED_CLOSE (R313). -/
def execRedClose (c : CtxId) (f : Fields) (i : Issue) (s : State) : Host.Outcome State Fault Refusal :=
  .next (s.onW fun w => w.issue c .redClose f i)

/-- STEP_COMMIT (R414). -/
def execStepCommit (c : CtxId) (f : Fields) (i : Issue) (s : State) : Host.Outcome State Fault Refusal :=
  .next (s.onW fun w => w.issue c .stepCommit f i)

/-- SCL_PIN (R60). -/
def execSclPin (c : CtxId) (f : Fields) (i : Issue) (s : State) : Host.Outcome State Fault Refusal :=
  .next (s.onW fun w => w.issue c .sclPin f i)

/-- RNG_SET (R134). -/
def execRngSet (c : CtxId) (f : Fields) (i : Issue) (s : State) : Host.Outcome State Fault Refusal :=
  .next (s.onW fun w => w.issue c .rngSet f i)

end Sys2Proof.Machine
end

