-- ==== Sys2Proof/Machine/InstrVector.lean ====
section
/-! DEFINITION. The meanings of the vector instructions (R124-R130, R176-R187): dispatch, and what follows from it. -/

namespace Sys2Proof.Machine

/-- VADD (R128). -/
def execVadd (c : CtxId) (f : Fields) (i : Issue) (s : State) : Host.Outcome State Fault Refusal :=
  .next (s.onW fun w => w.issue c .vadd f i)

/-- VSUB (R128). -/
def execVsub (c : CtxId) (f : Fields) (i : Issue) (s : State) : Host.Outcome State Fault Refusal :=
  .next (s.onW fun w => w.issue c .vsub f i)

/-- VMUL (R128). -/
def execVmul (c : CtxId) (f : Fields) (i : Issue) (s : State) : Host.Outcome State Fault Refusal :=
  .next (s.onW fun w => w.issue c .vmul f i)

/-- VMULSH (R128). -/
def execVmulsh (c : CtxId) (f : Fields) (i : Issue) (s : State) : Host.Outcome State Fault Refusal :=
  .next (s.onW fun w => w.issue c .vmulsh f i)

/-- VMAX (R128). -/
def execVmax (c : CtxId) (f : Fields) (i : Issue) (s : State) : Host.Outcome State Fault Refusal :=
  .next (s.onW fun w => w.issue c .vmax f i)

/-- VMIN (R128). -/
def execVmin (c : CtxId) (f : Fields) (i : Issue) (s : State) : Host.Outcome State Fault Refusal :=
  .next (s.onW fun w => w.issue c .vmin f i)

/-- VABS (R128). -/
def execVabs (c : CtxId) (f : Fields) (i : Issue) (s : State) : Host.Outcome State Fault Refusal :=
  .next (s.onW fun w => w.issue c .vabs f i)

/-- VNEG (R128). -/
def execVneg (c : CtxId) (f : Fields) (i : Issue) (s : State) : Host.Outcome State Fault Refusal :=
  .next (s.onW fun w => w.issue c .vneg f i)

/-- VAND (R128). -/
def execVand (c : CtxId) (f : Fields) (i : Issue) (s : State) : Host.Outcome State Fault Refusal :=
  .next (s.onW fun w => w.issue c .vand f i)

/-- VOR (R128). -/
def execVor (c : CtxId) (f : Fields) (i : Issue) (s : State) : Host.Outcome State Fault Refusal :=
  .next (s.onW fun w => w.issue c .vor f i)

/-- VXOR (R128). -/
def execVxor (c : CtxId) (f : Fields) (i : Issue) (s : State) : Host.Outcome State Fault Refusal :=
  .next (s.onW fun w => w.issue c .vxor f i)

/-- VSHL (R127). -/
def execVshl (c : CtxId) (f : Fields) (i : Issue) (s : State) : Host.Outcome State Fault Refusal :=
  .next (s.onW fun w => w.issue c .vshl f i)

/-- VSRA (R127). -/
def execVsra (c : CtxId) (f : Fields) (i : Issue) (s : State) : Host.Outcome State Fault Refusal :=
  .next (s.onW fun w => w.issue c .vsra f i)

/-- VCMP (R129). -/
def execVcmp (c : CtxId) (f : Fields) (i : Issue) (s : State) : Host.Outcome State Fault Refusal :=
  .next (s.onW fun w => w.issue c .vcmp f i)

/-- VSEL (R128). -/
def execVsel (c : CtxId) (f : Fields) (i : Issue) (s : State) : Host.Outcome State Fault Refusal :=
  .next (s.onW fun w => w.issue c .vsel f i)

/-- VBCAST (R128). -/
def execVbcast (c : CtxId) (f : Fields) (i : Issue) (s : State) : Host.Outcome State Fault Refusal :=
  .next (s.onW fun w => w.issue c .vbcast f i)

/-- VINS (R128). -/
def execVins (c : CtxId) (f : Fields) (i : Issue) (s : State) : Host.Outcome State Fault Refusal :=
  .next (s.onW fun w => w.issue c .vins f i)

/-- VEXT (R128). -/
def execVext (c : CtxId) (f : Fields) (i : Issue) (s : State) : Host.Outcome State Fault Refusal :=
  .next (s.onW fun w => w.issue c .vext f i)

/-- VLD (R128). -/
def execVld (c : CtxId) (f : Fields) (i : Issue) (s : State) : Host.Outcome State Fault Refusal :=
  .next (s.onW fun w => w.issue c .vld f i)

/-- VST (R128). -/
def execVst (c : CtxId) (f : Fields) (i : Issue) (s : State) : Host.Outcome State Fault Refusal :=
  .next (s.onW fun w => w.issue c .vst f i)

/-- VTGET (R179). -/
def execVtget (c : CtxId) (f : Fields) (i : Issue) (s : State) : Host.Outcome State Fault Refusal :=
  .next (s.onW fun w => w.issue c .vtget f i)

/-- VTPUT (R179). -/
def execVtput (c : CtxId) (f : Fields) (i : Issue) (s : State) : Host.Outcome State Fault Refusal :=
  .next (s.onW fun w => w.issue c .vtput f i)

/-- VFN (R182). -/
def execVfn (c : CtxId) (f : Fields) (i : Issue) (s : State) : Host.Outcome State Fault Refusal :=
  .next (s.onW fun w => w.issue c .vfn f i)

/-- VRED_ROW (R180). -/
def execVredRow (c : CtxId) (f : Fields) (i : Issue) (s : State) : Host.Outcome State Fault Refusal :=
  .next (s.onW fun w => w.issue c .vredRow f i)

/-- VRED_COL (R180). -/
def execVredCol (c : CtxId) (f : Fields) (i : Issue) (s : State) : Host.Outcome State Fault Refusal :=
  .next (s.onW fun w => w.issue c .vredCol f i)

/-- VCVT (R130). -/
def execVcvt (c : CtxId) (f : Fields) (i : Issue) (s : State) : Host.Outcome State Fault Refusal :=
  .next (s.onW fun w => w.issue c .vcvt f i)

/-- VUNPK (R130). -/
def execVunpk (c : CtxId) (f : Fields) (i : Issue) (s : State) : Host.Outcome State Fault Refusal :=
  .next (s.onW fun w => w.issue c .vunpk f i)

/-- VRNG (R226). -/
def execVrng (c : CtxId) (f : Fields) (i : Issue) (s : State) : Host.Outcome State Fault Refusal :=
  .next (s.onW fun w => w.issue c .vrng f i)

/-- VNOISE (R227). -/
def execVnoise (c : CtxId) (f : Fields) (i : Issue) (s : State) : Host.Outcome State Fault Refusal :=
  .next (s.onW fun w => w.issue c .vnoise f i)

/-- VSTAT (R230). -/
def execVstat (c : CtxId) (f : Fields) (i : Issue) (s : State) : Host.Outcome State Fault Refusal :=
  .next (s.onW fun w => w.issue c .vstat f i)

end Sys2Proof.Machine
end

