-- ==== Sys2Proof/Machine/Security.lean ====
section
/-! DEFINITION. SPDM, IDE key management and TDISP (R365, R366, R374-R385). -/

namespace Sys2Proof.Machine

/-- A change where a function's mailbox answers. -/
def State.atDoe (s : State) (f : Fn) (g : State → State) : Host.Outcome State Fault Refusal := .next (if s.doeOpen f then g s else s)

/-- GET_VERSION (R385): a connection begins; a session in progress is gone. -/
def execGetVersion (fn : Fn) (s : State) : Host.Outcome State Fault Refusal :=
  s.atDoe fn fun s => (s.updSpdm fn fun x =>
    { x with version := true, caps := false, algs := false, session := none, established := false, updates := 0 }).spdmSay fn 0x04 (Config.spdmBody 0x84)

/-- GET_CAPABILITIES (R385): after the version. -/
def execGetCapabilities (fn : Fn) (s : State) : Host.Outcome State Fault Refusal :=
  s.atDoe fn fun s =>
    if (s.ctl.spdmOf fn).version then (s.updSpdm fn fun x => { x with caps := true }).spdmSay fn 0x61 (Config.spdmBody 0xE1)
    else s.spdmError fn 0x04

/-- What NEGOTIATE_ALGORITHMS selects (R385): no asymmetric algorithm, the hash SHA3-384, the AEAD AES-256-GCM; the bits are those of
SPDM 1.2 (PRESUMED, log entry 54). -/
def algSelection : List Byte := leBytes 4 0 ++ leBytes 4 0x10 ++ leBytes 2 0x2

/-- NEGOTIATE_ALGORITHMS (R385): no asymmetric algorithm, SHA3-384, AES-256-GCM. -/
def execNegotiateAlgorithms (fn : Fn) (s : State) : Host.Outcome State Fault Refusal :=
  s.atDoe fn fun s =>
    if (s.ctl.spdmOf fn).caps then (s.updSpdm fn fun x => { x with algs := true }).spdmSay fn 0x63 (algSelection ++ Config.spdmBody 0xE3)
    else s.spdmError fn 0x04

/-- PSK_EXCHANGE (R385): with the function's pre-shared key. -/
def execPskExchange (fn : Fn) (req : List Byte) (s : State) : Host.Outcome State Fault Refusal :=
  s.atDoe fn fun s =>
    let x := s.ctl.spdmOf fn
    match x.psk with
    | some k =>
      if x.algs then
        let b := Config.spdmExchange k req s.w.fresh
        ((s.onW fun w => { w with fresh := w.fresh + 1 }).updSpdm fn fun x =>
          { x with session := some b, established := false, updates := 0 }).spdmSay fn 0x66 b
      else s.spdmError fn 0x04
    | none => s.spdmError fn 0x04

/-- PSK_FINISH (R385): verify data that are wrong end the exchange. -/
def execPskFinish (fn : Fn) (verify : List Byte) (s : State) : Host.Outcome State Fault Refusal :=
  s.atDoe fn fun s =>
    let x := s.ctl.spdmOf fn
    match x.psk, x.session with
    | some k, some b =>
      if x.established then s.spdmError fn 0x04
      else if Config.spdmFinishOk k b verify then
        (s.updSpdm fn fun x => { x with established := true }).spdmSay fn 0x67 (Config.spdmBody 0xE7)
      else (s.updSpdm fn fun x => { x with session := none }).spdmError fn 0x06
    | _, _ => s.spdmError fn 0x04

/-- KEY_UPDATE (R385): the session goes on under new keys. -/
def execKeyUpdate (fn : Fn) (s : State) : Host.Outcome State Fault Refusal :=
  s.atDoe fn fun s =>
    if (s.ctl.spdmOf fn).established then
      (s.updSpdm fn fun x => { x with updates := x.updates + 1 }).spdmSay fn 0x69 (Config.spdmBody 0xE9)
    else s.spdmError fn 0x04

/-- HEARTBEAT (R385). -/
def execSpdmHeartbeat (fn : Fn) (s : State) : Host.Outcome State Fault Refusal :=
  s.atDoe fn fun s => if (s.ctl.spdmOf fn).established then s.spdmSay fn 0x68 (Config.spdmBody 0xE8) else s.spdmError fn 0x04

/-- END_SESSION (R385). -/
def execEndSession (fn : Fn) (s : State) : Host.Outcome State Fault Refusal :=
  s.atDoe fn fun s =>
    if (s.ctl.spdmOf fn).established then
      (s.updSpdm fn fun x => { x with session := none, established := false, updates := 0 }).spdmSay fn 0x6C (Config.spdmBody 0xEC)
    else s.spdmError fn 0x04

/-- A vendor-defined request that R385 lists: Standard ID 3 with the vendor ID, and a code of its table. The rows of that table carry
these. -/
def VendorHdr.known (v : VendorHdr) : Bool := decide (v.standard = 3) && decide (v.vendor = Config.vendorId) && [1, 2, 3].contains v.code.toNat

/-- SPDM_UNSUPPORTED_REQUEST (R385): ERROR UnsupportedRequest, naming the request: another request than those of R385, or a vendor-defined
one of another standard, vendor or code. -/
def execSpdmUnsupportedRequest (fn : Fn) (r : SpdmOther) (s : State) : Host.Outcome State Fault Refusal :=
  s.atDoe fn fun s => if r.vendor.any VendorHdr.known then s else s.spdmSay fn 0x7F [0x07, r.code]

/-- GET_ENDORSEMENT (R376, R385). -/
def execGetEndorsement (fn : Fn) (s : State) : Host.Outcome State Fault Refusal :=
  s.atDoe fn fun s => s.vendorSay fn (endorsement s.ctl.fuse.identity)

/-- The pre-shared key of PSK_ENCAP (R385). -/
def pskOf (secret : List Byte) (f : Fn) : List Byte :=
  (shake256 (secret ++ [BitVec.ofNat 8 f.port.val, BitVec.ofNat 8 f.fn.val]) 48).take 48

/-- PSK_ENCAP (R385): a virtual function's pre-shared key, and a 16-byte hint. -/
def execPskEncap (fn : Fn) (ciphertext : List Byte) (s : State) : Host.Outcome State Fault Refusal :=
  s.atDoe fn fun s =>
    match s.w.partOf fn with
    | none => s.spdmError fn 0x07
    | some q =>
      if ciphertext.length ≠ 1568 then s.spdmError fn 0x01
      else
        let (h, w) := s.w.draw128
        (({ s with w := w } : State).updSpdm fn fun x =>
          { x with psk := some (pskOf (Config.mlkemDecap (s.w.part q).sessKey ciphertext) fn), hint := h }).vendorSay fn (leBytes 16 h.toNat)

/-- An IDE stream's place (R365): 8 selective streams a port. -/
def ideKey (f : Fn) (stream : Byte) : Nat := f.port.val * 8 + stream.toNat % 8

/-- An IDE_KM message arrives (R365): in an established session, for a stream that exists. -/
def State.atIde (s : State) (f : Fn) (stream : Byte) (g : State → State) : Host.Outcome State Fault Refusal :=
  s.atDoe f fun s =>
    if (s.ctl.spdmOf f).established then (if stream.toNat < 8 then g s else s.spdmError f 0x01) else s.spdmError f 0x04

/-- An IDE stream changed. -/
def State.updIde (s : State) (k : Nat) (g : IdeStream → IdeStream) : State :=
  s.onCtl fun c => { c with ide := c.ide.upd .zero k g }

/-- The key of a key set. -/
def IdeStream.keyOf (x : IdeStream) (set : Bool) : Option (List Byte) := if set then x.key1 else x.key0

/-- KEY_PROG (R365): a key of a stream's key set. -/
def execKeyProg (fn : Fn) (stream : Byte) (keySet : Byte) (key : List Byte) (s : State) : Host.Outcome State Fault Refusal :=
  s.atIde fn stream fun s =>
    (s.updIde (ideKey fn stream) fun x =>
      if keySet.getLsbD 0 then { x with key1 := some key, owner := some (fnKey fn) }
      else { x with key0 := some key, owner := some (fnKey fn) }).onW fun w => w.emit (.ide fn 0x03 [stream, 0])

/-- K_SET_GO (R365): a key set that holds a key is in use. -/
def execKSetGo (fn : Fn) (stream : Byte) (keySet : Byte) (s : State) : Host.Outcome State Fault Refusal :=
  s.atIde fn stream fun s =>
    let set := keySet.getLsbD 0
    if ((s.ctl.ide.get .zero (ideKey fn stream)).keyOf set).isSome then
      (s.updIde (ideKey fn stream) fun x => { x with active := some set }).onW fun w => w.emit (.ide fn 0x06 [stream])
    else s.spdmError fn 0x01

/-- K_SET_STOP (R365, R366): the keys of the set are erased. -/
def execKSetStop (fn : Fn) (stream : Byte) (keySet : Byte) (s : State) : Host.Outcome State Fault Refusal :=
  s.atIde fn stream fun s =>
    let set := keySet.getLsbD 0
    let k := ideKey fn stream
    let live := decide ((s.ctl.ide.get .zero k).active = some set)
    let s1 := s.updIde k fun x =>
      { x with key0 := if set then x.key0 else none, key1 := if set then none else x.key1, active := if live then none else x.active }
    (if live then s1.onCtl fun c => c.streamStops k else s1).onW fun w => w.emit (.ide fn 0x06 [stream])

/-- QUERY (R365). -/
def execIdeQuery (fn : Fn) (port : Byte) (s : State) : Host.Outcome State Fault Refusal :=
  s.atDoe fn fun s =>
    if (s.ctl.spdmOf fn).established then s.onW fun w => w.emit (.ide fn 0x01 (port :: Config.spdmBody 0x00)) else s.spdmError fn 0x04

/-- The windows that a device interface report lists (R26, R366, R446), each as its BAR, offset and size: the blocks of BAR0, and the
function's doorbells in BAR2. -/
def interfaceWindows : List (Nat × Nat × Nat) :=
  ([0x00, 0x01, 0x02, 0x03, 0x04, 0x05, 0x06].map fun i => (0, i * 2 ^ 20, 2 ^ 20)) ++
    [(0, 0x0800000, 2 ^ 21), (0, 0x0A00000, 2 ^ 21), (0, 0x1000000, 2 ^ 24), (0, 0x2000000, 2 ^ 20), (0, 0x3000000, 2 ^ 24),
     (2, 0, 65536)]

/-- The bytes of a device interface report; the spec gives what it lists, not its form (DESIGN CHOICE, log entry 114). -/
def interfaceReport : List Byte :=
  interfaceWindows.flatMap fun x => leBytes 1 x.1 ++ leBytes 8 x.2.1 ++ leBytes 8 x.2.2

/-- A TDISP request of a virtual function (R366): the states are those that R366 names; that LOCK_INTERFACE binds a stream in use
and START_INTERFACE enters RUN is the TDISP standard's (PRESUMED, log entry 114). -/
def State.tdispRequest (s : State) (fn : Fn) (m : TdispMsg) : State :=
  let t := s.ctl.tdisp.get .zero (fnKey fn)
  let move := fun (x : TdispIf) => (s.onCtl fun c => { c with tdisp := c.tdisp.set .zero (fnKey fn) x }).spdmSay fn 0x7E (Config.spdmBody 0xFE)
  match m with
  | .stop => move .zero
  | .lock stream =>
    if t.st = .configUnlocked ∧ (s.ctl.ide.get .zero (ideKey fn stream)).active.isSome = true then move ⟨.configLocked, some (ideKey fn stream)⟩
    else s.spdmError fn 0x04
  | .start => if t.st = .configLocked then move { t with st := .run } else s.spdmError fn 0x04
  | .report => if t.st = .configLocked ∨ t.st = .run then s.spdmSay fn 0x7E interfaceReport else s.spdmError fn 0x04

/-- STOP_INTERFACE_REQUEST (R366): a virtual function's interface is CONFIG_UNLOCKED. The row carries the other TDISP requests too, since
the table has none for them (DESIGN CHOICE, log entry 114). -/
def execStopInterfaceRequest (fn : TdispReq) (s : State) : Host.Outcome State Fault Refusal :=
  s.atDoe fn.fn fun s => if fn.fn.fn = 0 then s.spdmError fn.fn 0x07 else s.tdispRequest fn.fn fn.msg

/-- A request is accepted by a device interface (R366): in RUN only with the T bit on the stream bound to it, in ERROR never. -/
def TdispIf.accepts (t : TdispIf) (tBit : Bool) (stream : Nat) : Bool :=
  match t.st with
  | .configUnlocked | .configLocked => true
  | .run => tBit && decide (t.bound = some stream)
  | .error => false

/-- TDISP_REQUEST_CHECK (R366): a request that is not accepted completes as Unsupported Request; in RUN it is logged. -/
def execTdispRequestCheck (fn : Fn) (tBit : Bool) (stream : Byte) (s : State) : Host.Outcome State Fault Refusal :=
  let t := s.ctl.tdisp.get .zero (fnKey fn)
  .next (
    if s.ctl.pins.off ∨ fn.fn = 0 ∨ t.accepts tBit (ideKey fn stream) = true then s
    else
      let w1 := s.w.emit (.unsupported fn)
      { s with w := if t.st = .run then w1.logSec (w1.fnPart fn) 2 (fnKey fn) else w1 })

end Sys2Proof.Machine
end

