-- ==== Sys2Proof/Machine/Dispatch.lean ====
section
/-! DEFINITION. The dispatch of a command to its meaning: one arm per constructor. -/

namespace Sys2Proof.Machine

/-- The effect of a command on everything but the queue. -/
def exec (i : Instr) (s : State) : Host.Outcome State Fault Refusal :=
  match i with
  | .nop c f iss => Sys2Proof.Machine.execNop c f iss s
  | .sAdd c f iss => Sys2Proof.Machine.execSAdd c f iss s
  | .sSub c f iss => Sys2Proof.Machine.execSSub c f iss s
  | .sAnd c f iss => Sys2Proof.Machine.execSAnd c f iss s
  | .sOr c f iss => Sys2Proof.Machine.execSOr c f iss s
  | .sXor c f iss => Sys2Proof.Machine.execSXor c f iss s
  | .sShl c f iss => Sys2Proof.Machine.execSShl c f iss s
  | .sShr c f iss => Sys2Proof.Machine.execSShr c f iss s
  | .sSra c f iss => Sys2Proof.Machine.execSSra c f iss s
  | .sMul c f iss => Sys2Proof.Machine.execSMul c f iss s
  | .sMulh c f iss => Sys2Proof.Machine.execSMulh c f iss s
  | .sDiv c f iss => Sys2Proof.Machine.execSDiv c f iss s
  | .sLi c f iss => Sys2Proof.Machine.execSLi c f iss s
  | .sIns c f iss => Sys2Proof.Machine.execSIns c f iss s
  | .sSlt c f iss => Sys2Proof.Machine.execSSlt c f iss s
  | .sSltu c f iss => Sys2Proof.Machine.execSSltu c f iss s
  | .sLd c f iss => Sys2Proof.Machine.execSLd c f iss s
  | .sSt c f iss => Sys2Proof.Machine.execSSt c f iss s
  | .sRem c f iss => Sys2Proof.Machine.execSRem c f iss s
  | .sSys c f iss => Sys2Proof.Machine.execSSys c f iss s
  | .br c f iss => Sys2Proof.Machine.execBr c f iss s
  | .beq c f iss => Sys2Proof.Machine.execBeq c f iss s
  | .bne c f iss => Sys2Proof.Machine.execBne c f iss s
  | .blt c f iss => Sys2Proof.Machine.execBlt c f iss s
  | .bge c f iss => Sys2Proof.Machine.execBge c f iss s
  | .bltu c f iss => Sys2Proof.Machine.execBltu c f iss s
  | .jr c f iss => Sys2Proof.Machine.execJr c f iss s
  | .illegalOpcode c op => Sys2Proof.Machine.execIllegalOpcode c op s
  | .mmfBi8 c f iss => Sys2Proof.Machine.execMmfBi8 c f iss s
  | .mmfBi4 c f iss => Sys2Proof.Machine.execMmfBi4 c f iss s
  | .mmfBi16x8 c f iss => Sys2Proof.Machine.execMmfBi16x8 c f iss s
  | .mmfBi16 c f iss => Sys2Proof.Machine.execMmfBi16 c f iss s
  | .mmbxBi8 c f iss => Sys2Proof.Machine.execMmbxBi8 c f iss s
  | .mmbxBi4 c f iss => Sys2Proof.Machine.execMmbxBi4 c f iss s
  | .mmbxBi16x8 c f iss => Sys2Proof.Machine.execMmbxBi16x8 c f iss s
  | .mmbxBi16 c f iss => Sys2Proof.Machine.execMmbxBi16 c f iss s
  | .mmbwBi8 c f iss => Sys2Proof.Machine.execMmbwBi8 c f iss s
  | .mmbwBi4 c f iss => Sys2Proof.Machine.execMmbwBi4 c f iss s
  | .mmbwBi16x8 c f iss => Sys2Proof.Machine.execMmbwBi16x8 c f iss s
  | .mmbwBi16 c f iss => Sys2Proof.Machine.execMmbwBi16 c f iss s
  | .accZero c f iss => Sys2Proof.Machine.execAccZero c f iss s
  | .accZeroB c f iss => Sys2Proof.Machine.execAccZeroB c f iss s
  | .accDrain c f iss => Sys2Proof.Machine.execAccDrain c f iss s
  | .accDrainB c f iss => Sys2Proof.Machine.execAccDrainB c f iss s
  | .accMax c f iss => Sys2Proof.Machine.execAccMax c f iss s
  | .accMaxB c f iss => Sys2Proof.Machine.execAccMaxB c f iss s
  | .accMin c f iss => Sys2Proof.Machine.execAccMin c f iss s
  | .accMinB c f iss => Sys2Proof.Machine.execAccMinB c f iss s
  | .vadd c f iss => Sys2Proof.Machine.execVadd c f iss s
  | .vsub c f iss => Sys2Proof.Machine.execVsub c f iss s
  | .vmul c f iss => Sys2Proof.Machine.execVmul c f iss s
  | .vmulsh c f iss => Sys2Proof.Machine.execVmulsh c f iss s
  | .vmax c f iss => Sys2Proof.Machine.execVmax c f iss s
  | .vmin c f iss => Sys2Proof.Machine.execVmin c f iss s
  | .vabs c f iss => Sys2Proof.Machine.execVabs c f iss s
  | .vneg c f iss => Sys2Proof.Machine.execVneg c f iss s
  | .vand c f iss => Sys2Proof.Machine.execVand c f iss s
  | .vor c f iss => Sys2Proof.Machine.execVor c f iss s
  | .vxor c f iss => Sys2Proof.Machine.execVxor c f iss s
  | .vshl c f iss => Sys2Proof.Machine.execVshl c f iss s
  | .vsra c f iss => Sys2Proof.Machine.execVsra c f iss s
  | .vcmp c f iss => Sys2Proof.Machine.execVcmp c f iss s
  | .vsel c f iss => Sys2Proof.Machine.execVsel c f iss s
  | .vbcast c f iss => Sys2Proof.Machine.execVbcast c f iss s
  | .vins c f iss => Sys2Proof.Machine.execVins c f iss s
  | .vext c f iss => Sys2Proof.Machine.execVext c f iss s
  | .vld c f iss => Sys2Proof.Machine.execVld c f iss s
  | .vst c f iss => Sys2Proof.Machine.execVst c f iss s
  | .vtget c f iss => Sys2Proof.Machine.execVtget c f iss s
  | .vtput c f iss => Sys2Proof.Machine.execVtput c f iss s
  | .vfn c f iss => Sys2Proof.Machine.execVfn c f iss s
  | .vredRow c f iss => Sys2Proof.Machine.execVredRow c f iss s
  | .vredCol c f iss => Sys2Proof.Machine.execVredCol c f iss s
  | .vcvt c f iss => Sys2Proof.Machine.execVcvt c f iss s
  | .vunpk c f iss => Sys2Proof.Machine.execVunpk c f iss s
  | .vrng c f iss => Sys2Proof.Machine.execVrng c f iss s
  | .vnoise c f iss => Sys2Proof.Machine.execVnoise c f iss s
  | .vstat c f iss => Sys2Proof.Machine.execVstat c f iss s
  | .dmaGet c f iss => Sys2Proof.Machine.execDmaGet c f iss s
  | .dmaPut c f iss => Sys2Proof.Machine.execDmaPut c f iss s
  | .dmaCopy c f iss => Sys2Proof.Machine.execDmaCopy c f iss s
  | .dmaFill c f iss => Sys2Proof.Machine.execDmaFill c f iss s
  | .tLd c f iss => Sys2Proof.Machine.execTLd c f iss s
  | .tSt c f iss => Sys2Proof.Machine.execTSt c f iss s
  | .peatPush c f iss => Sys2Proof.Machine.execPeatPush c f iss s
  | .peatPop c f iss => Sys2Proof.Machine.execPeatPop c f iss s
  | .fabPut c f iss => Sys2Proof.Machine.execFabPut c f iss s
  | .fabGet c f iss => Sys2Proof.Machine.execFabGet c f iss s
  | .fabMcast c f iss => Sys2Proof.Machine.execFabMcast c f iss s
  | .slArm c f iss => Sys2Proof.Machine.execSlArm c f iss s
  | .slSig c f iss => Sys2Proof.Machine.execSlSig c f iss s
  | .slWait c f iss => Sys2Proof.Machine.execSlWait c f iss s
  | .lfWait c f iss => Sys2Proof.Machine.execLfWait c f iss s
  | .lfClr c f iss => Sys2Proof.Machine.execLfClr c f iss s
  | .frameEnd c f iss => Sys2Proof.Machine.execFrameEnd c f iss s
  | .ctxFence c f iss => Sys2Proof.Machine.execCtxFence c f iss s
  | .redOpen c f iss => Sys2Proof.Machine.execRedOpen c f iss s
  | .redContrib c f iss => Sys2Proof.Machine.execRedContrib c f iss s
  | .redClose c f iss => Sys2Proof.Machine.execRedClose c f iss s
  | .stepCommit c f iss => Sys2Proof.Machine.execStepCommit c f iss s
  | .sclPin c f iss => Sys2Proof.Machine.execSclPin c f iss s
  | .rngSet c f iss => Sys2Proof.Machine.execRngSet c f iss s
  | .instructionStart c q => Sys2Proof.Machine.execInstructionStart c q s
  | .instructionComplete c q k ev => Sys2Proof.Machine.execInstructionComplete c q k ev s
  | .icacheLineFill c => Sys2Proof.Machine.execIcacheLineFill c s
  | .scaleEntryArrival n tensor => Sys2Proof.Machine.execScaleEntryArrival n tensor s
  | .sluiceSignalApply sl n => Sys2Proof.Machine.execSluiceSignalApply sl n s
  | .sluiceWaitResume c => Sys2Proof.Machine.execSluiceWaitResume c s
  | .lfWaitResume c => Sys2Proof.Machine.execLfWaitResume c s
  | .dmaPutAccepted k ev => Sys2Proof.Machine.execDmaPutAccepted k ev s
  | .peatSpill n => Sys2Proof.Machine.execPeatSpill n s
  | .peatFetchBack n laneB ev => Sys2Proof.Machine.execPeatFetchBack n laneB ev s
  | .peatPopCopyComplete c => Sys2Proof.Machine.execPeatPopCopyComplete c s
  | .peatPushSpaceAvailable c => Sys2Proof.Machine.execPeatPushSpaceAvailable c s
  | .weightWriteWaitRelease c => Sys2Proof.Machine.execWeightWriteWaitRelease c s
  | .heldWriteRelease q k ev => Sys2Proof.Machine.execHeldWriteRelease q k ev s
  | .combiningDrainResult c => Sys2Proof.Machine.execCombiningDrainResult c s
  | .frameTick m => Sys2Proof.Machine.execFrameTick m s
  | .segmentStart c => Sys2Proof.Machine.execSegmentStart c s
  | .latenessExceedsSlack c dt => Sys2Proof.Machine.execLatenessExceedsSlack c dt s
  | .partitionPause q => Sys2Proof.Machine.execPartitionPause q s
  | .partitionResume q => Sys2Proof.Machine.execPartitionResume q s
  | .healthScoreCompute m => Sys2Proof.Machine.execHealthScoreCompute m s
  | .clockPointChange => Sys2Proof.Machine.execClockPointChange s
  | .sequentialModeChange n core => Sys2Proof.Machine.execSequentialModeChange n core s
  | .ftimeStep => Sys2Proof.Machine.execFtimeStep s
  | .framePeriodChange => Sys2Proof.Machine.execFramePeriodChange s
  | .messageAgeOut c q k => Sys2Proof.Machine.execMessageAgeOut c q k s
  | .unitResetExit u => Sys2Proof.Machine.execUnitResetExit u s
  | .coreFailure n core => Sys2Proof.Machine.execCoreFailure n core s
  | .spareSubstitution n core b => Sys2Proof.Machine.execSpareSubstitution n core b s
  | .clusterLoss n cl => Sys2Proof.Machine.execClusterLoss n cl s
  | .sliceLoss n => Sys2Proof.Machine.execSliceLoss n s
  | .bHalfFailure n core half => Sys2Proof.Machine.execBHalfFailure n core half s
  | .channelFail st j => Sys2Proof.Machine.execChannelFail st j s
  | .patrolRead pa ev => Sys2Proof.Machine.execPatrolRead pa ev s
  | .refresh st => Sys2Proof.Machine.execRefresh st s
  | .stackTempCrossing st hot => Sys2Proof.Machine.execStackTempCrossing st hot s
  | .refreshModeChange st => Sys2Proof.Machine.execRefreshModeChange st s
  | .readAheadFill c ev => Sys2Proof.Machine.execReadAheadFill c ev s
  | .drainTimeout u => Sys2Proof.Machine.execDrainTimeout u s
  | .sqTailDoorbell fn k v => Sys2Proof.Machine.execSqTailDoorbell fn k v s
  | .cqHeadDoorbell fn k v => Sys2Proof.Machine.execCqHeadDoorbell fn k v s
  | .staitheFetch fn k entry => Sys2Proof.Machine.execStaitheFetch fn k entry s
  | .staitheResumeFetch => Sys2Proof.Machine.execStaitheResumeFetch s
  | .interruptCoalesceTimer fn k => Sys2Proof.Machine.execInterruptCoalesceTimer fn k s
  | .queueContextGrant fn => Sys2Proof.Machine.execQueueContextGrant fn s
  | .createQueue r => Sys2Proof.Machine.execCreateQueue r s
  | .deleteQueue r => Sys2Proof.Machine.execDeleteQueue r s
  | .hostWrite r host ev => Sys2Proof.Machine.execHostWrite r host ev s
  | .hostRead r hostOk ev => Sys2Proof.Machine.execHostRead r hostOk ev s
  | .load r => Sys2Proof.Machine.execLoad r s
  | .unload r => Sys2Proof.Machine.execUnload r s
  | .resume r => Sys2Proof.Machine.execResume r s
  | .plan r => Sys2Proof.Machine.execPlan r s
  | .planDeferredWrite q => Sys2Proof.Machine.execPlanDeferredWrite q s
  | .page r => Sys2Proof.Machine.execPage r s
  | .pageEntryApply q => Sys2Proof.Machine.execPageEntryApply q s
  | .domain r => Sys2Proof.Machine.execDomain r s
  | .package r => Sys2Proof.Machine.execPackage r s
  | .checkpoint r hostOk => Sys2Proof.Machine.execCheckpoint r hostOk s
  | .restore r host => Sys2Proof.Machine.execRestore r host s
  | .rebuild r => Sys2Proof.Machine.execRebuild r s
  | .rebuildChunk slot verified => Sys2Proof.Machine.execRebuildChunk slot verified s
  | .manifest r host => Sys2Proof.Machine.execManifest r host s
  | .enrol r host => Sys2Proof.Machine.execEnrol r host s
  | .remove r => Sys2Proof.Machine.execRemove r s
  | .scrubComplete n => Sys2Proof.Machine.execScrubComplete n s
  | .graceWindowEnd q => Sys2Proof.Machine.execGraceWindowEnd q s
  | .assign r => Sys2Proof.Machine.execAssign r s
  | .hostReset r boot => Sys2Proof.Machine.execHostReset r boot s
  | .getVersion fn => Sys2Proof.Machine.execGetVersion fn s
  | .getCapabilities fn => Sys2Proof.Machine.execGetCapabilities fn s
  | .negotiateAlgorithms fn => Sys2Proof.Machine.execNegotiateAlgorithms fn s
  | .pskExchange fn req => Sys2Proof.Machine.execPskExchange fn req s
  | .pskFinish fn verify => Sys2Proof.Machine.execPskFinish fn verify s
  | .keyUpdate fn => Sys2Proof.Machine.execKeyUpdate fn s
  | .spdmHeartbeat fn => Sys2Proof.Machine.execSpdmHeartbeat fn s
  | .endSession fn => Sys2Proof.Machine.execEndSession fn s
  | .spdmUnsupportedRequest fn code => Sys2Proof.Machine.execSpdmUnsupportedRequest fn code s
  | .getReport fn nonce part => Sys2Proof.Machine.execGetReport fn nonce part s
  | .getEndorsement fn => Sys2Proof.Machine.execGetEndorsement fn s
  | .pskEncap fn ciphertext => Sys2Proof.Machine.execPskEncap fn ciphertext s
  | .keyProg fn stream keySet key => Sys2Proof.Machine.execKeyProg fn stream keySet key s
  | .kSetGo fn stream keySet => Sys2Proof.Machine.execKSetGo fn stream keySet s
  | .kSetStop fn stream keySet => Sys2Proof.Machine.execKSetStop fn stream keySet s
  | .ideQuery fn port => Sys2Proof.Machine.execIdeQuery fn port s
  | .stopInterfaceRequest fn => Sys2Proof.Machine.execStopInterfaceRequest fn s
  | .tdispRequestCheck fn tBit stream => Sys2Proof.Machine.execTdispRequestCheck fn tBit stream s
  | .functionLevelReset fn => Sys2Proof.Machine.execFunctionLevelReset fn s
  | .pcieLinkDown p => Sys2Proof.Machine.execPcieLinkDown p s
  | .aqEnable fn v => Sys2Proof.Machine.execAqEnable fn v s
  | .aqDisable fn v => Sys2Proof.Machine.execAqDisable fn v s
  | .fnCfgWrite who fn v => Sys2Proof.Machine.execFnCfgWrite who fn v s
  | .disableStatusRead who unit => Sys2Proof.Machine.execDisableStatusRead who unit s
  | .ftimeLowRead who => Sys2Proof.Machine.execFtimeLowRead who s
  | .registerWrite who off size v => Sys2Proof.Machine.execRegisterWrite who off size v s
  | .scaleClear who n v => Sys2Proof.Machine.execScaleClear who n v s
  | .accClear who n v => Sys2Proof.Machine.execAccClear who n v s
  | .vecClear who n v => Sys2Proof.Machine.execVecClear who n v s
  | .clearVer who n v => Sys2Proof.Machine.execClearVer who n v s
  | .clearPeat who n v => Sys2Proof.Machine.execClearPeat who n v s
  | .statClear who n v => Sys2Proof.Machine.execStatClear who n v s
  | .errClear who st v => Sys2Proof.Machine.execErrClear who st v s
  | .portClear who p v => Sys2Proof.Machine.execPortClear who p v s
  | .redClear who q v => Sys2Proof.Machine.execRedClear who q v s
  | .integrityClear who q v => Sys2Proof.Machine.execIntegrityClear who q v s
  | .pwrClear who v => Sys2Proof.Machine.execPwrClear who v s
  | .sluSignalWrite who sl v => Sys2Proof.Machine.execSluSignalWrite who sl v s
  | .teTrain who st failed => Sys2Proof.Machine.execTeTrain who st failed s
  | .teMarch who st v found => Sys2Proof.Machine.execTeMarch who st v found s
  | .teRawWrite who st v => Sys2Proof.Machine.execTeRawWrite who st v s
  | .teRawRead who st v => Sys2Proof.Machine.execTeRawRead who st v s
  | .teBudget who st v => Sys2Proof.Machine.execTeBudget who st v s
  | .teSoftRepair who st v => Sys2Proof.Machine.execTeSoftRepair who st v s
  | .teHardRepair who st v verified => Sys2Proof.Machine.execTeHardRepair who st v verified s
  | .teSoftUndo who st v => Sys2Proof.Machine.execTeSoftUndo who st v s
  | .teP1500 who st shiftedOut => Sys2Proof.Machine.execTeP1500 who st shiftedOut s
  | .teInvalidCommand who st v => Sys2Proof.Machine.execTeInvalidCommand who st v s
  | .teCommandDone st => Sys2Proof.Machine.execTeCommandDone st s
  | .portEnable who p => Sys2Proof.Machine.execPortEnable who p s
  | .portDisable who p => Sys2Proof.Machine.execPortDisable who p s
  | .slotCommit who p v => Sys2Proof.Machine.execSlotCommit who p v s
  | .slotCommitApply p => Sys2Proof.Machine.execSlotCommitApply p s
  | .linkRekey who p v => Sys2Proof.Machine.execLinkRekey who p v s
  | .timePeriodReq who v => Sys2Proof.Machine.execTimePeriodReq who v s
  | .fenceReset who u => Sys2Proof.Machine.execFenceReset who u s
  | .fenceHold who u => Sys2Proof.Machine.execFenceHold who u s
  | .returnToService who u => Sys2Proof.Machine.execReturnToService who u s
  | .threshWrite who v => Sys2Proof.Machine.execThreshWrite who v s
  | .capWrite who v => Sys2Proof.Machine.execCapWrite who v s
  | .bringupRelease who v boot => Sys2Proof.Machine.execBringupRelease who v boot s
  | .patchCommit who v => Sys2Proof.Machine.execPatchCommit who v s
  | .patchErase who v => Sys2Proof.Machine.execPatchErase who v s
  | .socketRelease who k v => Sys2Proof.Machine.execSocketRelease who k v s
  | .bmcTransaction isWrite off v => Sys2Proof.Machine.execBmcTransaction isWrite off v s
  | .jtagExtest cells => Sys2Proof.Machine.execJtagExtest cells s
  | .jtagIdcode => Sys2Proof.Machine.execJtagIdcode s
  | .jtagSamplePreload sampled shiftIn => Sys2Proof.Machine.execJtagSamplePreload sampled shiftIn s
  | .jtagClamp => Sys2Proof.Machine.execJtagClamp s
  | .jtagHighz => Sys2Proof.Machine.execJtagHighz s
  | .jtagUnlock token => Sys2Proof.Machine.execJtagUnlock token s
  | .jtagDtmcs v => Sys2Proof.Machine.execJtagDtmcs v s
  | .jtagDmi v => Sys2Proof.Machine.execJtagDmi v s
  | .jtagBypass op tdi => Sys2Proof.Machine.execJtagBypass op tdi s
  | .powerOn boot => Sys2Proof.Machine.execPowerOn boot s
  | .mainInputDip mv => Sys2Proof.Machine.execMainInputDip mv s
  | .mainInputRecover belowNs minMv => Sys2Proof.Machine.execMainInputRecover belowNs minMv s
  | .dipTimerExpiry dt => Sys2Proof.Machine.execDipTimerExpiry dt s
  | .dipReturn => Sys2Proof.Machine.execDipReturn s
  | .supplyReset mv => Sys2Proof.Machine.execSupplyReset mv s
  | .regulatorShutdown => Sys2Proof.Machine.execRegulatorShutdown s
  | .pwrgoodDeassert => Sys2Proof.Machine.execPwrgoodDeassert s
  | .perstAssert => Sys2Proof.Machine.execPerstAssert s
  | .perstDeassert boot => Sys2Proof.Machine.execPerstDeassert boot s
  | .thermalThrottleOnset src tj => Sys2Proof.Machine.execThermalThrottleOnset src tj s
  | .thermalThrottleRelease => Sys2Proof.Machine.execThermalThrottleRelease s
  | .thermalTrip src => Sys2Proof.Machine.execThermalTrip src s
  | .frefclkLoss => Sys2Proof.Machine.execFrefclkLoss s
  | .frefclkRestored => Sys2Proof.Machine.execFrefclkRestored s
  | .sitePpsEdge elapsed => Sys2Proof.Machine.execSitePpsEdge elapsed s
  | .siteInputValid => Sys2Proof.Machine.execSiteInputValid s
  | .siteInputInvalid => Sys2Proof.Machine.execSiteInputInvalid s
  | .heartbeatSend => Sys2Proof.Machine.execHeartbeatSend s
  | .heartbeatMiss fatal miss boot => Sys2Proof.Machine.execHeartbeatMiss fatal miss boot s
  | .idleFlit p fl => Sys2Proof.Machine.execIdleFlit p fl s
  | .holdFlit p fl => Sys2Proof.Machine.execHoldFlit p fl s
  | .dataFlit p fl => Sys2Proof.Machine.execDataFlit p fl s
  | .linkNak p seq => Sys2Proof.Machine.execLinkNak p seq s
  | .spareCmd p lam pair => Sys2Proof.Machine.execSpareCmd p lam pair s
  | .spareAck p lam spare => Sys2Proof.Machine.execSpareAck p lam spare s
  | .probe p m => Sys2Proof.Machine.execProbe p m s
  | .probeReply p t1 t2 t3 t4 => Sys2Proof.Machine.execProbeReply p t1 t2 t3 t4 s
  | .linkRetrain p => Sys2Proof.Machine.execLinkRetrain p s
  | .ctlRepeatTimer p => Sys2Proof.Machine.execCtlRepeatTimer p s
  | .probeTimer p => Sys2Proof.Machine.execProbeTimer p s
  | .wavelengthBad p lam pair => Sys2Proof.Machine.execWavelengthBad p lam pair s
  | .lightPresent p lams => Sys2Proof.Machine.execLightPresent p lams s
  | .portTrainComplete p good peerOffer => Sys2Proof.Machine.execPortTrainComplete p good peerOffer s
  | .portTrainRetry p => Sys2Proof.Machine.execPortTrainRetry p s
  | .helloRetry p => Sys2Proof.Machine.execHelloRetry p s
  | .uncorrectableBurst p => Sys2Proof.Machine.execUncorrectableBurst p s
  | .nakNoProgress p => Sys2Proof.Machine.execNakNoProgress p s
  | .authFailBurst p => Sys2Proof.Machine.execAuthFailBurst p s
  | .linkRekeyTimer p => Sys2Proof.Machine.execLinkRekeyTimer p s
  | .linkHello p h => Sys2Proof.Machine.execLinkHello p h s
  | .linkOffer p m => Sys2Proof.Machine.execLinkOffer p m s
  | .linkAccept p m => Sys2Proof.Machine.execLinkAccept p m s
  | .linkDone p m => Sys2Proof.Machine.execLinkDone p m s
  | .packetForward p pk ev => Sys2Proof.Machine.execPacketForward p pk ev s
  | .scheduledWindowSend p slot => Sys2Proof.Machine.execScheduledWindowSend p slot s
  | .writePacket p pk ev => Sys2Proof.Machine.execWritePacket p pk ev s
  | .readRequest p pk ev => Sys2Proof.Machine.execReadRequest p pk ev s
  | .readReply p pk => Sys2Proof.Machine.execReadReply p pk s
  | .ackPacket p pk => Sys2Proof.Machine.execAckPacket p pk s
  | .flowNakPacket p pk => Sys2Proof.Machine.execFlowNakPacket p pk s
  | .flowAckEmit k => Sys2Proof.Machine.execFlowAckEmit k s
  | .flowNakEmit k => Sys2Proof.Machine.execFlowNakEmit k s
  | .flowTimeout k => Sys2Proof.Machine.execFlowTimeout k s
  | .flowReset p pk => Sys2Proof.Machine.execFlowReset p pk s
  | .sluiceSignalMessage p pk => Sys2Proof.Machine.execSluiceSignalMessage p pk s
  | .sluicePublication p pk => Sys2Proof.Machine.execSluicePublication p pk s
  | .commitDecision q job rx => Sys2Proof.Machine.execCommitDecision q job rx s
  | .commitDeadlineExpiry q job => Sys2Proof.Machine.execCommitDeadlineExpiry q job s
  | .stepAbort p pk => Sys2Proof.Machine.execStepAbort p pk s
  | .home2Takeover q job => Sys2Proof.Machine.execHome2Takeover q job s
  | .stepCommitApply q job => Sys2Proof.Machine.execStepCommitApply q job s
  | .stepRollback q job => Sys2Proof.Machine.execStepRollback q job s
  | .contextRestart q job => Sys2Proof.Machine.execContextRestart q job s
  | .codeDelta p pk => Sys2Proof.Machine.execCodeDelta p pk s
  | .rebuildContribution p pk slot => Sys2Proof.Machine.execRebuildContribution p pk slot s
  | .redContributionPacket p pk => Sys2Proof.Machine.execRedContributionPacket p pk s
  | .redPartialPacket p pk => Sys2Proof.Machine.execRedPartialPacket p pk s
  | .redResultPacket p pk => Sys2Proof.Machine.execRedResultPacket p pk s
  | .redNoticePacket p pk => Sys2Proof.Machine.execRedNoticePacket p pk s
  | .redRetryPacket p pk => Sys2Proof.Machine.execRedRetryPacket p pk s
  | .redUnknownKind p pk => Sys2Proof.Machine.execRedUnknownKind p pk s
  | .redNodeClose job bucket => Sys2Proof.Machine.execRedNodeClose job bucket s
  | .rekeyBlock n d ev => Sys2Proof.Machine.execRekeyBlock n d ev s
  | .rekeyComplete q d => Sys2Proof.Machine.execRekeyComplete q d s
  | .laserPresenceAssert k => Sys2Proof.Machine.execLaserPresenceAssert k s
  | .laserAuthResponse k m busOk => Sys2Proof.Machine.execLaserAuthResponse k m busOk s
  | .laserLightStable k => Sys2Proof.Machine.execLaserLightStable k s
  | .laserBiasSample k biasNow temp => Sys2Proof.Machine.execLaserBiasSample k biasNow temp s
  | .laserLifeWrite k => Sys2Proof.Machine.execLaserLifeWrite k s
  | .laserPresenceDeassert k => Sys2Proof.Machine.execLaserPresenceDeassert k s
  | .laserInterrupt k status => Sys2Proof.Machine.execLaserInterrupt k status s
  | .holdover => Sys2Proof.Machine.execHoldover s
  | .fabricDieReset d => Sys2Proof.Machine.execFabricDieReset d s
  | .pwrgoodAssert boot => Sys2Proof.Machine.execPwrgoodAssert boot s
  | .mainInputReturn mv boot => Sys2Proof.Machine.execMainInputReturn mv boot s
  | .portTrainFailed p => Sys2Proof.Machine.execPortTrainFailed p s

end Sys2Proof.Machine
end

