-- ==== Sys2Proof/Safety.lean ====
section
/-! DEFINITION. What counts as a safe run, in the terms that claims use. -/

namespace Sys2Proof.Machine

/-- A command completes: `exec` answers a next state. -/
def Completes (i : Instr) (s : State) : Prop := ∃ t, exec i s = .next t

/-- Nothing stands between a context's dispatch and an instruction's effect (R70, R81-R85, R144, R147, R410): the context runs and
nothing holds it, its core is not fenced, its PC is good, and nothing that the core's contexts have dispatched is
outstanding. -/
def Work.ready (w : Work) (c : CtxId) : Prop :=
  (w.ctx c).st = .running ∧ (w.ctx c).hold = .none ∧ w.coreFenced c = false ∧ (w.ctx c).pc % 8 = 0 ∧
    (w.ctx c).pc < (w.ctx c).decl.imageSize ∧ (w.core c).bPending = none ∧ ∀ k : Fin 4, (w.ctx { c with ctx := k }).infl = []

/-- A context's instruction has run at once, and nothing but its context has changed: the context is `k`, with the PC at `pc`. -/
def CtxDone (s : State) (o : Host.Outcome State Fault Refusal) (c : CtxId) (k : Ctx) (pc : Nat) : Prop :=
  ∃ t, o = .next t ∧ t.ctl = s.ctl ∧ t.pending = s.pending ∧ t.w = { s.w with ctxs := t.w.ctxs, nextId := s.w.nextId + 1 } ∧
    (∀ e, e ≠ c → t.w.ctx e = s.w.ctx e) ∧
    t.w.ctx c = { k with pc := pc, dispatchPc := (s.w.ctx c).pc, busy := true }

/-- The context after an engine's instruction that it dispatched has completed (R82, R84, R87, R116): the PC has moved on by 8, and
the local flag that MOD names has increased by 1. -/
def Ctx.ran (k : Ctx) (f : Fields) : Ctx :=
  { k with pc := k.pc + 8, dispatchPc := k.pc, busy := true
           flags := if f.mod.getLsbD 15 then
               k.flags.set 0 (f.mod.toNat / 2048 % 16) ((k.flags.get 0 (f.mod.toNat / 2048 % 16) + 1) % 65536)
             else k.flags }

/-- The core after one of its engines has taken an instruction of a context (R83): the next context is the first that the engine
serves. -/
def Core.took (k : Core) (c : CtxId) (q : Queue) : Core :=
  { k with served := k.served.set 0 (queueCode q).toNat ((c.ctx.val + 1) % 4) }

/-- The core after one of its engines has taken an operation (R83, R144): of a product, its group is noted as that which started last. -/
def Core.tookOp (k : Core) (c : CtxId) (op : KOp) : Core :=
  { k.took c op.queue with lastB := if op.isProduct then decide (op.queue = .B) else k.lastB }

/-- Nothing has changed but one core, its contexts' own state aside, one context of it, and what `w` of the rest says: the
management state, the commands that wait, the other contexts and the other cores are as they were. -/
def Elsewhere (s t : State) (c : CtxId) : Prop :=
  t.ctl = s.ctl ∧ t.pending = s.pending ∧ (∀ e, e ≠ c → t.w.ctx e = s.w.ctx e) ∧
    ∀ e, coreKey e ≠ coreKey c → t.w.core e = s.w.core e

/-- A byte at an offset of a context's local window, or of its cluster window (R78, R79). -/
def winByte (w : Work) (c : CtxId) (cluster : Bool) (off : Nat) : Byte :=
  if cluster then Mem.read (w.clusters.get [] (clusterKey c)) ((w.ctx c).decl.clusterBase + off)
  else (w.core c).localMem.read ((w.ctx c).decl.localBase + off)

/-- The size of a context's local or cluster window (R79). -/
def winSize (w : Work) (c : CtxId) (cluster : Bool) : Nat :=
  if cluster then (w.ctx c).decl.clusterSize else (w.ctx c).decl.localSize

/-- The `n` bytes from an offset of a window are `byte 0` to `byte (n - 1)` afterwards, and every other byte of the core's local
memory and of every cluster memory is as it was. -/
def StoredOnly (s t : State) (c : CtxId) (cluster : Bool) (off n : Nat) (byte : Nat → Byte) : Prop :=
  let lb := (s.w.ctx c).decl.localBase + off
  let cb := (s.w.ctx c).decl.clusterBase + off
  (∀ i, i < n → winByte t.w c cluster (off + i) = byte i) ∧
    (∀ x, (cluster = true ∨ x < lb ∨ lb + n ≤ x) → (t.w.core c).localMem.read x = (s.w.core c).localMem.read x) ∧
    ∀ m x, (cluster = false ∨ m ≠ clusterKey c ∨ x < cb ∨ cb + n ≤ x) →
      Mem.read (t.w.clusters.get [] m) x = Mem.read (s.w.clusters.get [] m) x

/-- Lane i of a vector register at a width (R177). -/
def laneAt (l : LaneW) (v : BitVec 4096) (i : Nat) : Nat := v.toNat / 2 ^ (l.bits * i) % 2 ^ l.bits

/-- Operand B's lane i (R127): of a vector register, or the low bits of sB. -/
def laneB (s : State) (c : CtxId) (f : Fields) (i : Nat) : Nat :=
  if fieldClass f.b = 1 then laneAt (laneW f) (s.w.vreg c (fieldNum f.b)) i
  else ((s.w.ctx c).getS (fieldNum f.b)).toNat % 2 ^ (laneW f).bits

/-- A vector instruction has run (R127, R185): lane i of vD at width `l` is `(out i).1`; LANE_SAT and the slice's counter note a lane
that saturated, `(out i).2`; the context, its core's other registers and everything else are as the instruction leaves them. -/
def VecDone (s : State) (o : Host.Outcome State Fault Refusal) (c : CtxId) (f : Fields) (l : LaneW) (out : Nat → Nat × Bool) : Prop :=
  let sat := (List.range l.count).any fun i => (out i).2
  ∃ t, o = .next t ∧ Elsewhere s t c ∧
    t.w = { s.w with ctxs := t.w.ctxs, cores := t.w.cores, slices := t.w.slices, nextId := s.w.nextId + 1 } ∧
    t.w.ctx c = { (s.w.ctx c).ran f with laneSat := (s.w.ctx c).laneSat || sat } ∧
    t.w.core c = { (s.w.core c).took c .V with vregs := (t.w.core c).vregs } ∧
    (∀ r, r ≠ fieldNum f.d → t.w.vreg c r = s.w.vreg c r) ∧
    (∀ i, i < l.count → laneAt l (t.w.vreg c (fieldNum f.d)) i = (out i).1) ∧
    ∀ n, t.w.slice n =
      if n = c.slice.val ∧ sat = true then { s.w.slice n with laneSats := satAdd (s.w.slice n).laneSats 1 } else s.w.slice n

/-- An engine's instruction has run in the step that issued it: what waits, the management state, the other contexts and the other
cores are as they were, the context is `k` after the instruction, and `P` says the rest. -/
def EngineDone (s : State) (o : Host.Outcome State Fault Refusal) (c : CtxId) (f : Fields) (k : Ctx) (P : State → Prop) : Prop :=
  ∃ t, o = .next t ∧ Elsewhere s t c ∧ t.w.ctx c = k.ran f ∧ P t

/-- Of the units that commands act on, only the contexts and cores have changed, and an instruction number is used: of the core,
what `k` says. -/
def CoreOnly (s t : State) (c : CtxId) (k : Core) : Prop :=
  t.w = { s.w with ctxs := t.w.ctxs, cores := t.w.cores, nextId := s.w.nextId + 1 } ∧ t.w.core c = k

/-- `w1` is what a ready context's instruction `x` finds when it has its effect: it is dispatched, it is the only one that its
context has outstanding, its engine has taken it, and nothing else has changed. -/
def Work.Takes (w : Work) (c : CtxId) (x : InFlight) (w1 : Work) : Prop :=
  w1 = { w with ctxs := w1.ctxs, cores := w1.cores, nextId := w.nextId + 1 } ∧
    (∀ e, e ≠ c → w1.ctx e = w.ctx e) ∧ (∀ e, coreKey e ≠ coreKey c → w1.core e = w.core e) ∧
    w1.ctx c = { w.ctx c with pc := (w.ctx c).pc + 8, dispatchPc := (w.ctx c).pc, busy := true, infl := [x] } ∧
    w1.core c = if x.op.queue = .C then w.core c else (w.core c).tookOp c x.op

/-- The outcome `o` of issuing an engine's or the control unit's instruction `x` is that of completing it in `E w1`: it leaves its
context's list, and the local flag that its MOD names, if it is an engine's, increases (R84, R87). -/
def Completed (s : State) (o : Host.Outcome State Fault Refusal) (c : CtxId) (x : InFlight) (E : Work → Work) : Prop :=
  ∃ w1, s.w.Takes c x w1 ∧ o = .next { s with w := (E w1).retire c x x.flag }

/-- The outcome `o` of issuing an instruction `x` is that of letting it stand elsewhere in `E w1` (R84), with
the epochs of the units that its request goes to (R19). -/
def Stands (s : State) (o : Host.Outcome State Fault Refusal) (c : CtxId) (x : InFlight) (st : IStat) (E : Work → Work) : Prop :=
  ∃ w1, s.w.Takes c x w1 ∧ o = .next { s with w := ((E w1).setStat c x.id st).noteSent c x }

/-- Partition q may read `n` bytes from `a` without a fault, and they are no data of the device's own: every block is mapped and
reached, none is poisoned, and the tag of each that is not fresh verifies (R238, R248, R345, R351, R354, R410). -/
def Work.readable (w : Work) (q : Fin 8) (a n : Nat) : Prop :=
  (∀ b, b ∈ rangeBlocks a n → ∃ pa d, w.translate q b.1 = some (pa, d) ∧ w.reach pa = 0 ∧ (w.ctrWord (blockOf pa)).poison = false ∧
    ((w.ctrWord (blockOf pa)).isFresh = true ∨ w.tagGood (w.blockKey q d pa) (blockOf pa) = true)) ∧
  ∀ r, r ∈ w.deviceRanges q → a + n ≤ r.1 ∨ r.1 + r.2 ≤ a

/-- A window of a context takes `n` bytes at the 64-byte aligned offset that a handle gives (R79, R111). -/
def Work.fits (w : Work) (c : CtxId) (h : Word) (n : Nat) : Prop :=
  h.toNat % 64 = 0 ∧ h.toNat % 2 ^ 24 + n ≤ winSize w c (h.getLsbD 63)

/-- The `n` bytes of a window at the offset that a handle gives (R111). -/
def winBytes (w : Work) (c : CtxId) (h : Word) (n : Nat) : List Byte :=
  (List.range n).map fun i => winByte w c (h.getLsbD 63) (h.toNat % 2 ^ 24 + i)

/-- A slice's statistics with counts added to the record of a tensor and step (R228-R230), where there is room on chip. -/
def SliceStat.counted (st : SliceStat) (q : Fin 8) (job : BitVec 16) (tensor : BitVec 20) (step : Word) (n z s r : Nat) : SliceStat :=
  let hit := fun (y : StatRec) => decide (y.q = q ∧ y.tensor = tensor ∧ y.step = step)
  { st with recs :=
      match st.recs.find? hit with
      | some y => y.add n z s r 0 :: st.recs.filter fun v => !hit v
      | none =>
        ({ q, job, tensor, step, elements := 0, zeros := 0, sats := 0, nars := 0, satBlocks := 0 } : StatRec).add n z s r 0 :: st.recs }

/-- A command of a queue may start, its entry is `e`, and it concerns the partition `q`, which exists and is not being removed
(R451, R454, R455). -/
def Work.Runs (w : Work) (r : CmdRef) (op : Nat) (q : Fin 8) (e : BitVec 512) : Prop :=
  w.startCmd r op = some e ∧ w.cmdTarget r e = some q ∧ (w.part q).usable = true

/-- A command ends once a write has been made (R405, R454): with `n` as its result, or with the write's fault code as 0x02cc. -/
def Work.ends (r : CmdRef) (n : Nat) (x : Byte × Work) : Work :=
  if x.1 = 0 then x.2.finish r 0 n else x.2.finish r (0x200 + x.1.toNat) 0

/-- A packet comes to this device in partition q (R273, R276, R279, R361, R363): `w1` is what it finds. It is on its way within
the device, and is taken off it; or it comes by an ACTIVE port of the partition, its tag verifies, no flit of it was lost, and it takes
room in the receive buffer, which it leaves when it has been dealt with (`Work.settleHold`). -/
def Work.Comes (w : Work) (p : Fin 32) (a : RxPkt) (q : Fin 8) (w1 : Work) : Prop :=
  (w.looped a.pkt = some q ∧ w1 = w.unloop q a.pkt) ∨
    (w.looped a.pkt = none ∧ (w.port p.val).isActive = true ∧ (w.port p.val).assigned = true ∧ (w.port p.val).part = q ∧
      w.tagOk p.val a = true ∧ (w.port p.val).cuts a = false ∧
      w1 = (w.takeRoom p a).updPort p.val fun y => y.noteRx a)

/-- A packet for this device alone comes at E of its flow, with nothing held behind it (R285): `w0` has noted where the flow
comes from. -/
def Work.InOrder (w : Work) (p : Fin 32) (a : RxPkt) (q : Fin 8) (w0 : Work) : Prop :=
  let key := pktFlowIn a.pkt q
  let f := w.recvFlow key
  a.pkt.mcast = false ∧ a.pkt.dest = w.time.address ∧ f.heldWrite = none ∧ f.early = [] ∧ a.pkt.seq = f.e ∧
    ∃ w1, w.Comes p a q w1 ∧ w0 = w1.setRecv key { f with up := p }

/-- The flow's answer to the packet at E (R285): E passes it; a status is answered by an ACK of its own, and the 32nd delivery since the
last ACK by a cumulative one. -/
def Work.answers (x : Work) (q : Fin 8) (k : Pkt) (st : Byte) : Work :=
  let g := x.recvFlow (pktFlowIn k q)
  let n := if st = 0 then g.delivered + 1 else g.delivered
  let due := decide (st = 0) && decide (32 ≤ n)
  let y := x.setRecv (pktFlowIn k q) { g with e := k.seq + 1, nakDue := false, heldWrite := none, delivered := if due then 0 else n }
  if st ≠ 0 ∨ due = true then
    y.sendLoose q { mkPkt k.src 0 0x04 0 [] with bestEffort := k.bestEffort, seq := k.seq + 1, status := st } none
  else y

/-- The limits that the management registers keep (R435, R486, R499): the power cap lies in 1,200 to 2,400 W, MAX_POINT is a clock
point, and T2 is above T1. -/
def Ctl.limitsOk (c : Ctl) : Prop :=
  1200 ≤ c.pwr.watts.toNat ∧ c.pwr.watts.toNat ≤ 2400 ∧ c.pwr.maxPoint.toNat ≤ 2 ∧ c.health.t1.toNat < c.health.t2.toNat

/-- The invariant of the management registers. -/
def State.LimitsInv (s : State) : Prop := s.ctl.limitsOk

end Sys2Proof.Machine
end

