-- ==== Sys2Proof/Certificates/Slice0/Obligations.lean ====
section
/-! DEFINITION. The statements for the provers, from the numbered rules of the spec. -/

open Sys2Proof Sys2Proof.Machine

/-- R117, R118, R76: the arithmetic of the scalar group. With operand fields of the scalar class, each instruction that a ready
context issues and starts answers a next state in which sD holds the stated value (a write to s0 is ignored), the PC has moved
on by 8, and nothing else has changed: no other register, flag, context or memory.
The model's own choices it rests on: log entry 36.
Each of these answers a next state under the conditions stated: `sAdd`, `sSub`, `sAnd`, `sOr`, `sXor`, `sShl`, `sShr`, `sSra`, `sMul`,
`sMulh`, `sDiv`, `sLi`, `sIns`, `sSlt`, `sSltu`, `sRem`. -/
def Obligations.ScalarArithmeticResults : Prop :=
  ∀ (c : CtxId) (f : Fields) (ev : MemEvent) (s : State), s.w.ready c → fieldClass f.d = 0 →
    let k := s.w.ctx c
    let a := k.getS (fieldNum f.a)
    let sb := k.getS (fieldNum f.b)
    let b : Word := if f.mod.getLsbD 0 then f.imm.signExtend 64 else sb
    let old := k.getS (fieldNum f.d)
    let done := fun (i : Instr) (v : Word) => CtxDone s (exec i s) c (k.setS (fieldNum f.d) v) (k.pc + 8)
    (fieldClass f.a = 0 → (f.mod.getLsbD 0 = true ∨ fieldClass f.b = 0) →
      done (.sAdd c f (.start ev)) (a + b) ∧ done (.sSub c f (.start ev)) (a - b) ∧
      done (.sAnd c f (.start ev)) (a &&& b) ∧ done (.sOr c f (.start ev)) (a ||| b) ∧ done (.sXor c f (.start ev)) (a ^^^ b) ∧
      done (.sShl c f (.start ev)) (a <<< (b.toNat % 64)) ∧ done (.sShr c f (.start ev)) (a >>> (b.toNat % 64)) ∧
      done (.sSra c f (.start ev)) (BitVec.ofInt 64 (a.toInt / 2 ^ (b.toNat % 64))) ∧
      done (.sSlt c f (.start ev)) (if a.toInt < b.toInt then 1 else 0) ∧
      done (.sSltu c f (.start ev)) (if a.toNat < b.toNat then 1 else 0)) ∧
    (fieldClass f.a = 0 → fieldClass f.b = 0 →
      done (.sMul c f (.start ev)) (BitVec.ofInt 64 (a.toInt * sb.toInt)) ∧
      done (.sMulh c f (.start ev)) (BitVec.ofInt 64 (a.toInt * sb.toInt / 2 ^ 64)) ∧
      done (.sDiv c f (.start ev)) (if sb = 0 then -1 else BitVec.ofInt 64 (a.toInt.tdiv sb.toInt)) ∧
      done (.sRem c f (.start ev)) (if sb = 0 then a else BitVec.ofInt 64 (a.toInt.tmod sb.toInt))) ∧
    done (.sLi c f (.start ev)) (f.imm.signExtend 64) ∧
    (∃ v : Word, done (.sIns c f (.start ev)) v ∧
      ∀ i, i < 64 → v.getLsbD i = if i / 16 = f.mod.toNat % 4 then f.imm.getLsbD (i % 16) else old.getLsbD i)

/-- R76: s0 reads as zero and ignores writes; every other scalar register reads as written, and a write leaves the others. -/
def Obligations.ScalarRegisterZero : Prop :=
  ∀ (k : Ctx) (i j : Nat) (v : Word),
    k.getS 0 = 0 ∧ k.setS 0 v = k ∧ (i ≠ 0 → (k.setS i v).getS i = v) ∧ (j ≠ i → (k.setS i v).getS j = k.getS j)

/-- R117, R79: `s.ld` and `s.st` at an aligned offset within the window that MOD[1] selects, the context's local memory or its
cluster's: 8 bytes, least significant first. The load writes sD alone; the store changes those 8 bytes alone.
The model's own choices it rests on: log entry 36.
Each of these answers a next state under the conditions stated: `sLd`, `sSt`. -/
def Obligations.ScalarLoadStoreResults : Prop :=
  ∀ (c : CtxId) (f : Fields) (ev : MemEvent) (s : State), s.w.ready c → fieldClass f.a = 0 →
    let k := s.w.ctx c
    let cl := f.mod.getLsbD 1
    let a := (k.getS (fieldNum f.a) + f.imm.signExtend 64).toNat
    a % 8 = 0 → a + 8 ≤ winSize s.w c cl →
    (fieldClass f.d = 0 →
      CtxDone s (exec (.sLd c f (.start ev)) s) c
        (k.setS (fieldNum f.d) (BitVec.ofNat 64 (leNat ((List.range 8).map fun i => winByte s.w c cl (a + i))))) (k.pc + 8)) ∧
    (fieldClass f.b = 0 →
      ∃ t, exec (.sSt c f (.start ev)) s = .next t ∧ Elsewhere s t c ∧
        t.w = { s.w with ctxs := t.w.ctxs, cores := t.w.cores, clusters := t.w.clusters, nextId := s.w.nextId + 1 } ∧
        t.w.ctx c = { k with pc := k.pc + 8, dispatchPc := k.pc, busy := true } ∧
        t.w.core c = { s.w.core c with localMem := (t.w.core c).localMem } ∧
        StoredOnly s t c cl a 8 fun i => (k.getS (fieldNum f.b)).extractLsb' (8 * i) 8)

/-- R117, R119: `nop` only advances the PC, and `s.sys` reads the system value that IMM selects; selector 9 clears LANE_SAT, and a
selector not listed gives 0.
The model's own choices it rests on: log entry 36.
Each of these answers a next state under the conditions stated: `nop`, `sSys`. -/
def Obligations.SystemValueResults : Prop :=
  ∀ (c : CtxId) (f : Fields) (ev : MemEvent) (s : State), s.w.ready c →
    let k := s.w.ctx c
    let t := s.w.time
    let p := t.period.toNat * 1000
    let n := f.imm.toNat
    let pe := (s.w.slice c.slice.val).peat
    let v : Nat := match n with
      | 0 => t.ftime.toNat
      | 1 => t.ftime.toNat / p
      | 2 => k.segment
      | 3 => t.ftime.toNat - (k.segment + 1) * p
      | 4 => k.latStep
      | 5 => laneFill pe.laneA
      | 6 => laneFill pe.laneB
      | 7 => if k.latBuf then 1 else 0
      | 8 => if t.point = 0 then 700 else if t.point = 1 then 525 else 350
      | 9 => if k.laneSat then 1 else 0
      | 10 => s.w.presentCores c
      | _ => 0
    CtxDone s (exec (.nop c f (.start ev)) s) c k (k.pc + 8) ∧
    (fieldClass f.d = 0 →
      CtxDone s (exec (.sSys c f (.start ev)) s) c
        (({ k with laneSat := if n = 9 then false else k.laneSat } : Ctx).setS (fieldNum f.d) (BitVec.ofNat 64 v)) (k.pc + 8))

/-- R117: branches and jumps of a ready context. The target of a branch is the PC plus 8 times the sign-extended IMM, of `jr` the value
of sA; `br` and `jr` leave PC + 8 in sD; an untaken branch goes on with the next instruction.
The model's own choices it rests on: log entry 36.
Each of these answers a next state under the conditions stated: `br`, `beq`, `bne`, `blt`, `bge`, `bltu`, `jr`. -/
def Obligations.BranchResults : Prop :=
  ∀ (c : CtxId) (f : Fields) (ev : MemEvent) (s : State), s.w.ready c →
    let k := s.w.ctx c
    let a := k.getS (fieldNum f.a)
    let b := k.getS (fieldNum f.b)
    let link := BitVec.ofNat 64 (k.pc + 8)
    let target := (BitVec.ofNat 64 k.pc + 8 * f.imm.signExtend 64).toNat
    let goes := fun (i : Instr) (taken : Prop) => ∀ p, (taken → p = target) → (¬taken → p = k.pc + 8) → CtxDone s (exec i s) c k p
    (fieldClass f.d = 0 → CtxDone s (exec (.br c f (.start ev)) s) c (k.setS (fieldNum f.d) link) target) ∧
    (fieldClass f.d = 0 → fieldClass f.a = 0 →
      CtxDone s (exec (.jr c f (.start ev)) s) c (k.setS (fieldNum f.d) link) a.toNat) ∧
    (fieldClass f.a = 0 → fieldClass f.b = 0 →
      goes (.beq c f (.start ev)) (a = b) ∧ goes (.bne c f (.start ev)) (a ≠ b) ∧
      goes (.blt c f (.start ev)) (a.toInt < b.toInt) ∧ goes (.bge c f (.start ev)) (b.toInt ≤ a.toInt) ∧
      goes (.bltu c f (.start ev)) (a.toNat < b.toNat))

/-- R127, R128: the arithmetic of the vector group on the lanes of vA and of operand B, at the width of MOD[1:0]: sums, differences,
products and narrowed products, magnitudes, negations and shifts, saturated to the lane, with NaR propagated.
Each of these answers a next state under the conditions stated: `vadd`, `vsub`, `vmul`, `vmulsh`, `vabs`, `vneg`, `vshl`, `vsra`. -/
def Obligations.VectorArithmeticResults : Prop :=
  ∀ (c : CtxId) (f : Fields) (ev : MemEvent) (s : State), s.w.ready c →
    let l := laneW f
    let a := fun i => l.val (laneAt l (s.w.vreg c (fieldNum f.a)) i)
    let b := fun i => l.val (laneB s c f i)
    let one := fun (h : Nat → Int → Int) i => match a i with
      | some x => l.out (some (h i x))
      | none => l.out none
    let two := fun (h : Int → Int → Int) i => match a i, b i with
      | some x, some y => l.out (some (h x y))
      | _, _ => l.out none
    let rnd := if f.mod.getLsbD 2 then Rnd.floor else Rnd.even
    let count := fun i => laneB s c f i % l.bits
    let done := fun (op : KOp) (i : Instr) (out : Nat → Nat × Bool) =>
      (s.w.ctx c).operandFault op f = none → VecDone s (exec i s) c f l out
    done .vadd (.vadd c f (.start ev)) (two fun x y => x + y) ∧
    done .vsub (.vsub c f (.start ev)) (two fun x y => x - y) ∧
    done .vmul (.vmul c f (.start ev)) (two fun x y => x * y) ∧
    done .vmulsh (.vmulsh c f (.start ev)) (two fun x y => roundShift (x * y) (f.imm.toNat % 64 : Nat) rnd) ∧
    done .vabs (.vabs c f (.start ev)) (one fun _ x => |x|) ∧
    done .vneg (.vneg c f (.start ev)) (one fun _ x => -x) ∧
    done .vshl (.vshl c f (.start ev)) (one fun i x => x * 2 ^ count i) ∧
    done .vsra (.vsra c f (.start ev)) (one fun i x => roundShift x (count i : Nat) rnd)

/-- R127-R129: maximum and minimum with the NaR rule of MOD[2], bitwise operations on raw lanes, the comparisons of MOD[4:2], and
selection by the old lanes of vD. R127, R128, R111: `vbcast`, `vins` and `vext` move lanes between scalars and vectors at the width of MOD[1:0]; `vld` and `vst`
move 512 bytes at offset MANT + 64 × IMM of the window that the handle's bit 63 selects.
Each of these answers a next state under the conditions stated: `vmax`, `vmin`, `vand`, `vor`, `vxor`, `vcmp`, `vsel`, `vbcast`, `vins`,
`vext`, `vld`, `vst`. -/
def Obligations.VectorSelectionAndMoveResults : Prop :=
  (∀ (c : CtxId) (f : Fields) (ev : MemEvent) (s : State), s.w.ready c →
    let l := laneW f
    let ra := fun i => laneAt l (s.w.vreg c (fieldNum f.a)) i
    let rb := fun i => laneB s c f i
    let a := fun i => l.val (ra i)
    let b := fun i => l.val (rb i)
    let wins := f.mod.getLsbD 2
    let pick := fun (h : Int → Int → Int) i => match a i, b i with
      | some x, some y => l.out (some (h x y))
      | some x, none => if wins then l.out none else l.out (some x)
      | none, some y => if wins then l.out none else l.out (some y)
      | none, none => l.out none
    let cond := f.mod.toNat / 4 % 8
    let holds := fun i => match cond, a i, b i with
      | 6, x, _ => x.isNone
      | 7, x, _ => decide (x = some 0)
      | 0, some x, some y => decide (x = y)
      | 1, some x, some y => decide (x ≠ y)
      | 2, some x, some y => decide (x < y)
      | 3, some x, some y => decide (x ≤ y)
      | 4, some x, some y => decide (x > y)
      | 5, some x, some y => decide (x ≥ y)
      | n, _, _ => decide (n = 1)
    let done := fun (op : KOp) (i : Instr) (out : Nat → Nat × Bool) =>
      (s.w.ctx c).operandFault op f = none → VecDone s (exec i s) c f l out
    done .vmax (.vmax c f (.start ev)) (pick max) ∧ done .vmin (.vmin c f (.start ev)) (pick min) ∧
    done .vand (.vand c f (.start ev)) (fun i => (ra i &&& rb i, false)) ∧
    done .vor (.vor c f (.start ev)) (fun i => (ra i ||| rb i, false)) ∧
    done .vxor (.vxor c f (.start ev)) (fun i => (ra i ^^^ rb i, false)) ∧
    done .vcmp (.vcmp c f (.start ev)) (fun i => (if holds i then 2 ^ l.bits - 1 else 0, false)) ∧
    done .vsel (.vsel c f (.start ev)) fun i =>
      (if laneAt l (s.w.vreg c (fieldNum f.d)) i ≠ 0 then ra i else rb i, false)) ∧
  (∀ (c : CtxId) (f : Fields) (ev : MemEvent) (s : State), s.w.ready c →
    let k := s.w.ctx c
    let l := laneW f
    let sa := k.getS (fieldNum f.a)
    let sb := k.getS (fieldNum f.b)
    let i0 := f.imm.toNat % l.count
    let old := fun i => laneAt l (s.w.vreg c (fieldNum f.d)) i
    (k.operandFault .vbcast f = none → VecDone s (exec (.vbcast c f (.start ev)) s) c f l fun _ => (sa.toNat % 2 ^ l.bits, false)) ∧
    (k.operandFault .vins f = none →
      VecDone s (exec (.vins c f (.start ev)) s) c f l fun i => (if i = i0 then sa.toNat % 2 ^ l.bits else old i, false)) ∧
    (k.operandFault .vext f = none →
      let x := BitVec.ofNat l.bits (laneAt l (s.w.vreg c (fieldNum f.a)) i0)
      EngineDone s (exec (.vext c f (.start ev)) s) c f
        (k.setS (fieldNum f.d) (if l.uns then x.setWidth 64 else x.signExtend 64)) fun t => CoreOnly s t c ((s.w.core c).took c .V)) ∧
    (∀ o : Nat, k.operandFault .vld f = none → (o : Int) = (sa.toNat % 2 ^ 24 : Nat) + 64 * f.imm.toInt →
      sa.toNat % 64 = 0 → o + 512 ≤ winSize s.w c (sa.getLsbD 63) →
      EngineDone s (exec (.vld c f (.start ev)) s) c f k fun t =>
        CoreOnly s t c { (s.w.core c).took c .V with vregs := (t.w.core c).vregs } ∧
          (∀ i, i < 512 → (t.w.vreg c (fieldNum f.d)).extractLsb' (8 * i) 8 = winByte s.w c (sa.getLsbD 63) (o + i)) ∧
          ∀ r, r ≠ fieldNum f.d → t.w.vreg c r = s.w.vreg c r) ∧
    ∀ o : Nat, k.operandFault .vst f = none → (o : Int) = (sb.toNat % 2 ^ 24 : Nat) + 64 * f.imm.toInt →
      sb.toNat % 64 = 0 → o + 512 ≤ winSize s.w c (sb.getLsbD 63) →
      EngineDone s (exec (.vst c f (.start ev)) s) c f k fun t =>
        t.w = { s.w with ctxs := t.w.ctxs, cores := t.w.cores, clusters := t.w.clusters, nextId := s.w.nextId + 1 } ∧
          t.w.core c = { (s.w.core c).took c .V with localMem := (t.w.core c).localMem } ∧
          StoredOnly s t c (sb.getLsbD 63) o 512 fun i => (s.w.vreg c (fieldNum f.a)).extractLsb' (8 * i) 8)

/-- R128, R179-R181: `vtget` reads a pair of rows or columns of a tile register, its elements or their values aligned to the exponent
IMM[15:8]; `vtput` writes such a pair and leaves the tag; `vred.row` and `vred.col` reduce each row or column: lanes 0-63 are the
results, lanes 64-127 their indexes, or the results again with MOD[5].
Each of these answers a next state under the conditions stated: `vtget`, `vtput`, `vredRow`, `vredCol`. -/
def Obligations.TileVectorResults : Prop :=
  ∀ (c : CtxId) (f : Fields) (ev : MemEvent) (s : State), s.w.ready c →
    let k := s.w.ctx c
    let ta := s.w.tile c (fieldNum f.a)
    let td := s.w.tile c (fieldNum f.d)
    let r := f.imm.toNat % 32
    let cols := f.mod.getLsbD 2
    let row := fun i => if cols then i % 64 else 2 * r + i / 64
    let col := fun i => if cols then 2 * r + i / 64 else i % 64
    let hi : Int := (f.imm.extractLsb' 8 8 : Byte).toInt
    let lo : Int := (f.imm.extractLsb' 0 8 : Byte).toInt
    let factor := fun ρ γ => (ta.val.el ρ γ).map fun m =>
      m * 2 ^ ((if f.mod.getLsbD 6 then hi else ta.val.ex ρ γ) + 128).toNat
    let reduced := fun (line : List (Option Int)) => reduceLine (f.mod.toNat / 4 % 4) (f.mod.getLsbD 4) lo line
    let lanes := fun (line : Nat → List (Option Int)) i =>
      let o := reduced (line (i % 64))
      if i < 64 then (codeOf 32 o.1, o.2.2) else (if f.mod.getLsbD 5 then codeOf 32 o.1 else o.2.1, false)
    (k.operandFault .vtget f = none → VecDone s (exec (.vtget c f (.start ev)) s) c f lane32 fun i =>
      if f.mod.getLsbD 3 then
        let n := narrowElem (ta.val.el (row i) (col i)) (ta.val.ex (row i) (col i)) hi 32 .even
        (codeOf 32 n.1, n.2)
      else ((ta.elems.get 0 (64 * row i + col i)).toNat, false)) ∧
    (k.operandFault .vtput f = none → EngineDone s (exec (.vtput c f (.start ev)) s) c f k fun t =>
      CoreOnly s t c { (s.w.core c).took c .V with tiles := (t.w.core c).tiles } ∧
        (∀ i, i < 128 → ((t.w.tile c (fieldNum f.d)).elems.get 0 (64 * row i + col i)).toNat =
          laneAt lane32 (s.w.vreg c (fieldNum f.a)) i) ∧
        (∀ e, (∀ i, i < 128 → e ≠ 64 * row i + col i) → (t.w.tile c (fieldNum f.d)).elems.get 0 e = td.elems.get 0 e) ∧
        t.w.tile c (fieldNum f.d) = { td with elems := (t.w.tile c (fieldNum f.d)).elems } ∧
        ∀ n, n ≠ fieldNum f.d → t.w.tile c n = s.w.tile c n) ∧
    (k.operandFault .vredRow f = none → VecDone s (exec (.vredRow c f (.start ev)) s) c f lane32
      (lanes fun ρ => (List.range 64).map fun γ => factor ρ γ)) ∧
    (k.operandFault .vredCol f = none → VecDone s (exec (.vredCol c f (.start ev)) s) c f lane32
      (lanes fun γ => (List.range 64).map fun ρ => factor ρ γ))

/-- R182, R183, R226, R227: `vfn` applies the function of MOD[4:2] to each lane, x × 2^a narrowed to scale b, and counts the lanes
outside its domain; `vrng` gives words of the generator; `vnoise` adds a difference of bit counts of four generator words,
weighted by IMM and shifted by MOD[7:2].
The model's own choices it rests on: log entry 115.
Each of these answers a next state under the conditions stated: `vfn`, `vrng`, `vnoise`. -/
def Obligations.FunctionAndNoiseResults : Prop :=
  ∀ (c : CtxId) (f : Fields) (ev : MemEvent) (s : State), s.w.ready c →
    let k := s.w.ctx c
    let v := s.w.vreg c (fieldNum f.a)
    let sa := k.getS (fieldNum f.a)
    let sb := k.getS (fieldNum f.b)
    let step := s.w.workStep c
    let ea : Int := (sb.extractLsb' 8 8 : Byte).toInt
    let eb : Int := (sb.extractLsb' 0 8 : Byte).toInt
    let value := fun i => (elemOf 32 (laneAt lane32 v i)).bind fun x => vfnValue (f.mod.toNat / 4 % 8) x ea eb
    let outside := (List.range 128).countP fun i =>
      (elemOf 32 (laneAt lane32 v i)).isSome && (value i).isNone
    let noise := fun i =>
      let ws := genNoise (s.w.genKey c) step k.lane k.mb (sb.extractLsb' 44 20) (sb.toNat % 2 ^ 44 + i)
      let n : Int := (popCount (ws.getD 0 0) + popCount (ws.getD 1 0) : Nat) - (popCount (ws.getD 2 0) + popCount (ws.getD 3 0) : Nat)
      (narrow (n * f.imm.toNat) 0 (f.mod.toNat / 4 % 64 : Nat) 32 .even).1
    (k.operandFault .vfn f = none →
      let out := fun i => match value i with
        | some r => (codeOf 32 (some r.1), r.2)
        | none => ((2147483648 : Nat), false)
      let sat := (List.range 128).any fun i => (out i).2
      EngineDone s (exec (.vfn c f (.start ev)) s) c f { k with laneSat := k.laneSat || sat } fun t =>
        t.w = { s.w with ctxs := t.w.ctxs, cores := t.w.cores, slices := t.w.slices, nextId := s.w.nextId + 1 } ∧
        t.w.core c = { (s.w.core c).took c .V with vregs := (t.w.core c).vregs } ∧
        (∀ r, r ≠ fieldNum f.d → t.w.vreg c r = s.w.vreg c r) ∧
        (∀ i, i < 128 → laneAt lane32 (t.w.vreg c (fieldNum f.d)) i = (out i).1) ∧
        ∀ n, t.w.slice n = if n = c.slice.val then
            { s.w.slice n with fnNars := satAdd (s.w.slice n).fnNars outside
                               laneSats := if sat then satAdd (s.w.slice n).laneSats 1 else (s.w.slice n).laneSats }
          else s.w.slice n) ∧
    (k.operandFault .vrng f = none → VecDone s (exec (.vrng c f (.start ev)) s) c f lane32 fun i =>
      ((genWord (s.w.genKey c) step 1 k.lane k.mb false (sa.extractLsb' 44 20) (sa.toNat % 2 ^ 44 + i)).toNat, false)) ∧
    (k.operandFault .vnoise f = none → VecDone s (exec (.vnoise c f (.start ev)) s) c f lane32 fun i =>
      lane32.out ((elemOf 32 (laneAt lane32 v i)).map fun x => x + noise i))

/-- R126, R130, R228: `vcvt` narrows 128 lanes to the format of MOD[2:1] at the exponents in sB and packs them into vD; `vunpk` widens
two rows of a tile in memory. Both count their results in the tensor's statistics; `vstat` returns a record, here the on-chip one.
Each of these answers a next state under the conditions stated: `vcvt`, `vunpk`, `vstat`. -/
def Obligations.ConversionResults : Prop :=
  ∀ (c : CtxId) (f : Fields) (ev : MemEvent) (s : State), s.w.ready c →
    let k := s.w.ctx c
    let sa := k.getS (fieldNum f.a)
    let sb := k.getS (fieldNum f.b)
    let step := s.w.workStep c
    let fmt := f.mod.toNat / 2 % 4
    let wd := fmtBits fmt
    let tensor : BitVec 20 := sb.extractLsb' 32 20
    let ea : Int := (sb.extractLsb' 8 8 : Byte).toInt
    let eb : Int := (sb.extractLsb' 0 8 : Byte).toInt
    let st := (s.w.slice c.slice.val).stat
    let rnd := fun j => if f.mod.getLsbD 0 then
        Rnd.stoch (genWord (s.w.genKey c) step 0 k.lane k.mb false tensor ((k.getS (f.imm.toNat % 64)).toNat + j)) else Rnd.even
    let cvt := (List.range 128).map fun j =>
      narrowElem (elemOf 32 (laneAt lane32 (s.w.vreg c (fieldNum f.a)) j)) ea eb wd (rnd j)
    let after := fun (t : State) (outs : List (Option Int × Bool)) =>
      t.w = { s.w with ctxs := t.w.ctxs, cores := t.w.cores, slices := t.w.slices, nextId := s.w.nextId + 1 } ∧
      t.w.core c = { (s.w.core c).took c .V with vregs := (t.w.core c).vregs } ∧
      (∀ r, r ≠ fieldNum f.d → t.w.vreg c r = s.w.vreg c r) ∧
      ∀ n, t.w.slice n = if n = c.slice.val then
          { s.w.slice n with
            laneSats := if outs.any (·.2) then satAdd (s.w.slice n).laneSats 1 else (s.w.slice n).laneSats
            stat := st.counted k.part k.job tensor (BitVec.ofNat 64 step) outs.length (outs.countP fun e => decide (e.1 = some 0))
              (outs.countP fun e => e.2) (outs.countP fun e => e.1.isNone) }
        else s.w.slice n
    (k.operandFault .vcvt f = none → st.recs.length < 4096 → (k.decl.satTrap = false ∨ cvt.any (·.2) = false) →
      EngineDone s (exec (.vcvt c f (.start ev)) s) c f { k with laneSat := k.laneSat || cvt.any (·.2) } fun t =>
        t.w.vreg c (fieldNum f.d) = vOfBytes (packCodes wd (cvt.map fun o => codeOf wd o.1)) ∧ after t cvt) ∧
    (∀ m e, k.operandFault .vunpk f = none → st.recs.length < 4096 → k.tileSpans sa fmt = .ok (m, e) →
      let tv := tileOfBytes fmt (f.mod.getLsbD 3) (s.w.spanRead c m (tileBytes fmt)) (s.w.spanRead c e 128)
      let out := fun i =>
        narrowElem (tv.el (2 * (f.imm.toNat % 32) + i / 64) (i % 64)) (tv.ex (2 * (f.imm.toNat % 32) + i / 64) (i % 64)) eb 32 .even
      let outs := (List.range 128).map out
      EngineDone s (exec (.vunpk c f (.start ev)) s) c f { k with laneSat := k.laneSat || outs.any (·.2) } fun t =>
        (∀ i, i < 128 → laneAt lane32 (t.w.vreg c (fieldNum f.d)) i = codeOf 32 (out i).1) ∧ after t outs) ∧
    (k.operandFault .vstat f = none → st.tableSteps.contains (k.part, k.job, sb) = false →
      let id : BitVec 20 := sa.setWidth 20
      let bytes := match st.recs.find? fun y => decide (y.q = k.part ∧ y.tensor = id ∧ y.step = sb) with
        | some y => statBytes y false
        | none => leBytes 4 id.toNat ++ leBytes 8 sb.toNat ++ List.replicate 52 0
      EngineDone s (exec (.vstat c f (.start ev)) s) c f k fun t =>
        CoreOnly s t c { (s.w.core c).took c .V with vregs := (t.w.core c).vregs } ∧
          t.w.vreg c (fieldNum f.d) = vOfBytes bytes ∧ ∀ r, r ≠ fieldNum f.d → t.w.vreg c r = s.w.vreg c r)

/-- R120, R121, R137-R139: the twelve matrix products. The forms of a shape differ in the operands' formats: `mmf` sums A[r,k] × B[k,c]
over k, `mmbx` A[r,k] × B[c,k], `mmbw` A[k,r] × B[k,c]; each adds the tile of sums to the accumulator of D at the scales of its
binding (`Acc.addProduct`, see ProductAndExtremumElementResults), and changes no other register.
Each of these answers a next state under the conditions stated: `mmfBi8`, `mmfBi4`, `mmfBi16x8`, `mmfBi16`, `mmbxBi8`, `mmbxBi4`,
`mmbxBi16x8`, `mmbxBi16`, `mmbwBi8`, `mmbwBi4`, `mmbwBi16x8`, `mmbwBi16`. -/
def Obligations.MatrixProductResults : Prop :=
  ∀ (c : CtxId) (f : Fields) (ev : MemEvent) (s : State), s.w.ready c →
    let k := s.w.ctx c
    let d := fieldNum f.d
    let acc := s.w.acc c d
    let goes := fun (op : KOp) (i : Instr) (fa fb : Nat) (colB : Bool)
        (left right : TileVal → TileVal → Nat → Nat → Nat → Option Int × Int) =>
      ∀ (a b : TileVal) (e : ScaleEntry), k.operandFault op f = none →
        s.w.srcTile c f.a (k.getS (fieldNum f.a)) fa false = .ok a → s.w.srcTile c f.b (k.getS (fieldNum f.b)) fb colB = .ok b →
        s.w.bound c acc.binding = .ok e → (k.decl.nanTrap = false ∨ (a.hasNar = false ∧ b.hasNar = false)) →
        evUe (evHere ev) = false →
        EngineDone s (exec i s) c f k fun t =>
          t.w = { s.w with ctxs := t.w.ctxs, cores := t.w.cores, nextId := s.w.nextId + 1, fresh := s.w.fresh + 4096 } ∧
          t.w.core c = { (s.w.core c).tookOp c op with accs := (t.w.core c).accs } ∧
          (∀ n, n ≠ d → t.w.acc c n = s.w.acc c n) ∧
          t.w.acc c d = acc.addProduct (left a b) (right a b) e.fmt.toNat
            ((List.range 128).map fun n => e.expo (s.w.prevWork c) (128 * bindTile acc.binding + n)).toArray s.w.fresh
    let mmf := fun op i fa fb => goes op i fa fb true (fun a _ r _ n => (a.el r n, a.ex r n)) (fun _ b _ γ n => (b.el n γ, b.ex n γ))
    let mmbx := fun op i fa fb => goes op i fa fb true (fun a _ r _ n => (a.el r n, a.ex r n)) (fun _ b _ γ n => (b.el γ n, b.ex γ n))
    let mmbw := fun op i fa fb => goes op i fa fb false (fun a _ r _ n => (a.el n r, a.ex n r)) (fun _ b _ γ n => (b.el n γ, b.ex n γ))
    mmf .mmfBi8 (.mmfBi8 c f (.start ev)) 1 1 ∧ mmf .mmfBi4 (.mmfBi4 c f (.start ev)) 0 0 ∧
    mmf .mmfBi16x8 (.mmfBi16x8 c f (.start ev)) 2 1 ∧ mmf .mmfBi16 (.mmfBi16 c f (.start ev)) 2 2 ∧
    mmbx .mmbxBi8 (.mmbxBi8 c f (.start ev)) 1 1 ∧ mmbx .mmbxBi4 (.mmbxBi4 c f (.start ev)) 0 0 ∧
    mmbx .mmbxBi16x8 (.mmbxBi16x8 c f (.start ev)) 2 1 ∧ mmbx .mmbxBi16 (.mmbxBi16 c f (.start ev)) 2 2 ∧
    mmbw .mmbwBi8 (.mmbwBi8 c f (.start ev)) 1 1 ∧ mmbw .mmbwBi4 (.mmbwBi4 c f (.start ev)) 0 0 ∧
    mmbw .mmbwBi16x8 (.mmbwBi16x8 c f (.start ev)) 2 1 ∧ mmbw .mmbwBi16 (.mmbwBi16 c f (.start ev)) 2 2

/-- R155, R157-R161, R169: one product instruction on one element X of the accumulator tile: NaR stays; a NaR factor makes it NaR; else
each of the 64 products, aligned to scale s − 12 by a shift toward minus infinity and clamped, is summed exactly and the sum is
added with a clamp. A tile in extremum mode is first switched to sum mode. R124, R167, R168: one element of the accumulator tile under `acc.max` or `acc.min` with index i: the source element aligned to s and
clamped is taken when it is better, or equal with a lower index; NaR is taken over an empty element or with NAR_WINS. -/
def Obligations.ProductAndExtremumElementResults : Prop :=
  (∀ (a : Acc) (l r : Nat → Nat → Nat → Option Int × Int) (fmt : Nat) (es : Array Byte) (fresh e : Nat), e < 4096 →
    let a1 := a.addProduct l r fmt es fresh
    let old := a.list.getD e 0
    let x : BitVec 48 := if a.extremum then xMake (xValue old) 0 else old
    let sc := expInt (es.getD (elBlock (bindAxis a.binding) e) 0) - (if fmt = 0 then 28 else if fmt = 1 then 24 else if fmt = 2 then 16 else 4)
    let u := fun n => l (e / 64) (e % 64) n
    let v := fun n => r (e / 64) (e % 64) n
    let clamp := fun (z : Int) => max (-(2 ^ 47 - 4096)) (min (2 ^ 47 - 1) z)
    let term := fun n =>
      let m := ((u n).1.getD 0) * ((v n).1.getD 0)
      let j := sc - 12 - ((u n).2 + (v n).2)
      clamp (if j ≤ 0 then m * 2 ^ (-j).toNat else m / 2 ^ j.toNat)
    let new := a1.list.getD e 0
    a1.list.length = 4096 ∧ a1.extremum = false ∧ a1.binding = a.binding ∧
      (xNar x = true → new = x) ∧
      (xNar x = false → (∃ n, n < 64 ∧ ((u n).1 = none ∨ (v n).1 = none)) → xNar new = true) ∧
      (xNar x = false → (∀ n, n < 64 → (u n).1 ≠ none ∧ (v n).1 ≠ none) →
        new = BitVec.ofInt 48 (clamp (x.toInt + ((List.range 64).map term).sum)))) ∧
  (∀ (a : Acc) (min nw : Bool) (i : Nat) (src : TileVal) (fmt : Nat) (es : Array Byte) (e : Nat), e < 4096 → i < 4096 →
    let a1 := a.addExtremum min nw i src fmt es
    let old := a.list.getD e 0
    let x : BitVec 48 := if a.extremum then old else xMake (xValue old) 0xFFF
    let sc := expInt (es.getD (elBlock (bindAxis a.binding) e) 0) - (if fmt = 0 then 28 else if fmt = 1 then 24 else if fmt = 2 then 16 else 4)
    let d := src.ex (e / 64) (e % 64) - sc
    let lim : Int := 2 ^ 35 - 1
    let new := a1.list.getD e 0
    a1.list.length = 4096 ∧ a1.extremum = true ∧ a1.binding = a.binding ∧ a1.minSense = min ∧ a1.narWins = nw ∧
      (∀ m, src.el (e / 64) (e % 64) = some m →
        let v := max (-lim) (Min.min lim (if 0 ≤ d then m * 2 ^ d.toNat else m / 2 ^ (-d).toNat))
        let better := if min then v < xValue x else xValue x < v
        let takes := if xNar x then nw = false else (v = xValue x ∧ i < xField x) ∨ better
        (takes → xValue new = v ∧ xField new = i) ∧ (¬takes → new = x)) ∧
      (src.el (e / 64) (e % 64) = none →
        let takes := if xNar x then i < xField x
          else (xField x = 0xFFF ∧ xValue x = if min then lim else -lim) ∨ nw = true
        (takes → xNar new = true ∧ xField new = i) ∧ (¬takes → new = x)))

/-- R125, R156, R115, R124: `acc.zero` fills the accumulator tile of D with zeros, with the empty values of a maximum or a minimum, or with
zeros under its old binding, and clears its pending bits and counts; `acc.max` and `acc.min` take a source tile into it
(`Acc.addExtremum`, see ProductAndExtremumElementResults). Each exists for both matrix groups.
The model's own choices it rests on: log entry 16.
Each of these answers a next state under the conditions stated: `accZero`, `accZeroB`, `accMax`, `accMaxB`, `accMin`, `accMinB`. -/
def Obligations.AccumulatorResults : Prop :=
  ∀ (c : CtxId) (f : Fields) (ev : MemEvent) (s : State), s.w.ready c →
    let k := s.w.ctx c
    let d := fieldNum f.d
    let acc := s.w.acc c d
    let sa := k.getS (fieldNum f.a)
    let code := f.mod.toNat % 4
    let done := fun (op : KOp) (i : Instr) (P : Acc → Prop) =>
      EngineDone s (exec i s) c f k fun t => CoreOnly s t c { (s.w.core c).took c op.queue with accs := (t.w.core c).accs } ∧
        (∀ n, n ≠ d → t.w.acc c n = s.w.acc c n) ∧ P (t.w.acc c d)
    let zero := fun (op : KOp) (i : Instr) => ∀ e, k.operandFault op f = none → (code = 3 ∨ s.w.bound c sa = .ok e) →
      done op i fun a => a.list = List.replicate 4096
          (if code = 1 then xMake (-(2 ^ 35 - 1)) 0xFFF else if code = 2 then xMake (2 ^ 35 - 1) 0xFFF else 0) ∧
        a.binding = (if code = 3 then acc.binding else sa) ∧ a.extremum = decide (code = 1 ∨ code = 2) ∧
        a.pend = 0 ∧ a.count = 0 ∧ a.deep = false
    let ext := fun (op : KOp) (i : Instr) (min : Bool) => ∀ e src, k.operandFault op f = none → s.w.bound c acc.binding = .ok e →
      (fieldClass f.a = 2 → src = (s.w.tile c (fieldNum f.a)).val) →
      (fieldClass f.a ≠ 2 → ∃ m x, k.tileSpans sa e.fmt.toNat = .ok (m, x) ∧
        src = tileOfBytes e.fmt.toNat (acc.binding.getLsbD 63) (s.w.spanRead c m (tileBytes e.fmt.toNat)) (s.w.spanRead c x 128)) →
      (k.decl.nanTrap = false ∨ src.hasNar = false) →
      done op i fun a => a = acc.addExtremum min (f.mod.getLsbD 0) (f.imm.toNat % 4096) src e.fmt.toNat
        ((List.range 128).map fun n => e.expo (s.w.prevWork c) (128 * bindTile acc.binding + n)).toArray
    zero .accZero (.accZero c f (.start ev)) ∧ zero .accZeroB (.accZeroB c f (.start ev)) ∧
    ext .accMax (.accMax c f (.start ev)) false ∧ ext .accMaxB (.accMaxB c f (.start ev)) false ∧
    ext .accMin (.accMin c f (.start ev)) true ∧ ext .accMinB (.accMinB c f (.start ev)) true

/-- R52, R126, R165, R171, R173, R174: `acc.drain` of a tile outside every split-K group narrows its elements with the binding's
exponents, writes the packed mantissas, code 0 for an element of padding, and the exponents, 0 for a block of padding, to the two ranges of sD and, with MOD[6], the indexes to the
range of sB, notes the block states of current work and the statistics, counts the accumulator's limits and clears the tile with
MOD[5]. A participant of a group gives its tile to the tree instead: one that is not the root is complete, and the root's drain, of a use that has not failed,
stands until its use is complete.
The model's own choices it rests on: log entries 16, 100, 104.
Each of these answers a next state under the conditions stated: `accDrain`, `accDrainB`. -/
def Obligations.DrainResults : Prop :=
  ∀ (c : CtxId) (f : Fields) (ev : MemEvent) (s : State), s.w.ready c →
    let k := s.w.ctx c
    let n := fieldNum f.a
    let acc := s.w.acc c n
    let fmt := f.mod.toNat / 2 % 4
    let tile := bindTile acc.binding
    let goes := fun (op : KOp) (i : Instr) =>
      let x := { s.w.capture c op f with stat := .started }
      let limits := fun (w : Work) => w.updSlice c.slice.val fun z =>
        { z with accDeep := if acc.deep then satAdd z.accDeep 1 else z.accDeep
                 accLong := if 262144 < acc.count then satAdd z.accLong 1 else z.accLong }
      let clear := fun (w : Work) => if f.mod.getLsbD 5 then w.setAcc c n (.init 3 (w.acc c n).binding) else w
      ∀ e, k.operandFault op f = none → s.w.bound c acc.binding = .ok e →
        (∀ sp, s.w.groupOf c acc.binding = none → fmt = e.fmt.toNat → k.drainSpans x = .ok sp →
          ∀ es, es = (List.range 128).map (fun b => e.expo (s.w.prevWork c) (128 * tile + b)) →
          ∀ outs : List (Option Int × Bool), outs = (s.w.drainOut c x acc.binding acc.drainIn es.toArray sp).zipIdx.map
            (fun p => if e.padding tile (p.2 / 64) (p.2 % 64) then (some 0, false) else p.1) →
          ∀ sat, sat = satBlocks (bindAxis acc.binding) acc.pend outs → (k.decl.satTrap = false ∨ sat = 0) →
          Completed s (exec i s) c x fun w =>
            let pad := fun b => if bindAxis acc.binding then e.padding tile (32 * (b / 64)) (b % 64) else e.padding tile (b / 2) (32 * (b % 2))
            let w1 := (w.spanWrite c sp.mant (packCodes (fmtBits fmt) (outs.map fun o => codeOf (fmtBits fmt) o.1))).spanWrite c sp.exp
              (es.zipIdx.map fun p => if pad p.2 then 0 else p.1)
            let w2 := match sp.idx with
              | some r => w1.spanWrite c r (acc.drainIn.els.flatMap fun (el : DrainEl) => leBytes 2 el.field)
              | none => w1
            let w3 := if s.w.prevWork c then w2
              else w2.setEntry k.part (bindTensor acc.binding)
                (some (e.noteTile tile (highBlocks (bindAxis acc.binding) fmt outs) sat))
            clear (limits (w3.statCount c (bindTensor acc.binding) (s.w.workStep c)
              ((outs.zipIdx.filter fun p => !e.padding tile (p.2 / 64) (p.2 % 64)).map (·.1)) ev))) ∧
        (∀ g, s.w.groupOf c acc.binding = some g → fmt = e.fmt.toNat → g.cores.head? ≠ some (coreKey c) →
          Completed s (exec i s) c x fun w => (clear (limits (w.giveInput c acc))).sweepUses) ∧
        (∀ g sp, s.w.groupOf c acc.binding = some g → fmt = e.fmt.toNat → g.cores.head? = some (coreKey c) → k.drainSpans x = .ok sp →
          s.w.useDead (s.w.useOf k.part acc.binding (coreKey c) c) = false →
          Stands s (exec i s) c x .combining fun w =>
            let w1 := limits (w.giveInput c acc)
            { w1 with combineUses := w1.combineUses ++
                [⟨k.part, bindTensor acc.binding, acc.binding.setWidth 32, s.w.useNo k.part acc.binding (coreKey c), acc.minSense, acc.narWins, c, s.w.nextId⟩] })
    goes .accDrain (.accDrain c f (.start ev)) ∧ goes .accDrainB (.accDrainB c f (.start ev))

/-- R84, R111-R113, R131: the data mover in its byte form (MOD[0] 0): `dma.get` brings bytes of HBM to a window, `dma.copy` moves bytes between
windows, `dma.fill` repeats the 8 bytes of sA; each changes the bytes of its destination alone. `dma.put` reads its source and
stands until a stack controller accepts the write. With MOD[0] 1 `dma.get` and `dma.put` move a tile of the tensor that the descriptor, read
at the start, describes.
The model's own choices it rests on: log entry 104.
Each of these answers a next state under the conditions stated: `dmaGet`, `dmaPut`, `dmaCopy`, `dmaFill`. -/
def Obligations.DataMoverResults : Prop :=
  ∀ (c : CtxId) (f : Fields) (s : State), s.w.ready c →
    let k := s.w.ctx c
    let sd := k.getS (fieldNum f.d)
    let sa := k.getS (fieldNum f.a)
    let sb := k.getS (fieldNum f.b)
    let n := lenB sb
    let described := f.mod.getLsbD 0
    let stored := fun (op : KOp) (i : Instr) (byte : Nat → Byte) => EngineDone s (exec i s) c f k fun t =>
      t.w = { s.w with ctxs := t.w.ctxs, cores := t.w.cores, clusters := t.w.clusters, nextId := s.w.nextId + 1 } ∧
        t.w.core c = { (s.w.core c).took c op.queue with localMem := (t.w.core c).localMem } ∧
        StoredOnly s t c (sd.getLsbD 63) (sd.toNat % 2 ^ 24) n byte
    let written := fun (ev : MemEvent) (parts : List (Nat × List Byte)) => evUe (evHere ev) = false →
      (∀ p, p ∈ parts → s.w.mapped k.part p.1 p.2.length = true ∧ s.w.writeRole k.part p.1 p.2.length = .free) →
      Stands s (exec (.dmaPut c f (.start ev)) s) c (s.w.capture c .dmaPut f) .writing fun w =>
        { w with writes := w.writes ++ [⟨k.part, parts, c, s.w.nextId⟩] }
    (described = false → k.operandFault .dmaGet f = none → sa.toNat % 64 = 0 → s.w.fits c sd n →
      s.w.readable k.part (sa.toNat % 2 ^ 48) n →
      stored .dmaGet (.dmaGet c f (.start .ok)) fun i => (s.w.peek k.part (sa.toNat % 2 ^ 48) n).getD i 0) ∧
    (∀ d m e, described = true → k.operandFault .dmaGet f = none → s.w.descAt c sa = .ok d → k.tileSpans sd d.fmt = .ok (m, e) →
      s.w.readable k.part (d.mantAt sb.toNat) (tileBytes d.fmt) → s.w.readable k.part (d.expAt sb.toNat) 128 →
      ∃ l, Completed s (exec (.dmaGet c f (.start .ok)) s) c
          { s.w.capture c .dmaGet f with stat := .started, snap := winBytes s.w c sa 64, sentTo := l } fun w =>
        (w.spanWrite c m (s.w.peek k.part (d.mantAt sb.toNat) (tileBytes d.fmt))).spanWrite c e
          (s.w.peek k.part (d.expAt sb.toNat) 128)) ∧
    (∀ ev, described = false → k.operandFault .dmaPut f = none → sd.toNat % 64 = 0 → s.w.fits c sa n →
      written ev [(sd.toNat % 2 ^ 48, winBytes s.w c sa n)]) ∧
    (∀ ev d m e, described = true → k.operandFault .dmaPut f = none → s.w.descAt c sd = .ok d → k.tileSpans sa d.fmt = .ok (m, e) →
      written ev [(d.mantAt sb.toNat, s.w.spanRead c m (tileBytes d.fmt)), (d.expAt sb.toNat, s.w.spanRead c e 128)]) ∧
    (∀ ev, k.operandFault .dmaCopy f = none → s.w.fits c sa n → s.w.fits c sd n →
      stored .dmaCopy (.dmaCopy c f (.start ev)) fun i => winByte s.w c (sa.getLsbD 63) (sa.toNat % 2 ^ 24 + i)) ∧
    (∀ ev, k.operandFault .dmaFill f = none → s.w.fits c sd n →
      stored .dmaFill (.dmaFill c f (.start ev)) fun i => sa.extractLsb' (8 * (i % 8)) 8)

/-- R43, R121, R131: `t.ld` fills a tile register from a tile in memory, each element widened to 32 bits, with the format and axis of MOD
and the 128 exponents in its tag; `t.st` stores a tile register in the format of its tag, saturating, and sets LANE_SAT when an
element saturated.
Each of these answers a next state under the conditions stated: `tLd`, `tSt`. -/
def Obligations.TileTransferResults : Prop :=
  ∀ (c : CtxId) (f : Fields) (ev : MemEvent) (s : State), s.w.ready c →
    let k := s.w.ctx c
    let fmt := f.mod.toNat / 2 % 4
    (∀ m e, k.operandFault .tLd f = none → k.tileSpans (k.getS (fieldNum f.a)) fmt = .ok (m, e) →
      let d := fieldNum f.d
      let wd := fmtBits fmt
      let codes := unpackCodes wd 4096 (s.w.spanRead c m (tileBytes fmt))
      EngineDone s (exec (.tLd c f (.start ev)) s) c f k fun t =>
        CoreOnly s t c { (s.w.core c).took c .M with tiles := (t.w.core c).tiles } ∧
        (∀ n, n ≠ d → t.w.tile c n = s.w.tile c n) ∧
        (t.w.tile c d).fmt.toNat = fmt ∧ (t.w.tile c d).colAxis = f.mod.getLsbD 3 ∧
        (∀ i, i < 128 → (t.w.tile c d).exps.extractLsb' (8 * i) 8 = (s.w.spanRead c e 128).getD i 0) ∧
        ∀ i, i < 4096 → (t.w.tile c d).elems.get 0 i = BitVec.ofNat 32 (codeOf 32 (elemOf wd (codes.getD i 0)))) ∧
    (∀ m e, k.operandFault .tSt f = none → k.tileSpans (k.getS (fieldNum f.d)) (s.w.tile c (fieldNum f.a)).fmt.toNat = .ok (m, e) →
      let tl := s.w.tile c (fieldNum f.a)
      let wd := fmtBits tl.fmt.toNat
      let outs : List (Nat × Bool) := (Tbl.denseFrom 0 4096 0 tl.elems).map fun v =>
        match elemOf 32 v.toNat with
        | none => (codeOf wd none, false)
        | some x => (codeOf wd (some (clampMag (maxMag wd) x).1), (clampMag (maxMag wd) x).2)
      Completed s (exec (.tSt c f (.start ev)) s) c { s.w.capture c .tSt f with stat := .started } fun w =>
        let w1 := (w.spanWrite c m (packCodes wd (outs.map (·.1)))).spanWrite c e tl.expBytes
        if outs.any (·.2) then w1.updCtx c fun z => { z with laneSat := true } else w1)

/-- R131, R132, R192-R194: a push whose version is its work's makes the bytes of its range the newest entry of the lane that its tag
names, and is complete; a pop whose tag is that of the lane's newest, resident entry takes it from the lane, holds its version, counts
in its partition where that is not the current one (R207, R219), and stands while the bytes are copied.
The model's own choices it rests on: log entries 69, 131, 133.
Each of these answers a next state under the conditions stated: `peatPush`, `peatPop`. -/
def Obligations.PeatInstructionResults : Prop :=
  ∀ (c : CtxId) (f : Fields) (s : State), s.w.ready c →
    let k := s.w.ctx c
    let n := c.slice.val
    let p := (s.w.slice n).peat
    let sd := k.getS (fieldNum f.d)
    let sa := k.getS (fieldNum f.a)
    let lane := fun (tag : Word) => if tag.getLsbD 63 then p.laneB else p.laneA
    let changed := fun (t : State) (p' : Peat) (parts : Tbl Part) =>
      t.w = { s.w with ctxs := t.w.ctxs, cores := t.w.cores, slices := t.w.slices, parts, nextId := s.w.nextId + 1 } ∧
        t.w.core c = (s.w.core c).took c .M ∧
        ∀ m, t.w.slice m = if m = n then { s.w.slice n with peat := p' } else s.w.slice m
    (∀ ev, let size := f.imm.toNat + 1
      k.operandFault .peatPush f = none → s.w.fits c sa (size * 512) → sd.getLsbD 62 = k.version.getD k.latBuf →
      (lane sd).length < 32768 → size ≤ p.free → evUe (evHere ev) = false →
      EngineDone s (exec (.peatPush c f (.start ev)) s) c f k fun t =>
        let e : PeatEntry :=
          { tag := sd, size, bytes := winBytes s.w c sa (size * 512), place := .resident, poison := false
            units := p.takeUnits (sd.getLsbD 63) size
            dom := match (s.w.jobOf c).bind Job.peat with
              | some z => s.w.pushDomain k.part z (s.w.workStep c) (sd.extractLsb' 40 16)
              | none => 0 }
        changed t (p.setLane (sd.getLsbD 63) (e :: lane sd)) s.w.parts) ∧
    (∀ e rest, k.operandFault .peatPop f = none → lane sa = e :: rest → e.tag = sa → e.place = .resident → e.poison = false →
      s.w.fits c sd (e.size * 512) →
      ∃ t, exec (.peatPop c f (.start .ok)) s = .next t ∧ Elsewhere s t c ∧
        t.w.ctx c = { k with pc := k.pc + 8, dispatchPc := k.pc, busy := true, version := some (sa.getLsbD 62)
                             infl := [{ s.w.capture c .peatPop f with
                               stat := .copying
                               sentTo := [unitId 1 n (sa.getLsbD 63).toNat, unitId 1 n 0xFF].map fun u => (u, s.w.epochs.get 0 u.toNat) }] } ∧
        let late := match s.w.jobOf c with
          | some j => sa.getLsbD 62 != j.buf
          | none => false
        let p1 := (p.setLane (sa.getLsbD 63) rest).releasePages
        changed t { p1 with copies := p1.copies ++ [⟨c, s.w.nextId, e.size, e.bytes, e.units⟩] }
          (if late then s.w.updPart k.part fun y => { y with latePops := satAdd y.latePops 1 } else s.w).parts)

/-- R79, R131, R276, R281-R288, R537: a fabric instruction that raises no fault and whose packets fit the retention region sends them and
is complete locally: `fab.put` and `fab.mcast` their range in write packets, `fab.get` one read request under a tag of its own. It
stands for remote completion; a multicast that nothing retains is complete at once.
The model's own choices it rests on: log entries 21, 23, 24, 70, 113, 116.
Each of these answers a next state under the conditions stated: `fabPut`, `fabGet`, `fabMcast`. -/
def Obligations.FabricInstructionResults : Prop :=
  ∀ (c : CtxId) (f : Fields) (ev : MemEvent) (s : State), s.w.ready c →
    let k := s.w.ctx c
    let sd := k.getS (fieldNum f.d)
    let sa := k.getS (fieldNum f.a)
    let n := lenB (k.getS (fieldNum f.b))
    let be := f.mod.getLsbD 1
    let slot : BitVec 6 := f.imm.extractLsb' 0 6
    let me := s.w.time.address
    let far := fun (h : Word) =>
      let d : BitVec 16 := h.extractLsb' 48 16
      h.toNat % 64 = 0 ∧ s.w.isMember c d = true ∧
        (d = me ∨ ((s.w.route k.part d).valid = true ∧ (be = true ∨ (s.w.port (s.w.firstPort k.part d)).slotValid slot.toNat = true)))
    let sends := fun (op : KOp) (i : Instr) (E : InFlight → Work → Work) =>
      let x := s.w.capture c op f
      ∃ w1, s.w.Takes c x w1 ∧
        let w2 := ((E x w1).setStat c x.id .remote).noteSent c x
        exec i s = .next { s with w := if op ≠ .fabGet ∧ w2.owesRemote c x.id = false then w2.remoteDone c x.id 0 else w2 }
    (k.operandFault .fabPut f = none → s.w.fits c sa n → far sd → s.w.mayRetain c n = true →
      sends .fabPut (.fabPut c f (.start ev)) fun x w =>
        w.sendWrites c x (sd.extractLsb' 48 16) false (sd.toNat % 2 ^ 48) (winBytes s.w c sa n)) ∧
    (k.operandFault .fabGet f = none → s.w.fits c sd n → far sa → s.w.mayRetain c 8 = true →
      sends .fabGet (.fabGet c f (.start ev)) fun x w =>
        let tag := s.w.fab.nextTag
        ({ w with fab := { w.fab with
            nextTag := tag + 1, reads := w.fab.reads ++ [⟨tag, sa.extractLsb' 48 16, c, x.id, n, []⟩] } } : Work).sendPkt k.part
          { mkPkt (sa.extractLsb' 48 16) k.job 0x02 (BitVec.ofNat 64 (sa.toNat % 2 ^ 48)) (leBytes 4 tag.toNat ++ leBytes 4 n) with
            bestEffort := be, slot := if be then 0 else slot } (.instr c x.id) c.slice none) ∧
    (let g := (sd.extractLsb' 48 16 : BitVec 16).toNat
      let e := s.w.fab.mcast.get .zero g
      k.operandFault .fabMcast f = none → s.w.fits c sa n → sd.toNat % 64 = 0 → g < 4096 → e.valid = true → e.part.toNat = k.part.val →
      e.source = me →
      (be = true ∨ ∀ p, (List.range 32).find? (fun p => e.ports.getLsbD p) = some p → (s.w.port p).slotValid slot.toNat = true) →
      s.w.mayRetain c n = true →
      sends .fabMcast (.fabMcast c f (.start ev)) fun x w =>
        w.sendWrites c x (sd.extractLsb' 48 16) true (sd.toNat % 2 ^ 48) (winBytes s.w c sa n))

/-- R92-R94, R134: `sl.arm` and `sl.sig` on a declared sluice put an operation on its way to the local store, or send a message to
the sluice's home; the control unit does nothing else. `sl.wait` lets dispatch go on when the sluice shows its generation filled,
or a later one, and holds it otherwise. R87-R91, R134, R201: the local-flag and ordering instructions. `lf.wait` goes on when the flag has reached IMM and holds dispatch
otherwise; `lf.clr` clears a flag; `ctx.fence`, with nothing outstanding, is complete; `rng.set` sets the generator position and the
work version. `frame.end` keeps the largest lateness, counts an overrun that no tick has counted, and counts a hold frame; with LAST the context ENDS, otherwise it waits for
its closing tick, or, after that tick, starts its next segment.
The model's own choices it rests on: log entry 22.
Each of these answers a next state under the conditions stated: `slArm`, `slSig`, `slWait`, `lfWait`, `lfClr`, `frameEnd`, `ctxFence`,
`rngSet`. -/
def Obligations.SluiceAndControlInstructionResults : Prop :=
  (∀ (c : CtxId) (f : Fields) (ev : MemEvent) (s : State), s.w.ready c →
    let k := s.w.ctx c
    let sa := k.getS (fieldNum f.a)
    let i := sa.toNat % 2 ^ 14
    let z := s.w.sluice i
    let g : BitVec 16 := (k.getS (fieldNum f.b)).setWidth 16
    let target : BitVec 32 := (k.getS (fieldNum f.d)).setWidth 32
    let sent := fun (op : KOp) (ins : Instr) (o : SluiceOp) => k.operandFault op f = none → s.w.declares c i = true →
      Completed s (exec ins s) c (s.w.capture c op f) fun w =>
        if z.fabric = true ∧ z.home ≠ s.w.time.address then
          w.sendPkt k.part (mkPkt z.home k.job 0x06 (BitVec.ofNat 64 i) o.payload) .device c.slice none
        else w.updSluice i fun y => { y with coming := y.coming ++ [(64 * c.slice.val + c.core.val, o)] }
    let full := (z.count - z.target).toNat < 2 ^ 31
    let later := 1 ≤ (z.gen - g).toNat ∧ (z.gen - g).toNat ≤ 32767
    sent .slArm (.slArm c f (.start ev)) (.arm g target) ∧
    sent .slSig (.slSig c f (.start ev)) (.signal g (f.imm.setWidth 32)) ∧
    (k.operandFault .slWait f = none → s.w.declares c i = true → (z.gen = g ∧ full) ∨ later →
      CtxDone s (exec (.slWait c f (.start ev)) s) c k (k.pc + 8)) ∧
    (k.operandFault .slWait f = none → s.w.declares c i = true → ¬((z.gen = g ∧ full) ∨ later) →
      CtxDone s (exec (.slWait c f (.start ev)) s) c
        { k with st := .waiting, hold := .sluice (BitVec.ofNat 14 sa.toNat) g, infl := [s.w.capture c .slWait f] } (k.pc + 8))) ∧
  (∀ (c : CtxId) (f : Fields) (ev : MemEvent) (s : State), s.w.ready c →
    let k := s.w.ctx c
    let n := f.mod.toNat % 16
    let reached := (BitVec.ofNat 16 (k.flags.get 0 n) - f.imm).toNat < 2 ^ 15
    let p := s.w.time.period.toNat * 1000
    let late := min (s.w.time.ftime.toNat - (k.segment + 1) * p) (2 ^ 32 - 1)
    let past := decide (k.segment + 1 ≤ s.w.time.ftime.toNat / p) && !k.overrunCounted
    let k1 := { k with pc := k.pc + 8, dispatchPc := k.pc, maxLateness := max k.maxLateness late
                       overrunCounted := k.overrunCounted || past, overruns := if past then k.overruns + 1 else k.overruns }
    let ended := fun (k' : Ctx) (ra : List ReadAhead) =>
      ∃ t, exec (.frameEnd c f (.start ev)) s = .next t ∧ t.ctl = s.ctl ∧ t.pending = s.pending ∧ (∀ e, e ≠ c → t.w.ctx e = s.w.ctx e) ∧
        t.w.ctx c = k' ∧
        t.w = { s.w with ctxs := t.w.ctxs, slices := t.w.slices, nextId := s.w.nextId + 1, readAhead := ra } ∧
        ∀ m, t.w.slice m = if m = c.slice.val ∧ k.busy = false then
            { s.w.slice m with peat := { (s.w.slice m).peat with holdFrames := satAdd (s.w.slice m).peat.holdFrames 1 } }
          else s.w.slice m
    (reached → CtxDone s (exec (.lfWait c f (.start ev)) s) c k (k.pc + 8)) ∧
    (¬reached → CtxDone s (exec (.lfWait c f (.start ev)) s) c
      { k with st := .waiting, hold := .flag ⟨n, Nat.mod_lt _ (by decide)⟩ f.imm, infl := [s.w.capture c .lfWait f] } (k.pc + 8)) ∧
    CtxDone s (exec (.lfClr c f (.start ev)) s) c { k with flags := k.flags.set 0 n 0 } (k.pc + 8) ∧
    CtxDone s (exec (.ctxFence c f (.start ev)) s) c k (k.pc + 8) ∧
    (k.operandFault .rngSet f = none →
      let a := k.getS (fieldNum f.a)
      CtxDone s (exec (.rngSet c f (.start ev)) s) c
        { k with lane := a.getLsbD 16, mb := a.setWidth 16, version := if a.toNat % 65536 = 65535 then none else some k.latBuf }
        (k.pc + 8)) ∧
    (f.mod.getLsbD 0 = true → (∀ q, s.w.prog k.part k.program = some q → q.load = none) →
      ended { k1 with st := .ended, hold := .none, version := none } s.w.readAhead) ∧
    (f.mod.getLsbD 0 = false → s.w.time.ftime.toNat / p < k.segment + 1 → ended { k1 with st := .waiting, hold := .tick } s.w.readAhead) ∧
    (f.mod.getLsbD 0 = false → k.segment + 1 ≤ s.w.time.ftime.toNat / p →
      ended { k1 with
          segment := k.segment + 1, busy := false, overrunCounted := false
          latStep := match s.w.jobOf c with | some j => j.step.toNat | none => k.latStep
          latBuf := match s.w.jobOf c with | some j => j.buf | none => k.latBuf }
        (s.w.readAhead.filter fun r => decide (r.ctx ≠ c ∨ k.segment + 1 ≤ r.segment))))

/-- R60, R134-R136, R309-R314, R414: the other control instructions. `red.open` takes a context for its bucket where the descriptor
fits and the quota allows; `red.contrib` gives the device's contribution to the open bucket; `red.close` releases a delivered bucket
and otherwise waits for its delivery; `step.commit` signals the job's commit sluice, once in a generation and not for a step that the
device has aborted; `scl.pin` sets what the next commit makes of the tensor's pin.
The model's own choices it rests on: log entries 27, 28, 71, 118.
Each of these answers a next state under the conditions stated: `redOpen`, `redContrib`, `redClose`, `stepCommit`, `sclPin`. -/
def Obligations.CommitAndReductionInstructionResults : Prop :=
  ∀ (c : CtxId) (f : Fields) (s : State), s.w.ready c →
    let k := s.w.ctx c
    let sa := k.getS (fieldNum f.a)
    let sb := k.getS (fieldNum f.b)
    let bucket : BitVec 16 := sa.setWidth 16
    let step := s.w.workStep c
    let done := fun (op : KOp) (i : Instr) (E : Work → Work) => Completed s (exec i s) c (s.w.capture c op f) E
    (∀ ev bs e, k.operandFault .redOpen f = none → s.w.localDesc c sa = .ok bs →
      let b : BitVec 16 := (RedDesc.ofBytes bs).1
      let d := (RedDesc.ofBytes bs).2
      let n := s.w.red.nodes.get .zero (2 * k.part.val + d.classS.toNat)
      s.w.declares c d.sluice.toNat = true → s.w.tensorEntry c d.tensor = .ok e → s.w.redMisfit k.part k.job d n e = false →
      s.w.redCtx k.job b = none → s.w.redInUse k.part < (s.w.part k.part).dyke.redQuota →
      done .redOpen (.redOpen c f (.start ev)) fun w =>
        (w.setRed k.job b (some (.open_ k.part (s.w.capture c .redOpen f) d n e))).redReplay k.part k.job b) ∧
    (∀ b d, k.operandFault .redContrib f = none → s.w.redCtx k.job bucket = some b → b.step.toNat = step → b.own = none →
      b.phase ≠ .delivered → s.w.descAt c (BitVec.ofNat 64 (sb.toNat % 2 ^ 24)) = .ok d → d.fmt = 2 →
      (b.leaf = false ∨ s.w.mayRetain c (1064 * b.chunks) = true) →
      let tiles := min ((b.desc.blocks + 127) / 128) (d.matrices * d.tm)
      (∀ t, t < tiles → s.w.readable k.part (d.mantAt t) (tileBytes 2) ∧ s.w.readable k.part (d.expAt t) 128) →
      ∃ o : RedOwn, o.rows = d.rows ∧ o.cols = d.cols ∧ o.matrices = d.matrices ∧ o.colAxis = d.colAxis ∧
        o.blocks.length = 128 * tiles ∧
        (∀ t i, t < tiles → i < 128 → (o.blocks.map (·.1)).getD (128 * t + i) 0 = (s.w.peek k.part (d.expAt t) 128).getD i 0) ∧
        Stands s (exec (.redContrib c f (.start .ok)) s) c (s.w.capture c .redContrib f) .remote fun w =>
          w.redContribute c (s.w.capture c .redContrib f) bucket b o) ∧
    (∀ ev, k.operandFault .redClose f = none →
      done .redClose (.redClose c f (.start ev)) fun w =>
        match s.w.redCtx k.job bucket with
        | none => w
        | some b => w.setRed k.job bucket (if b.phase = .delivered then none else some { b with closeAsked := true })) ∧
    (∀ ev j, k.operandFault .stepCommit f = none → s.w.declares c (sa.toNat % 2 ^ 14) = true → s.w.jobOf c = some j →
      j.commitSluice = some (sa.toNat % 2 ^ 14) → s.w.homeOf j = s.w.time.address → j.resil = none →
      let g : BitVec 16 := sb.setWidth 16
      done .stepCommit (.stepCommit c f (.start ev)) fun w =>
        if (s.w.commit k.part k.job).lastGen = some g ∨ (s.w.commit k.part k.job).aborted.contains j.step = true then w
        else (w.updCommit k.part k.job fun z => { z with signalled := true, lastGen := some g }).updSluice (sa.toNat % 2 ^ 14)
          fun y => { y with coming := y.coming ++ [(64 * c.slice.val + c.core.val, .signal g (f.imm.setWidth 32))] }) ∧
    (∀ ev e, k.operandFault .sclPin f = none → s.w.entry k.part (sa.setWidth 20) = some e →
      done .sclPin (.sclPin c f (.start ev)) fun w =>
        w.setEntry k.part (sa.setWidth 20) (some { e with pendingPin := some (f.imm.getLsbD 0) }))

/-- R19, R63, R81-R87, R92-R94, R103: what the engines and the sluices do in their own time. The head of a queue that may begin is started; a
started instruction completes, and its flag increases, alone or with one of another queue, in program order; a missed line lets dispatch
go on; a scale entry enters the slice's cache of 8,192 headers and 65,536 block states; an operation reaches its sluice after those its unit sent before; a satisfied wait lets its context dispatch again.
The model's own choices it rests on: log entries 37, 103.
Each of these answers a next state under the conditions stated: `instructionStart`, `instructionComplete`, `icacheLineFill`,
`scaleEntryArrival`, `sluiceSignalApply`, `sluiceWaitResume`, `lfWaitResume`. -/
def Obligations.EngineEventResults : Prop :=
  ∀ (c : CtxId) (q : Queue) (s : State),
    let k := s.w.ctx c
    let gone := fun (x : InFlight) => k.infl.filter fun y => decide (y.id ≠ x.id)
    let resumes := fun (o : Host.Outcome State Fault Refusal) (x : InFlight) => ∃ t, o = .next t ∧ t.ctl = s.ctl ∧ t.pending = s.pending ∧
      t.w = { s.w with ctxs := t.w.ctxs } ∧ (∀ e, e ≠ c → t.w.ctx e = s.w.ctx e) ∧
      t.w.ctx c = { k with hold := .none, st := if k.st = .waiting then .running else k.st, infl := gone x }
    (∀ x, s.w.headOf c q = some x → s.w.mayBegin c x = true → k.operandFault x.op x.f = none → x.op.actsAtStart = false →
      ∀ ev, exec (.instructionStart c ⟨q, ev, none⟩) s =
        .next { s with w := (((s.w.noteServed c x).noteHalf c x).setStat c x.id .started).noteSent c x }) ∧
    (∀ n x ev w, k.startedAt q n = some x → k.productHeld x = false → s.w.staleReply x = false → q ≠ .C →
      x.op.effect s.w c x ev = .done w →
      exec (.instructionComplete c q ⟨n, none⟩ ev) s = .next { s with w := w.retire c x x.flag } ∧
      ∀ r m y y1 ev2 w2, r ≠ q → r ≠ .C → k.startedAt r m = some y → x.id ≤ y.id → (w.retire c x x.flag).instr c y.id = some y1 →
        ((w.retire c x x.flag).ctx c).st ≠ .faulted →
        ((w.retire c x x.flag).ctx c).productHeld y1 = false → (w.retire c x x.flag).staleReply y1 = false → y1.op.queue = r →
        y1.op.effect (w.retire c x x.flag) c y1 ev2 = .done w2 →
        exec (.instructionComplete c q ⟨n, some ⟨r, .done m, ev2⟩⟩ ev) s = .next { s with w := w2.retire c y1 y1.flag }) ∧
    exec (.icacheLineFill c) s =
      .next { s with w := s.w.updCtx c fun z => { z with hold := if z.hold = .miss then .none else z.hold } } ∧
    (∀ (n : Fin 8) (t : BitVec 20) (p : Fin 8) e, s.w.sliceOwner n.val = some p → s.w.entry p t = some e →
      exec (.scaleEntryArrival n t) s = .next { s with w := s.w.updSlice n.val fun z => { z with scale := { z.scale with
        cached := (p.val, t) :: s.w.cacheFit 8191 (65536 - e.blockCount) (z.scale.cached.filter fun y => decide (y ≠ (p.val, t))) } } }) ∧
    (∀ (sl : BitVec 14) n src op, (s.w.sluice sl.toNat).coming[n]? = some (src, op) →
      (∀ e, e ∈ (s.w.sluice sl.toNat).coming.take n → e.1 ≠ src) → s.w.commitJobs sl.toNat = [] →
      ∃ t, exec (.sluiceSignalApply sl n) s = .next t ∧ t.ctl = s.ctl ∧ t.w = { s.w with sluices := t.w.sluices } ∧
        (∀ i, i ≠ sl.toNat → t.w.sluice i = s.w.sluice i) ∧
        let z := { s.w.sluice sl.toNat with coming := (s.w.sluice sl.toNat).coming.eraseIdx n }
        t.w.sluice sl.toNat = match op with
          | .arm g v => { z with count := 0, target := v, gen := g
                                 changed := z.changed || !(z.count == 0 && z.target == v && z.gen == g)
                                 rearms := if (z.count - z.target).toNat < 2 ^ 31 then z.rearms else min (z.rearms + 1) 65535 }
          | .signal g v => if z.gen = g then { z with count := z.count + v, changed := z.changed || decide (v ≠ 0) }
              else { z with discards := min (z.discards + 1) 65535 }) ∧
    (∀ x y g, k.hold = .sluice y g → s.w.headOf c .C = some x → x.op = .slWait → s.w.startable c x = true →
      k.operandFault .slWait x.f = none → s.w.declares c x.sluiceNo = true → (s.w.sluice x.sluiceNo).satisfied x.gen = true →
      k.st ≠ .paused → resumes (exec (.sluiceWaitResume c) s) x) ∧
    (∀ x y v, k.hold = .flag y v → s.w.headOf c .C = some x → x.op = .lfWait → s.w.startable c x = true →
      (k.flag x.lf - x.f.imm).toNat < 2 ^ 15 → k.st ≠ .paused → resumes (exec (.lfWaitResume c) s) x)

/-- R11, R19, R84, R171-R173, R192-R199, R205: what the memory, the Peat and the combining tree do in their own time: an accepted write is in
memory and its instruction is complete; an entry is spilled for a push that waits and fetched back for a pop; a pop's bytes are at
their destination; a waiting push, a write that waited for a reference count, a held write, a reduction's delivery that waited, and a
combining drain go on. A write that another of its core overtook waits for it.
The model's own choices it rests on: log entries 16, 29, 104, 106.
Each of these answers a next state under the conditions stated: `dmaPutAccepted`, `peatSpill`, `peatFetchBack`, `peatPopCopyComplete`,
`peatPushSpaceAvailable`, `weightWriteWaitRelease`, `heldWriteRelease`, `combiningDrainResult`. -/
def Obligations.MemoryEventResults : Prop :=
  ∀ (c : CtxId) (n : Fin 8) (s : State),
    let k := s.w.ctx c
    let p := (s.w.slice n.val).peat
    let mine := (s.w.slice c.slice.val).peat
    (∀ i h ev, s.w.writes[i]? = some h → s.w.overtakes i h = true → exec (.dmaPutAccepted i ev) s = .next s) ∧
    (∀ i h ev w x, s.w.writes[i]? = some h → s.w.overtakes i h = false → (∀ y, s.w.instr h.ctx h.id = some y → s.w.staleReply y = false) →
      ({ s.w with writes := s.w.writes.eraseIdx i } : Work).applyParts h.q h.parts ev = ((0, 0), w) → w.instr h.ctx h.id = some x →
      exec (.dmaPutAccepted i ev) s = .next { s with w := w.retire h.ctx x x.flag }) ∧
    (∀ d x q b e l p1, s.w.pushWaits n.val = some (d, x) → s.w.sliceOwner n.val = some q → p.victimLane (x.vd.getLsbD 63) = some b →
      oldestResident (p.lane b) = some e → p.placePieces b e.dom (e.size * 512 / pageBytes + 3) (e.size * 512) [] = some (l, p1) →
      ∃ t, exec (.peatSpill n) s = .next t ∧ t.ctl = s.ctl ∧ t.w.ctxs = s.w.ctxs ∧ t.w.cores = s.w.cores ∧
        (t.w.slice n.val).peat =
          { p1.setLane b (replaceOldest (p.lane b) { e with place := .spilled l, bytes := [], units := [] }) with spills := satAdd p.spills 1 }) ∧
    (∀ b e q l bytes, newestSpilled (p.lane b) = some e → s.w.sliceOwner n.val = some q → s.w.mayFetch n.val b = true →
      e.place = .spilled l → s.w.readPieces q l .ok = (⟨0, bytes⟩, s.w) →
      let p1 := { p.setLane b (replaceSpilled (p.lane b) { e with place := .resident, bytes := bytes, units := p.takeUnits b e.size }) with
        fetches := satAdd p.fetches 1 }
      exec (.peatFetchBack n b .ok) s = .next { s with w := s.w.updSlice n.val fun z => { z with peat := p1.releasePages } }) ∧
    (∀ y x sp, mine.copies.find? (fun y => decide (y.ctx = c)) = some y → s.w.instr c y.id = some x → s.w.staleReply x = false →
      k.range x.vd (y.size * 512) = .ok sp →
      let w1 := s.w.updSlice c.slice.val fun z => { z with peat := { z.peat with copies := z.peat.copies.erase y } }
      exec (.peatPopCopyComplete c) s = .next { s with w := (w1.spanWrite c sp y.bytes).retire c x x.flag }) ∧
    (∀ x sp, let size := x.f.imm.toNat + 1
      s.w.headOf c .M = some x → x.op = .peatPush → x.stat = .waitSpace → k.range x.va (size * 512) = .ok sp →
      x.vd.getLsbD 62 = k.version.getD k.latBuf → (mine.lane (x.vd.getLsbD 63)).length < 32768 → size ≤ mine.free →
      let dom := match (s.w.jobOf c).bind Job.peat with
        | some v => s.w.pushDomain k.part v x.step (x.vd.extractLsb' 40 16)
        | none => 0
      let e : PeatEntry := ⟨x.vd, size, s.w.spanRead c sp (size * 512), dom, .resident, mine.takeUnits (x.vd.getLsbD 63) size, false⟩
      let w1 := s.w.updSlice c.slice.val fun z =>
        { z with peat := z.peat.setLane (x.vd.getLsbD 63) (e :: z.peat.lane (x.vd.getLsbD 63)) }
      exec (.peatPushSpaceAvailable c) s = .next { s with w := w1.retire c x x.flag }) ∧
    (∀ x ps, s.w.headOf c .M = some x → x.op = .dmaPut → x.stat = .waitRefs → s.w.putParts c x = .ok ps →
      (∀ y, y ∈ ps → s.w.mapped k.part y.1 y.2.length = true ∧ s.w.writeRole k.part y.1 y.2.length ≠ .current ∧
        s.w.mustHold k.part y.1 y.2.length = false) →
      let w1 : Work := { s.w with writes := s.w.writes ++ [⟨k.part, ps, c, x.id⟩] }
      exec (.weightWriteWaitRelease c) s = .next { s with w := (w1.setStat c x.id .writing).noteSent c x }) ∧
    (∀ (q : Fin 8) i h ev w, (s.w.heldWrites.filter fun h => decide (h.q = q))[i]? = some h →
      s.w.mustHold q h.pkt.addr.toNat h.pkt.payload.length = false →
      ({ s.w with heldWrites := s.w.heldWrites.filter fun x => decide (x ≠ h) } : Work).hbmWrite q h.pkt.addr.toNat h.pkt.payload ev = (0, w) →
      let key := pktFlowIn h.pkt q
      let w1 := w.passE key 0
      exec (.heldWriteRelease q i ev) s = .next { s with w := (w1.ackFlow key).drainEarly key ((w1.recvFlow key).early.length + 1) }) ∧
    (∀ (q : Fin 8) i e ev, (s.w.heldWrites.filter fun h => decide (h.q = q))[i]? = none →
      (s.w.redWaiting q)[i - (s.w.heldWrites.filter fun h => decide (h.q = q)).length]? = some e →
      exec (.heldWriteRelease q i ev) s = .next { s with w := s.w.redUnwait e ev }) ∧
    (∀ u x ev w, s.w.combineUses.find? (fun u => s.w.useDue c u) = some u → s.w.instr c u.id = some x → x.op.queue ≠ .C →
      effCombineResult s.w x u ev = .done w →
      exec (.combiningDrainResult ⟨c, ev⟩) s = .next { s with w := w.retire c x x.flag })

/-- R21-R24: a tick ends the frame's lines of flits, behind which best-effort packets have left, moves ftime to the next multiple of P, opens the windows of the frame, applies a step of
ftime and a change of P, and then runs the seven actions in order: the clock point, the power and the telemetry sample of the closed
frame, the publications, the outcomes of steps with the slot tables, absent cores, cores and refresh modes, the health score in every
64th frame, and the segments. R22, R23, R25, R88-R91, R293, R485: at a tick a step of ftime is applied, counted and logged, and at the first
lock the device takes the fabric's P; an announced P takes effect once its time has come, and one that a locked device still owes at the
first tick under both; the selected clock point takes effect, at a tick only; a segment starts at its tick; a context that is late beyond its slack
raises 0x70 once and runs on; a partition with a pause pending pauses its running contexts in a later frame, and resumes them in a frame
after that of its resume.
The model's own choices it rests on: log entries 73, 85, 94, 113.
Each of these answers a next state under the conditions stated: `frameTick`, `segmentStart`, `latenessExceedsSlack`, `partitionPause`,
`partitionResume`, `clockPointChange`, `ftimeStep`, `framePeriodChange`. -/
def Obligations.FrameTickAndSegmentResults : Prop :=
  (∀ (m : TickIn) (s : State),
    let p := s.w.time.period.toNat * 1000
    let reset := fun (t : Tbl Port) => (t.map fun e => (e.1, { e.2 with windowUsed := [] })).filter fun e => decide (e.2 ≠ .zero)
    let wf := s.w.fab.ports.foldl
      (fun w e => (w.drainTx (portFin e.1) true ((w.port e.1).txq.length + 1)).closeLine (portFin e.1)) s.w
    let w0 : Work := { wf with
      time := { s.w.time with ftime := BitVec.ofNat 64 ((s.w.time.ftime.toNat / p + 1) * p) }
      fab := { wf.fab with ports := reset wf.fab.ports } }
    let s1 := (({ s with w := w0.stepTime.changePeriod } : State).dipBack.applyPoint).closePower m
    let w1 := s1.w.publishSluices
    let w2 := (w1.jobs.foldl (fun (a : Work × MemEvent) e => a.1.applyOutcome (partFin (e.1 / 65536)) (BitVec.ofNat 16 e.1) a.2)
      (w1, m.mem)).1
    let w3 := (List.range 32).foldl (fun w p => w.commitSlots p) w2
    let w4 := (List.range 8).foldl (fun w n => w.updSlice n SliceSt.markAbsent) w3
    let w5 := w4.liveCores.foldl (fun w c => w.coreTick c) w4
    let s2 : State := { s1 with w := (List.range 16).foldl (fun w n => w.updStack n fun x => { x with refreshEff := x.refreshMode }) w5 }
    let s3 := (if s2.w.frame % 64 = 0 then s2.computeHealth m.health else s2).noteCaps.settleDrains
    exec (.frameTick m) s = .next { s3 with w := s3.w.tickSegments }) ∧
  (∀ (s : State),
    let t := s.w.time
    let frame := t.ftime.toNat / (t.period.toNat * 1000)
    let tick := fun (us : BitVec 11) => t.ftime.toNat % (us.toNat * 1000) = 0
    let due := t.nextPeriod ≠ 0 ∧ t.changeAt.toNat ≤ t.ftime.toNat
    let owed := t.lockP ≠ 0 ∧ tick t.lockP ∧ tick t.period
    (∀ j, t.jump = some j → tick t.period → ∃ u, exec .ftimeStep s = .next u ∧ u.ctl = s.ctl ∧
      u.w.time = { t with
        ftime := t.ftime + j.delta, jump := none, stepCount := satAdd t.stepCount 1, st := 1
        period := if t.st = 0 ∧ t.heardP ≠ 0 then t.heardP else t.period
        lockP := if t.st = 1 then t.lockP else if t.st = 0 ∨ t.nextPeriod ≠ 0 ∨ t.heardP = t.period then 0 else t.heardP } ∧
      u.w = { s.w with time := u.w.time, ctxs := u.w.ctxs, log := u.w.log, fab := u.w.fab } ∧
      (t.st ≠ 0 ∨ t.heardP = 0 → u.w.fab = s.w.fab)) ∧
    (t.jump = none ∨ ¬tick t.period → exec .ftimeStep s = .next s) ∧
    (due → ∃ u, exec .framePeriodChange s = .next u ∧ u.ctl = s.ctl ∧
      u.w.time = { t with period := t.nextPeriod, nextPeriod := 0, changeAt := 0, lockP := 0 }) ∧
    (¬due → owed → ∃ u, exec .framePeriodChange s = .next u ∧ u.ctl = s.ctl ∧ u.w.time = { t with period := t.lockP, lockP := 0 }) ∧
    (¬due → ¬owed → exec .framePeriodChange s = .next s) ∧
    (let pw := s.ctl.pwr
      let dip := if pw.dip then 2 else 0
      let hot := if pw.throttle then 2 else 0
      let new := max (max pw.capPoint dip) (max hot pw.maxPoint.toNat)
      (¬tick t.period → exec .clockPointChange s = .next s) ∧
      (tick t.period → ∃ u, exec .clockPointChange s = .next u ∧ u.w.time = { t with point := BitVec.ofNat 2 new } ∧
        u.w = { s.w with time := u.w.time, log := u.w.log } ∧
        u.ctl = { s.ctl with pwr := { pw with
          cause := u.ctl.pwr.cause, pointChanges := if new = t.point.toNat then pw.pointChanges else satAdd pw.pointChanges 1 } })) ∧
    (∀ c, let k := s.w.ctx c
      (k.st = .waiting → k.hold = .tick → k.segment < frame →
        exec (.segmentStart c) s = .next { s with w := s.w.beginSegment c (k.segment + 1) }) ∧
      (k.st = .loaded → k.startFrame ≤ frame → (∀ j, s.w.jobOf c = some j → j.peat = none ∨ j.step ≠ j.start) →
        exec (.segmentStart c) s = .next { s with w := (s.w.beginSegment c frame).updCtx c fun z => { z with startFrame := z.segment } })) ∧
    (∀ c dt, let k := s.w.ctx c
      let p := t.period.toNat * 1000
      t.ftime.toNat % p + dt < p →
      let now := t.ftime + BitVec.ofNat 64 dt
      let late := now.toNat - (k.segment + 1) * p
      let w1 : Work := { s.w with time := { t with ftime := now } }
      ((k.st = .running ∨ k.st = .waiting) → k.hold ≠ .tick → k.slack * p < late → k.fault70 = false →
        exec (.latenessExceedsSlack c dt) s = .next { s with w := w1.fault70 c }) ∧
      (late ≤ k.slack * p → exec (.latenessExceedsSlack c dt) s = .next { s with w := w1 })) ∧
    (∀ q : Fin 8, (s.w.part q).pausePending = true → frame ≤ (s.w.part q).pauseFrom → exec (.partitionPause q) s = .next s) ∧
    (∀ q : Fin 8, (s.w.part q).pausePending = true → (s.w.part q).pauseFrom < frame →
      exec (.partitionPause q) s = .next { s with w := ((s.w.mapCtxs fun k =>
        if k.part = q ∧ (k.st = .running ∨ k.st = .waiting) then
            { k with st := .paused, pausedFrom := k.st, maxLateness := max k.maxLateness (min (k.lateAt t) (2 ^ 32 - 1)) }
          else k).updPart q
          fun p => { p with paused := true, pausePending := false }).partEvent q 1 }) ∧
    (∀ q : Fin 8, frame ≤ (s.w.part q).resumeFrom → exec (.partitionResume q) s = .next s) ∧
    (∀ q : Fin 8, (s.w.part q).resumePending = some none → (s.w.part q).resumeFrom < frame → (∀ c, (s.w.ctx c).part = q → (s.w.ctx c).restart = false) →
      ∃ u, exec (.partitionResume q) s = .next u ∧ u.ctl = s.ctl ∧ (u.w.part q).paused = false ∧ (u.w.part q).resumePending = none ∧
        ∀ c, c ∈ s.w.liveCtxs → (s.w.ctx c).part = q → (s.w.ctx c).st = .paused →
          let k := s.w.ctx c
          u.w.ctx c = { k with
            st := k.pausedFrom, startFrame := k.startFrame + (frame - k.segment), segment := frame, overrunCounted := false
            fault70 := false, fault := if k.fault.code = 0x70 then .none else k.fault }))

/-- R410, R438, R441: a physical function fences a unit: what its contexts have not started ends with 0x60, its ports go down, the count of ended
work is shown, and, once nothing is in flight, a reset clears its cores or a hold keeps it out of service; its return starts its ports.
A second fence of a unit that drains is ignored, and a drain goes on while another unit is fenced. Another function's write, one that the
device does not accept, or a unit that cannot be fenced, changes nothing. A drain that takes too long ends the started work, of a fenced
unit (R410) as of the contexts that an UNLOAD drains (R75) or of the Staithe's queues that drain (R459).
The model's own choices it rests on: log entries 12, 85, 123.
Each of these answers a next state under the conditions stated: `drainTimeout`, `fenceReset`, `fenceHold`, `returnToService`. -/
def Obligations.FenceResults : Prop :=
  ∀ (who : Fn) (u : BitVec 16) (s : State),
    let ctxs := (unitCores u).flatMap siblings
    let ok := s.fnOpen who = true ∧ who.fn = 0 ∧ fenceable u = true
    let w0 : Work := { s.w with fenced := u :: s.w.fenced.filter fun x => decide (x ≠ u) }
    let cut := w0.fenceCtxs (ctxs.filter fun c => !((w0.ctx c).st = .empty || (w0.ctx c).st = .absent))
    let w1 := (unitPorts u).foldl (fun w p => w.drainPort p) cut.2
    let fe := s.ctl.fence
    let drains := (fe.st = 1 ∧ fe.unit = u) ∨ ∃ e, e ∈ fe.others ∧ e.1 = u
    let others := (if fe.st = 1 then (fe.unit, fe.act) :: fe.others else fe.others).filter fun e => decide (e.1 ≠ u)
    let fenced := fun (act : BitVec 2) =>
      let f : FenceSt := { aborted := satAdd 0 cut.1, unit := u, act := act, st := if w1.unitBusy u then 1 else 2, named := true, others := others }
      let w2 := if w1.unitBusy u = false ∧ act = 0 then w1.resetUnit u else w1
      Host.Outcome.next { s with w := if ok then w2 else s.w, ctl := if ok then { s.ctl with fence := f } else s.ctl }
    (drains → exec (.fenceReset who u) s = .next s ∧ exec (.fenceHold who u) s = .next s) ∧
    (¬drains → exec (.fenceReset who u) s = fenced 0 ∧ exec (.fenceHold who u) s = fenced 1) ∧
    exec (.returnToService who u) s = .next (if ok then
      { s with w := (unitPorts u).foldl (fun w p => w.portStart p.val) { s.w with fenced := s.w.fenced.filter fun x => decide (x ≠ u) }
               ctl := { s.ctl with fence := { aborted := 0, unit := u, act := 2, st := 0, named := true, others := others } } } else s) ∧
    exec (.drainTimeout staitheUnit) s = .next { s with w := s.w.abortDraining } ∧
    (u ≠ staitheUnit → s.w.isFenced u = true →
      let r := s.w.abortAll ctxs
      let f := s.ctl.fence
      let ended := f.st = 1 ∧ r.2.unitBusy f.unit = false
      exec (.drainTimeout u) s = .next { s with
        w := if ended ∧ f.act = 0 then r.2.resetUnit f.unit else r.2
        ctl := { s.ctl with fence :=
          { f with aborted := if f.unit = u then satAdd f.aborted r.1 else f.aborted, st := if ended then 2 else f.st } } }) ∧
    (u ≠ staitheUnit → s.w.isFenced u = false → exec (.drainTimeout u) s =
      .next { s with w := (s.w.abortAll (ctxs.filter fun c => (s.w.ctx c).draining)).2 })

/-- R14-R19, R35, R36, R123, R143-R147, R409, R412: a core that fails ends its contexts' work, loses its registers and memory, gains an epoch
and waits for the spare of its pair of clusters, or for absence where there is none, its slice's registers unchanged till then; a spare
enters at a tick, empty, sequential until the next tick; a cluster's loss takes its memory and each of its eight cores that was not lost,
which gain epochs; a slice's loss takes all it holds and fails its partition; a half of B that fails is out, and counted, from the next
tick, where sequential operation begins or ends, and of the products that run on it the last that started faults with 0x40 while those
before it go on.
The model's own choices it rests on: log entries 39, 85.
Each of these answers a next state under the conditions stated: `sequentialModeChange`, `coreFailure`, `spareSubstitution`, `clusterLoss`,
`sliceLoss`, `bHalfFailure`. -/
def Obligations.UnitLossResults : Prop :=
  ∀ (n : Fin 8) (core : Fin 64) (s : State),
    let sl := s.w.slice n.val
    let id : CtxId := ⟨n, core, 0⟩
    let k := s.w.core id
    let lost := sl.coreAbsent.getLsbD core.val = true ∨ ∃ e, e ∈ sl.waitingSpare ∧ e.1 = core.val
    (lost → exec (.coreFailure n core) s = .next s) ∧
    (¬lost → ∃ t, exec (.coreFailure n core) s = .next t ∧ t.ctl = s.ctl ∧
      t.w.core id = { Core.zero with bState := k.bState, bPending := k.bPending, sequential := k.sequential, lastB := k.lastB } ∧
      (∀ i : Fin 4, (t.w.ctx { id with ctx := i }).st = .absent ∧ (t.w.ctx { id with ctx := i }).infl = []) ∧
      t.w.epochs = s.w.epochs.set 0 (unitId 0 n.val core.val).toNat (s.w.epochs.get 0 (unitId 0 n.val core.val).toNat + 1) ∧
      (t.w.slice n.val).spares = sl.spares ∧ (t.w.slice n.val).coreAbsent = sl.coreAbsent ∧
      (t.w.slice n.val).waitingSpare = sl.waitingSpare ++ [(core.val, (sl.spareFor core.val).getD 4)]) ∧
    (∀ b, s.w.time.atTick = false → exec (.spareSubstitution n core b) s = .next s) ∧
    (∀ b e, s.w.time.atTick = true → sl.waitingSpare.find? (fun e => decide (e.1 = core.val ∧ e.2 < 4)) = some e →
      ∃ t, exec (.spareSubstitution n core b) s = .next t ∧ t.ctl = s.ctl ∧
        t.w = { s.w with ctxs := t.w.ctxs, cores := t.w.cores, slices := t.w.slices } ∧
        t.w.core id = { Core.zero with bState := b, sequential := k.sequential, lastB := k.lastB } ∧
        (∀ i : Fin 4, t.w.ctx { id with ctx := i } = .empty) ∧
        t.w.slice n.val = { sl with waitingSpare := sl.waitingSpare.filter fun x => decide (x ≠ e)
                                    spares := sl.spares.set .free e.2 ⟨true, false, BitVec.ofNat 6 core.val⟩ }) ∧
    (∀ cl : Fin 8, ∃ t, exec (.clusterLoss n cl) s = .next t ∧ t.ctl = s.ctl ∧ t.w.clusters.get [] (8 * n.val + cl.val) = [] ∧
      t.w.epochs.get 0 (unitId 0 n.val (0x80 + cl.val)).toNat = s.w.epochs.get 0 (unitId 0 n.val (0x80 + cl.val)).toNat + 1 ∧
      (core.val / 8 = cl.val → ¬lost →
        t.w.core id = { Core.zero with bState := k.bState, bPending := k.bPending, sequential := k.sequential, lastB := k.lastB } ∧
        (∀ i : Fin 4, (t.w.ctx { id with ctx := i }).st = .absent ∧ (t.w.ctx { id with ctx := i }).infl = []) ∧
        t.w.epochs.get 0 (unitId 0 n.val core.val).toNat = s.w.epochs.get 0 (unitId 0 n.val core.val).toNat + 1 ∧
        (core.val, 4) ∈ (t.w.slice n.val).waitingSpare)) ∧
    (sl.mappedOut = true → exec (.sliceLoss n) s = .next s) ∧
    (sl.mappedOut = false → ∃ t, exec (.sliceLoss n) s = .next t ∧ t.ctl = s.ctl ∧ (t.w.slice n.val).mappedOut = true ∧
      (t.w.slice n.val).peat.laneA = [] ∧ (t.w.slice n.val).peat.laneB = [] ∧ (∀ a, a / 2 ^ 36 = n.val → t.w.hbm.read a = 0) ∧
      t.w.core id = .zero ∧
      (∀ i : Fin 4, s.w.ctxs.any (fun e => decide (ctxOfKey e.1 = { id with ctx := i })) = true →
        (t.w.ctx { id with ctx := i }).st = .absent ∧ (t.w.ctx { id with ctx := i }).infl = []) ∧
      (∀ u, u ∈ [unitId 0 n.val 0xFF, unitId 1 n.val 0xFF, unitId 4 (2 * n.val) 0xFF, unitId 4 (2 * n.val + 1) 0xFF] →
        t.w.epochs.get 0 u.toNat = s.w.epochs.get 0 u.toNat + 1) ∧
      ∀ q, s.w.sliceOwner n.val = some q → (t.w.part q).failed = true) ∧
    (∀ half : Bool, let bit : BitVec 2 := if half then 2 else 1
      let now := k.bPending.getD k.bState
      (now &&& bit ≠ 0 → exec (.bHalfFailure n core half) s = .next s) ∧
      (now &&& bit = 0 → ∃ t, exec (.bHalfFailure n core half) s = .next t ∧ t.ctl = s.ctl ∧
        t.w.core id = { k with bPending := some (now ||| bit) } ∧
        (t.w.slice n.val).runtimeLosses = sl.runtimeLosses ∧
        let runs := fun (d : CtxId) (y : InFlight) =>
          d ∈ siblings id ∧ y ∈ (s.w.ctx d).infl ∧ y.op.queue = .B ∧ y.stat = .started ∧ y.half.getLsbD half.toNat = true
        ((∀ d y, ¬runs d y) → t.w.ctxs = s.w.ctxs) ∧
        ∀ d y, runs d y → (s.w.ctx d).st = .running ∨ (s.w.ctx d).st = .waiting →
          (∀ e z, runs e z → (e = d ∧ z = y) ∨ (z.startNo < y.startNo ∧ z.id ≠ y.id)) →
          (t.w.ctx d).st = .faulted ∧ (t.w.ctx d).fault.code = 0x40 ∧ (∀ z, z ∈ (t.w.ctx d).infl → z.id ≠ y.id) ∧
            ∀ e z, runs e z → z ≠ y → z ∈ (t.w.ctx e).infl)) ∧
    (let b := k.bPending.getD k.bState
      let want := decide (b ≠ 0) || (siblings id).any fun d =>
        (s.w.ctx d).seqMode && !(decide ((s.w.ctx d).st = .empty ∨ (s.w.ctx d).st = .absent))
      ∃ t, exec (.sequentialModeChange n core) s = .next t ∧ t.ctl = s.ctl ∧ t.w = { s.w with cores := t.w.cores, slices := t.w.slices } ∧
        t.w.slice n.val = { sl with runtimeLosses := satAdd sl.runtimeLosses (halves (b &&& ~~~k.bState)) } ∧
        t.w.core id = { k with bState := b, bPending := none, sequential := want
                               lastB := if want = true ∧ k.sequential = false then true else k.lastB })

/-- R19, R243-R248, R409, R412: a unit that is down, and did not fail its test, leaves reset with a new epoch, as what it holds does, fenced
no more, and its ports start; a fabric die's reset raises the epochs of its ports, of its other units and its own; a channel's failure is recorded, once, and fails the partition of its slice. The
patrol corrects or poisons what it reads, without fault; requests held for an old epoch end with 0x40 when a unit leaves reset; a refresh interval follows the temperature; a written mode takes effect.
The model's own choices it rests on: log entries 15, 85, 88.
Each of these answers a next state under the conditions stated: `unitResetExit`, `channelFail`, `patrolRead`, `refresh`,
`stackTempCrossing`, `refreshModeChange`, `fabricDieReset`. -/
def Obligations.StackAndResetResults : Prop :=
  ∀ (s : State) (n j : Fin 16),
    let st := s.w.stack n.val
    (∀ u, s.w.isDown u = true → s.w.testFailed.contains u = false → unitClass u ≠ 5 → (unitClass u ≠ 2 ∨ s.ctl.pins.frefclk = true) →
      let w1 := ({ s.w with inReset := s.w.inReset.filter fun x => decide (x ≠ u)
                            fenced := s.w.fenced.filter fun x => decide (x ≠ u) } : Work).newEpochs u
      exec (.unitResetExit u) s = .next { s with
        w := (unitPorts u).foldl (fun w p => w.portStart p.val) w1.staleWrites
        ctl := { s.ctl with fence := { s.ctl.fence with st := if s.ctl.fence.unit = u then 0 else s.ctl.fence.st } } }) ∧
    (∀ u, s.w.isDown u = false ∨ s.w.testFailed.contains u = true ∨ unitClass u = 5 ∨ (unitClass u = 2 ∧ s.ctl.pins.frefclk = false) → exec (.unitResetExit u) s = .next s) ∧
    (∀ d : Fin 2, s.w.red.ctxs = [] → ∃ t, exec (.fabricDieReset d) s = .next t ∧ t.ctl = s.ctl ∧
      (∀ p, p < 32 → p / 16 = d.val → (t.w.port p).txq = [] ∧ (t.w.port p).slotQ = [] ∧ (t.w.port p).replay = [] ∧
        (t.w.port p).linkKey = none ∧ (t.w.port p).st = if 2 ≤ (s.w.port p).st then 2 else (s.w.port p).st) ∧
      ∀ i, i < 16 ∨ (0x40 ≤ i ∧ i < 0x44) ∨ i = 0xFF →
        t.w.epochs.get 0 (unitId 2 d.val i).toNat = s.w.epochs.get 0 (unitId 2 d.val i).toNat + 1) ∧
    (st.chFailed.getLsbD j.val = true ∨ st.chMap.getLsbD j.val = false → exec (.channelFail n j) s = .next s) ∧
    (st.chFailed.getLsbD j.val = false → st.chMap.getLsbD j.val = true → ∃ t, exec (.channelFail n j) s = .next t ∧ t.ctl = s.ctl ∧
      (t.w.stack n.val).chFailed = st.chFailed ||| BitVec.ofNat 16 (2 ^ j.val) ∧
      (t.w.stack n.val).runFailed = st.runFailed ||| BitVec.ofNat 16 (2 ^ j.val) ∧
      (∀ i, i < 2 → t.w.epochs.get 0 (stackUnit n.val (2 * j.val + i)).toNat = s.w.epochs.get 0 (stackUnit n.val (2 * j.val + i)).toNat + 1) ∧
      ∀ q, s.w.sliceOwner (n.val / 2) = some q → (t.w.part q).failed = true) ∧
    (∀ (pa : BitVec 48) (ev : MemEvent),
      let w := match ev with
        | .corrected m => s.w.corrected pa.toNat m
        | .uncorrectable k => s.w.uncorrectable pa.toNat k
        | _ => s.w
      exec (.patrolRead pa ev) s = .next { s with w := if s.w.reach pa.toNat ≠ 0 then s.w else w }) ∧
    exec (.refresh n) s = .next { s with
      w := s.w.updStack n.val fun x => { x with refreshes := x.refreshes + 1, tRefi := if x.hot then 1950 else 3900 } } ∧
    (∀ hot, exec (.stackTempCrossing n hot) s = .next { s with w := s.w.updStack n.val fun x => { x with hot := hot } }) ∧
    exec (.refreshModeChange n) s = .next { s with w := s.w.updStack n.val fun x => { x with refreshEff := x.refreshMode } }

/-- R445-R450: doorbells and the Staithe. A tail within the ring makes a queue one to fetch, or, at the fetch position, ends its batch; a head within what is written frees its slots; a
bad index is logged and told to the function. A fetched entry with the expected SEQ is accepted, or refused with its SEQ consumed; one
used before is answered again; any other ends with 0x0103. A full Staithe stops, counted, and resumes with the queues in doorbell order.
The model's own choices it rests on: log entry 42.
Each of these answers a next state under the conditions stated: `sqTailDoorbell`, `cqHeadDoorbell`, `staitheFetch`, `staitheResumeFetch`,
`interruptCoalesceTimer`. -/
def Obligations.StaitheResults : Prop :=
  ∀ (f : Fn) (k : Nat) (q : QueueSt) (s : State), s.w.queue f k = some q →
    (∀ v : BitVec 32, s.fnOpen f = true → let i := v.toNat % 65536
      let w1 := s.w.setQueue f k (some { q with tail := i })
      (i < 2 ^ q.l → q.draining = false → exec (.sqTailDoorbell f k v) s = .next { s with
        w := if i = q.fetch then (w1.ackBatch f k).trimOrder f k else if s.w.host.order.contains (f, k) = true then w1
          else { w1 with host := { w1.host with order := s.w.host.order ++ [(f, k)] } } }) ∧
      (i < 2 ^ q.l → q.draining = true → exec (.sqTailDoorbell f k v) s = .next s) ∧
      (2 ^ q.l ≤ i → exec (.sqTailDoorbell f k v) s = .next { s with
        w := (s.w.logEv (unitId 3 0 0x10) 0x0980 2 (s.w.fnPart f) (fnKey f + k * 2 ^ 16 + i * 2 ^ 48)).fnEvent f 4 })) ∧
    (∀ v : BitVec 32, s.fnOpen f = true → let i := v.toNat % 65536
      let d := (i + 2 ^ q.l - q.cqHead % 2 ^ q.l) % 2 ^ q.l
      (i < 2 ^ q.l → d ≤ q.cqTail - q.cqHead → exec (.cqHeadDoorbell f k v) s = .next { s with
        w := ((s.w.setQueue f k (some { q with cqHead := q.cqHead + d })).flush f k (q.cmds.length + 1)).releaseDrained f k }) ∧
      (2 ^ q.l ≤ i ∨ q.cqTail - q.cqHead < d → exec (.cqHeadDoorbell f k v) s = .next { s with
        w := (s.w.logEv (unitId 3 0 0x10) 0x0980 2 (s.w.fnPart f) (fnKey f + k * 2 ^ 16 + 2 ^ 32 + i * 2 ^ 48)).fnEvent f 4 })) ∧
    (∀ e : BitVec 512, s.w.fnUp f = true → s.w.host.stalled = false → s.w.canFetch f k = true → s.w.fetchTurn f k = true → s.w.held < 65536 →
      let seq := cmdSeq e
      let cause := s.w.formatCheck f k e
      let q1 := { q with fetch := (q.fetch + 1) % 2 ^ q.l }
      let q2 := if seq = q.x then
          { q1 with x := q.x + 1, ackDue := true
                    cmds := q.cmds ++ [⟨seq, false, false, e, if cause = 0 then .accepted else .done (BitVec.ofNat 16 (0x100 + cause)) 0⟩] }
        else if q.resubmitted seq then { q1 with cmds := q.cmds ++ [⟨seq, true, false, e, .accepted⟩] }
        else { q1 with cmds := q.cmds ++ [⟨seq, false, true, e, .done 0x103 0⟩] }
      let w1 := s.w.setQueue f k (some q2)
      let w2 := if w1.canFetch f k then w1 else w1.ackBatch f k
      exec (.staitheFetch f k e) s =
        .next { s with w := ((w2.flush f k (q.cmds.length + 2)).releaseDrained f k).trimOrder f k }) ∧
    (∀ e : BitVec 512, s.w.fnUp f = true → s.w.host.stalled = false → s.w.canFetch f k = true → s.w.fetchTurn f k = true → 65536 ≤ s.w.held →
      let w1 := s.w.ackBatch f k
      let stop := { w1.host with stalled := true, resuming := false, stalls := satAdd w1.host.stalls 1 }
      exec (.staitheFetch f k e) s = .next { s with w := { w1 with host := stop } }) ∧
    (let go := { s.w.host with stalled := false, resuming := !s.w.host.order.isEmpty };
      exec .staitheResumeFetch s = .next { s with
        w := if s.w.host.stalled = true ∧ s.w.held < 65536 then { s.w with host := go } else s.w }) ∧
    exec (.interruptCoalesceTimer f k) s = .next { s with
      w := if 0 < q.unsignalled then (s.w.setQueue f k (some { q with unsignalled := 0 })).emit (.msix f q.vector) else s.w }

/-- R412, R445, R455, R459-R467: the life of queues and functions. CREATE_QUEUE takes a queue context and answers its number; DELETE_QUEUE, a
disabled AQ, a function's reset and a link that goes down end a function's queues, and the last two raise its epoch; AQ_CTL enables queue 0, which waits where no
context is free and takes one that becomes free; FN_CFG is taken from a physical function where the limits fit. R451: a command that may not start yet, or whose entry has another opcode, stays where it is: its row changes nothing.
The model's own choices it rests on: log entries 12, 41, 43, 44, 60, 126.
Each of these answers a next state under the conditions stated: `queueContextGrant`, `createQueue`, `deleteQueue`, `functionLevelReset`,
`pcieLinkDown`, `aqEnable`, `aqDisable`, `fnCfgWrite`. -/
def Obligations.QueueLifeAndOrderResults : Prop :=
  (∀ (f : Fn) (v : Word) (r : CmdRef) (s : State),
    let drop := fun (w : Work) => ((w.queuesOf f).foldl (fun w k => w.disableQueue f k none) w).updFn f
      fun z => { z with enable := false, ready := false, waiting := false }
    (∀ e k, s.w.startCmd r 0x01 = some e → 4 ≤ cmdArg e 40 1 → cmdArg e 40 1 ≤ 16 → cmdArg e 44 1 ≠ 0 → cmdArg e 32 8 % 8 = 0 →
      cmdArg e 42 2 < (s.w.fn r.fn).cfgEff.vectorCount.toNat → s.w.queueRoom r.fn = true → s.w.freeQueue r.fn = some k →
      let q : QueueSt :=
        { sq := BitVec.ofNat 64 (cmdArg e 16 8), cq := BitVec.ofNat 64 (cmdArg e 24 8), ack := BitVec.ofNat 64 (cmdArg e 32 8)
          l := cmdArg e 40 1, vector := cmdArg e 42 2, count := cmdArg e 44 1, time := cmdArg e 46 2, tail := 0, fetch := 0
          cqHead := 0, cqTail := 0, x := 1, ackDue := false, cmds := [], history := [], unsignalled := 0, draining := false
          deleteBy := none }
      exec (.createQueue r) s = .next { s with w := (s.w.setQueue r.fn k (some q)).finish r 0 k }) ∧
    (∀ e q, s.w.startCmd r 0x02 = some e → cmdArg e 16 2 ≠ 0 → s.w.queue r.fn (cmdArg e 16 2) = some q → q.draining = false →
      exec (.deleteQueue r) s = .next { s with w := (s.w.markCmd r .started).disableQueue r.fn (cmdArg e 16 2) (some r) }) ∧
    (∀ e, s.w.startCmd r 0x02 = some e → cmdArg e 16 2 = 0 ∨ s.w.queue r.fn (cmdArg e 16 2) = none →
      exec (.deleteQueue r) s = .next { s with w := s.w.finish r 0x102 0 }) ∧
    (s.ctl.ready = true → s.w.fnUp f = true → exec (.functionLevelReset f) s = .next { s with w := (drop s.w).nextFnEpoch f }) ∧
    (∀ p : Fin 2, ∃ t, exec (.pcieLinkDown p) s = .next t ∧ t.ctl = s.ctl ∧
      t.w.host.pcie.get .zero p.val = { s.w.host.pcie.get .zero p.val with
        downEvents := satAdd (s.w.host.pcie.get .zero p.val).downEvents 1, up := false } ∧
      ∀ g : Fn, g.port = p → (t.w.fn g).enable = false ∧ (t.w.fn g).ready = false ∧ (∀ k, k < 4096 → t.w.queue g k = none) ∧
        t.w.epochs.get 0 (fnEpochKey g) = s.w.epochs.get 0 (fnEpochKey g) + 1) ∧
    (s.fnOpen f = true → v.getLsbD 63 = true → (s.w.fn f).enable = true →
      exec (.aqEnable f v) s = .next { s with w := s.w.updFn f fun z => { z with aq := aqWritten z.cfgEff v } }) ∧
    (s.fnOpen f = true → v.getLsbD 63 = true → (s.w.fn f).enable = false →
      let w1 := s.w.updFn f fun z => { z with enable := true, cfgEff := z.cfg, aq := aqWritten z.cfg v, aqEff := aqWritten z.cfg v }
      exec (.aqEnable f v) s = .next { s with w := if w1.adminRoom f then w1.takeAdmin f
        else ((w1.updFn f fun z => { z with waiting := true }).logEv (unitId 3 0 0x10) 0x0981 2 (w1.fnPart f) (fnKey f)).fnEvent f 5 }) ∧
    (s.fnOpen f = true → v.getLsbD 63 = false →
      exec (.aqDisable f v) s = .next { s with w := (drop s.w).updFn f fun z => { z with aq := aqWritten z.cfgEff v } }) ∧
    exec (.queueContextGrant f) s = .next { s with
      w := if (s.w.fn f).waiting = true ∧ (s.w.fn f).enable = true ∧ s.w.adminRoom f = true then s.w.takeAdmin f else s.w } ∧
    (∀ who : Fn, let c : FnLimits := ⟨v.extractLsb' 48 11, v.extractLsb' 32 12, v.extractLsb' 0 13⟩
      exec (.fnCfgWrite who f v) s = .next { s with
        w := if s.fnOpen who = true ∧ who.fn = 0 ∧ s.w.cfgOk f c = true then s.w.updFn f fun z => { z with cfg := c } else s.w })) ∧
  (∀ (r : CmdRef) (s : State),
    let idle := fun (op : Nat) (i : Instr) => s.w.startCmd r op = none → exec i s = .next s
    let notStarted := ∀ e, s.w.cmd r = some e → e.st ≠ .started
    idle 0x01 (.createQueue r) ∧ idle 0x02 (.deleteQueue r) ∧ (notStarted → ∀ h ev, idle 0x10 (.hostWrite r h ev)) ∧
    (∀ h ev, idle 0x11 (.hostRead r h ev)) ∧ idle 0x20 (.load r) ∧ (notStarted → idle 0x21 (.unload r)) ∧ idle 0x22 (.resume r) ∧
    idle 0x23 (.plan r) ∧ idle 0x30 (.page r) ∧ idle 0x31 (.domain r) ∧ (notStarted → idle 0x32 (.package r)) ∧ (∀ h, idle 0x40 (.checkpoint r h)) ∧
    (∀ h, idle 0x41 (.restore r h)) ∧ idle 0x42 (.rebuild r) ∧ (∀ h, idle 0x50 (.manifest r h)) ∧ (∀ h, idle 0x51 (.enrol r h)) ∧
    idle 0x52 (.remove r) ∧ idle 0x53 (.assign r) ∧ ∀ b, idle 0x54 (.hostReset r b))

/-- R205, R454, R455: WRITE moves bytes of host memory to the partition's address space, READ the other way, 64-byte aligned; the result is
the number of bytes. An address outside the page table is refused with 0x0107, the current buffer of a weight with 0x0268; a write
to a previous buffer in use waits; a transfer of the host that fails gives 0x0240.
The model's own choices it rests on: log entries 61, 108, 109, 110.
Each of these answers a next state under the conditions stated: `hostWrite`, `hostRead`. -/
def Obligations.HostCopyResults : Prop :=
  ∀ (r : CmdRef) (h : HostData) (hostOk : Bool) (ev : MemEvent) (q : Fin 8) (e : BitVec 512) (s : State),
    let host := cmdArg e 16 8
    let a := cmdArg e 24 8
    let n := cmdArg e 32 8
    let aligned := a % 64 = 0 ∧ n % 64 = 0
    let ends := fun (c : Nat) (i : Instr) => exec i s = .next { s with w := s.w.finish r c 0 }
    (s.w.Runs r 0x10 q e →
      let i : Instr := .hostWrite r h ev
      (¬aligned → ends 0x102 i) ∧
      (aligned → s.w.mapped q a n = false → ends 0x107 i) ∧
      (aligned → s.w.mapped q a n = true → s.w.writeRole q a n = .current → ends 0x268 i) ∧
      (aligned → s.w.mapped q a n = true → s.w.mustHold q a n = true → exec i s = .next { s with w := s.w.markCmd r .started }) ∧
      (aligned → s.w.mapped q a n = true → s.w.writeRole q a n ≠ .current → s.w.mustHold q a n = false →
        h.ok = true → n ≤ h.bytes.length →
        exec i s = .next { s with w := Work.ends r n (s.w.hbmWrite q a (h.bytes.take n) ev) })) ∧
    (s.w.Runs r 0x11 q e →
      let i : Instr := .hostRead r hostOk ev
      let g := s.w.hbmRead q a n ev
      (¬aligned → ends 0x102 i) ∧
      (aligned → s.w.mapped q a n = false → ends 0x107 i) ∧
      (aligned → s.w.readable q a n → ev = .ok → hostOk = true → ∃ t, exec i s = .next t ∧ t.ctl = s.ctl ∧ t.pending = s.pending ∧
        t.w = (g.2.emit (.hostWrite r.fn (BitVec.ofNat 64 host) (s.w.peek q a n))).finish r 0 n) ∧
      (aligned → s.w.mapped q a n = true → g.1.code ≠ 0 →
        exec i s = .next { s with w := g.2.finish r (0x200 + g.1.code.toNat) 0 }))

/-- R73, R75, R91, R456, R467: a LOAD whose header passes its checks makes every context that it names LOADED under the partition, job and
program; an UNLOAD stops the program, once, and ends it with an outcome of 0 once nothing of it is in flight; one that names no program
succeeds; a RESUME waits for the next tick, or succeeds at once where nothing is paused. R209, R210, R212: a PLAN of a job with a Peat section is read and checked, and written to the slot of its step's parity at once for the
current step before any segment of it, or where no previous weights are held; else it waits until they are not. Another step is
refused with 0x0130. PLAN_DEFERRED_WRITE writes what waited.
The model's own choices it rests on: log entries 47, 58, 59, 62, 105, 107, 117.
Each of these answers a next state under the conditions stated: `load`, `unload`, `resume`, `plan`, `planDeferredWrite`. -/
def Obligations.ProgramAndPlanResults : Prop :=
  (∀ (r : CmdRef) (q : Fin 8) (e : BitVec 512) (s : State),
    (s.w.Runs r 0x20 q e →
      let a := cmdArg e 16 8
      let name : BitVec 32 := BitVec.ofNat 32 (cmdArg e 56 4)
      let g := s.w.hbmRead q a 64 .ok
      let n := leAt g.1.bytes 4 4
      let h := g.2.hbmRead q a n .ok
      let l : LoadReq := ⟨q, cmdJob e, name, h.1.bytes, leBytes 16 (cmdArg e 24 16)⟩
      ((s.w.prog q name).isSome = true → exec (.load r) s = .next { s with w := s.w.finish r 0x109 0 }) ∧
      (s.w.prog q name = none → s.w.mapped q a 64 = true → g.1.code = 0 → headerStart g.1.bytes = true →
        g.2.mapped q a n = true → h.1.code = 0 → headerOk h.1.bytes (h.2.part q).dyke.slices = true →
        (h.2.loadCause l ≠ 0 → exec (.load r) s = .next { s with w := h.2.finish r (0x100 + h.2.loadCause l) 0 }) ∧
        (h.2.loadCause l = 0 → ∃ t, exec (.load r) s = .next t ∧ t.ctl = s.ctl ∧ t.pending = s.pending ∧
          ∀ x, x ∈ l.ctxs →
            let k := t.w.ctx (placeCtx x)
            k.st = .loaded ∧ k.decl = declOf x ∧ k.pc = (declOf x).entryPc ∧ k.part = q ∧ k.job = cmdJob e ∧ k.program = name ∧
              k.startFrame = if cmdArg e 48 8 ≤ s.w.frame then s.w.frame + 1 else cmdArg e 48 8))) ∧
    (s.w.Runs r 0x21 q e →
      let n : BitVec 32 := BitVec.ofNat 32 (cmdArg e 16 4)
      (s.w.prog q n = none → exec (.unload r) s = .next { s with w := s.w.finish r 0 0 }) ∧
      (∀ p, s.w.prog q n = some p →
        let w1 := (if s.w.draining q n p then s.w else s.w.stopProgram q n p).markCmd r .started
        exec (.unload r) s = .next { s with w := if w1.drained q n p then (w1.endProgram q n p).finish r 0 0 else w1 })) ∧
    (s.w.Runs r 0x22 q e →
      ((s.w.part q).paused = false → exec (.resume r) s = .next { s with w := s.w.finish r 0 0 }) ∧
      ((s.w.part q).paused = true → (s.w.part q).resumePending = none →
        exec (.resume r) s = .next { s with w := (s.w.markCmd r .started).updPart q fun p =>
          { p with resumePending := some (some r), resumeFrom := s.w.frame } }))) ∧
  (∀ (r : CmdRef) (q : Fin 8) (e : BitVec 512) (s : State),
    let job := cmdJob e
    let n := cmdArg e 24 4
    let g := s.w.hbmRead q (cmdArg e 16 8) n .ok
    let b := g.1.bytes
    let step : Word := BitVec.ofNat 64 (leAt b 0 8)
    (s.w.Runs r 0x23 q e → (s.w.job q job).bind Job.peat = none →
      exec (.plan r) s = .next { s with w := s.w.finish r 0x130 0 }) ∧
    (∀ j p, s.w.Runs r 0x23 q e → s.w.job q job = some j → j.peat = some p → s.w.mapped q (cmdArg e 16 8) n = true → g.1.code = 0 →
      let now := step = j.step ∧ g.2.stepBegun q job j.step = false
      (¬now → step ≠ j.step + 1 → exec (.plan r) s = .next { s with w := g.2.finish r 0x130 0 }) ∧
      (now ∨ step = j.step + 1 → ∀ c, planRefusal p.ceiling b = some c →
        exec (.plan r) s = .next { s with w := g.2.finish r (0x100 + c) 0 }) ∧
      (now ∨ (step = j.step + 1 ∧ g.2.refs q job (!j.buf) = 0) → planRefusal p.ceiling b = none →
        exec (.plan r) s = .next { s with
          w := Work.ends r 0 (g.2.hbmWrite q (p.recordBase.toNat + step.toNat % 2 * 65536) (planSlot p.ceiling b) .ok) }) ∧
      (step = j.step + 1 → g.2.refs q job (!j.buf) ≠ 0 → planRefusal p.ceiling b = none → j.plan = none →
        exec (.plan r) s = .next { s with
          w := (g.2.markCmd r .started).updJob q job fun j => { j with plan := some (step, b, r) } })) ∧
    (∀ j p (x : Word × List Byte × CmdRef), s.w.jobsOf q = [job] → s.w.job q job = some j → j.peat = some p → j.plan = some x →
      (x.1 ≠ j.step + 1 ∨ s.w.refs q job (!j.buf) = 0 →
        exec (.planDeferredWrite q) s = .next { s with
          w := (s.w.updJob q job fun j => { j with plan := none }).writePlan x.2.2 q p x.2.1 }) ∧
      (x.1 = j.step + 1 → s.w.refs q job (!j.buf) ≠ 0 → exec (.planDeferredWrite q) s = .next s)))

/-- R342, R344-R348, R455: a PAGE command that passes its checks waits with one change for each of its pages; each change, once no write stands
in its page, replaces the entry, makes the pages concerned fresh and is logged, and the last ends the command. DOMAIN enables a domain
with a new key within the quota, disables one that no page maps, keeping its generation, and starts a rekey. Both are refused with 0x0147
while a protection reboot or bring-up is under way. R359, R370: the rekey engine takes the first block of the domain's pages in a
slice at its boundary or after it, reads it under OLD and writes it under NEW, which counts one write of the block and leaves it
reading the same; it passes a fresh or poisoned block, and moves the boundary to the first block that is still under OLD. When every
slice has reached the end, OLD is erased and GENERATION increases by one.
The model's own choices it rests on: log entries 48, 49, 108, 109, 110, 111.
Each of these answers a next state under the conditions stated: `page`, `pageEntryApply`, `domain`, `rekeyBlock`, `rekeyComplete`. -/
def Obligations.PageDomainAndRekeyResults : Prop :=
  (∀ (r : CmdRef) (q : Fin 8) (e : BitVec 512) (s : State),
    (s.ctl.manBusy = true → (∀ e, s.w.startCmd r 0x30 = some e → exec (.page r) s = .next { s with w := s.w.finish r 0x147 0 }) ∧
      (∀ e, s.w.startCmd r 0x31 = some e → exec (.domain r) s = .next { s with w := s.w.finish r 0x147 0 })) ∧
    (s.ctl.manBusy = false → s.w.Runs r 0x30 q e → (s.w.part q).pageChanges = [] →
      let c := s.w.pageCause r q e
      let n := cmdArg e 32 4
      let new := fun g i => if cmdArg e 37 1 = 1 then none
        else some (⟨s.w.inOverflow q g, BitVec.ofNat 6 (cmdArg e 36 1), BitVec.ofNat 18 (cmdArg e 24 8 + i)⟩ : PageEnt)
      (c ≠ 0 → exec (.page r) s = .next { s with w := s.w.finish r (0x100 + c) 0 }) ∧
      (c = 0 → n = 0 → exec (.page r) s = .next { s with w := s.w.finish r 0 0 }) ∧
      (c = 0 → n ≠ 0 → exec (.page r) s = .next { s with w := (s.w.markCmd r .started).updPart q fun p =>
        { p with pageChanges := (List.range n).map fun i => ⟨cmdArg e 16 8 + i, new (cmdArg e 16 8 + i) i, some r⟩ } })) ∧
    (∀ x rest, (s.w.part q).pageChanges = x :: rest →
      let w1 := (s.w.changePage q x.page x.entry).updPart q fun p => { p with pageChanges := rest }
      (s.w.pageBusy q x.page = true → exec (.pageEntryApply q) s = .next { s with w := s.w.wakePorts q }) ∧
      (s.w.pageBusy q x.page = false → x.cmd = some r → (∀ y, y ∈ rest → y.cmd ≠ some r) → s.w.cmd r = some ⟨cmdSeq e, false, false, e, .started⟩ →
        exec (.pageEntryApply q) s = .next { s with w := (w1.finish r 0 (cmdArg e 32 4)).wakePorts q } ∧
          (w1.part q).pages.get none x.page = x.entry ∧ ∀ g, g ≠ x.page → (w1.part q).pages.get none g = (s.w.part q).pages.get none g)) ∧
    ((s.w.part q).pageChanges = [] → exec (.pageEntryApply q) s = .next { s with w := s.w.wakePorts q }) ∧
    (s.ctl.manBusy = false → s.w.Runs r 0x31 q e →
      let d := cmdArg e 16 1
      let op := cmdArg e 17 1
      let dm := s.w.dom q d
      let ends := fun (c : Nat) (w : Work) => exec (.domain r) s = .next { s with w := w.finish r c 0 }
      (63 < d ∨ 2 < op → ends 0x102 s.w) ∧
      (d ≤ 63 → op = 0 → dm.enabled = false → (s.w.part q).dyke.domainQuota.toNat ≤ s.w.domainsOn q → ends 0x146 s.w) ∧
      (d ≤ 63 → op = 0 → dm.enabled = false → s.w.domainsOn q < (s.w.part q).dyke.domainQuota.toNat →
        ends 0 (s.w.drawKey.2.updDom q d fun _ => { Dom.zero with enabled := true, key := s.w.drawKey.1 })) ∧
      (d ≤ 63 → op = 1 → s.w.domainMapped q d = true → ends 0x146 s.w) ∧
      (d ≤ 63 → op = 1 → s.w.domainMapped q d = false → ends 0 (s.w.updDom q d fun x => { Dom.zero with generation := x.generation })) ∧
      (d ≤ 63 → op = 2 → dm.enabled = true → dm.rekeying = false → ends 0 (s.w.startRekey q d)))) ∧
  (∀ (n : Fin 8) (q : Fin 8) (d : Fin 64) (pa : Nat) (s : State),
    let dm := s.w.dom q d.val
    let b := blockOf pa
    let c := s.w.ctrWord b
    let next := (s.w.nextBlock q d.val n.val (pa + 512)).getD (pa + 512)
    let passed := { dm with boundary := dm.boundary.set 0 n.val (BitVec.ofNat 48 next) }
    let idle := c.isFresh = true ∨ c.poison = true
    (s.w.sliceOwner n.val = some q → dm.rekeying = true → s.w.nextBlock q d.val n.val (dm.boundary.get 0 n.val).toNat = some pa →
      (idle ∨ s.w.tagGood dm.oldKey b = true) → ∃ t, exec (.rekeyBlock n d .ok) s = .next t ∧ t.ctl = s.ctl ∧ t.pending = s.pending ∧
        t.w.dom q d.val = passed ∧ t.w.ctxs = s.w.ctxs ∧
        (idle → t.w.hbm = s.w.hbm ∧ t.w.tags = s.w.tags ∧ t.w.ctr = s.w.ctr ∧
          t.w.lostPassed = if c.lost = true then b :: s.w.lostPassed else s.w.lostPassed) ∧
        (¬idle → t.w.ctrWord b = { c with count := c.count + 1 } ∧ t.w.tagGood dm.key b = true ∧
          t.w.plainOf dm.key b = s.w.plainOf dm.oldKey b ∧ (∀ x, x ≠ b → t.w.ctrWord x = s.w.ctrWord x) ∧
          ∀ a, a < 512 * b ∨ 512 * b + 512 ≤ a → t.w.hbm.read a = s.w.hbm.read a)) ∧
    (s.w.sliceOwner n.val = some q → dm.rekeying = false → ∀ ev, exec (.rekeyBlock n d ev) s = .next s) ∧
    (dm.rekeying = true → s.w.rekeyDone q d.val = true →
      let w1 := s.w.updDom q d.val fun x =>
        { x with rekeying := false, oldKey := [], again := false, generation := x.generation + 1, boundary := [] }
      exec (.rekeyComplete q d) s = .next { s with w := if dm.again = true then w1.startRekey q d.val else w1 }) ∧
    (dm.rekeying = false ∨ s.w.rekeyDone q d.val = false → exec (.rekeyComplete q d) s = .next s))

/-- R383, R386-R388, R429, R430: a weight package opened under the partition's key is written to its target, joins the partition's history and
gives its size; a body that fails gives 0x0250 and leaves the target fresh. CHECKPOINT writes the sealed header and body of the
current shard to the host, and gives their size; RESTORE of a consistent header writes the shard and the block states back.
The model's own choices it rests on: log entries 50, 51, 110.
Each of these answers a next state under the conditions stated: `package`, `checkpoint`, `restore`. -/
def Obligations.PackageAndCheckpointResults : Prop :=
  ∀ (r : CmdRef) (q : Fin 8) (e : BitVec 512) (host : HostData) (s : State),
    (s.w.Runs r 0x32 q e → ∀ key : List Byte,
      let a := cmdArg e 16 8
      let t := cmdArg e 24 8
      let d := cmdArg e 32 1
      let g := s.w.hbmRead q a 64 .ok
      let n := pkgBody g.1.bytes
      let hn := pkgHeader g.1.bytes
      let f := g.2.hbmRead q a (hn + carried n) .ok
      let h := bytesAt f.1.bytes 0 hn
      let body := bytesAt f.1.bytes hn (carried n)
      a % 64 = 0 → t % 64 = 0 → d ≤ 63 → s.w.mapped q a 64 = true → g.1.code = 0 → leAt g.1.bytes 0 4 = 0x4A325750 →
      leAt g.1.bytes 4 2 = 1 → 1 ≤ pkgDevices g.1.bytes → pkgDevices g.1.bytes ≤ 16384 → n ≠ 0 → n % 512 = 0 →
      (g.2.job q (BitVec.ofNat 16 (leAt g.1.bytes 16 2))).isSome = true → g.2.mapped q a (hn + carried n) = true → f.1.code = 0 →
      f.2.pkgKey q h (shake256 s.ctl.fuse.identity 32) = some (some key) → f.2.targetCause q t n d = 0 → f.2.mustHold q t n = false →
      let o := openChunks key (bytesAt h 8 8) (bytesAt h 0 64) body n (bodyChunks n) 0
      let u := f.2.hbmWrite q t o.1 .ok
      let bad := o.2 = false ∨ shake256 body 32 ≠ bytesAt h 32 32
      u.1 = 0 → exec (.package r) s = .next { s with
        w := if bad then (u.2.freshRange q t o.1.length).finish r 0x250 0
          else (u.2.updPart q fun p => { p with
            history := shake256 (p.historyBytes ++ (2 : Byte) :: shake256 h 32) 32
            pkgEntries := p.pkgEntries ++ [⟨shake256 h 32, BitVec.ofNat 16 (leAt h 16 2), BitVec.ofNat 8 d⟩] }).finish r 0 n }) ∧
    (∀ j (rs : ResilSec), s.w.Runs r 0x40 q e → s.w.job q (cmdJob e) = some j → j.resil = some rs → rs.ownerKey ≠ 0 →
      let tbl := (s.w.entriesOf q (cmdJob e)).flatMap fun x => x.2.bytes x.1
      let n := (j.weights.map (·.bytes)).sum + tbl.length
      let o := s.w.hbmRead q rs.ownerKey.toNat 1568 .ok
      let g := o.2.readSpans q (j.shardParts j.buf)
      let c := g.2.sealCkpt q (cmdJob e) j (leBytes 16 (cmdArg e 32 16)) o.1.bytes (g.1.bytes ++ tbl)
      1776 + carried n ≤ cmdArg e 24 8 → o.1.code = 0 → g.1.code = 0 →
      exec (.checkpoint r true) s = .next { s with
        w := (c.2.emit (.hostWrite r.fn (BitVec.ofNat 64 (cmdArg e 16 8)) c.1)).finish r 0 c.1.length } ∧
      exec (.checkpoint r false) s = .next { s with w := g.2.finish r 0x240 0 }) ∧
    (∀ j key, s.w.Runs r 0x41 q e → s.w.job q (cmdJob e) = some j →
      (∀ c, c ∈ s.w.ctxsOf q (cmdJob e) → (s.w.ctx c).st = .loaded) → cmdArg e 16 8 % 64 = 0 →
      s.w.mapped q (cmdArg e 16 8) 3392 = true →
      let g := s.w.hbmRead q (cmdArg e 16 8) 3392 .ok
      let b := g.1.bytes
      let secret := Config.mlkemDecap (g.2.part q).sessKey (bytesAt b 1776 1568)
      let body := host.bytes.take (carried (leAt b 72 8))
      let o := openChunks key (bytesAt b 64 8) (ckptAad b) body (leAt b 72 8) (bodyChunks (leAt b 72 8)) 0
      let u := g.2.putPieces q (j.shardParts j.buf) 0 o.1
      g.1.code = 0 → ckptConsistent b (cmdJob e) j (leBytes 16 (cmdArg e 32 16)) = true →
      unwrap (wrapKey secret (bytesAt b 64 8) 0) (bytesAt b 3344 48) = some key → host.ok = true →
      carried (leAt b 72 8) ≤ host.bytes.length → o.2 = true → shake256 body 32 = bytesAt b 96 32 → u.1 = 0 →
      exec (.restore r host) s = .next { s with
        w := (u.2.restoreScale q (u.2.entriesOf q (cmdJob e)) (o.1.drop ((j.shardParts j.buf).map (·.2)).sum)).finish r 0 (leAt b 72 8) })

/-- R420-R423, R440, R455: a REBUILD whose symbol is among the lost ones takes a free rebuild slot, whose chunks count up; erasures beyond CODE_M
end it and the group's others with 0x0263. A chunk that does not verify is repeated; a verified one is written after the ones before
it and counts, and the last one ends the command with the number of chunks. A further loss in the group of a rebuild joins it, and pauses
it at its chunk boundary (R423), from which it resumes.
The model's own choices it rests on: log entry 77.
Each of these answers a next state under the conditions stated: `rebuild`, `rebuildChunk`. -/
def Obligations.RebuildResults : Prop :=
  ∀ (r : CmdRef) (q : Fin 8) (e : BitVec 512) (i : Fin 4) (rs : ResilSec) (s : State),
    (s.w.Runs r 0x42 q e → (s.w.job q (cmdJob e)).bind Job.resil = some rs →
      let entry := cmdArg e 16 8
      let lost : BitVec 32 := BitVec.ofNat 32 (cmdArg e 24 4)
      let sym := cmdArg e 28 1
      entry % 64 = 0 → lost.getLsbD sym = true → sym < rs.codeK + rs.codeM → s.w.mapped q entry 64 = true →
      (∀ j, j < 4 → (s.w.rebuildSlot j).st ≠ 1 ∧ (s.w.rebuildSlot j).st ≠ 2) →
      (rs.codeM < symbolsIn lost → exec (.rebuild r) s = .next { s with w := s.w.finish r 0x263 0 }) ∧
      (symbolsIn lost ≤ rs.codeM →
        let slot : RebuildSlot :=
          { q := q, lost := lost, entry := entry
            group := BitVec.ofNat 16 (CodeEntry.ofBytes (s.w.peek q entry 64) (rs.codeK + rs.codeM)).group
            symbol := BitVec.ofNat 8 sym, st := 1, done := 0, total := BitVec.ofNat 16 ((rs.shardBytes + 67108863) / 67108864)
            job := cmdJob e, cmd := some r, chunk := [], pausing := false }
        exec (.rebuild r) s = .next { s with w := (s.w.markCmd r .started).updRebuild 0 fun _ => slot })) ∧
    (∀ j, let b := s.w.rebuildSlot i.val
      b.st = 1 → s.w.job b.q b.job = some j → j.resil = some rs →
      let at_ := fun (x : RebuildSlot) => { x with chunk := [], st := if b.pausing then 2 else 1, pausing := false }
      exec (.rebuildChunk i false) s = .next { s with w := s.w.updRebuild i.val at_ } ∧
      (let off := b.done.toNat * 67108864
        let u := s.w.putPieces b.q (s.w.rebuildParts b j rs) off (b.chunk.readN off (min 67108864 (rs.shardBytes - off)))
        let w2 := u.2.updRebuild i.val fun x => { at_ x with done := b.done + 1 }
        u.1 = 0 → exec (.rebuildChunk i true) s = .next { s with
          w := if b.done + 1 = b.total then w2.endRebuild i.val 3 0 b.total.toNat else w2 })) ∧
    (∀ j, let b := s.w.rebuildSlot i.val
      b.st = 2 → s.w.job b.q b.job = some j → j.resil = some rs →
      ∀ ok, exec (.rebuildChunk i ok) s = .next { s with w := s.w.updRebuild i.val fun x => { x with st := 1 } }) ∧
    ((s.w.rebuildSlot i.val).st ≠ 1 → (s.w.rebuildSlot i.val).st ≠ 2 → ∀ ok, exec (.rebuildChunk i ok) s = .next s) ∧
    (s.w.Runs r 0x42 q e → (s.w.job q (cmdJob e)).bind Job.resil = some rs →
      let entry := cmdArg e 16 8
      let lost : BitVec 32 := BitVec.ofNat 32 (cmdArg e 24 4)
      let sym := cmdArg e 28 1
      let b := s.w.rebuildSlot i.val
      entry % 64 = 0 → lost.getLsbD sym = true → sym < rs.codeK + rs.codeM → s.w.mapped q entry 64 = true →
      b.q = q → b.job = cmdJob e → b.st = 1 →
      b.group = BitVec.ofNat 16 (CodeEntry.ofBytes (s.w.peek q entry 64) (rs.codeK + rs.codeM)).group →
      (∀ j, j < 4 → j ≠ i.val → (s.w.rebuildSlot j).st ≠ 1 ∧ (s.w.rebuildSlot j).st ≠ 2) →
      symbolsIn (lost ||| b.lost) ≤ rs.codeM →
      ∃ t, exec (.rebuild r) s = .next t ∧ t.ctl = s.ctl ∧ t.w.rebuildSlot i.val = { b with
        lost := lost ||| b.lost, st := if b.chunk.isEmpty then 2 else 1, pausing := !b.chunk.isEmpty })

/-- R391, R394-R396, R401: REMOVE of a partition in use ends its commands with 0x036A, empties its contexts, erases its session key, page table
and domains, puts its functions in ERROR, takes its ports down with a grace window, and starts the scrub of each of its slices; a
scrub that ends leaves its slice's memory zero, under a fresh tree key, drawn after the key of the scrub itself, and without the channels that
failed, and is counted; ASSIGN gives an emptied partition a new session key; a grace window
that is over is forgotten.
The model's own choices it rests on: log entries 52, 63, 87, 125.
Each of these answers a next state under the conditions stated: `remove`, `scrubComplete`, `graceWindowEnd`, `assign`. -/
def Obligations.TenantRemovalResults : Prop :=
  ∀ (r : CmdRef) (q : Fin 8) (n : Fin 8) (e : BitVec 512) (s : State),
    let p := s.w.part q
    (s.w.startCmd r 0x52 = some e → q.val = cmdPart e % 8 → p.dyke.valid = true → p.removal = 0 →
      ∃ t, exec (.remove r) s = .next t ∧ t.pending = s.pending ∧
        (t.w.part q).dyke = p.dyke ∧ ((t.w.part q).removal = 2 ∨ (t.w.part q).removal = 3) ∧ (t.w.part q).sessKey = 0 ∧
        (t.w.part q).pages = [] ∧ (t.w.part q).doms = [] ∧
        ((∀ c, c ∈ s.w.liveCtxs → (s.w.ctx c).infl = []) → (t.w.part q).tagFails = p.tagFails) ∧
        (∀ c, c ∈ s.w.liveCtxs → p.dyke.slices.getLsbD c.slice.val = true →
          t.w.ctx c = if (s.w.ctx c).st = .absent then { Ctx.empty with st := .absent } else .empty) ∧
        (∀ k, k < 32 → p.dyke.ports.getLsbD k = true → (t.w.port k).st = 0 ∧ (t.w.port k).linkKey = none ∧ (t.w.port k).txq = [] ∧
          (t.w.port k).graceEnd = (t.w.part q).graceEnd) ∧
        (∀ f, f ∈ s.w.fnsOf q → (t.ctl.tdisp.get .zero (fnKey f)).st = .error) ∧
        ∀ k, k < 8 → p.dyke.slices.getLsbD k = true → (s.w.slice k).mappedOut = false → t.ctl.scrub.active.getLsbD k = true) ∧
    (s.w.startCmd r 0x52 = some e → q.val = cmdPart e % 8 → p.dyke.valid = true → p.removal ≠ 0 → p.removal ≠ 3 →
      exec (.remove r) s = .next { s with w := s.w.finish r 0 0 }) ∧
    (s.w.startCmd r 0x52 = some e → q.val = cmdPart e % 8 → p.dyke.valid = false ∨ p.removal = 3 →
      exec (.remove r) s = .next { s with w := s.w.finish r 0x105 0 }) ∧
    (s.ctl.scrub.active.getLsbD n.val = true → s.ctl.dyke.rebooting = false →
      ∃ t, exec (.scrubComplete n) s = .next t ∧ t.pending = s.pending ∧
        t.ctl.scrub = { s.ctl.scrub with active := s.ctl.scrub.active &&& ~~~(BitVec.ofNat 8 (2 ^ n.val)), count := satAdd s.ctl.scrub.count 1 } ∧
        (∀ a, a / 2 ^ 36 = n.val → t.w.hbm.read a = 0) ∧ (∀ b, b / 2 ^ 27 = n.val → t.w.ctrWord b = .fresh) ∧
        (∀ i, i / 2 = n.val → (t.w.stack i).chMap = (s.w.stack i).chMap &&& ~~~(s.w.stack i).chFailed) ∧
        (t.w.slice n.val).treeKey = s.w.drawKey.2.drawKey.1 ∧
        (∀ k, k / 8 = n.val → t.w.clusters.get [] k = []) ∧ ∀ a, a / 2 ^ 36 ≠ n.val → t.w.hbm.read a = s.w.hbm.read a) ∧
    (s.ctl.scrub.active.getLsbD n.val = false → exec (.scrubComplete n) s = .next s) ∧
    (s.w.startCmd r 0x53 = some e → q.val = cmdPart e % 8 → p.dyke.valid = true → p.removal = 3 →
      ∃ t, exec (.assign r) s = .next t ∧ (t.w.part q).removal = 0 ∧ (t.w.part q).sessKey = s.w.nextId ∧ (t.w.part q).history = [] ∧
        ∀ f, f ∈ s.w.fnsOf q → t.ctl.tdisp.get .zero (fnKey f) = ⟨.configUnlocked, none⟩) ∧
    (∀ x : Word, p.graceEnd = some x → x.toNat ≤ s.w.time.ftime.toNat →
      ∃ t, exec (.graceWindowEnd q) s = .next t ∧ t.ctl = s.ctl ∧ t.w = { s.w with parts := t.w.parts, fab := { s.w.fab with ports := t.w.fab.ports } } ∧
        t.w.part q = { p with graceEnd := none } ∧
        ∀ k, k < 32 → t.w.port k = if (s.w.port k).part = q then { s.w.port k with graceEnd := none } else s.w.port k) ∧
    (∀ (x : Word) w1, p.graceEnd = some x → s.w.time.ftime.toNat < x.toNat → s.w.advance (x.toNat - s.w.time.ftime.toNat) = some w1 →
      ∃ t, exec (.graceWindowEnd q) s = .next t ∧ t.ctl = s.ctl ∧ t.w.time = w1.time ∧ t.w.part q = { p with graceEnd := none }) ∧
    (∀ x : Word, p.graceEnd = some x → s.w.time.ftime.toNat < x.toNat → s.w.advance (x.toNat - s.w.time.ftime.toNat) = none →
      exec (.graceWindowEnd q) s = .next s) ∧
    (p.graceEnd = none → exec (.graceWindowEnd q) s = .next s)

/-- R341-R343, R377, R378, R408, R412, R455: MANIFEST in a state that takes one begins a protection reboot, which is over, with the lock
set, when every scrub it waits for is (on a debug-unlocked device over no partitions); a manifest that fails a check has its cause. ENROL burns the digest of the operator's key once. RESET ends its
command, writes the life records of the lit laser modules, then clears all but the event log, the fuses and the MRAM, and boots.
The model's own choices it rests on: log entries 53, 64.
Each of these answers a next state under the conditions stated: `manifest`, `enrol`, `hostReset`. -/
def Obligations.DeviceCommandResults : Prop :=
  ∀ (r : CmdRef) (host : HostData) (boot : BootIn) (e : BitVec 512) (s : State),
    let m : Instr := .manifest r ⟨host, boot⟩
    (s.w.startCmd r 0x50 = some e →
      let b := host.bytes.take 9544
      let c := s.ctl.manCause b
      (s.ctl.manBusy = true → exec m s = .next { s with w := s.w.finish r 0x147 0 }) ∧
      (s.ctl.manBusy = false → host.ok = false ∨ host.bytes.length < 9544 → exec m s = .next { s with w := s.w.finish r 0x240 0 }) ∧
      (s.ctl.manBusy = false → host.ok = true → 9544 ≤ host.bytes.length → c ≠ 0 →
        exec m s = .next { s with w := s.w.finish r (0x100 + c) 0 }) ∧
      (s.ctl.manBusy = false → host.ok = true → 9544 ≤ host.bytes.length → c = 0 →
        ∃ t, exec m s = .next t ∧ t.pending = s.pending ∧
          ((t.ctl.dyke.rebooting = true ∧ t.ctl.dyke.locked = s.ctl.dyke.locked ∧ t.ctl.dyke.next = b ∧ t.ctl.boot.phase = 6) ∨
            (t.ctl.dyke.locked = true ∧ t.ctl.dyke.mramManifest = b ∧ t.ctl.dyke.reboots = satAdd s.ctl.dyke.reboots 1 ∧
              if s.ctl.fuse.debugUnlocked then t.ctl.dyke.manifest = [] ∧ t.ctl.dyke.manifestValid = false
              else t.ctl.dyke.manifest = b ∧ t.ctl.dyke.manifestValid = true)))) ∧
    (s.w.startCmd r 0x51 = some e →
      (s.ctl.fuse.operator.isSome = true → exec (.enrol r host) s = .next { s with w := s.w.finish r 0x148 0 }) ∧
      (s.ctl.fuse.operator = none → s.ctl.fuse.debugUnlocked = true → exec (.enrol r host) s = .next { s with w := s.w.finish r 0x149 0 }) ∧
      (s.ctl.fuse.operator = none → s.ctl.fuse.debugUnlocked = false → host.ok = true → 64 ≤ host.bytes.length →
        exec (.enrol r host) s = .next { s with
          w := (s.w.logSec 0xFF 1 0).finish r 0 0
          ctl := { s.ctl with fuse := { s.ctl.fuse with operator := some (shake256 (host.bytes.take 64) 32) }
                              dyke := { s.ctl.dyke with enrolled := true } } })) ∧
    (s.w.startCmd r 0x54 = some e → ∃ d : State,
      exec (.hostReset r boot) s = .next (d.bootIfReleased boot) ∧ d.pending = s.pending ∧
        d.w = { Work.reset with
          log := { (s.w.finish r 0 0).log with window := false }, epochs := (s.w.finish r 0 0).epochs, memStacks := d.w.memStacks
          out := d.w.out, fresh := (s.w.finish r 0 0).fresh, nextId := (s.w.finish r 0 0).nextId } ∧
        d.ctl.fuse = s.ctl.fuse ∧ d.ctl.dyke.mramManifest = s.ctl.dyke.mramManifest ∧ d.ctl.boot.patchStore = s.ctl.boot.patchStore ∧
        d.ctl.dyke.locked = false ∧ d.ctl.pins = s.ctl.pins ∧
        ∀ k : Fin 4, (s.ctl.laser k.val).lit = true → Emit.module k 16 (leBytes 4 (s.ctl.laser k.val).eqHours.toNat) ∈ d.w.out)

/-- R385: the responder of a function that is in configuration space takes the requests of a session in order: version, capabilities,
algorithms, the exchange with the pre-shared key and its finish; in an established session it updates keys, answers a heartbeat and
ends. A request out of order is answered with ERROR and changes nothing; any other request is UnsupportedRequest, one of another
standard, vendor or code among them.
The model's own choices it rests on: log entries 54, 93.
Each of these answers a next state under the conditions stated: `getVersion`, `getCapabilities`, `negotiateAlgorithms`, `pskExchange`,
`pskFinish`, `keyUpdate`, `spdmHeartbeat`, `endSession`, `spdmUnsupportedRequest`, `getEndorsement`, `pskEncap`. -/
def Obligations.SessionResults : Prop :=
  ∀ (f : Fn) (msg : List Byte) (r : SpdmOther) (s : State), s.doeOpen f = true →
    let x := s.ctl.spdmOf f
    let reply := fun (i : Instr) (c : Byte) (b : List Byte) => exec i s = .next { s with w := s.w.emit (.spdm f c b) }
    let moves := fun (i : Instr) (y : Spdm) (c : Byte) (b : List Byte) => exec i s = .next { s with
      w := s.w.emit (.spdm f c b), ctl := { s.ctl with spdm := s.ctl.spdm.set .zero (fnKey f) y } }
    let early := fun (i : Instr) => reply i 0x7F [0x04, 0]
    moves (.getVersion f) { x with version := true, caps := false, algs := false, session := none, established := false, updates := 0 }
      0x04 (Config.spdmBody 0x84) ∧
    (x.version = true → moves (.getCapabilities f) { x with caps := true } 0x61 (Config.spdmBody 0xE1)) ∧
    (x.version = false → early (.getCapabilities f)) ∧
    (x.caps = true → moves (.negotiateAlgorithms f) { x with algs := true } 0x63 (algSelection ++ Config.spdmBody 0xE3)) ∧
    (x.caps = false → early (.negotiateAlgorithms f)) ∧
    (∀ k, x.psk = some k → x.algs = true → let b := Config.spdmExchange k msg s.w.fresh
      exec (.pskExchange f msg) s = .next { s with
        w := { s.w with fresh := s.w.fresh + 1, out := .spdm f 0x66 b :: s.w.out }
        ctl := { s.ctl with spdm := s.ctl.spdm.set .zero (fnKey f) { x with session := some b, established := false, updates := 0 } } }) ∧
    (x.psk = none ∨ x.algs = false → early (.pskExchange f msg)) ∧
    (∀ k b, x.psk = some k → x.session = some b → x.established = false →
      if Config.spdmFinishOk k b msg then moves (.pskFinish f msg) { x with established := true } 0x67 (Config.spdmBody 0xE7)
      else moves (.pskFinish f msg) { x with session := none } 0x7F [0x06, 0]) ∧
    (x.psk = none ∨ x.session = none → early (.pskFinish f msg)) ∧
    (x.established = true →
      moves (.keyUpdate f) { x with updates := x.updates + 1 } 0x69 (Config.spdmBody 0xE9) ∧
      reply (.spdmHeartbeat f) 0x68 (Config.spdmBody 0xE8) ∧
      moves (.endSession f) { x with session := none, established := false, updates := 0 } 0x6C (Config.spdmBody 0xEC)) ∧
    (x.established = false → early (.keyUpdate f) ∧ early (.spdmHeartbeat f) ∧ early (.endSession f)) ∧
    (r.vendor = none → reply (.spdmUnsupportedRequest f r) 0x7F [0x07, r.code]) ∧
    (∀ v : VendorHdr, r.vendor = some v →
      if v.standard = 3 ∧ v.vendor = Config.vendorId ∧ 1 ≤ v.code.toNat ∧ v.code.toNat ≤ 3 then exec (.spdmUnsupportedRequest f r) s = .next s
      else reply (.spdmUnsupportedRequest f r) 0x7F [0x07, r.code]) ∧
    reply (.getEndorsement f) 0x7E (vendorFrame (endorsement s.ctl.fuse.identity)) ∧
    (∀ q, s.w.partOf f = some q → msg.length = 1568 →
      let h := Config.freeWord s.w.fresh ++ Config.freeWord (s.w.fresh + 1)
      let y := { x with psk := some (pskOf (Config.mlkemDecap (s.w.part q).sessKey msg) f), hint := h }
      exec (.pskEncap f msg) s = .next { s with
        w := { s.w with fresh := s.w.fresh + 2, out := .spdm f 0x7E (vendorFrame (leBytes 16 h.toNat)) :: s.w.out }
        ctl := { s.ctl with spdm := s.ctl.spdm.set .zero (fnKey f) y } }) ∧
    (s.w.partOf f = none → reply (.pskEncap f msg) 0x7F [0x07, 0])

/-- R365, R366, R379, R382, R385, R404: a report carries 5,152 bytes of the device and the partition, then a signature under one fresh leaf
index; in a protection reboot it waits behind those asked for before it, and with signing halted or no such partition it is an ERROR. In an established session keys
of a stream are set, put in use and erased; a stream that stops puts the functions bound to it in ERROR; a virtual function's
interface is released, locked with a stream that is in use, or put in RUN, and reports its windows. A request that an interface does not accept is Unsupported, and in RUN is logged. R385, R392, R478: a function that is not in configuration space, or a device that a pin or a lost supply holds, answers no message.
The model's own choices it rests on: log entries 15, 54, 65, 93, 114, 119.
Each of these answers a next state under the conditions stated: `getReport`, `keyProg`, `kSetGo`, `kSetStop`, `ideQuery`,
`stopInterfaceRequest`, `tdispRequestCheck`. -/
def Obligations.ReportAndStreamResults : Prop :=
  (∀ (f : Fn) (nonce key : List Byte) (part stream set : Byte) (tBit : Bool) (s : State),
    let x := s.ctl.spdmOf f
    let k := f.port.val * 8 + stream.toNat
    let y := s.ctl.ide.get .zero k
    let one := set.getLsbD 0
    let ide := fun (i : Instr) (y : IdeStream) (c : Byte) (b : List Byte) => exec i s = .next { s with
      w := s.w.emit (.ide f c b), ctl := { s.ctl with ide := s.ctl.ide.set .zero k y } }
    (s.doeOpen f = true → s.ctl.dyke.rebooting = true →
      exec (.getReport f nonce part) s = .next { s with
        ctl := { s.ctl with dyke := { s.ctl.dyke with reports := s.ctl.dyke.reports ++ [(fnKey f, nonce, part)] } } }) ∧
    (s.doeOpen f = true → s.ctl.dyke.rebooting = false → s.reportPart f part = none →
      exec (.getReport f nonce part) s = .next { s with w := s.w.emit (.spdm f 0x7F [0x01, 0]) }) ∧
    (∀ q, s.doeOpen f = true → s.ctl.dyke.rebooting = false → s.reportPart f part = some q →
      (s.ctl.xmss.halted = true → exec (.getReport f nonce part) s = .next { s with w := s.w.emit (.spdm f 0x7F [0x03, 0]) }) ∧
      (s.ctl.xmss.halted = false → let b := s.reportBody q nonce
        let y := s.ctl.xmss.reserved
        b.length = 5152 ∧
        (y.halted = false → exec (.getReport f nonce part) s = .next { s with
          w := s.w.emit (.spdm f 0x7E (vendorFrame (b ++ xmssSign y.nextIndex.toNat b))), ctl := { s.ctl with xmss := y.used } }) ∧
        (y.halted = true → exec (.getReport f nonce part) s = .next { s with
          w := (s.w.noteHalt y).emit (.spdm f 0x7F [0x03, 0]), ctl := { s.ctl with xmss := y } }))) ∧
    (s.doeOpen f = true → x.established = true → stream.toNat < 8 →
      ide (.keyProg f stream set key) (if one then { y with key1 := some key, owner := some (fnKey f) }
        else { y with key0 := some key, owner := some (fnKey f) }) 0x03 [stream, 0] ∧
      ((if one then y.key1 else y.key0).isSome = true → ide (.kSetGo f stream set) { y with active := some one } 0x06 [stream]) ∧
      (y.active ≠ some one → ide (.kSetStop f stream set)
        { y with key0 := if one then y.key0 else none, key1 := if one then none else y.key1 } 0x06 [stream]) ∧
      (y.active = some one → ∃ t, exec (.kSetStop f stream set) s = .next t ∧ t.w = s.w.emit (.ide f 0x06 [stream]) ∧
        (t.ctl.ide.get .zero k).active = none ∧ (if one then (t.ctl.ide.get .zero k).key1 else (t.ctl.ide.get .zero k).key0) = none ∧
        ∀ g, (s.ctl.tdisp.get .zero g).bound = some k → (t.ctl.tdisp.get .zero g).st = .error)) ∧
    (s.doeOpen f = true → x.established = true →
      exec (.ideQuery f part) s = .next { s with w := s.w.emit (.ide f 0x01 (part :: Config.spdmBody 0x00)) }) ∧
    (s.doeOpen f = true → f.fn ≠ 0 →
      let t := s.ctl.tdisp.get .zero (fnKey f)
      let go := fun (m : TdispMsg) (t1 : TdispIf) => exec (.stopInterfaceRequest ⟨f, m⟩) s = .next { s with
        w := s.w.emit (.spdm f 0x7E (Config.spdmBody 0xFE)), ctl := { s.ctl with tdisp := s.ctl.tdisp.set .zero (fnKey f) t1 } }
      let early := fun (m : TdispMsg) => exec (.stopInterfaceRequest ⟨f, m⟩) s = .next { s with w := s.w.emit (.spdm f 0x7F [0x04, 0]) }
      go .stop .zero ∧
      (∀ i, t.st = .configUnlocked → (s.ctl.ide.get .zero (ideKey f i)).active.isSome = true → go (.lock i) ⟨.configLocked, some (ideKey f i)⟩) ∧
      (∀ i, t.st ≠ .configUnlocked ∨ (s.ctl.ide.get .zero (ideKey f i)).active = none → early (.lock i)) ∧
      (if t.st = .configLocked then go .start { t with st := .run } else early .start) ∧
      (if t.st = .configLocked ∨ t.st = .run then
        exec (.stopInterfaceRequest ⟨f, .report⟩) s = .next { s with w := s.w.emit (.spdm f 0x7E interfaceReport) }
       else early .report)) ∧
    (let t := s.ctl.tdisp.get .zero (fnKey f)
      let taken := s.ctl.pins.off = true ∨ f.fn = 0 ∨ t.st = .configUnlocked ∨ t.st = .configLocked ∨ (t.st = .run ∧ tBit = true ∧ t.bound = some (f.port.val * 8 + stream.toNat % 8))
      let w1 := s.w.emit (.unsupported f)
      (taken → exec (.tdispRequestCheck f tBit stream) s = .next s) ∧
      (¬taken → exec (.tdispRequestCheck f tBit stream) s = .next { s with
        w := if t.st = .run then w1.logEv (unitId 3 0 0x11) 0x05FF 2 (w1.fnPart f) (fnKey f) else w1 }))) ∧
  (∀ (f : Fn) (a b : List Byte) (x y : Byte) (r : SpdmOther) (m : TdispMsg) (s : State), s.doeOpen f = false →
    ∀ i, i ∈ [Instr.getVersion f, .getCapabilities f, .negotiateAlgorithms f, .pskExchange f a, .pskFinish f a, .keyUpdate f,
      .spdmHeartbeat f, .endSession f, .spdmUnsupportedRequest f r, .getReport f a x, .getEndorsement f, .pskEncap f a,
      .keyProg f x y b, .kSetGo f x y, .kSetStop f x y, .ideQuery f x, .stopInterfaceRequest ⟨f, m⟩] → exec i s = .next s)

/-- R7, R27, R66, R174, R175, R185, R219, R220, R234, R256-R258, R297, R333, R371, R392, R501: a clear register clears exactly the counters it
names, at a write of 1 to its bit, by a function that sees the slice or partition, or a physical one for stacks, ports, reductions
and power; a slice that is gated, mapped out or being scrubbed takes no write, and no write of a function that is not served counts. Any
other write changes nothing.
The model's own choices it rests on: log entries 52, 98.
Each of these answers a next state under the conditions stated: `scaleClear`, `accClear`, `vecClear`, `clearVer`, `clearPeat`,
`statClear`, `errClear`, `portClear`, `redClear`, `integrityClear`, `pwrClear`. -/
def Obligations.ClearRegisterResults : Prop :=
  ∀ (who : Fn) (n q : Fin 8) (st : Fin 16) (p : Fin 32) (v : Word) (s : State),
    let bit := fun (i : Nat) => v.getLsbD i = true ∧ s.fnOpen who = true
    let pf := who.fn = 0
    let isOpen := fun (k : Nat) => (s.w.slice k).gated = false ∧ (s.w.slice k).mappedOut = false ∧ s.ctl.scrub.active.getLsbD k = false
    let mine := pf ∨ ∃ r, s.w.partOf who = some r ∧ (s.w.part r).dyke.slices.getLsbD n.val = true
    let x := s.w.slice n.val
    let slice := fun (i : Instr) (b : Nat) (y : SliceSt) =>
      (bit b ∧ mine ∧ isOpen n.val → exec i s = .next { s with w := s.w.updSlice n.val fun _ => y }) ∧
        (¬(bit b ∧ mine ∧ isOpen n.val) → exec i s = .next s)
    let when := fun (i : Instr) (c : Prop) (w : Work) => (c → exec i s = .next { s with w := w }) ∧ (¬c → exec i s = .next s)
    slice (.scaleClear who n v) 0 { x with scale := { x.scale with raises := 0, lowers := 0, atLimit := 0, misses := 0 } } ∧
    slice (.accClear who n v) 0 { x with accLong := 0, accDeep := 0, combineFails := 0 } ∧
    slice (.vecClear who n v) 0 { x with laneSats := 0, fnNars := 0 } ∧
    (let w1 := s.w.updSlice n.val fun _ => { x with peat := { x.peat with holdFrames := 0 } }
      let ver : Instr := .clearVer who n v
      (¬(bit 1 ∧ mine ∧ isOpen n.val) → exec ver s = .next s) ∧
        (bit 1 → mine → isOpen n.val → s.w.sliceOwner n.val = none → exec ver s = .next { s with w := w1 }) ∧
        ∀ r, bit 1 → mine → isOpen n.val → s.w.sliceOwner n.val = some r →
          exec ver s = .next { s with w := w1.updPart r fun y => { y with latePops := 0, writeWaits := 0 } }) ∧
    slice (.clearPeat who n v) 0 { x with peat := { x.peat with spills := 0, fetches := 0, popStalls := 0 } } ∧
    slice (.statClear who n v) 0 { x with stat := { x.stat with evictions := 0, lost := 0 } } ∧
    when (.errClear who st v) (bit 0 ∧ pf ∧ isOpen (st.val / 2)) (s.w.updStack st.val Stack.clearErrors) ∧
    when (.portClear who p v) (bit 0 ∧ pf)
      (s.w.updPort p.val fun y => { y with corrected := 0, uncorrectable := 0, flitErrors := 0, misses := 0, authFails := 0 }) ∧
    when (.redClear who q v) (bit 0 ∧ pf) (s.w.updRedEv q fun _ => .zero) ∧
    when (.integrityClear who q v) (bit 0 ∧ (pf ∨ s.w.partOf who = some q))
      (s.w.updPart q fun y => { y with tagFails := 0, partialRefused := 0, treeRepairs := 0, treeLosses := 0 }) ∧
    (bit 0 → pf → exec (.pwrClear who v) s = .next { s with ctl := { s.ctl with pwr := { s.ctl.pwr with
      capUnmet := 0, pointChanges := 0, throttles := 0, dips := 0, minMv := 0xFFFF } } }) ∧
    (¬(bit 0 ∧ pf) → exec (.pwrClear who v) s = .next s)

/-- R23, R29, R95, R98, R270, R280, R293, R295, R299, R304, R411, R427, R428, R435, R486: registers that act. Thresholds are taken where T2 is
above T1, the power cap within 1,200 to 2,400 W; a change of P must be 100 ms ahead on the reference; a read of FTIME's low half
latches the high one for the next read of it alone; a drained unit's status is answered; a signal reaches a declared sluice; ENABLE starts or stops a port; slot
tables are checked at the tick; the score of a 64th frame is computed once, and its counts begin again. A function that is not served
writes nothing.
The model's own choices it rests on: log entries 56, 67, 85, 128.
Each of these answers a next state under the conditions stated: `healthScoreCompute`, `disableStatusRead`, `ftimeLowRead`,
`sluSignalWrite`, `portEnable`, `portDisable`, `slotCommit`, `slotCommitApply`, `timePeriodReq`, `threshWrite`, `capWrite`. -/
def Obligations.ControlRegisterResults : Prop :=
  (∀ (who : Fn) (v : Word) (p : Fin 32) (i : BitVec 14) (s : State), s.fnOpen who = false →
    (∀ c, c ∈ [Instr.threshWrite who v, .capWrite who v, .timePeriodReq who v, .sluSignalWrite who i v, .portEnable who p, .portDisable who p,
      .slotCommit who p v] → exec c s = .next s) ∧
    (s.ctl.pins.off = false → exec (.ftimeLowRead who) s = .next { s with w := s.w.emit (.unsupported who) }) ∧
    (s.ctl.pins.off = true → exec (.ftimeLowRead who) s = .next s)) ∧
  ∀ (who : Fn) (v : Word) (p : Fin 32) (s : State),
    let pf := who.fn = 0
    let t1 : Byte := v.extractLsb' 0 8
    let t2 : Byte := v.extractLsb' 8 8
    let x := v.toNat % 4096
    let tm := s.w.time
    let po := s.w.port p.val
    (s.fnOpen who = true → exec (.threshWrite who v) s = .next { s with ctl := { s.ctl with health :=
      if pf ∧ t1.toNat < t2.toNat then { s.ctl.health with t1 := t1, t2 := t2 } else s.ctl.health } } ∧
    exec (.capWrite who v) s = .next { s with ctl := { s.ctl with pwr :=
      if pf then { s.ctl.pwr with watts := BitVec.ofNat 12 (if x < 1200 then 1200 else if 2400 < x then 2400 else x) } else s.ctl.pwr } } ∧
    (let w1 : Work := { s.w with time := { tm with nextUs := v.extractLsb' 0 11 } };
      (pf → v.getLsbD 63 = true → tm.refHolder = true → tm.ftime.toNat + 100000000 ≤ tm.periodAt.toNat →
        exec (.timePeriodReq who v) s = .next { s with w := w1.announceP ((v.extractLsb' 0 11 : BitVec 11).toNat) tm.periodAt }) ∧
      (pf → v.getLsbD 63 = true → tm.refHolder = true → tm.periodAt.toNat < tm.ftime.toNat + 100000000 →
        exec (.timePeriodReq who v) s = .next { s with
          w := w1.logEv (unitId 3 0 0xFF) 0x07FF 2 0xFF ((v.extractLsb' 0 11 : BitVec 11).toNat + tm.periodAt.toNat * 2 ^ 64) }) ∧
      (pf → v.getLsbD 63 = false ∨ tm.refHolder = false → exec (.timePeriodReq who v) s = .next { s with w := w1 }) ∧
      (¬pf → exec (.timePeriodReq who v) s = .next s)) ∧
    (let w1 : Work := { s.w with
        time := { tm with latch := some (tm.ftime.extractLsb' 32 32) }
        out := .reg who 0x08 ((tm.ftime.extractLsb' 0 32).setWidth 64) :: s.w.out };
      let t : State := { s with w := w1 }
      pf → exec (.ftimeLowRead who) s = .next t ∧
        t.readWindow who 0x0C 4 = ((tm.ftime.extractLsb' 32 32).setWidth 64, t.setLatch none) ∧
        ∀ h : State, h.w.time.latch = none → (h.readWindow who 0x0C 4).1 = (h.w.time.ftime.extractLsb' 32 32).setWidth 64) ∧
    (¬pf → exec (.ftimeLowRead who) s = .next { s with w := s.w.emit (.reg who 0x08 0) }) ∧
    (∀ u : StatusUnit, let r := s.settleDrains
      (r.stillDrains u = false → exec (.disableStatusRead who u) s =
        .next (r.answerRead who (statusOffset u) 8)) ∧
      (r.fnOpen who = true → r.answerRead who (statusOffset u) 8 =
        { r with w := r.w.emit (.reg who (statusOffset u) (r.readReg who (statusOffset u))) }) ∧
      (r.stillDrains u = true → exec (.disableStatusRead who u) s = .next r)) ∧
    (∀ (i : BitVec 14) q, s.w.sluicePart i.toNat = some q → s.seesSluice who i.toNat = true → (s.w.sluice i.toNat).declared = true →
      let w1 := s.w.issueSluice q (s.w.sluiceJob q i.toNat) i.toNat (.signal (v.extractLsb' 48 16) (v.extractLsb' 0 32))
        (partFin ((s.w.slicesOf q).head?.getD 0)) 4096
      exec (.sluSignalWrite who i v) s = .next { s with w := w1 }) ∧
    (pf → po.enable = false →
      exec (.portEnable who p) s = .next { s with w := (s.w.updPort p.val fun y => { y with enable := true, drainOf := [] }).portStart p.val }) ∧
    (pf → po.enable = true →
      exec (.portDisable who p) s = .next { s with w := (s.w.updPort p.val fun y => { y with enable := false, drainOf := [] }).drainPort p }) ∧
    (¬pf ∨ po.enable = true → exec (.portEnable who p) s = .next s) ∧ (¬pf ∨ po.enable = false → exec (.portDisable who p) s = .next s) ∧
    (let w1 := s.w.updPort p.val fun y =>
        { y with cycle := v.extractLsb' 0 2, commitPending := y.commitPending || v.getLsbD 9 };
      pf → exec (.slotCommit who p v) s = .next { s with w := w1 })) ∧
    (po.commitPending = false → exec (.slotCommitApply p) s = .next s) ∧
    (let w1 := s.w.updPort p.val fun y =>
        if tablesOk y.shadow tm.period.toNat then { y with active := y.shadow, cycleActive := y.cycle, commitPending := false, refused := false }
        else { y with commitPending := false, refused := true };
      po.commitPending = true → exec (.slotCommitApply p) s = .next { s with w := w1 }) ∧
    (∀ m : HealthIn, s.w.frame % 64 ≠ 0 ∨ s.ctl.health.frame = BitVec.ofNat 32 s.w.frame → exec (.healthScoreCompute m) s = .next s) ∧
    ∀ m : HealthIn, s.w.frame % 64 = 0 → s.ctl.health.frame ≠ BitVec.ofNat 32 s.w.frame →
      let h := s.ctl.health
      let ins := s.healthInputs m
      let sc := min 255 (((h.weights.zip ins).map fun e => e.1.toNat * e.2.toNat).sum / 256)
      ∃ t, exec (.healthScoreCompute m) s = .next t ∧ t.pending = s.pending ∧
        t.w = { s.w with host := t.w.host, log := t.w.log, out := t.w.out, memStacks := t.w.memStacks, fab := { s.w.fab with ports := t.w.fab.ports } } ∧
        (∀ i, i < 16 → t.w.stack i = { s.w.stack i with recent := 0 }) ∧ (∀ k, k < 32 → t.w.port k = { s.w.port k with recent := 0 }) ∧
        t.ctl = { s.ctl with health := t.ctl.health } ∧ t.ctl.health.score = BitVec.ofNat 8 sc ∧ t.ctl.health.inputs = ins ∧
        t.ctl.health.ckptReq = (h.ckptReq || (h.ckptArmed && decide (h.t1.toNat ≤ sc))) ∧
        t.ctl.health.migrateReq = (h.migrateReq || (h.migrateArmed && decide (h.t2.toNat ≤ sc)))

/-- R3, R4, R26, R277, R280, R300-R302, R330, R433: a 64-bit write by a physical function to a slot, routing, multicast or reduction entry, or to
the weights, is what a read of the register returns: its fields as written, its reserved bits zero, and HOST set in a routing
entry; a write that is not naturally aligned, or of another size, changes nothing.
The model's own choices it rests on: log entry 75.
Each of these answers a next state under the conditions stated: `registerWrite`. -/
def Obligations.RegisterReadsWhatIsWritten : Prop :=
  ∀ (who : Fn) (v : Word) (bt : BootIn) (s : State), who.fn = 0 → s.fnOpen who = true →
    let back := fun (off : Nat) (r : Word) =>
      ∃ t, exec (.registerWrite who (BitVec.ofNat 26 off) ⟨8, bt⟩ v) s = .next t ∧ t.pending = s.pending ∧ (t.readWindow who off 8).1 = r
    (∀ p k, p < 32 → k < 256 →
      back (0x840000 + p / 16 * 0x200000 + p % 16 * 0x800 + 8 * k) (v &&& 0x800000FFFFFFFFFF)) ∧
    (∀ q m, q < 8 → m < 1024 → back (0x810000 + 0x4000 * q + 8 * m) ((v &&& 0x80000000003FFFFF) ||| 0x4000000000000000)) ∧
    (∀ q m, q < 8 → m < 64 → back (0x812000 + 0x4000 * q + 8 * m) ((v &&& 0x80000000003FFFFF) ||| 0x4000000000000000)) ∧
    (∀ g, g < 4096 → back (0x860000 + 8 * g) (v &&& 0x80F0FFFFFFFFFFFF)) ∧
    (∀ k, k < 16 → back (0x871000 + 0x10 * k) (v &&& 0xC01FFF00FFFFFFFF)) ∧
    back 0x600010 (v &&& 0x00FFFFFFFFFFFFFF) ∧
    (∀ (off : BitVec 26) n, (n ≠ 8 ∨ off.toNat % 8 ≠ 0) → (n ≠ 4 ∨ off.toNat % 4 ≠ 0) → exec (.registerWrite who off ⟨n, bt⟩ v) s = .next s)

/-- R250-R253, R258-R262: in bring-up mode before the lock, a physical function's START on an idle engine of a present stack whose arguments are
in range clears the records and runs the command: TRAIN and MARCH record the failures found, the raw commands move a granule and the
buffer, BUDGET reports, a bank's one soft repair is taken or given back, a hard repair is spent, P1500 shifts the buffer. A bad
argument or opcode ends at once with 0x01. When the command is done its RESULT shows.
The model's own choices it rests on: log entries 40, 57, 90.
Each of these answers a next state under the conditions stated: `teTrain`, `teMarch`, `teRawWrite`, `teRawRead`, `teBudget`,
`teSoftRepair`, `teHardRepair`, `teSoftUndo`, `teP1500`, `teInvalidCommand`, `teCommandDone`. -/
def Obligations.TestEngineResults : Prop :=
  ∀ (who : Fn) (i : Fin 16) (v : Word) (s : State),
    let x := s.w.stack i.val
    let t := x.te
    let res := fun (t : TestEngine) (cmd : Word) (r : Byte) =>
      ({ t with cmd := cmd &&& 0xF0FFFF, overflow := 0, records := 0, busy := true, doneResult := r } : TestEngine)
    let runs := fun (ins : Instr) (y : Stack) => exec ins s = .next { s with w := s.w.updStack i.val fun _ => y }
    let ends := fun (ins : Instr) (cmd : Word) (r : Byte) =>
      runs ins { x with te := { t with cmd := cmd &&& 0xF0FFFF, overflow := 0, records := 0, result := r } }
    let op := v.toNat % 256
    let pc := v.toNat / 256 % 256
    let bank := (pc * 3 + t.sid) * 16 + t.bank
    let keep := fun (o : Word) => (t.cmd &&& ~~~(0xFF : Word)) ||| (0x8000000000000000 + o)
    s.fnOpen who = true → s.ctl.boot.bringup = true → s.ctl.rwb = true → s.stackWritable who i.val = true → t.busy = false →
    (x.present = true →
      (runs (.teTrain who i 0) { x with te := (res t (keep 1) 0).record [] }) ∧
      (∀ failed : BitVec 16, failed ≠ 0 → ∃ l w1, s.w.trainRecords ((List.range 16).filter fun j => failed.getLsbD j) = (l, w1) ∧
        exec (.teTrain who i failed) s = .next { s with w := w1.updStack i.val fun y => { y with te := (res y.te (keep 1) 0x06).record l } } ∧
        l.map (fun e => e.1 &&& 0x1FFF81F) = ((List.range 16).filter fun j => failed.getLsbD j).map fun j => BitVec.ofNat 64 (0x1FFF800 + 2 * j)) ∧
      (v.getLsbD 63 = true → op = 2 → (pc < 32 ∨ pc = 0xFF) → v.toNat / 2 ^ 20 % 16 ≤ 5 → t.row ≤ t.rowEnd → ∀ found,
        let u := (res t v (if found.isEmpty then 0x00 else 0x04)).record found
        runs (.teMarch who i v found) { x with te := { u with raw := u.raw.filter fun e => !t.marched v e.1 } }) ∧
      (v.getLsbD 63 = true → op = 3 → pc < 32 → t.sid < 3 →
        runs (.teRawWrite who i v) { x with te := { res t v 0 with raw := t.raw.put (bank * 32768 + t.row * 2 + t.granule) t.arg1 } }) ∧
      (v.getLsbD 63 = true → op = 4 → pc < 32 → t.sid < 3 → ∀ e, t.raw.find? (fun e => decide (e.1 = bank * 32768 + t.row * 2 + t.granule)) = some e →
        ∃ u, exec (.teRawRead who i v) s = .next u ∧ u.ctl = s.ctl ∧ (u.w.stack i.val).te.busy = true ∧ (u.w.stack i.val).te.doneResult = 0 ∧
          (u.w.stack i.val).te.buf.readN 0 512 = (List.replicate 64 (leBytes 8 e.2.toNat)).flatten) ∧
      (v.getLsbD 63 = true → op = 5 → (pc < 32 ∨ pc = 0xFF) →
        let pcs := if pc = 0xFF then List.range 32 else [pc]
        runs (.teBudget who i v) { x with te := (res t v 0).record (pcs.flatMap fun p => [0, 1, 2].map fun sid => t.budget i.val p sid) }) ∧
      (v.getLsbD 63 = true → op = 6 → pc < 32 → t.sid < 3 → runs (.teSoftRepair who i v)
        (if t.soft.get false bank = true then { x with te := res t v 0x02 }
          else { x with te := { res t v 0 with soft := t.soft.set false bank true }
                        pcErr := x.pcErr.upd .zero pc fun e => { e with soft := satAdd e.soft 1 } })) ∧
      (v.getLsbD 63 = true → op = 7 → pc < 32 → t.sid < 3 → ∀ ok : Bool, runs (.teHardRepair who i v ok)
        (if t.hardLeft i.val bank = 0 then { x with te := res t v 0x02 }
          else { x with te := { res t v (if ok then 0 else 0x03) with hardSpent := t.hardSpent.upd 0 bank (· + 1) }
                        pcErr := x.pcErr.upd .zero pc fun e => { e with hard := satAdd e.hard 1 } })) ∧
      (v.getLsbD 63 = true → op = 8 → pc < 32 → t.sid < 3 → runs (.teSoftUndo who i v)
        (if t.soft.get false bank = true then
          { x with te := { res t v 0 with soft := t.soft.set false bank false }
                   pcErr := x.pcErr.upd .zero pc fun e => { e with soft := e.soft - 1 } }
          else { x with te := res t v 0 })) ∧
      (∀ out : List Byte, let n := t.arg1.toNat / 256 % 65536
        let new := leNat (t.buf.readN 0 ((n + 7) / 8)) / 2 ^ n * 2 ^ n + leNat out % 2 ^ n
        runs (.teP1500 who i out) { x with te := { res t (keep 9) 0 with buf := t.buf.writeN 0 (leBytes ((n + 7) / 8) new) } })) ∧
    (v.getLsbD 63 = true → op = 3 → (32 ≤ pc ∨ 3 ≤ t.sid) → ends (.teRawWrite who i v) v 0x01) ∧
    (v.getLsbD 63 = true → (op = 0 ∨ 9 < op) → ends (.teInvalidCommand who i v) v 0x01) ∧
    ∀ s1 : State, (s1.w.stack i.val).te.busy = true →
      let y := s1.w.stack i.val
      let w1 := s1.w.updStack i.val fun _ => { y with te := { y.te with busy := false, result := y.te.doneResult } }
      exec (.teCommandDone i) s1 = .next { s1 with w := w1 }

/-- R378, R475-R477, R480, R481, R497, R528-R531: a patch that checks is stored from the buffer in bring-up mode, and erased; RELEASE ends
bring-up and locks. The management port reads and writes its map while the board supplies it. The test port answers IDCODE, samples,
drives the lands only while PERST# is low or in bring-up, and reaches the debug modules, which halt and resume a hart, only on an unlocked
device, which the one
token whose digest the fuses hold unlocks in bring-up mode. R4: PATCH_CMD takes no write after the lock. R532: without the main input
the test port does nothing.
The model's own choices it rests on: log entries 15, 91, 102, 129.
Each of these answers a next state under the conditions stated: `bringupRelease`, `patchCommit`, `patchErase`, `bmcTransaction`,
`jtagExtest`, `jtagIdcode`, `jtagSamplePreload`, `jtagClamp`, `jtagHighz`, `jtagUnlock`, `jtagDtmcs`, `jtagDmi`, `jtagBypass`. -/
def Obligations.BoardPortResults : Prop :=
  ∀ (who : Fn) (v : Word) (boot : BootIn) (off op : Byte) (cells sampled : BitVec 48) (tdi : Bool) (token : List Byte) (d32 : BitVec 32)
    (d41 : BitVec 41) (s : State),
    let b := s.ctl.boot
    let pf := who.fn = 0 ∧ s.fnOpen who = true
    let patch := fun (i : Instr) (b1 : BootSt) => exec i s = .next { s with ctl := { s.ctl with boot := b1 } }
    let tap := fun (i : Instr) (j : JtagSt) (n : Nat) (x : Word) =>
      exec i s = .next { s with w := s.w.emit (.tdo n x), ctl := { s.ctl with jtag := j } }
    let x := Config.freeWord s.w.fresh
    let free := fun (i : Instr) (j : JtagSt) (n : Nat) (y : Word) =>
      let w1 : Work := { s.w with fresh := s.w.fresh + 1, out := .tdo n y :: s.w.out }
      exec i s = .next { s with w := w1, ctl := { s.ctl with jtag := j } }
    let j := s.ctl.jtag
    let byp := fun (i : Instr) => tap i { j with ir := 0xFF, driving := false } 1 0
    let pins := s.ctl.pins.perstLow = true ∨ b.bringup = true
    let rwb := s.ctl.dyke.locked = false ∧ s.ctl.dyke.rebooting = false
    (pf → rwb → v.getLsbD 0 = true → b.bringup = false → patch (.patchCommit who v) { b with patchResult := 5 }) ∧
    (pf → rwb → v.getLsbD 0 = true → b.bringup = true →
      let h := b.patchBuf.readN 0 64
      let p := b.patchBuf.readN 0 (min (64 + leAt h 12 4 + 8392) 524288)
      let c := patchCause p b.patchSerial.toNat
      patch (.patchCommit who v) (if c = 0 then { b with patchStore := some p, patchSerial := BitVec.ofNat 32 (leAt p 8 4), patchResult := 0 }
        else { b with patchResult := BitVec.ofNat 8 c })) ∧
    (pf → rwb → v.getLsbD 1 = true → patch (.patchErase who v)
      (if b.bringup then { b with patchStore := none, patchResult := 0 } else { b with patchResult := 5 })) ∧
    (¬pf ∨ ¬rwb → exec (.patchCommit who v) s = .next s ∧ exec (.patchErase who v) s = .next s) ∧
    (¬pf → exec (.bringupRelease who v boot) s = .next s) ∧
    (pf → v.getLsbD 1 = false ∨ b.bringup = false → patch (.bringupRelease who v boot) { b with bringupNext := v.getLsbD 0 }) ∧
    (pf → v.getLsbD 1 = true → b.bringup = true → ∃ t, exec (.bringupRelease who v boot) s = .next t ∧ t.pending = s.pending ∧
      t.ctl.boot.bringup = false ∧ t.ctl.boot.bringupNext = v.getLsbD 0 ∧ t.ctl.boot.phase = 4 ∧ t.ctl.dyke.locked = true ∧
      t.ctl.boot.patchResult = (if boot.lateCommit then 5 else b.patchResult) ∧
      (s.ctl.pins.perstLow = false → j.ir = 0x00 ∨ j.ir = 0x03 → t.ctl.jtag.ir = 0xFF ∧ t.ctl.jtag.driving = false)) ∧
    (s.ctl.bmcOpen = true → 11400 ≤ s.ctl.pwr.mainMv.toNat ∧ s.ctl.pwr.mainMv.toNat ≤ 12600 ∧ s.ctl.pins.pwrgood = true) ∧
    (s.ctl.bmcOpen = true →
      (exec (.bmcTransaction false off v) s = .next { s with w := s.w.emit (.bmc off (s.bmcRead off)) }) ∧
      (off = 0x10 → patch (.bmcTransaction true off v) { b with bringupNext := v.getLsbD 0 }) ∧
      (off = 0x30 → v.getLsbD 0 = true →
        exec (.bmcTransaction true off v) s = .next { s with w := { s.w with log := { s.w.log with alert := false } } })) ∧
    (s.ctl.bmcOpen = false → ∀ wr, exec (.bmcTransaction wr off v) s = .next s) ∧
    (s.ctl.pins.off = true → ∀ i, i ∈ [Instr.jtagIdcode, .jtagSamplePreload sampled cells, .jtagBypass op tdi, .jtagExtest cells, .jtagClamp,
      .jtagHighz, .jtagDtmcs d32, .jtagDmi d41, .jtagUnlock token] → exec i s = .next s) ∧
    (s.ctl.pins.off = false →
    tap .jtagIdcode { j with ir := 0x01, driving := false } 32 0x1A51276B ∧
    tap (.jtagSamplePreload sampled cells) { j with ir := 0x02, boundary := cells, driving := false } 48 (sampled.setWidth 64) ∧
    tap (.jtagBypass op tdi) { j with ir := 0xFF, driving := false } 2 (if tdi then 2 else 0) ∧
    (pins → free (.jtagExtest cells) { j with ir := 0x00, boundary := cells, driving := true } 48 (BitVec.ofNat 64 (x.toNat % 2 ^ 48)) ∧
      tap .jtagClamp { j with ir := 0x03, driving := true } 1 0 ∧ tap .jtagHighz { j with ir := 0x04, driving := false } 1 0) ∧
    (¬pins → byp (.jtagExtest cells) ∧ byp .jtagClamp ∧ byp .jtagHighz) ∧
    (s.ctl.fuse.debugUnlocked = true →
      (∃ y : Word, free (.jtagDtmcs d32) { j with ir := 0x20, dtmcs := d32, driving := false } 32 y ∧ y.toNat / 16 % 64 = 7 ∧ y.toNat < 2 ^ 32) ∧
      free (.jtagDmi d41) { j.dmiWrite d41 with ir := 0x21, dmi := d41, driving := false } 41 (j.dmiRead x) ∧
      (∀ h : Fin 8, d41.toNat % 4 = 2 → d41.toNat / 2 ^ 34 = 0x10 → d41.toNat / 2 ^ 8 % 2 ^ 10 = 0 → d41.toNat / 2 ^ 18 % 2 ^ 10 = h.val →
        (d41.getLsbD 33 = true → (j.dmiWrite d41).halted.getLsbD h.val = true) ∧
        (d41.getLsbD 33 = false → d41.getLsbD 32 = true → (j.dmiWrite d41).halted.getLsbD h.val = false))) ∧
    (s.ctl.fuse.debugUnlocked = false → byp (.jtagDtmcs d32) ∧ byp (.jtagDmi d41)) ∧
    (let good := b.bringup = true ∧ s.ctl.dyke.locked = false ∧ token.length = 64 ∧ shake256 token 32 = s.ctl.fuse.debugHash
      let c1 := { s.ctl with jtag := { j with ir := 0x10, driving := false } };
      (good → exec (.jtagUnlock token) s = .next { s with ctl := { c1 with fuse := { s.ctl.fuse with debugUnlocked := true } } }) ∧
      (¬good → exec (.jtagUnlock token) s = .next { s with w := s.w.logEv (unitId 3 0 0x11) 0x05FF 2 0xFF 0x10, ctl := c1 })))

/-- R482-R485, R488: between 10.4 V and 11.0 V the main input's dip is latched and counted; back above, its timer runs 100 µs, and at a tick
10 µs later it returns, is logged, and the clock point follows. At 95 °C the throttle sets, counted and logged; after 64 frames below 90 °C
it releases at a tick. R412, R478, R484, R489, R526, R527: what resets the device and what lets it boot. PERST#, PWRGOOD and the supply at 10.4 V reset it and
hold it; the trip and the regulators' shutdown take its power; the boot starts when nothing holds it. After a reset its memories,
contexts and queues are empty, and its event log, fuses, stored patch and manifest are as they were; without power the log is lost.
The model's own choices it rests on: log entries 2, 4, 15, 83, 88.
Each of these answers a next state under the conditions stated: `powerOn`, `mainInputDip`, `mainInputRecover`, `dipTimerExpiry`,
`dipReturn`, `supplyReset`, `regulatorShutdown`, `pwrgoodDeassert`, `perstAssert`, `perstDeassert`, `thermalThrottleOnset`,
`thermalThrottleRelease`, `thermalTrip`, `pwrgoodAssert`, `mainInputReturn`. -/
def Obligations.SupplyHeatAndResetPinResults : Prop :=
  (∀ (mv src : BitVec 16) (tj : Byte) (n : Nat) (s : State),
    let p := s.ctl.pwr
    let low := fun (a : BitVec 16) => if a.toNat ≤ mv.toNat then a else mv
    let pwr := fun (i : Instr) (q : PwrSt) => exec i s = .next { s with ctl := { s.ctl with pwr := q } }
    (mv.toNat < 11000 → 10400 < mv.toNat → pwr (.mainInputDip mv) { p with
      mainMv := mv, minMv := low p.minMv, dipMinMv := low p.dipMinMv, dips := satAdd p.dips 1, dipAges := 0 :: p.dipAges
      dip := true, dipTimer := false, returnPending := false }) ∧
    (11000 ≤ mv.toNat ∨ mv.toNat ≤ 10400 → exec (.mainInputDip mv) s = .next s) ∧
    (p.dip = true → pwr (.mainInputRecover n mv) { p with
      mainMv := mv, minMv := low p.minMv, dipMinMv := low p.dipMinMv, dipNs := p.dipNs + n, dipTimer := true }) ∧
    (let at_ := s.w.time.ftime + BitVec.ofNat 64 n
      let w1 : Work := { s.w with time := { s.w.time with ftime := at_ } };
      p.dipTimer = true → s.w.time.ftime.toNat % (s.w.time.period.toNat * 1000) + n < s.w.time.period.toNat * 1000 →
      exec (.dipTimerExpiry n) s = .next { s with
        w := w1, ctl := { s.ctl with pwr := { p with dipTimer := false, returnPending := true, returnAt := at_ + 10000 } } }) ∧
    (p.returnPending = true → p.returnAt.toNat ≤ s.w.time.ftime.toNat → s.w.time.atTick = true →
      let s1 : State := { s with
        w := s.w.logEv (unitId 3 0 0x30) 0x0780 2 0xFF (p.dipMinMv.toNat + min p.dipNs (2 ^ 32 - 1) * 2 ^ 16)
        ctl := { s.ctl with pwr := { p with dip := false, returnPending := false, dipMinMv := 0xFFFF, dipNs := 0 } } }
      exec .dipReturn s = .next s1.applyPoint) ∧
    (p.returnPending = false ∨ s.w.time.ftime.toNat < p.returnAt.toNat ∨ s.w.time.atTick = false → exec .dipReturn s = .next s) ∧
    (p.throttle = false → 95 ≤ tj.toNat → exec (.thermalThrottleOnset src tj) s = .next { s with
      w := s.w.logEv (unitId 3 0 0x30) 0x0784 2 0xFF (src.toNat + tj.toNat * 2 ^ 16)
      ctl := { s.ctl with pwr := { p with throttle := true, throttleSrc := src, hotTj := tj, coolRun := 0, throttles := satAdd p.throttles 1 } } }) ∧
    (p.throttle = true ∨ tj.toNat < 95 → exec (.thermalThrottleOnset src tj) s = .next s) ∧
    (p.throttle = true → s.w.time.atTick = true → 64 ≤ p.coolRun → exec .thermalThrottleRelease s = .next { s with
      w := s.w.logEv (unitId 3 0 0x30) 0x0785 1 0xFF (p.throttleSrc.toNat + p.hotTj.toNat * 2 ^ 16)
      ctl := { s.ctl with pwr := { p with throttle := false } } }) ∧
    (p.throttle = false ∨ s.w.time.atTick = false ∨ p.coolRun < 64 → exec .thermalThrottleRelease s = .next s)) ∧
  (∀ (mv src : BitVec 16) (boot : BootIn) (s : State),
    let pins := s.ctl.pins
    let put := fun (s : State) (p : PinSt) => ({ s with ctl := { s.ctl with pins := p } } : State)
    let d := s.deviceReset
    let off := s.powerLoss
    (d.w.ctxs = [] ∧ d.w.hbm = [] ∧ d.w.jobs = [] ∧ d.w.host.queues = [] ∧ d.w.fab.ports = [] ∧ d.w.log.entries = s.w.log.entries ∧
      d.ctl.fuse = s.ctl.fuse ∧ d.ctl.boot.patchStore = s.ctl.boot.patchStore ∧ d.ctl.dyke.mramManifest = s.ctl.dyke.mramManifest ∧
      d.ctl.dyke.locked = false ∧ d.ctl.pwr.dips = s.ctl.pwr.dips ∧ d.pending = s.pending) ∧
    (off.w.log.entries = [] ∧ off.w.epochs = [] ∧ off.w.hbm = [] ∧ off.w.ctxs = [] ∧ off.ctl.fuse = { s.ctl.fuse with debugUnlocked := false } ∧
      off.ctl.boot.patchStore = s.ctl.boot.patchStore ∧ off.ctl.dyke.mramManifest = s.ctl.dyke.mramManifest ∧ off.pending = s.pending) ∧
    (s.ctl.boot.phase = 0 → pins.thermtrip = false →
      let s1 := put off { off.ctl.pins with off := false, heldSupply := false, pwrgood := true }
      exec (.powerOn boot) s = .next
        (({ s1 with ctl := { s1.ctl with pwr := { s1.ctl.pwr with mainMv := boot.mainMv } } } : State).bootIfReleased boot)) ∧
    (mv.toNat ≤ 10400 → pins.off = false → pins.heldSupply = false →
      ∃ t, exec (.supplyReset mv) s = .next t ∧ t.pending = s.pending ∧ t.ctl.pins = { pins with heldSupply := true } ∧
        t.ctl.pwr.mainMv = mv ∧ t.w.ctxs = [] ∧ t.w.hbm = [] ∧
        t.w.log.entries = (s.w.logEv (unitId 3 0 0x30) 0x0781 5 0xFF
          (if s.ctl.pwr.dipMinMv.toNat ≤ mv.toNat then s.ctl.pwr.dipMinMv else mv).toNat).log.entries) ∧
    (11400 ≤ mv.toNat → pins.heldSupply = true →
      let s1 : State := { s with ctl := { s.ctl with pins := { pins with heldSupply := false }, pwr := { s.ctl.pwr with mainMv := mv } } }
      exec (.mainInputReturn mv boot) s = .next (s1.bootIfReleased boot)) ∧
    exec .regulatorShutdown s = .next (put off { off.ctl.pins with off := true, heldSupply := false, thermtrip := false }) ∧
    (pins.off = false → pins.pwrgood = true → exec .pwrgoodDeassert s = .next (put d { d.ctl.pins with pwrgood := false })) ∧
    (pins.off = true ∨ pins.pwrgood = false → exec .pwrgoodDeassert s = .next (put s { pins with pwrgood := false })) ∧
    (pins.pwrgood = false → pins.off = false → pins.heldSupply = false →
      let s1 := put s { pins with pwrgood := true }
      exec (.pwrgoodAssert boot) s =
        .next (({ s1 with w := s.w.logEv (unitId 3 0 0x30) 0x0888 5 0xFF 0 } : State).bootIfReleased boot)) ∧
    (pins.off = false → s.ctl.boot.phase ≠ 0 → let r := (put s { pins with perstLow := true }).deviceReset
      exec .perstAssert s = .next r ∧ r.ctl.pins = { pins with perstLow := true } ∧ r.w = d.w) ∧
    (pins.off = true ∨ s.ctl.boot.phase = 0 → exec .perstAssert s = .next (put s { pins with perstLow := true })) ∧
    (pins.perstLow = true → let s1 := put s { pins with perstLow := false }
      exec (.perstDeassert boot) s = .next (({ s1 with ctl := s1.ctl.settleTap } : State).bootIfReleased boot) ∧
        (s.ctl.boot.bringup = false → s.ctl.jtag.ir = 0x00 ∨ s.ctl.jtag.ir = 0x03 → s1.ctl.settleTap.jtag = { s.ctl.jtag with ir := 0xFF, driving := false })) ∧
    (pins.off = false → ∃ t, exec (.thermalTrip src) s = .next t ∧ t.pending = s.pending ∧ t.w = off.w ∧
      t.ctl.pins = { pins with off := true, thermtrip := true, heldSupply := false } ∧ t.ctl.pwr.tripped = true ∧
      t.ctl.pwr.tripTime = s.w.time.ftime ∧ t.ctl.pwr.tripSource = src) ∧
    (s.ctl.pins.released = false → s.bootIfReleased boot = s))

/-- R20, R290-R292, R303, R412, R471-R473, R524, R525: the loss of FREFCLK takes every port down and the lock into holdover; its return lets
ports train. Heartbeats go out; a missed one makes the ready standby the active die, under a new epoch, and ends a running ENROL or RESET
with 0x0364. The site input makes the
device a candidate; its edges set the second; a port probes, answers a probe with its own clock, and keeps the delay of an answer to its
probe, by which ftime steers where the port is the upstream one.
The model's own choices it rests on: log entries 15, 68, 84, 89.
Each of these answers a next state under the conditions stated: `frefclkLoss`, `frefclkRestored`, `sitePpsEdge`, `siteInputValid`,
`siteInputInvalid`, `heartbeatSend`, `heartbeatMiss`, `probe`, `probeReply`, `probeTimer`, `holdover`. -/
def Obligations.ClockAndDieResults : Prop :=
  ∀ (p : Fin 32) (r : CtlRx) (m : ProbeMsg) (t1 t2 t3 : Word) (fr : Byte) (n : Nat) (boot : BootIn) (s : State),
    let tm := s.w.time
    let d := s.ctl.dies
    let po := s.w.port p.val
    let h := s.w.ctlHead r
    let ph := h.port r.port.val
    let good := flitFailed (CtlRx.flit r) = false
    let ctl := fun (p : Fin 32) (code : Byte) (args : List Byte) (out : List Emit) =>
      ∃ g : Flit, .flit p g ∈ out ∧ g.typ = 3 ∧ flitGood g = true ∧ g.body = code :: List.replicate 7 0 ++ bytesAt args 0 32
    (s.ctl.pins.frefclk = true → ∃ t, exec .frefclkLoss s = .next t ∧
      t.ctl = { s.ctl with pins := { s.ctl.pins with frefclk := false, lostInOp := true } } ∧
      t.w.time.st = (if tm.st = 1 then 2 else tm.st) ∧
      ∀ k, k < 32 → (t.w.port k).st = 0 ∧ (t.w.port k).linkKey = none ∧ t.w.isDown (portUnit k) = true) ∧
    (s.ctl.pins.frefclk = false → ∃ t, exec .frefclkRestored s = .next t ∧
      t.ctl = { s.ctl with pins := { s.ctl.pins with frefclk := true, lostInOp := false } } ∧
      ∀ k, k < 32 → s.w.isFenced (portUnit k) = false → portUnit k ∉ s.w.testFailed → t.w.isDown (portUnit k) = false) ∧
    exec .heartbeatSend s = .next { s with
      w := if d.otherHeld then s.w.emit (.heartbeat d.active) else (s.w.emit (.heartbeat d.active)).emit (.heartbeat d.other) } ∧
    (d.otherHeld = false → d.standbyReady = true → ∀ fatal (mi : MissIn), mi.lost = .active →
      let u := s.interrupt mi
      ∃ t, exec (.heartbeatMiss fatal mi boot) s = .next t ∧
      t.ctl.dies = { active := d.other, failovers := satAdd d.failovers 1, standbyReady := false, otherHeld := true } ∧
      (s.ctl.dyke.rebooting = false → (∀ q, (s.w.part q).removal ≠ 2) → t.ctl = { u.ctl with dies := t.ctl.dies, xmss := u.ctl.xmss.freshBlock } ∧
        t.w.ctxs = u.w.ctxs ∧ t.w.host.queues = u.w.host.queues) ∧
      (s.ctl.dyke.rebooting = true →
        let c := ({ u.ctl with dies := t.ctl.dies, xmss := u.ctl.xmss.freshBlock } : Ctl).manCause u.ctl.dyke.next
        c ≠ 0 → t.ctl.dyke = { u.ctl.dyke with rebooting := false, next := [] } ∧ t.ctl.boot.phase = 4) ∧
      t.w.epochs.get 0 (unitId 3 d.active.val 0xFF).toNat = s.w.epochs.get 0 (unitId 3 d.active.val 0xFF).toNat + 1) ∧
    (∀ mi : MissIn, (mi.running = none → s.interrupt mi = s) ∧
      ∀ r e, mi.running = some r →
        (s.w.startCmd r 0x54 = some e ∨ (s.w.startCmd r 0x51 = some e ∧ mi.burned = none) →
          s.interrupt mi = { s with w := s.w.finish r 0x364 0 }) ∧
        (∀ key, s.w.startCmd r 0x51 = some e → mi.burned = some key → s.ctl.fuse.operator = none → s.interrupt mi = { s with
          w := (s.w.logSec 0xFF 1 0).finish r 0x364 0
          ctl := { s.ctl with fuse := { s.ctl.fuse with operator := some (shake256 (key.take 64) 32) }, dyke := { s.ctl.dyke with enrolled := true } } })) ∧
    (d.otherHeld = false → ∀ fatal (mi : MissIn), mi.lost ≠ .active → ∃ t, exec (.heartbeatMiss fatal mi boot) s = .next t ∧
      t.ctl = { s.ctl with dies := { d with otherHeld := true, standbyReady := false } }) ∧
    (d.otherHeld = true → ∀ fatal mi, exec (.heartbeatMiss fatal mi boot) s = .next s) ∧
    exec .siteInputValid s = .next { s with w := ({ s.w with time := { tm with siteInput := true, candidate := true } } : Work).elect } ∧
    exec .siteInputInvalid s = .next { s with w := ({ s.w with time := { tm with siteInput := false, candidate := false } } : Work).elect } ∧
    (tm.refHolder = true → tm.ftime.toNat % (tm.period.toNat * 1000) + n < tm.period.toNat * 1000 →
      let ft := tm.ftime + BitVec.ofNat 64 n
      let off : Int := ((tm.epochSec.toNat * 1000000000 : Nat) : Int) - (ft.toNat : Int)
      let time := fun (x : TimeSt) => exec (.sitePpsEdge n) s = .next { s with w := { s.w with time := x } }
      (tm.ppsSet = true → time { tm with ftime := ft, epochSec := tm.epochSec + 1, slew := off }) ∧
      (tm.ppsSet = false → tm.st = 0 →
        time { tm with ftime := ft, epochSec := tm.epochSec + 1, ppsSet := true, jump := some ⟨BitVec.ofInt 64 off, 2⟩ }) ∧
      (tm.ppsSet = false → tm.st ≠ 0 → let k := (ft.toNat + 500000000) / 1000000000
        time { tm with ftime := ft, ppsSet := true, st := 1, epochSec := BitVec.ofNat 32 (k + 1)
                       slew := ((k * 1000000000 : Nat) : Int) - (ft.toNat : Int) })) ∧
    (tm.st = 1 → tm.refHolder = false → ∃ w1 : Work, exec .holdover s = .next { s with w := w1.elect } ∧ w1.time = { tm with st := 2 } ∧
      ∀ k, k < 32 → w1.port k =
        if (s.w.port k).heard.any (fun h => decide (h.1 = tm.reference)) then { s.w.port k with heard := none } else s.w.port k) ∧
    (good → ph.isActive = true → let t : Word := BitVec.ofNat 64 (tm.ftime.toNat * 256 + m.frac.toNat)
      ∃ u, exec (.probe r m) s = .next u ∧ u.ctl = s.ctl ∧ (u.w.port r.port.val).heard = m.candidate ∧
        (u.w.port r.port.val).heardAt = tm.ftime ∧
        ctl r.port 0x05 (leBytes 8 m.t1.toNat ++ leBytes 8 t.toNat ++ leBytes 8 t.toNat) u.w.out) ∧
    (po.isActive = true → let t0 : Word := BitVec.ofNat 64 (tm.ftime.toNat * 256)
      ∃ t cand, exec (.probeTimer p) s = .next t ∧ t.ctl = s.ctl ∧ (t.w.port p.val).probeSent = some t0 ∧
      ctl p 0x04 (probeArgs t0 cand (if tm.nextPeriod = 0 then none else some (tm.nextPeriod, tm.changeAt)) tm.period) t.w.out) ∧
    (good → ph.isActive = true → ph.probeSent = some t1 →
      let tm := h.time
      let t4 : Word := BitVec.ofNat 64 (tm.ftime.toNat * 256 + fr.toNat)
      let w1 := h.updPort r.port.val fun y =>
        { y with probeSent := none, probeDelay := (((t4.toNat : Int) - t1.toNat) - ((t3.toNat : Int) - t2.toNat)) / 2 }
      let off := ((((t2.toNat : Int) - t1.toNat) - ((t4.toNat : Int) - t3.toNat)) / 2 + ph.asymNs.toInt * 128) / 256
      let tm1 := { tm with offsetNs := satI32 off }
      (tm.refHolder = false → tm.upstream.toNat = r.port.val → ph.heard.isSome = true →
        exec (.probeReply r t1 t2 t3 fr) s = .next { s with w := { w1 with time :=
          if tm.st = 0 then { tm1 with jump := some ⟨BitVec.ofInt 64 off, 0⟩ }
          else if off.natAbs < 1000 then { tm1 with slew := off, st := 1, lockP := tm.owedP }
          else { tm1 with jump := some ⟨BitVec.ofInt 64 off, 1⟩ } } }) ∧
      (tm.refHolder = true ∨ tm.upstream.toNat ≠ r.port.val ∨ ph.heard = none → exec (.probeReply r t1 t2 t3 fr) s = .next { s with w := w1 })) ∧
    (good → ph.isActive = false →
      exec (.probe r m) s = .next { s with w := h } ∧ exec (.probeReply r t1 t2 t3 fr) s = .next { s with w := h }) ∧
    (po.isActive = false → exec (.probeTimer p) s = .next s)

/-- R270, R505-R513, R516: a module that stays present is challenged; its right answer gives its record and, once its light is stable, starts its
ports; a wrong answer is tried again twice, and the third refuses it, or loses it after an hourly write. Each second ages it by the square of its
bias; thresholds passed are logged; its hours are written back with a new challenge. Gone, faulty, interrupting an hourly write or three
times silent on the bus, it takes its ports down; a release shows RELEASING until they have drained.
The model's own choices it rests on: log entries 15, 85, 124.
Each of these answers a next state under the conditions stated: `socketRelease`, `laserPresenceAssert`, `laserAuthResponse`,
`laserLightStable`, `laserBiasSample`, `laserLifeWrite`, `laserPresenceDeassert`, `laserInterrupt`. -/
def Obligations.LaserModuleResults : Prop :=
  ∀ (k : Fin 4) (m : ModuleMap) (bias : BitVec 16) (temp : Byte) (status : Option Byte) (who : Fn) (v : Word) (s : State),
    let l := s.ctl.laser k.val
    let sock := unitId 5 k.val 0xFF
    let nonce := Config.freeWord s.w.fresh ++ Config.freeWord (s.w.fresh + 1)
    let put := fun (s : State) (x : Laser) => ({ s with ctl := { s.ctl with lasers := s.ctl.lasers.set .zero k.val x } } : State)
    let asks := fun (i : Instr) (out : List Emit) (x : Laser) => ∃ t, exec i s = .next t ∧ t.pending = s.pending ∧ t.ctl.laser k.val = x ∧
      t.w = { s.w with fresh := s.w.fresh + 2, out := .module k 32 (leBytes 16 nonce.toNat) :: out ++ s.w.out }
    let goes := fun (i : Instr) (st : BitVec 8) => ∃ t, exec i s = .next t ∧ t.pending = s.pending ∧ (t.ctl.laser k.val).authed = false ∧
      (t.ctl.laser k.val).st.toNat = st.toNat ∧ t.w.isDown sock = true ∧
      ∀ p, p ∈ socketPorts k.val → (t.w.port p.val).st = 0 ∧ (t.w.port p.val).linkKey = none
    let asked := (l.st = 1 ∧ l.authed = false) ∨ (l.st = 2 ∧ l.hourly = true)
    let right := m.response = moduleAnswer l.nonce m
    (l.present = false → 4 ≤ s.ctl.boot.phase.toNat → asks (.laserPresenceAssert k) []
      { l with present := true, st := 1, tries := 0, authed := false, hourly := false, logged := 0, busFails := 0, int := false, nonce := nonce }) ∧
    (l.present = false → s.ctl.boot.phase.toNat < 4 → exec (.laserPresenceAssert k) s = .next (put s { l with present := true, logged := 0 })) ∧
    (asked → right → exec (.laserAuthResponse k m true) s = .next (put s { l with
      id := bytesAt m.id 0 16, biasStart := m.biasStart, biasNow := m.biasNow, biasNom := m.biasNom, temp := m.temp, authed := true
      hourly := false, tries := 0, busFails := 0, eqHours := if l.hourly then l.eqHours else m.eqHours, eqPart := if l.hourly then l.eqPart else 0 })) ∧
    (∀ ok : Bool, asked → ¬(ok = true ∧ right) →
      let fails := if ok then 0 else l.busFails + 1
      let lost := l.hourly = true ∧ (2 ≤ l.tries ∨ 3 ≤ fails)
      (¬lost → l.tries < 2 → asks (.laserAuthResponse k m ok) [] { l with tries := l.tries + 1, nonce := nonce, busFails := fails }) ∧
      (¬lost → 2 ≤ l.tries →
        exec (.laserAuthResponse k m ok) s = .next (put { s with w := s.w.logEv sock 0x0A81 4 0xFF (leNat (bytesAt m.id 0 16)) }
          { l with st := 3, authFails := satAdd l.authFails 1, busFails := fails })) ∧
      (lost → goes (.laserAuthResponse k m ok) 6)) ∧
    (l.st = 1 → l.authed = true → ∃ t, exec (.laserLightStable k) s = .next t ∧ t.ctl.laser k.val = { l with st := 2 } ∧ t.w.isDown sock = false) ∧
    (l.st = 2 → l.biasNom ≠ 0 →
      let n := l.biasNom.toNat * l.biasNom.toNat
      let part := l.eqPart + bias.toNat * bias.toNat
      let x := { l with biasNow := bias, eqPart := part % (360 * n), eqHours := l.eqHours + BitVec.ofNat 32 (part / (360 * n)), temp := temp, busFails := 0 }
      let life := if 400000 ≤ x.eqHours.toNat then 3 else if 360000 ≤ x.eqHours.toNat then 2 else if 320000 ≤ x.eqHours.toNat then 1 else 0
      exec (.laserBiasSample k (some bias) temp) s =
        .next (put { s with w := s.w.logLife k.val l.logged life } { x with logged := Max.max l.logged life })) ∧
    (l.st = 2 → l.busFails < 2 → exec (.laserBiasSample k none temp) s = .next (put s { l with busFails := l.busFails + 1 })) ∧
    (l.st = 2 → 2 ≤ l.busFails → goes (.laserBiasSample k none temp) 6) ∧
    (l.st = 2 → asks (.laserLifeWrite ⟨k, .done⟩) [.module k 16 (leBytes 4 l.eqHours.toNat)]
      { l with hourly := true, tries := 0, busFails := 0, nonce := nonce }) ∧
    (l.st = 2 → (l.busFails < 2 → exec (.laserLifeWrite ⟨k, .failed⟩) s = .next (put s { l with busFails := l.busFails + 1 })) ∧
      (2 ≤ l.busFails → goes (.laserLifeWrite ⟨k, .failed⟩) 6) ∧ goes (.laserLifeWrite ⟨k, .interrupted⟩) 6) ∧
    (l.present = true → (l.st = 1 ∨ l.st = 2 ∨ l.st = 4) → goes (.laserPresenceDeassert k) 6) ∧
    (l.present = true → ¬(l.st = 1 ∨ l.st = 2 ∨ l.st = 4) →
      ∃ t, exec (.laserPresenceDeassert k) s = .next t ∧ t.w = s.w ∧ t.ctl.laser k.val = { l with present := false, int := false, st := 0 }) ∧
    (let hit := ∃ b, status = some b ∧ (l.hourly = true ∨ b.getLsbD 0 = true ∨ b.getLsbD 1 = true);
      (l.present = true → hit → (l.st = 1 ∨ l.st = 2 ∨ l.st = 4) → goes (.laserInterrupt k status) 6) ∧
      (l.present = true → ¬(hit ∧ (l.st = 1 ∨ l.st = 2 ∨ l.st = 4)) →
        exec (.laserInterrupt k status) s = .next (put s { l with int := status.isSome }))) ∧
    (l.present = false → exec (.laserInterrupt k status) s = .next s ∧ exec (.laserPresenceDeassert k) s = .next s) ∧
    (l.present = true → exec (.laserPresenceAssert k) s = .next s) ∧
    (¬asked → ∀ ok, exec (.laserAuthResponse k m ok) s = .next s) ∧
    (¬(l.st = 1 ∧ l.authed = true) → exec (.laserLightStable k) s = .next s) ∧
    (l.st ≠ 2 → ∀ b, exec (.laserLifeWrite ⟨k, b⟩) s = .next s) ∧
    (let may := who.fn = 0 ∧ s.fnOpen who = true ∧ v.getLsbD 8 = true ∧ l.st = 2 ∧ l.hourly = false;
     (¬may → exec (.socketRelease who k v) s = .next s) ∧
     (may →
      let w1 := (socketPorts k.val).foldl (fun w p => w.drainPort p)
        { s.w with fenced := sock :: s.w.fenced.filter fun x => decide (x ≠ sock) }
      let drains := (socketPorts k.val).any fun p => w1.portBusy p.val
      (drains = false → goes (.socketRelease who k v) 5) ∧
      (drains = true → exec (.socketRelease who k v) s = .next (put { s with w := w1 } { l with st := 4, hourly := false }))))

/-- R264, R266-R269, R272, R273, R279, R297: the codewords that a flit reports are counted. A good flit's ACK frees the flits it passes and its
credits count; a failed or unlisted one is counted, and a failed one on a direct port asks again for the SEQ that is due, as does one out
of turn.
A DATA flit in turn is acknowledged; on a long-haul port its number extends its SEQ, and what never came is lost. A NAK replays from
its SEQ; standing commands repeat. A link command's flit counts as any flit does, and acts unless a codeword left it failed. A bad
wavelength is answered by a spare, which both ends take from the pair named on; without one the port retrains, or fails below four.
The model's own choices it rests on: log entries 112, 113, 122.
Each of these answers a next state under the conditions stated: `idleFlit`, `holdFlit`, `dataFlit`, `linkNak`, `spareCmd`, `spareAck`,
`ctlRepeatTimer`, `wavelengthBad`. -/
def Obligations.LinkFlitResults : Prop :=
  ∀ (p : Fin 32) (r : CtlRx) (f : Flit) (lam spare : Fin 9) (pair : Nat) (seq : BitVec 16) (s : State),
    let po := s.w.port p.val
    let ctl := fun (p : Fin 32) (code : Byte) (args : List Byte) (out : List Emit) =>
      ∃ g : Flit, .flit p g ∈ out ∧ g.typ = 3 ∧ flitGood g = true ∧ g.body = code :: List.replicate 7 0 ++ bytesAt args 0 32
    let usable := flitGood f = true ∧ unlisted f = false
    let w1 := s.w.updPort p.val fun y => y.countCodewords f
    let w2 := w1.updPort p.val fun y => { y with flitErrors := satAdd y.flitErrors 1 }
    let cw := po.countCodewords f
    let e : BitVec 16 := po.rxNext.setWidth 16
    let sends := fun (i : Instr) (n : Word) (ctl : List CtlOut) (out : List Emit → Prop) => ∃ t, exec i s = .next t ∧ t.ctl = s.ctl ∧
      t.pending = s.pending ∧ t.w.ctxs = s.w.ctxs ∧ t.w.hbm = s.w.hbm ∧ (t.w.port p.val).rxNext = n ∧ (t.w.port p.val).ctl = ctl ∧
      (t.w.port p.val).corrected = cw.corrected ∧ (t.w.port p.val).uncorrectable = cw.uncorrectable ∧ out t.w.out
    let acks := fun (n : Word) (out : List Emit) => ∃ g, .flit p g ∈ out ∧ g.ack = n.setWidth 16
    let naks := ctl p 0x01 (leBytes 2 e.toNat)
    let others := po.ctl.filter fun c => match c with | .nak _ => false | _ => true
    let data := po.st = 3 ∨ po.st = 4 ∨ po.st = 5
    let empties := fun (i : Instr) (typ : BitVec 4) =>
      (usable → f.typ = typ → po.txq = [] → ∃ t, exec i s = .next t ∧ t.ctl = s.ctl ∧
        t.w = { s.w with fab := { s.w.fab with ports := t.w.fab.ports } } ∧
        t.w.port p.val = { cw with
          replay := po.replay.filter fun r => decide ((r.seq - f.ack).toNat < 32768)
          shared := if f.cshared then po.shared + f.credits.toNat else po.shared
          credits := if f.cshared then po.credits else po.credits.upd 0 f.cvc.toNat (· + f.credits.toNat) }) ∧
      (usable → f.typ = typ → ∃ t, exec i s = .next t ∧ t.ctl = s.ctl ∧ t.w.ctxs = s.w.ctxs ∧ t.w.hbm = s.w.hbm ∧
        (t.w.port p.val).rxNext = po.rxNext ∧ (t.w.port p.val).ctl = po.ctl) ∧
      (usable → f.typ ≠ typ → exec i s = .next s) ∧
      (¬usable → exec i s = .next { s with w := w2 })
    empties (.idleFlit p f) 0 ∧ empties (.holdFlit p f) 1 ∧
    (data → f.typ = 2 → usable → po.longHaul = false → f.seq = e → sends (.dataFlit p f) (po.rxNext + 1) others (acks (po.rxNext + 1))) ∧
    (data → f.typ = 2 → usable → po.longHaul = false → f.seq ≠ e → sends (.dataFlit p f) po.rxNext (.nak e :: others) naks) ∧
    (data → flitGood f = false → po.longHaul = false → sends (.dataFlit p f) po.rxNext (.nak e :: others) naks ∧
      ∃ t, exec (.dataFlit p f) s = .next t ∧ (t.w.port p.val).flitErrors = satAdd po.flitErrors 1) ∧
    (data → f.typ = 2 → usable → po.longHaul = true → let n := extendSeq (po.rxNext - 1) f.seq
      sends (.dataFlit p f) (n + 1) po.ctl (acks (n + 1))) ∧
    (data → flitGood f = false → po.longHaul = true → exec (.dataFlit p f) s = .next { s with
      w := w2.updPort p.val fun y => { y with rxNext := y.rxNext + 1, cut := y.cut ++ [(y.rxNext, y.rxNext + 1)] } }) ∧
    (data → flitGood f = true → unlisted f = true → exec (.dataFlit p f) s = .next { s with w := w2 }) ∧
    (usable → f.typ ≠ 2 → exec (.dataFlit p f) s = .next s) ∧
    (¬data → exec (.dataFlit p f) s = .next s) ∧
    (let fl := CtlRx.flit r
      let pr := r.port
      let p0 := s.w.port pr.val
      let cw := p0.countCodewords fl
      let h := s.w.ctlHead r
      let ph := h.port pr.val
      let good := flitFailed fl = false
      let acts := fun (i : Instr) (w : Work) => exec i s = .next { s with w := w }
      (¬good → ∀ i, i ∈ [Instr.linkNak r seq, .spareCmd r lam pair, .spareAck r lam spare, .probe r ⟨0, 0, none, none, 0⟩, .probeReply r 0 0 0 0,
        .linkRetrain r] → acts i ((s.w.updPort pr.val fun y => y.countCodewords fl).updPort pr.val fun y => { y with flitErrors := satAdd y.flitErrors 1 })) ∧
      (h.ctxs = s.w.ctxs ∧ h.hbm = s.w.hbm ∧ h.time = s.w.time ∧ h.epochs = s.w.epochs ∧ ph.st = p0.st ∧ ph.rxNext = p0.rxNext ∧ ph.ctl = p0.ctl ∧
        (p0.txq = [] → ph = { cw with
          replay := p0.replay.filter fun x => decide ((x.seq - r.ack).toNat < 32768)
          shared := if r.cshared then p0.shared + r.credits.toNat else p0.shared
          credits := if r.cshared then p0.credits else p0.credits.upd 0 r.cvc.toNat (· + r.credits.toNat) })) ∧
      (good → ph.longHaul = false → ∃ t, exec (.linkNak r seq) s = .next t ∧ t.ctl = s.ctl ∧
        (let kept := ph.replay.filter fun x => decide ((x.seq - seq).toNat < 32768);
          (t.w.port pr.val).replay = kept ∧ t.w.out.length = h.out.length + kept.length ∧
          (∀ x, x ∈ kept → ∃ g : Flit, .flit pr g ∈ t.w.out ∧ g.typ = 2 ∧ g.seq = x.seq ∧ g.start = x.start ∧ g.body = x.body) ∧
          (ph.owed = [] → t.w.out =
            (kept.map fun x => Emit.flit pr (mkFlit 2 x.seq (ph.rxNext.setWidth 16) 0 false 0 x.start x.body)).reverse ++ h.out))) ∧
      (good → ph.longHaul = true → acts (.linkNak r seq) h) ∧
      (let before := ph.txMoves.find? fun e => decide (e.1 = lam ∧ e.2.2 = pair)
        let free := fun (i : Fin 9) => ph.txLambdas.getLsbD i.val = false ∧ ph.txBad.getLsbD i.val = false
        let lowest := fun (i : Fin 9) => free i ∧ ∀ k : Fin 9, k.val < i.val → ¬free k
        let gives := fun (i : Fin 9) (lams bad : BitVec 9) (moves : List (Fin 9 × Fin 9 × Nat)) =>
          ∃ t, exec (.spareCmd r lam pair) s = .next t ∧ t.ctl = s.ctl ∧ (t.w.port pr.val).txLambdas = lams ∧ (t.w.port pr.val).txBad = bad ∧
            (t.w.port pr.val).txMoves = moves ∧ ctl pr 0x03 (leBytes 8 lam.val ++ leBytes 8 i.val) t.w.out
        (∀ e, good → ph.isActive = true → before = some e → gives e.2.1 ph.txLambdas ph.txBad ph.txMoves) ∧
        (∀ i, good → ph.isActive = true → before = none → lowest i → ph.txLambdas.getLsbD lam.val = true →
          gives i ((ph.txLambdas &&& ~~~(lamBit lam.val)) ||| lamBit i.val) (ph.txBad ||| lamBit lam.val) (ph.txMoves ++ [(lam, i, pair)])) ∧
        (good → ph.isActive = false ∨ (before = none ∧ ((∀ i, ¬free i) ∨ ph.txLambdas.getLsbD lam.val = false)) →
          acts (.spareCmd r lam pair) h)) ∧
      (good → ph.isActive = true → (∃ j, .spare lam j ∈ ph.ctl) → ∃ t, exec (.spareAck r lam spare) s = .next t ∧ t.ctl = s.ctl ∧
        (t.w.port pr.val).lambdas = (ph.lambdas &&& ~~~(lamBit lam.val)) ||| lamBit spare.val ∧ (∀ j, .spare lam j ∉ (t.w.port pr.val).ctl) ∧
        ∃ j, .spare lam j ∈ ph.ctl ∧ (t.w.port pr.val).rxMoves = ph.rxMoves ++ [(lam, spare, j)]) ∧
      (good → ph.isActive = false ∨ (∀ j, .spare lam j ∉ ph.ctl) → acts (.spareAck r lam spare) h)) ∧
    (∃ t, exec (.ctlRepeatTimer p) s = .next t ∧ t.ctl = s.ctl ∧ t.w = { s.w with out := t.w.out, fab := { s.w.fab with ports := t.w.fab.ports } } ∧
      (t.w.port p.val).ctl = po.ctl ∧ ∀ c, c ∈ po.ctl → match c with
        | .nak x => ctl p 0x01 (leBytes 2 x.toNat) t.w.out
        | .spare l n => ctl p 0x02 (leBytes 8 l.val ++ leBytes 8 n) t.w.out
        | .retrain => ctl p 0x06 [] t.w.out) ∧
    (let asked := ∃ j, .spare lam j ∈ po.ctl;
      (po.isActive = true → po.lambdas.getLsbD lam.val = true → ¬asked →
        let good := po.good &&& ~~~(lamBit lam.val)
        let left := lamCount (good &&& ~~~po.lambdas) - po.ctl.countP fun c => match c with | .spare _ _ => true | _ => false
        (left ≠ 0 → ∃ t, exec (.wavelengthBad p lam pair) s = .next t ∧ t.ctl = s.ctl ∧ (t.w.port p.val).good = good ∧
          (t.w.port p.val).ctl = .spare lam (pair + 64) :: po.ctl ∧ ctl p 0x02 (leBytes 8 lam.val ++ leBytes 8 (pair + 64)) t.w.out) ∧
        (left = 0 → ∃ t, exec (.wavelengthBad p lam pair) s = .next t ∧ (t.w.port p.val).good = good ∧
          (t.w.port p.val).linkKey = none ∧ (t.w.port p.val).st = if lamCount good < 4 then 6 else 2)) ∧
      (po.isActive = false ∨ po.lambdas.getLsbD lam.val = false ∨ asked → exec (.wavelengthBad p lam pair) s = .next s))

/-- R266, R269-R271, R275, R297, R364, R395, R412: a port's state follows its light and its training. With four wavelengths a port that may start
sends train sets; with fewer a port that is not active is DARK, and an active one goes by its spares, trains anew, or fails below four good.
Training gives WIDTH 8 only where both ends have eight good, and goes on
to HELLO with a fresh nonce, or fails below four; a failed port trains again, and a refused one says hello again. A burst of errors, a
NAK without progress, or the peer's RETRAIN makes an active port train anew: its keys are gone, RETRAINS and its epoch count; for a
cause of its own it asks the peer to retrain.
The model's own choices it rests on: log entries 15, 113.
Each of these answers a next state under the conditions stated: `linkRetrain`, `lightPresent`, `portTrainComplete`, `portTrainRetry`,
`helloRetry`, `uncorrectableBurst`, `nakNoProgress`, `authFailBurst`, `portTrainFailed`. -/
def Obligations.PortStateResults : Prop :=
  ∀ (p : Fin 32) (r : CtlRx) (lams good : BitVec 9) (peer : Nat) (s : State),
    let po := s.w.port p.val
    let ctl := fun (code : Byte) (args : List Byte) (out : List Emit) =>
      ∃ g : Flit, .flit p g ∈ out ∧ g.typ = 3 ∧ flitGood g = true ∧ g.body = code :: List.replicate 7 0 ++ bytesAt args 0 32
    let now := fun (t : State) => t.w.port p.val
    let u := (portUnit p.val).toNat
    let anew := fun (i : Instr) (own : Bool) => ∃ t, exec i s = .next t ∧ t.ctl = s.ctl ∧ t.pending = s.pending ∧ (now t).st = 2 ∧
      (now t).linkKey = none ∧ (now t).replay = [] ∧ (now t).tail = none ∧ (now t).retrains = satAdd po.retrains 1 ∧
      (now t).ctl = (if own then [.retrain] else []) ∧ (own = true → ctl 0x06 [] t.w.out) ∧
      t.w.epochs.get 0 u = s.w.epochs.get 0 u + 1
    let link := fun (q : Port) (st : BitVec 4) => { q.dropLink with st := st.toNat }
    let down := fun (q : Port) (st : BitVec 4) => { link q st with lambdas := 0, txLambdas := 0, drainOf := s.w.portWork p }
    let lit := { po with light := lams }
    let may := (s.w.updPort p.val fun y => { y with light := lams }).portMayStart p.val = true
    let light := fun (x : Port) => ∃ t, exec (.lightPresent p lams) s = .next t ∧ t.ctl = s.ctl ∧
      t.w = { s.w with fab := { s.w.fab with ports := t.w.fab.ports }, out := t.w.out } ∧ now t = x
    (po.st ≤ 1 → 4 ≤ lamCount lams → may → light (link lit 2)) ∧
    (po.st ≠ 5 → lamCount lams < 4 → light (if po.st = 0 then lit else down lit 0)) ∧
    (po.st ≠ 5 → 4 ≤ lamCount lams → (1 < po.st ∨ ¬may) →
      exec (.lightPresent p lams) s = .next { s with w := s.w.updPort p.val fun y => { y with light := lams } }) ∧
    (po.st = 5 →
      let lost := po.lambdas &&& ~~~lams
      let good := po.good &&& lams
      let left := lamCount (good &&& ~~~po.lambdas) - po.ctl.countP fun c => match c with | .spare _ _ => true | _ => false
      (lost = 0 ∨ (4 ≤ lamCount good ∧ lamCount lost ≤ left) → exec (.lightPresent p lams) s = .next { s with
        w := (s.w.updPort p.val fun y => { y with light := lams }).updPort p.val fun y => { y with good := good } }) ∧
      (lost ≠ 0 → 4 ≤ lamCount good → left < lamCount lost → anew (.lightPresent p lams) true) ∧
      (lost ≠ 0 → lamCount good < 4 → ∃ t, exec (.lightPresent p lams) s = .next t ∧ t.ctl = s.ctl ∧ (now t).st = 6 ∧ (now t).linkKey = none ∧
        (now t).lambdas = 0 ∧ t.w.epochs.get 0 u = s.w.epochs.get 0 u + 1)) ∧
    (po.st = 2 → lamCount good < 4 → exec (.portTrainComplete p good peer) s = .next { s with
      w := ((s.w.updPort p.val fun y => { y with good := good }).updPort p.val fun y => down y 6).logEv (portUnit p.val) 0x04FF 3 0xFF p.val }) ∧
    (po.st = 2 → 4 ≤ lamCount good → ∃ t, exec (.portTrainComplete p good peer) s = .next t ∧ t.ctl = s.ctl ∧ (now t).st = 3 ∧
      (now t).good = good ∧ (now t).width = (if peer = 8 ∧ 8 ≤ lamCount good then 8 else 4) ∧ lamCount (now t).lambdas = (now t).width ∧
      (now t).lambdas &&& ~~~good = 0 ∧ (now t).txLambdas = (now t).lambdas ∧
      (now t).nonce = Config.freeWord s.w.fresh ++ Config.freeWord (s.w.fresh + 1) ∧ t.w.fresh = s.w.fresh + 2) ∧
    (po.st ≠ 2 → exec (.portTrainComplete p good peer) s = .next s) ∧
    (po.st = 6 → s.w.portMayStart p.val = true →
      exec (.portTrainRetry p) s = .next { s with w := (s.w.updPort p.val fun y => link y 2).sendOrdered p 0x1E }) ∧
    (po.st ≠ 6 ∨ s.w.portMayStart p.val = false → exec (.portTrainRetry p) s = .next s) ∧
    (po.st = 2 → exec (.portTrainFailed p) s = .next { s with
      w := (s.w.updPort p.val fun y => down y 6).logEv (portUnit p.val) 0x04FF 3 0xFF p.val }) ∧
    (po.st ≠ 2 → exec (.portTrainFailed p) s = .next s) ∧
    (po.st = 7 → ∃ t h, exec (.helloRetry p) s = .next t ∧ t.ctl = s.ctl ∧ t.w.fresh = s.w.fresh + 2 ∧ t.w.out.head? = some (.hello p h) ∧
      (now t).st = 3 ∧ (now t).nonce = Config.freeWord s.w.fresh ++ Config.freeWord (s.w.fresh + 1) ∧ (now t).peerNonce = [] ∧
      (now t).sentSigned = false ∧ h.nonce = leBytes 16 (now t).nonce.toNat ∧ h.peerNonce = List.replicate 16 0) ∧
    (po.st ≠ 7 → exec (.helloRetry p) s = .next s) ∧
    (po.isActive = true → anew (.uncorrectableBurst p) true ∧ anew (.authFailBurst p) true ∧
      (r.port = p → flitFailed (CtlRx.flit r) = false → anew (.linkRetrain r) false ∧
        ∃ t, exec (.linkRetrain r) s = .next t ∧ (now t).graceEnd = some s.w.graceFrom) ∧
      ((∃ e, .nak e ∈ po.ctl) → anew (.nakNoProgress p) true)) ∧
    ((∀ e, .nak e ∉ po.ctl) → exec (.nakNoProgress p) s = .next s) ∧
    (po.isActive = false → exec (.uncorrectableBurst p) s = .next s ∧ exec (.authFailBurst p) s = .next s ∧
      (r.port = p → flitFailed (CtlRx.flit r) = false → exec (.linkRetrain r) s = .next { s with w := s.w.ctlHead r }))

/-- R274, R289, R350, R361-R363, R372, R378, R379: the first hello of a peer is answered by one signed with a fresh leaf index; a signed hello
that fails a check refuses the peer. The initiator offers a fresh key; an offer that verifies is accepted, and the keys of its secret
are taken, from the next flit on; an acceptance that verifies takes them too; the peer's proof makes them the port's keys, and a new
port ACTIVE, a long-haul one once its Mere is mapped. One that does not verify returns the port to training. A rekey of an idle active
port starts an offer, after INTERVAL_S, after 2^40 flits, or at a write of PORT_KEY. Without a leaf index nothing is signed.
The model's own choices it rests on: log entries 38, 93, 113, 119.
Each of these answers a next state under the conditions stated: `linkRekey`, `linkRekeyTimer`, `linkHello`, `linkOffer`, `linkAccept`,
`linkDone`. -/
def Obligations.LinkKeyResults : Prop :=
  (∀ (p : Fin 32) (m : KeyRx) (s : State), (s.w.port p.val).isActive = true →
    let rows : List (Instr × Byte) := [(.linkOffer p m, 1), (.linkAccept p m, 2), (.linkDone p m, 3)]
    let carries := fun (code : Byte) => (∀ a, a ∈ m.parts → a.pkt.kind = 0x0A) ∧ (m.parts.flatMap fun a => a.pkt.payload) =
      m.msg.kem ++ m.msg.digest ++ m.msg.proof ++ (if code = 3 then leBytes 8 m.msg.firstFlit.toNat else [])
    ∀ r, r ∈ rows →
      (¬carries r.2 → exec r.1 s = .next s) ∧
      (∀ a l, carries r.2 → m.parts = a :: l → s.w.tagOk p.val a = false → exec r.1 s = .next (s.noteFail p))) ∧
  ∀ (who : Fn) (p : Fin 32) (h : HelloMsg) (rx : KeyRx) (v : Word) (s0 s : State),
    (((s0.w.port p.val).isActive = false ∧ s = s0) ∨ ((s0.w.port p.val).isActive = true ∧ (∀ a, a ∈ rx.parts → a.pkt.kind = 0x0A) ∧
      s0.partsOk p rx.parts = (s, true))) →
    let m := rx.msg
    let brought := fun (code : Byte) => (s0.w.port p.val).isActive = true → (rx.parts.flatMap fun a => a.pkt.payload) =
      m.kem ++ m.digest ++ m.proof ++ (if code = 3 then leBytes 8 m.firstFlit.toNat else [])
    let po := s.w.port p.val
    let now := fun (t : State) => t.w.port p.val
    let leaf := s.ctl.xmss.reserved
    let unlocked := s.ctl.xmss.halted = false ∧ s.ctl.fuse.debugUnlocked = false
    let may := unlocked ∧ leaf.halted = false
    let signs := fun (t : State) => t.ctl = { s.ctl with xmss := leaf.used }
    let verifies := m.digest = s.w.kexDigest p.val ∧ Config.xmssVerify po.peerIdentity (m.kem ++ m.digest) m.proof = true
    let inKex := po.st = 4 ∨ po.st = 5
    let t := s.w.kexDigest p.val
    let ek := bytesAt (Config.mlkemPublic s.w.nextId) 0 1568
    let offers := fun (i : Instr) => ∃ x, exec i s = .next x ∧ signs x ∧ (now x).kem = some s.w.nextId ∧ (now x).keyPhase = .offered ∧
      x.w.out.head? = some (.key p 1 ⟨ek, t, xmssSign leaf.nextIndex.toNat (ek ++ t), 0⟩)
    let retrains := fun (i : Instr) => ∃ x, exec i s0 = .next x ∧ (now x).st = 2 ∧ (now x).linkKey = none ∧ (now x).newKey = none
    let proof := fun (keys : List Byte) (lower : Bool) => kmac256 (if lower then keys.take 32 else (keys.drop 32).take 32) t ""
    let takes := fun (x : State) (keys : List Byte) => let n := (now x).txFlit
      (now x).newKey = some keys ∧ (now x).kem = none ∧ (now x).keyPhase = .switching n ∧ (now x).keyFirst = n
    (po.st = 3 → may → (h.peerNonce.all fun b => decide (b = 0)) = true → po.sentSigned = false →
      ∃ x g, exec (.linkHello p h) s = .next x ∧ signs x ∧ x.w.out.head? = some (.hello p g) ∧ g.peerNonce = h.nonce ∧
        g.signature = xmssSign leaf.nextIndex.toNat (helloBody g) ∧ (now x).st = 3 ∧
        (now x).peerNonce = h.nonce ∧ (now x).sentSigned = true ∧ (now x).sentHello = helloBytes g) ∧
    (po.st = 3 → (h.peerNonce.all fun b => decide (b = 0)) = false → s.w.helloCheck p.val h ≠ 0 →
      ∃ x, exec (.linkHello p h) s = .next x ∧ x.ctl = s.ctl ∧ (now x).st = 7) ∧
    (po.st = 3 → may → (leaf.used.reserved.halted = false) → (h.peerNonce.all fun b => decide (b = 0)) = false → s.w.helloCheck p.val h = 0 →
      ∃ x, exec (.linkHello p h) s = .next x ∧ (now x).st = 4 ∧ (now x).peer = h.address ∧ (now x).peerIdentity = h.identity ∧
        (now x).keyPhase = if s.w.time.address.toNat < h.address.toNat then .offered else .idle) ∧
    (po.st ≠ 3 → exec (.linkHello p h) s = .next s) ∧
    (brought 1 →
    (may → inKex → ¬(s.w.initiator p.val = true ∧ po.keyPhase = .offered) → verifies →
      let r := Config.mlkemEncap s.w.fresh m.kem
      let ct := bytesAt r.1 0 1568
      let keys := shake256 (r.2 ++ t ++ ct) 72
      ∃ x, exec (.linkOffer p rx) s0 = .next x ∧ signs x ∧ x.w.fresh = s.w.fresh + 1 ∧ takes x keys ∧
        x.w.out.head? = some (.key p 3 ⟨[], [], proof keys (s.w.initiator p.val), (now x).txFlit⟩) ∧
        .key p 2 ⟨ct, t, xmssSign leaf.nextIndex.toNat (ct ++ t), 0⟩ ∈ x.w.out) ∧
    (unlocked → inKex → s.w.initiator p.val = true → po.keyPhase = .offered → exec (.linkOffer p rx) s0 = .next s) ∧
    (unlocked → ¬inKex → exec (.linkOffer p rx) s0 = .next s) ∧
    (unlocked → inKex → ¬(s.w.initiator p.val = true ∧ po.keyPhase = .offered) → ¬verifies → retrains (.linkOffer p rx)) ∧
    (¬unlocked → exec (.linkOffer p rx) s0 = .next s) ∧
    (unlocked → leaf.halted = true → inKex → ¬(s.w.initiator p.val = true ∧ po.keyPhase = .offered) → verifies →
      exec (.linkOffer p rx) s0 = .next { s with w := s.w.noteHalt leaf, ctl := { s.ctl with xmss := leaf } })) ∧
    (brought 2 →
    (∀ k, inKex → po.keyPhase = .offered → po.kem = some k →
      let keys := shake256 (Config.mlkemDecap k m.kem ++ t ++ m.kem) 72
      (verifies → ∃ x, exec (.linkAccept p rx) s0 = .next x ∧ x.ctl = s.ctl ∧ takes x keys ∧
        x.w.out.head? = some (.key p 3 ⟨[], [], proof keys (s.w.initiator p.val), (now x).txFlit⟩)) ∧
      (¬verifies → retrains (.linkAccept p rx))) ∧
    (¬inKex ∨ po.keyPhase ≠ .offered ∨ po.kem = none → exec (.linkAccept p rx) s0 = .next s)) ∧
    (brought 3 →
    (∀ keys, inKex → po.newKey = some keys →
      (m.proof = proof keys (!s.w.initiator p.val) → ∃ x, exec (.linkDone p rx) s0 = .next x ∧ x.ctl = s.ctl ∧
        (now x).st = (if po.st = 5 ∨ s.w.mereReady p.val = true then 5 else 4) ∧ (now x).linkKey = some keys ∧ (now x).oldKey = po.linkKey ∧
        (now x).newKey = none ∧ (now x).exchanges = po.exchanges + 1 ∧ (now x).rxFirst = m.firstFlit ∧ (now x).keyPhase = .idle) ∧
      (m.proof ≠ proof keys (!s.w.initiator p.val) → retrains (.linkDone p rx))) ∧
    (¬inKex ∨ po.newKey = none → exec (.linkDone p rx) s0 = .next s)) ∧
    (let due := po.exchAt.toNat + po.intervalS.toNat * 1000000000 ≤ s.w.time.ftime.toNat ∨ po.keyFirst.toNat + 2 ^ 40 ≤ po.txFlit.toNat;
      (due → po.isActive = true → po.keyPhase = .idle → may → offers (.linkRekeyTimer p)) ∧
      (¬due ∨ po.isActive = false ∨ po.keyPhase ≠ .idle ∨ ¬unlocked → exec (.linkRekeyTimer p) s = .next s)) ∧
    (who.fn = 0 → s.fnOpen who = true → v.getLsbD 0 = true → po.isActive = true → po.keyPhase = .idle → may → offers (.linkRekey who p v)) ∧
    (who.fn = 0 → s.fnOpen who = true → v.getLsbD 0 = false → let i : BitVec 16 := v.extractLsb' 32 16
      exec (.linkRekey who p v) s = .next { s with w := s.w.updPort p.val fun y => { y with intervalS := if i.toNat < 60 then 60 else i } }) ∧
    (who.fn ≠ 0 ∨ s.fnOpen who = false → exec (.linkRekey who p v) s = .next s)

/-- R94, R205, R276, R285, R287, R355, R537: a packet that comes in order is refused with 0x46 where no program of its job is loaded, where
its range is not mapped or where its sluice is not declared. Otherwise a write is written, rejected with 0x68 in a current weight buffer,
or held, which its ACK says; a read request is answered from memory; a read reply fills its read, which writes its destination when the
last one is here. The flow passes on and answers. A duplicate and a held write are acknowledged, an early packet waits, and one too far ahead
is dropped.
The model's own choices it rests on: log entries 25, 29, 34, 79, 109, 110.
Each of these answers a next state under the conditions stated: `writePacket`, `readRequest`, `readReply`, `sluiceSignalMessage`,
`sluicePublication`, `commitDecision`, `stepAbort`, `codeDelta`, `redContributionPacket`, `redPartialPacket`, `redResultPacket`,
`redNoticePacket`, `redRetryPacket`, `redUnknownKind`. -/
def Obligations.PacketDeliveryResults : Prop :=
  ∀ (p : Fin 32) (rx : RxPkt) (ev : MemEvent) (q : Fin 8) (s : State) (w0 : Work),
    let k := rx.pkt
    let key := pktFlowIn k q
    let f := s.w.recvFlow key
    let a := k.addr.toNat
    let n := k.payload.length
    let m := leAt k.payload 4 4
    let ends := fun (i : Instr) (x : Work) (st : Byte) => exec i s = .next { s with w := (x.answers q k st).settleHold }
    let rows : List (Instr × Nat) := [(.writePacket p rx ev, 1), (.readRequest p rx ev, 2), (.readReply p rx, 3), (.sluiceSignalMessage p rx, 6),
      (.sluicePublication p rx, 7), (.stepAbort p rx, 0x0B), (.codeDelta p rx, 0x0C), (.commitDecision 0 0 (some (p, rx)), 0x0E),
      (.redContributionPacket p ⟨rx, ev⟩, 0x10), (.redPartialPacket p ⟨rx, ev⟩, 0x11), (.redResultPacket p ⟨rx, ev⟩, 0x12), (.redNoticePacket p ⟨rx, ev⟩, 0x13),
      (.redRetryPacket p ⟨rx, ev⟩, 0x14), (.redUnknownKind p rx, 0x15)]
    (s.w.InOrder p rx q w0 → s.w.jobLoaded q k.job = false → ∀ r, r ∈ rows → k.kind.toNat = r.2 → ends r.1 w0 0x46) ∧
    (s.w.InOrder p rx q w0 → s.w.jobLoaded q k.job = true →
      (k.kind = 0x01 →
        (s.w.mapped q a n = false → ends (.writePacket p rx ev) w0 0x46) ∧
        (s.w.mapped q a n = true → s.w.writeRole q a n = .current → ends (.writePacket p rx ev) w0 0x68) ∧
        (s.w.mapped q a n = true → s.w.writeRole q a n ≠ .current → s.w.mustHold q a n = false →
          let x := w0.hbmWrite q a k.payload ev
          ends (.writePacket p rx ev) x.2 (if x.1 = 0 then 0 else if x.1 = 0x31 then 0x31 else 0x46)) ∧
        (s.w.mapped q a n = true → s.w.writeRole q a n ≠ .current → s.w.mustHold q a n = true →
          let y := w0.setRecv key { f with up := p, heldWrite := some (p, k), nakDue := false, delivered := 0 }
          let z : Work := { y with heldWrites := y.heldWrites ++ [⟨q, p, k⟩] }
          exec (.writePacket p rx ev) s = .next { s with
            w := (z.sendLoose q { mkPkt k.src 0 0x04 0 [] with bestEffort := k.bestEffort, seq := k.seq, held := true } none).settleHold })) ∧
      (k.kind = 0x02 → s.w.mapped q a m = false → ends (.readRequest p rx ev) w0 0x46) ∧
      (k.kind = 0x02 → s.w.mapped q a m = true → 0 < m → m ≤ 4096 →
        let x := w0.hbmRead q a m ev
        ends (.readRequest p rx ev) (x.2.sendPkt q { mkPkt k.src k.job 0x03 (BitVec.ofNat 64 (leAt k.payload 0 4))
            (if x.1.code ≠ 0 then [] else x.1.bytes) with bestEffort := k.bestEffort, slot := k.slot, status := x.1.code }
          .device (w0.sliceOfAddr q a) none) 0) ∧
      (k.kind = 0x03 → ∀ r, (s.w.fab.reads.find? fun r => decide (r.tag = k.addr.setWidth 32 ∧ r.dev = k.src)) = some r →
        (k.status ≠ 0 → ends (.readReply p rx) (w0.remoteDone r.c r.id k.status) 0) ∧
        (k.status = 0 → a / 2 ^ 32 % 2 ^ 24 ≠ r.data.length → ends (.readReply p rx) w0 0) ∧
        (k.status = 0 → a / 2 ^ 32 % 2 ^ 24 = r.data.length → r.data.length + n < r.bytes →
          let reads := w0.fab.reads.map fun (y : ReadReq) =>
            if y.tag = r.tag ∧ y.dev = r.dev then { y with data := r.data ++ k.payload } else y
          ends (.readReply p rx) { w0 with fab := { w0.fab with reads := reads } } 0) ∧
        (∀ x sp, k.status = 0 → a / 2 ^ 32 % 2 ^ 24 = r.data.length → r.bytes ≤ r.data.length + n → s.w.instr r.c r.id = some x →
          (s.w.ctx r.c).range x.vd r.bytes = .ok sp →
          let reads := w0.fab.reads.filter fun y => !decide (y.c = r.c ∧ y.id = r.id)
          let w1 : Work := { w0 with fab := { w0.fab with reads := reads } }
          ends (.readReply p rx) ((w1.spanWrite r.c sp ((r.data ++ k.payload).take r.bytes)).retire r.c x x.flag) 0)) ∧
      (k.kind = 0x03 → (s.w.fab.reads.find? fun r => decide (r.tag = k.addr.setWidth 32 ∧ r.dev = k.src)) = none → ends (.readReply p rx) w0 0)) ∧
    (k.kind = 0x01 → k.mcast = false → k.dest = s.w.time.address → ∀ w1, s.w.Comes p rx q w1 →
      let y := w1.setRecv key { f with up := p }
      let acked := w1.setRecv key { f with up := p, delivered := 0 }
      (k.seq.toNat < f.e.toNat ∨ (k.seq = f.e ∧ f.heldWrite.isSome = true) → exec (.writePacket p rx ev) s = .next { s with
        w := (acked.sendLoose q { mkPkt k.src 0 0x04 0 [] with
          bestEffort := k.bestEffort, seq := f.e, held := f.heldWrite.isSome } none).settleHold }) ∧
      (f.e.toNat < k.seq.toNat → k.seq.toNat < f.e.toNat + 4096 → (∀ x, x ∈ f.early → x.pkt.seq ≠ k.seq) → y.reorderRoom p k = true →
        let far := (s.w.port p.val).longHaul
        exec (.writePacket p rx ev) s = .next { s with
          w := (((if far = true then w1.unhand else w1).setRecv key
            { f with up := p, early := f.early ++ [⟨p, k, if far = true then w1.fab.hold else none⟩], nakDue := f.heldWrite.isNone })).settleHold }) ∧
      (f.e.toNat + 4096 ≤ k.seq.toNat ∨ (f.e.toNat < k.seq.toNat ∧ y.reorderRoom p k = false) →
        exec (.writePacket p rx ev) s = .next { s with w := y.settleHold }))

/-- R272, R276, R281, R285, R286, R288, R364: at a flow's sender an ACK releases what it accepts, and a NAK or the timer sends what is
retained again, eight times at most, after which it is lost with 0x45 and the flow is reset; at its destination the flow acknowledges at
the tick, names what is missing, and takes a reset. A packet for another device leaves by its route, and one that fails its tag, or comes by a
port that is not ACTIVE, is dropped and counted; a scheduled packet leaves in its window when it fits. The class of an ACK on the link is the model's choice (log
entry 33).
The model's own choices it rests on: log entries 15, 21, 33, 35, 81, 113.
Each of these answers a next state under the conditions stated: `packetForward`, `scheduledWindowSend`, `ackPacket`, `flowNakPacket`,
`flowAckEmit`, `flowNakEmit`, `flowTimeout`, `flowReset`. -/
def Obligations.FlowAndForwardResults : Prop :=
  ∀ (p : Fin 32) (slot : Fin 64) (rx : RxPkt) (ev : MemEvent) (fk : FlowKey) (q : Fin 8) (s : State) (w1 : Work),
    let sets := fun (i : Instr) (x : Work) => exec i s = .next { s with w := x }
    let settled := fun (i : Instr) (x : Work) => sets i x.settleHold
    let k := rx.pkt
    let key := ackKey k q
    let fo := s.w.sendFlow key
    let po := s.w.port p.val
    let below := fun (r : Retained) => if k.status = 0 then decide (r.pkt.seq.toNat < k.seq.toNat) else decide (r.pkt.seq + 1 = k.seq)
    let gone := fo.retained.filter below
    let again := fun (w : Work) (x : FlowKey) =>
      let l := (w.sendFlow x).retained
      let v := w.setSend x { w.sendFlow x with resends := (w.sendFlow x).resends + 1 }
      let lost := x.mcast = false ∧ x.peer ≠ w.time.address ∧ (w.route x.q x.peer).valid = false
      l.foldl (fun (y : Work) r => y.launch x.q { r.pkt with retx := true } r.port)
        (if lost then l.foldl (fun (y : Work) r => match r.owner, r.port with | .instr c id, none => y.remoteDone c id 0x41 | _, _ => y) v else v)
    let fails := fun (w : Work) (x : FlowKey) =>
      let y := w.sendFlow x
      let reset := { mkPkt x.peer ((y.retained.head?.map fun r => r.pkt.job).getD 0) 0x09 0 [] with bestEffort := x.bestEffort, seq := y.next }
      let lost := (y.retained.foldl (fun (v : Work) r => v.settle x.q r 0x45)
        (w.setSend x { y with retained := [], resends := 0, held := false })).sendLoose x.q reset none
      (lost.jobsOf x.q).foldl (fun v j => match v.job x.q j with
        | some b => if v.isHome2 b = true ∧ v.homeOf b = x.peer then v.updCommit x.q j fun c => { c with homeLost := true } else v
        | none => v) lost
    let repeats := fun (ends : Work → Prop) (w : Work) (x : FlowKey) =>
      ((w.sendFlow x).retained = [] → ends w) ∧
      ((w.sendFlow x).retained ≠ [] → (w.sendFlow x).resends < 8 → ends (again w x)) ∧
      ((w.sendFlow x).retained ≠ [] → 8 ≤ (w.sendFlow x).resends → x.mcast = false → ends (fails w x))
    (k.kind = 0x04 → k.mcast = false → k.dest = s.w.time.address → s.w.Comes p rx q w1 →
      settled (.ackPacket p rx) (gone.foldl (fun (y : Work) r => y.settle q r k.status) (w1.setSend key { fo with
        held := k.held, retained := fo.retained.filter fun r => !below r, resends := if gone = [] then fo.resends else 0 }))) ∧
    (k.kind = 0x05 → k.dest = s.w.time.address → s.w.Comes p rx q w1 → repeats (settled (.flowNakPacket p rx)) w1 key) ∧
    (let fs := s.w.sendFlow fk;
      (fs.held = true → exec (.flowTimeout fk) s = .next s) ∧ (fs.held = false → repeats (sets (.flowTimeout fk)) s.w fk)) ∧
    (let fr := s.w.recvFlow fk;
      (fr.delivered = 0 → exec (.flowAckEmit fk) s = .next s) ∧ (fr.nakDue = false → exec (.flowNakEmit fk) s = .next s) ∧
      (fk.mcast = false → fr.delivered ≠ 0 → sets (.flowAckEmit fk) ((s.w.setRecv fk { fr with delivered := 0 }).sendLoose fk.q
        { mkPkt fk.peer 0 0x04 0 [] with bestEffort := fk.bestEffort, seq := fr.e, held := fr.heldWrite.isSome } none)) ∧
      (fk.mcast = false → fr.nakDue = true → sets (.flowNakEmit fk) ((s.w.setRecv fk { fr with nakDue := false }).sendLoose fk.q
        { mkPkt fk.peer 0 0x05 0 [] with bestEffort := fk.bestEffort, seq := fr.e } none))) ∧
    (k.kind = 0x09 → k.mcast = false → k.dest = s.w.time.address → s.w.red.ctxs = [] → s.w.Comes p rx q w1 →
      let fr := s.w.recvFlow (pktFlowIn k q)
      let w2 := ((fr.early.filterMap fun x => x.hold).foldl Work.giveBack w1).setRecv (pktFlowIn k q) { fr with e := k.seq, early := [], nakDue := false, heldWrite := none, delivered := 0 }
      let still := w2.heldWrites.filter fun (h : HeldWrite) => !decide (h.q = q ∧ fr.heldWrite = some (h.port, h.pkt))
      settled (.flowReset p rx) { w2 with heldWrites := still }) ∧
    (k.mcast = false → k.dest = s.w.time.address → exec (.packetForward p rx ev) s = .next s) ∧
    (po.isActive = false → po.assigned = false → exec (.packetForward p rx ev) s = .next s) ∧
    (k.mcast = true ∨ k.dest ≠ s.w.time.address → (po.isActive = true ∧ s.w.tagOk p.val rx = false) ∨ (po.isActive = false ∧ po.assigned = true) →
      let y := (if po.isActive then (s.w.takeRoom p rx).settleHold else s.w).updPort p.val fun x => { x with authFails := satAdd x.authFails 1 }
      let grace := ∃ e, po.graceEnd = some e ∧ s.w.time.ftime.toNat < e.toNat
      (grace → exec (.packetForward p rx ev) s = .next { s with
        w := y, ctl := { s.ctl with scrub := { s.ctl.scrub with graceDrops := satAdd s.ctl.scrub.graceDrops 1 } } }) ∧
      (¬grace → sets (.packetForward p rx ev) ((y.logEv (portUnit p.val) 0x04FF 4 (partByte po.part) p.val).updPart po.part fun x =>
        { x with tagFails := satAdd x.tagFails 1 }))) ∧
    (po.isActive = true → po.assigned = true → k.mcast = false → k.dest ≠ s.w.time.address → s.w.tagOk p.val rx = true →
      let y := (s.w.takeRoom p rx).updPort p.val fun x => x.noteRx rx
      let k1 := { k with hops := k.hops + 1 }
      (po.cuts rx = true → settled (.packetForward p rx ev) y) ∧
      (po.cuts rx = false → 7 ≤ k.hops.toNat → ∃ n, settled (.packetForward p rx ev) (y.logEv (unitId 2 0 0xFF) 0x04FF 1 (partByte po.part) n)) ∧
      (po.cuts rx = false → k.hops.toNat < 7 → (y.route po.part k.dest).valid = false → settled (.packetForward p rx ev) y) ∧
      (po.cuts rx = false → k.hops.toNat < 7 → (y.route po.part k.dest).valid = true →
        ∀ o, y.choosePort po.part k.dest (!Pkt.scheduled k) (k.hops + 1).toNat = o →
          settled (.packetForward p rx ev) (match o with
            | some n => y.unhand.transmit (portFin n) ⟨k1, y.fab.hold⟩
            | none => { y with fab := { y.fab with noRoute := y.fab.noRoute + 1 } }))) ∧
    (po.window s.w.frame slot.val = none → exec (.scheduledWindowSend p slot) s = .next s) ∧
    (∀ start len, po.window s.w.frame slot.val = some (start, len) →
      let w := s.w.toWindow p start
      let passed := (w.port p.val).flitsIn (w.time.ftime.toNat % w.time.periodNs) - start
      let gone := max (po.windowUsed.get 0 slot.val) passed
      let rest := fun (v : Work) (n : Nat) => (List.range n).foldl (fun (y : Work) _ => y.sendFlit p 1 0 31 [])
        ((v.flushTail p).updPort p.val fun y => { y with windowUsed := y.windowUsed.set 0 slot.val len })
      (po.isActive = false ∨ len ≤ gone → exec (.scheduledWindowSend p slot) s = .next s) ∧
      (po.isActive = true → gone < len → po.slotQ.get [] slot.val = [] ∨ (s.w.part po.part).paused = true →
        sets (.scheduledWindowSend p slot) (rest w (len - gone))) ∧
      (∀ x l, po.slotQ.get [] slot.val = x :: l → (s.w.part po.part).paused = false → po.isActive = true → gone < len →
        let fits := gone + po.charge x.pkt ≤ len ∧ po.replayRoom x.pkt = true
        (fits → sets (.scheduledWindowSend p slot) (((w.updPort p.val fun y => { y with
          slotQ := y.slotQ.set [] slot.val l, windowUsed := y.windowUsed.set 0 slot.val (gone + po.charge x.pkt)
          misses := if gone + po.charge x.pkt = len ∧ l ≠ [] then satAdd y.misses 1 else y.misses }).putPacket p x.pkt).giveRoom
            x.hold)) ∧
        (¬fits → sets (.scheduledWindowSend p slot)
          (rest (w.updPort p.val fun y => { y with misses := satAdd y.misses 1 }) (len - gone)))))

/-- R92-R94, R414-R418, R421, R422, R536: a sluice message takes effect at the sluice's home, a publication at the others, where the highest
FRAME stands and an outcome is learned. The deciding home decides a step once: COMMITTED when the count reaches the target, FAILED by an
abort. A decision is held by HOME2; an abort of a later step is kept. A code delta enters the previous parity, and a contribution the chunk
of its rebuild; a survivor sends its symbol times its factor. The layout of ADDR in the last two is the model's choice (log entry 31).
The model's own choices it rests on: log entries 30, 31, 77.
Each of these answers a next state under the conditions stated: `sluiceSignalMessage`, `sluicePublication`, `commitDecision`, `stepAbort`,
`codeDelta`, `rebuildContribution`. -/
def Obligations.SluiceMessageAndDecisionResults : Prop :=
  ∀ (p : Fin 32) (rx : RxPkt) (q : Fin 8) (job : BitVec 16) (slot : Fin 4) (s : State) (w0 : Work),
    let k := rx.pkt
    let b := k.payload
    let i := k.addr.toNat % 2 ^ 14
    let g : BitVec 16 := BitVec.ofNat 16 (leAt b 2 2)
    let n : BitVec 32 := BitVec.ofNat 32 (leAt b 4 4)
    let sl := s.w.sluice i
    let sets := fun (c : Instr) (x : Work) => exec c s = .next { s with w := x }
    let ends := fun (c : Instr) (x : Work) (st : Byte) => sets c (x.answers q k st).settleHold
    let publish := fun (w : Work) (r : BitVec 16) (j : Job) (d : Decision) =>
      let y := match j.commitSluice with
        | some m => w.updSluice m fun z => { z with changed := true }
        | none => w
      if (w.commit q r).learned = none ∧ d.step = j.step then
        y.updCommit q r fun c => { c with learned := some d, cause := if d.committed then c.cause else d.cause }
      else y
    let decide_ := fun (w : Work) (r : BitVec 16) (j : Job) (ok : Bool) (cause : Byte) =>
      let gen : BitVec 16 := match j.commitSluice with
        | some m => (w.sluice m).gen
        | none => 0
      let d : Decision := ⟨j.step, gen, ok, cause⟩
      let y := w.updCommit q r fun c => { c with decided := some d }
      if w.home2Of j = none ∨ (w.commit q r).alone = true ∨ (w.commit q r).takenOver = true then publish y r j d else y
    let cs := s.w.commit q job
    let kc := s.w.commit q k.job
    (s.w.InOrder p rx q w0 → s.w.jobLoaded q k.job = true →
      (k.kind = 0x06 → s.w.declaredIn q i = false → ends (.sluiceSignalMessage p rx) w0 0x46) ∧
      (k.kind = 0x07 → s.w.declaredIn q i = false → ends (.sluicePublication p rx) w0 0x46) ∧
      (k.kind = 0x0E → s.w.declaredIn q i = false → ∀ q1 job1, ends (.commitDecision q1 job1 (some (p, rx))) w0 0x46) ∧
      (k.kind = 0x06 → s.w.declaredIn q i = true → s.w.remoteSluice i = false →
        (leAt b 0 1 = 1 → ends (.sluiceSignalMessage p rx) (w0.updSluice i fun y => { y with
          count := 0, target := n, gen := g, changed := y.changed || decide (y.count ≠ 0 ∨ y.target ≠ n ∨ y.gen ≠ g)
          rearms := if reached32 y.count y.target then y.rearms else Min.min (y.rearms + 1) 65535 }) 0) ∧
        (leAt b 0 1 ≠ 1 → sl.gen ≠ g → s.w.commitJobs i = [] →
          ends (.sluiceSignalMessage p rx) (w0.updSluice i fun y => { y with discards := Min.min (y.discards + 1) 65535 }) 0) ∧
        (leAt b 0 1 ≠ 1 → sl.gen = g → s.w.commitJobs i = [] →
          ends (.sluiceSignalMessage p rx) (w0.updSluice i fun y => { y with count := y.count + n, changed := y.changed || decide (n ≠ 0) }) 0) ∧
        (∀ j, leAt b 0 1 ≠ 1 → sl.gen = g → s.w.commitJobs i = [(q, job)] → s.w.job q job = some j → s.w.decides q job j = true →
          let y := w0.updSluice i fun y => { y with count := y.count + n, changed := y.changed || decide (n ≠ 0) }
          let z := if cs.firstSignal.isNone then y.updCommit q job fun c => { c with firstSignal := some y.frame } else y
          ends (.sluiceSignalMessage p rx)
            (if reached32 (sl.count + n) sl.target = true ∧ cs.decided = none then decide_ z job j true 0 else z) 0)) ∧
      (k.kind = 0x07 → s.w.declaredIn q i = true → ∀ j, s.w.job q k.job = some j →
        let y := if sl.pubFrame.toNat ≤ k.frame.toNat ∧ s.w.remoteSluice i = true then w0.updSluice i fun x => { x with
          count := BitVec.ofNat 32 (leAt b 0 4), target := n, gen := BitVec.ofNat 16 (leAt b 8 2), pubFrame := k.frame } else w0
        let out := leAt b 10 1 % 4
        let d : Decision := ⟨BitVec.ofNat 64 (leAt b 16 8), BitVec.ofNat 16 (leAt b 8 2), decide (out = 1), BitVec.ofNat 8 (leAt b 11 1)⟩
        ends (.sluicePublication p rx)
          (if (out = 1 ∨ out = 2) ∧ j.commitSluice = some i ∧ kc.learned = none ∧ d.step = j.step then
            y.updCommit q k.job fun c => { c with learned := some d, cause := if out = 1 then c.cause else d.cause } else y) 0) ∧
      (∀ j, k.kind = 0x06 → s.w.declaredIn q i = true → s.w.remoteSluice i = true → leAt b 0 1 ≠ 1 → s.w.job q k.job = some j →
        s.w.isHome2 j = true → j.commitSluice = some i → kc.takenOver = false →
        ends (.sluiceSignalMessage p rx) (w0.updCommit q k.job fun c => { c with counts := c.counts.upd 0 g.toNat (· + n.toNat) }) 0) ∧
      (k.kind = 0x0E → s.w.declaredIn q i = true → ∀ q1 job1,
        let d : Decision := ⟨BitVec.ofNat 64 (leAt b 0 8), BitVec.ofNat 16 (leAt b 8 2), decide (leAt b 10 1 = 1), BitVec.ofNat 8 (leAt b 11 1)⟩
        ends (.commitDecision q1 job1 (some (p, rx))) (w0.updCommit q k.job fun c => { c with heldDecision := some d }) 0) ∧
      (k.kind = 0x0B → leAt b 9 1 % 2 = 0 → ∀ j, s.w.job q k.job = some j →
        let step : Word := BitVec.ofNat 64 (leAt b 0 8)
        let cause : Byte := BitVec.ofNat 8 (leAt b 8 1)
        let mine := s.w.decides q k.job j = true ∧ step = j.step
        (mine → kc.decided ≠ none → ends (.stepAbort p rx) w0 0) ∧
        (mine → kc.decided = none → ends (.stepAbort p rx) (decide_ w0 k.job j false cause) 0) ∧
        (¬mine → step.toNat < j.step.toNat → ends (.stepAbort p rx) w0 0) ∧
        (¬mine → j.step.toNat ≤ step.toNat → ends (.stepAbort p rx) (w0.updCommit q k.job fun c => { c with
          aborts := if c.aborts.any (·.1 == step) then c.aborts else (step, cause) :: c.aborts }) 0)) ∧
      (k.kind = 0x0C → ∀ j r e, s.w.job q k.job = some j → j.resil = some r → s.w.codeEntries q r = [e] →
        let off := k.addr.toNat % 2 ^ 48
        let cur := if j.buf then e.parity1 else e.parity0
        let prev := if j.buf then e.parity0 else e.parity1
        let role := e.members.idxOf k.src
        let mine := e.group = k.addr.toNat / 2 ^ 48 ∧ r.codeK ≤ e.role ∧ role < r.codeK
        let y := if ∃ x, x ∈ kc.deltas ∧ x.1 < 32 then (0, w0) else w0.hbmWrite q prev (w0.peek q cur r.shardBytes) .ok
        let z := y.2.hbmWrite q (prev + off) (((y.2.peek q (prev + off) b.length).zip b).map fun x => x.1 ^^^ x.2) .ok
        (mine → y.1 = 0 → z.1 = 0 →
          ends (.codeDelta p rx) (z.2.updCommit q k.job fun c => { c with deltas := c.deltas.upd 0 role (· + b.length) }) 0) ∧
        (mine → y.1 ≠ 0 ∨ z.1 ≠ 0 → ends (.codeDelta p rx) z.2 0) ∧
        (¬mine → ends (.codeDelta p rx) w0 0)) ∧
      (k.kind = 0x0D →
        (s.w.rebuildFor q k = none → ends (.rebuildContribution p (.arrived rx) slot) w0 0) ∧
        (s.w.rebuildFor q k = some slot.val → ends (.rebuildContribution p (.arrived rx) slot) (w0.updRebuild slot.val fun x =>
          let off := k.addr.toNat % 2 ^ 48
          { x with chunk := x.chunk.writeN off (((x.chunk.readN off b.length).zip b).map fun y => y.1 ^^^ y.2) }) 0))) ∧
    (∀ (group dest : BitVec 16) (symbol : Byte) (lost : BitVec 32) (chunk : Nat) j r e, s.w.job q job = some j → j.resil = some r →
      s.w.codeEntries q r = [e] →
      let due : Instr := .rebuildContribution p (.due q job group dest symbol lost chunk) slot
      let by_ := survivorsOf r.codeK r.codeM lost
      let c := (decodeFactors r.codeK r.codeM by_ symbol.toNat).getD (by_.idxOf e.role) 0
      let mine := if e.role < r.codeK then s.w.shard q j j.buf else s.w.peek q (if j.buf then e.parity1 else e.parity0) r.shardBytes
      let off := chunk * chunkBytes
      (e.group = group.toNat → e.role ∈ by_ → sets due
        ((rangePackets (((mine.drop off).take chunkBytes).map fun d => BitVec.ofNat 8 (gfMul c d.toNat))).foldl (fun w y =>
          w.sendPkt q (mkPkt dest job 0x0D (BitVec.ofNat 64 (group.toNat * 2 ^ 48 + off + y.1)) y.2) .device 0 none) s.w)) ∧
      (e.group ≠ group.toNat ∨ e.role ∉ by_ → sets due s.w))

/-- R58-R60, R415, R416, R418, R419, R536: the home sends its decision to another second home before it publishes, and fails a step at the
deadline; the second home takes over from a lost home. A commit advances the step, swaps the buffers and updates every block's exponent; a
rollback keeps them, and the contexts start again from their entry, or at the third of a step stop with 0x61. PAUSED until the restart is the model's choice (log entry 32).
The model's own choices it rests on: log entries 6, 30, 32, 107, 127, 130.
Each of these answers a next state under the conditions stated: `commitDecision`, `commitDeadlineExpiry`, `home2Takeover`,
`stepCommitApply`, `stepRollback`, `contextRestart`. -/
def Obligations.StepOutcomeResults : Prop :=
  ∀ (q : Fin 8) (job : BitVec 16) (s : State),
    let sets := fun (c : Instr) (x : Work) => exec c s = .next { s with w := x }
    let publish := fun (w : Work) (r : BitVec 16) (j : Job) (d : Decision) =>
      let y := match j.commitSluice with
        | some m => w.updSluice m fun z => { z with changed := true }
        | none => w
      if (w.commit q r).learned = none ∧ d.step = j.step then
        y.updCommit q r fun c => { c with learned := some d, cause := if d.committed then c.cause else d.cause }
      else y
    let decide_ := fun (w : Work) (r : BitVec 16) (j : Job) (ok : Bool) (cause : Byte) =>
      let gen : BitVec 16 := match j.commitSluice with
        | some m => (w.sluice m).gen
        | none => 0
      let d : Decision := ⟨j.step, gen, ok, cause⟩
      let y := w.updCommit q r fun c => { c with decided := some d }
      if w.home2Of j = none ∨ (w.commit q r).alone = true ∨ (w.commit q r).takenOver = true then publish y r j d else y
    let cs := s.w.commit q job
    (∀ j, s.w.job q job = some j →
      (∀ d h2, cs.decided = some d → s.w.home2Of j = some h2 → s.w.homeOf j = s.w.time.address →
        let body := leBytes 8 d.step.toNat ++ leBytes 2 d.gen.toNat ++ [if d.committed then 1 else 2, d.cause] ++ List.replicate 4 0
        (cs.sentToHome2 = true ∨ cs.alone = true ∨ cs.learned.isSome = true → exec (.commitDecision q job none) s = .next s) ∧
        (cs.sentToHome2 = false → cs.alone = false → cs.learned = none → sets (.commitDecision q job none)
          ((s.w.updCommit q job fun c => { c with sentToHome2 := true }).sendPkt q
            (mkPkt h2 job 0x0E (BitVec.ofNat 64 (j.commitSluice.getD 0)) body) .device 0 none))) ∧
      (cs.decided = none → exec (.commitDecision q job none) s = .next s) ∧
      (∀ r f, j.resil = some r → cs.firstSignal = some f →
        let late := s.w.decides q job j = true ∧ cs.decided = none ∧ f + r.deadline ≤ s.w.frame
        (late → sets (.commitDeadlineExpiry q job) (decide_ s.w job j false 0x65)) ∧
        (¬late → exec (.commitDeadlineExpiry q job) s = .next s)) ∧
      (let takes := s.w.isHome2 j = true ∧ cs.homeLost = true ∧ cs.takenOver = false;
        let y := s.w.updCommit q job fun c => { c with takenOver := true, firstSignal := some s.w.frame }
        (¬takes → exec (.home2Takeover q job) s = .next s) ∧
        (∀ d, takes → cs.heldDecision = some d →
          sets (.home2Takeover q job) (publish (y.updCommit q job fun c => { c with decided := some d }) job j d)) ∧
        (∀ a, takes → cs.heldDecision = none → cs.decided = none → (cs.aborts.find? fun a => a.1 == j.step) = some a →
          sets (.home2Takeover q job) (decide_ y job j false a.2)) ∧
        (∀ m, takes → cs.heldDecision = none → cs.decided = none → (cs.aborts.find? fun a => a.1 == j.step) = none →
          j.commitSluice = some m →
          let c : BitVec 32 := BitVec.ofNat 32 (cs.counts.get 0 (s.w.sluice m).gen.toNat)
          let z := y.updSluice m fun x => { x with count := c }
          sets (.home2Takeover q job) (if cs.counts.get 0 (s.w.sluice m).gen.toNat ≠ 0 ∧ reached32 c (s.w.sluice m).target = true then
            decide_ z job j true 0 else z))) ∧
      (∀ d, cs.learned = some d →
        (d.committed = false → exec (.stepCommitApply q job) s = .next s) ∧ (d.committed = true → exec (.stepRollback q job) s = .next s) ∧
        (d.committed = true → ∃ t, exec (.stepCommitApply q job) s = .next t ∧ t.ctl = s.ctl ∧
          t.w.job q job = some { j with step := j.step + 1, buf := !j.buf } ∧ (t.w.commit q job).lastCommitted = j.step ∧
          ((∀ x y, x ∈ s.w.scale → y ∈ s.w.scale → x.1 = y.1 → x = y) → ∀ tn e, s.w.entry q tn = some e → e.job = job →
            let pin := e.pendingPin.getD e.pinned
            t.w.entry q tn = some { e with pinned := pin, pendingPin := none, blocks :=
              (e.blocks.map fun x => (x.1, (x.2.commit pin e.pendingPin.isSome).1)).filter fun x => decide (x.2 ≠ .zero) })) ∧
        (d.committed = false → ∃ t, exec (.stepRollback q job) s = .next t ∧ t.ctl = s.ctl ∧
          (∃ x, t.w.job q job = some x ∧ x.step = j.step ∧ x.buf = j.buf) ∧
          (t.w.commit q job).attempt = cs.attempt + 1 ∧ (t.w.part q).rollbacks = satAdd (s.w.part q).rollbacks 1 ∧
          (t.w.commit q job).cause = d.cause ∧ (t.w.commit q job).stopped = decide (3 ≤ cs.attempt + 1) ∧
          (cs.attempt + 1 < 3 → ∀ c, c ∈ s.w.ctxsOf q job →
            (t.w.ctx c).st = .paused ∧ (t.w.ctx c).restart = true ∧
            (∀ x, x ∈ (t.w.ctx c).infl → x ∈ (s.w.ctx c).cutInstructions.infl) ∧
            (s.w.jobGroups q job = [] → (t.w.ctx c).infl = (s.w.ctx c).cutInstructions.infl)) ∧
          (3 ≤ cs.attempt + 1 → ∀ c, c ∈ s.w.ctxsOf q job → (t.w.ctx c).st = .faulted ∧ (t.w.ctx c).fault.code = 0x61))) ∧
      (cs.learned = none → exec (.stepCommitApply q job) s = .next s ∧ exec (.stepRollback q job) s = .next s) ∧
      (∀ f, cs.replayAt = some f → s.w.frame < f → exec (.contextRestart q job) s = .next s) ∧
      (∀ f, cs.replayAt = some f → f ≤ s.w.frame → ∃ t, exec (.contextRestart q job) s = .next t ∧ t.ctl = s.ctl ∧
        (t.w.commit q job).replayAt = none ∧ ∀ c, c ∈ s.w.ctxsOf q job → (s.w.ctx c).restart = true →
          let y := t.w.ctx c
          y.st = .running ∧ y.pc = (s.w.ctx c).decl.entryPc ∧ y.getS 1 = s.w.loadS1 c ∧ y.getS 2 = BitVec.ofNat 64 s.w.frame ∧
            y.getS 3 = (s.w.ctx c).decl.arg ∧ (∀ r, r ≠ 1 → r ≠ 2 → r ≠ 3 → y.getS r = 0) ∧ y.flags = [] ∧ y.lane = false ∧ y.mb = 0)) ∧
    ∀ (x : BlockSt) (pin fresh : Bool),
      let y := (x.commit pin fresh).1
      let run := if fresh then 0 else x.run
      y.ePrev = x.e ∧ y.written = false ∧ y.high = false ∧ y.sat = false ∧
      (pin = true → y.e = x.e) ∧
      (pin = false → x.sat = true → y.e = (if x.e = 127 then 127 else x.e + 1) ∧ y.run = 0) ∧
      (pin = false → x.sat = false → x.written = true → x.high = false → run = 63 → y.e = (if x.e = 0x80 then 0x80 else x.e - 1) ∧ y.run = 0) ∧
      (pin = false → x.sat = false → x.written = true → x.high = false → run ≠ 63 → y.e = x.e ∧ y.run = run + 1) ∧
      (pin = false → x.sat = false → x.written = true → x.high = true → y.e = x.e ∧ y.run = 0) ∧
      (pin = false → x.sat = false → x.written = false → y.e = x.e ∧ y.run = run)

/-- R309, R314-R317, R319-R322, R324, R326, R492: a reduction packet that comes in order waits for its bucket's open, is stale with another
generation, and is wrong by a port that its node does not use for it or with an unknown KIND. A contribution or partial joins its
node's inputs, and is dropped when the node has closed without it; a result chunk whose residue mismatches is left to be resent, another
is kept; a notice and a retry go down; a node closes with the inputs that have started. Elements are aligned to
units of 2^(E_b - 16) and added exactly.
The model's own choices it rests on: log entries 15, 26, 27, 28, 71.
Each of these answers a next state under the conditions stated: `redContributionPacket`, `redPartialPacket`, `redResultPacket`,
`redNoticePacket`, `redRetryPacket`, `redUnknownKind`, `redNodeClose`. -/
def Obligations.ReductionPacketResults : Prop :=
  ∀ (p : Fin 32) (rx : RxPkt) (ev : MemEvent) (q : Fin 8) (s : State) (w0 : Work),
    let k := rx.pkt
    let bucket : BitVec 16 := k.addr.setWidth 16
    let h := RedHdr.ofBytes k.payload
    let body := k.payload.drop 24
    let ends := fun (i : Instr) (x : Work) => exec i s = .next { s with w := ((x.redUnhold ev).answers q k 0).settleHold }
    let rows : List (Instr × Nat) := [(.redContributionPacket p ⟨rx, ev⟩, 0x10), (.redPartialPacket p ⟨rx, ev⟩, 0x11), (.redResultPacket p ⟨rx, ev⟩, 0x12),
      (.redNoticePacket p ⟨rx, ev⟩, 0x13), (.redRetryPacket p ⟨rx, ev⟩, 0x14)]
    let stale := fun (w : Work) (r : Fin 8) => w.updRedEv r fun e => { e with stale := satAdd e.stale 1 }
    let wrong := fun (w : Work) (r : Fin 8) (port : Nat) => w.logEv redUnit 0x0482 2 (partByte r) (k.kind.toNat + port * 2 ^ 8 +
      p.val * 2 ^ 16 + k.src.toNat * 2 ^ 24 + k.job.toNat * 2 ^ 40 + bucket.toNat * 2 ^ 56)
    let adds := fun (b : RedCtx) (x : RedInput) => { b with inputs := b.inputs.set none p.val (some x) }
    let puts := fun (b : RedCtx) => w0.setRed k.job bucket (some b)
    (s.w.InOrder p rx q w0 → s.w.jobLoaded q k.job = true →
      (0x15 ≤ k.kind.toNat → k.kind.toNat ≤ 0x1F → exec (.redUnknownKind p rx) s = .next { s with w := ((wrong w0 q 0).redUnhold.answers q k 0).settleHold }) ∧
      (∀ r, r ∈ rows → k.kind.toNat = r.2 → s.w.redCtx k.job bucket = none →
        let back := s.w.redRolledBack q k.job h.gen = true
        let bad := k.kind = 0x12 ∧ earlyResultOk k = false
        (back → ends r.1 (stale w0 q)) ∧
        (¬back → bad → exec r.1 s = .next { s with w := w0.settleHold }) ∧
        (¬back → ¬bad → ends r.1 { w0.unhand with red := { w0.red with early := w0.red.early ++ [⟨p, k, w0.fab.hold⟩] } })) ∧
      (∀ r b, r ∈ rows → k.kind.toNat = r.2 → s.w.redCtx k.job bucket = some b → h.gen ≠ b.gen → ends r.1 (stale w0 q)) ∧
      (∀ b, s.w.redCtx k.job bucket = some b → h.gen = b.gen →
        let up := b.node.root = false ∧ b.node.up.toNat = p.val
        (k.kind = 0x10 ∨ k.kind = 0x11 →
          let row : Instr := if k.kind = 0x10 then .redContributionPacket p ⟨rx, ev⟩ else .redPartialPacket p ⟨rx, ev⟩
          let count := if k.kind = 0x10 then 1 else h.count
          let old := (b.inputs.get none p.val).getD ⟨count, 0, []⟩
          let x := if h.failed then { old with failed := if h.code = 0 then 0x47 else h.code } else old
          let out := b.inclusion.isSome = true ∧ b.includes p.val = false
          let room := s.w.redRoom k.job bucket p.val h.chunk = true
          let late := b.desc.rules.getLsbD 0 = false
          (b.node.down.getLsbD p.val = false → ends row (wrong (stale w0 b.q) b.q 1)) ∧
          (b.node.down.getLsbD p.val = true → out → ¬late → ends row (puts b)) ∧
          (b.node.down.getLsbD p.val = true → ¬out → ¬room → ends row { w0.unhand with red := { w0.red with
            held := w0.red.held ++ [⟨p, k, w0.fab.hold⟩] } }) ∧
          (b.node.down.getLsbD p.val = true → out → late → b.dropped.contains p.val = true → ends row w0) ∧
          (b.node.down.getLsbD p.val = true → out → late → b.dropped.contains p.val = false →
            ends row (((puts { b with dropped := p.val :: b.dropped }).updRedEv b.q fun e => { e with dropped := satAdd e.dropped count }).logEv
              redUnit 0x0481 2 (partByte b.q) (k.job.toNat + bucket.toNat * 2 ^ 16 + k.src.toNat * 2 ^ 32 + count * 2 ^ 48))) ∧
          (b.node.down.getLsbD p.val = true → ¬out → room → k.kind = 0x11 → h.chunk < b.chunks →
            let els := (unpackCodes 64 256 body).map (elemOf 64)
            let y := { x with pieces := x.pieces.set none (2 * h.chunk + h.half.toNat) (some ⟨els, h.residue, h.nar, h.sat⟩) }
            ends row ((puts (adds b y)).redGo k.job bucket ev)) ∧
          (b.node.down.getLsbD p.val = true → ¬out → room → k.kind = 0x10 → h.chunk < b.chunks →
            let bl := bodyBlocks body
            let diff := (h.residue + 65535 - residue (bl.flatMap (·.2))) % 65535
            let p0 := b.alignHalf (2 * h.chunk) (bl.take 8)
            let first := x.pieces.set none (2 * h.chunk) (some { p0 with residue := (p0.residue + diff) % 65535 })
            let second := first.set none (2 * h.chunk + 1) (some (b.alignHalf (2 * h.chunk + 1) (bl.drop 8)))
            let y := { x with pieces := second }
            ends row ((puts (adds b y)).redGo k.job bucket ev)) ∧
          (b.node.down.getLsbD p.val = true → ¬out → room → b.chunks ≤ h.chunk → ends row ((puts (adds b x)).redGo k.job bucket ev))) ∧
        (k.kind = 0x12 → b.desc.toOwner = false →
          let wd := fmtBits b.fmt
          let codes := unpackCodes wd 512 (body.drop 16)
          let r : RedResult := { exps := body.take 16, codes, clamp := BitVec.ofNat 512 (leNat ((body.drop (16 + 64 * wd)).take 64)),
                                 nar := h.nar, sat := h.sat }
          let b1 := { b with results := b.results.set none h.chunk (some r), n := h.count, path := h.included }
          (¬up → ends (.redResultPacket p ⟨rx, ev⟩) (wrong (stale w0 b.q) b.q 1)) ∧
          (up → residue (codes.map (elemOf wd)) ≠ h.residue → exec (.redResultPacket p ⟨rx, ev⟩) s = .next { s with w := w0.settleHold }) ∧
          (up → residue (codes.map (elemOf wd)) = h.residue → b.chunks ≤ h.chunk ∨ b.ended = true → ends (.redResultPacket p ⟨rx, ev⟩) w0) ∧
          (up → residue (codes.map (elemOf wd)) = h.residue → h.chunk < b.chunks → b.ended = false →
            ends (.redResultPacket p ⟨rx, ev⟩) (((puts b1).redDownResults b1 k.job bucket h.included [(h.chunk, r)]).redMaybe k.job bucket ev)) ∧
          (up → residue (codes.map (elemOf wd)) = h.residue → h.chunk < b.chunks → b.ended = false → b.node.downs = [] →
            b.notice = none → b1.resultList.length < b.chunks → ends (.redResultPacket p ⟨rx, ev⟩) (puts b1))) ∧
        (k.kind = 0x12 → b.desc.toOwner = true →
          let wd := fmtBits b.fmt
          let codes := unpackCodes wd 512 (body.drop 16)
          let r : RedResult := { exps := body.take 16, codes, clamp := BitVec.ofNat 512 (leNat ((body.drop (16 + 64 * wd)).take 64)),
                                 nar := h.nar, sat := h.sat }
          let from_ := b.node.root = false ∧ b.desc.owner = s.w.time.address ∧ (b.root = none ∨ b.root = some k.src) ∧
            ∃ j f, s.w.job b.q k.job = some j ∧ j.fabric = some f ∧ k.src ∈ f.members
          (¬from_ → ends (.redResultPacket p ⟨rx, ev⟩) (wrong (stale w0 b.q) b.q 1)) ∧
          (from_ → residue (codes.map (elemOf wd)) ≠ h.residue → exec (.redResultPacket p ⟨rx, ev⟩) s = .next { s with w := w0.settleHold }) ∧
          (from_ → residue (codes.map (elemOf wd)) = h.residue → b.chunks ≤ h.chunk ∨ b.ended = true → ends (.redResultPacket p ⟨rx, ev⟩) w0) ∧
          (from_ → residue (codes.map (elemOf wd)) = h.residue → h.chunk < b.chunks → b.ended = false →
            ends (.redResultPacket p ⟨rx, ev⟩) ((puts { b with results := b.results.set none h.chunk (some r), n := h.count, path := h.included,
                                                                            root := some k.src }).redMaybe k.job bucket ev))) ∧
        (k.kind = 0x13 →
          let b1 := { b with notice := some ⟨h.included, h.failed, h.poisoned, h.code⟩, n := h.count }
          (¬up → ends (.redNoticePacket p ⟨rx, ev⟩) (wrong (stale w0 b.q) b.q 1)) ∧
          (up → b.ended = true → ends (.redNoticePacket p ⟨rx, ev⟩) w0) ∧
          (up → b.ended = false → ends (.redNoticePacket p ⟨rx, ev⟩)
            (((puts b1).redDownNotice b1 k.job bucket ⟨h.included, h.failed, h.poisoned, h.code⟩).redMaybe k.job bucket ev)) ∧
          (up → b.ended = false → b.node.downs = [] → h.failed = false → h.poisoned = false → b.desc.owner = s.w.time.address →
            b1.resultList.length < b.chunks → ends (.redNoticePacket p ⟨rx, ev⟩) (puts b1))) ∧
        (k.kind = 0x14 →
          let b1 := { b with attempts := b.attempts + 1 }
          let b2 := { b1 with sent := [], sums := [], phase := .forwarding, inputs := b.inputs.map fun e =>
            if e.1 = 32 then e else (e.1, e.2.map fun (x : RedInput) => { x with pieces := [] }) }
          (¬up → ends (.redRetryPacket p ⟨rx, ev⟩) (wrong (stale w0 b.q) b.q 1)) ∧
          (up → b.ended = true → ends (.redRetryPacket p ⟨rx, ev⟩) w0) ∧
          (up → b.ended = false → b.node.downs = [] → b.own = none → ends (.redRetryPacket p ⟨rx, ev⟩) (puts b1)) ∧
          (∀ o, up → b.ended = false → b.node.downs = [] → b.own = some o →
            ends (.redRetryPacket p ⟨rx, ev⟩) ((puts b1).redSendContrib b1 k.job bucket (w0.redSlice b.q) o)) ∧
          (up → b.ended = false → b.node.downs ≠ [] →
            ends (.redRetryPacket p ⟨rx, ev⟩) (((puts b2).redDownRetry b2 k.job bucket).redGo k.job bucket ev))))) ∧
    (∀ job id b, s.w.redCtx job id = some b →
      let all := 32 :: b.node.downs
      let inc := all.filter fun x => (b.inputs.get none x).isSome
      let last := max (b.base + b.desc.deadline - if b.node.root then 0 else b.node.lead.toNat) (b.base + 1)
      let closes := (b.node.root = true ∨ b.node.downs ≠ []) ∧ b.phase = .opened ∧ b.inclusion = none ∧ last ≤ s.w.frame
      (¬closes → exec (.redNodeClose job ⟨id, ev⟩) s = .next { s with w := s.w.redUnhold ev }) ∧
      (closes → exec (.redNodeClose job ⟨id, ev⟩) s = .next { s with w := ((s.w.setRed job id (some { b with
        inclusion := some inc, phase := .forwarding
        failCode := if b.failCode = 0 ∧ b.desc.rules.getLsbD 0 = true ∧ inc.length < all.length then 0x47 else b.failCode })).redGo job id ev).redUnhold ev })) ∧
    (∀ job id, s.w.redCtx job id = none → exec (.redNodeClose job ⟨id, ev⟩) s = .next { s with w := s.w.redUnhold ev }) ∧
    (∀ m e eb : Int, let kk := e - eb + 16
      let a := if 0 ≤ kk then m * 2 ^ kk.toNat else m / 2 ^ (-kk).toNat
      alignElem (some m) e eb = (some (if 2 ^ 47 - 1 < a then 2 ^ 47 - 1 else if a < -(2 ^ 47 - 1) then -(2 ^ 47 - 1) else a),
        decide (2 ^ 47 - 1 < a) || decide (a < -(2 ^ 47 - 1))) ∧ alignElem none e eb = (none, false)) ∧
    ∀ (x y : RedPiece), (x.add y).nar = x.nar ||| y.nar ∧ (x.add y).sat = x.sat ||| y.sat ∧
      ∀ (i : Nat) (a b : Option Int), x.elems[i]? = some a → y.elems[i]? = some b → (x.add y).elems[i]? = some (match a, b with
        | some u, some v => some (u + v)
        | _, _ => none)

/-- R323, R324: an adder's residue is the sum of its inputs' residues, so the root's check of a sum whose inputs all passed succeeds; a NaR
counts as 0 and takes the number that it masks out of the carried residue (log entry 26).
The model's own choices it rests on: log entry 26. -/
def Obligations.ResidueIsCarriedThroughSums : Prop :=
  ∀ (x y : RedPiece), x.elems.length = y.elems.length → residue x.elems = x.residue → residue y.elems = y.residue →
    residue (x.add y).elems = (x.add y).residue

/-- R11, R63, R82, R101, R102, R106, R110, R425: an opcode of the privileged range faults its context with 0x02, another that no
program may use with 0x01 in the queue of its group; a started instruction whose message ages out faults with 0x40, and so does the
sender of one that is on its way to a sluice (log entry 103); the ranges of the operand list for a context's next segment are read ahead into its cluster's 512 KiB, once, and its scale entries into the slice's
cache.
The model's own choices it rests on: log entries 37, 70, 103.
Each of these answers a next state under the conditions stated: `illegalOpcode`, `messageAgeOut`, `readAheadFill`. -/
def Obligations.TrapAndReadAheadResults : Prop :=
  ∀ (c : CtxId) (q : Queue) (op : Byte) (n : Nat) (s : State),
    let k := s.w.ctx c
    let o := op.toNat
    let group : BitVec 3 := if 0xF0 ≤ o then 7 else if o < 0x20 then 0 else if o < 0x40 then 1 else if o < 0x60 then 2
      else if o < 0xA0 then 3 else if o < 0xD0 then 4 else 0
    let faults := fun (i : Instr) (y : Ctx) (P : Work → Prop) => ∃ t, exec i s = .next t ∧ t.ctl = s.ctl ∧ t.pending = s.pending ∧
      (∀ e, e ≠ c → t.w.ctx e = s.w.ctx e) ∧ t.w.ctx c = { y.noteEnd s.w.time with st := .faulted, hold := .none, version := none } ∧ P t.w
    let started := k.infl.filter fun y => decide (y.op.queue = q) && decide (y.stat ≠ .queued)
    (s.w.ready c → 0xF0 ≤ o ∨ KOp.ofOpcode op = none → faults (.illegalOpcode c op) { k with
      dispatchPc := k.pc, fault := { code := if 0xF0 ≤ o then 0x02 else 0x01, queue := group, dispatchPc := BitVec.ofNat 24 k.pc,
                                     pc := BitVec.ofNat 24 k.pc, discarded := 0, detail := 0 } } fun _ => True) ∧
    (o < 0xF0 → KOp.ofOpcode op ≠ none → exec (.illegalOpcode c op) s = .next s) ∧
    (∀ x, q ≠ .C → started[n]? = some x → s.w.instr c x.id = some x → k.st = .running ∨ k.st = .waiting ∨ k.st = .paused →
      let behind := k.infl.filter fun y => decide (y.op.queue = x.op.queue ∧ x.id < y.id ∧ y.stat = .queued)
      let left := k.infl.filter fun y => !decide (y.op.queue = x.op.queue ∧ x.id < y.id ∧ y.stat = .queued) && decide (y.id ≠ x.id)
      faults (.messageAgeOut c q n) { k with
        fault := { code := 0x40, queue := queueCode x.op.queue, dispatchPc := BitVec.ofNat 24 k.dispatchPc, pc := BitVec.ofNat 24 x.pc,
                   discarded := behind.length, detail := 0 },
        infl := left }
        fun w => ∀ h, h ∈ w.writes ↔ h ∈ s.w.writes ∧ (h.ctx = c → ∃ y, y ∈ left ∧ y.id = h.id)) ∧
    (q ≠ .C → started[n]? = none → exec (.messageAgeOut c q n) s = .next s) ∧
    (∀ i m, (s.w.sluiceOps c)[n]? = some (i, m) → k.st = .running ∨ k.st = .waiting ∨ k.st = .paused →
      faults (.messageAgeOut c .C n) { k with
        fault := { code := 0x40, queue := 7, dispatchPc := BitVec.ofNat 24 k.dispatchPc, pc := BitVec.ofNat 24 k.dispatchPc,
                   discarded := 0, detail := 0 } }
        fun w => (w.sluice i).coming = (s.w.sluice i).coming.eraseIdx m) ∧
    ((s.w.sluiceOps c)[n]? = none → exec (.messageAgeOut c .C n) s = .next s) ∧
    (∀ seg ev, k.nextSegment = some seg →
      let l := k.ahead.filter fun e => decide (e.segment = seg - k.startFrame)
      let once := ∀ r, r ∈ s.w.readAhead → ¬(r.ctx = c ∧ r.segment = seg)
      (¬once → exec (.readAheadFill c ev) s = .next s) ∧
      (once → (∀ e, e ∈ l → e.scaleEntry = false ∧ s.w.mapped k.part e.addr e.bytes = true) →
        s.w.aheadUsed c + (l.map AheadEnt.bytes).sum ≤ 524288 → exec (.readAheadFill c .ok) s = .next { s with
          w := { s.w with readAhead := s.w.readAhead ++ l.map fun e => ⟨c, seg, k.part, e.addr, e.bytes⟩ } }) ∧
      (∀ e x, once → l = [e] → e.scaleEntry = true → s.w.entry k.part e.tensor = some x →
        let hit := (k.part.val, e.tensor)
        exec (.readAheadFill c ev) s = .next { s with w := s.w.updSlice c.slice.val fun z => { z with scale := { z.scale with
          cached := hit :: s.w.cacheFit 8191 (65536 - x.blockCount) (z.scale.cached.filter fun y => decide (y ≠ hit)) } } }) ∧
      (∀ e, once → l = [e] → e.scaleEntry = false → 524288 < s.w.aheadUsed c + e.bytes ∨ s.w.mapped k.part e.addr e.bytes = false →
        exec (.readAheadFill c ev) s = .next s)) ∧
    (∀ ev, k.nextSegment = none → exec (.readAheadFill c ev) s = .next s)

/-- The model's own rule of the queue, first in, first out (log entry 6): a step takes the command at the front and executes it with the
queue's rest; with an empty queue the block idles. -/
def Obligations.StepTakesTheFrontCommand : Prop :=
  (∀ (c : Instr) (rest : List Instr) (s : State), step { s with pending := c :: rest } = exec c { s with pending := rest }) ∧
  ∀ s : State, s.pending = [] → step s = .next s

/-- No command of the table stops the block, and none touches the commands that wait behind it. -/
def Obligations.EveryCommandAnswersAndLeavesTheQueue : Prop :=
  ∀ (c : Instr) (s : State), ∃ t, exec c s = .next t ∧ t.pending = s.pending

/-- R70, R106, R270, R352, R433, R435, R499: after reset every context is EMPTY with no fault recorded, every block of memory is
fresh, the power cap is 2,400 W, MAX_POINT is 0, the health weights and thresholds stand as the spec gives them, the limits
of the management registers hold, memory is in its canonical form, and no command waits. That every port is then DARK and that fresh
memory reads as zero bytes in State rest on log entries 1 to 3. -/
def Obligations.ResetState : Prop :=
  let s := State.reset
  (∀ c, (s.w.ctx c).st = .empty ∧ (s.w.ctx c).fault = ⟨0, 0, 0, 0, 0, 0⟩ ∧ (s.w.ctx c).infl = []) ∧
  (∀ b, (s.w.ctrWord b).isFresh = true) ∧ (∀ p, (s.w.port p).st = 0) ∧
  s.ctl.pwr.watts = 2400 ∧ s.ctl.pwr.maxPoint = 0 ∧ s.ctl.pwr.minMv = 0xFFFF ∧
  s.ctl.health.weights = [64, 64, 96, 128, 96, 128, 96] ∧ s.ctl.health.t1 = 128 ∧ s.ctl.health.t2 = 192 ∧
  s.LimitsInv ∧ s.w.hbm.wf = true ∧ s.pending = []

/-- R435, R486, R499: whatever command a step takes, the power cap stays within 1,200 to 2,400 W, MAX_POINT stays a clock point and the
health threshold T2 stays above T1. -/
def Obligations.LimitsAreKeptByEveryStep : Prop :=
  ∀ s t : State, s.LimitsInv → step s = .next t → t.LimitsInv

/-- R107, R110: every operation with every value of its operand fields is read back from its word, and a word that spells an operation
is that operation's word. -/
def Obligations.InstructionWordsRoundTrip : Prop :=
  (∀ (o : KOp) (f : Fields), decodeWord (instrWord o.opcode f) = some (o, f)) ∧
  ∀ (v : Word) (o : KOp) (f : Fields), decodeWord v = some (o, f) → instrWord o.opcode f = v
end

