-- ==== Sys2Proof/Laws/State.lean ====
section
/-! SUPPORT. What each update of the state leaves as it was, one lemma per field. -/

namespace Sys2Proof.Machine

@[simp] theorem State.onW_w (s : State) (f : Work → Work) : (s.onW f).w = f s.w := rfl
@[simp] theorem State.onW_ctl (s : State) (f : Work → Work) : (s.onW f).ctl = s.ctl := rfl
@[simp] theorem State.onW_pending (s : State) (f : Work → Work) : (s.onW f).pending = s.pending := rfl
@[simp] theorem State.onCtl_w (s : State) (f : Ctl → Ctl) : (s.onCtl f).w = s.w := rfl
@[simp] theorem State.onCtl_ctl (s : State) (f : Ctl → Ctl) : (s.onCtl f).ctl = f s.ctl := rfl
@[simp] theorem State.onCtl_pending (s : State) (f : Ctl → Ctl) : (s.onCtl f).pending = s.pending := rfl

@[simp] theorem Work.updCtx_time (w : Work) (c : CtxId) (f : Ctx → Ctx) : (w.updCtx c f).time = w.time := rfl
@[simp] theorem Work.updCtx_slices (w : Work) (c : CtxId) (f : Ctx → Ctx) : (w.updCtx c f).slices = w.slices := rfl
@[simp] theorem Work.updCtx_cores (w : Work) (c : CtxId) (f : Ctx → Ctx) : (w.updCtx c f).cores = w.cores := rfl
@[simp] theorem Work.updCtx_clusters (w : Work) (c : CtxId) (f : Ctx → Ctx) : (w.updCtx c f).clusters = w.clusters := rfl
@[simp] theorem Work.updCtx_sluices (w : Work) (c : CtxId) (f : Ctx → Ctx) : (w.updCtx c f).sluices = w.sluices := rfl
@[simp] theorem Work.updCtx_groups (w : Work) (c : CtxId) (f : Ctx → Ctx) : (w.updCtx c f).groups = w.groups := rfl
@[simp] theorem Work.updCtx_combineIns (w : Work) (c : CtxId) (f : Ctx → Ctx) : (w.updCtx c f).combineIns = w.combineIns := rfl
@[simp] theorem Work.updCtx_combineUses (w : Work) (c : CtxId) (f : Ctx → Ctx) : (w.updCtx c f).combineUses = w.combineUses := rfl
@[simp] theorem Work.updCtx_combineCounts (w : Work) (c : CtxId) (f : Ctx → Ctx) : (w.updCtx c f).combineCounts = w.combineCounts := rfl
@[simp] theorem Work.updCtx_failedUses (w : Work) (c : CtxId) (f : Ctx → Ctx) : (w.updCtx c f).failedUses = w.failedUses := rfl
@[simp] theorem Work.updCtx_scale (w : Work) (c : CtxId) (f : Ctx → Ctx) : (w.updCtx c f).scale = w.scale := rfl
@[simp] theorem Work.updCtx_jobs (w : Work) (c : CtxId) (f : Ctx → Ctx) : (w.updCtx c f).jobs = w.jobs := rfl
@[simp] theorem Work.updCtx_progs (w : Work) (c : CtxId) (f : Ctx → Ctx) : (w.updCtx c f).progs = w.progs := rfl
@[simp] theorem Work.updCtx_hbm (w : Work) (c : CtxId) (f : Ctx → Ctx) : (w.updCtx c f).hbm = w.hbm := rfl
@[simp] theorem Work.updCtx_tags (w : Work) (c : CtxId) (f : Ctx → Ctx) : (w.updCtx c f).tags = w.tags := rfl
@[simp] theorem Work.updCtx_ctr (w : Work) (c : CtxId) (f : Ctx → Ctx) : (w.updCtx c f).ctr = w.ctr := rfl
@[simp] theorem Work.updCtx_nodes (w : Work) (c : CtxId) (f : Ctx → Ctx) : (w.updCtx c f).nodes = w.nodes := rfl
@[simp] theorem Work.updCtx_lostPassed (w : Work) (c : CtxId) (f : Ctx → Ctx) : (w.updCtx c f).lostPassed = w.lostPassed := rfl
@[simp] theorem Work.updCtx_writes (w : Work) (c : CtxId) (f : Ctx → Ctx) : (w.updCtx c f).writes = w.writes := rfl
@[simp] theorem Work.updCtx_memStacks (w : Work) (c : CtxId) (f : Ctx → Ctx) : (w.updCtx c f).memStacks = w.memStacks := rfl
@[simp] theorem Work.updCtx_parts (w : Work) (c : CtxId) (f : Ctx → Ctx) : (w.updCtx c f).parts = w.parts := rfl
@[simp] theorem Work.updCtx_fab (w : Work) (c : CtxId) (f : Ctx → Ctx) : (w.updCtx c f).fab = w.fab := rfl
@[simp] theorem Work.updCtx_red (w : Work) (c : CtxId) (f : Ctx → Ctx) : (w.updCtx c f).red = w.red := rfl
@[simp] theorem Work.updCtx_commits (w : Work) (c : CtxId) (f : Ctx → Ctx) : (w.updCtx c f).commits = w.commits := rfl
@[simp] theorem Work.updCtx_rebuild (w : Work) (c : CtxId) (f : Ctx → Ctx) : (w.updCtx c f).rebuild = w.rebuild := rfl
@[simp] theorem Work.updCtx_heldWrites (w : Work) (c : CtxId) (f : Ctx → Ctx) : (w.updCtx c f).heldWrites = w.heldWrites := rfl
@[simp] theorem Work.updCtx_readAhead (w : Work) (c : CtxId) (f : Ctx → Ctx) : (w.updCtx c f).readAhead = w.readAhead := rfl
@[simp] theorem Work.updCtx_host (w : Work) (c : CtxId) (f : Ctx → Ctx) : (w.updCtx c f).host = w.host := rfl
@[simp] theorem Work.updCtx_log (w : Work) (c : CtxId) (f : Ctx → Ctx) : (w.updCtx c f).log = w.log := rfl
@[simp] theorem Work.updCtx_epochs (w : Work) (c : CtxId) (f : Ctx → Ctx) : (w.updCtx c f).epochs = w.epochs := rfl
@[simp] theorem Work.updCtx_fenced (w : Work) (c : CtxId) (f : Ctx → Ctx) : (w.updCtx c f).fenced = w.fenced := rfl
@[simp] theorem Work.updCtx_inReset (w : Work) (c : CtxId) (f : Ctx → Ctx) : (w.updCtx c f).inReset = w.inReset := rfl
@[simp] theorem Work.updCtx_testFailed (w : Work) (c : CtxId) (f : Ctx → Ctx) : (w.updCtx c f).testFailed = w.testFailed := rfl
@[simp] theorem Work.updCtx_out (w : Work) (c : CtxId) (f : Ctx → Ctx) : (w.updCtx c f).out = w.out := rfl
@[simp] theorem Work.updCtx_fresh (w : Work) (c : CtxId) (f : Ctx → Ctx) : (w.updCtx c f).fresh = w.fresh := rfl
@[simp] theorem Work.updCtx_nextId (w : Work) (c : CtxId) (f : Ctx → Ctx) : (w.updCtx c f).nextId = w.nextId := rfl

@[simp] theorem Work.updCore_time (w : Work) (c : CtxId) (f : Core → Core) : (w.updCore c f).time = w.time := rfl
@[simp] theorem Work.updCore_slices (w : Work) (c : CtxId) (f : Core → Core) : (w.updCore c f).slices = w.slices := rfl
@[simp] theorem Work.updCore_ctxs (w : Work) (c : CtxId) (f : Core → Core) : (w.updCore c f).ctxs = w.ctxs := rfl
@[simp] theorem Work.updCore_clusters (w : Work) (c : CtxId) (f : Core → Core) : (w.updCore c f).clusters = w.clusters := rfl
@[simp] theorem Work.updCore_sluices (w : Work) (c : CtxId) (f : Core → Core) : (w.updCore c f).sluices = w.sluices := rfl
@[simp] theorem Work.updCore_groups (w : Work) (c : CtxId) (f : Core → Core) : (w.updCore c f).groups = w.groups := rfl
@[simp] theorem Work.updCore_combineIns (w : Work) (c : CtxId) (f : Core → Core) : (w.updCore c f).combineIns = w.combineIns := rfl
@[simp] theorem Work.updCore_combineUses (w : Work) (c : CtxId) (f : Core → Core) : (w.updCore c f).combineUses = w.combineUses := rfl
@[simp] theorem Work.updCore_combineCounts (w : Work) (c : CtxId) (f : Core → Core) : (w.updCore c f).combineCounts = w.combineCounts := rfl
@[simp] theorem Work.updCore_failedUses (w : Work) (c : CtxId) (f : Core → Core) : (w.updCore c f).failedUses = w.failedUses := rfl
@[simp] theorem Work.updCore_scale (w : Work) (c : CtxId) (f : Core → Core) : (w.updCore c f).scale = w.scale := rfl
@[simp] theorem Work.updCore_jobs (w : Work) (c : CtxId) (f : Core → Core) : (w.updCore c f).jobs = w.jobs := rfl
@[simp] theorem Work.updCore_progs (w : Work) (c : CtxId) (f : Core → Core) : (w.updCore c f).progs = w.progs := rfl
@[simp] theorem Work.updCore_hbm (w : Work) (c : CtxId) (f : Core → Core) : (w.updCore c f).hbm = w.hbm := rfl
@[simp] theorem Work.updCore_tags (w : Work) (c : CtxId) (f : Core → Core) : (w.updCore c f).tags = w.tags := rfl
@[simp] theorem Work.updCore_ctr (w : Work) (c : CtxId) (f : Core → Core) : (w.updCore c f).ctr = w.ctr := rfl
@[simp] theorem Work.updCore_nodes (w : Work) (c : CtxId) (f : Core → Core) : (w.updCore c f).nodes = w.nodes := rfl
@[simp] theorem Work.updCore_lostPassed (w : Work) (c : CtxId) (f : Core → Core) : (w.updCore c f).lostPassed = w.lostPassed := rfl
@[simp] theorem Work.updCore_writes (w : Work) (c : CtxId) (f : Core → Core) : (w.updCore c f).writes = w.writes := rfl
@[simp] theorem Work.updCore_memStacks (w : Work) (c : CtxId) (f : Core → Core) : (w.updCore c f).memStacks = w.memStacks := rfl
@[simp] theorem Work.updCore_parts (w : Work) (c : CtxId) (f : Core → Core) : (w.updCore c f).parts = w.parts := rfl
@[simp] theorem Work.updCore_fab (w : Work) (c : CtxId) (f : Core → Core) : (w.updCore c f).fab = w.fab := rfl
@[simp] theorem Work.updCore_red (w : Work) (c : CtxId) (f : Core → Core) : (w.updCore c f).red = w.red := rfl
@[simp] theorem Work.updCore_commits (w : Work) (c : CtxId) (f : Core → Core) : (w.updCore c f).commits = w.commits := rfl
@[simp] theorem Work.updCore_rebuild (w : Work) (c : CtxId) (f : Core → Core) : (w.updCore c f).rebuild = w.rebuild := rfl
@[simp] theorem Work.updCore_heldWrites (w : Work) (c : CtxId) (f : Core → Core) : (w.updCore c f).heldWrites = w.heldWrites := rfl
@[simp] theorem Work.updCore_readAhead (w : Work) (c : CtxId) (f : Core → Core) : (w.updCore c f).readAhead = w.readAhead := rfl
@[simp] theorem Work.updCore_host (w : Work) (c : CtxId) (f : Core → Core) : (w.updCore c f).host = w.host := rfl
@[simp] theorem Work.updCore_log (w : Work) (c : CtxId) (f : Core → Core) : (w.updCore c f).log = w.log := rfl
@[simp] theorem Work.updCore_epochs (w : Work) (c : CtxId) (f : Core → Core) : (w.updCore c f).epochs = w.epochs := rfl
@[simp] theorem Work.updCore_fenced (w : Work) (c : CtxId) (f : Core → Core) : (w.updCore c f).fenced = w.fenced := rfl
@[simp] theorem Work.updCore_inReset (w : Work) (c : CtxId) (f : Core → Core) : (w.updCore c f).inReset = w.inReset := rfl
@[simp] theorem Work.updCore_testFailed (w : Work) (c : CtxId) (f : Core → Core) : (w.updCore c f).testFailed = w.testFailed := rfl
@[simp] theorem Work.updCore_out (w : Work) (c : CtxId) (f : Core → Core) : (w.updCore c f).out = w.out := rfl
@[simp] theorem Work.updCore_fresh (w : Work) (c : CtxId) (f : Core → Core) : (w.updCore c f).fresh = w.fresh := rfl
@[simp] theorem Work.updCore_nextId (w : Work) (c : CtxId) (f : Core → Core) : (w.updCore c f).nextId = w.nextId := rfl

@[simp] theorem Work.updSlice_time (w : Work) (n : Nat) (f : SliceSt → SliceSt) : (w.updSlice n f).time = w.time := rfl
@[simp] theorem Work.updSlice_ctxs (w : Work) (n : Nat) (f : SliceSt → SliceSt) : (w.updSlice n f).ctxs = w.ctxs := rfl
@[simp] theorem Work.updSlice_cores (w : Work) (n : Nat) (f : SliceSt → SliceSt) : (w.updSlice n f).cores = w.cores := rfl
@[simp] theorem Work.updSlice_clusters (w : Work) (n : Nat) (f : SliceSt → SliceSt) : (w.updSlice n f).clusters = w.clusters := rfl
@[simp] theorem Work.updSlice_sluices (w : Work) (n : Nat) (f : SliceSt → SliceSt) : (w.updSlice n f).sluices = w.sluices := rfl
@[simp] theorem Work.updSlice_groups (w : Work) (n : Nat) (f : SliceSt → SliceSt) : (w.updSlice n f).groups = w.groups := rfl
@[simp] theorem Work.updSlice_combineIns (w : Work) (n : Nat) (f : SliceSt → SliceSt) : (w.updSlice n f).combineIns = w.combineIns := rfl
@[simp] theorem Work.updSlice_combineUses (w : Work) (n : Nat) (f : SliceSt → SliceSt) : (w.updSlice n f).combineUses = w.combineUses := rfl
@[simp] theorem Work.updSlice_combineCounts (w : Work) (n : Nat) (f : SliceSt → SliceSt) : (w.updSlice n f).combineCounts = w.combineCounts := rfl
@[simp] theorem Work.updSlice_failedUses (w : Work) (n : Nat) (f : SliceSt → SliceSt) : (w.updSlice n f).failedUses = w.failedUses := rfl
@[simp] theorem Work.updSlice_scale (w : Work) (n : Nat) (f : SliceSt → SliceSt) : (w.updSlice n f).scale = w.scale := rfl
@[simp] theorem Work.updSlice_jobs (w : Work) (n : Nat) (f : SliceSt → SliceSt) : (w.updSlice n f).jobs = w.jobs := rfl
@[simp] theorem Work.updSlice_progs (w : Work) (n : Nat) (f : SliceSt → SliceSt) : (w.updSlice n f).progs = w.progs := rfl
@[simp] theorem Work.updSlice_hbm (w : Work) (n : Nat) (f : SliceSt → SliceSt) : (w.updSlice n f).hbm = w.hbm := rfl
@[simp] theorem Work.updSlice_tags (w : Work) (n : Nat) (f : SliceSt → SliceSt) : (w.updSlice n f).tags = w.tags := rfl
@[simp] theorem Work.updSlice_ctr (w : Work) (n : Nat) (f : SliceSt → SliceSt) : (w.updSlice n f).ctr = w.ctr := rfl
@[simp] theorem Work.updSlice_nodes (w : Work) (n : Nat) (f : SliceSt → SliceSt) : (w.updSlice n f).nodes = w.nodes := rfl
@[simp] theorem Work.updSlice_lostPassed (w : Work) (n : Nat) (f : SliceSt → SliceSt) : (w.updSlice n f).lostPassed = w.lostPassed := rfl
@[simp] theorem Work.updSlice_writes (w : Work) (n : Nat) (f : SliceSt → SliceSt) : (w.updSlice n f).writes = w.writes := rfl
@[simp] theorem Work.updSlice_memStacks (w : Work) (n : Nat) (f : SliceSt → SliceSt) : (w.updSlice n f).memStacks = w.memStacks := rfl
@[simp] theorem Work.updSlice_parts (w : Work) (n : Nat) (f : SliceSt → SliceSt) : (w.updSlice n f).parts = w.parts := rfl
@[simp] theorem Work.updSlice_fab (w : Work) (n : Nat) (f : SliceSt → SliceSt) : (w.updSlice n f).fab = w.fab := rfl
@[simp] theorem Work.updSlice_red (w : Work) (n : Nat) (f : SliceSt → SliceSt) : (w.updSlice n f).red = w.red := rfl
@[simp] theorem Work.updSlice_commits (w : Work) (n : Nat) (f : SliceSt → SliceSt) : (w.updSlice n f).commits = w.commits := rfl
@[simp] theorem Work.updSlice_rebuild (w : Work) (n : Nat) (f : SliceSt → SliceSt) : (w.updSlice n f).rebuild = w.rebuild := rfl
@[simp] theorem Work.updSlice_heldWrites (w : Work) (n : Nat) (f : SliceSt → SliceSt) : (w.updSlice n f).heldWrites = w.heldWrites := rfl
@[simp] theorem Work.updSlice_readAhead (w : Work) (n : Nat) (f : SliceSt → SliceSt) : (w.updSlice n f).readAhead = w.readAhead := rfl
@[simp] theorem Work.updSlice_host (w : Work) (n : Nat) (f : SliceSt → SliceSt) : (w.updSlice n f).host = w.host := rfl
@[simp] theorem Work.updSlice_log (w : Work) (n : Nat) (f : SliceSt → SliceSt) : (w.updSlice n f).log = w.log := rfl
@[simp] theorem Work.updSlice_epochs (w : Work) (n : Nat) (f : SliceSt → SliceSt) : (w.updSlice n f).epochs = w.epochs := rfl
@[simp] theorem Work.updSlice_fenced (w : Work) (n : Nat) (f : SliceSt → SliceSt) : (w.updSlice n f).fenced = w.fenced := rfl
@[simp] theorem Work.updSlice_inReset (w : Work) (n : Nat) (f : SliceSt → SliceSt) : (w.updSlice n f).inReset = w.inReset := rfl
@[simp] theorem Work.updSlice_testFailed (w : Work) (n : Nat) (f : SliceSt → SliceSt) : (w.updSlice n f).testFailed = w.testFailed := rfl
@[simp] theorem Work.updSlice_out (w : Work) (n : Nat) (f : SliceSt → SliceSt) : (w.updSlice n f).out = w.out := rfl
@[simp] theorem Work.updSlice_fresh (w : Work) (n : Nat) (f : SliceSt → SliceSt) : (w.updSlice n f).fresh = w.fresh := rfl
@[simp] theorem Work.updSlice_nextId (w : Work) (n : Nat) (f : SliceSt → SliceSt) : (w.updSlice n f).nextId = w.nextId := rfl

@[simp] theorem Work.updSluice_time (w : Work) (i : Nat) (f : Sluice → Sluice) : (w.updSluice i f).time = w.time := rfl
@[simp] theorem Work.updSluice_slices (w : Work) (i : Nat) (f : Sluice → Sluice) : (w.updSluice i f).slices = w.slices := rfl
@[simp] theorem Work.updSluice_ctxs (w : Work) (i : Nat) (f : Sluice → Sluice) : (w.updSluice i f).ctxs = w.ctxs := rfl
@[simp] theorem Work.updSluice_cores (w : Work) (i : Nat) (f : Sluice → Sluice) : (w.updSluice i f).cores = w.cores := rfl
@[simp] theorem Work.updSluice_clusters (w : Work) (i : Nat) (f : Sluice → Sluice) : (w.updSluice i f).clusters = w.clusters := rfl
@[simp] theorem Work.updSluice_groups (w : Work) (i : Nat) (f : Sluice → Sluice) : (w.updSluice i f).groups = w.groups := rfl
@[simp] theorem Work.updSluice_combineIns (w : Work) (i : Nat) (f : Sluice → Sluice) : (w.updSluice i f).combineIns = w.combineIns := rfl
@[simp] theorem Work.updSluice_combineUses (w : Work) (i : Nat) (f : Sluice → Sluice) : (w.updSluice i f).combineUses = w.combineUses := rfl
@[simp] theorem Work.updSluice_combineCounts (w : Work) (i : Nat) (f : Sluice → Sluice) : (w.updSluice i f).combineCounts = w.combineCounts := rfl
@[simp] theorem Work.updSluice_failedUses (w : Work) (i : Nat) (f : Sluice → Sluice) : (w.updSluice i f).failedUses = w.failedUses := rfl
@[simp] theorem Work.updSluice_scale (w : Work) (i : Nat) (f : Sluice → Sluice) : (w.updSluice i f).scale = w.scale := rfl
@[simp] theorem Work.updSluice_jobs (w : Work) (i : Nat) (f : Sluice → Sluice) : (w.updSluice i f).jobs = w.jobs := rfl
@[simp] theorem Work.updSluice_progs (w : Work) (i : Nat) (f : Sluice → Sluice) : (w.updSluice i f).progs = w.progs := rfl
@[simp] theorem Work.updSluice_hbm (w : Work) (i : Nat) (f : Sluice → Sluice) : (w.updSluice i f).hbm = w.hbm := rfl
@[simp] theorem Work.updSluice_tags (w : Work) (i : Nat) (f : Sluice → Sluice) : (w.updSluice i f).tags = w.tags := rfl
@[simp] theorem Work.updSluice_ctr (w : Work) (i : Nat) (f : Sluice → Sluice) : (w.updSluice i f).ctr = w.ctr := rfl
@[simp] theorem Work.updSluice_nodes (w : Work) (i : Nat) (f : Sluice → Sluice) : (w.updSluice i f).nodes = w.nodes := rfl
@[simp] theorem Work.updSluice_lostPassed (w : Work) (i : Nat) (f : Sluice → Sluice) : (w.updSluice i f).lostPassed = w.lostPassed := rfl
@[simp] theorem Work.updSluice_writes (w : Work) (i : Nat) (f : Sluice → Sluice) : (w.updSluice i f).writes = w.writes := rfl
@[simp] theorem Work.updSluice_memStacks (w : Work) (i : Nat) (f : Sluice → Sluice) : (w.updSluice i f).memStacks = w.memStacks := rfl
@[simp] theorem Work.updSluice_parts (w : Work) (i : Nat) (f : Sluice → Sluice) : (w.updSluice i f).parts = w.parts := rfl
@[simp] theorem Work.updSluice_fab (w : Work) (i : Nat) (f : Sluice → Sluice) : (w.updSluice i f).fab = w.fab := rfl
@[simp] theorem Work.updSluice_red (w : Work) (i : Nat) (f : Sluice → Sluice) : (w.updSluice i f).red = w.red := rfl
@[simp] theorem Work.updSluice_commits (w : Work) (i : Nat) (f : Sluice → Sluice) : (w.updSluice i f).commits = w.commits := rfl
@[simp] theorem Work.updSluice_rebuild (w : Work) (i : Nat) (f : Sluice → Sluice) : (w.updSluice i f).rebuild = w.rebuild := rfl
@[simp] theorem Work.updSluice_heldWrites (w : Work) (i : Nat) (f : Sluice → Sluice) : (w.updSluice i f).heldWrites = w.heldWrites := rfl
@[simp] theorem Work.updSluice_readAhead (w : Work) (i : Nat) (f : Sluice → Sluice) : (w.updSluice i f).readAhead = w.readAhead := rfl
@[simp] theorem Work.updSluice_host (w : Work) (i : Nat) (f : Sluice → Sluice) : (w.updSluice i f).host = w.host := rfl
@[simp] theorem Work.updSluice_log (w : Work) (i : Nat) (f : Sluice → Sluice) : (w.updSluice i f).log = w.log := rfl
@[simp] theorem Work.updSluice_epochs (w : Work) (i : Nat) (f : Sluice → Sluice) : (w.updSluice i f).epochs = w.epochs := rfl
@[simp] theorem Work.updSluice_fenced (w : Work) (i : Nat) (f : Sluice → Sluice) : (w.updSluice i f).fenced = w.fenced := rfl
@[simp] theorem Work.updSluice_inReset (w : Work) (i : Nat) (f : Sluice → Sluice) : (w.updSluice i f).inReset = w.inReset := rfl
@[simp] theorem Work.updSluice_testFailed (w : Work) (i : Nat) (f : Sluice → Sluice) : (w.updSluice i f).testFailed = w.testFailed := rfl
@[simp] theorem Work.updSluice_out (w : Work) (i : Nat) (f : Sluice → Sluice) : (w.updSluice i f).out = w.out := rfl
@[simp] theorem Work.updSluice_fresh (w : Work) (i : Nat) (f : Sluice → Sluice) : (w.updSluice i f).fresh = w.fresh := rfl
@[simp] theorem Work.updSluice_nextId (w : Work) (i : Nat) (f : Sluice → Sluice) : (w.updSluice i f).nextId = w.nextId := rfl

@[simp] theorem Work.updStack_time (w : Work) (i : Nat) (f : Stack → Stack) : (w.updStack i f).time = w.time := rfl
@[simp] theorem Work.updStack_slices (w : Work) (i : Nat) (f : Stack → Stack) : (w.updStack i f).slices = w.slices := rfl
@[simp] theorem Work.updStack_ctxs (w : Work) (i : Nat) (f : Stack → Stack) : (w.updStack i f).ctxs = w.ctxs := rfl
@[simp] theorem Work.updStack_cores (w : Work) (i : Nat) (f : Stack → Stack) : (w.updStack i f).cores = w.cores := rfl
@[simp] theorem Work.updStack_clusters (w : Work) (i : Nat) (f : Stack → Stack) : (w.updStack i f).clusters = w.clusters := rfl
@[simp] theorem Work.updStack_sluices (w : Work) (i : Nat) (f : Stack → Stack) : (w.updStack i f).sluices = w.sluices := rfl
@[simp] theorem Work.updStack_groups (w : Work) (i : Nat) (f : Stack → Stack) : (w.updStack i f).groups = w.groups := rfl
@[simp] theorem Work.updStack_combineIns (w : Work) (i : Nat) (f : Stack → Stack) : (w.updStack i f).combineIns = w.combineIns := rfl
@[simp] theorem Work.updStack_combineUses (w : Work) (i : Nat) (f : Stack → Stack) : (w.updStack i f).combineUses = w.combineUses := rfl
@[simp] theorem Work.updStack_combineCounts (w : Work) (i : Nat) (f : Stack → Stack) : (w.updStack i f).combineCounts = w.combineCounts := rfl
@[simp] theorem Work.updStack_failedUses (w : Work) (i : Nat) (f : Stack → Stack) : (w.updStack i f).failedUses = w.failedUses := rfl
@[simp] theorem Work.updStack_scale (w : Work) (i : Nat) (f : Stack → Stack) : (w.updStack i f).scale = w.scale := rfl
@[simp] theorem Work.updStack_jobs (w : Work) (i : Nat) (f : Stack → Stack) : (w.updStack i f).jobs = w.jobs := rfl
@[simp] theorem Work.updStack_progs (w : Work) (i : Nat) (f : Stack → Stack) : (w.updStack i f).progs = w.progs := rfl
@[simp] theorem Work.updStack_hbm (w : Work) (i : Nat) (f : Stack → Stack) : (w.updStack i f).hbm = w.hbm := rfl
@[simp] theorem Work.updStack_tags (w : Work) (i : Nat) (f : Stack → Stack) : (w.updStack i f).tags = w.tags := rfl
@[simp] theorem Work.updStack_ctr (w : Work) (i : Nat) (f : Stack → Stack) : (w.updStack i f).ctr = w.ctr := rfl
@[simp] theorem Work.updStack_nodes (w : Work) (i : Nat) (f : Stack → Stack) : (w.updStack i f).nodes = w.nodes := rfl
@[simp] theorem Work.updStack_lostPassed (w : Work) (i : Nat) (f : Stack → Stack) : (w.updStack i f).lostPassed = w.lostPassed := rfl
@[simp] theorem Work.updStack_writes (w : Work) (i : Nat) (f : Stack → Stack) : (w.updStack i f).writes = w.writes := rfl
@[simp] theorem Work.updStack_parts (w : Work) (i : Nat) (f : Stack → Stack) : (w.updStack i f).parts = w.parts := rfl
@[simp] theorem Work.updStack_fab (w : Work) (i : Nat) (f : Stack → Stack) : (w.updStack i f).fab = w.fab := rfl
@[simp] theorem Work.updStack_red (w : Work) (i : Nat) (f : Stack → Stack) : (w.updStack i f).red = w.red := rfl
@[simp] theorem Work.updStack_commits (w : Work) (i : Nat) (f : Stack → Stack) : (w.updStack i f).commits = w.commits := rfl
@[simp] theorem Work.updStack_rebuild (w : Work) (i : Nat) (f : Stack → Stack) : (w.updStack i f).rebuild = w.rebuild := rfl
@[simp] theorem Work.updStack_heldWrites (w : Work) (i : Nat) (f : Stack → Stack) : (w.updStack i f).heldWrites = w.heldWrites := rfl
@[simp] theorem Work.updStack_readAhead (w : Work) (i : Nat) (f : Stack → Stack) : (w.updStack i f).readAhead = w.readAhead := rfl
@[simp] theorem Work.updStack_host (w : Work) (i : Nat) (f : Stack → Stack) : (w.updStack i f).host = w.host := rfl
@[simp] theorem Work.updStack_log (w : Work) (i : Nat) (f : Stack → Stack) : (w.updStack i f).log = w.log := rfl
@[simp] theorem Work.updStack_epochs (w : Work) (i : Nat) (f : Stack → Stack) : (w.updStack i f).epochs = w.epochs := rfl
@[simp] theorem Work.updStack_fenced (w : Work) (i : Nat) (f : Stack → Stack) : (w.updStack i f).fenced = w.fenced := rfl
@[simp] theorem Work.updStack_inReset (w : Work) (i : Nat) (f : Stack → Stack) : (w.updStack i f).inReset = w.inReset := rfl
@[simp] theorem Work.updStack_testFailed (w : Work) (i : Nat) (f : Stack → Stack) : (w.updStack i f).testFailed = w.testFailed := rfl
@[simp] theorem Work.updStack_out (w : Work) (i : Nat) (f : Stack → Stack) : (w.updStack i f).out = w.out := rfl
@[simp] theorem Work.updStack_fresh (w : Work) (i : Nat) (f : Stack → Stack) : (w.updStack i f).fresh = w.fresh := rfl
@[simp] theorem Work.updStack_nextId (w : Work) (i : Nat) (f : Stack → Stack) : (w.updStack i f).nextId = w.nextId := rfl

@[simp] theorem Work.updPart_time (w : Work) (q : Fin 8) (f : Part → Part) : (w.updPart q f).time = w.time := rfl
@[simp] theorem Work.updPart_slices (w : Work) (q : Fin 8) (f : Part → Part) : (w.updPart q f).slices = w.slices := rfl
@[simp] theorem Work.updPart_ctxs (w : Work) (q : Fin 8) (f : Part → Part) : (w.updPart q f).ctxs = w.ctxs := rfl
@[simp] theorem Work.updPart_cores (w : Work) (q : Fin 8) (f : Part → Part) : (w.updPart q f).cores = w.cores := rfl
@[simp] theorem Work.updPart_clusters (w : Work) (q : Fin 8) (f : Part → Part) : (w.updPart q f).clusters = w.clusters := rfl
@[simp] theorem Work.updPart_sluices (w : Work) (q : Fin 8) (f : Part → Part) : (w.updPart q f).sluices = w.sluices := rfl
@[simp] theorem Work.updPart_groups (w : Work) (q : Fin 8) (f : Part → Part) : (w.updPart q f).groups = w.groups := rfl
@[simp] theorem Work.updPart_combineIns (w : Work) (q : Fin 8) (f : Part → Part) : (w.updPart q f).combineIns = w.combineIns := rfl
@[simp] theorem Work.updPart_combineUses (w : Work) (q : Fin 8) (f : Part → Part) : (w.updPart q f).combineUses = w.combineUses := rfl
@[simp] theorem Work.updPart_combineCounts (w : Work) (q : Fin 8) (f : Part → Part) : (w.updPart q f).combineCounts = w.combineCounts := rfl
@[simp] theorem Work.updPart_failedUses (w : Work) (q : Fin 8) (f : Part → Part) : (w.updPart q f).failedUses = w.failedUses := rfl
@[simp] theorem Work.updPart_scale (w : Work) (q : Fin 8) (f : Part → Part) : (w.updPart q f).scale = w.scale := rfl
@[simp] theorem Work.updPart_jobs (w : Work) (q : Fin 8) (f : Part → Part) : (w.updPart q f).jobs = w.jobs := rfl
@[simp] theorem Work.updPart_progs (w : Work) (q : Fin 8) (f : Part → Part) : (w.updPart q f).progs = w.progs := rfl
@[simp] theorem Work.updPart_hbm (w : Work) (q : Fin 8) (f : Part → Part) : (w.updPart q f).hbm = w.hbm := rfl
@[simp] theorem Work.updPart_tags (w : Work) (q : Fin 8) (f : Part → Part) : (w.updPart q f).tags = w.tags := rfl
@[simp] theorem Work.updPart_ctr (w : Work) (q : Fin 8) (f : Part → Part) : (w.updPart q f).ctr = w.ctr := rfl
@[simp] theorem Work.updPart_nodes (w : Work) (q : Fin 8) (f : Part → Part) : (w.updPart q f).nodes = w.nodes := rfl
@[simp] theorem Work.updPart_lostPassed (w : Work) (q : Fin 8) (f : Part → Part) : (w.updPart q f).lostPassed = w.lostPassed := rfl
@[simp] theorem Work.updPart_writes (w : Work) (q : Fin 8) (f : Part → Part) : (w.updPart q f).writes = w.writes := rfl
@[simp] theorem Work.updPart_memStacks (w : Work) (q : Fin 8) (f : Part → Part) : (w.updPart q f).memStacks = w.memStacks := rfl
@[simp] theorem Work.updPart_fab (w : Work) (q : Fin 8) (f : Part → Part) : (w.updPart q f).fab = w.fab := rfl
@[simp] theorem Work.updPart_red (w : Work) (q : Fin 8) (f : Part → Part) : (w.updPart q f).red = w.red := rfl
@[simp] theorem Work.updPart_commits (w : Work) (q : Fin 8) (f : Part → Part) : (w.updPart q f).commits = w.commits := rfl
@[simp] theorem Work.updPart_rebuild (w : Work) (q : Fin 8) (f : Part → Part) : (w.updPart q f).rebuild = w.rebuild := rfl
@[simp] theorem Work.updPart_heldWrites (w : Work) (q : Fin 8) (f : Part → Part) : (w.updPart q f).heldWrites = w.heldWrites := rfl
@[simp] theorem Work.updPart_readAhead (w : Work) (q : Fin 8) (f : Part → Part) : (w.updPart q f).readAhead = w.readAhead := rfl
@[simp] theorem Work.updPart_host (w : Work) (q : Fin 8) (f : Part → Part) : (w.updPart q f).host = w.host := rfl
@[simp] theorem Work.updPart_log (w : Work) (q : Fin 8) (f : Part → Part) : (w.updPart q f).log = w.log := rfl
@[simp] theorem Work.updPart_epochs (w : Work) (q : Fin 8) (f : Part → Part) : (w.updPart q f).epochs = w.epochs := rfl
@[simp] theorem Work.updPart_fenced (w : Work) (q : Fin 8) (f : Part → Part) : (w.updPart q f).fenced = w.fenced := rfl
@[simp] theorem Work.updPart_inReset (w : Work) (q : Fin 8) (f : Part → Part) : (w.updPart q f).inReset = w.inReset := rfl
@[simp] theorem Work.updPart_testFailed (w : Work) (q : Fin 8) (f : Part → Part) : (w.updPart q f).testFailed = w.testFailed := rfl
@[simp] theorem Work.updPart_out (w : Work) (q : Fin 8) (f : Part → Part) : (w.updPart q f).out = w.out := rfl
@[simp] theorem Work.updPart_fresh (w : Work) (q : Fin 8) (f : Part → Part) : (w.updPart q f).fresh = w.fresh := rfl
@[simp] theorem Work.updPart_nextId (w : Work) (q : Fin 8) (f : Part → Part) : (w.updPart q f).nextId = w.nextId := rfl

@[simp] theorem Work.updPort_time (w : Work) (p : Nat) (f : Port → Port) : (w.updPort p f).time = w.time := rfl
@[simp] theorem Work.updPort_slices (w : Work) (p : Nat) (f : Port → Port) : (w.updPort p f).slices = w.slices := rfl
@[simp] theorem Work.updPort_ctxs (w : Work) (p : Nat) (f : Port → Port) : (w.updPort p f).ctxs = w.ctxs := rfl
@[simp] theorem Work.updPort_cores (w : Work) (p : Nat) (f : Port → Port) : (w.updPort p f).cores = w.cores := rfl
@[simp] theorem Work.updPort_clusters (w : Work) (p : Nat) (f : Port → Port) : (w.updPort p f).clusters = w.clusters := rfl
@[simp] theorem Work.updPort_sluices (w : Work) (p : Nat) (f : Port → Port) : (w.updPort p f).sluices = w.sluices := rfl
@[simp] theorem Work.updPort_groups (w : Work) (p : Nat) (f : Port → Port) : (w.updPort p f).groups = w.groups := rfl
@[simp] theorem Work.updPort_combineIns (w : Work) (p : Nat) (f : Port → Port) : (w.updPort p f).combineIns = w.combineIns := rfl
@[simp] theorem Work.updPort_combineUses (w : Work) (p : Nat) (f : Port → Port) : (w.updPort p f).combineUses = w.combineUses := rfl
@[simp] theorem Work.updPort_combineCounts (w : Work) (p : Nat) (f : Port → Port) : (w.updPort p f).combineCounts = w.combineCounts := rfl
@[simp] theorem Work.updPort_failedUses (w : Work) (p : Nat) (f : Port → Port) : (w.updPort p f).failedUses = w.failedUses := rfl
@[simp] theorem Work.updPort_scale (w : Work) (p : Nat) (f : Port → Port) : (w.updPort p f).scale = w.scale := rfl
@[simp] theorem Work.updPort_jobs (w : Work) (p : Nat) (f : Port → Port) : (w.updPort p f).jobs = w.jobs := rfl
@[simp] theorem Work.updPort_progs (w : Work) (p : Nat) (f : Port → Port) : (w.updPort p f).progs = w.progs := rfl
@[simp] theorem Work.updPort_hbm (w : Work) (p : Nat) (f : Port → Port) : (w.updPort p f).hbm = w.hbm := rfl
@[simp] theorem Work.updPort_tags (w : Work) (p : Nat) (f : Port → Port) : (w.updPort p f).tags = w.tags := rfl
@[simp] theorem Work.updPort_ctr (w : Work) (p : Nat) (f : Port → Port) : (w.updPort p f).ctr = w.ctr := rfl
@[simp] theorem Work.updPort_nodes (w : Work) (p : Nat) (f : Port → Port) : (w.updPort p f).nodes = w.nodes := rfl
@[simp] theorem Work.updPort_lostPassed (w : Work) (p : Nat) (f : Port → Port) : (w.updPort p f).lostPassed = w.lostPassed := rfl
@[simp] theorem Work.updPort_writes (w : Work) (p : Nat) (f : Port → Port) : (w.updPort p f).writes = w.writes := rfl
@[simp] theorem Work.updPort_memStacks (w : Work) (p : Nat) (f : Port → Port) : (w.updPort p f).memStacks = w.memStacks := rfl
@[simp] theorem Work.updPort_parts (w : Work) (p : Nat) (f : Port → Port) : (w.updPort p f).parts = w.parts := rfl
@[simp] theorem Work.updPort_red (w : Work) (p : Nat) (f : Port → Port) : (w.updPort p f).red = w.red := rfl
@[simp] theorem Work.updPort_commits (w : Work) (p : Nat) (f : Port → Port) : (w.updPort p f).commits = w.commits := rfl
@[simp] theorem Work.updPort_rebuild (w : Work) (p : Nat) (f : Port → Port) : (w.updPort p f).rebuild = w.rebuild := rfl
@[simp] theorem Work.updPort_heldWrites (w : Work) (p : Nat) (f : Port → Port) : (w.updPort p f).heldWrites = w.heldWrites := rfl
@[simp] theorem Work.updPort_readAhead (w : Work) (p : Nat) (f : Port → Port) : (w.updPort p f).readAhead = w.readAhead := rfl
@[simp] theorem Work.updPort_host (w : Work) (p : Nat) (f : Port → Port) : (w.updPort p f).host = w.host := rfl
@[simp] theorem Work.updPort_log (w : Work) (p : Nat) (f : Port → Port) : (w.updPort p f).log = w.log := rfl
@[simp] theorem Work.updPort_epochs (w : Work) (p : Nat) (f : Port → Port) : (w.updPort p f).epochs = w.epochs := rfl
@[simp] theorem Work.updPort_fenced (w : Work) (p : Nat) (f : Port → Port) : (w.updPort p f).fenced = w.fenced := rfl
@[simp] theorem Work.updPort_inReset (w : Work) (p : Nat) (f : Port → Port) : (w.updPort p f).inReset = w.inReset := rfl
@[simp] theorem Work.updPort_testFailed (w : Work) (p : Nat) (f : Port → Port) : (w.updPort p f).testFailed = w.testFailed := rfl
@[simp] theorem Work.updPort_out (w : Work) (p : Nat) (f : Port → Port) : (w.updPort p f).out = w.out := rfl
@[simp] theorem Work.updPort_fresh (w : Work) (p : Nat) (f : Port → Port) : (w.updPort p f).fresh = w.fresh := rfl
@[simp] theorem Work.updPort_nextId (w : Work) (p : Nat) (f : Port → Port) : (w.updPort p f).nextId = w.nextId := rfl

@[simp] theorem Work.setJob_time (w : Work) (q : Fin 8) (j : BitVec 16) (v : Option Job) : (w.setJob q j v).time = w.time := rfl
@[simp] theorem Work.setJob_slices (w : Work) (q : Fin 8) (j : BitVec 16) (v : Option Job) : (w.setJob q j v).slices = w.slices := rfl
@[simp] theorem Work.setJob_ctxs (w : Work) (q : Fin 8) (j : BitVec 16) (v : Option Job) : (w.setJob q j v).ctxs = w.ctxs := rfl
@[simp] theorem Work.setJob_cores (w : Work) (q : Fin 8) (j : BitVec 16) (v : Option Job) : (w.setJob q j v).cores = w.cores := rfl
@[simp] theorem Work.setJob_clusters (w : Work) (q : Fin 8) (j : BitVec 16) (v : Option Job) : (w.setJob q j v).clusters = w.clusters := rfl
@[simp] theorem Work.setJob_sluices (w : Work) (q : Fin 8) (j : BitVec 16) (v : Option Job) : (w.setJob q j v).sluices = w.sluices := rfl
@[simp] theorem Work.setJob_groups (w : Work) (q : Fin 8) (j : BitVec 16) (v : Option Job) : (w.setJob q j v).groups = w.groups := rfl
@[simp] theorem Work.setJob_combineIns (w : Work) (q : Fin 8) (j : BitVec 16) (v : Option Job) : (w.setJob q j v).combineIns = w.combineIns := rfl
@[simp] theorem Work.setJob_combineUses (w : Work) (q : Fin 8) (j : BitVec 16) (v : Option Job) : (w.setJob q j v).combineUses = w.combineUses := rfl
@[simp] theorem Work.setJob_combineCounts (w : Work) (q : Fin 8) (j : BitVec 16) (v : Option Job) : (w.setJob q j v).combineCounts = w.combineCounts := rfl
@[simp] theorem Work.setJob_failedUses (w : Work) (q : Fin 8) (j : BitVec 16) (v : Option Job) : (w.setJob q j v).failedUses = w.failedUses := rfl
@[simp] theorem Work.setJob_scale (w : Work) (q : Fin 8) (j : BitVec 16) (v : Option Job) : (w.setJob q j v).scale = w.scale := rfl
@[simp] theorem Work.setJob_progs (w : Work) (q : Fin 8) (j : BitVec 16) (v : Option Job) : (w.setJob q j v).progs = w.progs := rfl
@[simp] theorem Work.setJob_hbm (w : Work) (q : Fin 8) (j : BitVec 16) (v : Option Job) : (w.setJob q j v).hbm = w.hbm := rfl
@[simp] theorem Work.setJob_tags (w : Work) (q : Fin 8) (j : BitVec 16) (v : Option Job) : (w.setJob q j v).tags = w.tags := rfl
@[simp] theorem Work.setJob_ctr (w : Work) (q : Fin 8) (j : BitVec 16) (v : Option Job) : (w.setJob q j v).ctr = w.ctr := rfl
@[simp] theorem Work.setJob_nodes (w : Work) (q : Fin 8) (j : BitVec 16) (v : Option Job) : (w.setJob q j v).nodes = w.nodes := rfl
@[simp] theorem Work.setJob_lostPassed (w : Work) (q : Fin 8) (j : BitVec 16) (v : Option Job) : (w.setJob q j v).lostPassed = w.lostPassed := rfl
@[simp] theorem Work.setJob_writes (w : Work) (q : Fin 8) (j : BitVec 16) (v : Option Job) : (w.setJob q j v).writes = w.writes := rfl
@[simp] theorem Work.setJob_memStacks (w : Work) (q : Fin 8) (j : BitVec 16) (v : Option Job) : (w.setJob q j v).memStacks = w.memStacks := rfl
@[simp] theorem Work.setJob_parts (w : Work) (q : Fin 8) (j : BitVec 16) (v : Option Job) : (w.setJob q j v).parts = w.parts := rfl
@[simp] theorem Work.setJob_fab (w : Work) (q : Fin 8) (j : BitVec 16) (v : Option Job) : (w.setJob q j v).fab = w.fab := rfl
@[simp] theorem Work.setJob_red (w : Work) (q : Fin 8) (j : BitVec 16) (v : Option Job) : (w.setJob q j v).red = w.red := rfl
@[simp] theorem Work.setJob_commits (w : Work) (q : Fin 8) (j : BitVec 16) (v : Option Job) : (w.setJob q j v).commits = w.commits := rfl
@[simp] theorem Work.setJob_rebuild (w : Work) (q : Fin 8) (j : BitVec 16) (v : Option Job) : (w.setJob q j v).rebuild = w.rebuild := rfl
@[simp] theorem Work.setJob_heldWrites (w : Work) (q : Fin 8) (j : BitVec 16) (v : Option Job) : (w.setJob q j v).heldWrites = w.heldWrites := rfl
@[simp] theorem Work.setJob_readAhead (w : Work) (q : Fin 8) (j : BitVec 16) (v : Option Job) : (w.setJob q j v).readAhead = w.readAhead := rfl
@[simp] theorem Work.setJob_host (w : Work) (q : Fin 8) (j : BitVec 16) (v : Option Job) : (w.setJob q j v).host = w.host := rfl
@[simp] theorem Work.setJob_log (w : Work) (q : Fin 8) (j : BitVec 16) (v : Option Job) : (w.setJob q j v).log = w.log := rfl
@[simp] theorem Work.setJob_epochs (w : Work) (q : Fin 8) (j : BitVec 16) (v : Option Job) : (w.setJob q j v).epochs = w.epochs := rfl
@[simp] theorem Work.setJob_fenced (w : Work) (q : Fin 8) (j : BitVec 16) (v : Option Job) : (w.setJob q j v).fenced = w.fenced := rfl
@[simp] theorem Work.setJob_inReset (w : Work) (q : Fin 8) (j : BitVec 16) (v : Option Job) : (w.setJob q j v).inReset = w.inReset := rfl
@[simp] theorem Work.setJob_testFailed (w : Work) (q : Fin 8) (j : BitVec 16) (v : Option Job) : (w.setJob q j v).testFailed = w.testFailed := rfl
@[simp] theorem Work.setJob_out (w : Work) (q : Fin 8) (j : BitVec 16) (v : Option Job) : (w.setJob q j v).out = w.out := rfl
@[simp] theorem Work.setJob_fresh (w : Work) (q : Fin 8) (j : BitVec 16) (v : Option Job) : (w.setJob q j v).fresh = w.fresh := rfl
@[simp] theorem Work.setJob_nextId (w : Work) (q : Fin 8) (j : BitVec 16) (v : Option Job) : (w.setJob q j v).nextId = w.nextId := rfl

@[simp] theorem Work.setProg_time (w : Work) (q : Fin 8) (n : BitVec 32) (v : Option Program) : (w.setProg q n v).time = w.time := rfl
@[simp] theorem Work.setProg_slices (w : Work) (q : Fin 8) (n : BitVec 32) (v : Option Program) : (w.setProg q n v).slices = w.slices := rfl
@[simp] theorem Work.setProg_ctxs (w : Work) (q : Fin 8) (n : BitVec 32) (v : Option Program) : (w.setProg q n v).ctxs = w.ctxs := rfl
@[simp] theorem Work.setProg_cores (w : Work) (q : Fin 8) (n : BitVec 32) (v : Option Program) : (w.setProg q n v).cores = w.cores := rfl
@[simp] theorem Work.setProg_clusters (w : Work) (q : Fin 8) (n : BitVec 32) (v : Option Program) : (w.setProg q n v).clusters = w.clusters := rfl
@[simp] theorem Work.setProg_sluices (w : Work) (q : Fin 8) (n : BitVec 32) (v : Option Program) : (w.setProg q n v).sluices = w.sluices := rfl
@[simp] theorem Work.setProg_groups (w : Work) (q : Fin 8) (n : BitVec 32) (v : Option Program) : (w.setProg q n v).groups = w.groups := rfl
@[simp] theorem Work.setProg_combineIns (w : Work) (q : Fin 8) (n : BitVec 32) (v : Option Program) : (w.setProg q n v).combineIns = w.combineIns := rfl
@[simp] theorem Work.setProg_combineUses (w : Work) (q : Fin 8) (n : BitVec 32) (v : Option Program) : (w.setProg q n v).combineUses = w.combineUses := rfl
@[simp] theorem Work.setProg_combineCounts (w : Work) (q : Fin 8) (n : BitVec 32) (v : Option Program) : (w.setProg q n v).combineCounts = w.combineCounts := rfl
@[simp] theorem Work.setProg_failedUses (w : Work) (q : Fin 8) (n : BitVec 32) (v : Option Program) : (w.setProg q n v).failedUses = w.failedUses := rfl
@[simp] theorem Work.setProg_scale (w : Work) (q : Fin 8) (n : BitVec 32) (v : Option Program) : (w.setProg q n v).scale = w.scale := rfl
@[simp] theorem Work.setProg_jobs (w : Work) (q : Fin 8) (n : BitVec 32) (v : Option Program) : (w.setProg q n v).jobs = w.jobs := rfl
@[simp] theorem Work.setProg_hbm (w : Work) (q : Fin 8) (n : BitVec 32) (v : Option Program) : (w.setProg q n v).hbm = w.hbm := rfl
@[simp] theorem Work.setProg_tags (w : Work) (q : Fin 8) (n : BitVec 32) (v : Option Program) : (w.setProg q n v).tags = w.tags := rfl
@[simp] theorem Work.setProg_ctr (w : Work) (q : Fin 8) (n : BitVec 32) (v : Option Program) : (w.setProg q n v).ctr = w.ctr := rfl
@[simp] theorem Work.setProg_nodes (w : Work) (q : Fin 8) (n : BitVec 32) (v : Option Program) : (w.setProg q n v).nodes = w.nodes := rfl
@[simp] theorem Work.setProg_lostPassed (w : Work) (q : Fin 8) (n : BitVec 32) (v : Option Program) : (w.setProg q n v).lostPassed = w.lostPassed := rfl
@[simp] theorem Work.setProg_writes (w : Work) (q : Fin 8) (n : BitVec 32) (v : Option Program) : (w.setProg q n v).writes = w.writes := rfl
@[simp] theorem Work.setProg_memStacks (w : Work) (q : Fin 8) (n : BitVec 32) (v : Option Program) : (w.setProg q n v).memStacks = w.memStacks := rfl
@[simp] theorem Work.setProg_parts (w : Work) (q : Fin 8) (n : BitVec 32) (v : Option Program) : (w.setProg q n v).parts = w.parts := rfl
@[simp] theorem Work.setProg_fab (w : Work) (q : Fin 8) (n : BitVec 32) (v : Option Program) : (w.setProg q n v).fab = w.fab := rfl
@[simp] theorem Work.setProg_red (w : Work) (q : Fin 8) (n : BitVec 32) (v : Option Program) : (w.setProg q n v).red = w.red := rfl
@[simp] theorem Work.setProg_commits (w : Work) (q : Fin 8) (n : BitVec 32) (v : Option Program) : (w.setProg q n v).commits = w.commits := rfl
@[simp] theorem Work.setProg_rebuild (w : Work) (q : Fin 8) (n : BitVec 32) (v : Option Program) : (w.setProg q n v).rebuild = w.rebuild := rfl
@[simp] theorem Work.setProg_heldWrites (w : Work) (q : Fin 8) (n : BitVec 32) (v : Option Program) : (w.setProg q n v).heldWrites = w.heldWrites := rfl
@[simp] theorem Work.setProg_readAhead (w : Work) (q : Fin 8) (n : BitVec 32) (v : Option Program) : (w.setProg q n v).readAhead = w.readAhead := rfl
@[simp] theorem Work.setProg_host (w : Work) (q : Fin 8) (n : BitVec 32) (v : Option Program) : (w.setProg q n v).host = w.host := rfl
@[simp] theorem Work.setProg_log (w : Work) (q : Fin 8) (n : BitVec 32) (v : Option Program) : (w.setProg q n v).log = w.log := rfl
@[simp] theorem Work.setProg_epochs (w : Work) (q : Fin 8) (n : BitVec 32) (v : Option Program) : (w.setProg q n v).epochs = w.epochs := rfl
@[simp] theorem Work.setProg_fenced (w : Work) (q : Fin 8) (n : BitVec 32) (v : Option Program) : (w.setProg q n v).fenced = w.fenced := rfl
@[simp] theorem Work.setProg_inReset (w : Work) (q : Fin 8) (n : BitVec 32) (v : Option Program) : (w.setProg q n v).inReset = w.inReset := rfl
@[simp] theorem Work.setProg_testFailed (w : Work) (q : Fin 8) (n : BitVec 32) (v : Option Program) : (w.setProg q n v).testFailed = w.testFailed := rfl
@[simp] theorem Work.setProg_out (w : Work) (q : Fin 8) (n : BitVec 32) (v : Option Program) : (w.setProg q n v).out = w.out := rfl
@[simp] theorem Work.setProg_fresh (w : Work) (q : Fin 8) (n : BitVec 32) (v : Option Program) : (w.setProg q n v).fresh = w.fresh := rfl
@[simp] theorem Work.setProg_nextId (w : Work) (q : Fin 8) (n : BitVec 32) (v : Option Program) : (w.setProg q n v).nextId = w.nextId := rfl

@[simp] theorem Work.setEntry_time (w : Work) (q : Fin 8) (t : BitVec 20) (v : Option ScaleEntry) : (w.setEntry q t v).time = w.time := rfl
@[simp] theorem Work.setEntry_slices (w : Work) (q : Fin 8) (t : BitVec 20) (v : Option ScaleEntry) : (w.setEntry q t v).slices = w.slices := rfl
@[simp] theorem Work.setEntry_ctxs (w : Work) (q : Fin 8) (t : BitVec 20) (v : Option ScaleEntry) : (w.setEntry q t v).ctxs = w.ctxs := rfl
@[simp] theorem Work.setEntry_cores (w : Work) (q : Fin 8) (t : BitVec 20) (v : Option ScaleEntry) : (w.setEntry q t v).cores = w.cores := rfl
@[simp] theorem Work.setEntry_clusters (w : Work) (q : Fin 8) (t : BitVec 20) (v : Option ScaleEntry) : (w.setEntry q t v).clusters = w.clusters := rfl
@[simp] theorem Work.setEntry_sluices (w : Work) (q : Fin 8) (t : BitVec 20) (v : Option ScaleEntry) : (w.setEntry q t v).sluices = w.sluices := rfl
@[simp] theorem Work.setEntry_groups (w : Work) (q : Fin 8) (t : BitVec 20) (v : Option ScaleEntry) : (w.setEntry q t v).groups = w.groups := rfl
@[simp] theorem Work.setEntry_combineIns (w : Work) (q : Fin 8) (t : BitVec 20) (v : Option ScaleEntry) : (w.setEntry q t v).combineIns = w.combineIns := rfl
@[simp] theorem Work.setEntry_combineUses (w : Work) (q : Fin 8) (t : BitVec 20) (v : Option ScaleEntry) : (w.setEntry q t v).combineUses = w.combineUses := rfl
@[simp] theorem Work.setEntry_combineCounts (w : Work) (q : Fin 8) (t : BitVec 20) (v : Option ScaleEntry) : (w.setEntry q t v).combineCounts = w.combineCounts := rfl
@[simp] theorem Work.setEntry_failedUses (w : Work) (q : Fin 8) (t : BitVec 20) (v : Option ScaleEntry) : (w.setEntry q t v).failedUses = w.failedUses := rfl
@[simp] theorem Work.setEntry_jobs (w : Work) (q : Fin 8) (t : BitVec 20) (v : Option ScaleEntry) : (w.setEntry q t v).jobs = w.jobs := rfl
@[simp] theorem Work.setEntry_progs (w : Work) (q : Fin 8) (t : BitVec 20) (v : Option ScaleEntry) : (w.setEntry q t v).progs = w.progs := rfl
@[simp] theorem Work.setEntry_hbm (w : Work) (q : Fin 8) (t : BitVec 20) (v : Option ScaleEntry) : (w.setEntry q t v).hbm = w.hbm := rfl
@[simp] theorem Work.setEntry_tags (w : Work) (q : Fin 8) (t : BitVec 20) (v : Option ScaleEntry) : (w.setEntry q t v).tags = w.tags := rfl
@[simp] theorem Work.setEntry_ctr (w : Work) (q : Fin 8) (t : BitVec 20) (v : Option ScaleEntry) : (w.setEntry q t v).ctr = w.ctr := rfl
@[simp] theorem Work.setEntry_nodes (w : Work) (q : Fin 8) (t : BitVec 20) (v : Option ScaleEntry) : (w.setEntry q t v).nodes = w.nodes := rfl
@[simp] theorem Work.setEntry_lostPassed (w : Work) (q : Fin 8) (t : BitVec 20) (v : Option ScaleEntry) : (w.setEntry q t v).lostPassed = w.lostPassed := rfl
@[simp] theorem Work.setEntry_writes (w : Work) (q : Fin 8) (t : BitVec 20) (v : Option ScaleEntry) : (w.setEntry q t v).writes = w.writes := rfl
@[simp] theorem Work.setEntry_memStacks (w : Work) (q : Fin 8) (t : BitVec 20) (v : Option ScaleEntry) : (w.setEntry q t v).memStacks = w.memStacks := rfl
@[simp] theorem Work.setEntry_parts (w : Work) (q : Fin 8) (t : BitVec 20) (v : Option ScaleEntry) : (w.setEntry q t v).parts = w.parts := rfl
@[simp] theorem Work.setEntry_fab (w : Work) (q : Fin 8) (t : BitVec 20) (v : Option ScaleEntry) : (w.setEntry q t v).fab = w.fab := rfl
@[simp] theorem Work.setEntry_red (w : Work) (q : Fin 8) (t : BitVec 20) (v : Option ScaleEntry) : (w.setEntry q t v).red = w.red := rfl
@[simp] theorem Work.setEntry_commits (w : Work) (q : Fin 8) (t : BitVec 20) (v : Option ScaleEntry) : (w.setEntry q t v).commits = w.commits := rfl
@[simp] theorem Work.setEntry_rebuild (w : Work) (q : Fin 8) (t : BitVec 20) (v : Option ScaleEntry) : (w.setEntry q t v).rebuild = w.rebuild := rfl
@[simp] theorem Work.setEntry_heldWrites (w : Work) (q : Fin 8) (t : BitVec 20) (v : Option ScaleEntry) : (w.setEntry q t v).heldWrites = w.heldWrites := rfl
@[simp] theorem Work.setEntry_readAhead (w : Work) (q : Fin 8) (t : BitVec 20) (v : Option ScaleEntry) : (w.setEntry q t v).readAhead = w.readAhead := rfl
@[simp] theorem Work.setEntry_host (w : Work) (q : Fin 8) (t : BitVec 20) (v : Option ScaleEntry) : (w.setEntry q t v).host = w.host := rfl
@[simp] theorem Work.setEntry_log (w : Work) (q : Fin 8) (t : BitVec 20) (v : Option ScaleEntry) : (w.setEntry q t v).log = w.log := rfl
@[simp] theorem Work.setEntry_epochs (w : Work) (q : Fin 8) (t : BitVec 20) (v : Option ScaleEntry) : (w.setEntry q t v).epochs = w.epochs := rfl
@[simp] theorem Work.setEntry_fenced (w : Work) (q : Fin 8) (t : BitVec 20) (v : Option ScaleEntry) : (w.setEntry q t v).fenced = w.fenced := rfl
@[simp] theorem Work.setEntry_inReset (w : Work) (q : Fin 8) (t : BitVec 20) (v : Option ScaleEntry) : (w.setEntry q t v).inReset = w.inReset := rfl
@[simp] theorem Work.setEntry_testFailed (w : Work) (q : Fin 8) (t : BitVec 20) (v : Option ScaleEntry) : (w.setEntry q t v).testFailed = w.testFailed := rfl
@[simp] theorem Work.setEntry_out (w : Work) (q : Fin 8) (t : BitVec 20) (v : Option ScaleEntry) : (w.setEntry q t v).out = w.out := rfl
@[simp] theorem Work.setEntry_fresh (w : Work) (q : Fin 8) (t : BitVec 20) (v : Option ScaleEntry) : (w.setEntry q t v).fresh = w.fresh := rfl
@[simp] theorem Work.setEntry_nextId (w : Work) (q : Fin 8) (t : BitVec 20) (v : Option ScaleEntry) : (w.setEntry q t v).nextId = w.nextId := rfl

@[simp] theorem Work.updFn_time (w : Work) (f : Fn) (g : FnSt → FnSt) : (w.updFn f g).time = w.time := rfl
@[simp] theorem Work.updFn_slices (w : Work) (f : Fn) (g : FnSt → FnSt) : (w.updFn f g).slices = w.slices := rfl
@[simp] theorem Work.updFn_ctxs (w : Work) (f : Fn) (g : FnSt → FnSt) : (w.updFn f g).ctxs = w.ctxs := rfl
@[simp] theorem Work.updFn_cores (w : Work) (f : Fn) (g : FnSt → FnSt) : (w.updFn f g).cores = w.cores := rfl
@[simp] theorem Work.updFn_clusters (w : Work) (f : Fn) (g : FnSt → FnSt) : (w.updFn f g).clusters = w.clusters := rfl
@[simp] theorem Work.updFn_sluices (w : Work) (f : Fn) (g : FnSt → FnSt) : (w.updFn f g).sluices = w.sluices := rfl
@[simp] theorem Work.updFn_groups (w : Work) (f : Fn) (g : FnSt → FnSt) : (w.updFn f g).groups = w.groups := rfl
@[simp] theorem Work.updFn_combineIns (w : Work) (f : Fn) (g : FnSt → FnSt) : (w.updFn f g).combineIns = w.combineIns := rfl
@[simp] theorem Work.updFn_combineUses (w : Work) (f : Fn) (g : FnSt → FnSt) : (w.updFn f g).combineUses = w.combineUses := rfl
@[simp] theorem Work.updFn_combineCounts (w : Work) (f : Fn) (g : FnSt → FnSt) : (w.updFn f g).combineCounts = w.combineCounts := rfl
@[simp] theorem Work.updFn_failedUses (w : Work) (f : Fn) (g : FnSt → FnSt) : (w.updFn f g).failedUses = w.failedUses := rfl
@[simp] theorem Work.updFn_scale (w : Work) (f : Fn) (g : FnSt → FnSt) : (w.updFn f g).scale = w.scale := rfl
@[simp] theorem Work.updFn_jobs (w : Work) (f : Fn) (g : FnSt → FnSt) : (w.updFn f g).jobs = w.jobs := rfl
@[simp] theorem Work.updFn_progs (w : Work) (f : Fn) (g : FnSt → FnSt) : (w.updFn f g).progs = w.progs := rfl
@[simp] theorem Work.updFn_hbm (w : Work) (f : Fn) (g : FnSt → FnSt) : (w.updFn f g).hbm = w.hbm := rfl
@[simp] theorem Work.updFn_tags (w : Work) (f : Fn) (g : FnSt → FnSt) : (w.updFn f g).tags = w.tags := rfl
@[simp] theorem Work.updFn_ctr (w : Work) (f : Fn) (g : FnSt → FnSt) : (w.updFn f g).ctr = w.ctr := rfl
@[simp] theorem Work.updFn_nodes (w : Work) (f : Fn) (g : FnSt → FnSt) : (w.updFn f g).nodes = w.nodes := rfl
@[simp] theorem Work.updFn_lostPassed (w : Work) (f : Fn) (g : FnSt → FnSt) : (w.updFn f g).lostPassed = w.lostPassed := rfl
@[simp] theorem Work.updFn_writes (w : Work) (f : Fn) (g : FnSt → FnSt) : (w.updFn f g).writes = w.writes := rfl
@[simp] theorem Work.updFn_memStacks (w : Work) (f : Fn) (g : FnSt → FnSt) : (w.updFn f g).memStacks = w.memStacks := rfl
@[simp] theorem Work.updFn_parts (w : Work) (f : Fn) (g : FnSt → FnSt) : (w.updFn f g).parts = w.parts := rfl
@[simp] theorem Work.updFn_fab (w : Work) (f : Fn) (g : FnSt → FnSt) : (w.updFn f g).fab = w.fab := rfl
@[simp] theorem Work.updFn_red (w : Work) (f : Fn) (g : FnSt → FnSt) : (w.updFn f g).red = w.red := rfl
@[simp] theorem Work.updFn_commits (w : Work) (f : Fn) (g : FnSt → FnSt) : (w.updFn f g).commits = w.commits := rfl
@[simp] theorem Work.updFn_rebuild (w : Work) (f : Fn) (g : FnSt → FnSt) : (w.updFn f g).rebuild = w.rebuild := rfl
@[simp] theorem Work.updFn_heldWrites (w : Work) (f : Fn) (g : FnSt → FnSt) : (w.updFn f g).heldWrites = w.heldWrites := rfl
@[simp] theorem Work.updFn_readAhead (w : Work) (f : Fn) (g : FnSt → FnSt) : (w.updFn f g).readAhead = w.readAhead := rfl
@[simp] theorem Work.updFn_log (w : Work) (f : Fn) (g : FnSt → FnSt) : (w.updFn f g).log = w.log := rfl
@[simp] theorem Work.updFn_epochs (w : Work) (f : Fn) (g : FnSt → FnSt) : (w.updFn f g).epochs = w.epochs := rfl
@[simp] theorem Work.updFn_fenced (w : Work) (f : Fn) (g : FnSt → FnSt) : (w.updFn f g).fenced = w.fenced := rfl
@[simp] theorem Work.updFn_inReset (w : Work) (f : Fn) (g : FnSt → FnSt) : (w.updFn f g).inReset = w.inReset := rfl
@[simp] theorem Work.updFn_testFailed (w : Work) (f : Fn) (g : FnSt → FnSt) : (w.updFn f g).testFailed = w.testFailed := rfl
@[simp] theorem Work.updFn_out (w : Work) (f : Fn) (g : FnSt → FnSt) : (w.updFn f g).out = w.out := rfl
@[simp] theorem Work.updFn_fresh (w : Work) (f : Fn) (g : FnSt → FnSt) : (w.updFn f g).fresh = w.fresh := rfl
@[simp] theorem Work.updFn_nextId (w : Work) (f : Fn) (g : FnSt → FnSt) : (w.updFn f g).nextId = w.nextId := rfl

@[simp] theorem Work.setQueue_time (w : Work) (f : Fn) (k : Nat) (v : Option QueueSt) : (w.setQueue f k v).time = w.time := rfl
@[simp] theorem Work.setQueue_slices (w : Work) (f : Fn) (k : Nat) (v : Option QueueSt) : (w.setQueue f k v).slices = w.slices := rfl
@[simp] theorem Work.setQueue_ctxs (w : Work) (f : Fn) (k : Nat) (v : Option QueueSt) : (w.setQueue f k v).ctxs = w.ctxs := rfl
@[simp] theorem Work.setQueue_cores (w : Work) (f : Fn) (k : Nat) (v : Option QueueSt) : (w.setQueue f k v).cores = w.cores := rfl
@[simp] theorem Work.setQueue_clusters (w : Work) (f : Fn) (k : Nat) (v : Option QueueSt) : (w.setQueue f k v).clusters = w.clusters := rfl
@[simp] theorem Work.setQueue_sluices (w : Work) (f : Fn) (k : Nat) (v : Option QueueSt) : (w.setQueue f k v).sluices = w.sluices := rfl
@[simp] theorem Work.setQueue_groups (w : Work) (f : Fn) (k : Nat) (v : Option QueueSt) : (w.setQueue f k v).groups = w.groups := rfl
@[simp] theorem Work.setQueue_combineIns (w : Work) (f : Fn) (k : Nat) (v : Option QueueSt) : (w.setQueue f k v).combineIns = w.combineIns := rfl
@[simp] theorem Work.setQueue_combineUses (w : Work) (f : Fn) (k : Nat) (v : Option QueueSt) : (w.setQueue f k v).combineUses = w.combineUses := rfl
@[simp] theorem Work.setQueue_combineCounts (w : Work) (f : Fn) (k : Nat) (v : Option QueueSt) : (w.setQueue f k v).combineCounts = w.combineCounts := rfl
@[simp] theorem Work.setQueue_failedUses (w : Work) (f : Fn) (k : Nat) (v : Option QueueSt) : (w.setQueue f k v).failedUses = w.failedUses := rfl
@[simp] theorem Work.setQueue_scale (w : Work) (f : Fn) (k : Nat) (v : Option QueueSt) : (w.setQueue f k v).scale = w.scale := rfl
@[simp] theorem Work.setQueue_jobs (w : Work) (f : Fn) (k : Nat) (v : Option QueueSt) : (w.setQueue f k v).jobs = w.jobs := rfl
@[simp] theorem Work.setQueue_progs (w : Work) (f : Fn) (k : Nat) (v : Option QueueSt) : (w.setQueue f k v).progs = w.progs := rfl
@[simp] theorem Work.setQueue_hbm (w : Work) (f : Fn) (k : Nat) (v : Option QueueSt) : (w.setQueue f k v).hbm = w.hbm := rfl
@[simp] theorem Work.setQueue_tags (w : Work) (f : Fn) (k : Nat) (v : Option QueueSt) : (w.setQueue f k v).tags = w.tags := rfl
@[simp] theorem Work.setQueue_ctr (w : Work) (f : Fn) (k : Nat) (v : Option QueueSt) : (w.setQueue f k v).ctr = w.ctr := rfl
@[simp] theorem Work.setQueue_nodes (w : Work) (f : Fn) (k : Nat) (v : Option QueueSt) : (w.setQueue f k v).nodes = w.nodes := rfl
@[simp] theorem Work.setQueue_lostPassed (w : Work) (f : Fn) (k : Nat) (v : Option QueueSt) : (w.setQueue f k v).lostPassed = w.lostPassed := rfl
@[simp] theorem Work.setQueue_writes (w : Work) (f : Fn) (k : Nat) (v : Option QueueSt) : (w.setQueue f k v).writes = w.writes := rfl
@[simp] theorem Work.setQueue_memStacks (w : Work) (f : Fn) (k : Nat) (v : Option QueueSt) : (w.setQueue f k v).memStacks = w.memStacks := rfl
@[simp] theorem Work.setQueue_parts (w : Work) (f : Fn) (k : Nat) (v : Option QueueSt) : (w.setQueue f k v).parts = w.parts := rfl
@[simp] theorem Work.setQueue_fab (w : Work) (f : Fn) (k : Nat) (v : Option QueueSt) : (w.setQueue f k v).fab = w.fab := rfl
@[simp] theorem Work.setQueue_red (w : Work) (f : Fn) (k : Nat) (v : Option QueueSt) : (w.setQueue f k v).red = w.red := rfl
@[simp] theorem Work.setQueue_commits (w : Work) (f : Fn) (k : Nat) (v : Option QueueSt) : (w.setQueue f k v).commits = w.commits := rfl
@[simp] theorem Work.setQueue_rebuild (w : Work) (f : Fn) (k : Nat) (v : Option QueueSt) : (w.setQueue f k v).rebuild = w.rebuild := rfl
@[simp] theorem Work.setQueue_heldWrites (w : Work) (f : Fn) (k : Nat) (v : Option QueueSt) : (w.setQueue f k v).heldWrites = w.heldWrites := rfl
@[simp] theorem Work.setQueue_readAhead (w : Work) (f : Fn) (k : Nat) (v : Option QueueSt) : (w.setQueue f k v).readAhead = w.readAhead := rfl
@[simp] theorem Work.setQueue_log (w : Work) (f : Fn) (k : Nat) (v : Option QueueSt) : (w.setQueue f k v).log = w.log := rfl
@[simp] theorem Work.setQueue_epochs (w : Work) (f : Fn) (k : Nat) (v : Option QueueSt) : (w.setQueue f k v).epochs = w.epochs := rfl
@[simp] theorem Work.setQueue_fenced (w : Work) (f : Fn) (k : Nat) (v : Option QueueSt) : (w.setQueue f k v).fenced = w.fenced := rfl
@[simp] theorem Work.setQueue_inReset (w : Work) (f : Fn) (k : Nat) (v : Option QueueSt) : (w.setQueue f k v).inReset = w.inReset := rfl
@[simp] theorem Work.setQueue_testFailed (w : Work) (f : Fn) (k : Nat) (v : Option QueueSt) : (w.setQueue f k v).testFailed = w.testFailed := rfl
@[simp] theorem Work.setQueue_out (w : Work) (f : Fn) (k : Nat) (v : Option QueueSt) : (w.setQueue f k v).out = w.out := rfl
@[simp] theorem Work.setQueue_fresh (w : Work) (f : Fn) (k : Nat) (v : Option QueueSt) : (w.setQueue f k v).fresh = w.fresh := rfl
@[simp] theorem Work.setQueue_nextId (w : Work) (f : Fn) (k : Nat) (v : Option QueueSt) : (w.setQueue f k v).nextId = w.nextId := rfl

@[simp] theorem Work.updCommit_time (w : Work) (q : Fin 8) (j : BitVec 16) (f : CommitSt → CommitSt) : (w.updCommit q j f).time = w.time := rfl
@[simp] theorem Work.updCommit_slices (w : Work) (q : Fin 8) (j : BitVec 16) (f : CommitSt → CommitSt) : (w.updCommit q j f).slices = w.slices := rfl
@[simp] theorem Work.updCommit_ctxs (w : Work) (q : Fin 8) (j : BitVec 16) (f : CommitSt → CommitSt) : (w.updCommit q j f).ctxs = w.ctxs := rfl
@[simp] theorem Work.updCommit_cores (w : Work) (q : Fin 8) (j : BitVec 16) (f : CommitSt → CommitSt) : (w.updCommit q j f).cores = w.cores := rfl
@[simp] theorem Work.updCommit_clusters (w : Work) (q : Fin 8) (j : BitVec 16) (f : CommitSt → CommitSt) : (w.updCommit q j f).clusters = w.clusters := rfl
@[simp] theorem Work.updCommit_sluices (w : Work) (q : Fin 8) (j : BitVec 16) (f : CommitSt → CommitSt) : (w.updCommit q j f).sluices = w.sluices := rfl
@[simp] theorem Work.updCommit_groups (w : Work) (q : Fin 8) (j : BitVec 16) (f : CommitSt → CommitSt) : (w.updCommit q j f).groups = w.groups := rfl
@[simp] theorem Work.updCommit_combineIns (w : Work) (q : Fin 8) (j : BitVec 16) (f : CommitSt → CommitSt) : (w.updCommit q j f).combineIns = w.combineIns := rfl
@[simp] theorem Work.updCommit_combineUses (w : Work) (q : Fin 8) (j : BitVec 16) (f : CommitSt → CommitSt) : (w.updCommit q j f).combineUses = w.combineUses := rfl
@[simp] theorem Work.updCommit_combineCounts (w : Work) (q : Fin 8) (j : BitVec 16) (f : CommitSt → CommitSt) : (w.updCommit q j f).combineCounts = w.combineCounts := rfl
@[simp] theorem Work.updCommit_failedUses (w : Work) (q : Fin 8) (j : BitVec 16) (f : CommitSt → CommitSt) : (w.updCommit q j f).failedUses = w.failedUses := rfl
@[simp] theorem Work.updCommit_scale (w : Work) (q : Fin 8) (j : BitVec 16) (f : CommitSt → CommitSt) : (w.updCommit q j f).scale = w.scale := rfl
@[simp] theorem Work.updCommit_jobs (w : Work) (q : Fin 8) (j : BitVec 16) (f : CommitSt → CommitSt) : (w.updCommit q j f).jobs = w.jobs := rfl
@[simp] theorem Work.updCommit_progs (w : Work) (q : Fin 8) (j : BitVec 16) (f : CommitSt → CommitSt) : (w.updCommit q j f).progs = w.progs := rfl
@[simp] theorem Work.updCommit_hbm (w : Work) (q : Fin 8) (j : BitVec 16) (f : CommitSt → CommitSt) : (w.updCommit q j f).hbm = w.hbm := rfl
@[simp] theorem Work.updCommit_tags (w : Work) (q : Fin 8) (j : BitVec 16) (f : CommitSt → CommitSt) : (w.updCommit q j f).tags = w.tags := rfl
@[simp] theorem Work.updCommit_ctr (w : Work) (q : Fin 8) (j : BitVec 16) (f : CommitSt → CommitSt) : (w.updCommit q j f).ctr = w.ctr := rfl
@[simp] theorem Work.updCommit_nodes (w : Work) (q : Fin 8) (j : BitVec 16) (f : CommitSt → CommitSt) : (w.updCommit q j f).nodes = w.nodes := rfl
@[simp] theorem Work.updCommit_lostPassed (w : Work) (q : Fin 8) (j : BitVec 16) (f : CommitSt → CommitSt) : (w.updCommit q j f).lostPassed = w.lostPassed := rfl
@[simp] theorem Work.updCommit_writes (w : Work) (q : Fin 8) (j : BitVec 16) (f : CommitSt → CommitSt) : (w.updCommit q j f).writes = w.writes := rfl
@[simp] theorem Work.updCommit_memStacks (w : Work) (q : Fin 8) (j : BitVec 16) (f : CommitSt → CommitSt) : (w.updCommit q j f).memStacks = w.memStacks := rfl
@[simp] theorem Work.updCommit_parts (w : Work) (q : Fin 8) (j : BitVec 16) (f : CommitSt → CommitSt) : (w.updCommit q j f).parts = w.parts := rfl
@[simp] theorem Work.updCommit_fab (w : Work) (q : Fin 8) (j : BitVec 16) (f : CommitSt → CommitSt) : (w.updCommit q j f).fab = w.fab := rfl
@[simp] theorem Work.updCommit_red (w : Work) (q : Fin 8) (j : BitVec 16) (f : CommitSt → CommitSt) : (w.updCommit q j f).red = w.red := rfl
@[simp] theorem Work.updCommit_rebuild (w : Work) (q : Fin 8) (j : BitVec 16) (f : CommitSt → CommitSt) : (w.updCommit q j f).rebuild = w.rebuild := rfl
@[simp] theorem Work.updCommit_heldWrites (w : Work) (q : Fin 8) (j : BitVec 16) (f : CommitSt → CommitSt) : (w.updCommit q j f).heldWrites = w.heldWrites := rfl
@[simp] theorem Work.updCommit_readAhead (w : Work) (q : Fin 8) (j : BitVec 16) (f : CommitSt → CommitSt) : (w.updCommit q j f).readAhead = w.readAhead := rfl
@[simp] theorem Work.updCommit_host (w : Work) (q : Fin 8) (j : BitVec 16) (f : CommitSt → CommitSt) : (w.updCommit q j f).host = w.host := rfl
@[simp] theorem Work.updCommit_log (w : Work) (q : Fin 8) (j : BitVec 16) (f : CommitSt → CommitSt) : (w.updCommit q j f).log = w.log := rfl
@[simp] theorem Work.updCommit_epochs (w : Work) (q : Fin 8) (j : BitVec 16) (f : CommitSt → CommitSt) : (w.updCommit q j f).epochs = w.epochs := rfl
@[simp] theorem Work.updCommit_fenced (w : Work) (q : Fin 8) (j : BitVec 16) (f : CommitSt → CommitSt) : (w.updCommit q j f).fenced = w.fenced := rfl
@[simp] theorem Work.updCommit_inReset (w : Work) (q : Fin 8) (j : BitVec 16) (f : CommitSt → CommitSt) : (w.updCommit q j f).inReset = w.inReset := rfl
@[simp] theorem Work.updCommit_testFailed (w : Work) (q : Fin 8) (j : BitVec 16) (f : CommitSt → CommitSt) : (w.updCommit q j f).testFailed = w.testFailed := rfl
@[simp] theorem Work.updCommit_out (w : Work) (q : Fin 8) (j : BitVec 16) (f : CommitSt → CommitSt) : (w.updCommit q j f).out = w.out := rfl
@[simp] theorem Work.updCommit_fresh (w : Work) (q : Fin 8) (j : BitVec 16) (f : CommitSt → CommitSt) : (w.updCommit q j f).fresh = w.fresh := rfl
@[simp] theorem Work.updCommit_nextId (w : Work) (q : Fin 8) (j : BitVec 16) (f : CommitSt → CommitSt) : (w.updCommit q j f).nextId = w.nextId := rfl

@[simp] theorem Work.setRed_time (w : Work) (j b : BitVec 16) (v : Option RedCtx) : (w.setRed j b v).time = w.time := rfl
@[simp] theorem Work.setRed_slices (w : Work) (j b : BitVec 16) (v : Option RedCtx) : (w.setRed j b v).slices = w.slices := rfl
@[simp] theorem Work.setRed_ctxs (w : Work) (j b : BitVec 16) (v : Option RedCtx) : (w.setRed j b v).ctxs = w.ctxs := rfl
@[simp] theorem Work.setRed_cores (w : Work) (j b : BitVec 16) (v : Option RedCtx) : (w.setRed j b v).cores = w.cores := rfl
@[simp] theorem Work.setRed_clusters (w : Work) (j b : BitVec 16) (v : Option RedCtx) : (w.setRed j b v).clusters = w.clusters := rfl
@[simp] theorem Work.setRed_sluices (w : Work) (j b : BitVec 16) (v : Option RedCtx) : (w.setRed j b v).sluices = w.sluices := rfl
@[simp] theorem Work.setRed_groups (w : Work) (j b : BitVec 16) (v : Option RedCtx) : (w.setRed j b v).groups = w.groups := rfl
@[simp] theorem Work.setRed_combineIns (w : Work) (j b : BitVec 16) (v : Option RedCtx) : (w.setRed j b v).combineIns = w.combineIns := rfl
@[simp] theorem Work.setRed_combineUses (w : Work) (j b : BitVec 16) (v : Option RedCtx) : (w.setRed j b v).combineUses = w.combineUses := rfl
@[simp] theorem Work.setRed_combineCounts (w : Work) (j b : BitVec 16) (v : Option RedCtx) : (w.setRed j b v).combineCounts = w.combineCounts := rfl
@[simp] theorem Work.setRed_failedUses (w : Work) (j b : BitVec 16) (v : Option RedCtx) : (w.setRed j b v).failedUses = w.failedUses := rfl
@[simp] theorem Work.setRed_scale (w : Work) (j b : BitVec 16) (v : Option RedCtx) : (w.setRed j b v).scale = w.scale := rfl
@[simp] theorem Work.setRed_jobs (w : Work) (j b : BitVec 16) (v : Option RedCtx) : (w.setRed j b v).jobs = w.jobs := rfl
@[simp] theorem Work.setRed_progs (w : Work) (j b : BitVec 16) (v : Option RedCtx) : (w.setRed j b v).progs = w.progs := rfl
@[simp] theorem Work.setRed_hbm (w : Work) (j b : BitVec 16) (v : Option RedCtx) : (w.setRed j b v).hbm = w.hbm := rfl
@[simp] theorem Work.setRed_tags (w : Work) (j b : BitVec 16) (v : Option RedCtx) : (w.setRed j b v).tags = w.tags := rfl
@[simp] theorem Work.setRed_ctr (w : Work) (j b : BitVec 16) (v : Option RedCtx) : (w.setRed j b v).ctr = w.ctr := rfl
@[simp] theorem Work.setRed_nodes (w : Work) (j b : BitVec 16) (v : Option RedCtx) : (w.setRed j b v).nodes = w.nodes := rfl
@[simp] theorem Work.setRed_lostPassed (w : Work) (j b : BitVec 16) (v : Option RedCtx) : (w.setRed j b v).lostPassed = w.lostPassed := rfl
@[simp] theorem Work.setRed_writes (w : Work) (j b : BitVec 16) (v : Option RedCtx) : (w.setRed j b v).writes = w.writes := rfl
@[simp] theorem Work.setRed_memStacks (w : Work) (j b : BitVec 16) (v : Option RedCtx) : (w.setRed j b v).memStacks = w.memStacks := rfl
@[simp] theorem Work.setRed_parts (w : Work) (j b : BitVec 16) (v : Option RedCtx) : (w.setRed j b v).parts = w.parts := rfl
@[simp] theorem Work.setRed_fab (w : Work) (j b : BitVec 16) (v : Option RedCtx) : (w.setRed j b v).fab = w.fab := rfl
@[simp] theorem Work.setRed_commits (w : Work) (j b : BitVec 16) (v : Option RedCtx) : (w.setRed j b v).commits = w.commits := rfl
@[simp] theorem Work.setRed_rebuild (w : Work) (j b : BitVec 16) (v : Option RedCtx) : (w.setRed j b v).rebuild = w.rebuild := rfl
@[simp] theorem Work.setRed_heldWrites (w : Work) (j b : BitVec 16) (v : Option RedCtx) : (w.setRed j b v).heldWrites = w.heldWrites := rfl
@[simp] theorem Work.setRed_readAhead (w : Work) (j b : BitVec 16) (v : Option RedCtx) : (w.setRed j b v).readAhead = w.readAhead := rfl
@[simp] theorem Work.setRed_host (w : Work) (j b : BitVec 16) (v : Option RedCtx) : (w.setRed j b v).host = w.host := rfl
@[simp] theorem Work.setRed_log (w : Work) (j b : BitVec 16) (v : Option RedCtx) : (w.setRed j b v).log = w.log := rfl
@[simp] theorem Work.setRed_epochs (w : Work) (j b : BitVec 16) (v : Option RedCtx) : (w.setRed j b v).epochs = w.epochs := rfl
@[simp] theorem Work.setRed_fenced (w : Work) (j b : BitVec 16) (v : Option RedCtx) : (w.setRed j b v).fenced = w.fenced := rfl
@[simp] theorem Work.setRed_inReset (w : Work) (j b : BitVec 16) (v : Option RedCtx) : (w.setRed j b v).inReset = w.inReset := rfl
@[simp] theorem Work.setRed_testFailed (w : Work) (j b : BitVec 16) (v : Option RedCtx) : (w.setRed j b v).testFailed = w.testFailed := rfl
@[simp] theorem Work.setRed_out (w : Work) (j b : BitVec 16) (v : Option RedCtx) : (w.setRed j b v).out = w.out := rfl
@[simp] theorem Work.setRed_fresh (w : Work) (j b : BitVec 16) (v : Option RedCtx) : (w.setRed j b v).fresh = w.fresh := rfl
@[simp] theorem Work.setRed_nextId (w : Work) (j b : BitVec 16) (v : Option RedCtx) : (w.setRed j b v).nextId = w.nextId := rfl

@[simp] theorem Work.updRedEv_time (w : Work) (q : Fin 8) (f : RedEvents → RedEvents) : (w.updRedEv q f).time = w.time := rfl
@[simp] theorem Work.updRedEv_slices (w : Work) (q : Fin 8) (f : RedEvents → RedEvents) : (w.updRedEv q f).slices = w.slices := rfl
@[simp] theorem Work.updRedEv_ctxs (w : Work) (q : Fin 8) (f : RedEvents → RedEvents) : (w.updRedEv q f).ctxs = w.ctxs := rfl
@[simp] theorem Work.updRedEv_cores (w : Work) (q : Fin 8) (f : RedEvents → RedEvents) : (w.updRedEv q f).cores = w.cores := rfl
@[simp] theorem Work.updRedEv_clusters (w : Work) (q : Fin 8) (f : RedEvents → RedEvents) : (w.updRedEv q f).clusters = w.clusters := rfl
@[simp] theorem Work.updRedEv_sluices (w : Work) (q : Fin 8) (f : RedEvents → RedEvents) : (w.updRedEv q f).sluices = w.sluices := rfl
@[simp] theorem Work.updRedEv_groups (w : Work) (q : Fin 8) (f : RedEvents → RedEvents) : (w.updRedEv q f).groups = w.groups := rfl
@[simp] theorem Work.updRedEv_combineIns (w : Work) (q : Fin 8) (f : RedEvents → RedEvents) : (w.updRedEv q f).combineIns = w.combineIns := rfl
@[simp] theorem Work.updRedEv_combineUses (w : Work) (q : Fin 8) (f : RedEvents → RedEvents) : (w.updRedEv q f).combineUses = w.combineUses := rfl
@[simp] theorem Work.updRedEv_combineCounts (w : Work) (q : Fin 8) (f : RedEvents → RedEvents) : (w.updRedEv q f).combineCounts = w.combineCounts := rfl
@[simp] theorem Work.updRedEv_failedUses (w : Work) (q : Fin 8) (f : RedEvents → RedEvents) : (w.updRedEv q f).failedUses = w.failedUses := rfl
@[simp] theorem Work.updRedEv_scale (w : Work) (q : Fin 8) (f : RedEvents → RedEvents) : (w.updRedEv q f).scale = w.scale := rfl
@[simp] theorem Work.updRedEv_jobs (w : Work) (q : Fin 8) (f : RedEvents → RedEvents) : (w.updRedEv q f).jobs = w.jobs := rfl
@[simp] theorem Work.updRedEv_progs (w : Work) (q : Fin 8) (f : RedEvents → RedEvents) : (w.updRedEv q f).progs = w.progs := rfl
@[simp] theorem Work.updRedEv_hbm (w : Work) (q : Fin 8) (f : RedEvents → RedEvents) : (w.updRedEv q f).hbm = w.hbm := rfl
@[simp] theorem Work.updRedEv_tags (w : Work) (q : Fin 8) (f : RedEvents → RedEvents) : (w.updRedEv q f).tags = w.tags := rfl
@[simp] theorem Work.updRedEv_ctr (w : Work) (q : Fin 8) (f : RedEvents → RedEvents) : (w.updRedEv q f).ctr = w.ctr := rfl
@[simp] theorem Work.updRedEv_nodes (w : Work) (q : Fin 8) (f : RedEvents → RedEvents) : (w.updRedEv q f).nodes = w.nodes := rfl
@[simp] theorem Work.updRedEv_lostPassed (w : Work) (q : Fin 8) (f : RedEvents → RedEvents) : (w.updRedEv q f).lostPassed = w.lostPassed := rfl
@[simp] theorem Work.updRedEv_writes (w : Work) (q : Fin 8) (f : RedEvents → RedEvents) : (w.updRedEv q f).writes = w.writes := rfl
@[simp] theorem Work.updRedEv_memStacks (w : Work) (q : Fin 8) (f : RedEvents → RedEvents) : (w.updRedEv q f).memStacks = w.memStacks := rfl
@[simp] theorem Work.updRedEv_parts (w : Work) (q : Fin 8) (f : RedEvents → RedEvents) : (w.updRedEv q f).parts = w.parts := rfl
@[simp] theorem Work.updRedEv_fab (w : Work) (q : Fin 8) (f : RedEvents → RedEvents) : (w.updRedEv q f).fab = w.fab := rfl
@[simp] theorem Work.updRedEv_commits (w : Work) (q : Fin 8) (f : RedEvents → RedEvents) : (w.updRedEv q f).commits = w.commits := rfl
@[simp] theorem Work.updRedEv_rebuild (w : Work) (q : Fin 8) (f : RedEvents → RedEvents) : (w.updRedEv q f).rebuild = w.rebuild := rfl
@[simp] theorem Work.updRedEv_heldWrites (w : Work) (q : Fin 8) (f : RedEvents → RedEvents) : (w.updRedEv q f).heldWrites = w.heldWrites := rfl
@[simp] theorem Work.updRedEv_readAhead (w : Work) (q : Fin 8) (f : RedEvents → RedEvents) : (w.updRedEv q f).readAhead = w.readAhead := rfl
@[simp] theorem Work.updRedEv_host (w : Work) (q : Fin 8) (f : RedEvents → RedEvents) : (w.updRedEv q f).host = w.host := rfl
@[simp] theorem Work.updRedEv_log (w : Work) (q : Fin 8) (f : RedEvents → RedEvents) : (w.updRedEv q f).log = w.log := rfl
@[simp] theorem Work.updRedEv_epochs (w : Work) (q : Fin 8) (f : RedEvents → RedEvents) : (w.updRedEv q f).epochs = w.epochs := rfl
@[simp] theorem Work.updRedEv_fenced (w : Work) (q : Fin 8) (f : RedEvents → RedEvents) : (w.updRedEv q f).fenced = w.fenced := rfl
@[simp] theorem Work.updRedEv_inReset (w : Work) (q : Fin 8) (f : RedEvents → RedEvents) : (w.updRedEv q f).inReset = w.inReset := rfl
@[simp] theorem Work.updRedEv_testFailed (w : Work) (q : Fin 8) (f : RedEvents → RedEvents) : (w.updRedEv q f).testFailed = w.testFailed := rfl
@[simp] theorem Work.updRedEv_out (w : Work) (q : Fin 8) (f : RedEvents → RedEvents) : (w.updRedEv q f).out = w.out := rfl
@[simp] theorem Work.updRedEv_fresh (w : Work) (q : Fin 8) (f : RedEvents → RedEvents) : (w.updRedEv q f).fresh = w.fresh := rfl
@[simp] theorem Work.updRedEv_nextId (w : Work) (q : Fin 8) (f : RedEvents → RedEvents) : (w.updRedEv q f).nextId = w.nextId := rfl

@[simp] theorem Work.emit_time (w : Work) (e : Emit) : (w.emit e).time = w.time := rfl
@[simp] theorem Work.emit_slices (w : Work) (e : Emit) : (w.emit e).slices = w.slices := rfl
@[simp] theorem Work.emit_ctxs (w : Work) (e : Emit) : (w.emit e).ctxs = w.ctxs := rfl
@[simp] theorem Work.emit_cores (w : Work) (e : Emit) : (w.emit e).cores = w.cores := rfl
@[simp] theorem Work.emit_clusters (w : Work) (e : Emit) : (w.emit e).clusters = w.clusters := rfl
@[simp] theorem Work.emit_sluices (w : Work) (e : Emit) : (w.emit e).sluices = w.sluices := rfl
@[simp] theorem Work.emit_groups (w : Work) (e : Emit) : (w.emit e).groups = w.groups := rfl
@[simp] theorem Work.emit_combineIns (w : Work) (e : Emit) : (w.emit e).combineIns = w.combineIns := rfl
@[simp] theorem Work.emit_combineUses (w : Work) (e : Emit) : (w.emit e).combineUses = w.combineUses := rfl
@[simp] theorem Work.emit_combineCounts (w : Work) (e : Emit) : (w.emit e).combineCounts = w.combineCounts := rfl
@[simp] theorem Work.emit_failedUses (w : Work) (e : Emit) : (w.emit e).failedUses = w.failedUses := rfl
@[simp] theorem Work.emit_scale (w : Work) (e : Emit) : (w.emit e).scale = w.scale := rfl
@[simp] theorem Work.emit_jobs (w : Work) (e : Emit) : (w.emit e).jobs = w.jobs := rfl
@[simp] theorem Work.emit_progs (w : Work) (e : Emit) : (w.emit e).progs = w.progs := rfl
@[simp] theorem Work.emit_hbm (w : Work) (e : Emit) : (w.emit e).hbm = w.hbm := rfl
@[simp] theorem Work.emit_tags (w : Work) (e : Emit) : (w.emit e).tags = w.tags := rfl
@[simp] theorem Work.emit_ctr (w : Work) (e : Emit) : (w.emit e).ctr = w.ctr := rfl
@[simp] theorem Work.emit_nodes (w : Work) (e : Emit) : (w.emit e).nodes = w.nodes := rfl
@[simp] theorem Work.emit_lostPassed (w : Work) (e : Emit) : (w.emit e).lostPassed = w.lostPassed := rfl
@[simp] theorem Work.emit_writes (w : Work) (e : Emit) : (w.emit e).writes = w.writes := rfl
@[simp] theorem Work.emit_memStacks (w : Work) (e : Emit) : (w.emit e).memStacks = w.memStacks := rfl
@[simp] theorem Work.emit_parts (w : Work) (e : Emit) : (w.emit e).parts = w.parts := rfl
@[simp] theorem Work.emit_fab (w : Work) (e : Emit) : (w.emit e).fab = w.fab := rfl
@[simp] theorem Work.emit_red (w : Work) (e : Emit) : (w.emit e).red = w.red := rfl
@[simp] theorem Work.emit_commits (w : Work) (e : Emit) : (w.emit e).commits = w.commits := rfl
@[simp] theorem Work.emit_rebuild (w : Work) (e : Emit) : (w.emit e).rebuild = w.rebuild := rfl
@[simp] theorem Work.emit_heldWrites (w : Work) (e : Emit) : (w.emit e).heldWrites = w.heldWrites := rfl
@[simp] theorem Work.emit_readAhead (w : Work) (e : Emit) : (w.emit e).readAhead = w.readAhead := rfl
@[simp] theorem Work.emit_host (w : Work) (e : Emit) : (w.emit e).host = w.host := rfl
@[simp] theorem Work.emit_log (w : Work) (e : Emit) : (w.emit e).log = w.log := rfl
@[simp] theorem Work.emit_epochs (w : Work) (e : Emit) : (w.emit e).epochs = w.epochs := rfl
@[simp] theorem Work.emit_fenced (w : Work) (e : Emit) : (w.emit e).fenced = w.fenced := rfl
@[simp] theorem Work.emit_inReset (w : Work) (e : Emit) : (w.emit e).inReset = w.inReset := rfl
@[simp] theorem Work.emit_testFailed (w : Work) (e : Emit) : (w.emit e).testFailed = w.testFailed := rfl
@[simp] theorem Work.emit_fresh (w : Work) (e : Emit) : (w.emit e).fresh = w.fresh := rfl
@[simp] theorem Work.emit_nextId (w : Work) (e : Emit) : (w.emit e).nextId = w.nextId := rfl

@[simp] theorem Work.logEv_time (w : Work) (u : BitVec 16) (k v : Nat) (p : Byte) (l : Nat) : (w.logEv u k v p l).time = w.time := rfl
@[simp] theorem Work.logEv_slices (w : Work) (u : BitVec 16) (k v : Nat) (p : Byte) (l : Nat) : (w.logEv u k v p l).slices = w.slices := rfl
@[simp] theorem Work.logEv_ctxs (w : Work) (u : BitVec 16) (k v : Nat) (p : Byte) (l : Nat) : (w.logEv u k v p l).ctxs = w.ctxs := rfl
@[simp] theorem Work.logEv_cores (w : Work) (u : BitVec 16) (k v : Nat) (p : Byte) (l : Nat) : (w.logEv u k v p l).cores = w.cores := rfl
@[simp] theorem Work.logEv_clusters (w : Work) (u : BitVec 16) (k v : Nat) (p : Byte) (l : Nat) : (w.logEv u k v p l).clusters = w.clusters := rfl
@[simp] theorem Work.logEv_sluices (w : Work) (u : BitVec 16) (k v : Nat) (p : Byte) (l : Nat) : (w.logEv u k v p l).sluices = w.sluices := rfl
@[simp] theorem Work.logEv_groups (w : Work) (u : BitVec 16) (k v : Nat) (p : Byte) (l : Nat) : (w.logEv u k v p l).groups = w.groups := rfl
@[simp] theorem Work.logEv_combineIns (w : Work) (u : BitVec 16) (k v : Nat) (p : Byte) (l : Nat) : (w.logEv u k v p l).combineIns = w.combineIns := rfl
@[simp] theorem Work.logEv_combineUses (w : Work) (u : BitVec 16) (k v : Nat) (p : Byte) (l : Nat) : (w.logEv u k v p l).combineUses = w.combineUses := rfl
@[simp] theorem Work.logEv_combineCounts (w : Work) (u : BitVec 16) (k v : Nat) (p : Byte) (l : Nat) : (w.logEv u k v p l).combineCounts = w.combineCounts := rfl
@[simp] theorem Work.logEv_failedUses (w : Work) (u : BitVec 16) (k v : Nat) (p : Byte) (l : Nat) : (w.logEv u k v p l).failedUses = w.failedUses := rfl
@[simp] theorem Work.logEv_scale (w : Work) (u : BitVec 16) (k v : Nat) (p : Byte) (l : Nat) : (w.logEv u k v p l).scale = w.scale := rfl
@[simp] theorem Work.logEv_jobs (w : Work) (u : BitVec 16) (k v : Nat) (p : Byte) (l : Nat) : (w.logEv u k v p l).jobs = w.jobs := rfl
@[simp] theorem Work.logEv_progs (w : Work) (u : BitVec 16) (k v : Nat) (p : Byte) (l : Nat) : (w.logEv u k v p l).progs = w.progs := rfl
@[simp] theorem Work.logEv_hbm (w : Work) (u : BitVec 16) (k v : Nat) (p : Byte) (l : Nat) : (w.logEv u k v p l).hbm = w.hbm := rfl
@[simp] theorem Work.logEv_tags (w : Work) (u : BitVec 16) (k v : Nat) (p : Byte) (l : Nat) : (w.logEv u k v p l).tags = w.tags := rfl
@[simp] theorem Work.logEv_ctr (w : Work) (u : BitVec 16) (k v : Nat) (p : Byte) (l : Nat) : (w.logEv u k v p l).ctr = w.ctr := rfl
@[simp] theorem Work.logEv_nodes (w : Work) (u : BitVec 16) (k v : Nat) (p : Byte) (l : Nat) : (w.logEv u k v p l).nodes = w.nodes := rfl
@[simp] theorem Work.logEv_lostPassed (w : Work) (u : BitVec 16) (k v : Nat) (p : Byte) (l : Nat) : (w.logEv u k v p l).lostPassed = w.lostPassed := rfl
@[simp] theorem Work.logEv_writes (w : Work) (u : BitVec 16) (k v : Nat) (p : Byte) (l : Nat) : (w.logEv u k v p l).writes = w.writes := rfl
@[simp] theorem Work.logEv_memStacks (w : Work) (u : BitVec 16) (k v : Nat) (p : Byte) (l : Nat) : (w.logEv u k v p l).memStacks = w.memStacks := rfl
@[simp] theorem Work.logEv_parts (w : Work) (u : BitVec 16) (k v : Nat) (p : Byte) (l : Nat) : (w.logEv u k v p l).parts = w.parts := rfl
@[simp] theorem Work.logEv_fab (w : Work) (u : BitVec 16) (k v : Nat) (p : Byte) (l : Nat) : (w.logEv u k v p l).fab = w.fab := rfl
@[simp] theorem Work.logEv_red (w : Work) (u : BitVec 16) (k v : Nat) (p : Byte) (l : Nat) : (w.logEv u k v p l).red = w.red := rfl
@[simp] theorem Work.logEv_commits (w : Work) (u : BitVec 16) (k v : Nat) (p : Byte) (l : Nat) : (w.logEv u k v p l).commits = w.commits := rfl
@[simp] theorem Work.logEv_rebuild (w : Work) (u : BitVec 16) (k v : Nat) (p : Byte) (l : Nat) : (w.logEv u k v p l).rebuild = w.rebuild := rfl
@[simp] theorem Work.logEv_heldWrites (w : Work) (u : BitVec 16) (k v : Nat) (p : Byte) (l : Nat) : (w.logEv u k v p l).heldWrites = w.heldWrites := rfl
@[simp] theorem Work.logEv_readAhead (w : Work) (u : BitVec 16) (k v : Nat) (p : Byte) (l : Nat) : (w.logEv u k v p l).readAhead = w.readAhead := rfl
@[simp] theorem Work.logEv_host (w : Work) (u : BitVec 16) (k v : Nat) (p : Byte) (l : Nat) : (w.logEv u k v p l).host = w.host := rfl
@[simp] theorem Work.logEv_epochs (w : Work) (u : BitVec 16) (k v : Nat) (p : Byte) (l : Nat) : (w.logEv u k v p l).epochs = w.epochs := rfl
@[simp] theorem Work.logEv_fenced (w : Work) (u : BitVec 16) (k v : Nat) (p : Byte) (l : Nat) : (w.logEv u k v p l).fenced = w.fenced := rfl
@[simp] theorem Work.logEv_inReset (w : Work) (u : BitVec 16) (k v : Nat) (p : Byte) (l : Nat) : (w.logEv u k v p l).inReset = w.inReset := rfl
@[simp] theorem Work.logEv_testFailed (w : Work) (u : BitVec 16) (k v : Nat) (p : Byte) (l : Nat) : (w.logEv u k v p l).testFailed = w.testFailed := rfl
@[simp] theorem Work.logEv_out (w : Work) (u : BitVec 16) (k v : Nat) (p : Byte) (l : Nat) : (w.logEv u k v p l).out = w.out := rfl
@[simp] theorem Work.logEv_fresh (w : Work) (u : BitVec 16) (k v : Nat) (p : Byte) (l : Nat) : (w.logEv u k v p l).fresh = w.fresh := rfl
@[simp] theorem Work.logEv_nextId (w : Work) (u : BitVec 16) (k v : Nat) (p : Byte) (l : Nat) : (w.logEv u k v p l).nextId = w.nextId := rfl

@[simp] theorem Work.updPort_fab_groupRoutes (w : Work) (p : Nat) (f : Port → Port) : (w.updPort p f).fab.groupRoutes = w.fab.groupRoutes := rfl
@[simp] theorem Work.updPort_fab_memberRoutes (w : Work) (p : Nat) (f : Port → Port) : (w.updPort p f).fab.memberRoutes = w.fab.memberRoutes := rfl
@[simp] theorem Work.updPort_fab_mcast (w : Work) (p : Nat) (f : Port → Port) : (w.updPort p f).fab.mcast = w.fab.mcast := rfl
@[simp] theorem Work.updPort_fab_send (w : Work) (p : Nat) (f : Port → Port) : (w.updPort p f).fab.send = w.fab.send := rfl
@[simp] theorem Work.updPort_fab_recv (w : Work) (p : Nat) (f : Port → Port) : (w.updPort p f).fab.recv = w.fab.recv := rfl
@[simp] theorem Work.updPort_fab_reads (w : Work) (p : Nat) (f : Port → Port) : (w.updPort p f).fab.reads = w.fab.reads := rfl
@[simp] theorem Work.updPort_fab_nextTag (w : Work) (p : Nat) (f : Port → Port) : (w.updPort p f).fab.nextTag = w.fab.nextTag := rfl
@[simp] theorem Work.updPort_fab_memberAcks (w : Work) (p : Nat) (f : Port → Port) : (w.updPort p f).fab.memberAcks = w.fab.memberAcks := rfl
@[simp] theorem Work.updPort_fab_noRoute (w : Work) (p : Nat) (f : Port → Port) : (w.updPort p f).fab.noRoute = w.fab.noRoute := rfl
@[simp] theorem Work.updPort_fab_loop (w : Work) (p : Nat) (f : Port → Port) : (w.updPort p f).fab.loop = w.fab.loop := rfl
@[simp] theorem Work.updPort_fab_hold (w : Work) (p : Nat) (f : Port → Port) : (w.updPort p f).fab.hold = w.fab.hold := rfl
@[simp] theorem Work.updFn_host_queues (w : Work) (f : Fn) (g : FnSt → FnSt) : (w.updFn f g).host.queues = w.host.queues := rfl
@[simp] theorem Work.updFn_host_pcie (w : Work) (f : Fn) (g : FnSt → FnSt) : (w.updFn f g).host.pcie = w.host.pcie := rfl
@[simp] theorem Work.updFn_host_stalls (w : Work) (f : Fn) (g : FnSt → FnSt) : (w.updFn f g).host.stalls = w.host.stalls := rfl
@[simp] theorem Work.updFn_host_stalled (w : Work) (f : Fn) (g : FnSt → FnSt) : (w.updFn f g).host.stalled = w.host.stalled := rfl
@[simp] theorem Work.updFn_host_order (w : Work) (f : Fn) (g : FnSt → FnSt) : (w.updFn f g).host.order = w.host.order := rfl
@[simp] theorem Work.updFn_host_resuming (w : Work) (f : Fn) (g : FnSt → FnSt) : (w.updFn f g).host.resuming = w.host.resuming := rfl
@[simp] theorem Work.updFn_host_rebootCmd (w : Work) (f : Fn) (g : FnSt → FnSt) : (w.updFn f g).host.rebootCmd = w.host.rebootCmd := rfl
@[simp] theorem Work.setQueue_host_fns (w : Work) (f : Fn) (k : Nat) (v : Option QueueSt) : (w.setQueue f k v).host.fns = w.host.fns := rfl
@[simp] theorem Work.setQueue_host_pcie (w : Work) (f : Fn) (k : Nat) (v : Option QueueSt) : (w.setQueue f k v).host.pcie = w.host.pcie := rfl
@[simp] theorem Work.setQueue_host_stalls (w : Work) (f : Fn) (k : Nat) (v : Option QueueSt) : (w.setQueue f k v).host.stalls = w.host.stalls := rfl
@[simp] theorem Work.setQueue_host_stalled (w : Work) (f : Fn) (k : Nat) (v : Option QueueSt) : (w.setQueue f k v).host.stalled = w.host.stalled := rfl
@[simp] theorem Work.setQueue_host_order (w : Work) (f : Fn) (k : Nat) (v : Option QueueSt) : (w.setQueue f k v).host.order = w.host.order := rfl
@[simp] theorem Work.setQueue_host_resuming (w : Work) (f : Fn) (k : Nat) (v : Option QueueSt) : (w.setQueue f k v).host.resuming = w.host.resuming := rfl
@[simp] theorem Work.setQueue_host_rebootCmd (w : Work) (f : Fn) (k : Nat) (v : Option QueueSt) : (w.setQueue f k v).host.rebootCmd = w.host.rebootCmd := rfl
@[simp] theorem Work.setRed_red_nodes (w : Work) (j b : BitVec 16) (v : Option RedCtx) : (w.setRed j b v).red.nodes = w.red.nodes := rfl
@[simp] theorem Work.setRed_red_events (w : Work) (j b : BitVec 16) (v : Option RedCtx) : (w.setRed j b v).red.events = w.red.events := rfl
@[simp] theorem Work.setRed_red_early (w : Work) (j b : BitVec 16) (v : Option RedCtx) : (w.setRed j b v).red.early = w.red.early := rfl
@[simp] theorem Work.setRed_red_held (w : Work) (j b : BitVec 16) (v : Option RedCtx) : (w.setRed j b v).red.held = w.red.held := rfl
@[simp] theorem Work.updRedEv_red_nodes (w : Work) (q : Fin 8) (f : RedEvents → RedEvents) : (w.updRedEv q f).red.nodes = w.red.nodes := rfl
@[simp] theorem Work.updRedEv_red_ctxs (w : Work) (q : Fin 8) (f : RedEvents → RedEvents) : (w.updRedEv q f).red.ctxs = w.red.ctxs := rfl
@[simp] theorem Work.updRedEv_red_early (w : Work) (q : Fin 8) (f : RedEvents → RedEvents) : (w.updRedEv q f).red.early = w.red.early := rfl
@[simp] theorem Work.updRedEv_red_held (w : Work) (q : Fin 8) (f : RedEvents → RedEvents) : (w.updRedEv q f).red.held = w.red.held := rfl

end Sys2Proof.Machine
end

