-- ==== Sys2Proof/Laws/Tbl.lean ====
section
/-! SUPPORT. Sparse tables and byte memories: reading after writing, and the canonical form that every operation keeps. -/

namespace Sys2Proof

variable {α : Type}

theorem Tbl.get_put_same (d : α) (t : Tbl α) (k : Nat) (v : α) : Tbl.get d (t.put k v) k = v := by
  induction t with
  | nil => simp [Tbl.put, Tbl.get]
  | cons e t ih =>
    obtain ⟨j, u⟩ := e
    simp only [Tbl.put]
    split
    · simp [Tbl.get]
    · split
      · simp [Tbl.get]
      · simp [Tbl.get, *]

theorem Tbl.get_put_other (d : α) (t : Tbl α) {k j : Nat} (h : j ≠ k) (v : α) :
    Tbl.get d (t.put k v) j = Tbl.get d t j := by
  induction t with
  | nil => simp [Tbl.put, Tbl.get, h]
  | cons e t ih =>
    obtain ⟨i, u⟩ := e
    simp only [Tbl.put]
    split
    · simp [Tbl.get, h]
    · split
      · subst_vars; simp [Tbl.get, h]
      · simp [Tbl.get, ih]

theorem Tbl.get_del_same (d : α) (t : Tbl α) (k : Nat) : Tbl.get d (t.del k) k = d := by
  induction t with
  | nil => rfl
  | cons e t ih =>
    obtain ⟨j, u⟩ := e
    simp only [Tbl.del]
    split
    · exact ih
    · simp [Tbl.get, *]

theorem Tbl.get_del_other (d : α) (t : Tbl α) {k j : Nat} (h : j ≠ k) : Tbl.get d (t.del k) j = Tbl.get d t j := by
  induction t with
  | nil => rfl
  | cons e t ih =>
    obtain ⟨i, u⟩ := e
    simp only [Tbl.del]
    split
    · subst_vars; simp [Tbl.get, h, ih]
    · simp [Tbl.get, ih]

theorem Tbl.sortedFrom_mono (t : Tbl α) {a b : Nat} (h : a ≤ b) (s : Tbl.sortedFrom b t = true) :
    Tbl.sortedFrom a t = true := by
  cases t with
  | nil => rfl
  | cons e t =>
    obtain ⟨j, u⟩ := e
    simp only [Tbl.sortedFrom, Bool.and_eq_true, decide_eq_true_eq] at s ⊢
    exact ⟨by omega, s.2⟩

theorem Tbl.sortedFrom_put (t : Tbl α) (b k : Nat) (v : α) (hk : b ≤ k) (s : Tbl.sortedFrom b t = true) :
    Tbl.sortedFrom b (t.put k v) = true := by
  induction t generalizing b with
  | nil => simp [Tbl.put, Tbl.sortedFrom, hk]
  | cons e t ih =>
    obtain ⟨j, u⟩ := e
    simp only [Tbl.sortedFrom, Bool.and_eq_true, decide_eq_true_eq] at s
    simp only [Tbl.put]
    split
    · simp only [Tbl.sortedFrom, Bool.and_eq_true, decide_eq_true_eq]
      exact ⟨hk, by omega, s.2⟩
    · split
      · subst_vars; simp only [Tbl.sortedFrom, Bool.and_eq_true, decide_eq_true_eq]; exact s
      · simp only [Tbl.sortedFrom, Bool.and_eq_true, decide_eq_true_eq]
        exact ⟨s.1, ih (j + 1) (by omega) s.2⟩

theorem Tbl.sortedFrom_del (t : Tbl α) (b k : Nat) (s : Tbl.sortedFrom b t = true) :
    Tbl.sortedFrom b (t.del k) = true := by
  induction t generalizing b with
  | nil => rfl
  | cons e t ih =>
    obtain ⟨j, u⟩ := e
    simp only [Tbl.sortedFrom, Bool.and_eq_true, decide_eq_true_eq] at s
    simp only [Tbl.del]
    split
    · exact ih b (Tbl.sortedFrom_mono t (by omega) s.2)
    · simp only [Tbl.sortedFrom, Bool.and_eq_true, decide_eq_true_eq]
      exact ⟨s.1, ih (j + 1) s.2⟩

theorem Tbl.all_put (p : Nat × α → Bool) (t : Tbl α) (k : Nat) (v : α) (hv : p (k, v) = true) (h : t.all p = true) :
    (t.put k v).all p = true := by
  induction t with
  | nil => simp [Tbl.put, hv]
  | cons e t ih =>
    obtain ⟨j, u⟩ := e
    simp only [List.all_cons, Bool.and_eq_true] at h
    simp only [Tbl.put]
    split
    · simp only [List.all_cons, Bool.and_eq_true]; exact ⟨hv, h⟩
    · split
      · simp only [List.all_cons, Bool.and_eq_true]; exact ⟨hv, h.2⟩
      · simp only [List.all_cons, Bool.and_eq_true]; exact ⟨h.1, ih h.2⟩

theorem Tbl.all_del (p : Nat × α → Bool) (t : Tbl α) (k : Nat) (h : t.all p = true) : (t.del k).all p = true := by
  induction t with
  | nil => rfl
  | cons e t ih =>
    obtain ⟨j, u⟩ := e
    simp only [List.all_cons, Bool.and_eq_true] at h
    simp only [Tbl.del]
    split
    · exact ih h.2
    · simp only [List.all_cons, Bool.and_eq_true]; exact ⟨h.1, ih h.2⟩

/-- Dropping entries keeps the order of the keys. -/
theorem Tbl.sortedFrom_filter (p : Nat × α → Bool) (t : Tbl α) (b : Nat) (h : Tbl.sortedFrom b t = true) :
    Tbl.sortedFrom b (t.filter p) = true := by
  induction t generalizing b with
  | nil => rfl
  | cons e t ih =>
    obtain ⟨j, u⟩ := e
    simp only [Tbl.sortedFrom, Bool.and_eq_true, decide_eq_true_eq] at h
    simp only [List.filter_cons]
    split
    · simp only [Tbl.sortedFrom, Bool.and_eq_true, decide_eq_true_eq]; exact ⟨h.1, ih _ h.2⟩
    · exact ih b (Tbl.sortedFrom_mono t (Nat.le_succ_of_le h.1) h.2)

variable [DecidableEq α]

@[simp] theorem Tbl.get_set_same (d : α) (t : Tbl α) (k : Nat) (v : α) : Tbl.get d (Tbl.set d t k v) k = v := by
  unfold Tbl.set
  split
  · next h => rw [Tbl.get_del_same, h]
  · exact Tbl.get_put_same d t k v

theorem Tbl.get_set_other (d : α) (t : Tbl α) {k j : Nat} (h : j ≠ k) (v : α) :
    Tbl.get d (Tbl.set d t k v) j = Tbl.get d t j := by
  unfold Tbl.set
  split
  · exact Tbl.get_del_other d t h
  · exact Tbl.get_put_other d t h v

/-- Reading a table after one entry was written. -/
theorem Tbl.get_set (d : α) (t : Tbl α) (k j : Nat) (v : α) :
    Tbl.get d (Tbl.set d t k v) j = if j = k then v else Tbl.get d t j := by
  split
  · next h => subst h; exact Tbl.get_set_same d t j v
  · next h => exact Tbl.get_set_other d t h v

@[simp] theorem Tbl.get_upd_same (d : α) (t : Tbl α) (k : Nat) (f : α → α) :
    Tbl.get d (Tbl.upd d t k f) k = f (Tbl.get d t k) := Tbl.get_set_same d t k _

theorem Tbl.get_upd_other (d : α) (t : Tbl α) {k j : Nat} (h : j ≠ k) (f : α → α) :
    Tbl.get d (Tbl.upd d t k f) j = Tbl.get d t j := Tbl.get_set_other d t h _

/-- Writing an entry keeps the canonical form. -/
theorem Tbl.wf_set (d : α) (t : Tbl α) (k : Nat) (v : α) (h : Tbl.wf d t = true) : Tbl.wf d (Tbl.set d t k v) = true := by
  simp only [Tbl.wf, Bool.and_eq_true] at h ⊢
  unfold Tbl.set
  split
  · exact ⟨Tbl.sortedFrom_del t 0 k h.1, Tbl.all_del _ t k h.2⟩
  · exact ⟨Tbl.sortedFrom_put t 0 k v (Nat.zero_le k) h.1, Tbl.all_put _ t k v (by simpa using ‹¬v = d›) h.2⟩

/-- Changing an entry keeps the canonical form. -/
theorem Tbl.wf_upd (d : α) (t : Tbl α) (k : Nat) (f : α → α) (h : Tbl.wf d t = true) : Tbl.wf d (Tbl.upd d t k f) = true :=
  Tbl.wf_set d t k _ h

/-- An empty table is in canonical form. -/
theorem Tbl.wf_nil (d : α) : Tbl.wf d ([] : Tbl α) = true := rfl

/-- Dropping entries keeps the canonical form. -/
theorem Tbl.wf_filter (d : α) (p : Nat × α → Bool) (t : Tbl α) (h : Tbl.wf d t = true) : Tbl.wf d (t.filter p) = true := by
  simp only [Tbl.wf, Bool.and_eq_true, List.all_eq_true] at h ⊢
  exact ⟨Tbl.sortedFrom_filter p t 0 h.1, fun e he => h.2 e (List.mem_filter.mp he).1⟩

/-- Forgetting bytes keeps the canonical form. -/
theorem Mem.wf_filter (p : Nat × Byte → Bool) (m : Mem) (h : m.wf = true) : Mem.wf (m.filter p) = true := Tbl.wf_filter 0 p m h

/-- A byte written is the byte read there, and every other byte reads as before. -/
theorem Mem.read_write (m : Mem) (a j : Nat) (b : Byte) : (m.write a b).read j = if j = a then b else m.read j :=
  Tbl.get_set 0 m a j b

/-- Writing a byte keeps the canonical form. -/
theorem Mem.wf_write (m : Mem) (a : Nat) (b : Byte) (h : m.wf = true) : (m.write a b).wf = true := Tbl.wf_set 0 m a b h

/-- Writing bytes keeps the canonical form. -/
theorem Mem.wf_writeN (bs : List Byte) (m : Mem) (a : Nat) (h : m.wf = true) : (m.writeN a bs).wf = true := by
  induction bs generalizing m a with
  | nil => exact h
  | cons b bs ih => exact ih (m.write a b) (a + 1) (Mem.wf_write m a b h)

/-- Bytes outside a written range read as before. -/
theorem Mem.read_writeN_outside (bs : List Byte) (m : Mem) (a j : Nat) (h : j < a ∨ a + bs.length ≤ j) :
    (m.writeN a bs).read j = m.read j := by
  induction bs generalizing m a with
  | nil => rfl
  | cons b bs ih =>
    simp only [List.length_cons] at h
    rw [Mem.writeN, ih (m.write a b) (a + 1) (by omega), Mem.read_write, if_neg (by omega)]

/-- A byte of a written range reads as written. -/
theorem Mem.read_writeN_inside (bs : List Byte) (m : Mem) (a i : Nat) (h : i < bs.length) :
    (m.writeN a bs).read (a + i) = bs[i] := by
  induction bs generalizing m a i with
  | nil => simp at h
  | cons b bs ih =>
    cases i with
    | zero =>
      have o := Mem.read_writeN_outside bs (m.write a b) (a + 1) a (Or.inl (Nat.lt_succ_self a))
      simp only [Mem.writeN, Nat.add_zero, o, Mem.read_write, if_pos, List.getElem_cons_zero]
    | succ i =>
      have hi : i < bs.length := by simpa using h
      have e : a + (i + 1) = (a + 1) + i := by omega
      rw [Mem.writeN, e, ih (m.write a b) (a + 1) i hi]
      rfl

end Sys2Proof
end

