-- ==== Sys2Proof/Laws/Access.lean ====
section
/-! SUPPORT. Reading one unit of the state after an update: the unit itself, and every other. -/

namespace Sys2Proof.Machine

/-- Contexts have distinct places. -/
theorem ctxKey_inj {c d : CtxId} (h : ctxKey c = ctxKey d) : c = d := by
  obtain ⟨n, k, i⟩ := c
  obtain ⟨m, l, j⟩ := d
  simp only [ctxKey] at h
  have : n.val = m.val ∧ k.val = l.val ∧ i.val = j.val := by omega
  simp only [CtxId.mk.injEq, Fin.ext_iff]
  exact this

/-- Functions have distinct places. -/
theorem fnKey_inj {f g : Fn} (h : fnKey f = fnKey g) : f = g := by
  obtain ⟨p, i⟩ := f
  obtain ⟨q, j⟩ := g
  simp only [fnKey] at h
  have : p.val = q.val ∧ i.val = j.val := by omega
  simp only [Fn.mk.injEq, Fin.ext_iff]
  exact this

@[simp] theorem Work.ctx_updCtx_same (w : Work) (c : CtxId) (f : Ctx → Ctx) : (w.updCtx c f).ctx c = f (w.ctx c) := Tbl.get_upd_same _ _ _ _
@[simp] theorem Work.core_updCore_same (w : Work) (c : CtxId) (f : Core → Core) : (w.updCore c f).core c = f (w.core c) := Tbl.get_upd_same _ _ _ _
@[simp] theorem Work.slice_updSlice_same (w : Work) (n : Nat) (f : SliceSt → SliceSt) : (w.updSlice n f).slice n = f (w.slice n) := Tbl.get_upd_same _ _ _ _
@[simp] theorem Work.sluice_updSluice_same (w : Work) (n : Nat) (f : Sluice → Sluice) : (w.updSluice n f).sluice n = f (w.sluice n) := Tbl.get_upd_same _ _ _ _
@[simp] theorem Work.stack_updStack_same (w : Work) (n : Nat) (f : Stack → Stack) : (w.updStack n f).stack n = f (w.stack n) := Tbl.get_upd_same _ _ _ _
@[simp] theorem Work.part_updPart_same (w : Work) (q : Fin 8) (f : Part → Part) : (w.updPart q f).part q = f (w.part q) := Tbl.get_upd_same _ _ _ _
@[simp] theorem Work.port_updPort_same (w : Work) (p : Nat) (f : Port → Port) : (w.updPort p f).port p = f (w.port p) := Tbl.get_upd_same _ _ _ _
@[simp] theorem Work.job_setJob_same (w : Work) (q : Fin 8) (j : BitVec 16) (v : Option Job) : (w.setJob q j v).job q j = v := Tbl.get_set_same _ _ _ _
@[simp] theorem Work.prog_setProg_same (w : Work) (q : Fin 8) (n : BitVec 32) (v : Option Program) : (w.setProg q n v).prog q n = v := Tbl.get_set_same _ _ _ _
@[simp] theorem Work.entry_setEntry_same (w : Work) (q : Fin 8) (t : BitVec 20) (v : Option ScaleEntry) : (w.setEntry q t v).entry q t = v := Tbl.get_set_same _ _ _ _
@[simp] theorem Work.fn_updFn_same (w : Work) (f : Fn) (g : FnSt → FnSt) : (w.updFn f g).fn f = g (w.fn f) := Tbl.get_upd_same _ _ _ _
@[simp] theorem Work.queue_setQueue_same (w : Work) (f : Fn) {k : Nat} (hk : k < 4096) (v : Option QueueSt) :
    (w.setQueue f k v).queue f k = v := (if_pos hk).trans (Tbl.get_set_same _ _ _ _)
@[simp] theorem Work.commit_updCommit_same (w : Work) (q : Fin 8) (j : BitVec 16) (f : CommitSt → CommitSt) : (w.updCommit q j f).commit q j = f (w.commit q j) := Tbl.get_upd_same _ _ _ _
@[simp] theorem Work.redCtx_setRed_same (w : Work) (j b : BitVec 16) (v : Option RedCtx) : (w.setRed j b v).redCtx j b = v := Tbl.get_set_same _ _ _ _

theorem Work.ctx_updCtx_other (w : Work) {c d : CtxId} (f : Ctx → Ctx) (h : d ≠ c) : (w.updCtx c f).ctx d = w.ctx d :=
  Tbl.get_upd_other _ _ (fun e => h (ctxKey_inj e)) f
theorem Work.slice_updSlice_other (w : Work) {c d : Nat} (f : SliceSt → SliceSt) (h : d ≠ c) : (w.updSlice c f).slice d = w.slice d :=
  Tbl.get_upd_other _ _ (h) f
theorem Work.sluice_updSluice_other (w : Work) {c d : Nat} (f : Sluice → Sluice) (h : d ≠ c) : (w.updSluice c f).sluice d = w.sluice d :=
  Tbl.get_upd_other _ _ (h) f
theorem Work.stack_updStack_other (w : Work) {c d : Nat} (f : Stack → Stack) (h : d ≠ c) : (w.updStack c f).stack d = w.stack d :=
  Tbl.get_upd_other _ _ (h) f
theorem Work.part_updPart_other (w : Work) {c d : Fin 8} (f : Part → Part) (h : d ≠ c) : (w.updPart c f).part d = w.part d :=
  Tbl.get_upd_other _ _ (fun e => h (Fin.ext e)) f
theorem Work.port_updPort_other (w : Work) {c d : Nat} (f : Port → Port) (h : d ≠ c) : (w.updPort c f).port d = w.port d :=
  Tbl.get_upd_other _ _ (h) f

theorem Work.core_updCore_other (w : Work) {c d : CtxId} (f : Core → Core) (h : coreKey d ≠ coreKey c) :
    (w.updCore c f).core d = w.core d := Tbl.get_upd_other _ _ h f
/-- The contexts of one core see the same core. -/
theorem Work.core_of_key (w : Work) {c d : CtxId} (h : coreKey d = coreKey c) : w.core d = w.core c := by
  simp only [Work.core, h]

@[simp] theorem Work.core_updCtx (w : Work) (c : CtxId) (f : Ctx → Ctx) (d : CtxId) : (w.updCtx c f).core d = w.core d := rfl
@[simp] theorem Work.slice_updCtx (w : Work) (c : CtxId) (f : Ctx → Ctx) (m : Nat) : (w.updCtx c f).slice m = w.slice m := rfl
@[simp] theorem Work.sluice_updCtx (w : Work) (c : CtxId) (f : Ctx → Ctx) (m : Nat) : (w.updCtx c f).sluice m = w.sluice m := rfl
@[simp] theorem Work.stack_updCtx (w : Work) (c : CtxId) (f : Ctx → Ctx) (m : Nat) : (w.updCtx c f).stack m = w.stack m := rfl
@[simp] theorem Work.part_updCtx (w : Work) (c : CtxId) (f : Ctx → Ctx) (r : Fin 8) : (w.updCtx c f).part r = w.part r := rfl
@[simp] theorem Work.port_updCtx (w : Work) (c : CtxId) (f : Ctx → Ctx) (m : Nat) : (w.updCtx c f).port m = w.port m := rfl
@[simp] theorem Work.job_updCtx (w : Work) (c : CtxId) (f : Ctx → Ctx) (r : Fin 8) (m : BitVec 16) : (w.updCtx c f).job r m = w.job r m := rfl
@[simp] theorem Work.prog_updCtx (w : Work) (c : CtxId) (f : Ctx → Ctx) (r : Fin 8) (m : BitVec 32) : (w.updCtx c f).prog r m = w.prog r m := rfl
@[simp] theorem Work.entry_updCtx (w : Work) (c : CtxId) (f : Ctx → Ctx) (r : Fin 8) (m : BitVec 20) : (w.updCtx c f).entry r m = w.entry r m := rfl
@[simp] theorem Work.fn_updCtx (w : Work) (c : CtxId) (f : Ctx → Ctx) (h : Fn) : (w.updCtx c f).fn h = w.fn h := rfl
@[simp] theorem Work.queue_updCtx (w : Work) (c : CtxId) (f : Ctx → Ctx) (h : Fn) (m : Nat) : (w.updCtx c f).queue h m = w.queue h m := rfl
@[simp] theorem Work.commit_updCtx (w : Work) (c : CtxId) (f : Ctx → Ctx) (r : Fin 8) (m : BitVec 16) : (w.updCtx c f).commit r m = w.commit r m := rfl
@[simp] theorem Work.redCtx_updCtx (w : Work) (c : CtxId) (f : Ctx → Ctx) (m o : BitVec 16) : (w.updCtx c f).redCtx m o = w.redCtx m o := rfl
@[simp] theorem Work.dom_updCtx (w : Work) (c : CtxId) (f : Ctx → Ctx) (r : Fin 8) (m : Nat) : (w.updCtx c f).dom r m = w.dom r m := rfl
@[simp] theorem Work.frame_updCtx (w : Work) (c : CtxId) (f : Ctx → Ctx)  : (w.updCtx c f).frame = w.frame := rfl
@[simp] theorem Work.ctx_updCore (w : Work) (c : CtxId) (f : Core → Core) (d : CtxId) : (w.updCore c f).ctx d = w.ctx d := rfl
@[simp] theorem Work.slice_updCore (w : Work) (c : CtxId) (f : Core → Core) (m : Nat) : (w.updCore c f).slice m = w.slice m := rfl
@[simp] theorem Work.sluice_updCore (w : Work) (c : CtxId) (f : Core → Core) (m : Nat) : (w.updCore c f).sluice m = w.sluice m := rfl
@[simp] theorem Work.stack_updCore (w : Work) (c : CtxId) (f : Core → Core) (m : Nat) : (w.updCore c f).stack m = w.stack m := rfl
@[simp] theorem Work.part_updCore (w : Work) (c : CtxId) (f : Core → Core) (r : Fin 8) : (w.updCore c f).part r = w.part r := rfl
@[simp] theorem Work.port_updCore (w : Work) (c : CtxId) (f : Core → Core) (m : Nat) : (w.updCore c f).port m = w.port m := rfl
@[simp] theorem Work.job_updCore (w : Work) (c : CtxId) (f : Core → Core) (r : Fin 8) (m : BitVec 16) : (w.updCore c f).job r m = w.job r m := rfl
@[simp] theorem Work.prog_updCore (w : Work) (c : CtxId) (f : Core → Core) (r : Fin 8) (m : BitVec 32) : (w.updCore c f).prog r m = w.prog r m := rfl
@[simp] theorem Work.entry_updCore (w : Work) (c : CtxId) (f : Core → Core) (r : Fin 8) (m : BitVec 20) : (w.updCore c f).entry r m = w.entry r m := rfl
@[simp] theorem Work.fn_updCore (w : Work) (c : CtxId) (f : Core → Core) (h : Fn) : (w.updCore c f).fn h = w.fn h := rfl
@[simp] theorem Work.queue_updCore (w : Work) (c : CtxId) (f : Core → Core) (h : Fn) (m : Nat) : (w.updCore c f).queue h m = w.queue h m := rfl
@[simp] theorem Work.commit_updCore (w : Work) (c : CtxId) (f : Core → Core) (r : Fin 8) (m : BitVec 16) : (w.updCore c f).commit r m = w.commit r m := rfl
@[simp] theorem Work.redCtx_updCore (w : Work) (c : CtxId) (f : Core → Core) (m o : BitVec 16) : (w.updCore c f).redCtx m o = w.redCtx m o := rfl
@[simp] theorem Work.dom_updCore (w : Work) (c : CtxId) (f : Core → Core) (r : Fin 8) (m : Nat) : (w.updCore c f).dom r m = w.dom r m := rfl
@[simp] theorem Work.frame_updCore (w : Work) (c : CtxId) (f : Core → Core)  : (w.updCore c f).frame = w.frame := rfl
@[simp] theorem Work.ctx_updSlice (w : Work) (n : Nat) (f : SliceSt → SliceSt) (d : CtxId) : (w.updSlice n f).ctx d = w.ctx d := rfl
@[simp] theorem Work.core_updSlice (w : Work) (n : Nat) (f : SliceSt → SliceSt) (d : CtxId) : (w.updSlice n f).core d = w.core d := rfl
@[simp] theorem Work.sluice_updSlice (w : Work) (n : Nat) (f : SliceSt → SliceSt) (m : Nat) : (w.updSlice n f).sluice m = w.sluice m := rfl
@[simp] theorem Work.stack_updSlice (w : Work) (n : Nat) (f : SliceSt → SliceSt) (m : Nat) : (w.updSlice n f).stack m = w.stack m := rfl
@[simp] theorem Work.part_updSlice (w : Work) (n : Nat) (f : SliceSt → SliceSt) (r : Fin 8) : (w.updSlice n f).part r = w.part r := rfl
@[simp] theorem Work.port_updSlice (w : Work) (n : Nat) (f : SliceSt → SliceSt) (m : Nat) : (w.updSlice n f).port m = w.port m := rfl
@[simp] theorem Work.job_updSlice (w : Work) (n : Nat) (f : SliceSt → SliceSt) (r : Fin 8) (m : BitVec 16) : (w.updSlice n f).job r m = w.job r m := rfl
@[simp] theorem Work.prog_updSlice (w : Work) (n : Nat) (f : SliceSt → SliceSt) (r : Fin 8) (m : BitVec 32) : (w.updSlice n f).prog r m = w.prog r m := rfl
@[simp] theorem Work.entry_updSlice (w : Work) (n : Nat) (f : SliceSt → SliceSt) (r : Fin 8) (m : BitVec 20) : (w.updSlice n f).entry r m = w.entry r m := rfl
@[simp] theorem Work.fn_updSlice (w : Work) (n : Nat) (f : SliceSt → SliceSt) (h : Fn) : (w.updSlice n f).fn h = w.fn h := rfl
@[simp] theorem Work.queue_updSlice (w : Work) (n : Nat) (f : SliceSt → SliceSt) (h : Fn) (m : Nat) : (w.updSlice n f).queue h m = w.queue h m := rfl
@[simp] theorem Work.commit_updSlice (w : Work) (n : Nat) (f : SliceSt → SliceSt) (r : Fin 8) (m : BitVec 16) : (w.updSlice n f).commit r m = w.commit r m := rfl
@[simp] theorem Work.redCtx_updSlice (w : Work) (n : Nat) (f : SliceSt → SliceSt) (m o : BitVec 16) : (w.updSlice n f).redCtx m o = w.redCtx m o := rfl
@[simp] theorem Work.dom_updSlice (w : Work) (n : Nat) (f : SliceSt → SliceSt) (r : Fin 8) (m : Nat) : (w.updSlice n f).dom r m = w.dom r m := rfl
@[simp] theorem Work.frame_updSlice (w : Work) (n : Nat) (f : SliceSt → SliceSt)  : (w.updSlice n f).frame = w.frame := rfl
@[simp] theorem Work.ctx_updSluice (w : Work) (i : Nat) (f : Sluice → Sluice) (d : CtxId) : (w.updSluice i f).ctx d = w.ctx d := rfl
@[simp] theorem Work.core_updSluice (w : Work) (i : Nat) (f : Sluice → Sluice) (d : CtxId) : (w.updSluice i f).core d = w.core d := rfl
@[simp] theorem Work.slice_updSluice (w : Work) (i : Nat) (f : Sluice → Sluice) (m : Nat) : (w.updSluice i f).slice m = w.slice m := rfl
@[simp] theorem Work.stack_updSluice (w : Work) (i : Nat) (f : Sluice → Sluice) (m : Nat) : (w.updSluice i f).stack m = w.stack m := rfl
@[simp] theorem Work.part_updSluice (w : Work) (i : Nat) (f : Sluice → Sluice) (r : Fin 8) : (w.updSluice i f).part r = w.part r := rfl
@[simp] theorem Work.port_updSluice (w : Work) (i : Nat) (f : Sluice → Sluice) (m : Nat) : (w.updSluice i f).port m = w.port m := rfl
@[simp] theorem Work.job_updSluice (w : Work) (i : Nat) (f : Sluice → Sluice) (r : Fin 8) (m : BitVec 16) : (w.updSluice i f).job r m = w.job r m := rfl
@[simp] theorem Work.prog_updSluice (w : Work) (i : Nat) (f : Sluice → Sluice) (r : Fin 8) (m : BitVec 32) : (w.updSluice i f).prog r m = w.prog r m := rfl
@[simp] theorem Work.entry_updSluice (w : Work) (i : Nat) (f : Sluice → Sluice) (r : Fin 8) (m : BitVec 20) : (w.updSluice i f).entry r m = w.entry r m := rfl
@[simp] theorem Work.fn_updSluice (w : Work) (i : Nat) (f : Sluice → Sluice) (h : Fn) : (w.updSluice i f).fn h = w.fn h := rfl
@[simp] theorem Work.queue_updSluice (w : Work) (i : Nat) (f : Sluice → Sluice) (h : Fn) (m : Nat) : (w.updSluice i f).queue h m = w.queue h m := rfl
@[simp] theorem Work.commit_updSluice (w : Work) (i : Nat) (f : Sluice → Sluice) (r : Fin 8) (m : BitVec 16) : (w.updSluice i f).commit r m = w.commit r m := rfl
@[simp] theorem Work.redCtx_updSluice (w : Work) (i : Nat) (f : Sluice → Sluice) (m o : BitVec 16) : (w.updSluice i f).redCtx m o = w.redCtx m o := rfl
@[simp] theorem Work.dom_updSluice (w : Work) (i : Nat) (f : Sluice → Sluice) (r : Fin 8) (m : Nat) : (w.updSluice i f).dom r m = w.dom r m := rfl
@[simp] theorem Work.frame_updSluice (w : Work) (i : Nat) (f : Sluice → Sluice)  : (w.updSluice i f).frame = w.frame := rfl
@[simp] theorem Work.ctx_updStack (w : Work) (i : Nat) (f : Stack → Stack) (d : CtxId) : (w.updStack i f).ctx d = w.ctx d := rfl
@[simp] theorem Work.core_updStack (w : Work) (i : Nat) (f : Stack → Stack) (d : CtxId) : (w.updStack i f).core d = w.core d := rfl
@[simp] theorem Work.slice_updStack (w : Work) (i : Nat) (f : Stack → Stack) (m : Nat) : (w.updStack i f).slice m = w.slice m := rfl
@[simp] theorem Work.sluice_updStack (w : Work) (i : Nat) (f : Stack → Stack) (m : Nat) : (w.updStack i f).sluice m = w.sluice m := rfl
@[simp] theorem Work.part_updStack (w : Work) (i : Nat) (f : Stack → Stack) (r : Fin 8) : (w.updStack i f).part r = w.part r := rfl
@[simp] theorem Work.port_updStack (w : Work) (i : Nat) (f : Stack → Stack) (m : Nat) : (w.updStack i f).port m = w.port m := rfl
@[simp] theorem Work.job_updStack (w : Work) (i : Nat) (f : Stack → Stack) (r : Fin 8) (m : BitVec 16) : (w.updStack i f).job r m = w.job r m := rfl
@[simp] theorem Work.prog_updStack (w : Work) (i : Nat) (f : Stack → Stack) (r : Fin 8) (m : BitVec 32) : (w.updStack i f).prog r m = w.prog r m := rfl
@[simp] theorem Work.entry_updStack (w : Work) (i : Nat) (f : Stack → Stack) (r : Fin 8) (m : BitVec 20) : (w.updStack i f).entry r m = w.entry r m := rfl
@[simp] theorem Work.fn_updStack (w : Work) (i : Nat) (f : Stack → Stack) (h : Fn) : (w.updStack i f).fn h = w.fn h := rfl
@[simp] theorem Work.queue_updStack (w : Work) (i : Nat) (f : Stack → Stack) (h : Fn) (m : Nat) : (w.updStack i f).queue h m = w.queue h m := rfl
@[simp] theorem Work.commit_updStack (w : Work) (i : Nat) (f : Stack → Stack) (r : Fin 8) (m : BitVec 16) : (w.updStack i f).commit r m = w.commit r m := rfl
@[simp] theorem Work.redCtx_updStack (w : Work) (i : Nat) (f : Stack → Stack) (m o : BitVec 16) : (w.updStack i f).redCtx m o = w.redCtx m o := rfl
@[simp] theorem Work.dom_updStack (w : Work) (i : Nat) (f : Stack → Stack) (r : Fin 8) (m : Nat) : (w.updStack i f).dom r m = w.dom r m := rfl
@[simp] theorem Work.frame_updStack (w : Work) (i : Nat) (f : Stack → Stack)  : (w.updStack i f).frame = w.frame := rfl
@[simp] theorem Work.ctx_updPart (w : Work) (q : Fin 8) (f : Part → Part) (d : CtxId) : (w.updPart q f).ctx d = w.ctx d := rfl
@[simp] theorem Work.core_updPart (w : Work) (q : Fin 8) (f : Part → Part) (d : CtxId) : (w.updPart q f).core d = w.core d := rfl
@[simp] theorem Work.slice_updPart (w : Work) (q : Fin 8) (f : Part → Part) (m : Nat) : (w.updPart q f).slice m = w.slice m := rfl
@[simp] theorem Work.sluice_updPart (w : Work) (q : Fin 8) (f : Part → Part) (m : Nat) : (w.updPart q f).sluice m = w.sluice m := rfl
@[simp] theorem Work.stack_updPart (w : Work) (q : Fin 8) (f : Part → Part) (m : Nat) : (w.updPart q f).stack m = w.stack m := rfl
@[simp] theorem Work.port_updPart (w : Work) (q : Fin 8) (f : Part → Part) (m : Nat) : (w.updPart q f).port m = w.port m := rfl
@[simp] theorem Work.job_updPart (w : Work) (q : Fin 8) (f : Part → Part) (r : Fin 8) (m : BitVec 16) : (w.updPart q f).job r m = w.job r m := rfl
@[simp] theorem Work.prog_updPart (w : Work) (q : Fin 8) (f : Part → Part) (r : Fin 8) (m : BitVec 32) : (w.updPart q f).prog r m = w.prog r m := rfl
@[simp] theorem Work.entry_updPart (w : Work) (q : Fin 8) (f : Part → Part) (r : Fin 8) (m : BitVec 20) : (w.updPart q f).entry r m = w.entry r m := rfl
@[simp] theorem Work.fn_updPart (w : Work) (q : Fin 8) (f : Part → Part) (h : Fn) : (w.updPart q f).fn h = w.fn h := rfl
@[simp] theorem Work.queue_updPart (w : Work) (q : Fin 8) (f : Part → Part) (h : Fn) (m : Nat) : (w.updPart q f).queue h m = w.queue h m := rfl
@[simp] theorem Work.commit_updPart (w : Work) (q : Fin 8) (f : Part → Part) (r : Fin 8) (m : BitVec 16) : (w.updPart q f).commit r m = w.commit r m := rfl
@[simp] theorem Work.redCtx_updPart (w : Work) (q : Fin 8) (f : Part → Part) (m o : BitVec 16) : (w.updPart q f).redCtx m o = w.redCtx m o := rfl
@[simp] theorem Work.frame_updPart (w : Work) (q : Fin 8) (f : Part → Part)  : (w.updPart q f).frame = w.frame := rfl
@[simp] theorem Work.ctx_updPort (w : Work) (p : Nat) (f : Port → Port) (d : CtxId) : (w.updPort p f).ctx d = w.ctx d := rfl
@[simp] theorem Work.core_updPort (w : Work) (p : Nat) (f : Port → Port) (d : CtxId) : (w.updPort p f).core d = w.core d := rfl
@[simp] theorem Work.slice_updPort (w : Work) (p : Nat) (f : Port → Port) (m : Nat) : (w.updPort p f).slice m = w.slice m := rfl
@[simp] theorem Work.sluice_updPort (w : Work) (p : Nat) (f : Port → Port) (m : Nat) : (w.updPort p f).sluice m = w.sluice m := rfl
@[simp] theorem Work.stack_updPort (w : Work) (p : Nat) (f : Port → Port) (m : Nat) : (w.updPort p f).stack m = w.stack m := rfl
@[simp] theorem Work.part_updPort (w : Work) (p : Nat) (f : Port → Port) (r : Fin 8) : (w.updPort p f).part r = w.part r := rfl
@[simp] theorem Work.job_updPort (w : Work) (p : Nat) (f : Port → Port) (r : Fin 8) (m : BitVec 16) : (w.updPort p f).job r m = w.job r m := rfl
@[simp] theorem Work.prog_updPort (w : Work) (p : Nat) (f : Port → Port) (r : Fin 8) (m : BitVec 32) : (w.updPort p f).prog r m = w.prog r m := rfl
@[simp] theorem Work.entry_updPort (w : Work) (p : Nat) (f : Port → Port) (r : Fin 8) (m : BitVec 20) : (w.updPort p f).entry r m = w.entry r m := rfl
@[simp] theorem Work.fn_updPort (w : Work) (p : Nat) (f : Port → Port) (h : Fn) : (w.updPort p f).fn h = w.fn h := rfl
@[simp] theorem Work.queue_updPort (w : Work) (p : Nat) (f : Port → Port) (h : Fn) (m : Nat) : (w.updPort p f).queue h m = w.queue h m := rfl
@[simp] theorem Work.commit_updPort (w : Work) (p : Nat) (f : Port → Port) (r : Fin 8) (m : BitVec 16) : (w.updPort p f).commit r m = w.commit r m := rfl
@[simp] theorem Work.redCtx_updPort (w : Work) (p : Nat) (f : Port → Port) (m o : BitVec 16) : (w.updPort p f).redCtx m o = w.redCtx m o := rfl
@[simp] theorem Work.dom_updPort (w : Work) (p : Nat) (f : Port → Port) (r : Fin 8) (m : Nat) : (w.updPort p f).dom r m = w.dom r m := rfl
@[simp] theorem Work.frame_updPort (w : Work) (p : Nat) (f : Port → Port)  : (w.updPort p f).frame = w.frame := rfl
@[simp] theorem Work.ctx_setJob (w : Work) (q : Fin 8) (j : BitVec 16) (v : Option Job) (d : CtxId) : (w.setJob q j v).ctx d = w.ctx d := rfl
@[simp] theorem Work.core_setJob (w : Work) (q : Fin 8) (j : BitVec 16) (v : Option Job) (d : CtxId) : (w.setJob q j v).core d = w.core d := rfl
@[simp] theorem Work.slice_setJob (w : Work) (q : Fin 8) (j : BitVec 16) (v : Option Job) (m : Nat) : (w.setJob q j v).slice m = w.slice m := rfl
@[simp] theorem Work.sluice_setJob (w : Work) (q : Fin 8) (j : BitVec 16) (v : Option Job) (m : Nat) : (w.setJob q j v).sluice m = w.sluice m := rfl
@[simp] theorem Work.stack_setJob (w : Work) (q : Fin 8) (j : BitVec 16) (v : Option Job) (m : Nat) : (w.setJob q j v).stack m = w.stack m := rfl
@[simp] theorem Work.part_setJob (w : Work) (q : Fin 8) (j : BitVec 16) (v : Option Job) (r : Fin 8) : (w.setJob q j v).part r = w.part r := rfl
@[simp] theorem Work.port_setJob (w : Work) (q : Fin 8) (j : BitVec 16) (v : Option Job) (m : Nat) : (w.setJob q j v).port m = w.port m := rfl
@[simp] theorem Work.prog_setJob (w : Work) (q : Fin 8) (j : BitVec 16) (v : Option Job) (r : Fin 8) (m : BitVec 32) : (w.setJob q j v).prog r m = w.prog r m := rfl
@[simp] theorem Work.entry_setJob (w : Work) (q : Fin 8) (j : BitVec 16) (v : Option Job) (r : Fin 8) (m : BitVec 20) : (w.setJob q j v).entry r m = w.entry r m := rfl
@[simp] theorem Work.fn_setJob (w : Work) (q : Fin 8) (j : BitVec 16) (v : Option Job) (h : Fn) : (w.setJob q j v).fn h = w.fn h := rfl
@[simp] theorem Work.queue_setJob (w : Work) (q : Fin 8) (j : BitVec 16) (v : Option Job) (h : Fn) (m : Nat) : (w.setJob q j v).queue h m = w.queue h m := rfl
@[simp] theorem Work.commit_setJob (w : Work) (q : Fin 8) (j : BitVec 16) (v : Option Job) (r : Fin 8) (m : BitVec 16) : (w.setJob q j v).commit r m = w.commit r m := rfl
@[simp] theorem Work.redCtx_setJob (w : Work) (q : Fin 8) (j : BitVec 16) (v : Option Job) (m o : BitVec 16) : (w.setJob q j v).redCtx m o = w.redCtx m o := rfl
@[simp] theorem Work.dom_setJob (w : Work) (q : Fin 8) (j : BitVec 16) (v : Option Job) (r : Fin 8) (m : Nat) : (w.setJob q j v).dom r m = w.dom r m := rfl
@[simp] theorem Work.frame_setJob (w : Work) (q : Fin 8) (j : BitVec 16) (v : Option Job)  : (w.setJob q j v).frame = w.frame := rfl
@[simp] theorem Work.ctx_setProg (w : Work) (q : Fin 8) (n : BitVec 32) (v : Option Program) (d : CtxId) : (w.setProg q n v).ctx d = w.ctx d := rfl
@[simp] theorem Work.core_setProg (w : Work) (q : Fin 8) (n : BitVec 32) (v : Option Program) (d : CtxId) : (w.setProg q n v).core d = w.core d := rfl
@[simp] theorem Work.slice_setProg (w : Work) (q : Fin 8) (n : BitVec 32) (v : Option Program) (m : Nat) : (w.setProg q n v).slice m = w.slice m := rfl
@[simp] theorem Work.sluice_setProg (w : Work) (q : Fin 8) (n : BitVec 32) (v : Option Program) (m : Nat) : (w.setProg q n v).sluice m = w.sluice m := rfl
@[simp] theorem Work.stack_setProg (w : Work) (q : Fin 8) (n : BitVec 32) (v : Option Program) (m : Nat) : (w.setProg q n v).stack m = w.stack m := rfl
@[simp] theorem Work.part_setProg (w : Work) (q : Fin 8) (n : BitVec 32) (v : Option Program) (r : Fin 8) : (w.setProg q n v).part r = w.part r := rfl
@[simp] theorem Work.port_setProg (w : Work) (q : Fin 8) (n : BitVec 32) (v : Option Program) (m : Nat) : (w.setProg q n v).port m = w.port m := rfl
@[simp] theorem Work.job_setProg (w : Work) (q : Fin 8) (n : BitVec 32) (v : Option Program) (r : Fin 8) (m : BitVec 16) : (w.setProg q n v).job r m = w.job r m := rfl
@[simp] theorem Work.entry_setProg (w : Work) (q : Fin 8) (n : BitVec 32) (v : Option Program) (r : Fin 8) (m : BitVec 20) : (w.setProg q n v).entry r m = w.entry r m := rfl
@[simp] theorem Work.fn_setProg (w : Work) (q : Fin 8) (n : BitVec 32) (v : Option Program) (h : Fn) : (w.setProg q n v).fn h = w.fn h := rfl
@[simp] theorem Work.queue_setProg (w : Work) (q : Fin 8) (n : BitVec 32) (v : Option Program) (h : Fn) (m : Nat) : (w.setProg q n v).queue h m = w.queue h m := rfl
@[simp] theorem Work.commit_setProg (w : Work) (q : Fin 8) (n : BitVec 32) (v : Option Program) (r : Fin 8) (m : BitVec 16) : (w.setProg q n v).commit r m = w.commit r m := rfl
@[simp] theorem Work.redCtx_setProg (w : Work) (q : Fin 8) (n : BitVec 32) (v : Option Program) (m o : BitVec 16) : (w.setProg q n v).redCtx m o = w.redCtx m o := rfl
@[simp] theorem Work.dom_setProg (w : Work) (q : Fin 8) (n : BitVec 32) (v : Option Program) (r : Fin 8) (m : Nat) : (w.setProg q n v).dom r m = w.dom r m := rfl
@[simp] theorem Work.frame_setProg (w : Work) (q : Fin 8) (n : BitVec 32) (v : Option Program)  : (w.setProg q n v).frame = w.frame := rfl
@[simp] theorem Work.ctx_setEntry (w : Work) (q : Fin 8) (t : BitVec 20) (v : Option ScaleEntry) (d : CtxId) : (w.setEntry q t v).ctx d = w.ctx d := rfl
@[simp] theorem Work.core_setEntry (w : Work) (q : Fin 8) (t : BitVec 20) (v : Option ScaleEntry) (d : CtxId) : (w.setEntry q t v).core d = w.core d := rfl
@[simp] theorem Work.slice_setEntry (w : Work) (q : Fin 8) (t : BitVec 20) (v : Option ScaleEntry) (m : Nat) : (w.setEntry q t v).slice m = w.slice m := rfl
@[simp] theorem Work.sluice_setEntry (w : Work) (q : Fin 8) (t : BitVec 20) (v : Option ScaleEntry) (m : Nat) : (w.setEntry q t v).sluice m = w.sluice m := rfl
@[simp] theorem Work.stack_setEntry (w : Work) (q : Fin 8) (t : BitVec 20) (v : Option ScaleEntry) (m : Nat) : (w.setEntry q t v).stack m = w.stack m := rfl
@[simp] theorem Work.part_setEntry (w : Work) (q : Fin 8) (t : BitVec 20) (v : Option ScaleEntry) (r : Fin 8) : (w.setEntry q t v).part r = w.part r := rfl
@[simp] theorem Work.port_setEntry (w : Work) (q : Fin 8) (t : BitVec 20) (v : Option ScaleEntry) (m : Nat) : (w.setEntry q t v).port m = w.port m := rfl
@[simp] theorem Work.job_setEntry (w : Work) (q : Fin 8) (t : BitVec 20) (v : Option ScaleEntry) (r : Fin 8) (m : BitVec 16) : (w.setEntry q t v).job r m = w.job r m := rfl
@[simp] theorem Work.prog_setEntry (w : Work) (q : Fin 8) (t : BitVec 20) (v : Option ScaleEntry) (r : Fin 8) (m : BitVec 32) : (w.setEntry q t v).prog r m = w.prog r m := rfl
@[simp] theorem Work.fn_setEntry (w : Work) (q : Fin 8) (t : BitVec 20) (v : Option ScaleEntry) (h : Fn) : (w.setEntry q t v).fn h = w.fn h := rfl
@[simp] theorem Work.queue_setEntry (w : Work) (q : Fin 8) (t : BitVec 20) (v : Option ScaleEntry) (h : Fn) (m : Nat) : (w.setEntry q t v).queue h m = w.queue h m := rfl
@[simp] theorem Work.commit_setEntry (w : Work) (q : Fin 8) (t : BitVec 20) (v : Option ScaleEntry) (r : Fin 8) (m : BitVec 16) : (w.setEntry q t v).commit r m = w.commit r m := rfl
@[simp] theorem Work.redCtx_setEntry (w : Work) (q : Fin 8) (t : BitVec 20) (v : Option ScaleEntry) (m o : BitVec 16) : (w.setEntry q t v).redCtx m o = w.redCtx m o := rfl
@[simp] theorem Work.dom_setEntry (w : Work) (q : Fin 8) (t : BitVec 20) (v : Option ScaleEntry) (r : Fin 8) (m : Nat) : (w.setEntry q t v).dom r m = w.dom r m := rfl
@[simp] theorem Work.frame_setEntry (w : Work) (q : Fin 8) (t : BitVec 20) (v : Option ScaleEntry)  : (w.setEntry q t v).frame = w.frame := rfl
@[simp] theorem Work.ctx_updFn (w : Work) (f : Fn) (g : FnSt → FnSt) (d : CtxId) : (w.updFn f g).ctx d = w.ctx d := rfl
@[simp] theorem Work.core_updFn (w : Work) (f : Fn) (g : FnSt → FnSt) (d : CtxId) : (w.updFn f g).core d = w.core d := rfl
@[simp] theorem Work.slice_updFn (w : Work) (f : Fn) (g : FnSt → FnSt) (m : Nat) : (w.updFn f g).slice m = w.slice m := rfl
@[simp] theorem Work.sluice_updFn (w : Work) (f : Fn) (g : FnSt → FnSt) (m : Nat) : (w.updFn f g).sluice m = w.sluice m := rfl
@[simp] theorem Work.stack_updFn (w : Work) (f : Fn) (g : FnSt → FnSt) (m : Nat) : (w.updFn f g).stack m = w.stack m := rfl
@[simp] theorem Work.part_updFn (w : Work) (f : Fn) (g : FnSt → FnSt) (r : Fin 8) : (w.updFn f g).part r = w.part r := rfl
@[simp] theorem Work.port_updFn (w : Work) (f : Fn) (g : FnSt → FnSt) (m : Nat) : (w.updFn f g).port m = w.port m := rfl
@[simp] theorem Work.job_updFn (w : Work) (f : Fn) (g : FnSt → FnSt) (r : Fin 8) (m : BitVec 16) : (w.updFn f g).job r m = w.job r m := rfl
@[simp] theorem Work.prog_updFn (w : Work) (f : Fn) (g : FnSt → FnSt) (r : Fin 8) (m : BitVec 32) : (w.updFn f g).prog r m = w.prog r m := rfl
@[simp] theorem Work.entry_updFn (w : Work) (f : Fn) (g : FnSt → FnSt) (r : Fin 8) (m : BitVec 20) : (w.updFn f g).entry r m = w.entry r m := rfl
@[simp] theorem Work.queue_updFn (w : Work) (f : Fn) (g : FnSt → FnSt) (h : Fn) (m : Nat) : (w.updFn f g).queue h m = w.queue h m := rfl
@[simp] theorem Work.commit_updFn (w : Work) (f : Fn) (g : FnSt → FnSt) (r : Fin 8) (m : BitVec 16) : (w.updFn f g).commit r m = w.commit r m := rfl
@[simp] theorem Work.redCtx_updFn (w : Work) (f : Fn) (g : FnSt → FnSt) (m o : BitVec 16) : (w.updFn f g).redCtx m o = w.redCtx m o := rfl
@[simp] theorem Work.dom_updFn (w : Work) (f : Fn) (g : FnSt → FnSt) (r : Fin 8) (m : Nat) : (w.updFn f g).dom r m = w.dom r m := rfl
@[simp] theorem Work.frame_updFn (w : Work) (f : Fn) (g : FnSt → FnSt)  : (w.updFn f g).frame = w.frame := rfl
@[simp] theorem Work.ctx_setQueue (w : Work) (f : Fn) (k : Nat) (v : Option QueueSt) (d : CtxId) : (w.setQueue f k v).ctx d = w.ctx d := rfl
@[simp] theorem Work.core_setQueue (w : Work) (f : Fn) (k : Nat) (v : Option QueueSt) (d : CtxId) : (w.setQueue f k v).core d = w.core d := rfl
@[simp] theorem Work.slice_setQueue (w : Work) (f : Fn) (k : Nat) (v : Option QueueSt) (m : Nat) : (w.setQueue f k v).slice m = w.slice m := rfl
@[simp] theorem Work.sluice_setQueue (w : Work) (f : Fn) (k : Nat) (v : Option QueueSt) (m : Nat) : (w.setQueue f k v).sluice m = w.sluice m := rfl
@[simp] theorem Work.stack_setQueue (w : Work) (f : Fn) (k : Nat) (v : Option QueueSt) (m : Nat) : (w.setQueue f k v).stack m = w.stack m := rfl
@[simp] theorem Work.part_setQueue (w : Work) (f : Fn) (k : Nat) (v : Option QueueSt) (r : Fin 8) : (w.setQueue f k v).part r = w.part r := rfl
@[simp] theorem Work.port_setQueue (w : Work) (f : Fn) (k : Nat) (v : Option QueueSt) (m : Nat) : (w.setQueue f k v).port m = w.port m := rfl
@[simp] theorem Work.job_setQueue (w : Work) (f : Fn) (k : Nat) (v : Option QueueSt) (r : Fin 8) (m : BitVec 16) : (w.setQueue f k v).job r m = w.job r m := rfl
@[simp] theorem Work.prog_setQueue (w : Work) (f : Fn) (k : Nat) (v : Option QueueSt) (r : Fin 8) (m : BitVec 32) : (w.setQueue f k v).prog r m = w.prog r m := rfl
@[simp] theorem Work.entry_setQueue (w : Work) (f : Fn) (k : Nat) (v : Option QueueSt) (r : Fin 8) (m : BitVec 20) : (w.setQueue f k v).entry r m = w.entry r m := rfl
@[simp] theorem Work.fn_setQueue (w : Work) (f : Fn) (k : Nat) (v : Option QueueSt) (h : Fn) : (w.setQueue f k v).fn h = w.fn h := rfl
@[simp] theorem Work.commit_setQueue (w : Work) (f : Fn) (k : Nat) (v : Option QueueSt) (r : Fin 8) (m : BitVec 16) : (w.setQueue f k v).commit r m = w.commit r m := rfl
@[simp] theorem Work.redCtx_setQueue (w : Work) (f : Fn) (k : Nat) (v : Option QueueSt) (m o : BitVec 16) : (w.setQueue f k v).redCtx m o = w.redCtx m o := rfl
@[simp] theorem Work.dom_setQueue (w : Work) (f : Fn) (k : Nat) (v : Option QueueSt) (r : Fin 8) (m : Nat) : (w.setQueue f k v).dom r m = w.dom r m := rfl
@[simp] theorem Work.frame_setQueue (w : Work) (f : Fn) (k : Nat) (v : Option QueueSt)  : (w.setQueue f k v).frame = w.frame := rfl
@[simp] theorem Work.ctx_updCommit (w : Work) (q : Fin 8) (j : BitVec 16) (f : CommitSt → CommitSt) (d : CtxId) : (w.updCommit q j f).ctx d = w.ctx d := rfl
@[simp] theorem Work.core_updCommit (w : Work) (q : Fin 8) (j : BitVec 16) (f : CommitSt → CommitSt) (d : CtxId) : (w.updCommit q j f).core d = w.core d := rfl
@[simp] theorem Work.slice_updCommit (w : Work) (q : Fin 8) (j : BitVec 16) (f : CommitSt → CommitSt) (m : Nat) : (w.updCommit q j f).slice m = w.slice m := rfl
@[simp] theorem Work.sluice_updCommit (w : Work) (q : Fin 8) (j : BitVec 16) (f : CommitSt → CommitSt) (m : Nat) : (w.updCommit q j f).sluice m = w.sluice m := rfl
@[simp] theorem Work.stack_updCommit (w : Work) (q : Fin 8) (j : BitVec 16) (f : CommitSt → CommitSt) (m : Nat) : (w.updCommit q j f).stack m = w.stack m := rfl
@[simp] theorem Work.part_updCommit (w : Work) (q : Fin 8) (j : BitVec 16) (f : CommitSt → CommitSt) (r : Fin 8) : (w.updCommit q j f).part r = w.part r := rfl
@[simp] theorem Work.port_updCommit (w : Work) (q : Fin 8) (j : BitVec 16) (f : CommitSt → CommitSt) (m : Nat) : (w.updCommit q j f).port m = w.port m := rfl
@[simp] theorem Work.job_updCommit (w : Work) (q : Fin 8) (j : BitVec 16) (f : CommitSt → CommitSt) (r : Fin 8) (m : BitVec 16) : (w.updCommit q j f).job r m = w.job r m := rfl
@[simp] theorem Work.prog_updCommit (w : Work) (q : Fin 8) (j : BitVec 16) (f : CommitSt → CommitSt) (r : Fin 8) (m : BitVec 32) : (w.updCommit q j f).prog r m = w.prog r m := rfl
@[simp] theorem Work.entry_updCommit (w : Work) (q : Fin 8) (j : BitVec 16) (f : CommitSt → CommitSt) (r : Fin 8) (m : BitVec 20) : (w.updCommit q j f).entry r m = w.entry r m := rfl
@[simp] theorem Work.fn_updCommit (w : Work) (q : Fin 8) (j : BitVec 16) (f : CommitSt → CommitSt) (h : Fn) : (w.updCommit q j f).fn h = w.fn h := rfl
@[simp] theorem Work.queue_updCommit (w : Work) (q : Fin 8) (j : BitVec 16) (f : CommitSt → CommitSt) (h : Fn) (m : Nat) : (w.updCommit q j f).queue h m = w.queue h m := rfl
@[simp] theorem Work.redCtx_updCommit (w : Work) (q : Fin 8) (j : BitVec 16) (f : CommitSt → CommitSt) (m o : BitVec 16) : (w.updCommit q j f).redCtx m o = w.redCtx m o := rfl
@[simp] theorem Work.dom_updCommit (w : Work) (q : Fin 8) (j : BitVec 16) (f : CommitSt → CommitSt) (r : Fin 8) (m : Nat) : (w.updCommit q j f).dom r m = w.dom r m := rfl
@[simp] theorem Work.frame_updCommit (w : Work) (q : Fin 8) (j : BitVec 16) (f : CommitSt → CommitSt)  : (w.updCommit q j f).frame = w.frame := rfl
@[simp] theorem Work.ctx_setRed (w : Work) (j b : BitVec 16) (v : Option RedCtx) (d : CtxId) : (w.setRed j b v).ctx d = w.ctx d := rfl
@[simp] theorem Work.core_setRed (w : Work) (j b : BitVec 16) (v : Option RedCtx) (d : CtxId) : (w.setRed j b v).core d = w.core d := rfl
@[simp] theorem Work.slice_setRed (w : Work) (j b : BitVec 16) (v : Option RedCtx) (m : Nat) : (w.setRed j b v).slice m = w.slice m := rfl
@[simp] theorem Work.sluice_setRed (w : Work) (j b : BitVec 16) (v : Option RedCtx) (m : Nat) : (w.setRed j b v).sluice m = w.sluice m := rfl
@[simp] theorem Work.stack_setRed (w : Work) (j b : BitVec 16) (v : Option RedCtx) (m : Nat) : (w.setRed j b v).stack m = w.stack m := rfl
@[simp] theorem Work.part_setRed (w : Work) (j b : BitVec 16) (v : Option RedCtx) (r : Fin 8) : (w.setRed j b v).part r = w.part r := rfl
@[simp] theorem Work.port_setRed (w : Work) (j b : BitVec 16) (v : Option RedCtx) (m : Nat) : (w.setRed j b v).port m = w.port m := rfl
@[simp] theorem Work.job_setRed (w : Work) (j b : BitVec 16) (v : Option RedCtx) (r : Fin 8) (m : BitVec 16) : (w.setRed j b v).job r m = w.job r m := rfl
@[simp] theorem Work.prog_setRed (w : Work) (j b : BitVec 16) (v : Option RedCtx) (r : Fin 8) (m : BitVec 32) : (w.setRed j b v).prog r m = w.prog r m := rfl
@[simp] theorem Work.entry_setRed (w : Work) (j b : BitVec 16) (v : Option RedCtx) (r : Fin 8) (m : BitVec 20) : (w.setRed j b v).entry r m = w.entry r m := rfl
@[simp] theorem Work.fn_setRed (w : Work) (j b : BitVec 16) (v : Option RedCtx) (h : Fn) : (w.setRed j b v).fn h = w.fn h := rfl
@[simp] theorem Work.queue_setRed (w : Work) (j b : BitVec 16) (v : Option RedCtx) (h : Fn) (m : Nat) : (w.setRed j b v).queue h m = w.queue h m := rfl
@[simp] theorem Work.commit_setRed (w : Work) (j b : BitVec 16) (v : Option RedCtx) (r : Fin 8) (m : BitVec 16) : (w.setRed j b v).commit r m = w.commit r m := rfl
@[simp] theorem Work.dom_setRed (w : Work) (j b : BitVec 16) (v : Option RedCtx) (r : Fin 8) (m : Nat) : (w.setRed j b v).dom r m = w.dom r m := rfl
@[simp] theorem Work.frame_setRed (w : Work) (j b : BitVec 16) (v : Option RedCtx)  : (w.setRed j b v).frame = w.frame := rfl
@[simp] theorem Work.ctx_updRedEv (w : Work) (q : Fin 8) (f : RedEvents → RedEvents) (d : CtxId) : (w.updRedEv q f).ctx d = w.ctx d := rfl
@[simp] theorem Work.core_updRedEv (w : Work) (q : Fin 8) (f : RedEvents → RedEvents) (d : CtxId) : (w.updRedEv q f).core d = w.core d := rfl
@[simp] theorem Work.slice_updRedEv (w : Work) (q : Fin 8) (f : RedEvents → RedEvents) (m : Nat) : (w.updRedEv q f).slice m = w.slice m := rfl
@[simp] theorem Work.sluice_updRedEv (w : Work) (q : Fin 8) (f : RedEvents → RedEvents) (m : Nat) : (w.updRedEv q f).sluice m = w.sluice m := rfl
@[simp] theorem Work.stack_updRedEv (w : Work) (q : Fin 8) (f : RedEvents → RedEvents) (m : Nat) : (w.updRedEv q f).stack m = w.stack m := rfl
@[simp] theorem Work.part_updRedEv (w : Work) (q : Fin 8) (f : RedEvents → RedEvents) (r : Fin 8) : (w.updRedEv q f).part r = w.part r := rfl
@[simp] theorem Work.port_updRedEv (w : Work) (q : Fin 8) (f : RedEvents → RedEvents) (m : Nat) : (w.updRedEv q f).port m = w.port m := rfl
@[simp] theorem Work.job_updRedEv (w : Work) (q : Fin 8) (f : RedEvents → RedEvents) (r : Fin 8) (m : BitVec 16) : (w.updRedEv q f).job r m = w.job r m := rfl
@[simp] theorem Work.prog_updRedEv (w : Work) (q : Fin 8) (f : RedEvents → RedEvents) (r : Fin 8) (m : BitVec 32) : (w.updRedEv q f).prog r m = w.prog r m := rfl
@[simp] theorem Work.entry_updRedEv (w : Work) (q : Fin 8) (f : RedEvents → RedEvents) (r : Fin 8) (m : BitVec 20) : (w.updRedEv q f).entry r m = w.entry r m := rfl
@[simp] theorem Work.fn_updRedEv (w : Work) (q : Fin 8) (f : RedEvents → RedEvents) (h : Fn) : (w.updRedEv q f).fn h = w.fn h := rfl
@[simp] theorem Work.queue_updRedEv (w : Work) (q : Fin 8) (f : RedEvents → RedEvents) (h : Fn) (m : Nat) : (w.updRedEv q f).queue h m = w.queue h m := rfl
@[simp] theorem Work.commit_updRedEv (w : Work) (q : Fin 8) (f : RedEvents → RedEvents) (r : Fin 8) (m : BitVec 16) : (w.updRedEv q f).commit r m = w.commit r m := rfl
@[simp] theorem Work.redCtx_updRedEv (w : Work) (q : Fin 8) (f : RedEvents → RedEvents) (m o : BitVec 16) : (w.updRedEv q f).redCtx m o = w.redCtx m o := rfl
@[simp] theorem Work.dom_updRedEv (w : Work) (q : Fin 8) (f : RedEvents → RedEvents) (r : Fin 8) (m : Nat) : (w.updRedEv q f).dom r m = w.dom r m := rfl
@[simp] theorem Work.frame_updRedEv (w : Work) (q : Fin 8) (f : RedEvents → RedEvents)  : (w.updRedEv q f).frame = w.frame := rfl
@[simp] theorem Work.ctx_emit (w : Work) (e : Emit) (d : CtxId) : (w.emit e).ctx d = w.ctx d := rfl
@[simp] theorem Work.core_emit (w : Work) (e : Emit) (d : CtxId) : (w.emit e).core d = w.core d := rfl
@[simp] theorem Work.slice_emit (w : Work) (e : Emit) (m : Nat) : (w.emit e).slice m = w.slice m := rfl
@[simp] theorem Work.sluice_emit (w : Work) (e : Emit) (m : Nat) : (w.emit e).sluice m = w.sluice m := rfl
@[simp] theorem Work.stack_emit (w : Work) (e : Emit) (m : Nat) : (w.emit e).stack m = w.stack m := rfl
@[simp] theorem Work.part_emit (w : Work) (e : Emit) (r : Fin 8) : (w.emit e).part r = w.part r := rfl
@[simp] theorem Work.port_emit (w : Work) (e : Emit) (m : Nat) : (w.emit e).port m = w.port m := rfl
@[simp] theorem Work.job_emit (w : Work) (e : Emit) (r : Fin 8) (m : BitVec 16) : (w.emit e).job r m = w.job r m := rfl
@[simp] theorem Work.prog_emit (w : Work) (e : Emit) (r : Fin 8) (m : BitVec 32) : (w.emit e).prog r m = w.prog r m := rfl
@[simp] theorem Work.entry_emit (w : Work) (e : Emit) (r : Fin 8) (m : BitVec 20) : (w.emit e).entry r m = w.entry r m := rfl
@[simp] theorem Work.fn_emit (w : Work) (e : Emit) (h : Fn) : (w.emit e).fn h = w.fn h := rfl
@[simp] theorem Work.queue_emit (w : Work) (e : Emit) (h : Fn) (m : Nat) : (w.emit e).queue h m = w.queue h m := rfl
@[simp] theorem Work.commit_emit (w : Work) (e : Emit) (r : Fin 8) (m : BitVec 16) : (w.emit e).commit r m = w.commit r m := rfl
@[simp] theorem Work.redCtx_emit (w : Work) (e : Emit) (m o : BitVec 16) : (w.emit e).redCtx m o = w.redCtx m o := rfl
@[simp] theorem Work.dom_emit (w : Work) (e : Emit) (r : Fin 8) (m : Nat) : (w.emit e).dom r m = w.dom r m := rfl
@[simp] theorem Work.frame_emit (w : Work) (e : Emit)  : (w.emit e).frame = w.frame := rfl
@[simp] theorem Work.ctx_logEv (w : Work) (u : BitVec 16) (k v : Nat) (p : Byte) (l : Nat) (d : CtxId) : (w.logEv u k v p l).ctx d = w.ctx d := rfl
@[simp] theorem Work.core_logEv (w : Work) (u : BitVec 16) (k v : Nat) (p : Byte) (l : Nat) (d : CtxId) : (w.logEv u k v p l).core d = w.core d := rfl
@[simp] theorem Work.slice_logEv (w : Work) (u : BitVec 16) (k v : Nat) (p : Byte) (l : Nat) (m : Nat) : (w.logEv u k v p l).slice m = w.slice m := rfl
@[simp] theorem Work.sluice_logEv (w : Work) (u : BitVec 16) (k v : Nat) (p : Byte) (l : Nat) (m : Nat) : (w.logEv u k v p l).sluice m = w.sluice m := rfl
@[simp] theorem Work.stack_logEv (w : Work) (u : BitVec 16) (k v : Nat) (p : Byte) (l : Nat) (m : Nat) : (w.logEv u k v p l).stack m = w.stack m := rfl
@[simp] theorem Work.part_logEv (w : Work) (u : BitVec 16) (k v : Nat) (p : Byte) (l : Nat) (r : Fin 8) : (w.logEv u k v p l).part r = w.part r := rfl
@[simp] theorem Work.port_logEv (w : Work) (u : BitVec 16) (k v : Nat) (p : Byte) (l : Nat) (m : Nat) : (w.logEv u k v p l).port m = w.port m := rfl
@[simp] theorem Work.job_logEv (w : Work) (u : BitVec 16) (k v : Nat) (p : Byte) (l : Nat) (r : Fin 8) (m : BitVec 16) : (w.logEv u k v p l).job r m = w.job r m := rfl
@[simp] theorem Work.prog_logEv (w : Work) (u : BitVec 16) (k v : Nat) (p : Byte) (l : Nat) (r : Fin 8) (m : BitVec 32) : (w.logEv u k v p l).prog r m = w.prog r m := rfl
@[simp] theorem Work.entry_logEv (w : Work) (u : BitVec 16) (k v : Nat) (p : Byte) (l : Nat) (r : Fin 8) (m : BitVec 20) : (w.logEv u k v p l).entry r m = w.entry r m := rfl
@[simp] theorem Work.fn_logEv (w : Work) (u : BitVec 16) (k v : Nat) (p : Byte) (l : Nat) (h : Fn) : (w.logEv u k v p l).fn h = w.fn h := rfl
@[simp] theorem Work.queue_logEv (w : Work) (u : BitVec 16) (k v : Nat) (p : Byte) (l : Nat) (h : Fn) (m : Nat) : (w.logEv u k v p l).queue h m = w.queue h m := rfl
@[simp] theorem Work.commit_logEv (w : Work) (u : BitVec 16) (k v : Nat) (p : Byte) (l : Nat) (r : Fin 8) (m : BitVec 16) : (w.logEv u k v p l).commit r m = w.commit r m := rfl
@[simp] theorem Work.redCtx_logEv (w : Work) (u : BitVec 16) (k v : Nat) (p : Byte) (l : Nat) (m o : BitVec 16) : (w.logEv u k v p l).redCtx m o = w.redCtx m o := rfl
@[simp] theorem Work.dom_logEv (w : Work) (u : BitVec 16) (k v : Nat) (p : Byte) (l : Nat) (r : Fin 8) (m : Nat) : (w.logEv u k v p l).dom r m = w.dom r m := rfl
@[simp] theorem Work.frame_logEv (w : Work) (u : BitVec 16) (k v : Nat) (p : Byte) (l : Nat)  : (w.logEv u k v p l).frame = w.frame := rfl

end Sys2Proof.Machine
end

