-- ==== Sys2Proof/Laws/Issue.lean ====
section
/-! SUPPORT. What issuing an instruction does when nothing stands in its way: one lemma for all 105 operations. -/

namespace Sys2Proof.Machine

/-- The state in which a dispatched instruction starts. -/
def Work.started (w : Work) (c : CtxId) (op : KOp) (f : Fields) : Work :=
  (({ w with nextId := w.nextId + 1 } : Work).updCtx c fun k => k.dispatched (w.capture c op f)).noteServed c (w.capture c op f)

@[simp] theorem Ctx.dispatched_infl (k : Ctx) (x : InFlight) : (k.dispatched x).infl = k.infl ++ [x] := by
  unfold Ctx.dispatched Ctx.rngSet
  split <;> rfl

@[simp] theorem Ctx.dispatched_decl (k : Ctx) (x : InFlight) : (k.dispatched x).decl = k.decl := by
  unfold Ctx.dispatched Ctx.rngSet
  split <;> rfl

@[simp] theorem Work.ctx_noteServed (w : Work) (c : CtxId) (x : InFlight) (d : CtxId) : (w.noteServed c x).ctx d = w.ctx d := by
  unfold Work.noteServed
  dsimp only
  split <;> rfl

@[simp] theorem Work.capture_id (w : Work) (c : CtxId) (op : KOp) (f : Fields) : (w.capture c op f).id = w.nextId := rfl
@[simp] theorem Work.capture_op (w : Work) (c : CtxId) (op : KOp) (f : Fields) : (w.capture c op f).op = op := rfl
@[simp] theorem Work.capture_f (w : Work) (c : CtxId) (op : KOp) (f : Fields) : (w.capture c op f).f = f := rfl
@[simp] theorem Work.capture_stat (w : Work) (c : CtxId) (op : KOp) (f : Fields) : (w.capture c op f).stat = .queued := rfl

theorem Work.ready_infl {w : Work} {c : CtxId} (h : w.ready c) : (w.ctx c).infl = [] := h.2.2.2.2.2.2 c.ctx

/-- A ready context's instruction is dispatched. -/
theorem Work.dispatch_ready {w : Work} {c : CtxId} (h : w.ready c) (op : KOp) (f : Fields) :
    w.dispatch c op f =
      (({ w with nextId := w.nextId + 1 } : Work).updCtx c fun k => k.dispatched (w.capture c op f), true) := by
  obtain ⟨h1, h2, h3, h4, h5, -, -⟩ := id h
  have hi := Work.ready_infl h
  have q : ∀ q : Queue, queueDepth q ≤ 0 ↔ False := by intro q; cases q <;> simp [queueDepth]
  have e : (w.ctx c).scalarsReady op f = true := by
    unfold Ctx.scalarsReady Ctx.pendingScalar
    simp only [hi, List.any_nil, Bool.and_false, Bool.not_false]
    simp only [List.all_eq_true, implies_true, Bool.and_eq_true, true_and]
    split <;> rfl
  unfold Work.dispatch
  simp [Ctx.mayDispatch, h1, h2, h3, Ctx.badPc, h4, Nat.not_le.mpr h5, Ctx.queued, hi, q, e]

/-- Round-robin over four contexts of which one alone qualifies picks that one. -/
theorem find_turn (P : CtxId → Bool) (c : CtxId) (hP : P c = true)
    (hn : ∀ k : Fin 4, ({ c with ctx := k } : CtxId) ≠ c → P { c with ctx := k } = false) (first : Nat) :
    ((List.range 4).map fun i => ({ c with ctx := ⟨(first + i) % 4, Nat.mod_lt _ (by decide)⟩ } : CtxId)).find? (fun d => P d) =
      some c := by
  have key : ∀ i : Nat, (first + i) % 4 = c.ctx.val → (({ c with ctx := ⟨(first + i) % 4, Nat.mod_lt _ (by decide)⟩ } : CtxId) = c) := by
    intro i e; obtain ⟨n, m, k⟩ := c; simp only at e; congr 1; exact Fin.ext e
  have no : ∀ i : Nat, (first + i) % 4 ≠ c.ctx.val →
      P ({ c with ctx := ⟨(first + i) % 4, Nat.mod_lt _ (by decide)⟩ } : CtxId) = false :=
    fun i hi => hn _ fun e => hi (congrArg (fun d : CtxId => d.ctx.val) e)
  have hc := c.ctx.isLt
  simp only [List.range_succ, List.range_zero, List.nil_append, List.map_cons, List.map_nil, List.cons_append,
    List.find?_cons]
  by_cases h0 : (first + 0) % 4 = c.ctx.val
  · rw [key 0 h0, hP]
  rw [no 0 h0]
  by_cases h1 : (first + 1) % 4 = c.ctx.val
  · rw [key 1 h1, hP]
  rw [no 1 h1]
  by_cases h2 : (first + 2) % 4 = c.ctx.val
  · rw [key 2 h2, hP]
  rw [no 2 h2]
  have h3 : (first + 3) % 4 = c.ctx.val := by omega
  rw [key 3 h3, hP]

/-- A ready context's dispatched instruction is the one its engine takes. -/
theorem Work.mayBegin_ready {w : Work} {c : CtxId} (h : w.ready c) (op : KOp) (f : Fields) :
    let w1 := ({ w with nextId := w.nextId + 1 } : Work).updCtx c fun k => k.dispatched (w.capture c op f)
    w1.headOf c op.queue = some (w.capture c op f) ∧ w1.mayBegin c (w.capture c op f) = true := by
  intro w1
  obtain ⟨-, -, -, -, -, hb, hs⟩ := id h
  have hi := Work.ready_infl h
  have i1 : (w1.ctx c).infl = [w.capture c op f] := by
    simp only [w1, Work.ctx_updCtx_same, Ctx.dispatched_infl]
    rw [show ({ w with nextId := w.nextId + 1 } : Work).ctx c = w.ctx c from rfl, hi]; rfl
  have hd : w1.headOf c op.queue = some (w.capture c op f) := by simp [Work.headOf, i1, IStat.blocks]
  have st : w1.startable c (w.capture c op f) = true := by
    have b : (w1.core c).bPending = none := hb
    simp [Work.startable, Work.operandsReady, i1, Ctx.popHeld, b]
  have other : ∀ (k : Fin 4) (q : Queue), ({ c with ctx := k } : CtxId) ≠ c → w1.headOf { c with ctx := k } q = none := by
    intro k q hk
    have : (w1.ctx { c with ctx := k }).infl = [] := by
      rw [Work.ctx_updCtx_other _ _ hk]; exact hs k
    simp [Work.headOf, this]
  refine ⟨hd, ?_⟩
  have hh : w1.headStartable c op.queue = true := by simp [Work.headStartable, hd, st]
  have hn : ∀ (k : Fin 4) (q : Queue), ({ c with ctx := k } : CtxId) ≠ c → w1.headStartable { c with ctx := k } q = false := by
    intro k q hk; simp [Work.headStartable, other k q hk]
  have t : w1.turn c op.queue = true := by
    unfold Work.turn
    simp only [Bool.or_eq_true, decide_eq_true_eq]
    exact .inr (find_turn _ c hh (fun k hk => hn k _ hk) _)
  have quiet : ∀ (k : Fin 4) (r : Queue), r ≠ op.queue → w1.headOf { c with ctx := k } r = none := by
    intro k r hr
    by_cases hk : ({ c with ctx := k } : CtxId) = c
    · rw [hk]; simp [Work.headOf, i1, Ne.symm hr]
    · exact other k r hk
  have still : ∀ (k : Fin 4), ∀ y ∈ (w1.ctx { c with ctx := k }).infl, y.stat ≠ .started := by
    intro k y hy
    by_cases hk : ({ c with ctx := k } : CtxId) = c
    · rw [hk, i1] at hy; simp at hy; subst hy; simp
    · rw [Work.ctx_updCtx_other _ _ hk] at hy; rw [show (({ w with nextId := w.nextId + 1 } : Work).ctx _) = w.ctx _ from rfl, hs k] at hy
      simp at hy
  have a : w1.alone c (w.capture c op f) = true := by
    unfold Work.alone
    split
    · split
      · rfl
      · next r hr =>
        have ne : r ≠ op.queue := by
          intro e; subst e; revert hr; simp only [Work.capture_op]; cases op.queue <;> simp [rivalQueue]
        have hq : ∀ k : Fin 4, w1.productStartable { c with ctx := k } r = false := by
          intro k; simp [Work.productStartable, quiet k r ne]
        have hb : w1.arrayBusy c r = false := by
          simp only [Work.arrayBusy, siblings, List.any_map, List.any_eq_false]
          intro k _
          simp only [Function.comp, List.any_eq_true, not_exists, not_and]
          intro y hy e
          simp only [Bool.and_eq_true, decide_eq_true_eq] at e
          exact still k y hy e.2.2
        simp [siblings, hq, hb]
    · rfl
  simp [Work.mayBegin, st, t, a]

/-- Setting the standing of the only instruction of a context. -/
theorem Work.ctx_setStat (w : Work) (c : CtxId) (x : InFlight) (st : IStat) (h : (w.ctx c).infl = [x]) :
    (w.setStat c x.id st).ctx c = { w.ctx c with infl := [{ x with stat := st }] } := by
  simp [Work.setStat, h]

/-- The halves of the only instruction of a context are noted. -/
theorem Work.ctx_noteHalf (w : Work) (c : CtxId) (x : InFlight) (h : (w.ctx c).infl = [x]) (hx : x.half = 0) :
    (w.noteHalf c x).ctx c =
      { w.ctx c with infl := [{ x with half := w.halfFor c x, startNo := if w.halfFor c x = 0 then x.startNo else w.nextStart c }] } := by
  unfold Work.noteHalf
  dsimp only
  by_cases e : w.halfFor c x = 0
  · rw [if_pos e, e, if_pos rfl, ← hx, ← h]
  · rw [if_neg e, if_neg e, Work.ctx_updCtx_same, h]
    simp

/-- An instruction with no request to another unit leaves with no epoch. -/
theorem Work.ctx_noteSent (w : Work) (c : CtxId) (x y : InFlight) (h : (w.ctx c).infl = [y]) (hi : y.id = x.id) (hd : w.destUnits c y = []) :
    (w.noteSent c x).ctx c = { w.ctx c with infl := [{ y with sentTo := [] }] } := by
  have g : w.instr c x.id = some y := by simp [Work.instr, h, hi]
  simp [Work.noteSent, g, hd, h, hi]

/-- An instruction that acts at its completion has no request to another unit. -/
theorem Work.destUnits_nil (w : Work) (c : CtxId) (x : InFlight) (h : x.op.actsAtStart = false) : w.destUnits c x = [] := by
  obtain ⟨id, op, f, pc, vd, va, vb, vi, lane, mb, step, prev, seg, stat, missed, snap, sentTo, half⟩ := x
  unfold Work.destUnits
  cases op <;> first | rfl | exact absurd h (by simp [KOp.actsAtStart])

/-- The instruction as it stands once its engine has started it, but for the halves of B that a product takes. -/
def InFlight.start (x : InFlight) : InFlight := { x with stat := .started }

/-- The instruction as it stands once its engine has started it (R83, R84, R122). -/
def Work.startInstr (w : Work) (c : CtxId) (op : KOp) (f : Fields) : InFlight :=
  let h := (w.started c op f).halfFor c (w.capture c op f)
  { (w.capture c op f).start with half := h, startNo := if h = 0 then 0 else (w.started c op f).nextStart c }

/-- Only a product takes halves of B. -/
theorem Work.startInstr_eq (w : Work) (c : CtxId) (op : KOp) (f : Fields) (h : op.isProduct = false) :
    w.startInstr c op f = (w.capture c op f).start := by
  simp [Work.startInstr, Work.halfFor, h, InFlight.start, Work.capture]

@[simp] theorem Work.startInstr_op (w : Work) (c : CtxId) (op : KOp) (f : Fields) : (w.startInstr c op f).op = op := rfl
@[simp] theorem Work.startInstr_f (w : Work) (c : CtxId) (op : KOp) (f : Fields) : (w.startInstr c op f).f = f := rfl
@[simp] theorem Work.startInstr_id (w : Work) (c : CtxId) (op : KOp) (f : Fields) : (w.startInstr c op f).id = w.nextId := rfl

/-- The state in which an engine's instruction completes, when it starts and completes in the step that issues it. -/
def Work.engaged (w : Work) (c : CtxId) (op : KOp) (f : Fields) : Work :=
  (((w.started c op f).noteHalf c (w.capture c op f)).setStat c w.nextId .started).noteSent c (w.capture c op f)

theorem Work.started_infl {w : Work} {c : CtxId} (h : w.ready c) (op : KOp) (f : Fields) :
    ((w.started c op f).ctx c).infl = [w.capture c op f] := by
  simp only [Work.started, Work.ctx_noteServed, Work.ctx_updCtx_same, Ctx.dispatched_infl]
  rw [show ({ w with nextId := w.nextId + 1 } : Work).ctx c = w.ctx c from rfl, Work.ready_infl h]; rfl

theorem Work.started_decl (w : Work) (c : CtxId) (op : KOp) (f : Fields) : ((w.started c op f).ctx c).decl = (w.ctx c).decl := by
  simp [Work.started]; rfl

/-- The context in which a dispatched instruction starts. -/
theorem Work.started_ctx (w : Work) (c : CtxId) (op : KOp) (f : Fields) :
    (w.started c op f).ctx c = (w.ctx c).dispatched (w.capture c op f) := by
  simp [Work.started]; rfl

/-- The context in which an instruction that acts at its completion completes. -/
theorem Work.engaged_ctx {w : Work} {c : CtxId} (h : w.ready c) (op : KOp) (f : Fields) (ha : op.actsAtStart = false) :
    (w.engaged c op f).ctx c = { (w.ctx c).dispatched (w.capture c op f) with infl := [w.startInstr c op f] } := by
  have e1 := Work.ctx_noteHalf (w.started c op f) c (w.capture c op f) (Work.started_infl h op f) rfl
  have e2 := Work.ctx_setStat ((w.started c op f).noteHalf c (w.capture c op f)) c
    { w.startInstr c op f with stat := .queued } .started (by rw [e1]; rfl)
  have e3 := Work.ctx_noteSent (((w.started c op f).noteHalf c (w.capture c op f)).setStat c w.nextId .started) c (w.capture c op f)
    (w.startInstr c op f) (congrArg Ctx.infl e2) rfl (Work.destUnits_nil _ _ _ ha)
  rw [e1, Work.started_ctx] at e2
  unfold Work.engaged
  rw [e3]
  have e2' : (((w.started c op f).noteHalf c (w.capture c op f)).setStat c w.nextId .started).ctx c = _ := e2
  rw [e2']
  rfl

/-- The first half of issuing an instruction when nothing stands in its way: it is dispatched and begins. -/
theorem Work.issue_begin {w : Work} {c : CtxId} (h : w.ready c) (op : KOp) (f : Fields) (ev : MemEvent)
    (hf : (w.ctx c).operandFault op f = none) :
    w.issue c op f (.start ev) =
      let w1 := if op.actsAtStart then (op.effect (w.started c op f) c (w.capture c op f) ev).conclude c (w.capture c op f)
        else w.engaged c op f
      match w1.instr c w.nextId with
      | some y => if y.stat = .started then w1.completeStarted c y ev else w1
      | none => w1 := by
  obtain ⟨hd, hb⟩ := Work.mayBegin_ready h op f
  have of : ((w.started c op f).ctx c).operandFault op f = none := by
    unfold Ctx.operandFault Ctx.fieldFault at hf ⊢
    rw [Work.started_decl]; exact hf
  have bg : Work.begin (({ w with nextId := w.nextId + 1 } : Work).updCtx c fun k => k.dispatched (w.capture c op f)) c (w.capture c op f) ev =
      if op.actsAtStart then (op.effect (w.started c op f) c (w.capture c op f) ev).conclude c (w.capture c op f)
      else w.engaged c op f := by
    unfold Work.begin
    simp only [Work.capture_op, Work.capture_f, Work.capture_id]
    rw [show (Work.noteServed _ c (w.capture c op f)) = w.started c op f from rfl, of]
    rfl
  unfold Work.issue
  rw [Work.dispatch_ready h]
  simp only [if_true]
  unfold Work.runNow
  rw [hd]
  simp only [Work.capture_id, hb, and_self, if_true, bg]
  all_goals rfl

/-- An engine's instruction that completes after its start does both in the step that issues it (R83, R84). -/
theorem Work.issue_ready {w : Work} {c : CtxId} (h : w.ready c) (op : KOp) (f : Fields) (ev : MemEvent)
    (hf : (w.ctx c).operandFault op f = none) (ha : op.actsAtStart = false) :
    w.issue c op f (.start ev) =
      (op.effect (w.engaged c op f) c (w.startInstr c op f) ev).conclude c (w.startInstr c op f) := by
  rw [Work.issue_begin h op f ev hf]
  simp only [ha, if_false, Bool.false_eq_true]
  have e := Work.engaged_ctx h op f ha
  have g : (w.engaged c op f).instr c w.nextId = some (w.startInstr c op f) := by
    unfold Work.instr
    rw [e]; simp
  rw [g]
  have st : (w.startInstr c op f).stat = .started := rfl
  simp only [st, if_true]
  unfold Work.completeStarted
  have ph : ((w.engaged c op f).ctx c).productHeld (w.startInstr c op f) = false := by
    unfold Ctx.productHeld
    rw [e]; simp
  have sr : (w.engaged c op f).staleReply (w.startInstr c op f) = false := rfl
  rw [ph, sr]; rfl

/-- An instruction that acts and completes at its start (R84). -/
theorem Work.issue_done {w : Work} {c : CtxId} (h : w.ready c) (op : KOp) (f : Fields) (ev : MemEvent)
    (hf : (w.ctx c).operandFault op f = none) (ha : op.actsAtStart = true) (w2 : Work)
    (he : op.effect (w.started c op f) c (w.capture c op f) ev = .done w2) :
    w.issue c op f (.start ev) =
      w2.retire c (w.capture c op f) (if op.queue = .C then none else (w.capture c op f).flag) := by
  rw [Work.issue_begin h op f ev hf]
  have e : (Effect.done w2).conclude c (w.capture c op f) =
      w2.retire c (w.capture c op f) (if op.queue = .C then none else (w.capture c op f).flag) := rfl
  simp only [ha, if_true, he]
  rw [e]
  have g : (w2.retire c (w.capture c op f) (if op.queue = .C then none else (w.capture c op f).flag)).instr c w.nextId = none := by
    unfold Work.instr Work.retire
    simp only [Work.ctx_updCtx_same, List.find?_eq_none]
    intro x hx
    split at hx <;> simp [Ctx.bumpFlag] at hx <;> have := of_decide_eq_true hx.2 <;> simpa using this
  rw [g]

/-- A control-unit instruction that changes its own context alone, and completes at once. -/
theorem ctxDone_of {s : State} {c : CtxId} (h : s.w.ready c) (op : KOp) (f : Fields) (ev : MemEvent)
    (hf : (s.w.ctx c).operandFault op f = none) (hq : op.queue = .C) (w2 : Work)
    (he : op.effect (s.w.started c op f) c (s.w.capture c op f) ev = .done w2)
    (hw : w2 = { s.w.started c op f with ctxs := w2.ctxs }) (ho : ∀ e, e ≠ c → w2.ctx e = (s.w.started c op f).ctx e)
    (k' : Ctx) (pc : Nat)
    (hk : { w2.ctx c with infl := (w2.ctx c).infl.filter fun y => decide (y.id ≠ s.w.nextId) } =
        { k' with pc := pc, dispatchPc := (s.w.ctx c).pc, busy := true }) :
    CtxDone s (.next (s.onW fun w => w.issue c op f (.start ev))) c k' pc := by
  have ha : op.actsAtStart = true := by simp [KOp.actsAtStart, hq]
  refine ⟨_, rfl, rfl, rfl, ?_, ?_, ?_⟩
  · rw [State.onW_w, Work.issue_done h op f ev hf ha _ he, hw]
    simp only [hq, if_true, Work.started, Work.noteServed, Work.retire, Work.capture_op]
    rfl
  · intro e ne
    rw [State.onW_w, Work.issue_done h op f ev hf ha _ he]
    simp only [Work.retire]
    rw [Work.ctx_updCtx_other _ _ ne, ho e ne, Work.started, Work.ctx_noteServed, Work.ctx_updCtx_other _ _ ne]
    rfl
  · rw [State.onW_w, Work.issue_done h op f ev hf ha _ he]
    simp only [hq, if_true, Work.retire, Work.ctx_updCtx_same]
    exact hk

theorem Work.noteServed_eq (w : Work) (c : CtxId) (x : InFlight) : w.noteServed c x = { w with cores := (w.noteServed c x).cores } := by
  unfold Work.noteServed
  dsimp only
  split <;> rfl
theorem Work.noteServed_core (w : Work) (c : CtxId) (x : InFlight) (hq : x.op.queue ≠ .C) :
    (w.noteServed c x).core c = (w.core c).tookOp c x.op := by
  unfold Work.noteServed Core.tookOp Core.took
  simp only [hq, if_false, Work.core_updCore_same]
theorem Work.noteServed_core_other (w : Work) {c e : CtxId} (x : InFlight) (ne : coreKey e ≠ coreKey c) :
    (w.noteServed c x).core e = w.core e := by
  unfold Work.noteServed
  dsimp only
  split
  · rfl
  · rw [Work.core_updCore_other _ _ ne]

theorem Work.noteHalf_eq (w : Work) (c : CtxId) (x : InFlight) : w.noteHalf c x = { w with ctxs := (w.noteHalf c x).ctxs } := by
  unfold Work.noteHalf
  dsimp only
  split <;> rfl
@[simp] theorem Work.core_noteHalf (w : Work) (c : CtxId) (x : InFlight) (d : CtxId) : (w.noteHalf c x).core d = w.core d := by
  rw [Work.noteHalf_eq]; rfl
@[simp] theorem Work.core_noteSent (w : Work) (c : CtxId) (x : InFlight) (d : CtxId) : (w.noteSent c x).core d = w.core d := rfl
@[simp] theorem Work.core_setStat (w : Work) (c : CtxId) (n : Nat) (st : IStat) (d : CtxId) : (w.setStat c n st).core d = w.core d := rfl
theorem Work.ctx_noteHalf_other (w : Work) {c d : CtxId} (x : InFlight) (ne : d ≠ c) : (w.noteHalf c x).ctx d = w.ctx d := by
  unfold Work.noteHalf
  dsimp only
  split
  · rfl
  · exact Work.ctx_updCtx_other _ _ ne
theorem Work.ctx_noteSent_other (w : Work) {c d : CtxId} (x : InFlight) (ne : d ≠ c) : (w.noteSent c x).ctx d = w.ctx d :=
  Work.ctx_updCtx_other _ _ ne
theorem Work.ctx_setStat_other (w : Work) {c d : CtxId} (n : Nat) (st : IStat) (ne : d ≠ c) : (w.setStat c n st).ctx d = w.ctx d :=
  Work.ctx_updCtx_other _ _ ne
theorem Work.noteSent_eq (w : Work) (c : CtxId) (x : InFlight) : w.noteSent c x = { w with ctxs := (w.noteSent c x).ctxs } := rfl
theorem Work.setStat_eq (w : Work) (c : CtxId) (n : Nat) (st : IStat) : w.setStat c n st = { w with ctxs := (w.setStat c n st).ctxs } := rfl

/-- What dispatch and start change. -/
theorem Work.started_eq (w : Work) (c : CtxId) (op : KOp) (f : Fields) :
    w.started c op f = { w with ctxs := (w.started c op f).ctxs, cores := (w.started c op f).cores, nextId := w.nextId + 1 } := by
  unfold Work.started
  rw [Work.noteServed_eq]
  rfl

/-- What issuing changes. -/
theorem Work.engaged_eq (w : Work) (c : CtxId) (op : KOp) (f : Fields) :
    w.engaged c op f = { w with ctxs := (w.engaged c op f).ctxs, cores := (w.engaged c op f).cores, nextId := w.nextId + 1 } := by
  unfold Work.engaged
  rw [Work.noteSent_eq, Work.setStat_eq, Work.noteHalf_eq, Work.started_eq]

theorem Work.engaged_slices (w : Work) (c : CtxId) (op : KOp) (f : Fields) : (w.engaged c op f).slices = w.slices := by
  have h := congrArg Work.slices (Work.engaged_eq w c op f)
  generalize w.engaged c op f = x at *
  exact h

theorem Work.engaged_slice (w : Work) (c : CtxId) (op : KOp) (f : Fields) (n : Nat) : (w.engaged c op f).slice n = w.slice n := by
  unfold Work.slice
  rw [Work.engaged_slices]

theorem Work.engaged_ctx_other (w : Work) {c e : CtxId} (op : KOp) (f : Fields) (ne : e ≠ c) :
    (w.engaged c op f).ctx e = w.ctx e := by
  unfold Work.engaged
  rw [Work.ctx_noteSent_other _ _ ne, Work.ctx_setStat_other _ _ _ ne, Work.ctx_noteHalf_other _ _ ne]
  unfold Work.started
  rw [Work.ctx_noteServed, Work.ctx_updCtx_other _ _ ne]
  rfl

theorem Work.engaged_core (w : Work) (c : CtxId) (op : KOp) (f : Fields) (hq : op.queue ≠ .C) :
    (w.engaged c op f).core c = (w.core c).tookOp c op := by
  unfold Work.engaged Work.started
  rw [Work.core_noteSent, Work.core_setStat, Work.core_noteHalf, Work.noteServed_core _ _ _ hq, Work.core_updCtx]
  rfl

theorem Work.engaged_core_other (w : Work) {c e : CtxId} (op : KOp) (f : Fields) (ne : coreKey e ≠ coreKey c) :
    (w.engaged c op f).core e = w.core e := by
  unfold Work.engaged Work.started
  rw [Work.core_noteSent, Work.core_setStat, Work.core_noteHalf, Work.noteServed_core_other _ _ ne, Work.core_updCtx]
  rfl

/-- An engine's instruction that completes in the step that issues it (R83, R84): the state it leaves is that of its effect, with the
instruction gone from its context and its flag increased. -/
theorem Work.engine_done {w : Work} {c : CtxId} (h : w.ready c) (op : KOp) (f : Fields) (ev : MemEvent)
    (hf : (w.ctx c).operandFault op f = none) (hq : op.queue ≠ .C) (ha : op.actsAtStart = false) (w2 : Work)
    (he : op.effect (w.engaged c op f) c (w.startInstr c op f) ev = .done w2) :
    w.issue c op f (.start ev) = w2.retire c (w.startInstr c op f) (w.startInstr c op f).flag := by
  rw [Work.issue_ready h op f ev hf ha, he]
  have : (if (w.startInstr c op f).op.queue = .C then none else (w.startInstr c op f).flag) = (w.startInstr c op f).flag := if_neg hq
  exact congrArg (w2.retire c (w.startInstr c op f)) this

/-- An engine's instruction moves the PC on by 8 and holds nothing. -/
theorem Ctx.dispatched_engine (k : Ctx) (x : InFlight) (hq : x.op.queue ≠ .C) :
    k.dispatched x = { k with pc := k.pc + 8, dispatchPc := k.pc, infl := k.infl ++ [x], busy := true } := by
  obtain ⟨id, op, f, pc, vd, va, vb, vi, lane, mb, step, prev, seg, stat, missed, snap, sentTo, half⟩ := x
  unfold Ctx.dispatched
  cases op <;> first | (exact absurd rfl hq) | simp [nextPc]

/-- The context in which an engine's instruction completes. -/
theorem Work.engaged_ctx_engine {w : Work} {c : CtxId} (h : w.ready c) (op : KOp) (f : Fields) (hq : op.queue ≠ .C)
    (ha : op.actsAtStart = false) :
    (w.engaged c op f).ctx c =
      { w.ctx c with pc := (w.ctx c).pc + 8, dispatchPc := (w.ctx c).pc, busy := true, infl := [w.startInstr c op f] } := by
  rw [Work.engaged_ctx h op f ha, Ctx.dispatched_engine _ _ hq]

/-- The context after a completed instruction of an engine. -/
theorem Work.retire_ran {w2 : Work} {c : CtxId} {x : InFlight} {k : Ctx} (hx : x.op.queue ≠ .C) (hk : k.infl = [])
    (h : w2.ctx c = { k with pc := k.pc + 8, dispatchPc := k.pc, busy := true, infl := [x] }) :
    (w2.retire c x x.flag).ctx c = k.ran x.f := by
  unfold Work.retire
  rw [Work.ctx_updCtx_same, h]
  unfold InFlight.flag Ctx.ran Ctx.bumpFlag modBit modBits bitsOf
  cases m : x.f.mod[15] <;> simp [hx, m, hk]

theorem Work.retire_ctx_other (w2 : Work) {c e : CtxId} (x : InFlight) (fl : Option (Fin 16)) (ne : e ≠ c) :
    (w2.retire c x fl).ctx e = w2.ctx e := by
  unfold Work.retire
  rw [Work.ctx_updCtx_other _ _ ne]

/-- Retiring an instruction changes its context alone. -/
theorem Work.retire_eq (w2 : Work) (c : CtxId) (x : InFlight) (fl : Option (Fin 16)) :
    w2.retire c x fl = { w2 with ctxs := (w2.retire c x fl).ctxs } := rfl

@[simp] theorem Work.core_retire (w2 : Work) (c : CtxId) (x : InFlight) (fl : Option (Fin 16)) (d : CtxId) :
    (w2.retire c x fl).core d = w2.core d := rfl
@[simp] theorem Work.slice_retire (w2 : Work) (c : CtxId) (x : InFlight) (fl : Option (Fin 16)) (n : Nat) :
    (w2.retire c x fl).slice n = w2.slice n := rfl

end Sys2Proof.Machine
end

