-- ==== Sys2Proof/Laws/Lanes.lean ====
section
/-! SUPPORT. Lanes of vector registers: packing and reading back, the range of a lane's code, and what an instruction that writes
vD does. -/

namespace Sys2Proof.Machine

/-- Digits put together in base `2 ^ b`. -/
theorem fold_lt (b : Nat) (cs : List Nat) : cs.foldr (fun c n => c % 2 ^ b + 2 ^ b * n) 0 < 2 ^ (b * cs.length) := by
  induction cs with
  | nil => simp
  | cons c cs ih =>
    simp only [List.foldr_cons, List.length_cons]
    have h1 : c % 2 ^ b < 2 ^ b := Nat.mod_lt _ (Nat.two_pow_pos b)
    have h2 : 2 ^ (b * (cs.length + 1)) = 2 ^ b * 2 ^ (b * cs.length) := by rw [Nat.mul_add, Nat.pow_add, Nat.mul_one, Nat.mul_comm]
    rw [h2]
    generalize List.foldr _ _ cs = n at ih ⊢
    have h3 : 2 ^ b * n + 2 ^ b ≤ 2 ^ b * 2 ^ (b * cs.length) := by
      rw [show 2 ^ b * n + 2 ^ b = 2 ^ b * (n + 1) by ring]
      exact Nat.mul_le_mul_left _ ih
    omega

/-- A digit read back. -/
theorem fold_digit (b : Nat) (cs : List Nat) (i : Nat) (h : i < cs.length) :
    cs.foldr (fun c n => c % 2 ^ b + 2 ^ b * n) 0 / 2 ^ (b * i) % 2 ^ b = cs[i] % 2 ^ b := by
  induction cs generalizing i with
  | nil => simp at h
  | cons c cs ih =>
    simp only [List.foldr_cons]
    cases i with
    | zero => simp [Nat.add_mul_mod_self_left]
    | succ i =>
      have e : 2 ^ (b * (i + 1)) = 2 ^ b * 2 ^ (b * i) := by rw [Nat.mul_add, Nat.pow_add, Nat.mul_one, Nat.mul_comm]
      have d : (c % 2 ^ b + 2 ^ b * List.foldr (fun c n => c % 2 ^ b + 2 ^ b * n) 0 cs) / 2 ^ b =
          List.foldr (fun c n => c % 2 ^ b + 2 ^ b * n) 0 cs := by
        rw [Nat.add_mul_div_left _ _ (Nat.two_pow_pos b), Nat.div_eq_of_lt (Nat.mod_lt _ (Nat.two_pow_pos b)), Nat.zero_add]
      rw [e, ← Nat.div_div_eq_div_mul, d]
      exact ih i (by simpa using h)

/-- A lane of a packed register is its code. -/
theorem LaneW.laneAt_pack (l : LaneW) (cs : List Nat) (hl : l.bits * cs.length ≤ 4096) (i : Nat) (h : i < cs.length) :
    laneAt l (l.pack cs) i = cs[i] % 2 ^ l.bits := by
  unfold laneAt LaneW.pack
  have b := fold_lt l.bits cs
  have : cs.foldr (fun c n => c % 2 ^ l.bits + 2 ^ l.bits * n) 0 < 2 ^ 4096 :=
    Nat.lt_of_lt_of_le b (Nat.pow_le_pow_right (by decide) hl)
  rw [BitVec.toNat_ofNat, Nat.mod_eq_of_lt this]
  exact fold_digit l.bits cs i h

/-- The lanes of a register are those read one by one. -/
theorem LaneW.lanes_eq (l : LaneW) (v : BitVec 4096) : l.lanes v = (List.range l.count).map fun i => laneAt l v i := rfl

theorem codeOf_lt {w : Nat} (h : 1 ≤ w) (v : Option Int) : codeOf w v < 2 ^ w := by
  cases v with
  | none => exact Nat.pow_lt_pow_right (by decide) (by omega)
  | some v =>
    have : (0 : Int) < 2 ^ w := by positivity
    have := Int.emod_lt_of_pos v this
    have := Int.emod_nonneg v (show (2 ^ w : Int) ≠ 0 by positivity)
    show (v % 2 ^ w).toNat < 2 ^ w
    have e : ((2 ^ w : Nat) : Int) = (2 : Int) ^ w := by push_cast; rfl
    omega

/-- A lane's code fits its lane. -/
theorem LaneW.out_lt (l : LaneW) (h : 1 ≤ l.bits) (v : Option Int) : (l.out v).1 < 2 ^ l.bits := by
  unfold LaneW.out
  cases v with
  | none => exact codeOf_lt h none
  | some v =>
    simp only [LaneW.sat]
    have p : 0 < 2 ^ l.bits := Nat.two_pow_pos _
    split
    · split
      · exact p
      · split
        · exact Nat.sub_lt p (by decide)
        · rename_i a b
          have b' : v < (2 ^ l.bits : Int) := by omega
          have : ((2 ^ l.bits : Nat) : Int) = (2 : Int) ^ l.bits := by push_cast; rfl
          show v.toNat < _
          omega
    · exact codeOf_lt h (some _)

theorem laneAt_lt (l : LaneW) (v : BitVec 4096) (i : Nat) : laneAt l v i < 2 ^ l.bits := Nat.mod_lt _ (Nat.two_pow_pos _)

theorem laneW_bits (f : Fields) : 1 ≤ (laneW f).bits ∧ (laneW f).bits * (laneW f).count = 4096 := by
  unfold laneW
  split <;> exact ⟨by decide, by decide⟩

theorem Work.laneSat_eq (w : Work) (c : CtxId) (b : Bool) :
    w.laneSat c b = { w with ctxs := (w.laneSat c b).ctxs, slices := (w.laneSat c b).slices } := by cases b <;> rfl
@[simp] theorem Work.core_laneSat (w : Work) (c : CtxId) (b : Bool) (d : CtxId) : (w.laneSat c b).core d = w.core d := by
  cases b <;> rfl
theorem Work.ctx_laneSat_other (w : Work) {c d : CtxId} (b : Bool) (ne : d ≠ c) : (w.laneSat c b).ctx d = w.ctx d := by
  cases b
  · rfl
  · simp only [Work.laneSat, if_true, Work.ctx_updSlice]
    exact Work.ctx_updCtx_other w _ ne
theorem Work.ctx_laneSat (w : Work) (c : CtxId) (b : Bool) :
    (w.laneSat c b).ctx c = { w.ctx c with laneSat := (w.ctx c).laneSat || b } := by
  cases b
  · simp [Work.laneSat]
  · simp [Work.laneSat]
theorem Work.slice_laneSat (w : Work) (c : CtxId) (b : Bool) (n : Nat) :
    (w.laneSat c b).slice n =
      if n = c.slice.val ∧ b = true then { w.slice n with laneSats := satAdd (w.slice n).laneSats 1 } else w.slice n := by
  cases b
  · simp [Work.laneSat]
  · by_cases e : n = c.slice.val
    · subst e
      simp only [Work.laneSat, if_true, and_self]
      exact Work.slice_updSlice_same _ _ _
    · simp only [e, false_and, if_false]
      exact Work.slice_updSlice_other _ _ e

@[simp] theorem Work.ctx_setVreg (w : Work) (c : CtxId) (i : Nat) (v : BitVec 4096) (d : CtxId) : (w.setVreg c i v).ctx d = w.ctx d := rfl
@[simp] theorem Work.slice_setVreg (w : Work) (c : CtxId) (i : Nat) (v : BitVec 4096) (n : Nat) : (w.setVreg c i v).slice n = w.slice n := rfl
theorem Work.core_setVreg_other (w : Work) {c d : CtxId} (i : Nat) (v : BitVec 4096) (ne : coreKey d ≠ coreKey c) :
    (w.setVreg c i v).core d = w.core d := Work.core_updCore_other _ _ ne
theorem Work.core_setVreg (w : Work) (c : CtxId) (i : Nat) (v : BitVec 4096) :
    (w.setVreg c i v).core c = { w.core c with vregs := (w.core c).vregs.set 0 i v } := Work.core_updCore_same _ _ _

/-- An instruction that writes vD's lanes and completes. -/
theorem vecDone_of {s : State} {c : CtxId} (h : s.w.ready c) (op : KOp) (f : Fields) (ev : MemEvent)
    (hf : (s.w.ctx c).operandFault op f = none) (hq : op.queue = .V) (ha : op.actsAtStart = false) (l : LaneW) (hl : l.bits * l.count = 4096)
    (out : Nat → Nat × Bool) (hout : ∀ i, i < l.count → (out i).1 < 2 ^ l.bits)
    (he : op.effect (s.w.engaged c op f) c (s.w.capture c op f).start ev =
      putLanes (s.w.engaged c op f) c (s.w.capture c op f).start l ((List.range l.count).map out)) :
    VecDone s (.next (s.onW fun w => w.issue c op f (.start ev))) c f l out := by
  have hq' : op.queue ≠ .C := by rw [hq]; decide
  have ee := Work.engaged_eq s.w c op f
  have hp : op.isProduct = false := by
    cases op <;> first | rfl | (exact absurd hq (by decide))
  have hc := Work.engaged_ctx_engine h op f hq' ha
  have hco := Work.engaged_core s.w c op f hq'
  have hi := Work.ready_infl h
  have an : ((List.range l.count).map out).any (·.2) = (List.range l.count).any fun i => (out i).2 := by
    rw [List.any_map]; rfl
  unfold putLanes at he
  rw [an] at he
  unfold VecDone
  generalize ((List.range l.count).any fun i => (out i).2) = sat at he ⊢
  rw [← Work.startInstr_eq s.w c op f hp] at he
  have hd := Work.engine_done h op f ev hf hq' ha _ he
  generalize hw : s.w.engaged c op f = w1 at *
  generalize hx : s.w.startInstr c op f = x at *
  have xf : x.f = f := by rw [← hx]; rfl
  have xq : x.op.queue ≠ .C := by rw [← hx]; exact hq'
  rw [xf] at hd
  have key : (((w1.setVreg c (fieldNum f.d) (l.pack (List.map (fun x => x.1) (List.map out (List.range l.count))))).laneSat c sat)).core c =
      { (s.w.core c).took c .V with
        vregs := (s.w.core c).vregs.set 0 (fieldNum f.d) (l.pack (List.map (fun x => x.1) (List.map out (List.range l.count)))) } := by
    rw [Work.core_laneSat, Work.core_setVreg, hco]
    simp only [Core.tookOp, Core.took, hp, hq, if_false, Bool.false_eq_true]
  refine ⟨s.onW fun w => w.issue c op f (.start ev), rfl, ⟨rfl, rfl, ?_, ?_⟩, ?_, ?_, ?_, ?_, ?_, ?_⟩
  · intro e ne
    rw [State.onW_w, hd, Work.retire_ctx_other _ _ _ ne, Work.ctx_laneSat_other _ _ ne, Work.ctx_setVreg, ← hw,
      Work.engaged_ctx_other _ _ _ ne]
  · intro e ne
    rw [State.onW_w, hd, Work.core_retire, Work.core_laneSat, Work.core_setVreg_other _ _ _ ne, ← hw]
    exact Work.engaged_core_other _ _ _ ne
  · rw [State.onW_w, hd, Work.retire_eq, Work.laneSat_eq, ee]
    rfl
  · rw [State.onW_w, hd, ← xf]
    refine Work.retire_ran (k := { s.w.ctx c with laneSat := (s.w.ctx c).laneSat || sat }) xq hi ?_ |>.trans ?_
    · rw [Work.ctx_laneSat, Work.ctx_setVreg, hc]
    · rfl
  · rw [State.onW_w, hd, Work.core_retire, key]
  · intro r ne
    rw [State.onW_w, hd, Work.vreg, Work.core_retire, key]
    exact Tbl.get_set_other _ _ ne _
  · intro i hi'
    rw [State.onW_w, hd, Work.vreg, Work.core_retire, key]
    simp only [Tbl.get_set_same]
    rw [LaneW.laneAt_pack l _ (by simp [hl]) i (by simpa using hi')]
    simp [Nat.mod_eq_of_lt (hout i hi')]
  · intro n
    rw [State.onW_w, hd, Work.slice_retire, Work.slice_laneSat, Work.slice_setVreg, ← hw]
    rw [Work.engaged_slice]

@[simp] theorem Work.engaged_vreg (w : Work) (c : CtxId) (op : KOp) (f : Fields) (hq : op.queue ≠ .C) (i : Nat) :
    (w.engaged c op f).vreg c i = w.vreg c i := by
  unfold Work.vreg
  rw [Work.engaged_core _ _ _ _ hq]; rfl

/-- Operand B's lanes as an element-wise instruction reads them. -/
theorem lanesB_eq {s : State} {c : CtxId} (op : KOp) (f : Fields) (hq : op.queue ≠ .C)
    (hb : fieldClass f.b = 0 ∨ fieldClass f.b = 1) :
    (s.w.engaged c op f).lanesB c (s.w.capture c op f).start (laneW f) = (List.range (laneW f).count).map (laneB s c f) := by
  unfold Work.lanesB laneB
  by_cases e : fieldClass f.b = 1
  · have e' : fieldClass (s.w.capture c op f).start.f.b = 1 := e
    simp only [e, e', if_true]
    have := Work.engaged_vreg s.w c op f hq (fieldNum f.b)
    show (laneW f).lanes ((s.w.engaged c op f).vreg c (fieldNum f.b)) = _
    rw [this]; rfl
  · have e' : ¬ fieldClass (s.w.capture c op f).start.f.b = 1 := e
    rw [if_neg e']
    simp only [e, if_false]
    have : (s.w.capture c op f).start.vb = (s.w.ctx c).getS (fieldNum f.b) := by
      show (s.w.ctx c).captured f.b = _
      simp [Ctx.captured, hb.resolve_right e]
    rw [this]
    simp

/-- An operand B without fault is a scalar or a vector. -/
theorem class_of_fault {k : Ctx} {op : KOp} {f : Fields} (h : k.operandFault op f = none) (hb : (op.accepts f).2.2 = [0, 1]) :
    fieldClass f.b = 0 ∨ fieldClass f.b = 1 := by
  have : k.fieldFault (op.accepts f).2.2 f.b = none := by
    unfold Ctx.operandFault at h
    revert h
    generalize op.accepts f = p
    obtain ⟨x, y, z⟩ := p
    simp only
    intro h
    cases h1 : k.fieldFault x f.d <;> rw [h1] at h
    · cases h2 : k.fieldFault y f.a <;> rw [h2] at h
      · exact h
      · exact absurd h (by simp)
    · exact absurd h (by simp)
  rw [hb] at this
  unfold Ctx.fieldFault at this
  by_contra hc
  have : ([0, 1] : List Nat).contains (fieldClass f.b) = false := by simp; omega
  simp_all

/-- An element-wise instruction on two operands. -/
theorem elementwise2_done {s : State} {c : CtxId} (h : s.w.ready c) (op : KOp) (f : Fields) (ev : MemEvent)
    (hf : (s.w.ctx c).operandFault op f = none) (hq : op.queue = .V) (ha : op.actsAtStart = false) (hb : fieldClass f.b = 0 ∨ fieldClass f.b = 1)
    (g : LaneW → Nat → Nat → Nat × Bool) (out : Nat → Nat × Bool)
    (ho : ∀ i, i < (laneW f).count → g (laneW f) (laneAt (laneW f) (s.w.vreg c (fieldNum f.a)) i) (laneB s c f i) = out i)
    (hlt : ∀ i, i < (laneW f).count → (out i).1 < 2 ^ (laneW f).bits)
    (he : op.effect (s.w.engaged c op f) c (s.w.capture c op f).start ev = elementwise2 (s.w.engaged c op f) c (s.w.capture c op f).start g) :
    VecDone s (.next (s.onW fun w => w.issue c op f (.start ev))) c f (laneW f) out := by
  refine vecDone_of h op f ev hf hq ha _ (laneW_bits f).2 out hlt ?_
  rw [he]
  unfold elementwise2
  have hq' : op.queue ≠ .C := by rw [hq]; decide
  have e1 := lanesB_eq (s := s) (c := c) op f hq' hb
  have e2 := Work.engaged_vreg s.w c op f hq' (fieldNum f.a)
  show putLanes _ c _ (laneW f) _ = _
  congr 1
  show List.map _ (((laneW f).lanes ((s.w.engaged c op f).vreg c (fieldNum f.a))).zip
    ((s.w.engaged c op f).lanesB c (s.w.capture c op f).start (laneW f))) = _
  rw [e1, e2, LaneW.lanes_eq, List.zip_map', List.map_map]
  apply List.map_congr_left
  intro i hi
  exact ho i (by simpa using hi)
/-- An element-wise instruction on one operand. -/
theorem elementwise1_done {s : State} {c : CtxId} (h : s.w.ready c) (op : KOp) (f : Fields) (ev : MemEvent)
    (hf : (s.w.ctx c).operandFault op f = none) (hq : op.queue = .V) (ha : op.actsAtStart = false)
    (g : LaneW → Nat → Nat × Bool) (out : Nat → Nat × Bool)
    (ho : ∀ i, i < (laneW f).count → g (laneW f) (laneAt (laneW f) (s.w.vreg c (fieldNum f.a)) i) = out i)
    (hlt : ∀ i, i < (laneW f).count → (out i).1 < 2 ^ (laneW f).bits)
    (he : op.effect (s.w.engaged c op f) c (s.w.capture c op f).start ev = elementwise1 (s.w.engaged c op f) c (s.w.capture c op f).start g) :
    VecDone s (.next (s.onW fun w => w.issue c op f (.start ev))) c f (laneW f) out := by
  refine vecDone_of h op f ev hf hq ha _ (laneW_bits f).2 out hlt ?_
  rw [he]
  unfold elementwise1
  have hq' : op.queue ≠ .C := by rw [hq]; decide
  have e2 := Work.engaged_vreg s.w c op f hq' (fieldNum f.a)
  show putLanes _ c _ (laneW f) _ = _
  congr 1
  show List.map _ ((laneW f).lanes ((s.w.engaged c op f).vreg c (fieldNum f.a))) = _
  rw [e2, LaneW.lanes_eq, List.map_map]
  apply List.map_congr_left
  intro i hi
  exact ho i (by simpa using hi)

theorem laneB_lt (s : State) (c : CtxId) (f : Fields) (i : Nat) : laneB s c f i < 2 ^ (laneW f).bits := by
  unfold laneB; split <;> exact Nat.mod_lt _ (Nat.two_pow_pos _)

end Sys2Proof.Machine
end

