-- ==== Sys2Proof/Laws/Seal.lean ====
section
/-! SUPPORT. What encrypted memory gives back (R351, R352): a block that is sealed decrypts to what was stored, and its tag verifies. -/

namespace Sys2Proof

/-- Adding the same bytes twice changes nothing. -/
theorem xorBytes_twice (a b : List Byte) (h : a.length ≤ b.length) : xorBytes (xorBytes a b) b = a := by
  induction a generalizing b with
  | nil => rfl
  | cons x a ih =>
    cases b with
    | nil => simp at h
    | cons y b =>
      have e := ih b (by simpa using h)
      simp only [xorBytes, List.zipWith_cons_cons] at e ⊢
      rw [e, BitVec.xor_assoc, BitVec.xor_self, BitVec.xor_zero]

theorem length_xorBytes (a b : List Byte) (h : a.length ≤ b.length) : (xorBytes a b).length = a.length := by
  simp [xorBytes, h]

theorem length_aes256 (key block : List Byte) : (aes256 key block).length = 16 := by simp [aes256]

/-- The key stream is long enough. -/
theorem length_gcmStream (key iv : List Byte) (n : Nat) : n ≤ (gcmStream key iv n).length := by
  have : ∀ l : List Nat, (l.flatMap fun i => aes256 key (iv ++ msBytes 4 (i + 2))).length = 16 * l.length := by
    intro l
    induction l with
    | nil => rfl
    | cons x l ih => rw [List.flatMap_cons, List.length_append, ih, length_aes256, List.length_cons]; omega
  unfold gcmStream
  rw [this, List.length_range]
  omega

theorem length_gcmCrypt (key iv data : List Byte) : (gcmCrypt key iv data).length = data.length :=
  length_xorBytes _ _ (length_gcmStream key iv data.length)

/-- Counter mode is its own inverse. -/
theorem gcmCrypt_twice (key iv data : List Byte) : gcmCrypt key iv (gcmCrypt key iv data) = data := by
  have h : gcmCrypt key iv (gcmCrypt key iv data) = xorBytes (gcmCrypt key iv data) (gcmStream key iv data.length) := by
    rw [gcmCrypt, length_gcmCrypt]
  rw [h]
  exact xorBytes_twice _ _ (length_gcmStream key iv data.length)

/-- What is sealed opens. -/
theorem gcmOpen_seal (key iv aad plain : List Byte) :
    gcmOpen key iv aad (gcmSeal key iv aad plain).1 (gcmSeal key iv aad plain).2 = some plain := by
  simp [gcmOpen, gcmSeal, gcmCrypt_twice]

/-- Bytes written are the bytes read there. -/
theorem Mem.readN_writeN (bs : List Byte) (m : Mem) (a : Nat) : (m.writeN a bs).readN a bs.length = bs := by
  have go : ∀ (k i : Nat), i + k = bs.length → (m.writeN a bs).readN (a + i) k = bs.drop i := by
    intro k
    induction k with
    | zero =>
      intro i h
      rw [Mem.readN, List.drop_of_length_le (by omega)]
    | succ k ih =>
      intro i h
      have hi : i < bs.length := by omega
      rw [Mem.readN, Mem.read_writeN_inside bs m a i hi, List.drop_eq_getElem_cons hi]
      exact congrArg _ (ih (i + 1) (by omega))
  simpa using go bs.length 0 (by simp)

namespace Machine

/-- Writing nodes back changes the nodes alone. -/
theorem Work.writeBack_eq (w : Work) (b : Nat) : w.writeBack b = { w with nodes := (w.writeBack b).nodes } := by
  have go : ∀ l : List Nat, ∀ w : Work,
      l.foldl (fun w j => w.nodeBack (b / 2 ^ 27) (j + 1) (b % 2 ^ 27 / 63 ^ (j + 1))) w =
        { w with nodes := (l.foldl (fun w j => w.nodeBack (b / 2 ^ 27) (j + 1) (b % 2 ^ 27 / 63 ^ (j + 1))) w).nodes } := by
    intro l
    induction l with
    | nil => intro w; rfl
    | cons j l ih => intro w; rw [List.foldl_cons, ih]; rfl
  exact go _ w

@[simp] theorem Work.hbm_writeBack (w : Work) (b : Nat) : (w.writeBack b).hbm = w.hbm := by
  rw [Work.writeBack_eq]
@[simp] theorem Work.tags_writeBack (w : Work) (b : Nat) : (w.writeBack b).tags = w.tags := by
  rw [Work.writeBack_eq]
@[simp] theorem Work.ctr_writeBack (w : Work) (b : Nat) : (w.writeBack b).ctr = w.ctr := by
  rw [Work.writeBack_eq]

/-- A sealed block holds its ciphertext. -/
theorem Work.hbm_sealBlock (w : Work) (key : List Byte) (b : Nat) (c : CtrWord) (plain : List Byte) :
    (w.sealBlock key b c plain).hbm = w.hbm.writeN (512 * b) (gcmCrypt key (blockIv (512 * b) c) plain) := Work.hbm_writeBack _ b

/-- A sealed block's word is the one it was sealed with. -/
@[simp] theorem Work.ctrWord_sealBlock (w : Work) (key : List Byte) (b : Nat) (c : CtrWord) (plain : List Byte) :
    (w.sealBlock key b c plain).ctrWord b = c := by
  unfold Work.ctrWord Work.sealBlock
  rw [Work.ctr_writeBack]
  exact Tbl.get_set_same _ _ _ _

/-- A sealed block decrypts to what was stored. -/
theorem Work.plainOf_sealBlock (w : Work) (key : List Byte) (b : Nat) (c : CtrWord) (plain : List Byte) (h : plain.length = 512) :
    (w.sealBlock key b c plain).plainOf key b = plain := by
  have hr := Mem.readN_writeN (gcmCrypt key (blockIv (512 * b) c) plain) w.hbm (512 * b)
  rw [length_gcmCrypt, h] at hr
  unfold Work.plainOf
  rw [Work.ctrWord_sealBlock, Work.hbm_sealBlock, hr, gcmCrypt_twice]

/-- A sealed block's tag verifies. -/
theorem Work.tagGood_sealBlock (w : Work) (key : List Byte) (b : Nat) (c : CtrWord) (plain : List Byte) (h : plain.length = 512) :
    (w.sealBlock key b c plain).tagGood key b = true := by
  have hr := Mem.readN_writeN (gcmCrypt key (blockIv (512 * b) c) plain) w.hbm (512 * b)
  rw [length_gcmCrypt, h] at hr
  have ht : (w.sealBlock key b c plain).tags.get 0 b = blockTag key b c (gcmCrypt key (blockIv (512 * b) c) plain) := by
    unfold Work.sealBlock
    rw [Work.tags_writeBack]
    generalize blockTag key b c (gcmCrypt key (blockIv (512 * b) c) plain) = t
    exact Tbl.get_set_same _ _ _ _
  unfold Work.tagGood
  rw [Work.ctrWord_sealBlock, Work.hbm_sealBlock, hr, ht]
  exact decide_eq_true rfl

/-- A read of a block that nothing is wrong with (R351): what it decrypts to, and nothing changes. -/
theorem Work.readBlock_ok (w : Work) (q : Fin 8) (a n pa d : Nat) (ht : w.translate q a = some (pa, d)) (hr : w.reach pa = 0)
    (hp : (w.ctrWord (blockOf pa)).poison = false) (hf : (w.ctrWord (blockOf pa)).isFresh = false)
    (hg : w.tagGood (w.blockKey q d pa) (blockOf pa) = true) :
    w.readBlock q a n .ok = (⟨0, ((w.plainOf (w.blockKey q d pa) (blockOf pa)).drop (pa % 512)).take n⟩, w) := by
  have hm : w.meet q pa d .ok = w := rfl
  unfold Work.readBlock
  rw [ht]
  simp only [hr, hp, hm, hf, hg, ne_eq, not_true_eq_false, if_false, if_true, Bool.false_and, Bool.false_eq_true]

/-- A read of a block that nothing has written gives zeros (R352). -/
theorem Work.readBlock_fresh (w : Work) (q : Fin 8) (a n pa d : Nat) (ht : w.translate q a = some (pa, d)) (hr : w.reach pa = 0)
    (hf : (w.ctrWord (blockOf pa)).isFresh = true) :
    w.readBlock q a n .ok = (⟨0, List.replicate n 0⟩, w) := by
  have hm : w.meet q pa d .ok = w := rfl
  have hp : (w.ctrWord (blockOf pa)).poison = false := by rw [of_decide_eq_true hf]; rfl
  unfold Work.readBlock
  rw [ht]
  simp only [hr, hp, hm, hf, ne_eq, not_true_eq_false, if_false, if_true, Bool.false_and, Bool.false_eq_true]

/-- Sealing a block changes the bytes, tags, words and nodes of memory alone. -/
theorem Work.sealBlock_eq (w : Work) (key : List Byte) (b : Nat) (c : CtrWord) (plain : List Byte) :
    w.sealBlock key b c plain = { w with
      hbm := w.hbm.writeN (512 * b) (gcmCrypt key (blockIv (512 * b) c) plain)
      tags := w.tags.set 0 b (blockTag key b c (gcmCrypt key (blockIv (512 * b) c) plain))
      ctr := w.ctr.set .fresh b c, nodes := (w.sealBlock key b c plain).nodes } := by
  unfold Work.sealBlock
  conv => lhs; rw [Work.writeBack_eq]

/-- A readable block gives what it holds. -/
theorem Work.readBlock_readable (w : Work) (q : Fin 8) (a n pa d : Nat) (ht : w.translate q a = some (pa, d)) (hr : w.reach pa = 0)
    (hp : (w.ctrWord (blockOf pa)).poison = false)
    (hg : (w.ctrWord (blockOf pa)).isFresh = true ∨ w.tagGood (w.blockKey q d pa) (blockOf pa) = true) :
    w.readBlock q a n .ok = (⟨0, if (w.ctrWord (blockOf pa)).isFresh then List.replicate n 0
      else ((w.plainOf (w.blockKey q d pa) (blockOf pa)).drop (pa % 512)).take n⟩, w) := by
  by_cases hf : (w.ctrWord (blockOf pa)).isFresh = true
  · rw [Work.readBlock_fresh w q a n pa d ht hr hf, if_pos hf]
  · rw [Work.readBlock_ok w q a n pa d ht hr hp (by simpa using hf) (hg.resolve_left hf), if_neg hf]

/-- The read of a readable range gives its bytes and changes nothing (R345, R351). -/
theorem Work.hbmRead_readable (w : Work) (q : Fin 8) (a n : Nat) (h : w.readable q a n)
    (hl : (w.peek q a n).length = n) : w.hbmRead q a n .ok = (⟨0, w.peek q a n⟩, w) := by
  have hm : w.mapped q a n = true := List.all_eq_true.2 fun b hb => by
    obtain ⟨pa, d, ht, _⟩ := h.1 b hb
    rw [ht]; rfl
  have go : ∀ l : List (Nat × Nat), (∀ b, b ∈ l → b ∈ rangeBlocks a n) →
      w.readBlocks q l .ok = (⟨0, l.flatMap fun b => match w.translate q b.1 with
        | some (pa, d) => if (w.ctrWord (blockOf pa)).isFresh then List.replicate b.2 0
            else ((w.plainOf (w.blockKey q d pa) (blockOf pa)).drop (pa % 512)).take b.2
        | none => List.replicate b.2 0⟩, w) := by
    intro l
    induction l with
    | nil => intro _; rfl
    | cons b l ih =>
      intro hl
      obtain ⟨pa, d, ht, hr, hp, hg⟩ := h.1 b (hl b (List.mem_cons_self ..))
      have e1 := Work.readBlock_readable w q b.1 b.2 pa d ht hr hp hg
      have e2 := ih fun x hx => hl x (List.mem_cons_of_mem _ hx)
      rw [Work.readBlocks]
      simp only [evHere, evLater, e1, e2, List.flatMap_cons, ht, ne_eq, not_true_eq_false, if_false]
  have hr := go (rangeBlocks a n) fun _ hb => hb
  have hd : ((w.deviceRanges q).any fun r => decide (r.1 < a + (w.peek q a n).length ∧ a < r.1 + r.2)) = false := by
    rw [List.any_eq_false]
    intro r hr
    have := h.2 r hr
    rw [hl]
    simp only [decide_eq_true_eq, not_and]
    omega
  have ho : w.overDevice q a (w.peek q a n) = (w.peek q a n, w) := by
    unfold Work.overDevice
    simp only [hd, Bool.false_eq_true, if_false]
  unfold Work.hbmRead
  rw [if_pos hm, hr]
  show (match w.overDevice q a (w.peek q a n) with | (b, w2) => ((⟨0, b⟩ : Got), w2)) = _
  rw [ho]

end Machine

end Sys2Proof
end

