-- ==== Sys2Proof/WellFormed.lean ====
section
/-! DEFINITION. Which commands are well formed: operands in the ranges that the spec gives them. -/

namespace Sys2Proof

/-- A function has queues 0 to 4,095 (R444). -/
def CmdRef.wf (r : CmdRef) : Bool := decide (r.queue < 4096)

/-- A packet's payload has at most 4,096 bytes (R282). -/
def Pkt.wf (p : Pkt) : Bool := decide (p.payload.length ≤ 4096)

/-- A packet's tag has 16 bytes (R361). -/
def RxPkt.wf (x : RxPkt) : Bool := x.pkt.wf && decide (x.tag.length = 16)
/-- A rebuild contribution (R422): a packet that came, or a chunk that is due, of at most 32 lost symbols of a group. -/
def Contribution.wf : Contribution → Bool
  | .arrived rx => rx.wf
  | .due .. => true

/-- A flit's body has 240 bytes, and a codeword 544 symbols (R267, R268). -/
def Flit.wf (f : Flit) : Bool := decide (f.body.length = 240) && f.codewords.all fun e => decide (e.1 ≤ 544)

/-- A hello's nonces have 16 bytes and its identity 64 (R274). -/
def HelloMsg.wf (h : HelloMsg) : Bool := decide (h.nonce.length = 16 ∧ h.peerNonce.length = 16 ∧ h.identity.length = 64)

/-- A boot reports on two PCI Express ports, sixteen stacks, cores below 512 and banks below 1,536. -/
def BootIn.wf (b : BootIn) : Bool :=
  decide (b.pcie.length = 2 ∧ b.chOk.length = 16) && b.badHalves.all (fun e => decide (e.1 < 512)) &&
    b.softRepairs.all fun e => decide (e.1 < 16 ∧ e.2 < 1536)

/-- Writes of the management window are of 4 or 8 bytes, naturally aligned (R3). -/
def writeOk (off : BitVec 26) (size : Nat) : Bool := decide ((size = 4 ∨ size = 8) ∧ off.toNat % size = 0)

/-- A well-formed command. -/
def Instr.wf : Instr → Bool
  | .nop _ _ _ => true
  | .sAdd _ _ _ => true
  | .sSub _ _ _ => true
  | .sAnd _ _ _ => true
  | .sOr _ _ _ => true
  | .sXor _ _ _ => true
  | .sShl _ _ _ => true
  | .sShr _ _ _ => true
  | .sSra _ _ _ => true
  | .sMul _ _ _ => true
  | .sMulh _ _ _ => true
  | .sDiv _ _ _ => true
  | .sLi _ _ _ => true
  | .sIns _ _ _ => true
  | .sSlt _ _ _ => true
  | .sSltu _ _ _ => true
  | .sLd _ _ _ => true
  | .sSt _ _ _ => true
  | .sRem _ _ _ => true
  | .sSys _ _ _ => true
  | .br _ _ _ => true
  | .beq _ _ _ => true
  | .bne _ _ _ => true
  | .blt _ _ _ => true
  | .bge _ _ _ => true
  | .bltu _ _ _ => true
  | .jr _ _ _ => true
  | .illegalOpcode _ op => decide (Machine.opcodeFault op ≠ 0)
  | .mmfBi8 _ _ _ => true
  | .mmfBi4 _ _ _ => true
  | .mmfBi16x8 _ _ _ => true
  | .mmfBi16 _ _ _ => true
  | .mmbxBi8 _ _ _ => true
  | .mmbxBi4 _ _ _ => true
  | .mmbxBi16x8 _ _ _ => true
  | .mmbxBi16 _ _ _ => true
  | .mmbwBi8 _ _ _ => true
  | .mmbwBi4 _ _ _ => true
  | .mmbwBi16x8 _ _ _ => true
  | .mmbwBi16 _ _ _ => true
  | .accZero _ _ _ => true
  | .accZeroB _ _ _ => true
  | .accDrain _ _ _ => true
  | .accDrainB _ _ _ => true
  | .accMax _ _ _ => true
  | .accMaxB _ _ _ => true
  | .accMin _ _ _ => true
  | .accMinB _ _ _ => true
  | .vadd _ _ _ => true
  | .vsub _ _ _ => true
  | .vmul _ _ _ => true
  | .vmulsh _ _ _ => true
  | .vmax _ _ _ => true
  | .vmin _ _ _ => true
  | .vabs _ _ _ => true
  | .vneg _ _ _ => true
  | .vand _ _ _ => true
  | .vor _ _ _ => true
  | .vxor _ _ _ => true
  | .vshl _ _ _ => true
  | .vsra _ _ _ => true
  | .vcmp _ _ _ => true
  | .vsel _ _ _ => true
  | .vbcast _ _ _ => true
  | .vins _ _ _ => true
  | .vext _ _ _ => true
  | .vld _ _ _ => true
  | .vst _ _ _ => true
  | .vtget _ _ _ => true
  | .vtput _ _ _ => true
  | .vfn _ _ _ => true
  | .vredRow _ _ _ => true
  | .vredCol _ _ _ => true
  | .vcvt _ _ _ => true
  | .vunpk _ _ _ => true
  | .vrng _ _ _ => true
  | .vnoise _ _ _ => true
  | .vstat _ _ _ => true
  | .dmaGet _ _ _ => true
  | .dmaPut _ _ _ => true
  | .dmaCopy _ _ _ => true
  | .dmaFill _ _ _ => true
  | .tLd _ _ _ => true
  | .tSt _ _ _ => true
  | .peatPush _ _ _ => true
  | .peatPop _ _ _ => true
  | .fabPut _ _ _ => true
  | .fabGet _ _ _ => true
  | .fabMcast _ _ _ => true
  | .slArm _ _ _ => true
  | .slSig _ _ _ => true
  | .slWait _ _ _ => true
  | .lfWait _ _ _ => true
  | .lfClr _ _ _ => true
  | .frameEnd _ _ _ => true
  | .ctxFence _ _ _ => true
  | .redOpen _ _ _ => true
  | .redContrib _ _ _ => true
  | .redClose _ _ _ => true
  | .stepCommit _ _ _ => true
  | .sclPin _ _ _ => true
  | .rngSet _ _ _ => true
  | .instructionStart _ _ => true
  | .instructionComplete _ _ _ _ => true
  | .icacheLineFill _ => true
  | .scaleEntryArrival _ _ => true
  | .sluiceSignalApply _ _ => true
  | .sluiceWaitResume _ => true
  | .lfWaitResume _ => true
  | .dmaPutAccepted _ _ => true
  | .peatSpill _ => true
  | .peatFetchBack _ _ _ => true
  | .peatPopCopyComplete _ => true
  | .peatPushSpaceAvailable _ => true
  | .weightWriteWaitRelease _ => true
  | .heldWriteRelease _ _ _ => true
  | .combiningDrainResult _ => true
  | .frameTick _ => true
  | .segmentStart _ => true
  | .latenessExceedsSlack _ _ => true
  | .partitionPause _ => true
  | .partitionResume _ => true
  | .healthScoreCompute _ => true
  | .clockPointChange => true
  | .sequentialModeChange _ _ => true
  | .ftimeStep => true
  | .framePeriodChange => true
  | .messageAgeOut _ _ _ => true
  | .unitResetExit _ => true
  | .coreFailure _ _ => true
  | .spareSubstitution _ _ _ => true
  | .clusterLoss _ _ => true
  | .sliceLoss _ => true
  | .bHalfFailure _ _ _ => true
  | .channelFail _ _ => true
  | .patrolRead _ _ => true
  | .refresh _ => true
  | .stackTempCrossing _ _ => true
  | .refreshModeChange _ => true
  | .readAheadFill _ _ => true
  | .drainTimeout _ => true
  | .sqTailDoorbell _ k _ => decide (k < 4096)
  | .cqHeadDoorbell _ k _ => decide (k < 4096)
  | .staitheFetch _ k _ => decide (k < 4096)
  | .staitheResumeFetch => true
  | .interruptCoalesceTimer _ k => decide (k < 4096)
  | .queueContextGrant _ => true
  | .createQueue r => r.wf
  | .deleteQueue r => r.wf
  | .hostWrite r _ _ => r.wf
  | .hostRead r _ _ => r.wf
  | .load r => r.wf
  | .unload r => r.wf
  | .resume r => r.wf
  | .plan r => r.wf
  | .planDeferredWrite _ => true
  | .page r => r.wf
  | .pageEntryApply _ => true
  | .domain r => r.wf
  | .package r => r.wf
  | .checkpoint r _ => r.wf
  | .restore r _ => r.wf
  | .rebuild r => r.wf
  | .rebuildChunk _ _ => true
  | .manifest r m => r.wf && m.boot.wf
  | .enrol r _ => r.wf
  | .remove r => r.wf
  | .scrubComplete _ => true
  | .graceWindowEnd _ => true
  | .assign r => r.wf
  | .hostReset r boot => r.wf && boot.wf
  | .getVersion _ => true
  | .getCapabilities _ => true
  | .negotiateAlgorithms _ => true
  | .pskExchange _ _ => true
  | .pskFinish _ _ => true
  | .keyUpdate _ => true
  | .spdmHeartbeat _ => true
  | .endSession _ => true
  | .spdmUnsupportedRequest _ _ => true
  | .getReport _ nonce _ => decide (nonce.length = 32)
  | .getEndorsement _ => true
  | .pskEncap _ ciphertext => decide (ciphertext.length = 1568)
  | .keyProg _ _ _ key => decide (key.length = 32)
  | .kSetGo _ _ _ => true
  | .kSetStop _ _ _ => true
  | .ideQuery _ _ => true
  | .stopInterfaceRequest _ => true
  | .tdispRequestCheck _ _ _ => true
  | .functionLevelReset _ => true
  | .pcieLinkDown _ => true
  | .aqEnable _ _ => true
  | .aqDisable _ _ => true
  | .fnCfgWrite _ _ _ => true
  | .disableStatusRead _ _ => true
  | .ftimeLowRead _ => true
  | .registerWrite _ off size _ => writeOk off size.bytes
  | .scaleClear _ _ _ => true
  | .accClear _ _ _ => true
  | .vecClear _ _ _ => true
  | .clearVer _ _ _ => true
  | .clearPeat _ _ _ => true
  | .statClear _ _ _ => true
  | .errClear _ _ _ => true
  | .portClear _ _ _ => true
  | .redClear _ _ _ => true
  | .integrityClear _ _ _ => true
  | .pwrClear _ _ => true
  | .sluSignalWrite _ _ _ => true
  | .teTrain _ _ _ => true
  | .teMarch _ _ _ _ => true
  | .teRawWrite _ _ _ => true
  | .teRawRead _ _ _ => true
  | .teBudget _ _ _ => true
  | .teSoftRepair _ _ _ => true
  | .teHardRepair _ _ _ _ => true
  | .teSoftUndo _ _ _ => true
  | .teP1500 _ _ _ => true
  | .teInvalidCommand _ _ _ => true
  | .teCommandDone _ => true
  | .portEnable _ _ => true
  | .portDisable _ _ => true
  | .slotCommit _ _ _ => true
  | .slotCommitApply _ => true
  | .linkRekey _ _ _ => true
  | .timePeriodReq _ _ => true
  | .fenceReset _ _ => true
  | .fenceHold _ _ => true
  | .returnToService _ _ => true
  | .threshWrite _ _ => true
  | .capWrite _ _ => true
  | .bringupRelease _ _ boot => boot.wf
  | .patchCommit _ _ => true
  | .patchErase _ _ => true
  | .socketRelease _ _ _ => true
  | .bmcTransaction _ _ _ => true
  | .jtagExtest _ => true
  | .jtagIdcode => true
  | .jtagSamplePreload _ _ => true
  | .jtagClamp => true
  | .jtagHighz => true
  | .jtagUnlock token => decide (token.length = 64)
  | .jtagDtmcs _ => true
  | .jtagDmi _ => true
  | .jtagBypass _ _ => true
  | .powerOn boot => boot.wf
  | .mainInputDip _ => true
  | .mainInputRecover _ _ => true
  | .dipTimerExpiry _ => true
  | .dipReturn => true
  | .supplyReset _ => true
  | .regulatorShutdown => true
  | .pwrgoodDeassert => true
  | .perstAssert => true
  | .perstDeassert boot => boot.wf
  | .thermalThrottleOnset _ _ => true
  | .thermalThrottleRelease => true
  | .thermalTrip _ => true
  | .frefclkLoss => true
  | .frefclkRestored => true
  | .sitePpsEdge _ => true
  | .siteInputValid => true
  | .siteInputInvalid => true
  | .heartbeatSend => true
  | .heartbeatMiss _ _ boot => boot.wf
  | .idleFlit _ fl => fl.wf
  | .holdFlit _ fl => fl.wf
  | .dataFlit _ fl => fl.wf
  | .linkNak _ _ => true
  | .spareCmd _ _ _ => true
  | .spareAck _ _ _ => true
  | .probe _ _ => true
  | .probeReply _ _ _ _ _ => true
  | .linkRetrain _ => true
  | .ctlRepeatTimer _ => true
  | .probeTimer _ => true
  | .wavelengthBad _ _ _ => true
  | .lightPresent _ _ => true
  | .portTrainComplete _ _ _ => true
  | .portTrainRetry _ => true
  | .helloRetry _ => true
  | .uncorrectableBurst _ => true
  | .nakNoProgress _ => true
  | .authFailBurst _ => true
  | .linkRekeyTimer _ => true
  | .linkHello _ h => h.wf
  | .linkOffer _ _ => true
  | .linkAccept _ _ => true
  | .linkDone _ _ => true
  | .packetForward _ pk _ => pk.wf
  | .scheduledWindowSend _ _ => true
  | .writePacket _ pk _ => pk.wf
  | .readRequest _ pk _ => pk.wf
  | .readReply _ pk => pk.wf
  | .ackPacket _ pk => pk.wf
  | .flowNakPacket _ pk => pk.wf
  | .flowAckEmit _ => true
  | .flowNakEmit _ => true
  | .flowTimeout _ => true
  | .flowReset _ pk => pk.wf
  | .sluiceSignalMessage _ pk => pk.wf
  | .sluicePublication _ pk => pk.wf
  | .commitDecision _ _ rx => rx.all fun e => e.2.wf
  | .commitDeadlineExpiry _ _ => true
  | .stepAbort _ pk => pk.wf
  | .home2Takeover _ _ => true
  | .stepCommitApply _ _ => true
  | .stepRollback _ _ => true
  | .contextRestart _ _ => true
  | .codeDelta _ pk => pk.wf
  | .rebuildContribution _ pk _ => pk.wf
  | .redContributionPacket _ pk => pk.rx.wf
  | .redPartialPacket _ pk => pk.rx.wf
  | .redResultPacket _ pk => pk.rx.wf
  | .redNoticePacket _ pk => pk.rx.wf
  | .redRetryPacket _ pk => pk.rx.wf
  | .redUnknownKind _ pk => pk.wf
  | .redNodeClose _ _ => true
  | .rekeyBlock _ _ _ => true
  | .rekeyComplete _ _ => true
  | .laserPresenceAssert _ => true
  | .laserAuthResponse _ _ _ => true
  | .laserLightStable _ => true
  | .laserBiasSample _ _ _ => true
  | .laserLifeWrite _ => true
  | .laserPresenceDeassert _ => true
  | .laserInterrupt _ _ => true
  | .holdover => true
  | .fabricDieReset _ => true
  | .pwrgoodAssert boot => boot.wf
  | .mainInputReturn _ boot => boot.wf
  | .portTrainFailed _ => true

end Sys2Proof
end

