-- ==== Sys2Proof/Tests/Slice0.lean ====
section
/-! SUPPORT. The author's tests: for each statement a state and operands that meet the hypotheses of each of its clauses, the spec's
worked examples, a few single steps, and an ill-formed command for each check of WellFormed. -/

namespace Sys2Proof.Machine.Tests

/- One theorem after another: theorems that wait for the kernel side by side take a stack each. -/
set_option Elab.async false

open Sys2Proof Sys2Proof.Machine

/-- Context 0 of core 0 of slice 0. -/
def c0 : CtxId := ⟨0, 0, 0⟩
/-- A running context with an image of 4 KiB, every register declared, and windows of 1 MiB. -/
def k0 : Ctx :=
  { Ctx.empty with
    st := .running
    decl := { CtxDecl.zero with imageSize := 4096, vMask := -1, aMask := -1, tMask := -1, localSize := 2 ^ 20, clusterSize := 2 ^ 20 } }
/-- The machine after reset with one context. -/
def withCtx (k : Ctx) : State := { State.reset with w := { Work.reset with ctxs := [(0, k)] } }
/-- The machine with the context `k0`. -/
def s0 : State := withCtx k0
/-- A machine that is up to Ready. -/
def up (s : State) : State := { s with ctl := { s.ctl with boot := { s.ctl.boot with phase := 4 } } }
/-- Fields that name scalar registers 1, 2 and 3. -/
def fS : Fields := ⟨1, 2, 3, 0, 0⟩
/-- Fields that name vector registers 1, 2 and 3. -/
def fV : Fields := ⟨0x41, 0x42, 0x43, 0, 0⟩
/-- A tensor's entry with 128 blocks of BI8. -/
def e0 : ScaleEntry :=
  { fmt := 1, blockCount := 128, pinned := false, rows := 64, cols := 64, stateBase := 0, job := 0, programs := [], pendingPin := none,
    blocks := [] }

theorem test_ready : s0.w.ready c0 := by unfold Work.ready; decide

/-- `ready` and the operand classes are met by one context, for the forms with a register and with IMM, and for s0 as destination. -/
theorem test_meets_ScalarArithmeticResults :
    fieldClass fS.d = 0 ∧ fieldClass fS.a = 0 ∧ fieldClass fS.b = 0 ∧ fieldClass (0 : Byte) = 0 ∧
      (⟨1, 2, 0x40, 1, 0xFFFF⟩ : Fields).mod.getLsbD 0 = true := by decide
theorem test_meets_ScalarRegisterZero : (63 : Nat) ≠ 0 ∧ (63 : Nat) ≠ 1 := by decide
/-- The last eight bytes of either window. -/
theorem test_meets_ScalarLoadStoreResults :
    (let s := withCtx (k0.setS 2 (2 ^ 20))
     (((s.w.ctx c0).getS 2 + (0xFFF8 : BitVec 16).signExtend 64).toNat % 8 = 0 ∧
      ((s.w.ctx c0).getS 2 + (0xFFF8 : BitVec 16).signExtend 64).toNat + 8 = winSize s.w c0 false) ∧
      ((s.w.ctx c0).getS 2 + (0xFFF8 : BitVec 16).signExtend 64).toNat + 8 = winSize s.w c0 true) := by decide
theorem test_meets_SystemValueResults : fieldClass (1 : Byte) = 0 ∧ s0.w.ready c0 := ⟨by decide, test_ready⟩
theorem test_meets_BranchResults : s0.w.ready c0 ∧ fieldClass fS.d = 0 ∧ fieldClass fS.a = 0 ∧ fieldClass fS.b = 0 :=
  ⟨test_ready, by decide, by decide, by decide⟩

theorem test_meets_VectorArithmeticResults :
    ∀ o, o ∈ [KOp.vadd, .vsub, .vmul, .vmulsh, .vabs, .vneg, .vshl, .vsra] → k0.operandFault o fV = none := by decide
theorem test_meets_VectorSelectionAndMoveResults :
    (∀ o, o ∈ [KOp.vmax, .vmin, .vand, .vor, .vxor, .vcmp, .vsel] → k0.operandFault o fV = none) ∧
      k0.operandFault .vbcast ⟨0x41, 2, 0, 0, 0⟩ = none ∧ k0.operandFault .vins ⟨0x41, 2, 0, 0, 127⟩ = none ∧
      k0.operandFault .vext ⟨1, 0x42, 0, 0, 127⟩ = none ∧ k0.operandFault .vld ⟨0x41, 2, 0, 0, 0⟩ = none ∧
      k0.operandFault .vst ⟨0, 0x42, 3, 0, 0⟩ = none ∧
      (let a : Nat := 2 ^ 20 - 512
       ((a : Nat) : Int) = ((2 ^ 20 - 512 : Nat) % 2 ^ 24 : Nat) + 64 * (0 : BitVec 16).toInt ∧ (2 ^ 20 - 512) % 64 = 0 ∧
         a + 512 ≤ winSize s0.w c0 false ∧ a + 512 ≤ winSize s0.w c0 true) := by decide
theorem test_meets_TileVectorResults :
    k0.operandFault .vtget ⟨0x41, 0x82, 0, 0, 31⟩ = none ∧ k0.operandFault .vtput ⟨0x81, 0x42, 0, 0, 31⟩ = none ∧
      k0.operandFault .vredRow ⟨0x41, 0x82, 0, 0, 0⟩ = none ∧ k0.operandFault .vredCol ⟨0x41, 0x82, 0, 0, 0⟩ = none := by decide
theorem test_meets_FunctionAndNoiseResults :
    k0.operandFault .vfn ⟨0x41, 0x42, 3, 0, 0⟩ = none ∧ k0.operandFault .vrng ⟨0x41, 2, 0, 0, 0⟩ = none ∧
      k0.operandFault .vnoise ⟨0x41, 0x42, 3, 0, 0⟩ = none := by decide
theorem test_meets_ConversionResults :
    k0.operandFault .vcvt ⟨0x41, 0x42, 3, 0, 4⟩ = none ∧ k0.operandFault .vunpk ⟨0x41, 2, 3, 0, 0⟩ = none ∧
      k0.operandFault .vstat ⟨0x41, 2, 3, 0, 0⟩ = none ∧ (s0.w.slice 0).stat.recs.length < 4096 ∧
      (s0.w.slice 0).stat.tableSteps.contains (0, 0, 0) = false ∧ k0.decl.satTrap = false ∧
      (k0.tileSpans 0 0).toOption.isSome = true := by decide
/-- A machine whose tensor 0 has an entry in the slice's cache. -/
def sT : State :=
  { s0 with w := (s0.w.setEntry 0 0 (some e0)).updSlice 0 fun x => { x with scale := { x.scale with cached := [(0, 0)] } } }
/-- A binding resolves to the entry. -/
def resolvesTo (e : ScaleEntry) : Bound → Bool
  | .ok x => decide (x = e)
  | _ => false
/-- A binding resolves to the entry `e0`. -/
def resolves : Bound → Bool := resolvesTo e0
/-- Both sources from tile registers, or from memory, with a bound accumulator. -/
theorem test_meets_MatrixProductResults :
    (∀ o, o ∈ [KOp.mmfBi8, .mmfBi4, .mmfBi16x8, .mmfBi16, .mmbxBi8, .mmbxBi4, .mmbxBi16x8, .mmbxBi16, .mmbwBi8, .mmbwBi4, .mmbwBi16x8,
      .mmbwBi16] → k0.operandFault o ⟨0xC1, 2, 3, 0, 0⟩ = none) ∧
      (sT.w.srcTile c0 2 0 1 false).toOption.isSome = true ∧ (sT.w.srcTile c0 3 0 2 true).toOption.isSome = true ∧
      resolves (sT.w.bound c0 (sT.w.acc c0 1).binding) = true ∧ k0.decl.nanTrap = false ∧ evUe (evHere .ok) = false := by decide
theorem test_meets_ProductAndExtremumElementResults : (4095 : Nat) < 4096 ∧ (0 : Nat) < 4096 := by decide
theorem test_meets_AccumulatorResults :
    k0.operandFault .accZero ⟨0xC1, 2, 0, 0, 0⟩ = none ∧ k0.operandFault .accZeroB ⟨0xC1, 2, 0, 0, 0⟩ = none ∧
      resolves (sT.w.bound c0 0) = true ∧ (∀ o, o ∈ [KOp.accMax, .accMaxB, .accMin, .accMinB] →
        k0.operandFault o ⟨0xC1, 0x82, 0, 0, 0⟩ = none ∧ k0.operandFault o ⟨0xC1, 2, 0, 0, 0⟩ = none) ∧
      fieldClass (0x82 : Byte) = 2 ∧ fieldClass (2 : Byte) ≠ 2 ∧ (k0.tileSpans 0 e0.fmt.toNat).toOption.isSome = true := by decide
/-- A split-K group whose root is core 0 and in which core 1 takes part. -/
def sG : State := { sT with w := { sT.w with groups := [{ q := 0, program := 0, tensor := 0, coreMask := 3, clusterMask := 1, absentAtLoad := [] }] } }
theorem test_meets_DrainResults :
    let f : Fields := ⟨2, 0xC1, 3, 2, 0⟩
    k0.operandFault .accDrain f = none ∧ k0.operandFault .accDrainB f = none ∧ sT.w.groupOf c0 0 = none ∧
      f.mod.toNat / 2 % 4 = e0.fmt.toNat ∧ (k0.drainSpans { sT.w.capture c0 .accDrain f with stat := .started }).toOption.isSome = true ∧
      (sG.w.groupOf ⟨0, 1, 0⟩ 0).isSome = true ∧ (sG.w.groupOf ⟨0, 1, 0⟩ 0).bind (fun g => g.cores.head?) ≠ some (coreKey ⟨0, 1, 0⟩) ∧
      (sG.w.groupOf c0 0).bind (fun g => g.cores.head?) = some (coreKey c0) ∧ k0.decl.satTrap = false := by decide
/-- A range with no block that is written, poisoned or the device's own. -/
theorem readable_of (w : Work) (q : Fin 8) (a n : Nat)
    (h : ((rangeBlocks a n).all fun b => match w.translate q b.1 with
      | some p => decide (w.reach p.1 = 0) && (w.ctrWord (blockOf p.1)).isFresh
      | none => false) = true)
    (hd : ((w.deviceRanges q).all fun r => decide (a + n ≤ r.1 ∨ r.1 + r.2 ≤ a)) = true) : w.readable q a n := by
  refine ⟨fun b hb => ?_, fun r hr => of_decide_eq_true (List.all_eq_true.1 hd r hr)⟩
  have hx := List.all_eq_true.1 h b hb
  split at hx
  · rename_i p hp
    obtain ⟨hr, hf⟩ := Bool.and_eq_true_iff.1 hx
    exact ⟨p.1, p.2, hp, of_decide_eq_true hr, by rw [of_decide_eq_true hf]; rfl, Or.inl hf⟩
  · cases hx
/-- The bytes of a descriptor of one 64 by 64 matrix, mantissas at 0 and exponents at 4096 of HBM, with ATTR's third byte. -/
def descMem (attr : Byte) : Mem :=
  [(9, 0x10), (16, 64), (20, 64), (24, 1)] ++ if attr = 0 then [] else [(30, attr)]
/-- A machine with one page of HBM mapped for partition 0, a descriptor at the start of core 0's local memory, and the context `k`. -/
def withHbm (attr : Byte) (k : Ctx) : State :=
  let s := withCtx k
  { s with w := { s.w with
      parts := [(0, { Part.zero with pages := [(0, some ⟨false, 0, 0⟩)], dyke := { DykeRec.zero with valid := true, slices := 1, redQuota := 4 } })]
      slices := [(0, { SliceSt.zero with gated := false, assigned := true })]
      memStacks := [(0, { Stack.zero with present := true, chMap := 1 })]
      cores := [(0, { Core.zero with localMem := descMem attr })] } }
/-- The context with lengths of 64 bytes. -/
def kM : Ctx := (k0.setS 3 64).setS 1 64
theorem test_meets_DataMoverResults :
    let s := withHbm 0 kM
    s.w.ready c0 ∧ (∀ o, o ∈ [KOp.dmaGet, .dmaPut, .dmaCopy, .dmaFill] → (s.w.ctx c0).operandFault o fS = none) ∧
      (0 : Word).toNat % 64 = 0 ∧ s.w.fits c0 64 64 ∧ s.w.fits c0 0 64 ∧ s.w.readable 0 0 64 ∧ fS.mod.getLsbD 0 = false ∧
      ((⟨1, 2, 3, 1, 0⟩ : Fields).mod.getLsbD 0 = true ∧ (s.w.descAt c0 0).toOption.isSome = true ∧
        (kM.tileSpans (4096 * 2 ^ 32) 0).toOption.isSome = true ∧ s.w.readable 0 0 2048 ∧ s.w.readable 0 4096 128) ∧
      (s.w.mapped 0 0 2048 = true ∧ s.w.mapped 0 4096 128 = true ∧ s.w.writeRole 0 0 2048 = .free) :=
  ⟨by unfold Work.ready; decide, by decide, by decide, by unfold Work.fits; decide, by unfold Work.fits; decide,
    readable_of _ _ _ _ (by decide) (by decide), by decide,
    ⟨by decide, by decide, by decide, readable_of _ _ _ _ (by decide) (by decide), readable_of _ _ _ _ (by decide) (by decide)⟩,
    ⟨by decide, by decide, by decide⟩⟩
theorem test_meets_TileTransferResults :
    k0.operandFault .tLd ⟨0x81, 2, 0, 0, 0⟩ = none ∧ k0.operandFault .tSt ⟨2, 0x81, 0, 0, 0⟩ = none ∧
      (k0.tileSpans (4096 * 2 ^ 32) 0).toOption.isSome = true := by decide
/-- A push and the pop of the entry on top. -/
theorem test_meets_PeatInstructionResults :
    let e : PeatEntry := ⟨0, 1, List.replicate 512 7, 0, .resident, [(0, 1)], false⟩
    k0.operandFault .peatPush fS = none ∧ s0.w.fits c0 0 512 ∧ (0 : Word).getLsbD 62 = k0.version.getD k0.latBuf ∧
      (s0.w.slice 0).peat.laneA.length < 32768 ∧ 1 ≤ (s0.w.slice 0).peat.free ∧
      evUe (evHere .ok) = false ∧
      k0.operandFault .peatPop fS = none ∧ e.tag = 0 ∧ e.place = .resident ∧ e.poison = false :=
  ⟨by decide, by unfold Work.fits; decide, by decide, by decide, by decide, by decide, by decide, rfl, rfl, rfl⟩
/-- A job with a fabric section whose members are the device itself and the device 1. -/
def jobF : Job :=
  { q := 0, seed := [], key := 0, start := 0, step := 0, buf := false, peat := none, weights := [], stat := none
    fabric := some ⟨2 ^ 41, 1, 0, 2 ^ 40, 0, [0, 1]⟩, resil := none, plan := none }
/-- A machine whose context's job is `jobF`, with a route to device 1 by port 0 and multicast group 0. -/
def sF (k : Ctx) : State :=
  let s := withHbm 0 k
  { s with w := { s.w with
      jobs := [(0, some jobF)]
      fab := { s.w.fab with
        memberRoutes := [(1, ⟨true, false, 0, 0, 0, 0, 0⟩)], mcast := [(0, ⟨true, 0, false, 0, 1⟩)]
        ports := [(0, { Port.zero with st := 5, assigned := true, active := [(0, ⟨true, 0, 8⟩)] })] } } }
theorem test_meets_FabricInstructionResults :
    let s := sF kM
    let far : Word := 2 ^ 48
    s.w.ready c0 ∧ (∀ o, o ∈ [KOp.fabPut, .fabGet, .fabMcast] → kM.operandFault o fS = none) ∧ s.w.fits c0 0 64 ∧
      s.w.mayRetain c0 64 = true ∧ s.w.mayRetain c0 8 = true ∧
      (far.toNat % 64 = 0 ∧ s.w.isMember c0 (far.extractLsb' 48 16) = true ∧ (s.w.route 0 (far.extractLsb' 48 16)).valid = true ∧
        (s.w.port (s.w.firstPort 0 1)).slotValid 0 = true) ∧
      (s.w.isMember c0 s.w.time.address = true) ∧
      ((s.w.fab.mcast.get .zero 0).valid = true ∧ (s.w.fab.mcast.get .zero 0).source = s.w.time.address ∧
        (s.w.port 0).slotValid 0 = true) :=
  ⟨by unfold Work.ready; decide, by decide, by unfold Work.fits; decide, by decide, by decide, by decide, by decide, by decide⟩
/-- A program of one context that declares sluice 0. -/
def prog0 : Program :=
  { q := 0, job := 0, ctxs := [c0], sluices := [0], tensors := [0], digest := [], load := none, failed := none }
/-- The machine with that program. -/
def sP (k : Ctx) : State := { sF k with w := { (sF k).w with progs := [(0, some prog0)] } }
/-- A wait on generation 0, which is filled, and on generation 1, which is not. -/
theorem test_meets_SluiceAndControlInstructionResults :
    let s := sP k0
    s.w.ready c0 ∧ (∀ o, o ∈ [KOp.slArm, .slSig, .slWait, .rngSet] → k0.operandFault o fS = none) ∧ s.w.declares c0 0 = true ∧
      ((s.w.sluice 0).gen = 0 ∧ ((s.w.sluice 0).count - (s.w.sluice 0).target).toNat < 2 ^ 31) ∧ (s.w.sluice 0).gen ≠ 1 ∧
      ¬(1 ≤ ((s.w.sluice 0).gen - 1).toNat ∧ ((s.w.sluice 0).gen - 1).toNat ≤ 32767) ∧
      (∃ q, s.w.prog 0 0 = some q ∧ q.load = none) ∧ s.w.time.ftime.toNat / 16000 < 0 + 1 ∧
      0 + 1 ≤ ({ s.w.time with ftime := 16000 } : TimeSt).ftime.toNat / 16000 ∧
      ((⟨0, 0, 0, 0, 1⟩ : Fields).imm ≠ 0 ∧ (BitVec.ofNat 16 (k0.flags.get 0 0) - 1).toNat ≥ 2 ^ 15) :=
  ⟨by unfold Work.ready; decide, by decide, by decide, by decide, by decide, by decide, ⟨prog0, by decide⟩, by decide, by decide, by decide⟩
/-- The state of a bucket opened at a root that expects nothing but its own input. -/
def bucket0 : RedCtx :=
  { q := 0, step := 0, phase := .opened, base := 0, node := ⟨true, true, 0, 0, 0⟩
    desc := ⟨false, 0, 4, 1, 0, 0, 0, 0, 65536, 1⟩, rnd := false, fmt := 2, eb := [0], inputs := [], inclusion := none
    dropped := [], sent := [], sums := [], attempts := 0, own := none, waiters := [], results := [], path := false
    notice := none, n := 0, failCode := 0, closeAsked := false, outcome := 0, root := none, held := none }
/-- The machine with tensor 0 in the 16-bit format and a valid tree of reductions, with `k` as its context. -/
def sB (attr : Byte) (mem : Mem) (k : Ctx) : State :=
  let s := sP k
  let w := (s.w.setEntry 0 0 (some { e0 with fmt := 2 })).updSlice 0 fun x => { x with scale := { x.scale with cached := [(0, 0)] } }
  { s with w := { w with
      red := { w.red with nodes := [(0, ⟨true, true, 0, 0, 0⟩)] }
      cores := [(0, { Core.zero with localMem := if mem = [] then descMem attr else mem })] } }
/-- A job whose commit sluice is sluice 0. -/
def jobC : Job := { jobF with peat := some ⟨0, 1, 0, 0, 0, 0, 0⟩ }
theorem test_meets_CommitAndReductionInstructionResults :
    (let s := sB 0 [(4, 4), (6, 1), (26, 1), (32, 1)] k0
     let bs := (s.w.localDesc c0 0).toOption.getD []
     let d := (RedDesc.ofBytes bs).2
     s.w.ready c0 ∧ k0.operandFault .redOpen fS = none ∧ (s.w.localDesc c0 0).toOption.isSome = true ∧ s.w.declares c0 d.sluice.toNat = true ∧
       resolvesTo { e0 with fmt := 2 } (s.w.tensorEntry c0 d.tensor) = true ∧
       s.w.redMisfit 0 0 d (s.w.red.nodes.get .zero 0) { e0 with fmt := 2 } = false ∧ s.w.redCtx 0 0 = none ∧
       s.w.redInUse 0 < (s.w.part 0).dyke.redQuota) ∧
      (let s := sB 0x20 [] k0
       k0.operandFault .redContrib fS = none ∧ (s.w.setRed 0 0 (some bucket0)).redCtx 0 0 = some bucket0 ∧ bucket0.step.toNat = s.w.workStep c0 ∧ bucket0.own = none ∧
         bucket0.phase ≠ .delivered ∧ ((s.w.descAt c0 0).toOption.map (·.fmt)) = some 2 ∧ bucket0.leaf = false ∧
         s.w.readable 0 0 8192 ∧ s.w.readable 0 4096 128) ∧
      k0.operandFault .redClose fS = none ∧ k0.operandFault .stepCommit fS = none ∧
      (let s : State := { sP k0 with w := { (sP k0).w with jobs := [(0, some jobC)] } }
       s.w.declares c0 0 = true ∧ s.w.jobOf c0 = some jobC ∧ jobC.commitSluice = some 0 ∧ s.w.homeOf jobC = s.w.time.address ∧
         jobC.resil = none) ∧
      k0.operandFault .sclPin fS = none ∧ (sT.w.entry 0 0).isSome = true :=
  ⟨⟨by unfold Work.ready; decide, by decide, by decide, by decide, by decide, by decide, by decide, by decide⟩,
    ⟨by decide, by decide +kernel, by decide, by decide, by decide, by decide, by decide, readable_of _ _ _ _ (by decide) (by decide), readable_of _ _ _ _ (by decide) (by decide)⟩,
    by decide, by decide, by decide, by decide, by decide⟩
/-- An instruction of the context `c0` of the machine `s0`, with its number and where it stands. -/
def inst (o : KOp) (f : Fields) (st : IStat) : InFlight := { s0.w.capture c0 o f with stat := st }
/-- A machine with one outstanding instruction, or none, and a hold. -/
def sI (x : List InFlight) (h : Hold) (k : Ctx) : State :=
  { sP k with w := { (sP k).w with ctxs := [(0, { k with infl := x, hold := h, st := if h = .none then .running else .waiting })] } }
/-- An effect that completes. -/
theorem done_of (e : Effect) (h : e.ending = .complete) : ∃ w, e = .done w := ⟨e.w, by cases e; cases h; rfl⟩
/-- An instruction of a context that ends without a fault. -/
def done (x : InFlight) (w : Work) : Prop := (x.op.effect w c0 x .ok).ending = .complete
/-- The engine M has the fill `x` started, and V a copy of lanes after it. -/
def sTwo : State :=
  sI [{ inst .dmaFill fS .started with vb := 64 }, { inst .vbcast ⟨0x41, 2, 0, 0, 0⟩ .started with id := 1 }] .none kM
/-- Starting, completing, a missed line, a scale entry, two operations of different units at a sluice, and waits that are satisfied. -/
theorem test_meets_EngineEventResults :
    (let s := sI [inst .dmaFill fS .queued] .none kM
     let x := inst .dmaFill fS .queued
     s.w.headOf c0 .M = some x ∧ s.w.mayBegin c0 x = true ∧ kM.operandFault x.op x.f = none ∧ x.op.actsAtStart = false) ∧
      (let x := { inst .dmaFill fS .started with vb := 64 }
       let w := (x.op.effect sTwo.w c0 x .ok).w.retire c0 x x.flag
       (sTwo.w.ctx c0).startedAt .M 0 = some x ∧ (sTwo.w.ctx c0).productHeld x = false ∧ sTwo.w.staleReply x = false ∧ Queue.M ≠ .C ∧
         done x sTwo.w ∧
         ∃ y ∈ (sTwo.w.ctx c0).startedAt .V 0, x.id ≤ y.id ∧ w.instr c0 y.id = some y ∧ (w.ctx c0).productHeld y = false ∧
           w.staleReply y = false ∧ y.op.queue = .V ∧ done y w) ∧
      (sT.w.entry 0 0).isSome = true ∧ (withHbm 0 k0).w.sliceOwner 0 = some 0 ∧
      (let z : Sluice := { Sluice.zero with coming := [(1, .arm 3 4), (2, .signal 0 1)] }
       z.coming[1]? = some (2, .signal 0 1) ∧ (∀ e, e ∈ z.coming.take 1 → e.1 ≠ 2) ∧ s0.w.commitJobs 0 = []) ∧
      (let x := inst .slWait fS .queued
       let s := sI [x] (.sluice 0 0) k0
       s.w.headOf c0 .C = some x ∧ s.w.startable c0 x = true ∧ k0.operandFault .slWait x.f = none ∧
         s.w.declares c0 x.sluiceNo = true ∧ (s.w.sluice x.sluiceNo).satisfied x.gen = true ∧ (s.w.ctx c0).st ≠ .paused) ∧
      (let x := inst .lfWait fS .queued
       let s := sI [x] (.flag 0 0) k0
       s.w.headOf c0 .C = some x ∧ s.w.startable c0 x = true ∧ ((s.w.ctx c0).flag x.lf - x.f.imm).toNat < 2 ^ 15 ∧
         (s.w.ctx c0).st ≠ .paused) := by
  refine ⟨by decide, ?_, by decide, by decide, by decide, by decide, by decide⟩
  unfold done
  exact ⟨by decide, by decide, by decide, by decide, by decide, { inst .vbcast ⟨0x41, 2, 0, 0, 0⟩ .started with id := 1 }, by decide +kernel⟩
/-- A Peat with one page for spilled entries. -/
def peatOf (a : List PeatEntry) : Peat := { Peat.zero with laneA := a, spillPages := 1, fetchAhead := 1 }
/-- An entry of one unit. -/
def pe (tag : Word) (place : PeatPlace) : PeatEntry := ⟨tag, 1, if place = .resident then [1] else [], 0, place, if place = .resident then [(0, 1)] else [], false⟩
/-- The machine with that Peat in slice 0. -/
def withPeat (s : State) (p : Peat) : State := { s with w := s.w.updSlice 0 fun z => { z with peat := p } }
/-- A write of one block, of the context's data mover. -/
def hw (id : Nat) : HbmWrite := ⟨0, [(0, List.replicate 64 5)], c0, id⟩
/-- The reads of a spilled entry's pieces, here of fresh blocks. -/
theorem readPieces_fresh : ((withPeat (sI [] .none k0) (peatOf [])).w.readPieces 0 [(0, 512)] .ok).1 = ⟨0, List.replicate 512 0⟩ := by
  decide +kernel
theorem test_meets_MemoryEventResults :
    (let s := sI [inst .dmaPut fS .writing] .none kM
     let w : Work := { s.w with writes := [hw 0, hw 1] }
     w.overtakes 1 (hw 1) = true ∧ w.overtakes 0 (hw 0) = false ∧
       ((s.w.instr c0 0).map fun y => s.w.staleReply y) = some false ∧ (s.w.applyParts 0 (hw 0).parts .ok).1 = (0, 0) ∧
       ((s.w.applyParts 0 (hw 0).parts .ok).2.instr c0 0).isSome = true) ∧
      (let s := withPeat (sI [inst .peatPush fS .waitSpace] .none k0) (peatOf [pe 1 .resident, pe 0 .resident])
       let p := (s.w.slice 0).peat
       (s.w.pushWaits 0).isSome = true ∧ s.w.sliceOwner 0 = some 0 ∧ p.victimLane false = some false ∧
         oldestResident (p.lane false) = some (pe 0 .resident) ∧ (p.placePieces false 0 3 512 []).isSome = true) ∧
      (let s := withPeat (sI [] .none k0) (peatOf [pe 1 .resident, pe 0 (.spilled [(0, 512)])])
       newestSpilled ((s.w.slice 0).peat.lane false) = some (pe 0 (.spilled [(0, 512)])) ∧ s.w.mayFetch 0 false = true) ∧
      (let x := inst .peatPop fS .copying
       let y : PeatCopy := ⟨c0, 0, 1, [1], [(0, 1)]⟩
       let s := withPeat (sI [x] .none k0) { peatOf [] with copies := [y] }
       (s.w.slice 0).peat.copies.find? (fun y => decide (y.ctx = c0)) = some y ∧ s.w.instr c0 0 = some x ∧ s.w.staleReply x = false ∧
         (k0.range x.vd 512).toOption.isSome = true) ∧
      (let x := inst .peatPush fS .waitSpace
       let s := sI [x] .none k0
       s.w.headOf c0 .M = some x ∧ x.op = .peatPush ∧ x.stat = .waitSpace ∧ (k0.range x.va 512).toOption.isSome = true ∧
         x.vd.getLsbD 62 = k0.version.getD k0.latBuf ∧ (s.w.slice 0).peat.laneA.length < 32768 ∧ 1 ≤ (s.w.slice 0).peat.free) ∧
      (let x := { inst .dmaPut fS .waitRefs with vb := 64 }
       let s := sI [x] .none kM
       s.w.headOf c0 .M = some x ∧ x.op = .dmaPut ∧ x.stat = .waitRefs ∧ (s.w.putParts c0 x).toOption.isSome = true ∧ s.w.mapped 0 0 64 = true ∧
         s.w.writeRole 0 0 64 ≠ .current ∧ s.w.mustHold 0 0 64 = false) ∧
      (let s := sI [] .none k0
       let h : HeldWrite := ⟨0, 0, { mkPkt 0 0 1 0 (List.replicate 64 1) with src := 1 }⟩
       ({ s.w with heldWrites := [h] } : Work).heldWrites.filter (fun h => decide (h.q = 0)) = [h] ∧
       s.w.mustHold 0 0 64 = false ∧ (s.w.hbmWrite 0 0 (List.replicate 64 1) .ok).1 = 0 ∧
         (({ s.w with } : Work).setRed 0 0 (some { bucket0 with held := some ⟨false, false, false, 0, true⟩ })).redWaiting 0 ≠ []) := by
  exact ⟨by decide +kernel, by decide, by decide, by decide, by decide, by decide, by decide +kernel⟩
/-- A combining drain whose two participants have arrived is due, and completes. -/
theorem test_meets_combining :
    let u : CombineUse := ⟨0, 0, 0, 0, false, false, c0, 0⟩
    let x := inst .accDrain ⟨2, 0xC1, 3, 2, 0⟩ .combining
    let s := { sI [x] .none k0 with w := { (sI [x] .none k0).w.setEntry 0 0 (some e0) with
      groups := [{ q := 0, program := 0, tensor := 0, coreMask := 1, clusterMask := 1, absentAtLoad := [] }]
      combineIns := [⟨0, 0, 0, 0, 0, false, [], 0⟩], combineUses := [u] } }
    s.w.combineUses.find? (fun u => s.w.useDue c0 u) = some u ∧ s.w.instr c0 u.id = some x ∧ x.op.queue ≠ .C ∧
      (effCombineResult s.w x u .ok).ending = .complete := by decide +kernel
/-- A function, and the queue of a management function with an accepted command. -/
def pf : Fn := ⟨0, 0⟩
/-- An entry with an opcode and 48 bytes of arguments from byte 16. -/
def entryOf (op args : Nat) : BitVec 512 := BitVec.ofNat 512 (op + 1 * 2 ^ 16 + args * 2 ^ 128)
/-- The command with SEQ 1. -/
def cr : CmdRef := ⟨pf, 0, 1⟩
/-- A queue of 16 entries with a command in a state. -/
def queueOf (cmds : List CmdEnt) : QueueSt :=
  { sq := 0, cq := 0, ack := 0, l := 4, vector := 1, count := 1, time := 0, tail := 1, fetch := 0, cqHead := 0, cqTail := 0, x := 2
    ackDue := false, cmds, history := [], unsignalled := 1, draining := false, deleteBy := none }
/-- The machine with that queue. -/
def withQ (q : QueueSt) (s : State) : State := { s with w := s.w.setQueue pf 0 (some q) }
/-- The machine with a command in its queue. -/
def withCmd (e : BitVec 512) (s : State) : State := withQ (queueOf [⟨1, false, false, e, .accepted⟩]) s

theorem test_meets_FrameTickAndSegmentResults :
    (let t : TimeSt := { TimeSt.zero with jump := some ⟨5, 1⟩ }
     t.jump = some ⟨5, 1⟩ ∧ t.ftime.toNat % (t.period.toNat * 1000) = 0 ∧ t.heardP = 0) ∧
      (let t : TimeSt := { TimeSt.zero with jump := some ⟨5, 1⟩, ftime := 1 }
       TimeSt.zero.jump = none ∧ t.ftime.toNat % (t.period.toNat * 1000) ≠ 0) ∧
      (let t : TimeSt := { TimeSt.zero with nextPeriod := 32, changeAt := 0 }
       t.nextPeriod ≠ 0 ∧ t.changeAt.toNat ≤ t.ftime.toNat) ∧
      (let t : TimeSt := { TimeSt.zero with lockP := 32 }
       t.nextPeriod = 0 ∧ t.lockP ≠ 0 ∧ t.ftime.toNat % (t.lockP.toNat * 1000) = 0 ∧ t.ftime.toNat % (t.period.toNat * 1000) = 0) ∧
      (TimeSt.zero.nextPeriod = 0 ∧ TimeSt.zero.lockP = 0) ∧
      (let t : TimeSt := { TimeSt.zero with ftime := 16000 }
       let k := { k0 with st := .waiting, hold := .tick }
       k.st = .waiting ∧ k.hold = .tick ∧ k.segment < t.ftime.toNat / 16000 ∧ t.ftime.toNat % 16000 + 15999 < 16000 ∧
         ({ k with hold := .none } : Ctx).hold ≠ .tick ∧ k.slack * 16000 < (t.ftime + 1).toNat - 16000 ∧ k.fault70 = false) ∧
      (let k := { k0 with st := .loaded }
       k.st = .loaded ∧ k.startFrame ≤ 0 ∧ (withCtx k).w.jobOf c0 = none ∧ 0 - 16000 ≤ k.slack * 16000) ∧
      (let p : Part := { Part.zero with pausePending := true, pauseFrom := 4, resumePending := some none, resumeFrom := 4 }
       p.pausePending = true ∧ 3 ≤ p.pauseFrom ∧ p.pauseFrom < 5 ∧ 3 ≤ p.resumeFrom ∧ p.resumePending = some none ∧ p.resumeFrom < 5) ∧
      (∀ c : CtxId, (State.reset.w.ctx c).restart = false) ∧
      (let k := { k0 with st := .paused }
       c0 ∈ (withCtx k).w.liveCtxs ∧ ((withCtx k).w.ctx c0).part = 0 ∧ ((withCtx k).w.ctx c0).st = .paused) :=
  ⟨by decide, by decide, by decide, by decide, by decide, by decide, by decide, by decide, fun _ => rfl, by decide⟩
theorem test_meets_FenceResults :
    fenceable 0x0000 = true ∧ pf.fn = 0 ∧ s0.w.isFenced 0x0000 = false ∧
      (let s : State := { s0 with w := { s0.w with fenced := [0x0000] }, ctl := { s0.ctl with fence := ⟨0, 0x0000, 0, 1, true, []⟩ } }
       s.w.isFenced 0x0000 = true ∧ s.ctl.fence.unit = 0x0000 ∧ s.ctl.fence.st = 1) ∧
      ¬((s0.ctl.fence.st = 1 ∧ s0.ctl.fence.unit = 0x0000) ∨ ∃ e, e ∈ s0.ctl.fence.others ∧ e.1 = 0x0000) := by decide
/-- A core that is not lost, one that is absent, one that waits for a spare, a slice mapped out or not, and the halves of B. -/
theorem test_meets_UnitLossResults :
    (¬((SliceSt.zero.coreAbsent.getLsbD 0 = true) ∨ ∃ e, e ∈ SliceSt.zero.waitingSpare ∧ e.1 = 0)) ∧
      ({ SliceSt.zero with coreAbsent := 1 } : SliceSt).coreAbsent.getLsbD 0 = true ∧
      ({ SliceSt.zero with waitingSpare := [(0, 0)] } : SliceSt).waitingSpare.find? (fun e => decide (e.1 = 0 ∧ e.2 < 4)) = some (0, 0) ∧
      SliceSt.zero.mappedOut = false ∧ ({ SliceSt.zero with mappedOut := true } : SliceSt).mappedOut = true ∧
      (Core.zero.bPending.getD Core.zero.bState &&& 2 = 0) ∧ (({ Core.zero with bState := 2 } : Core).bState &&& 2 ≠ 0) := by decide
theorem test_meets_StackAndResetResults :
    (let s : State := { s0 with w := { s0.w with inReset := [0x2000] } }
     s.w.isDown 0x2000 = true ∧ unitClass 0x2000 ≠ 5 ∧ s.ctl.pins.frefclk = true ∧ unitClass 0x2000 ≠ 4) ∧
      s0.w.isDown 0x2000 = false ∧ s0.w.red.ctxs = [] ∧ Stack.zero.chMap.getLsbD 0 = false ∧
      (let st : Stack := { Stack.zero with chMap := 1 }
       st.chFailed.getLsbD 0 = false ∧ st.chMap.getLsbD 0 = true) := by decide

/-- A live entry of a queue. -/
def live1 : CmdEnt := ⟨1, false, false, entryOf 0x10 0, .accepted⟩
/-- A queue's live commands are held. -/
theorem held_replicate (n : Nat) : (withQ (queueOf (List.replicate n live1)) s0).w.held = n := by
  have h : (withQ (queueOf (List.replicate n live1)) s0).w.host.queues = [(0, some (queueOf (List.replicate n live1)))] := rfl
  have hl : live1.live = true := by decide
  unfold Work.held
  rw [h]
  simp [queueOf, hl]
theorem test_meets_StaitheResults :
    (let s := up (withQ (queueOf []) s0)
     s.w.queue pf 0 = some (queueOf []) ∧ s.fnOpen pf = true ∧ (queueOf []).draining = false ∧ (15 : Nat) < 2 ^ (queueOf []).l ∧
       2 ^ (queueOf []).l ≤ 16 ∧ (0 + 2 ^ 4 - 0 % 2 ^ 4) % 2 ^ 4 ≤ (queueOf []).cqTail - (queueOf []).cqHead ∧
       (queueOf []).cqTail - (queueOf []).cqHead < (1 + 2 ^ 4 - 0 % 2 ^ 4) % 2 ^ 4 ∧ s.w.fnUp pf = true ∧ s.w.host.stalled = false ∧
       s.w.canFetch pf 0 = true ∧ s.w.fetchTurn pf 0 = true ∧ s.w.held < 65536) ∧
      65536 ≤ (withQ (queueOf (List.replicate 65536 live1)) s0).w.held := ⟨by decide, Nat.le_of_eq (held_replicate 65536).symm⟩
/-- Commands that may start, for CREATE_QUEUE and DELETE_QUEUE with every cause, a free context, and an AQ_CTL either way. -/
theorem test_meets_QueueLifeAndOrderResults :
    (let e := entryOf 0x01 (4 * 2 ^ 192 + 1 * 2 ^ 224)
     let s := withCmd e s0
     s.w.startCmd cr 0x01 = some e ∧ 4 ≤ cmdArg e 40 1 ∧ cmdArg e 40 1 ≤ 16 ∧ cmdArg e 44 1 ≠ 0 ∧ cmdArg e 32 8 % 8 = 0 ∧
       cmdArg e 42 2 < (s.w.fn pf).cfgEff.vectorCount.toNat ∧ s.w.queueRoom pf = true) ∧ ((withCmd (entryOf 0x01 0) s0).w.freeQueue pf = some 1) ∧
      (let e := entryOf 0x02 1
       let s1 := withCmd e s0
       let s : State := { s1 with w := s1.w.setQueue pf 1 (some (queueOf [])) }
       s.w.startCmd cr 0x02 = some e ∧ cmdArg e 16 2 ≠ 0 ∧ s.w.queue pf (cmdArg e 16 2) = some (queueOf []) ∧ s1.w.queue pf 1 = none) ∧
      (s0.w.fnUp pf = true ∧ (up s0).fnOpen pf = true ∧ s0.fnOpen pf = false ∧ (BitVec.twoPow 64 63).getLsbD 63 = true ∧ (s0.w.fn pf).enable = false ∧
        (0 : Word).getLsbD 63 = false ∧ ({ FnSt.zero 0 with enable := true } : FnSt).enable = true) ∧
      (s0.w.startCmd cr 0x10 = none ∧ s0.w.cmd cr = none) := by decide +kernel
/-- The machine with its one page of HBM and a job with weights, and a command in the queue. -/
def sW (k : Ctx) (args : Nat) (op : Nat) : State :=
  let s := withHbm 0 k
  withCmd (entryOf op args) { s with w := { s.w with jobs := [(0, some { jobF with weights := [⟨0, 0, 8192, 512⟩] })] } }
/-- A transfer that is aligned, one that is not, one outside the page table, one to a current buffer and one to a previous
buffer in use; a poisoned block. -/
theorem test_meets_HostCopyResults :
    (∀ op, op ∈ [0x10, 0x11] → (sW k0 (16384 * 2 ^ 64 + 64 * 2 ^ 128) op).w.Runs cr op 0 (entryOf op (16384 * 2 ^ 64 + 64 * 2 ^ 128))) ∧
      ((16384 : Nat) % 64 = 0 ∧ (sW k0 0 0x10).w.mapped 0 16384 64 = true ∧ (sW k0 0 0x10).w.writeRole 0 16384 64 ≠ .current ∧
        (sW k0 0 0x10).w.mustHold 0 16384 64 = false ∧ 64 ≤ (List.replicate 64 (0 : Byte)).length) ∧
      ((sW k0 0 0x10).w.mapped 0 (2 ^ 22) 64 = false ∧ (sW k0 0 0x10).w.writeRole 0 0 64 = .current) ∧
      ((sW { k0 with version := some true } 0 0x10).w.mustHold 0 8192 64 = true) ∧
      (sW k0 0 0x11).w.readable 0 16384 64 ∧
      (({ (sW k0 0 0x11).w with ctr := [(32, ⟨true, false, 0⟩)] } : Work).hbmRead 0 16384 64 .ok).1.code ≠ 0 := by
  refine ⟨?_, ?_, ?_, ?_, readable_of _ _ _ _ (by decide) (by decide), ?_⟩
  · unfold Work.Runs
    decide +kernel
  all_goals decide +kernel
/-- A header of 192 bytes with one context, whose image starts at 4096 or, with `far`, in a page that is not mapped. -/
def hdrMem (far : Bool) : Mem :=
  [(0, 0x48), (1, 0x50), (2, 0x32), (3, 0x4A), (4, 192), (8, 1), (24, 64), (73, 0x10)] ++ (if far then [(75, 1)] else []) ++
    [(81, 0x10), (113, 16), (117, 4)]
/-- A machine with 512 bytes in the first block of its memory, sealed under the key of domain 0. -/
def withBlock (w : Work) (plain : List Byte) : Work :=
  { w with
    hbm := w.hbm.writeN (512 * 0) (gcmCrypt (w.blockKey 0 0 0) (blockIv (512 * 0) ⟨false, false, 1⟩) plain)
    tags := w.tags.set 0 0 (blockTag (w.blockKey 0 0 0) 0 ⟨false, false, 1⟩
      (gcmCrypt (w.blockKey 0 0 0) (blockIv (512 * 0) ⟨false, false, 1⟩) plain))
    ctr := w.ctr.set .fresh 0 ⟨false, false, 1⟩, nodes := (w.sealBlock (w.blockKey 0 0 0) 0 ⟨false, false, 1⟩ plain).nodes }
theorem withBlock_eq (w : Work) (plain : List Byte) : withBlock w plain = w.sealBlock (w.blockKey 0 0 0) 0 ⟨false, false, 1⟩ plain := by
  rw [Work.sealBlock_eq]
  rfl
theorem withBlock_good (w : Work) (plain : List Byte) (h : plain.length = 512) :
    (withBlock w plain).tagGood ((withBlock w plain).blockKey 0 0 0) 0 = true ∧
      (withBlock w plain).plainOf ((withBlock w plain).blockKey 0 0 0) 0 = plain := by
  have hk : (withBlock w plain).blockKey 0 0 0 = w.blockKey 0 0 0 := rfl
  rw [hk, withBlock_eq]
  exact ⟨Work.tagGood_sealBlock _ _ _ _ _ h, Work.plainOf_sealBlock _ _ _ _ _ h⟩
/-- What is read in that block. -/
theorem read_block (w : Work) (plain : List Byte) (n : Nat) (h : plain.length = 512) (hn : n ≤ 512) (hb : rangeBlocks 0 n = [(0, n)])
    (ht : w.translate 0 0 = some (0, 0)) (hr : w.reach 0 = 0) (hc : ((withBlock w plain).ctrWord 0) = ⟨false, false, 1⟩)
    (hd : ((w.deviceRanges 0).all fun r => decide (0 + n ≤ r.1 ∨ r.1 + r.2 ≤ 0)) = true) :
    (withBlock w plain).hbmRead 0 0 n .ok = (⟨0, plain.take n⟩, withBlock w plain) := by
  have hp : (withBlock w plain).peek 0 0 n = plain.take n := by
    have ht' : (withBlock w plain).translate 0 0 = some (0, 0) := ht
    unfold Work.peek
    rw [hb]
    simp only [List.flatMap_cons, List.flatMap_nil, ht', blockOf, Nat.zero_div, hc, List.append_nil]
    rw [(withBlock_good w plain h).2]
    rfl
  rw [Work.hbmRead_readable (withBlock w plain) 0 0 n ⟨fun b hm => ?_, fun r hm => of_decide_eq_true (List.all_eq_true.1 hd r hm)⟩, hp]
  · rw [hp, List.length_take, h, Nat.min_eq_left hn]
  · rw [hb, List.mem_singleton] at hm
    subst hm
    exact ⟨0, 0, ht, hr, by rw [show blockOf 0 = 0 from rfl, hc], Or.inr (withBlock_good w plain h).1⟩
/-- The machine with a LOAD in the queue, before the header is written. -/
def sL0 : State := withCmd (entryOf 0x20 0) (withHbm 0 .empty)
/-- The machine with that header in its page and a LOAD in the queue. -/
def sL (far : Bool) : State := { sL0 with w := withBlock sL0.w ((hdrMem far).readN 0 512) }
/-- The bytes of a header. -/
def hdrBytes (far : Bool) : List Byte := ((hdrMem far).readN 0 512).take 192
/-- The machine with a job with a Peat section and a plan of step 0. -/
def sPlan0 (k : Ctx) (n : Nat) : State :=
  let s := withCmd (entryOf 0x23 (n * 2 ^ 64)) (withHbm 0 k)
  { s with w := { s.w with jobs := [(0, some { jobC with peat := some ⟨0, 1, 0, 1, 0, 0, 0⟩ })] } }
/-- The bytes of a plan of a step. -/
def planOf (step : Byte) : List Byte := step :: List.replicate 511 0
/-- The same with a plan of another step. -/
def sPlan (k : Ctx) (step : Byte) (n : Nat) : State := { sPlan0 k n with w := withBlock (sPlan0 k n).w (planOf step) }
/-- The header's two reads, and a plan's. -/
theorem read_header (far : Bool) (n : Nat) (hn : n = 64 ∨ n = 192) :
    (sL far).w.hbmRead 0 0 n .ok = (⟨0, ((hdrMem far).readN 0 512).take n⟩, (sL far).w) := by
  obtain rfl | rfl := hn <;> cases far <;>
    exact read_block _ _ _ (by decide +kernel) (by decide) (by decide) (by decide +kernel) (by decide +kernel) (by decide +kernel)
      (by decide +kernel)
theorem read_plan (k : Ctx) (hk : k = k0 ∨ k = { k0 with version := some true }) (n : Nat) (hn : n = 16 ∨ n = 17) :
    (sPlan k 1 n).w.hbmRead 0 0 n .ok = (⟨0, (planOf 1).take n⟩, (sPlan k 1 n).w) := by
  obtain rfl | rfl := hk <;> obtain rfl | rfl := hn <;>
    exact read_block _ _ _ (by decide +kernel) (by decide) (by decide) (by decide +kernel) (by decide +kernel) (by decide +kernel)
      (by decide +kernel)
theorem test_meets_load :
    (sL false).w.Runs cr 0x20 0 (entryOf 0x20 0) ∧ (∀ far, (sL far).w.prog 0 0 = none ∧ (sL far).w.mapped 0 0 64 = true ∧
      headerStart (((hdrMem far).readN 0 512).take 64) = true ∧ leAt (((hdrMem far).readN 0 512).take 64) 4 4 = 192 ∧
      (sL far).w.mapped 0 0 192 = true ∧ headerOk (hdrBytes far) ((sL far).w.part 0).dyke.slices = true) ∧
      (sL false).w.loadCause ⟨0, 0, 0, hdrBytes false, leBytes 16 0⟩ = 0 ∧
      (sL true).w.loadCause ⟨0, 0, 0, hdrBytes true, leBytes 16 0⟩ ≠ 0 ∧
      ((sP k0).w.prog 0 0).isSome = true := by
  unfold Work.Runs
  decide +kernel
theorem test_meets_ProgramAndPlanResults :
    ((withCmd (entryOf 0x21 0) (sP k0)).w.Runs cr 0x21 0 (entryOf 0x21 0) ∧ (withCmd (entryOf 0x21 0) (withHbm 0 k0)).w.prog 0 0 = none) ∧
      ((withCmd (entryOf 0x22 0) (sP k0)).w.Runs cr 0x22 0 (entryOf 0x22 0) ∧ ((sP k0).w.part 0).paused = false ∧
        ({ Part.zero with paused := true } : Part).resumePending = none) ∧
      ((sPlan0 k0 16).w.Runs cr 0x23 0 (entryOf 0x23 (16 * 2 ^ 64)) ∧ ((sPlan0 k0 16).w.job 0 0).isSome = true ∧
        (sPlan0 k0 16).w.mapped 0 0 16 = true ∧ (sPlan0 k0 16).w.hbmRead 0 0 16 .ok = (⟨0, List.replicate 16 0⟩, (sPlan0 k0 16).w) ∧
        (sPlan0 .empty 16).w.stepBegun 0 0 0 = false ∧ planRefusal 1 (List.replicate 16 0) = none ∧
        ((sPlan0 k0 16).w.jobsOf 0 = [0] ∧ ((sP k0).w.job 0 0).bind Job.peat = none)) ∧
      ((sPlan k0 1 17).w.Runs cr 0x23 0 (entryOf 0x23 (17 * 2 ^ 64)) ∧ leAt ((planOf 1).take 16) 0 8 = 0 + 1 ∧
        leAt ((planOf 2).take 16) 0 8 ≠ 0 + 1 ∧
        planRefusal 1 ((planOf 1).take 17) = some 0x34 ∧ planRefusal 1 ((planOf 1).take 16) = none ∧ (sPlan k0 1 16).w.refs 0 0 true = 0 ∧
        (sPlan { k0 with version := some true } 1 16).w.refs 0 0 true ≠ 0) := by
  unfold Work.Runs
  decide +kernel
/-- The machine with its page and a domain, and a command. -/
def sD (d : Dom) (op args : Nat) : State :=
  let s := withCmd (entryOf op args) (withHbm 0 .empty)
  { s with w := s.w.updPart 0 fun p => { p with doms := [(0, d)], dyke := { p.dyke with domainQuota := 2 } } }
theorem test_meets_PageDomainAndRekeyResults :
    let on : Dom := { Dom.zero with enabled := true }
    let unmap := 1 * 2 ^ 128 + 1 * 2 ^ 168
    let ch : PageChange := ⟨0, none, some cr⟩
    (Ctl.reset.manBusy = false ∧ ({ Ctl.reset with dyke := { Ctl.reset.dyke with rebooting := true } } : Ctl).manBusy = true ∧
      (sD on 0x30 0).w.startCmd cr 0x30 = some (entryOf 0x30 0) ∧ (sD on 0x31 0).w.startCmd cr 0x31 = some (entryOf 0x31 0)) ∧
      ((sD on 0x30 unmap).w.Runs cr 0x30 0 (entryOf 0x30 unmap) ∧ ((sD on 0x30 unmap).w.part 0).pageChanges = [] ∧
        (sD on 0x30 unmap).w.pageCause cr 0 (entryOf 0x30 unmap) = 0 ∧ cmdArg (entryOf 0x30 unmap) 32 4 ≠ 0 ∧
        (sD on 0x30 0).w.pageCause cr 0 (entryOf 0x30 (64 * 2 ^ 160)) ≠ 0 ∧
        (sD on 0x30 0).w.pageCause cr 0 (entryOf 0x30 (1 * 2 ^ 168)) = 0 ∧ cmdArg (entryOf 0x30 (1 * 2 ^ 168)) 32 4 = 0) ∧
      (let e := entryOf 0x30 unmap
       let s0 := sD on 0x30 unmap
       let s1 := withQ (queueOf [⟨1, false, false, e, .started⟩]) s0
       let s : State := { s1 with w := s1.w.updPart 0 fun p => { p with pageChanges := [ch] } }
       (s.w.part 0).pageChanges = [ch] ∧ s.w.pageBusy 0 0 = false ∧ s.w.cmd cr = some ⟨cmdSeq e, false, false, e, .started⟩ ∧
         ({ s.w with writes := [⟨0, [(0, [1])], c0, 0⟩] } : Work).pageBusy 0 0 = true) ∧
      ((sD .zero 0x31 1).w.Runs cr 0x31 0 (entryOf 0x31 1) ∧ (sD .zero 0x31 1).w.domainsOn 0 < 2 ∧ ((sD .zero 0x31 1).w.dom 0 1).enabled = false ∧
        cmdArg (entryOf 0x31 (1 * 2 ^ 8)) 17 1 = 1 ∧ (sD on 0x31 0).w.domainMapped 0 0 = true ∧ (sD on 0x31 0).w.domainMapped 0 1 = false ∧
        cmdArg (entryOf 0x31 (2 * 2 ^ 8)) 17 1 = 2 ∧ on.rekeying = false ∧ 63 < cmdArg (entryOf 0x31 64) 16 1 ∧
        (({ (sD on 0x31 0).w with } : Work).updPart 0 fun p => { p with dyke := { p.dyke with domainQuota := 1 } }).domainsOn 0 = 1) ∧
      (let s := sD { on with rekeying := true } 0x31 0
       s.w.sliceOwner 0 = some 0 ∧ (s.w.dom 0 0).rekeying = true ∧ s.w.nextBlock 0 0 0 0 = some 0 ∧ (s.w.ctrWord 0).isFresh = true ∧
         (sD { on with rekeying := true, boundary := [(0, 0x200000)] } 0x31 0).w.rekeyDone 0 0 = true ∧ s.w.rekeyDone 0 0 = false ∧
         on.rekeying = false) := by
  unfold Work.Runs
  decide +kernel
/-- A block of a domain that is being rekeyed, with data in it. -/
theorem test_meets_rekey :
    let d : Dom := { Dom.zero with enabled := true, rekeying := true, oldKey := [1] }
    let w := withBlock (sD d 0x31 0).w (planOf 7)
    w.sliceOwner 0 = some 0 ∧ (w.dom 0 0).rekeying = true ∧ w.nextBlock 0 0 0 0 = some 0 ∧ w.ctrWord 0 = ⟨false, false, 1⟩ ∧
      w.tagGood (w.dom 0 0).oldKey 0 = true := by
  refine ⟨by decide +kernel, by decide +kernel, by decide +kernel, by decide +kernel, ?_⟩
  have hg := (withBlock_good (sD { Dom.zero with enabled := true, rekeying := true, oldKey := [1] } 0x31 0).w (planOf 7) (by decide +kernel)).1
  have hk : (withBlock (sD { Dom.zero with enabled := true, rekeying := true, oldKey := [1] } 0x31 0).w (planOf 7)).blockKey 0 0 0 =
      ((withBlock (sD { Dom.zero with enabled := true, rekeying := true, oldKey := [1] } 0x31 0).w (planOf 7)).dom 0 0).oldKey := by decide +kernel
  rw [hk] at hg
  exact hg
/-- A resilience section with two data symbols and one of parity, and a shard of 512 bytes. -/
def resil0 : ResilSec := ⟨1, 0, 2, 1, false, 1, 0, 64, 512⟩
/-- The machine with a job with that section and weights, and a command. -/
def sR (op args : Nat) : State :=
  let s := withCmd (entryOf op args) (withHbm 0 .empty)
  { s with w := { s.w with jobs := [(0, some { jobF with weights := [⟨0, 0, 8192, 512⟩], resil := some resil0 })] } }
/-- A header that starts a package of one device with a body of 512 bytes. -/
def pkgPlain : List Byte := Mem.readN [(0, 0x50), (1, 0x57), (2, 0x32), (3, 0x4A), (4, 1), (18, 1), (25, 2)] 0 512
/-- The machine with that header at the start of its page. -/
def sPkg : State := { sR 0x32 0 with w := withBlock (sR 0x32 0).w pkgPlain }
theorem read_package : sPkg.w.hbmRead 0 0 64 .ok = (⟨0, pkgPlain.take 64⟩, sPkg.w) :=
  read_block _ _ _ (by decide +kernel) (by decide) (by decide) (by decide +kernel) (by decide +kernel) (by decide +kernel) (by decide +kernel)
/-- The whole package can be read. -/
theorem package_readable : sPkg.w.readable 0 0 (pkgHeader (pkgPlain.take 64) + carried 512) := by
  refine ⟨fun b hb => ?_, fun r hr => ?_⟩
  · have hx : ((rangeBlocks 0 (pkgHeader (pkgPlain.take 64) + carried 512)).all fun b => match sPkg.w.translate 0 b.1 with
        | some p => decide (p.2 = 0) && decide (sPkg.w.reach p.1 = 0) && (decide (p.1 = 0) || (sPkg.w.ctrWord (blockOf p.1)).isFresh)
        | none => false) = true := by decide +kernel
    have hb := List.all_eq_true.1 hx b hb
    split at hb
    · rename_i p hp
      simp only [Bool.and_eq_true, decide_eq_true_eq, Bool.or_eq_true] at hb
      obtain ⟨⟨hd, hr⟩, h0 | hf⟩ := hb
      · refine ⟨p.1, p.2, hp, hr, ?_, Or.inr ?_⟩ <;> rw [h0]
        · decide +kernel
        · rw [hd]
          exact (withBlock_good _ _ (by decide +kernel)).1
      · exact ⟨p.1, p.2, hp, hr, by rw [of_decide_eq_true hf]; rfl, Or.inl hf⟩
    · cases hb
  · have hd : ((sPkg.w.deviceRanges 0).all fun r =>
        decide (0 + (pkgHeader (pkgPlain.take 64) + carried 512) ≤ r.1 ∨ r.1 + r.2 ≤ 0)) = true := by decide +kernel
    simpa using of_decide_eq_true (List.all_eq_true.1 hd r hr)
/-- The conditions on the commands and the memory; what the sealed parts open to is a value of Config. -/
theorem test_meets_PackageAndCheckpointResults :
    (sPkg.w.Runs cr 0x32 0 (entryOf 0x32 0) ∧ sPkg.w.mapped 0 0 64 = true ∧ leAt (pkgPlain.take 64) 0 4 = 0x4A325750 ∧
      leAt (pkgPlain.take 64) 4 2 = 1 ∧ pkgDevices (pkgPlain.take 64) = 1 ∧ pkgBody (pkgPlain.take 64) = 512 ∧
      (sPkg.w.job 0 (BitVec.ofNat 16 (leAt (pkgPlain.take 64) 16 2))).isSome = true ∧
      sPkg.w.mapped 0 0 (pkgHeader (pkgPlain.take 64) + carried 512) = true ∧ sPkg.w.mustHold 0 16384 512 = false) ∧
      ((sR 0x40 (4096 * 2 ^ 64)).w.Runs cr 0x40 0 (entryOf 0x40 (4096 * 2 ^ 64)) ∧ resil0.ownerKey ≠ 0 ∧
        1776 + carried 512 ≤ cmdArg (entryOf 0x40 (4096 * 2 ^ 64)) 24 8 ∧ ((sR 0x40 0).w.hbmRead 0 64 1568 .ok).1.code = 0 ∧
        ((sR 0x40 0).w.readSpans 0 [(0, 512)]).1.code = 0) ∧
      ((sR 0x41 0).w.Runs cr 0x41 0 (entryOf 0x41 0) ∧ (∀ c, c ∈ (sR 0x41 0).w.ctxsOf 0 0 → ((sR 0x41 0).w.ctx c).st = .loaded) ∧
        (sR 0x41 0).w.mapped 0 0 3392 = true ∧ ((sR 0x41 0).w.hbmRead 0 0 3392 .ok).1.code = 0) := by
  unfold Work.Runs
  decide +kernel
theorem test_meets_RebuildResults :
    (let e := entryOf 0x42 (1 * 2 ^ 64)
     (sR 0x42 (1 * 2 ^ 64)).w.Runs cr 0x42 0 e ∧ ((sR 0x42 0).w.job 0 0).bind Job.resil = some resil0 ∧ cmdArg e 16 8 % 64 = 0 ∧
       (BitVec.ofNat 32 (cmdArg e 24 4)).getLsbD (cmdArg e 28 1) = true ∧ cmdArg e 28 1 < resil0.codeK + resil0.codeM ∧
       (sR 0x42 0).w.mapped 0 0 64 = true ∧ (∀ j, j < 4 → ((sR 0x42 0).w.rebuildSlot j).st ≠ 1 ∧ ((sR 0x42 0).w.rebuildSlot j).st ≠ 2) ∧
       symbolsIn 1 ≤ resil0.codeM ∧ resil0.codeM < symbolsIn 3) ∧
      (let b : RebuildSlot := { RebuildSlot.zero with st := 1, lost := 1, total := 1 }
       b.st = 1 ∧ ((sR 0x42 0).w.job b.q b.job).isSome = true ∧
         ((sR 0x42 0).w.putPieces 0 ((sR 0x42 0).w.rebuildParts b { jobF with weights := [⟨0, 0, 8192, 512⟩] } resil0) 0
           (List.replicate 512 1)).1 = 0) ∧
      ((sR 0x42 0).w.rebuildSlot 0).st ≠ 1 := by
  unfold Work.Runs
  decide +kernel
theorem test_meets_TenantRemovalResults :
    ((sR 0x52 0).w.startCmd cr 0x52 = some (entryOf 0x52 0) ∧ cmdPart (entryOf 0x52 0) % 8 = 0 ∧ ((sR 0x52 0).w.part 0).dyke.valid = true ∧
      ((sR 0x52 0).w.part 0).removal = 0 ∧ Part.zero.dyke.valid = false) ∧
      (let c : Ctl := { Ctl.reset with scrub := ⟨0, 1, 0⟩ }
       c.scrub.active.getLsbD 0 = true ∧ c.dyke.rebooting = false ∧ Ctl.reset.scrub.active.getLsbD 0 = false) ∧
      (let s := sR 0x53 0
       let t : State := { s with w := s.w.updPart 0 fun p => { p with removal := 3, graceEnd := some 0 } }
       t.w.startCmd cr 0x53 = some (entryOf 0x53 0) ∧ (t.w.part 0).dyke.valid = true ∧ (t.w.part 0).removal = 3 ∧
         (t.w.part 0).graceEnd = some 0 ∧ (0 : Word).toNat ≤ t.w.time.ftime.toNat ∧ Part.zero.graceEnd = none ∧
         t.w.time.ftime.toNat < (5 : Word).toNat ∧ (t.w.advance 5).isSome = true ∧ t.w.advance 16000 = none) := by decide +kernel
/-- The commands may start; a manifest of zeros is refused, and the fuse is open or burned. What a manifest's signature verifies as is a
value of Config. -/
theorem test_meets_DeviceCommandResults :
    (∀ op, op ∈ [0x50, 0x51, 0x54] → (sR op 0).w.startCmd cr op = some (entryOf op 0)) ∧ Ctl.reset.manBusy = false ∧
      ({ Ctl.reset with dyke := { Ctl.reset.dyke with rebooting := true } } : Ctl).manBusy = true ∧
      Ctl.reset.manCause [] ≠ 0 ∧ Ctl.reset.fuse.operator = none ∧ Ctl.reset.fuse.debugUnlocked = false ∧
      ({ Ctl.reset.fuse with operator := some [] } : FuseSt).operator.isSome = true ∧
      ({ Ctl.reset.fuse with debugUnlocked := true } : FuseSt).debugUnlocked = true := by decide +kernel
/-- The machine with the partition 0, which owns virtual function 1 of port 0, and a state of the functions' responder. -/
def sS (x : Spdm) (f : Nat) : State :=
  let s := up (withHbm 0 .empty)
  { s with w := s.w.updPart 0 fun p => { p with dyke := { p.dyke with vfs0 := 2 } }, ctl := { s.ctl with spdm := [(f, x)] } }
/-- A virtual function. -/
def vf : Fn := ⟨0, 1⟩
theorem test_meets_SessionResults :
    let on : Spdm := { Spdm.zero with version := true, caps := true, algs := true, psk := some [1], session := some [2] }
    (sS on 1).doeOpen vf = true ∧ ((sS on 1).ctl.spdmOf vf).version = true ∧ ((sS on 1).ctl.spdmOf vf).algs = true ∧
      ((sS on 1).ctl.spdmOf vf).psk = some [1] ∧ ((sS on 1).ctl.spdmOf vf).session = some [2] ∧
      ((sS on 1).ctl.spdmOf vf).established = false ∧ Spdm.zero.version = false ∧ Spdm.zero.caps = false ∧ Spdm.zero.psk = none ∧
      Spdm.zero.session = none ∧ ({ on with established := true } : Spdm).established = true ∧ (sS on 1).w.partOf vf = some 0 ∧
      (sS on 0).w.partOf pf = none ∧ (List.replicate 1568 (0 : Byte)).length = 1568 :=
  ⟨by decide, by decide, by decide, by decide, by decide, by decide, rfl, rfl, rfl, rfl, rfl, by decide, by decide, List.length_replicate⟩
theorem test_meets_ReportAndStreamResults :
    let on : Spdm := { Spdm.zero with established := true }
    let s := sS on 1
    s.doeOpen vf = true ∧ s.ctl.dyke.rebooting = false ∧ s.reportPart vf 0 = some 0 ∧ (sS on 0).reportPart pf 9 = none ∧ s.ctl.xmss.halted = false ∧
      ({ s.ctl.dyke with rebooting := true } : DykeSt).rebooting = true ∧ (s.ctl.spdmOf vf).established = true ∧ (7 : Byte).toNat < 8 ∧
      (({ IdeStream.zero with key0 := some [], active := some false } : IdeStream).key0).isSome = true ∧ IdeStream.zero.active ≠ some true ∧
      vf.fn ≠ 0 ∧ ({ TdispIf.zero with st := .run } : TdispIf).st = .run ∧ ({ TdispIf.zero with st := .configLocked } : TdispIf).st = .configLocked ∧
      TdispIf.zero.st ≠ .configLocked ∧ ({ TdispIf.zero with st := .configUnlocked } : TdispIf).st = .configUnlocked ∧
      ({ IdeStream.zero with active := some true } : IdeStream).active.isSome = true ∧
      ({ s with ctl := { s.ctl with pins := { s.ctl.pins with perstLow := true } } } : State).doeOpen vf = false ∧
      ({ s.ctl.xmss with nextIndex := 0, reservedEnd := 4096 } : XmssSt).reserved.halted = false := by decide
/-- A block of leaf indices that is used up: whether the record of the next is written is a value of Config. -/
theorem test_meets_report_block (x : XmssSt) :
    ({ x with nextIndex := 7, reservedEnd := 7 } : XmssSt).reserved.halted = !Config.blockRecorded x.nextBlock.toNat := rfl
theorem test_meets_ClearRegisterResults :
    let s := withHbm 0 .empty
    (1 : Word).getLsbD 0 = true ∧ pf.fn = 0 ∧ (s.w.slice 0).gated = false ∧ (s.w.slice 0).mappedOut = false ∧
      s.ctl.scrub.active.getLsbD 0 = false ∧ (2 : Word).getLsbD 1 = true ∧ SliceSt.zero.gated = true := by decide
/-- A reference that has announced a time, a drained unit, a declared sluice, an enabled port, a commit of tables, and a frame to score. -/
theorem test_meets_ControlRegisterResults :
    (let t : TimeSt := { TimeSt.zero with refHolder := true, periodAt := 100000000 }
     (BitVec.twoPow 64 63).getLsbD 63 = true ∧ t.refHolder = true ∧ t.ftime.toNat + 100000000 ≤ t.periodAt.toNat ∧ (0 : Word).getLsbD 63 = false ∧
       TimeSt.zero.periodAt.toNat < TimeSt.zero.ftime.toNat + 100000000 ∧ t.latch = none ∧ vf.fn ≠ 0) ∧
      ((StatusUnit.port 0) ≠ .fence ∧ s0.stillDrains (.port 0) = false) ∧
      (let s := withHbm 0 .empty
       let s1 : State := { s with w := { s.w.updPart 0 fun p => { p with dyke := { p.dyke with sluices := 1 } } with
         sluices := [(0, { Sluice.zero with owners := [0] })] } }
       s1.w.sluicePart 0 = some 0 ∧ s1.seesSluice pf 0 = true ∧ (s1.w.sluice 0).declared = true) ∧
      (Port.zero.enable = true ∧ ({ Port.zero with enable := false } : Port).enable = false ∧ (0x200 : Word).getLsbD 9 = true ∧
        ({ Port.zero with commitPending := true } : Port).commitPending = true ∧ Port.zero.commitPending = false) ∧
      (({ s0.w with time := { s0.w.time with ftime := 64 * 16000 } } : Work).frame % 64 = 0 ∧
        s0.ctl.health.frame ≠ BitVec.ofNat 32 ({ s0.w with time := { s0.w.time with ftime := 64 * 16000 } } : Work).frame) := by decide
theorem test_meets_RegisterReadsWhatIsWritten :
    pf.fn = 0 ∧ (31 : Nat) < 32 ∧ (255 : Nat) < 256 ∧ (1023 : Nat) < 1024 ∧ (63 : Nat) < 64 ∧ (4095 : Nat) < 4096 ∧ (15 : Nat) < 16 ∧
      ((4 : Nat) ≠ 8 ∨ (2 : BitVec 26).toNat % 8 ≠ 0) ∧ ((4 : Nat) ≠ 4 ∨ (2 : BitVec 26).toNat % 4 ≠ 0) := by decide
/-- The machine in bring-up mode, with stack 0 present. -/
def sTE (t : TestEngine) : State :=
  let s := withHbm 0 .empty
  { s with w := s.w.updStack 0 fun x => { x with te := t }, ctl := { s.ctl with boot := { s.ctl.boot with bringup := true } } }
theorem test_meets_TestEngineResults :
    let s := sTE .zero
    s.ctl.boot.bringup = true ∧ s.ctl.rwb = true ∧ s.stackWritable pf 0 = true ∧ (s.w.stack 0).te.busy = false ∧ (s.w.stack 0).present = true ∧
      (0x8000 : BitVec 16) ≠ 0 ∧ (0x8000000000001F03 : Word).getLsbD 63 = true ∧ (0x8000000000001F03 : Word).toNat % 256 = 3 ∧
      (0x8000000000001F03 : Word).toNat / 256 % 256 < 32 ∧ (0x800000000000FF05 : Word).toNat % 256 = 5 ∧
      (0x8000000000001F06 : Word).toNat % 256 = 6 ∧ (0x8000000000001F07 : Word).toNat % 256 = 7 ∧ (0x8000000000001F08 : Word).toNat % 256 = 8 ∧
      (0x8000000000001F04 : Word).toNat % 256 = 4 ∧ (0x8000000000000000 : Word).toNat % 256 = 0 ∧ 3 ≤ ({ TestEngine.zero with arg0 := -1 } : TestEngine).sid ∧ (0x800000000050FF02 : Word).toNat / 2 ^ 20 % 16 ≤ 5 ∧
      (0x800000000050FF02 : Word).toNat / 256 % 256 = 0xFF ∧ TestEngine.zero.row ≤ TestEngine.zero.rowEnd ∧ TestEngine.zero.sid < 3 ∧
      32 ≤ (0x8000000000002003 : Word).toNat / 256 % 256 ∧ 9 < (0x800000000000000A : Word).toNat % 256 ∧
      ({ TestEngine.zero with raw := [(0, 1)] } : TestEngine).raw.find? (fun e => decide (e.1 = 0)) = some (0, 1) ∧
      ((sTE { TestEngine.zero with busy := true }).w.stack 0).te.busy = true := by decide
theorem test_meets_BoardPortResults :
    let b := Ctl.reset.boot
    pf.fn = 0 ∧ vf.fn ≠ 0 ∧ (1 : Word).getLsbD 0 = true ∧ (2 : Word).getLsbD 1 = true ∧ (1 : Word).getLsbD 1 = false ∧ b.bringup = false ∧
      Ctl.reset.dyke.rebooting = false ∧ Ctl.reset.pins.off = false ∧ (List.replicate 64 (0 : Byte)).length = 64 ∧ ({ b with bringup := true } : BootSt).bringup = true ∧
      ({ Ctl.reset with boot := { b with phase := 4 }, pwr := { Ctl.reset.pwr with mainMv := 12000 } } : Ctl).bmcOpen = true ∧
      ({ Ctl.reset with pins := { Ctl.reset.pins with off := true } } : Ctl).bmcOpen = false ∧
      Ctl.reset.pins.perstLow = false ∧ Ctl.reset.fuse.debugUnlocked = false ∧
      ({ Ctl.reset.fuse with debugUnlocked := true } : FuseSt).debugUnlocked = true ∧ Ctl.reset.dyke.locked = false := by decide
/-- A token opens the fuses that hold its digest. -/
theorem test_token (token : List Byte) :
    shake256 token 32 = ({ Ctl.reset.fuse with debugHash := shake256 token 32 } : FuseSt).debugHash := rfl
theorem test_meets_SupplyHeatAndResetPinResults :
    ((10999 : BitVec 16).toNat < 11000 ∧ 10400 < (10999 : BitVec 16).toNat ∧ 11000 ≤ (11000 : BitVec 16).toNat ∧ (10400 : BitVec 16).toNat ≤ 10400 ∧
      11400 ≤ (11400 : BitVec 16).toNat ∧ 95 ≤ (95 : Byte).toNat ∧ (94 : Byte).toNat < 95) ∧
      (let p : PwrSt := { Ctl.reset.pwr with dip := true, dipTimer := true, returnPending := true, throttle := true }
       p.dip = true ∧ p.dipTimer = true ∧ TimeSt.zero.ftime.toNat % 16000 + 15999 < 16000 ∧ p.returnPending = true ∧
         p.returnAt.toNat ≤ TimeSt.zero.ftime.toNat ∧ p.throttle = true ∧ Ctl.reset.pwr.throttle = false ∧ Ctl.reset.pwr.returnPending = false) ∧
      (Ctl.reset.boot.phase = 0 ∧ Ctl.reset.pins.thermtrip = false ∧ Ctl.reset.pins.off = false ∧ Ctl.reset.pins.heldSupply = false ∧
        Ctl.reset.pins.pwrgood = true) ∧
      (let p : PinSt := { Ctl.reset.pins with perstLow := true, pwrgood := false, heldSupply := true }
       p.heldSupply = true ∧ p.pwrgood = false ∧ p.perstLow = true ∧ p.released = false ∧ ({ p with off := true } : PinSt).off = true) ∧
      ({ Ctl.reset.boot with phase := 5 } : BootSt).phase ≠ 0 := by decide
/-- A machine whose port 0 is in a state, assigned to partition 0, with its laser socket's state. -/
def sLk (po : Port) : State :=
  let s := sP k0
  { s with w := { s.w with fab := { s.w.fab with ports := [(0, po)] } } }
/-- An active port. -/
def act : Port :=
  { Port.zero with st := 5, assigned := true, good := 0x1FF, lambdas := 0x0FF, txLambdas := 0x0FF, width := 8, peer := 1, probeSent := some 7
                   heard := some (3, 1) }
theorem test_meets_ClockAndDieResults :
    Ctl.reset.pins.frefclk = true ∧ ({ Ctl.reset.pins with frefclk := false } : PinSt).frefclk = false ∧ s0.w.isFenced (portUnit 0) = false ∧
      (let d : DieSt := { Ctl.reset.dies with standbyReady := true }
       d.otherHeld = false ∧ d.standbyReady = true) ∧
      (Ctl.reset.dyke.rebooting = false ∧ (∀ q, (s0.w.part q).removal ≠ 2) ∧ (let c := { Ctl.reset with dyke := { Ctl.reset.dyke with rebooting := true, next := [] } }
        c.dyke.rebooting = true ∧ c.manCause c.dyke.next ≠ 0)) ∧
      (let t : TimeSt := { TimeSt.zero with refHolder := true, ppsSet := true }
       t.refHolder = true ∧ t.ftime.toNat % 16000 + 15999 < 16000 ∧ t.ppsSet = true ∧ TimeSt.zero.ppsSet = false ∧ t.st = 0) ∧
      ({ TimeSt.zero with st := 1 } : TimeSt).st = 1 ∧ TimeSt.zero.refHolder = false ∧
      (act.isActive = true ∧ act.probeSent = some 7 ∧ TimeSt.zero.upstream.toNat = 0 ∧ act.heard.isSome = true ∧ Port.zero.isActive = false ∧
        Port.zero.heard = none ∧ TimeSt.zero.refHolder = false) := by decide +kernel
/-- A socket in each of the states that a row needs; the right answer of a module is the one that the rule gives. -/
theorem test_meets_LaserModuleResults :
    (Laser.zero.present = false ∧ 4 ≤ (4 : BitVec 3).toNat ∧ (0 : BitVec 3).toNat < 4) ∧
      (let l : Laser := { Laser.zero with present := true, st := 1 }
       l.st = 1 ∧ l.authed = false ∧ l.tries < 2 ∧ ({ l with authed := true } : Laser).authed = true) ∧
      (let l : Laser := { Laser.zero with present := true, st := 2, hourly := true, tries := 2, biasNom := 1 }
       l.st = 2 ∧ l.hourly = true ∧ 2 ≤ l.tries ∧ l.biasNom ≠ 0 ∧ l.busFails < 2 ∧ 2 ≤ ({ l with busFails := 2 } : Laser).busFails ∧ l.present = true ∧ ({ l with hourly := false, st := 1 } : Laser).hourly = false) ∧
      (let l : Laser := Laser.zero
       ¬((l.st = 1 ∧ l.authed = false) ∨ (l.st = 2 ∧ l.hourly = true)) ∧ ¬(l.st = 1 ∧ l.authed = true) ∧ l.st ≠ 2 ∧ ¬(l.st = 1 ∨ l.st = 2 ∨ l.st = 4)) ∧
      (∀ (n : BitVec 128) (m : ModuleMap), moduleAnswer n m = moduleAnswer n m) ∧
      (2 : Byte).getLsbD 1 = true ∧ (4 : Byte).getLsbD 0 = false ∧ (4 : Byte).getLsbD 1 = false ∧ pf.fn = 0 ∧ (0x100 : Word).getLsbD 8 = true :=
  ⟨by decide, by decide, by decide, by decide, fun _ _ => rfl, by decide⟩
/-- A flit with its CRC. -/
def fl (seq : BitVec 16) (typ : BitVec 4) : Flit := mkFlit typ seq 0 0 false 0 0 []
/-- A flit of which a codeword was not corrected. -/
def bad (seq : BitVec 16) (typ : BitVec 4) : Flit := { fl seq typ with codewords := [(16, true)] }
theorem good_of (f : Flit) (h : f.codewords = []) (c : BitVec 64) (hc : c = crc64 (flitFront f)) : flitGood { f with crc := c } = true := by
  have e : flitFront { f with crc := c } = flitFront f := rfl
  unfold flitGood
  rw [e]
  simp only [flitFailed, h, List.any_nil, Bool.not_false, Bool.true_and, decide_eq_true_eq]
  exact hc
theorem good_fl (seq : BitVec 16) (typ : BitVec 4) : flitGood (fl seq typ) = true := good_of ⟨seq, 0, 0, false, 0, 0, typ, [], 0, []⟩ rfl _ rfl
theorem test_meets_LinkFlitResults :
    (∀ typ : BitVec 4, typ = 0 ∨ typ = 1 ∨ typ = 2 → unlisted (fl 0 typ) = false ∧ (fl 0 typ).typ = typ) ∧
      (act.txq = [] ∧ flitGood (bad 0 0) = false ∧ unlisted (fl 0 4) = true) ∧
      ((act.st = 3 ∨ act.st = 4 ∨ act.st = 5) ∧ act.longHaul = false ∧ (fl 0 2).seq = act.rxNext.setWidth 16 ∧
        (fl 1 2).seq ≠ act.rxNext.setWidth 16 ∧ ({ act with longHaul := true } : Port).longHaul = true ∧ (fl 0 1).typ ≠ 2 ∧
        ¬(Port.zero.st = 3 ∨ Port.zero.st = 4 ∨ Port.zero.st = 5) ∧ act.owed = []) ∧
      (act.isActive = true ∧ act.txLambdas.getLsbD 0 = true ∧ act.lambdas.getLsbD 0 = true ∧ Port.zero.isActive = false ∧
        (act.txLambdas.getLsbD 8 = false ∧ act.txBad.getLsbD 8 = false ∧ ∀ k : Fin 9, k.val < 8 → act.txLambdas.getLsbD k.val = true) ∧
        (∀ k : Fin 9, ({ act with txLambdas := 0x1FF } : Port).txLambdas.getLsbD k.val = true) ∧
        (act.good &&& ~~~(lamBit 0)) &&& ~~~act.lambdas ≠ 0 ∧
        (({ act with good := 0x0FF } : Port).good &&& ~~~(lamBit 0)) &&& ~~~act.lambdas = 0) ∧
      CtlOut.spare 0 3 ∈ ({ act with ctl := [.spare 0 3] } : Port).ctl := by
  refine ⟨?_, by decide, by decide, by decide, by decide⟩
  rintro typ (rfl | rfl | rfl) <;> decide
theorem test_meets_PortStateResults :
    (let po : Port := { Port.zero with assigned := true }
     po.st ≤ 1 ∧ 4 ≤ lamCount 0x00F ∧ lamCount 0x007 < 4 ∧ ((sLk po).w.updPort 0 fun y => { y with light := 0x00F }).portMayStart 0 = true ∧
       po.st ≠ 5 ∧ act.st = 5 ∧ ({ Port.zero with enable := false } : Port).st ≤ 1 ∧
       ((sLk { po with enable := false }).w.updPort 0 fun y => { y with light := 0x00F }).portMayStart 0 = false ∧
       (sLk { po with st := 6 }).w.portMayStart 0 = true ∧ (sLk { po with st := 6, enable := false }).w.portMayStart 0 = false) ∧
      (1 < act.st ∧ ({ act with st := 2 } : Port).st = 2 ∧ ({ act with st := 6 } : Port).st = 6 ∧ ({ act with st := 7 } : Port).st = 7 ∧
        act.st ≠ 2 ∧ act.st ≠ 6 ∧ act.st ≠ 7 ∧ act.isActive = true ∧ Port.zero.isActive = false ∧
        CtlOut.nak 5 ∈ ({ act with ctl := [.nak 5] } : Port).ctl) ∧ (∀ e, CtlOut.nak e ∉ act.ctl) :=
  ⟨by decide +kernel, by decide, fun _ h => by cases h⟩
/-- A hello that echoes no nonce, and one that echoes a wrong one. -/
def hello (echo : Byte) : HelloMsg := ⟨1, 0, 0, 0, List.replicate 16 1, List.replicate 16 echo, [], [], []⟩
/-- A wrong echo is refused whatever its signature verifies as. -/
theorem test_hello_echo (w : Work) (h : HelloMsg) (hn : h.peerNonce ≠ leBytes 16 (w.port 0).nonce.toNat) : w.helloCheck 0 h ≠ 0 := by
  unfold Work.helloCheck
  by_cases hv : (Config.xmssVerify h.identity (helloBody h) h.signature && endorsementOk h.identity h.endorsement) = true
  · simp [hv, hn]
  · simp [hv]
/-- An exchange with the port's digest, one with another, and a proof that is not the port's: whether a signature verifies is a value of Config. -/
theorem test_meets_LinkKeyResults :
    (Ctl.reset.xmss.halted = false ∧ Ctl.reset.fuse.debugUnlocked = false ∧ ({ act with st := 3 } : Port).st = 3 ∧ act.st ≠ 3 ∧
      ({ Ctl.reset.xmss with nextIndex := 7, reservedEnd := 4096 } : XmssSt).reserved.halted = false ∧
      ({ Ctl.reset.xmss with nextIndex := 7, reservedEnd := 4096 } : XmssSt).used.reserved.halted = false ∧
      ({ Ctl.reset.xmss with nextIndex := 7, reservedEnd := 4096, halted := true } : XmssSt).reserved.halted = true) ∧
      (((hello 0).peerNonce.all fun b => decide (b = 0)) = true ∧ act.sentSigned = false ∧
        ((hello 5).peerNonce.all fun b => decide (b = 0)) = false ∧ (hello 5).peerNonce ≠ leBytes 16 ((sLk act).w.port 0).nonce.toNat) ∧
      ((act.st = 4 ∨ act.st = 5) ∧ ¬(({ act with st := 3 } : Port).st = 4 ∨ ({ act with st := 3 } : Port).st = 5) ∧
        (sLk { act with st := 4, keyPhase := .offered, kem := some 1 }).w.initiator 0 = true ∧
        ¬((sLk act).w.initiator 0 = true ∧ act.keyPhase = .offered) ∧ act.keyPhase = .idle ∧ act.kem = none ∧ act.newKey = none ∧
        ({ act with newKey := some [] } : Port).newKey = some [] ∧ act.isActive = true ∧ (1 : Word).getLsbD 0 = true ∧ (2 : Word).getLsbD 0 = false) ∧
      (let po : Port := { act with intervalS := 60 }
       po.exchAt.toNat + po.intervalS.toNat * 1000000000 ≤ (60000000000 : Word).toNat) ∧
      (let po : Port := { act with txFlit := BitVec.ofNat 64 (2 ^ 40), intervalS := 60 }
       po.keyFirst.toNat + 2 ^ 40 ≤ po.txFlit.toNat ∧ ¬(po.exchAt.toNat + po.intervalS.toNat * 1000000000 ≤ (59999999999 : Word).toNat)) ∧
      (∀ t proof : List Byte, t ++ [0] ≠ t ∧ proof ++ [0] ≠ proof) :=
  ⟨by decide, by decide, by decide, by decide, by decide, fun t p => ⟨by simp, by simp⟩⟩
/-- A packet for this device, of a job, by KIND. -/
def pk (kind : Byte) (addr : Word) (payload : List Byte) : Pkt := { mkPkt 0 0 kind addr payload with src := 1 }
/-- A port of partition 0. -/
def pa : Port := { Port.zero with st := 5, assigned := true, linkKey := some [] }
/-- A packet as port 0 of a machine receives it, with its tag. -/
def rx (w : Work) (k : Pkt) : RxPkt := ⟨k, 0, 0, pktTag [] (!w.initiator 0) ((w.port 0).number ⟨k, 0, 0, []⟩) k⟩
/-- What a packet by port 0 finds, with nothing held behind it. -/
def inOrder0 (w : Work) (k : Pkt) : Work :=
  ((w.takeRoom 0 (rx w k)).updPort 0 fun y => y.noteRx (rx w k)).setRecv (pktFlowIn k 0) { w.recvFlow (pktFlowIn k 0) with up := 0 }
/-- The tag of a packet by port 0 verifies. -/
theorem tag_of (w : Work) (k : Pkt) (hp : w.port 0 = pa) : w.tagOk (0 : Fin 32).val (rx w k) = true := by
  have hn : (w.port 0).number (rx w k) = (w.port 0).number ⟨k, 0, 0, []⟩ := rfl
  have hk : ∀ n : Word, (w.port 0).rxKeys n = some [] := by
    intro n
    rw [hp]
    unfold Port.rxKeys
    exact if_pos (Nat.zero_le _)
  unfold Work.tagOk
  simp only [show ((0 : Fin 32).val) = 0 from rfl, hk, hn]
  exact decide_eq_true rfl
/-- A packet by port 0, whose tag verifies, comes. -/
theorem comes (w : Work) (k : Pkt) (hl : w.fab.loop = []) (hp : w.port 0 = pa) :
    w.Comes 0 (rx w k) 0 ((w.takeRoom 0 (rx w k)).updPort 0 fun y => y.noteRx (rx w k)) := by
  refine Or.inr ⟨?_, ?_, ?_, ?_, ?_, ?_, rfl⟩
  · unfold Work.looped
    rw [hl]
    rfl
  · rw [show ((0 : Fin 32).val) = 0 from rfl, hp]
    rfl
  · rw [show ((0 : Fin 32).val) = 0 from rfl, hp]
    rfl
  · rw [show ((0 : Fin 32).val) = 0 from rfl, hp]
    rfl
  · exact tag_of w k hp
  · rw [show ((0 : Fin 32).val) = 0 from rfl, hp]
    rfl
/-- A packet at E comes in order. -/
theorem in_order (w : Work) (k : Pkt) (hl : w.fab.loop = []) (hp : w.port 0 = pa)
    (hk : k.mcast = false ∧ k.dest = w.time.address ∧ w.recvFlow (pktFlowIn k 0) = .fresh ∧ k.seq = RecvFlow.fresh.e) :
    w.InOrder 0 (rx w k) 0 (inOrder0 w k) := by
  obtain ⟨hm, hd, hf, hs⟩ := hk
  refine ⟨hm, hd, ?_, ?_, ?_, _, comes w k hl hp, rfl⟩ <;> show _ = _ <;> rw [show (rx w k).pkt = k from rfl, hf]
  · rfl
  · rfl
  · exact hs
/-- A packet on its way within the device comes too. -/
theorem test_comes_looped (k : Pkt) (a : RxPkt) (h : a.pkt = k) :
    ({ s0.w with fab := { s0.w.fab with loop := [(0, k)] } } : Work).Comes 5 a 0
      (({ s0.w with fab := { s0.w.fab with loop := [(0, k)] } } : Work).unloop 0 k) := by
  subst h
  refine Or.inl ⟨?_, rfl⟩
  simp [Work.looped]
/-- A machine with a fetch of 64 bytes that waits for its reply. -/
def sRead (n : Nat) : State :=
  let s := sI [inst .fabGet fS .remote] .none k0
  { s with w := { s.w with fab := { s.w.fab with ports := [(0, pa)], reads := [⟨0, 1, c0, 0, n, []⟩] } } }
/-- The machine with one packet in its reorder buffer. -/
def sEarly (b : List Byte) : State :=
  { sLk pa with w := { (sLk pa).w with fab := { (sLk pa).w.fab with recv :=
    [(⟨0, 1, false, false⟩, { RecvFlow.fresh with early := [⟨0, { pk 1 0 b with seq := 1 }, none⟩] })] } } }
/-- The reorder buffer with as many bytes in it as it holds. -/
theorem test_no_room (k : Pkt) (b : List Byte) (hb : b.length = 8388608) : (sEarly b).w.reorderRoom 0 k = false := by
  have h : (sEarly b).w.reorderBytes 0 = 0 + 32 + b.length := by
    have hr : (sEarly b).w.fab.recv =
        [(⟨0, 1, false, false⟩, { RecvFlow.fresh with early := [⟨0, { pk 1 0 b with seq := 1 }, none⟩] })] := rfl
    have hp : ((sEarly b).w.port 0).longHaul = false := rfl
    unfold Work.reorderBytes
    rw [hr]
    simp [hp, pk, mkPkt]
  have hl : ((sEarly b).w.port 0).longHaul = false := rfl
  unfold Work.reorderRoom
  rw [show (0 : Fin 32).val = 0 from rfl, hl, show 0 / 16 = 0 from rfl, h, hb, Bool.false_or]
  exact decide_eq_false (by omega)
theorem test_meets_PacketDeliveryResults :
    let s := sLk pa
    let k := pk 0x01 0 (List.replicate 64 1)
    (s.w.InOrder 0 (rx s.w k) 0 (inOrder0 s.w k) ∧ s.w.InOrder 0 (rx s.w { k with job := 5 }) 0 (inOrder0 s.w { k with job := 5 })) ∧
      (s.w.jobLoaded 0 0 = true ∧ s.w.jobLoaded 0 5 = false ∧ s.w.mapped 0 0 64 = true ∧
      s.w.mapped 0 (2 ^ 22) 64 = false ∧ s.w.writeRole 0 0 64 ≠ .current ∧ s.w.mustHold 0 0 64 = false ∧ (sW k0 0 0x10).w.writeRole 0 0 64 = .current ∧
      (sW { k0 with version := some true } 0 0x10).w.mustHold 0 8192 64 = true ∧ (sW { k0 with version := some true } 0 0x10).w.writeRole 0 8192 64 ≠ .current ∧
      leAt (pk 2 0 [0, 0, 0, 0, 64, 0, 0, 0]).payload 4 4 = 64) ∧
      ((sRead 64).w.fab.reads.find? (fun r => decide (r.tag = (0 : Word).setWidth 32 ∧ r.dev = 1)) = some ⟨0, 1, c0, 0, 64, []⟩ ∧
        (0 : Word).toNat / 2 ^ 32 % 2 ^ 24 = 0 ∧ 8 < 64 ∧ 64 ≤ (List.replicate 64 (1 : Byte)).length ∧
        (sRead 64).w.instr c0 0 = some (inst .fabGet fS .remote) ∧
        ((sRead 64).w.ctx c0).range (inst .fabGet fS .remote).vd 64 = .ok (.loc 0) ∧ (BitVec.twoPow 64 33).toNat / 2 ^ 32 % 2 ^ 24 ≠ 0 ∧
        ({ pk 3 0 [] with status := 0x31 } : Pkt).status ≠ 0 ∧ s.w.fab.reads = []) ∧
      (let f : RecvFlow := { s.w.recvFlow (pktFlowIn k 0) with e := 3 }
       k.seq.toNat < f.e.toNat ∧ ({ f with heldWrite := some (0, k) } : RecvFlow).heldWrite.isSome = true ∧ f.e.toNat < (5 : Word).toNat ∧
         (5 : Word).toNat < f.e.toNat + 4096 ∧ f.early = [] ∧
         s.w.reorderRoom 0 k = true ∧ f.e.toNat + 4096 ≤ (4099 : Word).toNat) :=
  ⟨⟨in_order _ _ rfl rfl ⟨rfl, rfl, rfl, rfl⟩, in_order _ _ rfl rfl ⟨rfl, rfl, rfl, rfl⟩⟩, by decide +kernel, by decide +kernel, by decide⟩
/-- A packet that waits for its acknowledgement. -/
def ret (seq : Word) : Retained := ⟨{ pk 1 0 [] with seq := seq }, .device, none, 0, [], []⟩
/-- A packet whose flits the link lost, and one without a key to verify it. -/
theorem test_lost_and_unverified (k : Pkt) (b : List Byte) :
    ({ pa with cut := [(0, BitVec.ofNat 64 (2 ^ 20))] } : Port).cuts ⟨pk 1 0 [], 0, 0, []⟩ = true ∧
      (sLk { pa with linkKey := none }).w.tagOk 0 ⟨k, 0, 0, b⟩ = false := ⟨by decide +kernel, rfl⟩
theorem test_meets_FlowAndForwardResults :
    let s := sLk pa
    let fs : SendFlow := ⟨2, [ret 0, ret 1], 8, false⟩
    ((pk 4 0 []).kind = 0x04 ∧ (pk 4 0 []).mcast = false ∧ (pk 4 0 []).dest = s.w.time.address ∧ (pk 5 0 []).kind = 0x05 ∧ (pk 9 0 []).kind = 0x09) ∧
      s.w.Comes 0 (rx s.w (pk 4 0 [])) 0 ((s.w.takeRoom 0 (rx s.w (pk 4 0 []))).updPort 0 fun y => y.noteRx (rx s.w (pk 4 0 []))) ∧
      (fs.held = false ∧ ({ fs with held := true } : SendFlow).held = true ∧ fs.retained ≠ [] ∧ 8 ≤ fs.resends ∧
        ({ fs with resends := 7 } : SendFlow).resends < 8 ∧ ({ fs with retained := [] } : SendFlow).retained = []) ∧
      (let fr := s.w.recvFlow ⟨0, 1, true, false⟩
       fr.delivered = 0 ∧ fr.nakDue = false ∧ ({ fr with delivered := 1, nakDue := true } : RecvFlow).delivered ≠ 0) ∧
      s.w.red.ctxs = [] ∧ (pa.isActive = true ∧ Port.zero.isActive = false ∧ pa.assigned = true ∧ pa.graceEnd = none ∧ pa.cut = [] ∧
        (∃ e : Word, some (1 : Word) = some e ∧ s.w.time.ftime.toNat < e.toNat)) ∧
      (({ pk 1 0 [] with dest := 1 } : Pkt).dest ≠ s.w.time.address ∧ (s.w.route 0 1).valid = true ∧ (s.w.route 0 2).valid = false ∧
        (s.w.choosePort 0 1 true 1).isSome = true ∧ (sF kM).w.port 0 ≠ pa ∧ 7 ≤ (7 : BitVec 4).toNat ∧ (6 : BitVec 4).toNat < 7) ∧
      (let p1 : Port := { pa with width := 4, active := [(0, ⟨true, 0, 20⟩)], slotQ := [(0, [⟨pk 1 0 [], none⟩])] }
       p1.slotQ.get [] 0 = [⟨pk 1 0 [], none⟩] ∧ p1.window 0 0 = some (0, 10) ∧ Port.zero.window 0 0 = none ∧ (s.w.part 0).paused = false ∧
         ({ Part.zero with paused := true } : Part).paused = true ∧
         0 + p1.charge (pk 1 0 []) ≤ 10 ∧ p1.replayRoom (pk 1 0 []) = true ∧ ¬(10 + p1.charge (pk 1 0 []) ≤ 10) ∧
         0 < 10 ∧ Port.zero.slotQ.get [] 0 = []) :=
  ⟨by decide, comes _ _ rfl rfl, by decide, by decide, by decide,
    ⟨by decide, by decide, by decide, by decide, by decide, ⟨1, rfl, by decide⟩⟩, by decide +kernel, by decide +kernel⟩
/-- A job with a commit sluice and a resilience section with another second home. -/
def jobD : Job := { jobC with resil := some { resil0 with home2 := 7 } }
/-- The machine with that job, a declared sluice 0, and a commit state. -/
def sC (cs : CommitSt) : State :=
  let s := sLk pa
  { s with w := { s.w.updPart 0 fun p => { p with dyke := { p.dyke with sluices := 1 } } with
      jobs := [(0, some jobD)], sluices := [(0, { Sluice.zero with owners := [0], target := 1 })], commits := [(0, cs)] } }
/-- The machine as the second home of the job of a commit sluice whose home is device 9. -/
def sHome2 (cs : CommitSt) : State :=
  { sC cs with w := { (sC cs).w with sluices := [(0, { Sluice.zero with owners := [0], fabric := true, home := 9, target := 1 })],
                                       time := { TimeSt.zero with address := 7 } } }
/-- A decision of step 0. -/
def dec (ok : Bool) : Decision := ⟨0, 0, ok, if ok then 0 else 0x65⟩
/-- A code entry: group 0, symbol 2, parities at 4096 and 8192, members 1, 2 and the device itself. -/
def codePlain : List Byte := Mem.readN [(2, 2), (9, 0x10), (17, 0x20), (24, 1), (26, 2)] 0 512
/-- The machine with a job whose one code entry that is. -/
def sCode : State :=
  let s := sC .zero
  { s with w := withBlock { s.w with jobs := [(0, some { jobD with resil := some resil0 })] } codePlain }
theorem code_entries : sCode.w.codeEntries 0 resil0 = [CodeEntry.ofBytes (codePlain.take 64) 3] := by
  have ht : sCode.w.translate 0 0 = some (0, 0) := by decide +kernel
  have hc : sCode.w.ctrWord 0 = ⟨false, false, 1⟩ := by decide +kernel
  have hp : sCode.w.peek 0 0 64 = codePlain.take 64 := by
    unfold Work.peek
    rw [show rangeBlocks 0 64 = [(0, 64)] from by decide]
    simp only [List.flatMap_cons, List.flatMap_nil, ht, blockOf, Nat.zero_div, hc, List.append_nil]
    rw [show sCode.w.plainOf (sCode.w.blockKey 0 0 0) 0 = codePlain from (withBlock_good _ _ (by decide +kernel)).2]
    rfl
  show [CodeEntry.ofBytes (sCode.w.peek 0 0 64) 3] = _
  rw [hp]
theorem test_meets_SluiceMessageAndDecisionResults :
    let s := sC .zero
    ((sLk pa).w.InOrder 0 (rx (sLk pa).w (pk 6 0 [])) 0 (inOrder0 (sLk pa).w (pk 6 0 [])) ∧
      s.w.InOrder 0 (rx s.w (pk 6 0 [])) 0 (inOrder0 s.w (pk 6 0 [])) ∧
      (sHome2 .zero).w.InOrder 0 (rx (sHome2 .zero).w { pk 6 0 [] with dest := 7 }) 0 (inOrder0 (sHome2 .zero).w { pk 6 0 [] with dest := 7 })) ∧
      ((sLk pa).w.jobLoaded 0 0 = true ∧ (sLk pa).w.declaredIn 0 0 = false ∧ s.w.jobLoaded 0 0 = true ∧ s.w.declaredIn 0 0 = true ∧ s.w.remoteSluice 0 = false ∧
      leAt (pk 6 0 [1, 0, 0, 0, 2]).payload 0 1 = 1 ∧ leAt (pk 6 0 [0, 0, 0, 0, 2]).payload 0 1 ≠ 1 ∧ (s.w.sluice 0).gen = 0 ∧ (s.w.sluice 0).gen ≠ 1 ∧
      (sLk pa).w.commitJobs 0 = [] ∧ s.w.commitJobs 0 = [(0, 0)] ∧ s.w.job 0 0 = some jobD ∧ s.w.decides 0 0 jobD = true ∧
      ((pk 0x07 0 []).kind = 0x07 ∧ (pk 0x0E 0 []).kind = 0x0E ∧ (pk 0x0B 0 []).kind = 0x0B ∧ leAt (pk 0x0B 0 []).payload 9 1 % 2 = 0) ∧
      CommitSt.zero.decided = none ∧ ({ CommitSt.zero with decided := some (dec true) } : CommitSt).decided ≠ none ∧
      (0 : Nat) < ({ jobD with step := 1 } : Job).step.toNat) ∧
      ((sHome2 .zero).w.jobLoaded 0 0 = true ∧ (sHome2 .zero).w.declaredIn 0 0 = true ∧ (sHome2 .zero).w.remoteSluice 0 = true ∧
        (sHome2 .zero).w.isHome2 jobD = true ∧ jobD.commitSluice = some 0 ∧ CommitSt.zero.takenOver = false ∧
        (sHome2 .zero).w.decides 0 0 jobD = false) ∧
      (let e := CodeEntry.ofBytes (codePlain.take 64) 3
       sCode.w.codeEntries 0 resil0 = [e] ∧ e.group = 0 ∧ resil0.codeK ≤ e.role ∧ e.members.idxOf 1 < resil0.codeK ∧
         ¬(e.members.idxOf 0 < resil0.codeK) ∧ sCode.w.jobLoaded 0 0 = true ∧
         (sCode.w.hbmWrite 0 e.parity1 (List.replicate 512 0) .ok).1 = 0 ∧ (sCode.w.hbmWrite 0 (2 ^ 22) (List.replicate 512 0) .ok).1 ≠ 0) ∧
      ((sR 0 0).w.rebuildFor 0 (pk 0x0D 0 []) = none ∧
      ({ (sR 0 0).w with rebuild := [(0, { RebuildSlot.zero with st := 1 })] } : Work).rebuildFor 0 (pk 0x0D 0 []) = some 0) := by
  refine ⟨⟨in_order _ _ rfl rfl ⟨rfl, rfl, rfl, rfl⟩, in_order _ _ rfl rfl ⟨rfl, rfl, rfl, rfl⟩, in_order _ _ rfl rfl ⟨rfl, rfl, rfl, rfl⟩⟩, ?_, ?_,
    ⟨code_entries, ?_⟩, ?_⟩ <;> decide +kernel
theorem test_meets_StepOutcomeResults :
    (let cs : CommitSt := { CommitSt.zero with decided := some (dec true), firstSignal := some 0 }
     let s := sC cs
     s.w.job 0 0 = some jobD ∧ (s.w.commit 0 0).decided = some (dec true) ∧ s.w.home2Of jobD = some 7 ∧ s.w.homeOf jobD = s.w.time.address ∧
       cs.sentToHome2 = false ∧ cs.alone = false ∧ cs.learned = none ∧ ({ cs with alone := true } : CommitSt).alone = true) ∧
      (let s : State := { sC { CommitSt.zero with firstSignal := some 0 } with w := { (sC { CommitSt.zero with firstSignal := some 0 }).w with
         time := { TimeSt.zero with ftime := 16000 } } }
       s.w.decides 0 0 jobD = true ∧ (s.w.commit 0 0).decided = none ∧ 0 + 1 ≤ s.w.frame ∧ ¬(0 + 1 ≤ (sC .zero).w.frame)) ∧
      (let cs : CommitSt := { CommitSt.zero with homeLost := true, heldDecision := some (dec true), aborts := [(0, 0x64)], counts := [(0, 1)] }
       let s : State := { sC cs with w := { (sC cs).w with sluices := [(0, { Sluice.zero with owners := [0], fabric := true, home := 9, target := 1 })],
                                                            time := { TimeSt.zero with address := 7 } } }
       s.w.isHome2 jobD = true ∧ cs.homeLost = true ∧ cs.takenOver = false ∧ cs.heldDecision = some (dec true) ∧
         (cs.aborts.find? fun a => a.1 == jobD.step) = some (0, 0x64) ∧ (CommitSt.zero.aborts.find? fun a => a.1 == jobD.step) = none ∧
         jobD.commitSluice = some 0 ∧ cs.counts.get 0 0 ≠ 0 ∧ reached32 1 1 = true) ∧
      (({ CommitSt.zero with learned := some (dec false) } : CommitSt).learned = some (dec false) ∧ (dec true).committed = true ∧
        (dec false).committed = false ∧ ({ CommitSt.zero with replayAt := some 1 } : CommitSt).replayAt = some 1 ∧ (sC .zero).w.frame < 1 ∧
        0 ≤ (sC .zero).w.frame ∧ CommitSt.zero.attempt + 1 < 3 ∧ c0 ∈ (sC .zero).w.ctxsOf 0 0 ∧ sT.w.scale.length = 1) ∧
      (let x : BlockSt := ⟨3, 3, 63, true, false, false⟩
       x.written = true ∧ x.high = false ∧ x.run = 63 ∧ ({ x with sat := true, e := 127 } : BlockSt).sat = true ∧
         ({ x with run := 62 } : BlockSt).run ≠ 63 ∧ ({ x with written := false } : BlockSt).written = false ∧ ({ x with high := true } : BlockSt).high = true) := by
  decide +kernel
/-- The header of a reduction packet: generation, flags, code, chunk, count and the maps. -/
def redHdr (gen flags : Byte) (chunk : Byte) : List Byte := [gen, 0, flags, 0, chunk, 0, 0, 0, 1] ++ List.replicate 15 0
/-- A member with a parent by port 1 and a child by port 0, and a leaf with a parent by port 0. -/
def member : RedCtx := { bucket0 with node := ⟨true, false, 1, 0, 1⟩ }
/-- A leaf whose parent is by port 0. -/
def leaf0 : RedCtx := { bucket0 with node := ⟨true, false, 0, 0, 0⟩ }
/-- A result chunk of zeros. -/
def resBody : List Byte := redHdr 0 0 0 ++ List.replicate 1104 0
/-- A member that is an OWNER of results and no root. -/
def owner0 : RedCtx := { bucket0 with node := ⟨true, false, 0, 0, 0⟩, desc := { bucket0.desc with rules := 4 } }
/-- The machine with 128 windows in use for port 0. -/
def sFull : Work :=
  (sLk pa).w.setRed 0 1 (some { member with inputs := [(0, some ⟨1, 0, (List.range 128).map fun i => (128 * i, some ⟨[], 0, 0, 0⟩)⟩)] })
theorem test_meets_ReductionPacketResults :
    let w := (sLk pa).w
    (∀ kind : Byte, w.InOrder 0 (rx w (pk kind 0 [])) 0 (inOrder0 w (pk kind 0 []))) ∧
      (w.jobLoaded 0 0 = true ∧ w.redCtx 0 0 = none ∧ (w.setRed 0 0 (some member)).redCtx 0 0 = some member) ∧
      (0x15 ≤ (pk 0x1F 0 []).kind.toNat ∧ (pk 0x1F 0 []).kind.toNat ≤ 0x1F) ∧
      (w.redRolledBack 0 0 0 = false ∧ ({ w with ctxs := [(0, { k0 with restart := true })] } : Work).redRolledBack 0 0 0 = true ∧
        earlyResultOk (pk 0x12 0 resBody) = true ∧ earlyResultOk (pk 0x12 0 (resBody.set 12 1)) = false) ∧
      ((RedHdr.ofBytes (redHdr 0 0 0)).gen = member.gen ∧ (RedHdr.ofBytes (redHdr 1 0 0)).gen ≠ member.gen) ∧
      (w.redRoom 0 0 0 0 = true ∧ sFull.redRoom 0 0 0 0 = false) ∧
      (member.node.down.getLsbD 0 = true ∧ member.node.down.getLsbD 1 = false ∧ (RedHdr.ofBytes (redHdr 0 0 0)).chunk < member.chunks ∧
        member.chunks ≤ (RedHdr.ofBytes (redHdr 0 2 1)).chunk ∧ member.inclusion = none ∧
        (let b := { member with inclusion := some [32] }
         b.inclusion.isSome = true ∧ b.includes 0 = false ∧ b.dropped.contains 0 = false ∧ ({ b with dropped := [0] } : RedCtx).dropped.contains 0 = true ∧
           b.desc.rules.getLsbD 0 = false ∧ ({ b.desc with rules := 1 } : RedDesc).rules.getLsbD 0 = true)) ∧
      (leaf0.desc.toOwner = false ∧ (leaf0.node.root = false ∧ leaf0.node.up.toNat = 0) ∧ ¬(member.node.root = false ∧ member.node.up.toNat = 0) ∧
        leaf0.ended = false ∧ ({ leaf0 with phase := .delivered } : RedCtx).ended = true ∧ leaf0.node.downs = [] ∧ leaf0.notice = none ∧
        leaf0.desc.owner = TimeSt.zero.address ∧ leaf0.resultList.length < leaf0.chunks ∧ leaf0.own = none ∧ member.node.downs ≠ [] ∧
        ({ leaf0 with own := some ⟨64, 64, 1, false, []⟩ } : RedCtx).own = some ⟨64, 64, 1, false, []⟩) ∧
      (owner0.desc.toOwner = true ∧ owner0.node.root = false ∧ owner0.desc.owner = w.time.address ∧ owner0.root = none ∧
        w.job 0 0 = some jobF ∧ jobF.fabric = some ⟨2 ^ 41, 1, 0, 2 ^ 40, 0, [0, 1]⟩ ∧ (pk 0x12 0 []).src = 1 ∧
        ({ owner0 with root := some 5 } : RedCtx).root ≠ some (pk 0x12 0 []).src) ∧
      (let b := { member with base := 0, desc := { member.desc with deadline := 1 } }
       (b.node.root = true ∨ b.node.downs ≠ []) ∧ b.phase = .opened ∧ b.inclusion = none ∧
         max (b.base + b.desc.deadline - if b.node.root then 0 else b.node.lead.toNat) (b.base + 1) ≤ 1) ∧
      ([some 3] : List (Option Int))[0]? = some (some 3) := by
  refine ⟨fun kind => in_order _ _ rfl rfl ⟨rfl, rfl, rfl, rfl⟩, ?_, ?_, ?_, ?_, ?_, ?_, ?_, ?_, ?_, ?_⟩ <;> decide +kernel
/-- A result chunk of zeros carries the residue 0. -/
theorem test_meets_result_residue : residue ((unpackCodes 16 512 ((resBody.drop 24).drop 16)).map (elemOf 16)) = (RedHdr.ofBytes resBody).residue := by
  decide +kernel
theorem test_meets_ResidueIsCarriedThroughSums :
    let x : RedPiece := ⟨[some 5, some (-2)], residue [some 5, some (-2)], 0, 0⟩
    x.elems.length = x.elems.length ∧ residue x.elems = x.residue := ⟨rfl, rfl⟩
theorem test_meets_TrapAndReadAheadResults :
    (s0.w.ready c0 ∧ (let z : Sluice := { Sluice.zero with coming := [(0, .signal 0 1)] }
        ({ s0.w with sluices := [(3, z)] } : Work).sluiceOps c0 = [(3, 0)] ∧ s0.w.sluiceOps c0 = []) ∧
      0xF0 ≤ (0xF0 : Byte).toNat ∧ KOp.ofOpcode 0xEF = none ∧ (0x01 : Byte).toNat < 0xF0 ∧ KOp.ofOpcode 0x01 ≠ none) ∧
      (let s := sI [inst .dmaFill fS .started] .none kM
       ((s.w.ctx c0).infl.filter fun y => decide (y.op.queue = .M) && decide (y.stat ≠ .queued))[0]? = some (inst .dmaFill fS .started) ∧
         (s.w.ctx c0).st = .running ∧ s0.w.ctx c0 = k0 ∧ (k0.infl.filter fun y => decide (y.op.queue = .M) && decide (y.stat ≠ .queued))[0]? = none) ∧
      (let k := { k0 with ahead := [⟨1, false, 0, 524288, 0⟩] }
       let s := withHbm 0 k
       k.nextSegment = some 1 ∧ (∀ r, r ∈ s.w.readAhead → ¬(r.ctx = c0 ∧ r.segment = 1)) ∧
         (∀ e, e ∈ k.ahead.filter (fun e => decide (e.segment = 1 - k.startFrame)) → e.scaleEntry = false ∧ s.w.mapped 0 e.addr e.bytes = true) ∧
         s.w.aheadUsed c0 + 524288 ≤ 524288 ∧ 524288 < s.w.aheadUsed c0 + 524800 ∧ s.w.mapped 0 (2 ^ 22) 512 = false ∧
         (⟨1, true, 0, 0, 0⟩ : AheadEnt).scaleEntry = true ∧ (sT.w.entry 0 0).isSome = true ∧
         ({ k with st := .ended } : Ctx).nextSegment = none) :=
  ⟨⟨test_ready, by decide, by decide⟩, by decide, by decide +kernel⟩
/-- The use of a root's drain is open. -/
theorem test_meets_DrainResults_use : sG.w.useDead (sG.w.useOf 0 0 (coreKey c0) c0) = false := by decide
/-- A clock point changes at a tick, and not within a frame. -/
theorem test_meets_FrameTickAndSegmentResults_point : TimeSt.zero.atTick = true ∧ ({ TimeSt.zero with ftime := 1 } : TimeSt).atTick = false := by
  decide
/-- A write that the device serves, and one that it does not yet; the Staithe's own unit and another. -/
theorem test_meets_FenceResults_open : (up s0).fnOpen pf = true ∧ s0.fnOpen pf = false ∧ (0x2000 : BitVec 16) ≠ staitheUnit := by decide
/-- A tick and none; a cluster's core that is not lost, a context of a slice that is lost, the slice's partition, and two products on a half. -/
theorem test_meets_UnitLossResults_rows :
    (s0.w.time.atTick = true ∧ ({ s0.w.time with ftime := 1 } : TimeSt).atTick = false ∧ (3 : Fin 64).val / 8 = (0 : Fin 8).val) ∧
      (s0.w.ctxs.any (fun e => decide (ctxOfKey e.1 = c0)) = true ∧ (withHbm 0 k0).w.sliceOwner 0 = some 0) ∧
      (let y : InFlight := { inst .mmbxBi8 fS .started with half := 1, startNo := 1 }
       let z : InFlight := { inst .mmbxBi8 fS .started with half := 3, id := 1, startNo := 2 }
       let s := sI [y, z] .none k0
       c0 ∈ siblings c0 ∧ z ∈ (s.w.ctx c0).infl ∧ y ∈ (s.w.ctx c0).infl ∧ z.op.queue = .B ∧ z.stat = .started ∧ z.half.getLsbD 0 = true ∧
         y.half.getLsbD 0 = true ∧ y.startNo < z.startNo ∧ y.id ≠ z.id ∧ (s.w.ctx c0).st = .running ∧
         ∀ d ∈ siblings c0, ∀ x ∈ (s.w.ctx d).infl, (d = c0 ∧ x = z) ∨ (x.startNo < z.startNo ∧ x.id ≠ z.id)) := by decide +kernel
/-- A unit that is down and did not fail its test, and one that did. -/
theorem test_meets_StackAndResetResults_tested :
    s0.w.testFailed.contains 0x2000 = false ∧ ({ s0.w with testFailed := [0x2000] } : Work).testFailed.contains 0x2000 = true := by decide
/-- A tail at the fetch position, one elsewhere, and a queue that drains. -/
theorem test_meets_StaitheResults_tail :
    (0 : Nat) = (queueOf []).fetch ∧ (1 : Nat) ≠ (queueOf []).fetch ∧ ({ queueOf [] with draining := true } : QueueSt).draining = true := by decide
theorem test_meets_QueueLifeAndOrderResults_ready : (up s0).ctl.ready = true ∧ (up s0).w.fnUp pf = true := by decide
/-- A paused rebuild, one that has ended, and a further loss in the group of one that runs. -/
theorem test_meets_RebuildResults_pause :
    (let s : State := { sR 0x42 0 with w := { (sR 0x42 0).w with rebuild := [(0, { RebuildSlot.zero with st := 2 })] } }
     (s.w.rebuildSlot 0).st = 2 ∧ (s.w.job 0 0).isSome = true ∧ ((s.w.job 0 0).bind Job.resil) = some resil0 ∧
       ({ RebuildSlot.zero with st := 3 } : RebuildSlot).st ≠ 1 ∧ ({ RebuildSlot.zero with st := 3 } : RebuildSlot).st ≠ 2) ∧
      (let e := entryOf 0x42 (1 * 2 ^ 64)
       let s0 := sR 0x42 (1 * 2 ^ 64)
       let b : RebuildSlot := { RebuildSlot.zero with st := 1, lost := 1, group := BitVec.ofNat 16 (CodeEntry.ofBytes (s0.w.peek 0 0 64) 3).group }
       let s : State := { s0 with w := { s0.w with rebuild := [(0, b)] } }
       s.w.startCmd cr 0x42 = some e ∧ s.w.cmdTarget cr e = some 0 ∧ (s.w.part 0).usable = true ∧ b.q = 0 ∧ b.job = cmdJob e ∧
         (s.w.rebuildSlot 0).st = 1 ∧ (∀ j, j < 4 → j ≠ 0 → (s.w.rebuildSlot j).st ≠ 1 ∧ (s.w.rebuildSlot j).st ≠ 2) ∧
         symbolsIn (BitVec.ofNat 32 (cmdArg e 24 4) ||| b.lost) ≤ resil0.codeM) := by decide +kernel
/-- A debug-unlocked device at the end of a protection reboot, and the reports that wait for it. -/
theorem test_meets_DeviceCommandResults_unlocked : ({ Ctl.reset.fuse with debugUnlocked := true } : FuseSt).debugUnlocked = true ∧
    Ctl.reset.fuse.debugUnlocked = false := by decide
/-- A request with no vendor's head, with the one that the rows carry where the vendor's number is the device's, and with another. -/
theorem test_meets_SessionResults_vendor :
    (⟨0x60, none⟩ : SpdmOther).vendor = none ∧ (⟨0xFE, some ⟨3, Config.vendorId, 2⟩⟩ : SpdmOther).vendor = some ⟨3, Config.vendorId, 2⟩ ∧
      ((3 : BitVec 16) = 3 ∧ Config.vendorId = Config.vendorId ∧ 1 ≤ (2 : Byte).toNat ∧ (2 : Byte).toNat ≤ 3) ∧ (4 : BitVec 16) ≠ 3 :=
  ⟨rfl, rfl, ⟨rfl, rfl, by decide, by decide⟩, by decide⟩
/-- A slice of a partition and of none; a function that is served. -/
theorem test_meets_ClearRegisterResults_owner :
    (withHbm 0 .empty).w.sliceOwner 0 = some 0 ∧ s0.w.sliceOwner 0 = none ∧ (up (withHbm 0 .empty)).fnOpen pf = true := by decide
/-- A function that is not served, with the main input on and off. -/
theorem test_meets_ControlRegisterResults_closed :
    s0.fnOpen pf = false ∧ s0.ctl.pins.off = false ∧
      (let s : State := { s0 with ctl := { s0.ctl with pins := { s0.ctl.pins with off := true } } }
       s.fnOpen pf = false ∧ s.ctl.pins.off = true) ∧ (up s0).fnOpen pf = true := by decide
theorem test_meets_RegisterReadsWhatIsWritten_open : (up s0).fnOpen pf = true ∧ pf.fn = 0 := by decide
theorem test_meets_TestEngineResults_open : (up (sTE .zero)).fnOpen pf = true ∧ (up (sTE .zero)).ctl.boot.bringup = true ∧
    (up (sTE .zero)).ctl.rwb = true ∧ (up (sTE .zero)).stackWritable pf 0 = true := by decide
/-- A function 0 that is served; a test port in EXTEST with PERST# high; a DMI write of dmcontrol that halts hart 3, and one that resumes it. -/
theorem test_meets_BoardPortResults_debug :
    ((up s0).fnOpen pf = true ∧ pf.fn = 0 ∧ (up s0).ctl.pins.perstLow = false ∧ ({ Ctl.reset.jtag with ir := 0x00 } : JtagSt).ir = 0x00) ∧
      (let d : BitVec 41 := BitVec.ofNat 41 (0x10 * 2 ^ 34 + 2 ^ 33 + 3 * 2 ^ 18 + 2)
       d.toNat % 4 = 2 ∧ d.toNat / 2 ^ 34 = 0x10 ∧ d.toNat / 2 ^ 8 % 2 ^ 10 = 0 ∧ d.toNat / 2 ^ 18 % 2 ^ 10 = (3 : Fin 8).val ∧ d.getLsbD 33 = true) ∧
      (let d : BitVec 41 := BitVec.ofNat 41 (0x10 * 2 ^ 34 + 2 ^ 32 + 3 * 2 ^ 18 + 2)
       d.toNat % 4 = 2 ∧ d.getLsbD 33 = false ∧ d.getLsbD 32 = true) := by decide
/-- A return that is due at a tick, one that is due later, and a throttle that has been cool for 64 frames or less. -/
theorem test_meets_SupplyHeatAndResetPinResults_tick :
    (let p : PwrSt := { Ctl.reset.pwr with dip := true, returnPending := true, throttle := true, coolRun := 64 }
     p.returnPending = true ∧ p.returnAt.toNat ≤ s0.w.time.ftime.toNat ∧ s0.w.time.atTick = true ∧ p.throttle = true ∧ 64 ≤ p.coolRun ∧
       s0.w.time.ftime.toNat < ({ p with returnAt := 16000 } : PwrSt).returnAt.toNat ∧ ({ p with coolRun := 63 } : PwrSt).coolRun < 64) ∧
      ({ s0.w.time with ftime := 1 } : TimeSt).atTick = false ∧ (up s0).ctl.boot.phase ≠ 0 ∧ s0.ctl.boot.bringup = false ∧
      ({ Ctl.reset.jtag with ir := 0x03 } : JtagSt).ir = 0x03 := by decide
/-- A CTL flit by port 0 with no codeword left failed, and one with such a codeword. -/
def ctl0 (failed : Bool) : CtlRx := ⟨0, 0, 0, false, 0, if failed then [(16, true)] else []⟩
/-- Flits of link commands by an active port and by one that is not, with a probe outstanding or not. -/
theorem test_meets_ClockAndDieResults_probe :
    flitFailed (CtlRx.flit (ctl0 false)) = false ∧ flitFailed (CtlRx.flit (ctl0 true)) = true ∧
      (let h := (sLk act).w.ctlHead (ctl0 false)
       (h.port 0).isActive = true ∧ (h.port 0).probeSent = some 7 ∧ h.time.refHolder = false ∧ h.time.upstream.toNat = 0 ∧ (h.port 0).heard.isSome = true) ∧
      (let h := (sLk { act with heard := none }).w.ctlHead (ctl0 false)
       (h.port 0).heard = none) ∧ (((sLk .zero).w.ctlHead (ctl0 false)).port 0).isActive = false := by decide +kernel
/-- A port whose unit failed no test; dies that declare each other failed; an ENROL, with or without its slot burned, and a RESET that run. -/
theorem test_meets_ClockAndDieResults_failover :
    portUnit 0 ∉ s0.w.testFailed ∧ DieLoss.standby ≠ .active ∧ Ctl.reset.dies.otherHeld = false ∧ ({ Ctl.reset.dies with otherHeld := true } : DieSt).otherHeld = true ∧
      (⟨.active, none, none⟩ : MissIn).running = none ∧ (sR 0x54 0).w.startCmd cr 0x54 = some (entryOf 0x54 0) ∧
      (sR 0x51 0).w.startCmd cr 0x51 = some (entryOf 0x51 0) ∧ (sR 0x51 0).ctl.fuse.operator = none ∧
      (⟨.active, some cr, some []⟩ : MissIn).burned = some [] := by decide +kernel
/-- A socket whose release may begin, one in its hourly write, and what an interrupt finds. -/
theorem test_meets_LaserModuleResults_bus :
    (pf.fn = 0 ∧ (up s0).fnOpen pf = true ∧ (0x100 : Word).getLsbD 8 = true ∧ ({ Laser.zero with st := 2 } : Laser).st = 2 ∧
      ({ Laser.zero with st := 2 } : Laser).hourly = false) ∧
      (let l : Laser := { Laser.zero with present := true, st := 2, hourly := true, tries := 2, busFails := 2 }
       ¬(l.st = 2 ∧ l.hourly = false) ∧ (2 ≤ l.tries ∨ 3 ≤ l.busFails + 1) ∧ l.busFails ≥ 2 ∧ ({ l with busFails := 0 } : Laser).busFails < 2 ∧
         ¬(({ l with hourly := false } : Laser).hourly = true) ∧ (∃ b : Byte, some (0 : Byte) = some b ∧ (l.hourly = true ∨ b.getLsbD 0 = true ∨ b.getLsbD 1 = true)) ∧
         ¬(∃ b : Byte, (none : Option Byte) = some b ∧ (l.hourly = true ∨ b.getLsbD 0 = true ∨ b.getLsbD 1 = true))) :=
  ⟨by decide, by decide, by decide, by decide, by decide, by decide, ⟨0, rfl, Or.inl rfl⟩, fun h => by obtain ⟨_, h, _⟩ := h; cases h⟩
/-- A port with a SPARE that it asked for, and its commands' flits: a spare given before, one to give, none left, and an answer. -/
theorem test_meets_LinkFlitResults_commands :
    (let q : Port := { act with ctl := [.spare 1 64] }
     (∃ j, CtlOut.spare 1 j ∈ q.ctl) ∧ (∀ j, CtlOut.spare 0 j ∉ q.ctl) ∧ (∃ c, c ∈ q.ctl)) ∧
      (let h := fun (q : Port) => ((sLk q).w.ctlHead (ctl0 false)).port 0
       (h act).isActive = true ∧ (h act).longHaul = false ∧ (h { act with longHaul := true }).longHaul = true ∧ (h act).owed = [] ∧ act.txq = [] ∧
         ((h { act with txMoves := [(0, 8, 5)] }).txMoves.find? fun e => decide (e.1 = 0 ∧ e.2.2 = 5)) = some (0, 8, 5) ∧
         ((h act).txMoves.find? fun e => decide (e.1 = 0 ∧ e.2.2 = 5)) = none ∧
         ((h act).txLambdas.getLsbD 8 = false ∧ (h act).txBad.getLsbD 8 = false ∧ ∀ k : Fin 9, k.val < 8 → (h act).txLambdas.getLsbD k.val = true) ∧
         (∀ k : Fin 9, (h { act with txLambdas := 0x1FF }).txLambdas.getLsbD k.val = true) ∧ (h .zero).isActive = false ∧
         (h { act with ctl := [.spare 1 64] }).ctl = [.spare 1 64]) ∧
      (let left := fun (q : Port) => lamCount ((q.good &&& ~~~(lamBit 0)) &&& ~~~q.lambdas) - q.ctl.countP fun c => match c with | .spare _ _ => true | _ => false
       left act ≠ 0 ∧ left { act with ctl := [.spare 1 64] } = 0 ∧ act.lambdas.getLsbD 0 = true) := by
  refine ⟨⟨⟨64, by decide⟩, ?_, ⟨_, List.mem_singleton.2 rfl⟩⟩, by decide +kernel, by decide⟩
  intro j h
  cases List.mem_singleton.1 h
/-- An active port that loses no light, one wavelength of it, two, and all. -/
theorem test_meets_PortStateResults_light :
    (let left := fun (g : BitVec 9) => lamCount (g &&& ~~~act.lambdas)
     act.st = 5 ∧ act.lambdas &&& ~~~0x1FF = 0 ∧ act.lambdas &&& ~~~0x1FE ≠ 0 ∧ 4 ≤ lamCount (act.good &&& 0x1FE) ∧
       lamCount (act.lambdas &&& ~~~0x1FE) ≤ left (act.good &&& 0x1FE) ∧ left (act.good &&& 0x1FC) < lamCount (act.lambdas &&& ~~~0x1FC) ∧
       4 ≤ lamCount (act.good &&& 0x1FC) ∧ lamCount (act.good &&& 0x000) < 4) ∧
      (ctl0 false).port = 0 ∧ flitFailed (CtlRx.flit (ctl0 false)) = false := by decide
/-- A packet of KIND 0x0A with its tag, as port 0 receives it. -/
def keyRx (body : List Byte) : RxPkt := rx (sLk pa).w (pk 0x0A 0 body)
/-- It verifies. -/
theorem parts_ok (s : State) (a : RxPkt) (h : s.w.tagOk (0 : Fin 32).val a = true) : ∃ t, s.partsOk 0 [a] = (t, true) := by
  simp only [State.partsOk, h, if_true]
  exact ⟨_, rfl⟩
/-- Messages by an ACTIVE port: one that its packet brings, one that it does not bring, one whose packet fails; and a port that is not ACTIVE. -/
theorem test_meets_LinkKeyResults_parts :
    (let m : KeyRx := ⟨⟨[1], [2], [3], 0⟩, [keyRx [1, 2, 3]]⟩
     ((∀ a, a ∈ m.parts → a.pkt.kind = 0x0A) ∧ (m.parts.flatMap fun a => a.pkt.payload) = m.msg.kem ++ m.msg.digest ++ m.msg.proof) ∧
       (keyRx [1, 2]).pkt.payload ≠ m.msg.kem ++ m.msg.digest ++ m.msg.proof) ∧
      (((sLk pa).w.port 0).isActive = true ∧ ((sLk { pa with st := 4 }).w.port 0).isActive = false ∧
        (∃ s, (sLk pa).partsOk 0 [keyRx [1, 2, 3]] = (s, true)) ∧ (sLk { act with linkKey := none }).w.tagOk 0 (keyRx []) = false) ∧
      ((up s0).fnOpen pf = true ∧ s0.fnOpen pf = false ∧ vf.fn ≠ 0) := by
  refine ⟨⟨⟨?_, rfl⟩, by decide⟩, ⟨by decide +kernel, by decide +kernel, parts_ok _ _ (tag_of _ _ rfl), rfl⟩, by decide⟩
  intro a h
  rw [List.mem_singleton.1 h]
  rfl
/-- A port that is not ACTIVE, of a partition and of none. -/
theorem test_meets_FlowAndForwardResults_dark :
    ({ pa with st := 0 } : Port).isActive = false ∧ ({ pa with st := 0 } : Port).assigned = true ∧ Port.zero.isActive = false ∧
      Port.zero.assigned = false := by decide
/-- A survivor of a group and a member that is not. -/
theorem test_meets_SluiceMessageAndDecisionResults_survivor :
    let e := CodeEntry.ofBytes (codePlain.take 64) 3
    sCode.w.codeEntries 0 resil0 = [e] ∧ sCode.w.job 0 0 = some { jobD with resil := some resil0 } ∧ e.group = (0 : BitVec 16).toNat ∧
      e.role ∈ survivorsOf resil0.codeK resil0.codeM 1 ∧ e.role ∉ survivorsOf resil0.codeK resil0.codeM 4 ∧ e.group ≠ (1 : BitVec 16).toNat :=
  ⟨code_entries, by decide +kernel⟩
/-- The third attempt of a step. -/
theorem test_meets_StepOutcomeResults_third :
    3 ≤ ({ CommitSt.zero with attempt := 2 } : CommitSt).attempt + 1 ∧ c0 ∈ (sC .zero).w.ctxsOf 0 0 ∧ (sC .zero).w.jobGroups 0 0 = [] := by
  decide
/-- A state within the limits, and the step of its first command. -/
theorem test_meets_LimitsAreKeptByEveryStep : State.reset.LimitsInv ∧ step State.reset = .next State.reset :=
  ⟨by unfold State.LimitsInv Ctl.limitsOk; decide, rfl⟩
theorem test_meets_StepTakesTheFrontCommand : State.reset.pending = [] := rfl
theorem test_meets_InstructionWordsRoundTrip : decodeWord (instrWord KOp.sAdd.opcode fS) = some (.sAdd, fS) := by decide
/-- The block product of chapter 2's worked example: rounded to nearest, stochastically either way, and saturating. -/
theorem test_narrow_example :
    narrow 5218 (-7) 0 8 .even = (41, false) ∧ narrow 5218 (-7) 0 8 (.stoch 0x9A3F0C21) = (41, false) ∧
      narrow 5218 (-7) 0 8 (.stoch 0xD0127E44) = (40, false) ∧ narrow 5218 (-7) (-8) 8 .even = (127, true) ∧
      codeOf 8 (some (narrow (-5218) (-7) (-8) 8 .even).1) = 0x81 ∧ roundShift (-3) 1 .even = -2 ∧ roundShift (-5) 1 .even = -2 := by decide
/-- The block over four steps of chapter 2's worked example. -/
theorem test_block_commit_example :
    (BlockSt.commit ⟨0xFE, 0xFE, 63, true, false, false⟩ false false).1 = ⟨0xFE, 0xFD, 0, false, false, false⟩ ∧
      (BlockSt.commit ⟨0xFE, 0xFD, 0, true, true, true⟩ false false).1 = ⟨0xFD, 0xFE, 0, false, false, false⟩ ∧
      (BlockSt.commit ⟨0xFD, 0xFE, 0, false, false, false⟩ false false).1 = ⟨0xFE, 0xFE, 0, false, false, false⟩ ∧
      (BlockSt.commit ⟨0xFE, 0xFE, 0, true, true, false⟩ false false).1 = ⟨0xFE, 0xFE, 0, false, false, false⟩ := by decide
/-- The two words of chapter 4's worked example of encoding. -/
theorem test_encoding_example :
    instrWord KOp.mmfBi8.opcode ⟨0xC3, 0x04, 0x82, 0x8800, 0⟩ = 0x20C3048288000000 ∧
      decodeWord 0x3106C307902A0000 = some (.accDrain, ⟨0x06, 0xC3, 0x07, 0x902A, 0⟩) := by decide
/-- One word of each other group of the opcode table, written out: D, A, B, MOD and IMM in turn (R107). -/
theorem test_words_of_each_group :
    decodeWord 0x0105064000000007 = some (.sAdd, ⟨5, 6, 0x40, 0, 7⟩) ∧
      (decodeWord 0xF000000000000000).isNone = true ∧ (decodeWord 0xEF00000000000000).isNone = true ∧
      (allKOps.map KOp.opcode).Nodup := by decide +kernel
/-- The cancellation of chapter 6's worked example, its drain, and the drain with a fused add and multiply. -/
theorem test_cancellation_example :
    (let x1 := (addX 0 (some (0x700000000 * 4096)) 0).1
     let x2 := (addX x1 (some (0x29640000 * 4096 + 0x0C0)) 0).1
     let x3 := (addX x2 (some (-(0x700000000 * 4096))) 0).1
     x3 = 0x0296400000C0 ∧ drainElement false (drainEl false x3) 0 1 0 (none, 0) (none, 0) .even = (some 41, false) ∧
       drainElement false (drainEl false x3) 0 1 3 (some (-10), 0) (some 96, -6) .even = (some 0x2F, false) ∧
       drainElement false (drainEl false x3) 0 1 1 (some (-10), 0) (none, 0) .even = (some 0x1F, false)) ∧
      (let x1 := addX 0 (some (0x800000000 * 4096)) 0
       let x3 := (addX x1.1 (some (-(0x700000000 * 4096))) 0).1
       x1.2 = true ∧ x3 = 0x0FFFFFFFFFFF ∧ drainElement false (drainEl false x3) 0 1 0 (none, 0) (none, 0) .even = (some 127, true)) := by
  decide +kernel
/-- The counter of chapter 9's worked example. -/
theorem test_counter_example :
    genCounter 42 0 true 6 true 0x00451 9250 = 0x000000002A2000D00045100000002422#128 := by decide
/-- The address of chapter 10's worked example, before and after a channel leaves the map. -/
theorem test_address_example :
    let w := fun (m : BitVec 16) => ({ s0.w with memStacks := [(6, { Stack.zero with chMap := m }), (7, { Stack.zero with chMap := 0xFFFF })] } : Work)
    (let l := (w 0xFFFF).decodePa 0x3200046800
     (l.stack, l.channel, l.pc, l.bank, l.row, l.sid) = (7, 6, 12, 4, 8192, 0)) ∧
      (let l := (w 0xFFFB).decodePa 0x3200046800
       (l.stack, l.channel, l.pc, l.bank, l.row) = (6, 11, 22, 0, 8456)) := by decide +kernel
/-- The block of chapter 12's worked example: aligned, added, narrowed; and its residue. -/
theorem test_reduction_example :
    alignElem (some 12288) (-12) (-10) = (some 201326592, false) ∧ alignElem (some (-4660)) (-30) (-10) = (some (-292), false) ∧
      alignElem (some 1) 22 (-10) = (some (2 ^ 47 - 1), true) ∧ narrow 201326300 (-26) (-10) 16 .even = (0x0C00, false) ∧
      narrow 140737489995774 (-26) (-10) 16 .even = (32767, true) ∧ residue [some 201326592] = 3072 ∧ residue [some 12288] = 0x3000 := by decide
/-- The score of chapter 15's example. -/
theorem test_score_example : healthScore Ctl.reset.health.weights [20, 40, 60, 204, 51, 0, 32] = 170 := by decide
/-- The inputs of chapter 18's worked example. -/
theorem test_laser_example : healthInput 10 20 = 127 ∧ healthInput 319500 400000 = 203 ∧ lifePassed 319999 = 0 ∧ lifePassed 320000 = 1 := by decide
/-- The record of chapter 10's repair example: data bit 18 of word 4 of row 8,201, bank 9, SID 0, pseudo-channel 9. -/
theorem test_repair_arguments :
    let t : TestEngine := { TestEngine.zero with arg0 := 0x0000000000902009 }
    t.row = 8201 ∧ t.bank = 9 ∧ t.sid = 0 ∧ tePc 0x8000000000000907 = 9 ∧ teOpcode 0x8000000000000907 = 7 := by decide

/-- A queue number and a command's queue above 4,095. -/
theorem test_wf_queue : (Instr.load ⟨pf, 4096, 1⟩).wf = false ∧ (Instr.sqTailDoorbell pf 4096 0).wf = false ∧ (Instr.load cr).wf = true := by decide
/-- A payload of 4,097 bytes, and a decision received in such a packet; a tag of another length. -/
theorem test_wf_packet : ∀ k : RxPkt, k.pkt.payload = List.replicate 4097 0 →
    (Instr.writePacket 0 k .ok).wf = false ∧ (Instr.commitDecision 0 0 (some (0, k))).wf = false ∧
      (Instr.ackPacket 0 ⟨pk 4 0 [], 0, 0, []⟩).wf = false := by
  intro k h
  have h2 : k.wf = false := by
    unfold RxPkt.wf Pkt.wf
    rw [h, List.length_replicate]
    rfl
  exact ⟨h2, by simp [Instr.wf, h2], by decide⟩
/-- A flit whose body is short. -/
theorem test_wf_flit : (Instr.idleFlit 0 ⟨0, 0, 0, false, 0, 0, 0, [], 0, []⟩).wf = false := by decide
/-- A hello without an identity. -/
theorem test_wf_hello : (Instr.linkHello 0 (hello 0)).wf = false := by decide
/-- A boot that reports on no stack. -/
def noBoot : BootIn := ⟨[], [], [], [], 0, [], 0, true, 12000, false⟩
theorem test_wf_boot : (Instr.powerOn noBoot).wf = false ∧ (Instr.hostReset cr noBoot).wf = false ∧
    ({ noBoot with pcie := [⟨true, true, 0, 0⟩, ⟨true, true, 0, 0⟩], chOk := List.replicate 16 0, badHalves := [(512, 1)] } : BootIn).wf = false ∧
    ({ noBoot with pcie := [⟨true, true, 0, 0⟩, ⟨true, true, 0, 0⟩], chOk := List.replicate 16 0, softRepairs := [(16, 0)] } : BootIn).wf = false ∧
    ({ noBoot with pcie := [⟨true, true, 0, 0⟩, ⟨true, true, 0, 0⟩], chOk := List.replicate 16 0 } : BootIn).wf = true := by decide
/-- An opcode that a program may use is no illegal one. -/
theorem test_wf_opcode : (Instr.illegalOpcode c0 0x01).wf = false ∧ (Instr.illegalOpcode c0 0xF0).wf = true := by decide +kernel
/-- A nonce, a ciphertext, a key and a token of other lengths. -/
theorem test_wf_lengths : (Instr.getReport pf [] 0).wf = false ∧ (Instr.pskEncap pf []).wf = false ∧ (Instr.keyProg pf 0 0 []).wf = false ∧
    (Instr.jtagUnlock []).wf = false := by decide
/-- Writes of 2 bytes, and at an address that is not a multiple of 8. -/
theorem test_wf_write : (Instr.registerWrite pf 0 ⟨2, noBoot⟩ 0).wf = false ∧ (Instr.registerWrite pf 4 ⟨8, noBoot⟩ 0).wf = false ∧
    (Instr.registerWrite pf 4 ⟨4, { noBoot with pcie := [⟨true, true, 0, 0⟩, ⟨true, true, 0, 0⟩], chOk := List.replicate 16 0 }⟩ 0).wf = true := by decide
/-- The state after a command. -/
def after (i : Instr) (s : State) : State :=
  match exec i s with
  | .next t => t
  | _ => s
/-- `s.add` adds with IMM for B (R117) and wraps. -/
theorem test_add_wraps :
    ((after (.sAdd c0 ⟨1, 2, 3, 1, 2⟩ (.start .ok)) (withCtx (k0.setS 2 (-1)))).w.ctx c0).getS 1 = 1 := by decide +kernel
/-- A privileged opcode faults its context with 0x02 (R110). -/
theorem test_privileged_opcode : ((after (.illegalOpcode c0 0xF3) s0).w.ctx c0).fault.code = 0x02 := by decide +kernel
/-- A cap above the range is 2,400 W (R486). -/
theorem test_cap_clamps : (after (.capWrite pf 4000) s0).ctl.pwr.watts = 2400 := by decide +kernel
/-- A tail outside its ring is ignored, logged with 0x0980 and told to the function (R447). -/
theorem test_bad_tail : ((after (.sqTailDoorbell pf 0 16) (up (withQ (queueOf []) s0))).w.log.entries.map (·.code)) = [0x0980] := by decide +kernel
/-- WRITE writes its block once, under a new count, and ends with its number of bytes (R352, R455). -/
theorem test_write : let s := after (.hostWrite cr ⟨true, List.replicate 64 9⟩ .ok) (sW k0 (16384 * 2 ^ 64 + 64 * 2 ^ 128) 0x10)
    s.w.ctrWord 32 = ⟨false, false, 1⟩ ∧ (s.w.ctrWord 33).isFresh = true ∧ s.w.out.length = 2 := by decide +kernel
/-- The example of AES-256 in FIPS 197, appendix C.3. -/
theorem test_aes : aes256 ((List.range 32).map (BitVec.ofNat 8)) ((List.range 16).map fun i => BitVec.ofNat 8 (17 * i)) =
    [0x8E, 0xA2, 0xB7, 0xCA, 0x51, 0x67, 0x45, 0xBF, 0xEA, 0xFC, 0x49, 0x90, 0x4B, 0x49, 0x60, 0x89] := by decide +kernel
/-- AES-256-GCM of sixteen bytes of zero: test case 14 of the GCM proposal. -/
theorem test_gcm : gcmSeal (List.replicate 32 0) (List.replicate 12 0) [] (List.replicate 16 0) =
    ([0xCE, 0xA7, 0x40, 0x3D, 0x4D, 0x60, 0x6B, 0x6E, 0x07, 0x4E, 0xC5, 0xD3, 0xBA, 0xF3, 0x9D, 0x18],
     [0xD0, 0xD1, 0xC8, 0xA7, 0x99, 0x99, 0x6B, 0xF0, 0x26, 0x5B, 0x98, 0xB5, 0xD4, 0x8A, 0xB9, 0x19]) := by decide +kernel

end Sys2Proof.Machine.Tests
end

section
/-! Register words as packed fields (R3, R5): a register that keeps some fields of the word written reads as that word with every other
bit zero. -/

namespace Sys2Proof.Machine

/-- The bits of a register that the field of `w` bits from bit `lo` takes. -/
def fieldMask (lo w : Nat) : Word := BitVec.ofNat 64 ((2 ^ w - 1) * 2 ^ lo)

/-- The bits that the fields of a register take. -/
def fieldsMask : List (Nat × Nat) → Word
  | [] => 0
  | (lo, w) :: l => fieldMask lo w ||| fieldsMask l

/-- The fields of a word as `packReg` takes them: value, lowest bit, width. -/
def fieldsOf (n : Word) (l : List (Nat × Nat)) : List (Nat × Nat × Nat) :=
  l.map fun f => (bitsOf n.toNat f.1 f.2, f)

/-- No field takes a bit of a later one. -/
def fieldsDisjoint : List (Nat × Nat) → Bool
  | [] => true
  | (lo, w) :: l => decide (fieldMask lo w &&& fieldsMask l = 0) && fieldsDisjoint l

theorem packReg_nil : packReg [] = 0 := rfl

/-- The value that a field adds to its register. -/
def fieldValue (e : Nat × Nat × Nat) : Nat := e.1 % 2 ^ e.2.2 * 2 ^ e.2.1

theorem packReg_eq_sum (l : List (Nat × Nat × Nat)) : packReg l = BitVec.ofNat 64 (l.map fieldValue).sum := by
  rw [List.sum_eq_foldl, List.foldl_map]
  rfl

theorem packReg_cons (e : Nat × Nat × Nat) (l : List (Nat × Nat × Nat)) :
    packReg (e :: l) = BitVec.ofNat 64 (fieldValue e) + packReg l := by
  rw [packReg_eq_sum, packReg_eq_sum, List.map_cons, List.sum_cons, BitVec.ofNat_add]

/-- One field in its place is the word under the field's mask. -/
theorem ofNat_fieldValue_bitsOf (n : Word) (lo w : Nat) :
    BitVec.ofNat 64 (fieldValue (bitsOf n.toNat lo w, lo, w)) = n &&& fieldMask lo w := by
  apply BitVec.eq_of_getLsbD_eq
  intro i hi
  simp only [fieldMask, fieldValue, bitsOf, BitVec.getLsbD_and, BitVec.getLsbD_ofNat, Nat.testBit_mul_two_pow, Nat.testBit_mod_two_pow,
    Nat.testBit_two_pow_sub_one, Nat.testBit_div_two_pow, BitVec.testBit_toNat, hi, decide_true, Bool.true_and]
  by_cases h : lo ≤ i
  · simp only [h, decide_true, Bool.true_and, Nat.sub_add_cancel h]
    cases decide (i - lo < w) <;> simp
  · simp [h]

theorem and_add_and_of_disjoint (n : Word) {a b : Word} (h : a &&& b = 0) : (n &&& a) + (n &&& b) = n &&& (a ||| b) := by
  have hz : (n &&& a) &&& (n &&& b) = 0 := by
    calc (n &&& a) &&& (n &&& b) = n &&& (a &&& b) := by
          ext i hi
          simp only [BitVec.getElem_and]
          cases n[i] <;> simp
      _ = 0 := by rw [h]; exact BitVec.and_zero
  rw [BitVec.add_eq_or_of_and_eq_zero _ _ hz, ← BitVec.and_or_distrib_left]

/-- Fields that do not overlap, taken from a word and put back in their places, are the word without its other bits. -/
theorem packReg_fieldsOf (n : Word) (l : List (Nat × Nat)) (h : fieldsDisjoint l = true) :
    packReg (fieldsOf n l) = n &&& fieldsMask l := by
  induction l with
  | nil => simp [fieldsOf, fieldsMask, packReg_nil]
  | cons f l ih =>
    obtain ⟨lo, w⟩ := f
    simp only [fieldsDisjoint, Bool.and_eq_true, decide_eq_true_eq] at h
    obtain ⟨hf, hl⟩ := h
    calc packReg (fieldsOf n ((lo, w) :: l))
        = (n &&& fieldMask lo w) + packReg (fieldsOf n l) := by
          rw [fieldsOf, List.map_cons, packReg_cons, ofNat_fieldValue_bitsOf, fieldsOf]
      _ = n &&& fieldsMask ((lo, w) :: l) := by rw [ih hl, and_add_and_of_disjoint n hf, fieldsMask]

/-- A register whose fields are those of a word reads as the word under the mask of its fields. -/
theorem packReg_eq_and {n m : Word} {l : List (Nat × Nat × Nat)} (fields : List (Nat × Nat)) (hl : l = fieldsOf n fields)
    (hd : fieldsDisjoint fields = true) (hm : fieldsMask fields = m) : packReg l = n &&& m := by
  rw [hl, packReg_fieldsOf n fields hd, hm]

/-- A bit of a word as the field of one bit. -/
theorem toNat_getLsbD_eq_bitsOf (n : Word) (k : Nat) : (n.getLsbD k).toNat = bitsOf n.toNat k 1 := by
  rw [← BitVec.testBit_toNat, Nat.toNat_testBit, bitsOf, Nat.pow_one]

/-- A part of a word as a field. -/
theorem toNat_extractLsb'_eq_bitsOf (n : Word) (lo w : Nat) : (n.extractLsb' lo w).toNat = bitsOf n.toNat lo w := by
  rw [BitVec.extractLsb'_toNat, Nat.shiftRight_eq_div_pow, bitsOf]

/-- A slot entry reads as written (R300). -/
theorem SlotEnt.reg_ofReg (n : Word) : (SlotEnt.ofReg n).reg = n &&& 0x800000FFFFFFFFFF := by
  rw [SlotEnt.reg, SlotEnt.ofReg]
  simp only [toNat_getLsbD_eq_bitsOf, toNat_extractLsb'_eq_bitsOf]
  exact packReg_eq_and [(63, 1), (20, 20), (0, 20)] rfl (by decide) (by decide)

/-- A routing entry reads as written, with HOST set (R277, R301). -/
theorem Route.reg_ofReg (n : Word) : (Route.ofReg n).reg = (n &&& 0x80000000003FFFFF) ||| 0x4000000000000000 := by
  have rest : packReg (fieldsOf n [(20, 2), (15, 5), (10, 5), (5, 5), (0, 5)]) = n &&& 0x3FFFFF :=
    packReg_eq_and _ rfl (by decide) (by decide)
  calc (Route.ofReg n).reg
      = packReg ((bitsOf n.toNat 63 1, 63, 1) :: (1, 62, 1) :: fieldsOf n [(20, 2), (15, 5), (10, 5), (5, 5), (0, 5)]) := by
        rw [Route.reg, Route.ofReg]
        simp only [toNat_getLsbD_eq_bitsOf, toNat_extractLsb'_eq_bitsOf]
        rfl
    _ = (n &&& fieldMask 63 1) + (0x4000000000000000 + (n &&& 0x3FFFFF)) := by
        rw [packReg_cons, packReg_cons, ofNat_fieldValue_bitsOf, rest]
        rfl
    _ = (n &&& 0x80000000003FFFFF) + 0x4000000000000000 := by
        rw [← BitVec.add_assoc, BitVec.add_comm (n &&& _), BitVec.add_assoc, and_add_and_of_disjoint n (by decide), BitVec.add_comm]
        rfl
    _ = (n &&& 0x80000000003FFFFF) ||| 0x4000000000000000 :=
        BitVec.add_eq_or_of_and_eq_zero _ _ (by rw [BitVec.and_assoc]; exact BitVec.and_zero)

/-- A multicast entry reads as written (R302). -/
theorem McastEnt.reg_ofReg (n : Word) : (McastEnt.ofReg n).reg = n &&& 0x80F0FFFFFFFFFFFF := by
  rw [McastEnt.reg, McastEnt.ofReg]
  simp only [toNat_getLsbD_eq_bitsOf, toNat_extractLsb'_eq_bitsOf]
  exact packReg_eq_and [(63, 1), (53, 3), (52, 1), (32, 16), (0, 32)] rfl (by decide) (by decide)

/-- A reduction node reads as written (R330). -/
theorem RedNode.reg_ofReg (n : Word) : (RedNode.ofReg n).reg = n &&& 0xC01FFF00FFFFFFFF := by
  rw [RedNode.reg, RedNode.ofReg]
  simp only [toNat_getLsbD_eq_bitsOf, toNat_extractLsb'_eq_bitsOf]
  exact packReg_eq_and [(63, 1), (62, 1), (48, 5), (40, 8), (0, 32)] rfl (by decide) (by decide)

/-- The weights read as written (R433). -/
theorem sevenReg_leBytes (n : Word) : sevenReg (leBytes 7 n.toNat) = n &&& 0x00FFFFFFFFFFFFFF := by
  have bytes : leNat (leBytes 7 n.toNat) = fieldValue (bitsOf n.toNat 0 56, 0, 56) := by
    simp only [leBytes, leNat, fieldValue, BitVec.toNat_ofNat, bitsOf]
    omega
  have whole : bytesAt (leBytes 7 n.toNat) 0 7 = leBytes 7 n.toNat := rfl
  rw [sevenReg, whole, bytes, ofNat_fieldValue_bitsOf]
  rfl

end Sys2Proof.Machine
end

section
/-! Reads of the management window after writes (R3, R4, R26): where an offset leads, and what the registers of the host's tables return
once they are written whole. -/

namespace Sys2Proof.Machine

theorem physical_of_fn {who : Fn} (h : who.fn = 0) : physical who = true := decide_eq_true h

/-- A management function sees every partition's entries (R7). -/
theorem State.sees_physical (s : State) {who : Fn} (h : physical who = true) (q : Fin 8) : s.sees who q = true := by
  simp [State.sees, h]

/-- A management function sees every port (R7). -/
theorem State.seesPort_physical (s : State) {who : Fn} (h : physical who = true) (p : Nat) : s.seesPort who p = true := by
  simp [State.seesPort, h]

/-- A write of all bits of a register leaves nothing of what it held. -/
@[simp] theorem mergeBits_allOnes (old v : Word) : mergeBits old v (BitVec.allOnes 64) = v := by
  simp only [mergeBits, BitVec.not_allOnes, BitVec.and_zero, BitVec.zero_or, BitVec.and_allOnes]

/-- An aligned write of 64 bits touches its register, all bits of it (R3). -/
theorem writeLanes_eight {o : Nat} (v : Word) (h : o % 8 = 0) : writeLanes o 8 v = some (o, v, BitVec.allOnes 64) :=
  if_pos ⟨rfl, h⟩

/-- A write that is not naturally aligned, or of another size, touches no register (R3). -/
theorem writeLanes_none {o n : Nat} (v : Word) (h8 : n ≠ 8 ∨ o % 8 ≠ 0) (h4 : n ≠ 4 ∨ o % 4 ≠ 0) : writeLanes o n v = none := by
  have not8 : ¬(n = 8 ∧ o % 8 = 0) := by omega
  have not40 : ¬(n = 4 ∧ o % 8 = 0) := by omega
  have not44 : ¬(n = 4 ∧ o % 8 = 4) := by omega
  rw [writeLanes, if_neg not8, if_neg not40, if_neg not44]

theorem State.request_of_open {s : State} {who : Fn} (h : s.fnOpen who = true) (f : State → State) : s.request who f = f s := if_pos h

/-- A write that touches no register changes nothing (R3). -/
theorem exec_registerWrite_unaligned (who : Fn) (off : BitVec 26) (bt : BootIn) (v : Word) (s : State) {n : Nat}
    (h8 : n ≠ 8 ∨ off.toNat % 8 ≠ 0) (h4 : n ≠ 4 ∨ off.toNat % 4 ≠ 0) : exec (.registerWrite who off ⟨n, bt⟩ v) s = .next s := by
  show execRegisterWrite who off ⟨n, bt⟩ v s = .next s
  simp [execRegisterWrite, State.request, writeLanes_none v h8 h4]

/-- An aligned write of 64 bits but to BOOT_CTL, by a function that is served, writes its register (R3, R26). -/
theorem exec_registerWrite_eight {who : Fn} {s : State} (ho : s.fnOpen who = true) (bt : BootIn) (v : Word) {off : Nat}
    (hlt : off < 2 ^ 26) (h8 : off % 8 = 0) (hb : off ≠ 0x48) :
    exec (.registerWrite who (BitVec.ofNat 26 off) ⟨8, bt⟩ v) s = .next (s.writeReg who off v (BitVec.allOnes 64)) := by
  show execRegisterWrite who (BitVec.ofNat 26 off) ⟨8, bt⟩ v s = _
  have hoff : (BitVec.ofNat 26 off).toNat = off := by rw [BitVec.toNat_ofNat, Nat.mod_eq_of_lt hlt]
  simp [execRegisterWrite, State.request_of_open ho, hoff, writeLanes_eight v h8, hb]

/-- An aligned read of 64 bits of a register without performance counters returns it as it is (R3, R389). -/
theorem State.readWindow_eight (s : State) (who : Fn) {off : Nat} (h8 : off % 8 = 0) (hp : perfBits off = 0) :
    (s.readWindow who off 8).1 = s.readReg who off := by
  have base : off - off % 8 = off := by omega
  simp [State.readWindow, State.readLatched, h8, hp]

/-- A 64-bit write of a register that a read then returns as `r`. -/
def RegisterReadsBack (who : Fn) (off : Nat) (v : Word) (bt : BootIn) (s : State) (r : Word) : Prop :=
  ∃ t, exec (.registerWrite who (BitVec.ofNat 26 off) ⟨8, bt⟩ v) s = .next t ∧ t.pending = s.pending ∧ (t.readWindow who off 8).1 = r

/-- The two fabric blocks lie one after the other in the window (R26). -/
theorem State.readReg_fab (s : State) (who : Fn) {d o : Nat} (hd : d < 2) (ho : o < 0x200000) :
    s.readReg who (0x800000 + d * 0x200000 + o) = s.readFab who d o := by
  have hdiv : (0x800000 + d * 0x200000 + o - 0x800000) / 0x200000 = d := by omega
  have hmod : (0x800000 + d * 0x200000 + o - 0x800000) % 0x200000 = o := by omega
  have above (n : Nat) (hn : n ≤ 0x800000) : ¬(0x800000 + d * 0x200000 + o < n) := by omega
  have below : 0x800000 + d * 0x200000 + o < 0xC00000 := by omega
  simp only [State.readReg, above, below, hdiv, hmod, Nat.reduceLeDiff, if_false, if_true]

theorem State.writeReg_fab (s : State) {who : Fn} (hw : physical who = true) {d o : Nat} (hd : d < 2) (ho : o < 0x200000) (v m : Word) :
    s.writeReg who (0x800000 + d * 0x200000 + o) v m = s.writeFab who d o v m := by
  have hdiv : (0x800000 + d * 0x200000 + o - 0x800000) / 0x200000 = d := by omega
  have hmod : (0x800000 + d * 0x200000 + o - 0x800000) % 0x200000 = o := by omega
  have above (n : Nat) (hn : n ≤ 0x800000) : ¬(0x800000 + d * 0x200000 + o < n) := by omega
  have inside : 0x800000 ≤ 0x800000 + d * 0x200000 + o ∧ 0x800000 + d * 0x200000 + o < 0xC00000 := by omega
  simp only [State.writeReg, above, inside, hdiv, hmod, hw, Nat.reduceLeDiff, if_false, if_true, and_self]

/-- The tables of a fabric block hold no performance counters (R390). -/
theorem perfBits_fab {d o : Nat} (hd : d < 2) (h1 : 0x1000 ≤ o) (h2 : o < 0x72000) : perfBits (0x800000 + d * 0x200000 + o) = 0 := by
  have notSlice : ¬(0x1000000 ≤ 0x800000 + d * 0x200000 + o ∧ 0x800000 + d * 0x200000 + o < 0x2000000) := by omega
  have fab : 0x800000 ≤ 0x800000 + d * 0x200000 + o ∧ 0x800000 + d * 0x200000 + o < 0xC00000 := by omega
  have hmod : (0x800000 + d * 0x200000 + o) % 0x200000 = o := by omega
  have notPort : ¬(o < 0x1000 ∧ o % 0x100 = 0x28) := by omega
  have notRed : ¬(0x72000 ≤ o ∧ o < 0x72100 ∧ o % 0x20 = 8) := by omega
  simp only [perfBits, notSlice, fab, hmod, notPort, notRed, if_false, if_true, and_self]

theorem State.writeFab_slot (s : State) (who : Fn) (d : Nat) {o i k : Nat}
    (hoff : o = 0x40000 + 0x800 * i + 8 * k) (hi : i < 16) (hk : k < 256) (v : Word) :
    s.writeFab who d o v (BitVec.allOnes 64) =
      s.onW fun w => w.updPort (16 * d + i) fun y => { y with shadow := y.shadow.set .zero k (.ofReg v) } := by
  have notPort : ¬(o < 0x1000) := by omega
  have inTable : 0x40000 ≤ o ∧ o < 0x48000 := by omega
  have port : o % 0x8000 / 0x800 = i := by omega
  have entry : o % 0x800 / 8 = k := by omega
  simp only [State.writeFab, notPort, inTable, port, entry, if_false, if_true, and_self, mergeBits_allOnes]

theorem State.readFab_slot (s : State) {who : Fn} (hw : physical who = true) (d : Nat) {o i k : Nat}
    (hoff : o = 0x40000 + 0x800 * i + 8 * k) (hi : i < 16) (hk : k < 256) :
    s.readFab who d o = ((s.w.port (16 * d + i)).shadow.get .zero k).reg := by
  have notPort : ¬(o < 0x1000) := by omega
  have inTables : 0x40000 ≤ o ∧ o < 0x50000 := by omega
  have shadow : o < 0x48000 := by omega
  have port : o % 0x8000 / 0x800 = i := by omega
  have entry : o % 0x8000 % 0x800 / 8 = k := by omega
  simp only [State.readFab, notPort, inTables, shadow, port, entry, s.seesPort_physical hw, if_false, if_true, and_self]

/-- The tables that both fabric blocks show lie outside the ports' registers and slot tables (R294). -/
theorem State.writeFab_shared (s : State) (who : Fn) (d : Nat) {o : Nat} (h1 : 0x1000 ≤ o) (h2 : o < 0x40000 ∨ 0x50000 ≤ o) (v m : Word) :
    s.writeFab who d o v m = s.writeFabShared who o v m := by
  have notPort : ¬(o < 0x1000) := by omega
  have notSlot : ¬(0x40000 ≤ o ∧ o < 0x48000) := by omega
  rw [State.writeFab, if_neg notPort, if_neg notSlot]

theorem State.readFab_shared (s : State) (who : Fn) (d : Nat) {o : Nat} (h1 : 0x1000 ≤ o) (h2 : o < 0x40000 ∨ 0x50000 ≤ o) :
    s.readFab who d o = s.readFabShared who o := by
  have notPort : ¬(o < 0x1000) := by omega
  have notSlot : ¬(0x40000 ≤ o ∧ o < 0x50000) := by omega
  rw [State.readFab, if_neg notPort, if_neg notSlot]

theorem State.writeFabShared_groupRoute (s : State) (who : Fn) {o q m : Nat}
    (hoff : o = 0x10000 + 0x4000 * q + 8 * m) (hq : q < 8) (hm : m < 1024) (v : Word) :
    s.writeFabShared who o v (BitVec.allOnes 64) =
      s.onFab fun f => { f with groupRoutes := f.groupRoutes.set .zero (q * 1024 + m) (.ofReg v) } := by
  have inTable : 0x10000 ≤ o ∧ o < 0x30000 := by omega
  have part : (o - 0x10000) / 0x4000 = q := by omega
  have entry : o % 0x4000 = 8 * m := by omega
  have group : 8 * m < 0x2000 := by omega
  have index : 8 * m / 8 = m := Nat.mul_div_cancel_left m (by decide)
  simp only [State.writeFabShared, inTable, part, entry, group, index, if_true, and_self, mergeBits_allOnes]

theorem State.readFabShared_groupRoute (s : State) {who : Fn} (hw : physical who = true) {o q m : Nat}
    (hoff : o = 0x10000 + 0x4000 * q + 8 * m) (hq : q < 8) (hm : m < 1024) :
    s.readFabShared who o = (s.w.fab.groupRoutes.get .zero (q * 1024 + m)).reg := by
  have inTable : 0x10000 ≤ o ∧ o < 0x30000 := by omega
  have part : (partFin ((o - 0x10000) / 0x4000)).val = q := by simp only [partFin]; omega
  have entry : o % 0x4000 = 8 * m := by omega
  have group : 8 * m < 0x2000 := by omega
  have index : 8 * m / 8 = m := Nat.mul_div_cancel_left m (by decide)
  simp only [State.readFabShared, inTable, part, entry, group, index, s.sees_physical hw, if_true, if_false, and_self, Bool.not_true,
    Bool.false_eq_true]

theorem State.writeFabShared_memberRoute (s : State) (who : Fn) {o q m : Nat}
    (hoff : o = 0x12000 + 0x4000 * q + 8 * m) (hq : q < 8) (hm : m < 64) (v : Word) :
    s.writeFabShared who o v (BitVec.allOnes 64) =
      s.onFab fun f => { f with memberRoutes := f.memberRoutes.set .zero (q * 64 + m) (.ofReg v) } := by
  have inTable : 0x10000 ≤ o ∧ o < 0x30000 := by omega
  have part : (o - 0x10000) / 0x4000 = q := by omega
  have entry : o % 0x4000 = 0x2000 + 8 * m := by omega
  have notGroup : ¬(0x2000 + 8 * m < 0x2000) := by omega
  have member : 0x2000 + 8 * m < 0x2200 := by omega
  have index : (0x2000 + 8 * m - 0x2000) / 8 = m := by rw [Nat.add_sub_cancel_left, Nat.mul_div_cancel_left m (by decide)]
  simp only [State.writeFabShared, inTable, part, entry, notGroup, member, index, if_true, if_false, and_self, mergeBits_allOnes]

theorem State.readFabShared_memberRoute (s : State) {who : Fn} (hw : physical who = true) {o q m : Nat}
    (hoff : o = 0x12000 + 0x4000 * q + 8 * m) (hq : q < 8) (hm : m < 64) :
    s.readFabShared who o = (s.w.fab.memberRoutes.get .zero (q * 64 + m)).reg := by
  have inTable : 0x10000 ≤ o ∧ o < 0x30000 := by omega
  have part : (partFin ((o - 0x10000) / 0x4000)).val = q := by simp only [partFin]; omega
  have entry : o % 0x4000 = 0x2000 + 8 * m := by omega
  have notGroup : ¬(0x2000 + 8 * m < 0x2000) := by omega
  have member : 0x2000 + 8 * m < 0x2200 := by omega
  have index : (0x2000 + 8 * m - 0x2000) / 8 = m := by rw [Nat.add_sub_cancel_left, Nat.mul_div_cancel_left m (by decide)]
  simp only [State.readFabShared, inTable, part, entry, notGroup, member, index, s.sees_physical hw, if_true, and_self, Bool.not_true,
    Bool.false_eq_true, if_false]

theorem State.writeFabShared_mcast (s : State) (who : Fn) {o g : Nat} (hoff : o = 0x60000 + 8 * g) (hg : g < 4096) (v : Word) :
    s.writeFabShared who o v (BitVec.allOnes 64) = s.onFab fun f => { f with mcast := f.mcast.set .zero g (.ofReg v) } := by
  have notRoutes : ¬(0x10000 ≤ o ∧ o < 0x30000) := by omega
  have inTable : 0x60000 ≤ o ∧ o < 0x68000 := by omega
  have index : (o - 0x60000) / 8 = g := by omega
  simp only [State.writeFabShared, notRoutes, inTable, index, if_true, if_false, and_self, mergeBits_allOnes]

theorem State.readFabShared_mcast (s : State) {who : Fn} (hw : physical who = true) {o g : Nat} (hoff : o = 0x60000 + 8 * g) (hg : g < 4096) :
    s.readFabShared who o = (s.w.fab.mcast.get .zero g).reg := by
  have notRoutes : ¬(0x10000 ≤ o ∧ o < 0x30000) := by omega
  have inTable : 0x60000 ≤ o ∧ o < 0x68000 := by omega
  have index : (o - 0x60000) / 8 = g := by omega
  simp only [State.readFabShared, notRoutes, inTable, index, s.sees_physical hw, if_true, if_false, and_self]

theorem State.writeFabShared_redNode (s : State) (who : Fn) {o k : Nat} (hoff : o = 0x71000 + 0x10 * k) (hk : k < 16) (v : Word) :
    s.writeFabShared who o v (BitVec.allOnes 64) =
      s.onW fun w => { w with red := { w.red with nodes := w.red.nodes.set .zero k (.ofReg v) } } := by
  have notRoutes : ¬(0x10000 ≤ o ∧ o < 0x30000) := by omega
  have notMcast : ¬(0x60000 ≤ o ∧ o < 0x68000) := by omega
  have notEpoch : o ≠ 0x70000 := by omega
  have notPeriodAt : o ≠ 0x70010 := by omega
  have notPeriodReq : o ≠ 0x70018 := by omega
  have inTable : 0x71000 ≤ o ∧ o < 0x71100 ∧ o % 0x10 = 0 := by omega
  have index : (o - 0x71000) / 0x10 = k := by omega
  simp only [State.writeFabShared, notRoutes, notMcast, notEpoch, notPeriodAt, notPeriodReq, inTable, index, if_true,
    if_false, and_self, mergeBits_allOnes]

theorem State.readFabShared_redNode (s : State) {who : Fn} (hw : physical who = true) {o k : Nat} (hoff : o = 0x71000 + 0x10 * k) (hk : k < 16) :
    s.readFabShared who o = (s.w.red.nodes.get .zero k).reg := by
  have notRoutes : ¬(0x10000 ≤ o ∧ o < 0x30000) := by omega
  have notMcast : ¬(0x60000 ≤ o ∧ o < 0x68000) := by omega
  have notTime : ¬(0x70000 ≤ o ∧ o < 0x70020) := by omega
  have inTable : 0x71000 ≤ o ∧ o < 0x71100 := by omega
  have first : o % 0x10 = 0 := by omega
  have index : (o - 0x71000) / 0x10 = k := by omega
  simp only [State.readFabShared, notRoutes, notMcast, notTime, inTable, first, index, s.sees_physical hw, if_true, if_false, and_self,
    decide_true, Bool.and_self]

/-- The weights of the health score, as a management function writes them (R433). -/
theorem State.writeReg_weights (s : State) {who : Fn} (hw : physical who = true) (v m : Word) :
    s.writeReg who 0x600010 v m =
      s.onCtl fun c => { c with health := { c.health with weights := leBytes 7 (mergeBits (s.readHlth who 0x10) v m).toNat } } := by
  simp [State.writeReg, State.writeHlth, hw]

theorem State.readReg_weights (s : State) {who : Fn} (hw : physical who = true) : s.readReg who 0x600010 = sevenReg s.ctl.health.weights := by
  simp [State.readReg, State.readHlth, hw]

section
variable {who : Fn} {s : State} (hw : physical who = true) (ho : s.fnOpen who = true) (v : Word) (bt : BootIn)
include hw ho

/-- A table entry of a fabric block reads back as soon as the block's own write and read agree. -/
theorem registerReadsBack_fab {d o off : Nat} {r : Word} {f : Work → Work} (hwrite : s.writeFab who d o v (BitVec.allOnes 64) = s.onW f)
    (hread : (s.onW f).readFab who d o = r) (hoff : off = 0x800000 + d * 0x200000 + o := by omega) (hd : d < 2 := by omega)
    (h1 : 0x1000 ≤ o := by omega) (h2 : o < 0x72000 := by omega) (h8 : o % 8 = 0 := by omega) :
    RegisterReadsBack who off v bt s r := by
  subst hoff
  refine ⟨s.onW f, ?_, rfl, ?_⟩
  · rw [exec_registerWrite_eight ho bt v (by omega) (by omega) (by omega), State.writeReg_fab s hw hd (by omega), hwrite]
  · rw [State.readWindow_eight _ who (by omega) (perfBits_fab hd h1 h2), State.readReg_fab _ who hd (by omega), hread]

/-- An entry of the tables that both fabric blocks show reads back as soon as their own write and read agree (R294). -/
theorem registerReadsBack_fabShared {o off : Nat} {r : Word} {f : Work → Work}
    (hwrite : s.writeFabShared who o v (BitVec.allOnes 64) = s.onW f)
    (hread : (s.onW f).readFabShared who o = r) (hoff : off = 0x800000 + o := by omega) (h1 : 0x1000 ≤ o := by omega)
    (hslot : o < 0x40000 ∨ 0x50000 ≤ o := by omega) (h2 : o < 0x72000 := by omega) (h8 : o % 8 = 0 := by omega) :
    RegisterReadsBack who off v bt s r :=
  registerReadsBack_fab hw ho v bt ((s.writeFab_shared who 0 h1 hslot v _).trans hwrite)
    ((State.readFab_shared _ who 0 h1 hslot).trans hread)

/-- A slot entry reads back (R300). -/
theorem slot_readsBack {p k : Nat} (hp : p < 32) (hk : k < 256) :
    RegisterReadsBack who (0x840000 + p / 16 * 0x200000 + p % 16 * 0x800 + 8 * k) v bt s (v &&& 0x800000FFFFFFFFFF) := by
  have hi : p % 16 < 16 := Nat.mod_lt p (by decide)
  refine registerReadsBack_fab hw ho v bt (s.writeFab_slot who (p / 16) rfl hi hk v) ?_
  simp only [State.readFab_slot _ hw _ rfl hi hk, State.onW_w, Work.port_updPort_same, Tbl.get_set_same, SlotEnt.reg_ofReg]

/-- A route to a group reads back with HOST set (R277, R301). -/
theorem groupRoute_readsBack {q m : Nat} (hq : q < 8) (hm : m < 1024) :
    RegisterReadsBack who (0x810000 + 0x4000 * q + 8 * m) v bt s ((v &&& 0x80000000003FFFFF) ||| 0x4000000000000000) := by
  refine registerReadsBack_fabShared hw ho v bt (s.writeFabShared_groupRoute who rfl hq hm v) ?_
  simp only [State.readFabShared_groupRoute _ hw rfl hq hm, State.onW_w, Tbl.get_set_same, Route.reg_ofReg]

/-- A route to a member reads back with HOST set (R277, R301). -/
theorem memberRoute_readsBack {q m : Nat} (hq : q < 8) (hm : m < 64) :
    RegisterReadsBack who (0x812000 + 0x4000 * q + 8 * m) v bt s ((v &&& 0x80000000003FFFFF) ||| 0x4000000000000000) := by
  refine registerReadsBack_fabShared hw ho v bt (s.writeFabShared_memberRoute who rfl hq hm v) ?_
  simp only [State.readFabShared_memberRoute _ hw rfl hq hm, State.onW_w, Tbl.get_set_same, Route.reg_ofReg]

/-- A multicast entry reads back (R302). -/
theorem mcast_readsBack {g : Nat} (hg : g < 4096) : RegisterReadsBack who (0x860000 + 8 * g) v bt s (v &&& 0x80F0FFFFFFFFFFFF) := by
  refine registerReadsBack_fabShared hw ho v bt (s.writeFabShared_mcast who rfl hg v) ?_
  simp only [State.readFabShared_mcast _ hw rfl hg, State.onW_w, Tbl.get_set_same, McastEnt.reg_ofReg]

/-- A reduction node reads back (R330). -/
theorem redNode_readsBack {k : Nat} (hk : k < 16) : RegisterReadsBack who (0x871000 + 0x10 * k) v bt s (v &&& 0xC01FFF00FFFFFFFF) := by
  refine registerReadsBack_fabShared hw ho v bt (s.writeFabShared_redNode who rfl hk v) ?_
  simp only [State.readFabShared_redNode _ hw rfl hk, State.onW_w, Tbl.get_set_same, RedNode.reg_ofReg]

/-- The weights read back (R433). -/
theorem weights_readsBack : RegisterReadsBack who 0x600010 v bt s (v &&& 0x00FFFFFFFFFFFFFF) := by
  have write := exec_registerWrite_eight ho bt v (off := 0x600010) (by decide) (by decide) (by decide)
  rw [s.writeReg_weights hw, mergeBits_allOnes] at write
  refine ⟨_, write, rfl, ?_⟩
  rw [State.readWindow_eight _ who (by decide) (by decide), State.readReg_weights _ hw, State.onCtl_ctl]
  exact sevenReg_leBytes v

end

/-- Settles O40: each table's write and read name the same entry, and each entry's word is its fields as written. -/
theorem registerReadsWhatIsWritten : Obligations.RegisterReadsWhatIsWritten := by
  unfold Obligations.RegisterReadsWhatIsWritten
  intro who v bt s hfn ho
  have hw : physical who = true := physical_of_fn hfn
  exact ⟨fun _ _ => slot_readsBack hw ho v bt, fun _ _ => groupRoute_readsBack hw ho v bt,
    fun _ _ => memberRoute_readsBack hw ho v bt, fun _ => mcast_readsBack hw ho v bt, fun _ => redNode_readsBack hw ho v bt,
    weights_readsBack hw ho v bt, fun off _ h8 h4 => exec_registerWrite_unaligned who off bt v s h8 h4⟩

end Sys2Proof.Machine
end

section
/-! Patches and the end of bring-up mode (R4, R378, R475-R477, R481, R496, R497): what the writes of PATCH_CMD and BOOT_CTL do. -/

namespace Sys2Proof.Machine

theorem Ctl.rwb_iff (c : Ctl) : c.rwb = true ↔ c.dyke.locked = false ∧ c.dyke.rebooting = false := by
  simp [Ctl.rwb]

theorem State.request_of_closed {s : State} {who : Fn} (h : s.fnOpen who = false) (f : State → State) : s.request who f = s := by
  simp [State.request, h]

/-- A write that is for management functions alone does nothing by another function, or by one that is not served (R392, R478). -/
theorem State.request_physical_ignored {s : State} {who : Fn} (h : ¬(who.fn = 0 ∧ s.fnOpen who = true)) (f : State → State) :
    (s.request who fun t => if physical who then f t else t) = s := by
  by_cases ho : s.fnOpen who = true
  · have hw : physical who = false := decide_eq_false fun hfn => h ⟨hfn, ho⟩
    rw [State.request_of_open ho, hw]
    rfl
  · exact State.request_of_closed (Bool.not_eq_true _ ▸ ho) _

/-- Outside bring-up mode RESULT of a COMMIT is 5 (R497). -/
theorem BootSt.commitPatch_outside {b : BootSt} (h : b.bringup = false) : b.commitPatch = { b with patchResult := 5 } :=
  if_pos (by rw [h]; rfl)

/-- In bring-up mode the patch in the buffer is stored where its check finds no fault, and RESULT is the check's (R476, R477). -/
theorem BootSt.commitPatch_inside {b : BootSt} (h : b.bringup = true) :
    b.commitPatch =
      let p := b.patchBuf.readN 0 (min (patchBytes (b.patchBuf.readN 0 64)) 524288)
      let c := patchCause p b.patchSerial.toNat
      if c = 0 then { b with patchStore := some p, patchSerial := BitVec.ofNat 32 (patchSerialOf p), patchResult := 0 }
      else { b with patchResult := BitVec.ofNat 8 c } := by
  simp only [BootSt.commitPatch, h, BootSt.patchEnds, Bool.not_true, Bool.false_eq_true, if_false, ite_not]
  rfl

/-- ERASE empties the store in bring-up mode; outside its RESULT is 5 (R477, R497). -/
theorem BootSt.erasePatch_eq (b : BootSt) :
    b.erasePatch = if b.bringup then { b with patchStore := none, patchResult := 0 } else { b with patchResult := 5 } := by
  cases h : b.bringup <;> simp [BootSt.erasePatch, BootSt.patchEnds, h]

section
variable {who : Fn} {s : State} {v : Word}

theorem exec_patchCommit (hfn : who.fn = 0) (ho : s.fnOpen who = true) (hr : s.ctl.rwb = true) (hv : v.getLsbD 0 = true) :
    exec (.patchCommit who v) s = .next (s.onCtl fun c => { c with boot := c.boot.commitPatch }) := by
  show execPatchCommit who v s = _
  simp [execPatchCommit, State.request_of_open ho, physical_of_fn hfn, hr, hv]

theorem exec_patchErase (hfn : who.fn = 0) (ho : s.fnOpen who = true) (hr : s.ctl.rwb = true) (hv : v.getLsbD 1 = true) :
    exec (.patchErase who v) s = .next (s.onCtl fun c => { c with boot := c.boot.erasePatch }) := by
  show execPatchErase who v s = _
  simp [execPatchErase, State.request_of_open ho, physical_of_fn hfn, hr, hv]

/-- PATCH_CMD is for management functions before the lock (R4): any other write of it is ignored. -/
theorem exec_patch_ignored (h : ¬(who.fn = 0 ∧ s.fnOpen who = true) ∨ s.ctl.rwb = false) :
    exec (.patchCommit who v) s = .next s ∧ exec (.patchErase who v) s = .next s := by
  show execPatchCommit who v s = _ ∧ execPatchErase who v s = _
  by_cases ho : s.fnOpen who = true
  · have off : (physical who && s.ctl.rwb) = false := by
      rcases h with hpf | hr
      · have hw : physical who = false := decide_eq_false fun hfn => hpf ⟨hfn, ho⟩
        rw [hw, Bool.false_and]
      · rw [hr, Bool.and_false]
    simp only [execPatchCommit, execPatchErase, State.request_of_open ho, off, Bool.false_and, Bool.false_eq_true, if_false, and_self]
  · have closed : s.fnOpen who = false := Bool.not_eq_true _ ▸ ho
    simp [execPatchCommit, execPatchErase, State.request_of_closed closed]

end

/-- The lock is set on the Dyke of the stored manifest or on one without partitions (R341, R378, R478). -/
theorem State.lockUp_cases (s : State) :
    ∃ w c, s.lockUp = { s with w := w, ctl := c } ∧ ((∃ b, c = s.ctl.lockDyke b false) ∨ c = s.ctl.lockEmpty) := by
  unfold State.lockUp
  cases s.ctl.bootManifest with
  | none => exact ⟨_, _, rfl, Or.inr rfl⟩
  | some b => exact ⟨_, _, rfl, Or.inl ⟨b, rfl⟩⟩

@[simp] theorem State.lockUp_pending (s : State) : s.lockUp.pending = s.pending := by
  obtain ⟨w, c, h, _⟩ := s.lockUp_cases
  rw [h]

/-- The lock ends the boot and clears the patch buffer; the rest of the boot's state stays (R478, R497). -/
@[simp] theorem State.lockUp_boot (s : State) : s.lockUp.ctl.boot = { s.ctl.boot with phase := 4, patchBuf := [] } := by
  obtain ⟨w, c, h, ⟨b, rfl⟩ | rfl⟩ := s.lockUp_cases <;> rw [h] <;> rfl

@[simp] theorem State.lockUp_locked (s : State) : s.lockUp.ctl.dyke.locked = true := by
  obtain ⟨w, c, h, ⟨b, rfl⟩ | rfl⟩ := s.lockUp_cases <;> rw [h] <;> rfl

@[simp] theorem State.lockUp_jtag (s : State) : s.lockUp.ctl.jtag = s.ctl.jtag := by
  obtain ⟨w, c, h, ⟨b, rfl⟩ | rfl⟩ := s.lockUp_cases <;> rw [h] <;> rfl

@[simp] theorem Ctl.settleTap_boot (c : Ctl) : c.settleTap.boot = c.boot := by
  unfold Ctl.settleTap
  split <;> rfl

/-- An instruction that drives the lands ends where they may not be driven (R528). -/
theorem Ctl.settleTap_jtag_of_ends {c : Ctl} (hp : c.pinTest = false) (hi : [0x00, 0x03, 0x04].contains c.jtag.ir = true) :
    c.settleTap.jtag = { c.jtag with ir := 0xFF, driving := false } := by
  simp only [Ctl.settleTap, hp, hi, Bool.not_false, Bool.and_self, if_true]

/-- The management state when RELEASE ends bring-up mode, before the lock (R481). -/
def Ctl.endBringup (c : Ctl) (late : Bool) : Ctl :=
  let boot : BootSt := { c.boot with bringup := false, phase := 3 }
  { c with boot := if late then boot.patchEnds 5 else boot }

/-- RELEASE locks the state in which bring-up mode has ended (R481). -/
theorem State.releaseBringup_eq_lockUp (s : State) (b : BootIn) :
    ∃ w, s.releaseBringup b = ({ s with w := w, ctl := (s.ctl.endBringup b.lateCommit).settleTap } : State).lockUp := ⟨_, rfl⟩

theorem State.releaseBringup_pending (s : State) (b : BootIn) : (s.releaseBringup b).pending = s.pending := by
  obtain ⟨w, hw⟩ := s.releaseBringup_eq_lockUp b
  rw [hw, State.lockUp_pending]

theorem State.releaseBringup_locked (s : State) (b : BootIn) : (s.releaseBringup b).ctl.dyke.locked = true := by
  obtain ⟨w, hw⟩ := s.releaseBringup_eq_lockUp b
  rw [hw, State.lockUp_locked]

/-- The boot's state after RELEASE: it is over, and a COMMIT that came meanwhile has RESULT 5 (R481, R497). -/
theorem State.releaseBringup_boot (s : State) (b : BootIn) :
    (s.releaseBringup b).ctl.boot =
      { s.ctl.boot with
        bringup := false, phase := 4, patchBuf := [], patchResult := if b.lateCommit then 5 else s.ctl.boot.patchResult } := by
  obtain ⟨w, hw⟩ := s.releaseBringup_eq_lockUp b
  rw [hw, State.lockUp_boot, Ctl.settleTap_boot]
  cases h : b.lateCommit <;> rfl

/-- After RELEASE the lands are driven no more, but for a device held by PERST# (R528). -/
theorem State.releaseBringup_jtag {s : State} (b : BootIn) (hp : s.ctl.pins.perstLow = false)
    (hi : [0x00, 0x03, 0x04].contains s.ctl.jtag.ir = true) :
    (s.releaseBringup b).ctl.jtag = { s.ctl.jtag with ir := 0xFF, driving := false } := by
  obtain ⟨w, hw⟩ := s.releaseBringup_eq_lockUp b
  have ended : (s.ctl.endBringup b.lateCommit).pinTest = false := by
    cases h : b.lateCommit <;> simp [Ctl.pinTest, Ctl.endBringup, BootSt.patchEnds, hp]
  rw [hw, State.lockUp_jtag, Ctl.settleTap_jtag_of_ends ended hi]
  rfl

theorem exec_bringupRelease {who : Fn} {s : State} (hfn : who.fn = 0) (ho : s.fnOpen who = true) (v : Word) (b : BootIn) :
    exec (.bringupRelease who v b) s = .next (s.writeBootCtl v b) := by
  show execBringupRelease who v b s = _
  simp [execBringupRelease, State.request_of_open ho, physical_of_fn hfn]

/-- BOOT_CTL is for management functions (R7). -/
theorem exec_bringupRelease_ignored {who : Fn} {s : State} (h : ¬(who.fn = 0 ∧ s.fnOpen who = true)) (v : Word) (b : BootIn) :
    exec (.bringupRelease who v b) s = .next s :=
  congrArg Host.Outcome.next (State.request_physical_ignored h fun t => t.writeBootCtl v b)

/-- Without RELEASE, or outside bring-up mode, BOOT_CTL takes BRINGUP_NEXT alone (R496). -/
theorem State.writeBootCtl_next {s : State} {v : Word} (h : v.getLsbD 1 = false ∨ s.ctl.boot.bringup = false) (b : BootIn) :
    s.writeBootCtl v b = s.onCtl fun c => { c with boot := { c.boot with bringupNext := v.getLsbD 0 } } := by
  have keep : (v.getLsbD 1 && s.ctl.boot.bringup) = false := by
    rcases h with hv | hb
    · rw [hv, Bool.false_and]
    · rw [hb, Bool.and_false]
  simp only [State.writeBootCtl, keep, Bool.false_eq_true, if_false]

/-- RELEASE in bring-up mode ends it, after BRINGUP_NEXT is written (R481, R496). -/
theorem State.writeBootCtl_release {s : State} {v : Word} (hv : v.getLsbD 1 = true) (hb : s.ctl.boot.bringup = true) (b : BootIn) :
    s.writeBootCtl v b = (s.onCtl fun c => { c with boot := { c.boot with bringupNext := v.getLsbD 0 } }).releaseBringup b := by
  simp only [State.writeBootCtl, hv, hb, Bool.and_self, if_true]

end Sys2Proof.Machine
end

section
/-! The board management port and the test port (R378, R528-R532): what each transaction and each instruction does. -/

namespace Sys2Proof.Machine

/-- The management port answers only with the main input in range and PWRGOOD asserted (R530). -/
theorem Ctl.supply_of_bmcOpen {c : Ctl} (h : c.bmcOpen = true) :
    11400 ≤ c.pwr.mainMv.toNat ∧ c.pwr.mainMv.toNat ≤ 12600 ∧ c.pins.pwrgood = true := by
  simp only [Ctl.bmcOpen, PwrSt.inRange, Bool.and_eq_true, decide_eq_true_eq] at h
  obtain ⟨⟨⟨_, good⟩, low, high⟩, _⟩ := h
  exact ⟨low, high, good⟩

theorem exec_bmcTransaction (isWrite : Bool) (off : Byte) (v : Word) {s : State} (h : s.ctl.bmcOpen = true) :
    exec (.bmcTransaction isWrite off v) s =
      .next (if isWrite then s.bmcWrite off v else s.onW fun w => w.emit (.bmc off (s.bmcRead off))) := by
  show execBmcTransaction isWrite off v s = _
  simp [execBmcTransaction, h]

theorem exec_bmcTransaction_closed (isWrite : Bool) (off : Byte) (v : Word) {s : State} (h : s.ctl.bmcOpen = false) :
    exec (.bmcTransaction isWrite off v) s = .next s := by
  show execBmcTransaction isWrite off v s = _
  simp [execBmcTransaction, h]

/-- ALERT is cleared by a 1 through the management port (R531). -/
theorem State.bmcWrite_logState (s : State) {v : Word} (hv : v.getLsbD 0 = true) :
    s.bmcWrite 0x30 v = s.onW fun w => { w with log := { w.log with alert := false } } := by
  rw [State.bmcWrite, if_neg (by decide), if_pos rfl, State.clearAlert, if_pos hv]

theorem Ctl.pinTest_iff (c : Ctl) : c.pinTest = true ↔ c.pins.perstLow = true ∨ c.boot.bringup = true := by
  rw [Ctl.pinTest, Bool.or_eq_true]

theorem Ctl.unlocks_iff (c : Ctl) (token : List Byte) :
    c.unlocks token = true ↔
      c.boot.bringup = true ∧ c.dyke.locked = false ∧ token.length = 64 ∧ shake256 token 32 = c.fuse.debugHash := by
  simp [Ctl.unlocks, and_assoc]

/-- Without the main input the test port does nothing (R532). -/
theorem State.tapOn_off {s : State} (h : s.ctl.pins.off = true) (t : State) : s.tapOn t = .next s := by
  rw [State.tapOn, h]
  rfl

theorem State.tapOn_on {s : State} (h : s.ctl.pins.off = false) (t : State) : s.tapOn t = .next t := by
  rw [State.tapOn, h]
  rfl

/-- An instruction that leaves `n` bits at TDO, with the test port's state after it. -/
def TapShows (i : Instr) (s : State) (j : JtagSt) (n : Nat) (x : Word) : Prop :=
  exec i s = .next { s with w := s.w.emit (.tdo n x), ctl := { s.ctl with jtag := j } }

/-- An instruction that draws a free value and leaves `n` bits at TDO. -/
def TapShowsFree (i : Instr) (s : State) (j : JtagSt) (n : Nat) (x : Word) : Prop :=
  exec i s = .next { s with w := ({ s.w with fresh := s.w.fresh + 1 } : Work).emit (.tdo n x), ctl := { s.ctl with jtag := j } }

/-- An instruction that acts as BYPASS (R528). -/
def ActsAsBypass (i : Instr) (s : State) : Prop := TapShows i s { s.ctl.jtag with ir := 0xFF, driving := false } 1 0

/-- DTMCS has 7 in its bits [9:4] and is of 32 bits (R528). -/
theorem dtmcsOf_fields (x : Word) : (dtmcsOf x).toNat / 16 % 64 = 7 ∧ (dtmcsOf x).toNat < 2 ^ 32 := by
  have whole : dtmcsOf x = x &&& 0xFFFFFC0F ||| 0x70 := BitVec.ofNat_toNat ..
  have abits : (x &&& 0xFFFFFC0F ||| 0x70).extractLsb' 4 6 = 7 := by
    ext i hi
    have cases_i : i = 0 ∨ i = 1 ∨ i = 2 ∨ i = 3 ∨ i = 4 ∨ i = 5 := by omega
    rcases cases_i with rfl | rfl | rfl | rfl | rfl | rfl <;> simp
  rw [whole]
  constructor
  · have h := congrArg BitVec.toNat abits
    rw [BitVec.extractLsb'_toNat, Nat.shiftRight_eq_div_pow] at h
    exact h
  · rw [BitVec.toNat_or, BitVec.toNat_and]
    exact Nat.or_lt_two_pow (Nat.and_lt_two_pow _ (by decide)) (by decide)

/-- A DMI write of dmcontrol that selects one of the eight harts halts or resumes that hart alone (R469, R528). -/
theorem JtagSt.dmiWrite_halted (j : JtagSt) {v : BitVec 41} (h : Fin 8) (hop : v.toNat % 4 = 2) (haddr : v.toNat / 2 ^ 34 = 0x10)
    (hhi : v.toNat / 2 ^ 8 % 2 ^ 10 = 0) (hlo : v.toNat / 2 ^ 18 % 2 ^ 10 = h.val) :
    (j.dmiWrite v).halted =
      if v.getLsbD 33 then j.halted ||| BitVec.ofNat 8 (2 ^ h.val)
      else if v.getLsbD 32 then j.halted &&& ~~~BitVec.ofNat 8 (2 ^ h.val) else j.halted := by
  have dmcontrol : bitsOf v.toNat 0 2 = 2 ∧ bitsOf v.toNat 34 7 = 0x10 := by
    refine ⟨?_, ?_⟩
    · rw [bitsOf, Nat.pow_zero, Nat.div_one]; exact hop
    · rw [bitsOf, haddr]; rfl
  have hart : bitsOf v.toNat 8 10 * 1024 + bitsOf v.toNat 18 10 = h.val := by
    rw [bitsOf, bitsOf, hhi, hlo]; omega
  simp only [JtagSt.dmiWrite, dmcontrol, hart, h.isLt, if_true, and_self]

theorem getLsbD_hartBit (h : Fin 8) : (BitVec.ofNat 8 (2 ^ h.val)).getLsbD h.val = true := by
  rw [BitVec.getLsbD_ofNat, Nat.testBit_two_pow_self, Bool.and_true]
  exact decide_eq_true h.isLt

section
variable {s : State} (hon : s.ctl.pins.off = false)
include hon

theorem exec_jtagExtest_shows (hp : s.ctl.pinTest = true) (cells : BitVec 48) :
    TapShowsFree (.jtagExtest cells) s { s.ctl.jtag with ir := 0x00, boundary := cells, driving := true } 48
      (BitVec.ofNat 64 ((Config.freeWord s.w.fresh).toNat % 2 ^ 48)) :=
  (State.tapOn_on hon _).trans (by rw [if_pos hp]; rfl)

theorem exec_jtagClamp_shows (hp : s.ctl.pinTest = true) :
    TapShows .jtagClamp s { s.ctl.jtag with ir := 0x03, driving := true } 1 0 :=
  (State.tapOn_on hon _).trans (by rw [if_pos hp]; rfl)

theorem exec_jtagHighz_shows (hp : s.ctl.pinTest = true) :
    TapShows .jtagHighz s { s.ctl.jtag with ir := 0x04, driving := false } 1 0 :=
  (State.tapOn_on hon _).trans (by rw [if_pos hp]; rfl)

/-- The instructions that drive the lands, or leave them undriven, act as BYPASS where the lands are not to be touched (R528). -/
theorem exec_pinTest_bypass (hp : ¬s.ctl.pinTest = true) (cells : BitVec 48) :
    ActsAsBypass (.jtagExtest cells) s ∧ ActsAsBypass .jtagClamp s ∧ ActsAsBypass .jtagHighz s :=
  ⟨(State.tapOn_on hon _).trans (by rw [if_neg hp]; rfl), (State.tapOn_on hon _).trans (by rw [if_neg hp]; rfl),
    (State.tapOn_on hon _).trans (by rw [if_neg hp]; rfl)⟩

theorem exec_jtagDtmcs_shows (hu : s.ctl.fuse.debugUnlocked = true) (v : BitVec 32) :
    TapShowsFree (.jtagDtmcs v) s { s.ctl.jtag with ir := 0x20, dtmcs := v, driving := false } 32 (dtmcsOf (Config.freeWord s.w.fresh)) :=
  (State.tapOn_on hon _).trans (by rw [if_pos hu]; rfl)

theorem exec_jtagDmi_shows (hu : s.ctl.fuse.debugUnlocked = true) (v : BitVec 41) :
    TapShowsFree (.jtagDmi v) s { s.ctl.jtag.dmiWrite v with ir := 0x21, dmi := v, driving := false } 41
      (s.ctl.jtag.dmiRead (Config.freeWord s.w.fresh)) :=
  (State.tapOn_on hon _).trans (by rw [if_pos hu]; rfl)

/-- On a locked device the debug instructions act as BYPASS (R378, R528). -/
theorem exec_debug_bypass (hu : s.ctl.fuse.debugUnlocked = false) (d32 : BitVec 32) (d41 : BitVec 41) :
    ActsAsBypass (.jtagDtmcs d32) s ∧ ActsAsBypass (.jtagDmi d41) s :=
  have locked : ¬s.ctl.fuse.debugUnlocked = true := by simp [hu]
  ⟨(State.tapOn_on hon _).trans (by rw [if_neg locked]; rfl), (State.tapOn_on hon _).trans (by rw [if_neg locked]; rfl)⟩

/-- The one token whose digest the fuses hold unlocks the device (R378). -/
theorem exec_jtagUnlock_accepted {token : List Byte} (h : s.ctl.unlocks token = true) :
    exec (.jtagUnlock token) s = .next { s with
      ctl := { s.ctl with jtag := { s.ctl.jtag with ir := 0x10, driving := false }, fuse := { s.ctl.fuse with debugUnlocked := true } } } :=
  (State.tapOn_on hon _).trans (by rw [if_pos h]; rfl)

/-- Any other token is logged and nothing else (R378, R528). -/
theorem exec_jtagUnlock_refused {token : List Byte} (h : ¬s.ctl.unlocks token = true) :
    exec (.jtagUnlock token) s = .next { s with
      w := s.w.logEv (unitId 3 0 0x11) 0x05FF 2 0xFF 0x10, ctl := { s.ctl with jtag := { s.ctl.jtag with ir := 0x10, driving := false } } } :=
  (State.tapOn_on hon _).trans (by rw [if_neg h]; rfl)

end

/-- Settles O42: the patch commands, RELEASE, the management port and the test port, each from the rule of its instruction. -/
theorem boardPortResults : Obligations.BoardPortResults := by
  unfold Obligations.BoardPortResults
  intro who v boot off op cells sampled tdi token d32 d41 s b pf patch tap x free j byp pins rwb
  have hrwb : rwb ↔ s.ctl.rwb = true := s.ctl.rwb_iff.symm
  have hpins : pins ↔ s.ctl.pinTest = true := s.ctl.pinTest_iff.symm
  refine ⟨?commitOutside, ?commitInside, ?erase, ?patchIgnored, fun h => exec_bringupRelease_ignored h v boot, ?bringupNext, ?release,
    Ctl.supply_of_bmcOpen, ?bmcOpen, fun h wr => exec_bmcTransaction_closed wr off v h, ?tapOff, ?tapOn⟩
  case commitOutside =>
    intro ⟨hfn, ho⟩ hr hv hb
    have := exec_patchCommit hfn ho (hrwb.mp hr) hv
    rw [State.onCtl, BootSt.commitPatch_outside hb] at this
    exact this
  case commitInside =>
    intro ⟨hfn, ho⟩ hr hv hb
    have := exec_patchCommit hfn ho (hrwb.mp hr) hv
    rw [State.onCtl, BootSt.commitPatch_inside hb] at this
    exact this
  case erase =>
    intro ⟨hfn, ho⟩ hr hv
    have := exec_patchErase hfn ho (hrwb.mp hr) hv
    rw [State.onCtl, BootSt.erasePatch_eq] at this
    exact this
  case patchIgnored =>
    intro h
    exact exec_patch_ignored (h.imp_right fun hr => Bool.not_eq_true _ ▸ fun e => hr (hrwb.mpr e))
  case bringupNext =>
    intro ⟨hfn, ho⟩ h
    exact (exec_bringupRelease hfn ho v boot).trans (by rw [State.writeBootCtl_next h]; rfl)
  case release =>
    intro ⟨hfn, ho⟩ hv hb
    refine ⟨_, (exec_bringupRelease hfn ho v boot).trans (by rw [State.writeBootCtl_release hv hb]), ?_⟩
    rw [State.releaseBringup_boot]
    refine ⟨State.releaseBringup_pending _ boot, rfl, rfl, rfl, State.releaseBringup_locked _ boot, rfl, fun hp hi => ?_⟩
    have ends : [0x00, 0x03, 0x04].contains j.ir = true := by
      rcases hi with h | h <;> rw [h] <;> rfl
    have jtag := State.releaseBringup_jtag (s := s.onCtl fun c => { c with boot := { c.boot with bringupNext := v.getLsbD 0 } }) boot hp ends
    rw [jtag]
    exact ⟨rfl, rfl⟩
  case bmcOpen =>
    intro hopen
    refine ⟨exec_bmcTransaction false off v hopen, fun h10 => ?_, fun h30 hv => ?_⟩
    · exact (exec_bmcTransaction true off v hopen).trans (by rw [h10]; rfl)
    · exact (exec_bmcTransaction true off v hopen).trans (by rw [h30, if_pos rfl, s.bmcWrite_logState hv]; rfl)
  case tapOff =>
    intro hoff i hi
    simp only [List.mem_cons, List.not_mem_nil, or_false] at hi
    rcases hi with rfl | rfl | rfl | rfl | rfl | rfl | rfl | rfl | rfl <;> exact State.tapOn_off hoff _
  case tapOn =>
    intro hon
    refine ⟨State.tapOn_on hon _, State.tapOn_on hon _, ?bypass, ?pinTest, ?notPinTest, ?debug, fun hu => exec_debug_bypass hon hu d32 d41, ?unlock⟩
    case bypass =>
      exact (State.tapOn_on hon _).trans (by cases tdi <;> rfl)
    case pinTest =>
      intro hp
      have allowed := hpins.mp hp
      exact ⟨exec_jtagExtest_shows hon allowed cells, exec_jtagClamp_shows hon allowed, exec_jtagHighz_shows hon allowed⟩
    case notPinTest =>
      intro hp
      exact exec_pinTest_bypass hon (fun h => hp (hpins.mpr h)) cells
    case debug =>
      intro hu
      refine ⟨⟨_, exec_jtagDtmcs_shows hon hu d32, dtmcsOf_fields _⟩, exec_jtagDmi_shows hon hu d41, fun h hop haddr hhi hlo => ?_⟩
      rw [j.dmiWrite_halted h hop haddr hhi hlo]
      refine ⟨fun halt => ?_, fun notHalt resume => ?_⟩
      · rw [if_pos halt, BitVec.getLsbD_or, getLsbD_hartBit, Bool.or_true]
      · rw [if_neg (Bool.not_eq_true _ ▸ notHalt), if_pos resume, BitVec.getLsbD_and, BitVec.getLsbD_not, getLsbD_hartBit, Bool.not_true,
          Bool.and_false, Bool.and_false]
    case unlock =>
      exact ⟨fun good => exec_jtagUnlock_accepted hon ((s.ctl.unlocks_iff token).mpr good),
        fun bad => exec_jtagUnlock_refused hon (mt (s.ctl.unlocks_iff token).mp bad)⟩

end Sys2Proof.Machine
end

section
/-! The clear registers (R66, R175, R185, R220, R234, R256-R258, R297, R333, R371, R501): each clears its counters where its bit is written
by a function that may. -/

namespace Sys2Proof.Machine

theorem physical_iff (who : Fn) : physical who = true ↔ who.fn = 0 := decide_eq_true_iff

/-- A write that acts where its function is served and a condition holds, and that is ignored elsewhere. -/
theorem State.request_when (s : State) (who : Fn) (b : State → Bool) (f : State → State) {c : Prop}
    (hc : c ↔ s.fnOpen who = true ∧ b s = true) :
    (c → s.request who (fun t => if b t then f t else t) = f s) ∧ (¬c → s.request who (fun t => if b t then f t else t) = s) := by
  refine ⟨fun h => ?_, fun h => ?_⟩
  · obtain ⟨ho, hb⟩ := hc.mp h
    rw [State.request_of_open ho, if_pos hb]
  · by_cases ho : s.fnOpen who = true
    · rw [State.request_of_open ho, if_neg fun hb => h (hc.mpr ⟨ho, hb⟩)]
    · exact State.request_of_closed (Bool.not_eq_true _ ▸ ho) _

/-- What a function's slice is: a management function's are all, a virtual function's those of its partition (R27, R389). -/
theorem State.seesSlice_iff (s : State) (who : Fn) (n : Nat) :
    s.seesSlice who n = true ↔ who.fn = 0 ∨ ∃ r, s.w.partOf who = some r ∧ (s.w.part r).dyke.slices.getLsbD n = true := by
  rw [State.seesSlice, Bool.or_eq_true, physical_iff]
  cases s.w.partOf who <;> simp

theorem State.sees_iff (s : State) (who : Fn) (q : Fin 8) : s.sees who q = true ↔ who.fn = 0 ∨ s.w.partOf who = some q := by
  rw [State.sees, Bool.or_eq_true, physical_iff, decide_eq_true_iff]

theorem State.sliceOpen_iff (s : State) (n : Nat) :
    s.sliceOpen n = true ↔
      (s.w.slice n).gated = false ∧ (s.w.slice n).mappedOut = false ∧ s.ctl.scrub.active.getLsbD n = false := by
  simp only [State.sliceOpen, Bool.and_eq_true, Bool.not_eq_true', and_assoc]

theorem State.sliceWritable_iff (s : State) (who : Fn) (n : Nat) :
    s.sliceWritable who n = true ↔ s.seesSlice who n = true ∧ s.sliceOpen n = true := by
  rw [State.sliceWritable, Bool.and_eq_true]

theorem Work.clearVer_unowned {w : Work} {n : Nat} (h : w.sliceOwner n = none) : w.clearVer n = w.updSlice n SliceSt.clearHolds := by
  rw [Work.clearVer, h]

theorem Work.clearVer_owned {w : Work} {n : Nat} {q : Fin 8} (h : w.sliceOwner n = some q) :
    w.clearVer n = (w.updSlice n SliceSt.clearHolds).updPart q fun p => { p with latePops := 0, writeWaits := 0 } := by
  rw [Work.clearVer, h]

/-- The counters of a slice are cleared by a bit of its clear register, where the slice takes the function's writes. -/
theorem State.request_clearSlice (s : State) (who : Fn) (n : Nat) (go : Bool) (f : SliceSt → SliceSt) {c : Prop}
    (hc : c ↔ s.fnOpen who = true ∧ (go && s.sliceWritable who n) = true) :
    (c → s.request who (fun t => t.clearSlice who n go f) = s.onW fun w => w.updSlice n f) ∧
      (¬c → s.request who (fun t => t.clearSlice who n go f) = s) :=
  s.request_when who (fun t => go && t.sliceWritable who n) (fun t => t.onW fun w => w.updSlice n f) hc

/-- Settles O38: each clear register acts where its function is served and may write it, and is ignored elsewhere. -/
theorem clearRegisterResults : Obligations.ClearRegisterResults := by
  unfold Obligations.ClearRegisterResults
  intro who n q st p v s bit pf isOpen mine x slice when
  have open_iff (k : Nat) : isOpen k ↔ s.sliceOpen k = true := (s.sliceOpen_iff k).symm
  have mine_iff : mine ↔ s.seesSlice who n.val = true := (s.seesSlice_iff who n.val).symm
  have slice_iff (b : Nat) : (bit b ∧ mine ∧ isOpen n.val) ↔ s.fnOpen who = true ∧ (v.getLsbD b && s.sliceWritable who n.val) = true := by
    rw [open_iff, mine_iff, Bool.and_eq_true, State.sliceWritable_iff]
    tauto
  have pf_iff : (bit 0 ∧ pf) ↔ s.fnOpen who = true ∧ (v.getLsbD 0 && physical who) = true := by
    rw [Bool.and_eq_true, physical_iff]
    tauto
  have cleared {c : Prop} {i : Instr} {a b : State} (h : exec i s = .next a) (hr : (c → a = b) ∧ (¬c → a = s)) :
      (c → exec i s = .next b) ∧ (¬c → exec i s = .next s) := by
    rw [h]
    exact ⟨fun hc => congrArg _ (hr.1 hc), fun hc => congrArg _ (hr.2 hc)⟩
  have sliceClear (i : Instr) (b : Nat) (f : SliceSt → SliceSt)
      (h : exec i s = .next (s.request who fun t => t.clearSlice who n.val (v.getLsbD b) f)) : slice i b (f x) :=
    cleared h (s.request_clearSlice who n.val _ f (slice_iff b))
  refine ⟨sliceClear _ 0 SliceSt.clearScale rfl, sliceClear _ 0 SliceSt.clearAcc rfl, sliceClear _ 0 SliceSt.clearVec rfl, ?ver,
    sliceClear _ 0 SliceSt.clearPeat rfl, sliceClear _ 0 SliceSt.clearStat rfl, ?err, ?port, ?red, ?integrity, ?pwr⟩
  case ver =>
    have ver := cleared (i := .clearVer who n v) rfl
      (s.request_when who (fun t => v.getLsbD 1 && t.sliceWritable who n.val) (fun t => t.onW fun w => w.clearVer n.val) (slice_iff 1))
    refine ⟨ver.2, fun hb hm ho hn => ?_, fun r hb hm ho hr => ?_⟩
    · rw [ver.1 ⟨hb, hm, ho⟩, State.onW, Work.clearVer_unowned hn]
      rfl
    · rw [ver.1 ⟨hb, hm, ho⟩, State.onW, Work.clearVer_owned hr]
      rfl
  case err =>
    refine cleared rfl (s.request_when who (fun t => v.getLsbD 0 && t.stackWritable who st.val) (fun t => t.onW fun w => w.updStack st.val _) ?_)
    rw [open_iff, State.stackWritable, Bool.and_eq_true, Bool.and_eq_true, physical_iff]
    tauto
  case port => exact cleared rfl (s.request_when who (fun _ => v.getLsbD 0 && physical who) (fun t => t.onW fun w => w.updPort p.val _) pf_iff)
  case red => exact cleared rfl (s.request_when who (fun _ => v.getLsbD 0 && physical who) (fun t => t.onW fun w => w.updRedEv q _) pf_iff)
  case integrity =>
    refine cleared rfl (s.request_when who (fun t => v.getLsbD 0 && t.sees who q) (fun t => t.onW fun w => w.updPart q _) ?_)
    rw [Bool.and_eq_true, State.sees_iff]
    tauto
  case pwr =>
    have pwr := cleared (i := .pwrClear who v) rfl
      (s.request_when who (fun _ => physical who && v.getLsbD 0) (fun t => t.onCtl _) (pf_iff.trans (by rw [Bool.and_comm])))
    exact ⟨fun hb hp => pwr.1 ⟨hb, hp⟩, pwr.2⟩

end Sys2Proof.Machine
end

section
/-! Starts and completions (R83, R84, R87, R103), arrivals at the sluices and in the caches (R11, R63, R93, R94). -/

namespace Sys2Proof.Machine

/-- A complete effect retires its instruction, which increases its flag unless it is one of the control unit (R84, R87). -/
theorem Effect.conclude_done (w : Work) (c : CtxId) (x : InFlight) :
    (Effect.done w).conclude c x = w.retire c x (if x.op.queue = .C then none else x.flag) := rfl

theorem Work.queue_of_headOf {w : Work} {c : CtxId} {q : Queue} {x : InFlight} (h : w.headOf c q = some x) : x.op.queue = q := by
  have := List.find?_some h
  simp only [Bool.and_eq_true, decide_eq_true_eq] at this
  exact this.1

theorem Ctx.queue_of_startedAt {k : Ctx} {q : Queue} {n : Nat} {x : InFlight} (h : k.startedAt q n = some x) : x.op.queue = q := by
  have := (List.mem_filter.mp (List.mem_of_getElem? h)).2
  exact (of_decide_eq_true this).1

/-- An engine starts an instruction that acts at its completion (R83). -/
theorem Work.begin_engine {w : Work} {c : CtxId} {x : InFlight} (hf : (w.ctx c).operandFault x.op x.f = none)
    (ha : x.op.actsAtStart = false) (ev : MemEvent) :
    w.begin c x ev = (((w.noteServed c x).noteHalf c x).setStat c x.id .started).noteSent c x := by
  simp [Work.begin, hf, ha]

/-- Of the head of a queue alone, the moment that it starts is its begin. -/
theorem Work.comeWith_start {w : Work} {c : CtxId} {q : Queue} {x : InFlight} (h : w.headOf c q = some x) (hb : w.mayBegin c x = true)
    (ev : MemEvent) : w.comeWith c q .start ev none = w.begin c x ev := by
  simp [Work.comeWith, Work.comesTo, h, Option.filter, hb, Work.come]

/-- A started instruction that nothing holds and whose reply is good completes with its effect (R19, R84, R85). -/
theorem Work.completeStarted_done {w w' : Work} {c : CtxId} {x : InFlight} {ev : MemEvent} (hh : (w.ctx c).productHeld x = false)
    (hr : w.staleReply x = false) (hq : x.op.queue ≠ .C) (he : x.op.effect w c x ev = .done w') :
    w.completeStarted c x ev = w'.retire c x x.flag := by
  simp [Work.completeStarted, hh, hr, he, Effect.conclude_done, hq]

theorem Work.comeWith_done {w : Work} {c : CtxId} {q : Queue} {n : Nat} {x : InFlight} (h : (w.ctx c).startedAt q n = some x)
    (ev : MemEvent) : w.comeWith c q (.done n) ev none = w.completeStarted c x ev := by
  simp [Work.comeWith, Work.comesTo, h, Work.come]

/-- Of two instructions that complete in the same cclk, the earlier completes first, and the later as it then stands (R103). -/
theorem Work.comeWith_done_both {w : Work} {c : CtxId} {q r : Queue} {n m : Nat} {x y z : InFlight} {ev ev2 : MemEvent}
    (hx : (w.ctx c).startedAt q n = some x) (hy : (w.ctx c).startedAt r m = some y) (hne : r ≠ q) (hid : x.id ≤ y.id)
    (hok : ((w.completeStarted c x ev).ctx c).st ≠ .faulted) (hz : (w.completeStarted c x ev).instr c y.id = some z) :
    w.comeWith c q (.done n) ev (some ⟨r, .done m, ev2⟩) = (w.completeStarted c x ev).completeStarted c z ev2 := by
  have first : w.wouldFault c x (.done n) ev = false := by simp [Work.wouldFault, Work.come, hok]
  simp [Work.comeWith, Work.comesTo, hx, hy, hne, hid, Work.comeBoth, first, Work.come, hz]

/-- No instruction of the control unit is a product. -/
theorem KOp.isProduct_of_control {o : KOp} (h : o.queue = .C) : o.isProduct = false := by
  cases o with
  | mmfBi8 | mmfBi4 | mmfBi16x8 | mmfBi16 | mmbxBi8 | mmbxBi4 | mmbxBi16x8 | mmbxBi16 | mmbwBi8 | mmbwBi4 | mmbwBi16x8 | mmbwBi16 => cases h
  | _ => rfl

/-- The head of the control unit's queue begins as soon as it could start: the unit serves one context, and no product. -/
theorem Work.mayBegin_control {w : Work} {c : CtxId} {x : InFlight} (hq : x.op.queue = .C) (hs : w.startable c x = true) :
    w.mayBegin c x = true := by
  simp [Work.mayBegin, hs, Work.turn, hq, Work.alone, KOp.isProduct_of_control hq]

/-- An instruction of the control unit starts and completes at once (R84). -/
theorem Work.startHead_control {w w' : Work} {c : CtxId} {x : InFlight} {ev : MemEvent} (hh : w.headOf c .C = some x)
    (hs : w.startable c x = true) (hf : (w.ctx c).operandFault x.op x.f = none) (he : x.op.effect w c x ev = .done w') :
    w.startHead c .C ev = w'.retire c x none := by
  have hq := Work.queue_of_headOf hh
  have served : w.noteServed c x = w := by simp [Work.noteServed, hq]
  have acts : x.op.actsAtStart = true := by simp [KOp.actsAtStart, hq]
  rw [Work.startHead, hh]
  simp [Work.mayBegin_control hq hs, Work.begin, served, hf, acts, he, Effect.conclude_done, hq]

/-- What an instruction that resumes its context's dispatch leaves (R87, R93). -/
theorem Work.resumeDispatch_retire_ctx (w : Work) (c : CtxId) (x : InFlight) :
    ((w.resumeDispatch c).retire c x none).ctx c =
      { w.ctx c with hold := .none, st := if (w.ctx c).st = .waiting then .running else (w.ctx c).st,
                     infl := (w.ctx c).infl.filter fun y => decide (y.id ≠ x.id) } := by
  simp only [Work.retire, Work.resumeDispatch, Work.ctx_updCtx_same]

theorem Work.resumeDispatch_retire_ctx_other (w : Work) {c d : CtxId} (x : InFlight) (h : d ≠ c) :
    ((w.resumeDispatch c).retire c x none).ctx d = w.ctx d := by
  rw [Work.retire_ctx_other _ _ _ h, Work.resumeDispatch, Work.ctx_updCtx_other _ _ h]

theorem effSlWait_done {w : Work} {c : CtxId} {x : InFlight} (hd : w.declares c x.sluiceNo = true)
    (hs : (w.sluice x.sluiceNo).satisfied x.gen = true) (hp : (w.ctx c).st ≠ .paused) :
    effSlWait w c x = .done (w.resumeDispatch c) := by
  simp [effSlWait, withSluice, hd, hs, hp]

theorem effLfWait_done {w : Work} {c : CtxId} {x : InFlight} (hr : ((w.ctx c).flag x.lf - x.f.imm).toNat < 2 ^ 15)
    (hp : (w.ctx c).st ≠ .paused) : effLfWait w c x = .done (w.resumeDispatch c) := by
  rw [effLfWait, reached16, decide_eq_true hr, decide_eq_true hp]
  rfl

/-- An operand of the wait for a local flag is never at fault: it names no register (R134). -/
theorem Ctx.operandFault_lfWait (k : Ctx) (f : Fields) : k.operandFault .lfWait f = none := rfl

theorem Ctx.lineArrives_eq (k : Ctx) : k.lineArrives = { k with hold := if k.hold = .miss then .none else k.hold } := by
  unfold Ctx.lineArrives
  split <;> rfl

theorem Work.cacheEntry_of_entry {w : Work} {q : Fin 8} {t : BitVec 20} {e : ScaleEntry} (h : w.entry q t = some e) (n : Nat) :
    w.cacheEntry n q t = w.updSlice n fun z => { z with scale := { z.scale with
      cached := (q.val, t) :: w.cacheFit 8191 (65536 - e.blockCount) (z.scale.cached.filter fun y => decide (y ≠ (q.val, t))) } } := by
  simp [Work.cacheEntry, h]

/-- An operation at the store of a sluice that commits no job's steps changes that sluice alone (R93, R94). -/
theorem Work.applySluice_of_no_commit {w : Work} {i : Nat} (h : w.commitJobs i = []) (op : SluiceOp) :
    w.applySluice i op = w.updSluice i fun z => z.apply op := by
  cases op with
  | arm g v => rfl
  | signal g v =>
    have jobs : (w.updSluice i fun z => z.apply (.signal g v)).commitJobs i = [] := h
    simp only [Work.applySluice, Work.checkCommit, jobs, List.foldl_nil]

theorem Sluice.apply_arm (z : Sluice) (g : BitVec 16) (v : BitVec 32) :
    z.apply (.arm g v) = { z with
      count := 0, target := v, gen := g
      changed := z.changed || !(z.count == 0 && z.target == v && z.gen == g)
      rearms := if (z.count - z.target).toNat < 2 ^ 31 then z.rearms else min (z.rearms + 1) 65535 } := by
  simp only [Sluice.apply, Sluice.armed, Sluice.full, reached32, decide_eq_true_eq]

theorem Sluice.apply_signal (z : Sluice) (g : BitVec 16) (v : BitVec 32) :
    z.apply (.signal g v) = if z.gen = g then { z with count := z.count + v, changed := z.changed || decide (v ≠ 0) }
      else { z with discards := min (z.discards + 1) 65535 } := rfl

/-- The n-th operation on its way reaches the sluice's store, where none of its unit is before it (R11). -/
theorem Work.sluiceArrives_first {w : Work} {i n src : Nat} {op : SluiceOp} (hn : (w.sluice i).coming[n]? = some (src, op))
    (hfirst : ∀ e, e ∈ (w.sluice i).coming.take n → e.1 ≠ src) (hc : w.commitJobs i = []) :
    w.sluiceArrives i n =
      (w.updSluice i fun z => { z with coming := z.coming.eraseIdx n }).updSluice i fun z => z.apply op := by
  have first : ((w.sluice i).coming.take n).any (fun e => decide (e.1 = src)) = false := by simpa using hfirst
  have commits : (w.updSluice i fun z => { z with coming := z.coming.eraseIdx n }).commitJobs i = [] := hc
  simp only [Work.sluiceArrives, hn, first, Bool.false_eq_true, if_false, Work.applySluice_of_no_commit commits]

/-- Settles O21: what each moment of an engine, of a sluice and of a cache does, from the rule of its operation. -/
theorem engineEventResults : Obligations.EngineEventResults := by
  unfold Obligations.EngineEventResults
  intro c q s k gone resumes
  have waitEnds (i : Instr) (x : InFlight) (h : exec i s = .next { s with w := (s.w.resumeDispatch c).retire c x none }) :
      resumes (exec i s) x :=
    ⟨_, h, rfl, rfl, rfl, fun e he => s.w.resumeDispatch_retire_ctx_other x he, s.w.resumeDispatch_retire_ctx c x⟩
  refine ⟨?start, ?complete, ?line, ?scale, ?sluice, ?slWait, ?lfWait⟩
  case start =>
    intro x hh hb hf ha ev
    show Host.Outcome.next { s with w := s.w.comeWith c q .start ev none } = _
    rw [Work.comeWith_start hh hb, Work.begin_engine hf ha]
  case complete =>
    intro n x ev w hx hh hr hq he
    have hxq : x.op.queue ≠ .C := Ctx.queue_of_startedAt hx ▸ hq
    have done := Work.completeStarted_done hh hr hxq he
    refine ⟨?_, ?_⟩
    · show Host.Outcome.next { s with w := s.w.comeWith c q (.done n) ev none } = _
      rw [Work.comeWith_done hx, done]
    · intro r m y y1 ev2 w2 hne hrC hy hid hy1 hst hh1 hr1 hq1 he1
      show Host.Outcome.next { s with w := s.w.comeWith c q (.done n) ev (some ⟨r, .done m, ev2⟩) } = _
      rw [Work.comeWith_done_both hx hy hne hid (done ▸ hst) (done ▸ hy1), done, Work.completeStarted_done hh1 hr1 (hq1 ▸ hrC) he1]
  case line =>
    show Host.Outcome.next { s with w := s.w.updCtx c Ctx.lineArrives } = _
    rw [funext Ctx.lineArrives_eq]
  case scale =>
    intro n t p e ho he
    show Host.Outcome.next { s with w := match s.w.sliceOwner n.val with | some q => s.w.cacheEntry n.val q t | none => s.w } = _
    rw [ho, ← Work.cacheEntry_of_entry he]
  case sluice =>
    intro sl n src op hn hfirst hc
    refine ⟨{ s with w := s.w.sluiceArrives sl.toNat n }, rfl, rfl, ?_⟩
    rw [Work.sluiceArrives_first hn hfirst hc]
    refine ⟨rfl, fun i hi => ?_, ?_⟩
    · rw [Work.sluice_updSluice_other _ _ hi, Work.sluice_updSluice_other _ _ hi]
    · rw [Work.sluice_updSluice_same, Work.sluice_updSluice_same]
      cases op with
      | arm g v => exact Sluice.apply_arm _ g v
      | signal g v => exact Sluice.apply_signal _ g v
  case slWait =>
    intro x y g hk hh hop hs hf hd hsat hp
    refine waitEnds _ x ?_
    show Host.Outcome.next { s with w := match k.hold with | .sluice _ _ => s.w.startHead c .C .ok | _ => s.w } = _
    rw [hk, ← Work.startHead_control hh hs (hop ▸ hf) (ev := .ok) (hop ▸ effSlWait_done hd hsat hp)]
  case lfWait =>
    intro x y v hk hh hop hs hr hp
    refine waitEnds _ x ?_
    show Host.Outcome.next { s with w := match k.hold with | .flag _ _ => s.w.startHead c .C .ok | _ => s.w } = _
    rw [hk, ← Work.startHead_control hh hs (hop ▸ k.operandFault_lfWait x.f) (ev := .ok) (hop ▸ effLfWait_done hr hp)]

end Sys2Proof.Machine
end

section
/-! What packets that leave (R268-R286), completions (R452) and the decisions on a step (R415-R417) change: the fabric's buffers, the host's
queues and the jobs' decisions. Everything else stays. -/

namespace Sys2Proof.Machine

/-- Of a port, packets that leave by it change its buffers, its credits and its counts, and nothing of its link. -/
def Port.Traffic (p p' : Port) : Prop :=
  p' = { p with
    tail := p'.tail, txFlit := p'.txFlit, replay := p'.replay, line := p'.line, owed := p'.owed, credits := p'.credits, shared := p'.shared
    rxRes := p'.rxRes, rxShared := p'.rxShared, slotQ := p'.slotQ, misses := p'.misses, txq := p'.txq }

/-- What a completion, a message or a step's decision changes: the loaded programs' commands, the host's queues, what has left the device,
the jobs' decisions, which sluices are to be published, and the traffic of the ports. -/
structure Work.Quiet (w w' : Work) : Prop where
  eq : w' = { w with
    progs := w'.progs, host := w'.host, out := w'.out, commits := w'.commits, sluices := w'.sluices
    fab := { w.fab with ports := w'.fab.ports, send := w'.fab.send, loop := w'.fab.loop, noRoute := w'.fab.noRoute } }
  coming : ∀ i, (w'.sluice i).coming = (w.sluice i).coming
  port : ∀ p, (w.port p).Traffic (w'.port p)

theorem Port.Traffic.refl (p : Port) : p.Traffic p := rfl

theorem Port.Traffic.trans {a b c : Port} (h1 : a.Traffic b) (h2 : b.Traffic c) : a.Traffic c :=
  Eq.trans h2 (congrArg (fun p : Port => { p with
    tail := c.tail, txFlit := c.txFlit, replay := c.replay, line := c.line, owed := c.owed, credits := c.credits, shared := c.shared
    rxRes := c.rxRes, rxShared := c.rxShared, slotQ := c.slotQ, misses := c.misses, txq := c.txq }) h1)

theorem Port.Traffic.takeCredits {p p' : Port} {h n : Nat} (e : p.takeCredits h n = some p') : p.Traffic p' := by
  unfold Port.takeCredits at e
  dsimp only at e
  generalize (if p.longHaul = true then (n + 63) / 64 else n) = m at e
  split at e
  · cases e; rfl
  · split at e
    · cases e; rfl
    · cases e

namespace Work.Quiet

theorem refl (w : Work) : w.Quiet w := ⟨rfl, fun _ => rfl, fun _ => .refl _⟩

theorem trans {a b c : Work} (h1 : a.Quiet b) (h2 : b.Quiet c) : a.Quiet c where
  eq := Eq.trans h2.eq (congrArg (fun w : Work => { w with
    progs := c.progs, host := c.host, out := c.out, commits := c.commits, sluices := c.sluices
    fab := { w.fab with ports := c.fab.ports, send := c.fab.send, loop := c.fab.loop, noRoute := c.fab.noRoute } }) h1.eq)
  coming i := (h2.coming i).trans (h1.coming i)
  port p := (h1.port p).trans (h2.port p)

/-- A fold of changes of this kind is one. -/
theorem foldl {α : Type} {f : Work → α → Work} (h : ∀ (w : Work) a, w.Quiet (f w a)) (l : List α) (w : Work) : w.Quiet (l.foldl f w) :=
  List.foldlRecOn l f (refl w) fun b hb a _ => hb.trans (h b a)

theorem ite {w a b : Work} (c : Prop) [Decidable c] (ha : w.Quiet a) (hb : w.Quiet b) : w.Quiet (if c then a else b) := by
  split <;> assumption

section
variable {w w' : Work} (h : w.Quiet w')
include h

theorem ctxs : w'.ctxs = w.ctxs := (congrArg Work.ctxs h.eq).trans rfl
theorem cores : w'.cores = w.cores := (congrArg Work.cores h.eq).trans rfl
theorem slices : w'.slices = w.slices := (congrArg Work.slices h.eq).trans rfl
theorem clusters : w'.clusters = w.clusters := (congrArg Work.clusters h.eq).trans rfl
theorem hbm : w'.hbm = w.hbm := (congrArg Work.hbm h.eq).trans rfl
theorem memStacks : w'.memStacks = w.memStacks := (congrArg Work.memStacks h.eq).trans rfl
theorem parts : w'.parts = w.parts := (congrArg Work.parts h.eq).trans rfl
theorem epochs : w'.epochs = w.epochs := (congrArg Work.epochs h.eq).trans rfl
theorem writes : w'.writes = w.writes := (congrArg Work.writes h.eq).trans rfl
theorem time : w'.time = w.time := (congrArg Work.time h.eq).trans rfl
theorem inReset : w'.inReset = w.inReset := (congrArg Work.inReset h.eq).trans rfl
theorem ctx (c : CtxId) : w'.ctx c = w.ctx c := by unfold Work.ctx; rw [h.ctxs]
theorem core (c : CtxId) : w'.core c = w.core c := by unfold Work.core; rw [h.cores]
theorem slice (n : Nat) : w'.slice n = w.slice n := by unfold Work.slice; rw [h.slices]
theorem stack (n : Nat) : w'.stack n = w.stack n := by unfold Work.stack; rw [h.memStacks]
theorem part (q : Fin 8) : w'.part q = w.part q := by unfold Work.part; rw [h.parts]
theorem port_st (p : Nat) : (w'.port p).st = (w.port p).st := (congrArg Port.st (h.port p)).trans rfl
theorem port_linkKey (p : Nat) : (w'.port p).linkKey = (w.port p).linkKey := (congrArg Port.linkKey (h.port p)).trans rfl
theorem port_heard (p : Nat) : (w'.port p).heard = (w.port p).heard := (congrArg Port.heard (h.port p)).trans rfl
theorem port_heardAt (p : Nat) : (w'.port p).heardAt = (w.port p).heardAt := (congrArg Port.heardAt (h.port p)).trans rfl
theorem port_probeSent (p : Nat) : (w'.port p).probeSent = (w.port p).probeSent := (congrArg Port.probeSent (h.port p)).trans rfl

end

theorem emit (w : Work) (e : Emit) : w.Quiet (w.emit e) := ⟨rfl, fun _ => rfl, fun _ => .refl _⟩
theorem setQueue (w : Work) (f : Fn) (k : Nat) (v : Option QueueSt) : w.Quiet (w.setQueue f k v) := ⟨rfl, fun _ => rfl, fun _ => .refl _⟩
theorem setProg (w : Work) (q : Fin 8) (n : BitVec 32) (v : Option Program) : w.Quiet (w.setProg q n v) := ⟨rfl, fun _ => rfl, fun _ => .refl _⟩
theorem updCommit (w : Work) (q : Fin 8) (j : BitVec 16) (f : CommitSt → CommitSt) : w.Quiet (w.updCommit q j f) :=
  ⟨rfl, fun _ => rfl, fun _ => .refl _⟩
theorem setSend (w : Work) (k : FlowKey) (f : SendFlow) : w.Quiet (w.setSend k f) := ⟨rfl, fun _ => rfl, fun _ => .refl _⟩
theorem loopBack (w : Work) (q : Fin 8) (k : Pkt) : w.Quiet (w.loopBack q k) := ⟨rfl, fun _ => rfl, fun _ => .refl _⟩
theorem countNoRoute (w : Work) : w.Quiet w.countNoRoute := ⟨rfl, fun _ => rfl, fun _ => .refl _⟩

/-- A port changed by traffic alone. -/
theorem updPort (w : Work) (p : Nat) (f : Port → Port) (h : (w.port p).Traffic (f (w.port p))) : w.Quiet (w.updPort p f) where
  eq := rfl
  coming _ := rfl
  port i := by
    by_cases hi : i = p
    · rw [hi, Work.port_updPort_same]; exact h
    · rw [Work.port_updPort_other _ _ hi]; exact .refl _

/-- A sluice whose operations on their way stay. -/
theorem updSluice (w : Work) (i : Nat) (f : Sluice → Sluice) (h : ∀ z, (f z).coming = z.coming) : w.Quiet (w.updSluice i f) where
  eq := rfl
  coming j := by
    by_cases hj : j = i
    · rw [hj, Work.sluice_updSluice_same]; exact h _
    · rw [Work.sluice_updSluice_other _ _ hj]
  port _ := .refl _

theorem sendFlit (w : Work) (p : Fin 32) (typ : BitVec 4) (seq : BitVec 16) (start : BitVec 5) (body : List Byte) :
    w.Quiet (w.sendFlit p typ seq start body) := by
  refine (updPort _ _ _ ?_).trans (emit _ _)
  unfold Port.nextCredit
  split
  · rfl
  · split <;> rfl

theorem flushTail (w : Work) (p : Fin 32) : w.Quiet (w.flushTail p) := by
  unfold Work.flushTail
  split
  · exact refl w
  · exact (updPort _ _ _ (by exact rfl)).trans (sendFlit ..)

theorem putBytes (p : Fin 32) (k : Pkt) (n : Nat) (w : Work) (bs : List Byte) (st : BitVec 5) : w.Quiet (w.putBytes p k n bs st) := by
  induction n generalizing w bs st with
  | zero => exact refl w
  | succ n ih =>
    unfold Work.putBytes
    dsimp only
    refine ite _ ?_ (Work.Quiet.trans ?_ (ih _ _ _))
    all_goals exact (updPort _ _ _ (by exact rfl)).trans (ite _ (flushTail ..) (refl _))

theorem markSent (w : Work) (p : Fin 32) (k : Pkt) : w.Quiet (w.markSent p k) := by
  unfold Work.markSent
  exact ite _ ⟨rfl, fun _ => rfl, fun _ => .refl _⟩ (refl w)

theorem putPacket (w : Work) (p : Fin 32) (k : Pkt) : w.Quiet (w.putPacket p k) := by
  have first : w.Quiet (if (w.port p.val).canJoin k then w else w.flushTail p) := ite _ (refl w) (flushTail ..)
  exact first.trans ((putBytes ..).trans ((markSent ..).trans (emit ..)))

theorem idle (p : Fin 32) (n : Nat) (w : Work) : w.Quiet (w.idle p n) := by
  induction n generalizing w with
  | zero => exact refl w
  | succ n ih => exact ite _ (refl w) ((sendFlit ..).trans (ih _))

theorem returnCredits (w : Work) (p : Fin 32) : w.Quiet (w.returnCredits p) :=
  ite _ ((flushTail ..).trans (idle ..)) (refl w)

theorem giveBack (w : Work) (h : RxHold) : w.Quiet (w.giveBack h) :=
  ite _ ((updPort _ _ _ (by exact rfl)).trans (returnCredits ..)) (refl w)

theorem giveRoom (w : Work) (h : Option RxHold) : w.Quiet (w.giveRoom h) := by
  cases h with
  | none => exact refl w
  | some h => exact giveBack w h

theorem waitAt (w : Work) (p : Fin 32) (x : Queued) : w.Quiet (w.waitAt p x) := ite _ (updPort _ _ _ (by exact rfl)) (updPort _ _ _ (by exact rfl))

theorem transmit (w : Work) (p : Fin 32) (x : Queued) : w.Quiet (w.transmit p x) := by
  unfold Work.transmit
  dsimp only
  refine ite _ (waitAt ..) (ite _ ?_ (waitAt ..))
  split
  next po h => exact (updPort _ _ _ (.takeCredits h)).trans ((putPacket ..).trans (giveRoom ..))
  next => exact waitAt ..

theorem drainTx (p : Fin 32) (free : Bool) (n : Nat) (w : Work) : w.Quiet (w.drainTx p free n) := by
  induction n generalizing w with
  | zero => exact refl w
  | succ n ih =>
    unfold Work.drainTx
    dsimp only
    split
    next => exact refl w
    next x rest _ =>
      refine ite _ ?_ (refl w)
      split
      next po h =>
        have taken : (w.port p.val).Traffic { po with txq := rest } := (Port.Traffic.takeCredits h).trans rfl
        exact (updPort _ _ _ taken).trans ((putPacket ..).trans ((giveRoom ..).trans (ih _)))
      next => exact refl w

theorem sendByRoute (w : Work) (q : Fin 8) (k : Pkt) : w.Quiet (w.sendByRoute q k) := by
  unfold Work.sendByRoute
  refine ite _ ?_ (refl w)
  split
  · exact transmit ..
  · exact countNoRoute w

theorem sendByPort (w : Work) (p : Fin 32) (k : Pkt) : w.Quiet (w.sendByPort p k) := ite _ (transmit ..) (refl w)

theorem launch (w : Work) (q : Fin 8) (k : Pkt) (via : Option (Fin 32)) : w.Quiet (w.launch q k via) := by
  cases via with
  | some p => exact sendByPort w p k
  | none => exact ite _ (loopBack ..) (ite _ (foldl (fun w _ => ite _ (transmit ..) (refl w)) _ _) (sendByRoute ..))

theorem sendPkt (w : Work) (q : Fin 8) (k : Pkt) (o : PktOwner) (sl : Fin 8) (via : Option (Fin 32)) : w.Quiet (w.sendPkt q k o sl via) :=
  (setSend ..).trans (launch ..)

theorem sendLoose (w : Work) (q : Fin 8) (k : Pkt) (via : Option (Fin 32)) : w.Quiet (w.sendLoose q k via) := by
  cases via with
  | some p => exact sendByPort ..
  | none => exact ite _ (loopBack ..) (sendByRoute ..)

/-! The lines of flits that a frame closes with (R267, R268). -/

theorem fillPair (p : Fin 32) (n : Nat) (w : Work) : w.Quiet (w.fillPair p n) := by
  induction n generalizing w with
  | zero => exact refl w
  | succ n ih => exact ite _ (refl w) ((sendFlit ..).trans (ih _))

theorem sendPairs (p : Fin 32) (fuel : Nat) (l : List Flit) (n : Nat) (w : Work) : w.Quiet (w.sendPairs p fuel l n) := by
  induction fuel generalizing w l n with
  | zero => exact refl w
  | succ fuel ih => exact ite _ (refl w) ((emit ..).trans (ih _ _ _))

theorem closeLine (w : Work) (p : Fin 32) : w.Quiet (w.closeLine p) :=
  ((flushTail ..).trans (fillPair ..)).trans ((updPort _ _ _ (by exact rfl)).trans (sendPairs ..))

theorem closeLines (w : Work) : w.Quiet w.closeLines := foldl (fun _ _ => (drainTx ..).trans (closeLine ..)) _ w

/-! Completions and interrupts. -/

theorem interrupt (w : Work) (f : Fn) (k : Nat) : w.Quiet (w.interrupt f k) := by
  unfold Work.interrupt
  split
  · exact refl w
  · exact (setQueue ..).trans (emit ..)

theorem writeCompletion (w : Work) (f : Fn) (k : Nat) : w.Quiet (w.writeCompletion f k) := by
  unfold Work.writeCompletion
  split
  · exact refl w
  · split
    · exact refl w
    · exact ((setQueue ..).trans (emit ..)).trans (ite _ (interrupt ..) (refl _))

theorem flush (f : Fn) (k n : Nat) (w : Work) : w.Quiet (w.flush f k n) := by
  induction n generalizing w with
  | zero => exact refl w
  | succ n ih =>
    unfold Work.flush
    split
    · exact refl w
    · exact (writeCompletion ..).trans (ih _)

theorem releaseDrained (w : Work) (f : Fn) (k : Nat) : w.Quiet (w.releaseDrained f k) := by
  unfold Work.releaseDrained
  split
  · exact refl w
  · refine ite _ ?_ (refl w)
    dsimp only
    split
    · exact setQueue ..
    · split
      · exact setQueue ..
      · exact (setQueue ..).trans ((setQueue ..).trans (flush ..))

theorem finish (w : Work) (r : CmdRef) (st res : Nat) : w.Quiet (w.finish r st res) := by
  unfold Work.finish
  split
  · exact refl w
  · exact (setQueue ..).trans ((flush ..).trans (releaseDrained ..))

/-! Decisions on a step, and its abort. -/

theorem learn (w : Work) (q : Fin 8) (j : BitVec 16) (d : Decision) : w.Quiet (w.learn q j d) := by
  unfold Work.learn
  split
  · exact refl w
  · exact ite _ (refl w) (updCommit ..)

theorem publishDecision (w : Work) (q : Fin 8) (j : BitVec 16) (d : Decision) : w.Quiet (w.publishDecision q j d) := by
  unfold Work.publishDecision
  dsimp only
  split
  · exact (updSluice _ _ _ (by exact fun _ => rfl)).trans (learn ..)
  · exact learn ..

theorem decideStep (w : Work) (q : Fin 8) (j : BitVec 16) (b : Bool) (cause : Byte) : w.Quiet (w.decideStep q j b cause) := by
  unfold Work.decideStep
  split
  · exact refl w
  · exact ite _ (refl w) (ite _ ((updCommit ..).trans (publishDecision ..)) (updCommit ..))

theorem abortAtHome (w : Work) (q : Fin 8) (j : BitVec 16) (step : Word) (cause : Byte) : w.Quiet (w.abortAtHome q j step cause) := by
  unfold Work.abortAtHome
  split
  · exact refl w
  · exact ite _ (decideStep ..) (ite _ (refl w) (updCommit ..))

theorem stepAbort (w : Work) (q : Fin 8) (j : BitVec 16) (cause : Byte) (failed : Bool) : w.Quiet (w.stepAbort q j cause failed) := by
  unfold Work.stepAbort
  split
  · exact refl w
  next jb _ =>
    split
    · exact refl w
    · refine ite _ (refl w) ?_
      dsimp only
      have send (w1 : Work) (d : BitVec 16) (step : Word) : w1.Quiet (if d = w1.time.address then w1.abortAtHome q j step cause
          else if jb.onFabric then w1.sendPkt q (mkPkt d j 0x0B 0 (abortPayload step cause failed)) .device 0 none else w1) :=
        ite _ (abortAtHome ..) (ite _ (sendPkt ..) (refl w1))
      split
      · exact (updCommit ..).trans ((send ..).trans (send ..))
      · exact (updCommit ..).trans (send ..)

/-! What a context's end and its fault tell the host and the homes of its job. -/

theorem notifyFault (w : Work) (c : CtxId) (code : Byte) : w.Quiet (w.notifyFault c code) := by
  unfold Work.notifyFault
  dsimp only
  split
  · exact refl w
  · refine Work.Quiet.trans ?_ (stepAbort ..)
    split
    · exact (setProg ..).trans (finish ..)
    · exact refl w

theorem noteEnd (w : Work) (c : CtxId) : w.Quiet (w.noteEnd c) := by
  unfold Work.noteEnd
  dsimp only
  split
  · exact refl w
  · split
    · exact refl w
    · exact ite _ ((setProg ..).trans (finish ..)) (refl w)

end Work.Quiet
end Sys2Proof.Machine
end

section
/-! What a fault (R100-R102) changes: its context, and beside it the log, the read-ahead buffers and what is told of it. -/

namespace Sys2Proof.Machine

/-- What the end of contexts changes (R102, R173, R412): the contexts and what is told of them, their copies, writes and reads, and
the inputs and uses of split-K groups. -/
structure Work.Stops (w w' : Work) : Prop where
  eq : w' = { w with
    progs := w'.progs, host := w'.host, out := w'.out, commits := w'.commits, sluices := w'.sluices
    ctxs := w'.ctxs, log := w'.log, readAhead := w'.readAhead, writes := w'.writes, slices := w'.slices
    combineIns := w'.combineIns, combineUses := w'.combineUses, failedUses := w'.failedUses
    fab := { w.fab with
      ports := w'.fab.ports, send := w'.fab.send, loop := w'.fab.loop, noRoute := w'.fab.noRoute, reads := w'.fab.reads } }
  coming : ∀ i, (w'.sluice i).coming = (w.sluice i).coming
  port : ∀ p, (w.port p).Traffic (w'.port p)
  slice : ∀ n, w'.slice n = { w.slice n with peat := (w'.slice n).peat, combineFails := (w'.slice n).combineFails }

theorem Work.Quiet.stops {w w' : Work} (h : w.Quiet w') : w.Stops w' where
  eq := by rw [h.eq]
  coming := h.coming
  port := h.port
  slice n := by rw [h.slice]

namespace Work.Stops

theorem refl (w : Work) : w.Stops w := (Quiet.refl w).stops

theorem trans {a b c : Work} (h1 : a.Stops b) (h2 : b.Stops c) : a.Stops c where
  eq := Eq.trans h2.eq (congrArg (fun w : Work => { w with
    progs := c.progs, host := c.host, out := c.out, commits := c.commits, sluices := c.sluices
    ctxs := c.ctxs, log := c.log, readAhead := c.readAhead, writes := c.writes, slices := c.slices
    combineIns := c.combineIns, combineUses := c.combineUses, failedUses := c.failedUses
    fab := { w.fab with
      ports := c.fab.ports, send := c.fab.send, loop := c.fab.loop, noRoute := c.fab.noRoute, reads := c.fab.reads } }) h1.eq)
  coming i := (h2.coming i).trans (h1.coming i)
  port p := (h1.port p).trans (h2.port p)
  slice n := Eq.trans (h2.slice n)
    (congrArg (fun z : SliceSt => { z with peat := (c.slice n).peat, combineFails := (c.slice n).combineFails }) (h1.slice n))

theorem foldl {α : Type} {f : Work → α → Work} (h : ∀ (w : Work) a, w.Stops (f w a)) (l : List α) (w : Work) : w.Stops (l.foldl f w) :=
  List.foldlRecOn l f (refl w) fun b hb a _ => hb.trans (h b a)

theorem ite {w a b : Work} (c : Prop) [Decidable c] (ha : w.Stops a) (hb : w.Stops b) : w.Stops (if c then a else b) := by
  split <;> assumption

section
variable {w w' : Work} (h : w.Stops w')
include h

theorem cores : w'.cores = w.cores := (congrArg Work.cores h.eq).trans rfl
theorem clusters : w'.clusters = w.clusters := (congrArg Work.clusters h.eq).trans rfl
theorem hbm : w'.hbm = w.hbm := (congrArg Work.hbm h.eq).trans rfl
theorem parts : w'.parts = w.parts := (congrArg Work.parts h.eq).trans rfl
theorem epochs : w'.epochs = w.epochs := (congrArg Work.epochs h.eq).trans rfl
theorem time : w'.time = w.time := (congrArg Work.time h.eq).trans rfl
theorem inReset : w'.inReset = w.inReset := (congrArg Work.inReset h.eq).trans rfl
theorem core (c : CtxId) : w'.core c = w.core c := by unfold Work.core; rw [h.cores]
theorem part (q : Fin 8) : w'.part q = w.part q := by unfold Work.part; rw [h.parts]

end

theorem updCtx (w : Work) (c : CtxId) (f : Ctx → Ctx) : w.Stops (w.updCtx c f) := ⟨rfl, fun _ => rfl, fun _ => .refl _, fun _ => rfl⟩
theorem logEv (w : Work) (u : BitVec 16) (k v : Nat) (p : Byte) (n : Nat) : w.Stops (w.logEv u k v p n) :=
  ⟨rfl, fun _ => rfl, fun _ => .refl _, fun _ => rfl⟩
theorem cancelAhead (w : Work) (c : CtxId) : w.Stops (w.cancelAhead c) := ⟨rfl, fun _ => rfl, fun _ => .refl _, fun _ => rfl⟩

theorem fault (w : Work) (c : CtxId) (x : Option InFlight) (pc : Nat) (code : Byte) (d : Nat) : w.Stops (w.fault c x pc code d) :=
  ite _ ((updCtx ..).trans (logEv ..))
    (ite _ (updCtx ..) ((((cancelAhead ..).trans (updCtx ..)).trans (logEv ..)).trans (Quiet.notifyFault ..).stops))

/-- A slice changed in its Peat and its count of failed uses alone. -/
theorem updSlice (w : Work) (n : Nat) (f : SliceSt → SliceSt)
    (h : ∀ z, f z = { z with peat := (f z).peat, combineFails := (f z).combineFails }) : w.Stops (w.updSlice n f) where
  eq := rfl
  coming _ := rfl
  port _ := .refl _
  slice m := by
    by_cases hm : m = n
    · rw [hm, Work.slice_updSlice_same]; exact h _
    · rw [Work.slice_updSlice_other _ _ hm]

theorem dropOrphans (w : Work) (c : CtxId) : w.Stops (w.dropOrphans c) :=
  Stops.trans (b := { w with writes := (w.dropOrphans c).writes }) ⟨rfl, fun _ => rfl, fun _ => .refl _, fun _ => rfl⟩
    (updSlice _ _ _ (by exact fun _ => rfl))

end Work.Stops

/-! The context that faults. -/

/-- What waits behind a faulting instruction in its queue (R102); nothing behind a fetch. -/
def Ctx.behind (k : Ctx) (x : Option InFlight) : List InFlight :=
  k.infl.filter fun y => match x with
    | some i => decide (y.op.queue = i.op.queue ∧ i.id < y.id) && decide (y.stat = .queued)
    | none => false

/-- What a fault leaves of a context's instructions. -/
def Ctx.leftBy (k : Ctx) (x : Option InFlight) : List InFlight :=
  k.infl.filter fun y => !(k.behind x).contains y && decide (some y.id ≠ x.map (·.id))

/-- The record of a fault (R106). -/
def Ctx.record (k : Ctx) (x : Option InFlight) (pc : Nat) (code : Byte) (detail : Nat) : FaultRec :=
  { code := code, queue := match x with | some i => queueCode i.op.queue | none => 7
    dispatchPc := BitVec.ofNat 24 k.dispatchPc, pc := BitVec.ofNat 24 pc
    discarded := (k.behind x).length, detail := BitVec.ofNat 48 detail }

/-- A context that has faulted (R102). -/
def Ctx.faulted (k : Ctx) (t : TimeSt) (x : Option InFlight) (r : FaultRec) : Ctx :=
  { k.noteEnd t with st := .faulted, fault := r, hold := .none, version := none, infl := k.leftBy x }

/-- A context that holds a program and has not stopped. -/
def Ctx.live (k : Ctx) : Prop := k.st ≠ .faulted ∧ k.st ≠ .empty ∧ k.st ≠ .absent

theorem Ctx.live_of_active {k : Ctx} (h : k.st = .running ∨ k.st = .waiting ∨ k.st = .paused) : k.live := by
  unfold Ctx.live
  rcases h with h | h | h <;> simp [h]

theorem Ctx.leftBy_none (k : Ctx) : k.leftBy none = k.infl :=
  List.filter_eq_self.mpr fun y _ => by simp [Ctx.behind]

theorem Ctx.behind_some (k : Ctx) (x : InFlight) :
    k.behind (some x) = k.infl.filter fun y => decide (y.op.queue = x.op.queue ∧ x.id < y.id ∧ y.stat = .queued) :=
  List.filter_congr fun y _ => by simp only [← Bool.decide_and, and_assoc]

theorem Ctx.leftBy_some (k : Ctx) (x : InFlight) :
    k.leftBy (some x) =
      k.infl.filter fun y => !decide (y.op.queue = x.op.queue ∧ x.id < y.id ∧ y.stat = .queued) && decide (y.id ≠ x.id) :=
  List.filter_congr fun y hy => by simp [Ctx.behind_some, hy]

/-- A fault in a context that runs. -/
theorem Work.fault_of_live (w : Work) (c : CtxId) (x : Option InFlight) (pc : Nat) (code : Byte) (d : Nat) (h : (w.ctx c).live) :
    w.fault c x pc code d =
      (((w.cancelAhead c).updCtx c fun k => k.faulted w.time x ((w.ctx c).record x pc code d)).logFault c
        ((w.ctx c).record x pc code d)).notifyFault c code := by
  obtain ⟨hf, he, ha⟩ := h
  unfold Work.fault
  rw [if_neg hf, if_neg (by simp [he, ha])]
  simp only [if_neg hf]
  rfl

theorem Work.ctx_logFault (w : Work) (c d : CtxId) (r : FaultRec) : (w.logFault c r).ctx d = w.ctx d := rfl

theorem Work.ctx_cancelAhead (w : Work) (c d : CtxId) : (w.cancelAhead c).ctx d = w.ctx d := rfl

theorem Work.ctx_fault (w : Work) (c : CtxId) (x : Option InFlight) (pc : Nat) (code : Byte) (d : Nat) (h : (w.ctx c).live) :
    (w.fault c x pc code d).ctx c = (w.ctx c).faulted w.time x ((w.ctx c).record x pc code d) := by
  rw [Work.fault_of_live w c x pc code d h, (Quiet.notifyFault ..).ctx, Work.ctx_logFault, Work.ctx_updCtx_same, Work.ctx_cancelAhead]

theorem Work.ctx_fault_other (w : Work) {c e : CtxId} (x : Option InFlight) (pc : Nat) (code : Byte) (d : Nat) (h : e ≠ c) :
    (w.fault c x pc code d).ctx e = w.ctx e := by
  unfold Work.fault
  dsimp only
  split
  · rw [Work.ctx_logFault, Work.ctx_updCtx_other _ _ h]
  · split
    · rw [Work.ctx_updCtx_other _ _ h]
    · rw [(Quiet.notifyFault ..).ctx, Work.ctx_logFault, Work.ctx_updCtx_other _ _ h, Work.ctx_cancelAhead]

theorem Work.writes_fault (w : Work) (c : CtxId) (x : Option InFlight) (pc : Nat) (code : Byte) (d : Nat) :
    (w.fault c x pc code d).writes = w.writes := by
  unfold Work.fault
  dsimp only
  split
  · rfl
  · split
    · rfl
    · exact (Quiet.notifyFault ..).writes

end Sys2Proof.Machine
end

section
/-! O55: opcodes that trap (R82, R110), messages that age out (R11), and read-ahead (R425). -/

namespace Sys2Proof.Machine

theorem Ctx.noteEnd_fault_infl (k : Ctx) (t : TimeSt) (r : FaultRec) (l : List InFlight) :
    ({ k with fault := r, infl := l } : Ctx).noteEnd t = { k.noteEnd t with fault := r, infl := l } := by
  unfold Ctx.noteEnd Ctx.countOverrun
  split <;> rfl

theorem Ctx.noteEnd_fault (k : Ctx) (t : TimeSt) (r : FaultRec) :
    ({ k with fault := r } : Ctx).noteEnd t = { k.noteEnd t with fault := r } := by
  unfold Ctx.noteEnd Ctx.countOverrun
  split <;> rfl

theorem Ctx.infl_noteEnd (k : Ctx) (t : TimeSt) : (k.noteEnd t).infl = k.infl := by
  unfold Ctx.noteEnd Ctx.countOverrun
  split <;> rfl

/-- A fault without an instruction keeps what the context has dispatched. -/
theorem Ctx.faulted_none (k : Ctx) (t : TimeSt) (r : FaultRec) :
    k.faulted t none r = { ({ k with fault := r } : Ctx).noteEnd t with st := .faulted, hold := .none, version := none } := by
  rw [Ctx.noteEnd_fault, Ctx.faulted, Ctx.leftBy_none, ← Ctx.infl_noteEnd k t]

theorem Ctx.faulted_eq (k : Ctx) (t : TimeSt) (x : Option InFlight) (r : FaultRec) :
    k.faulted t x r =
      { ({ k with fault := r, infl := k.leftBy x } : Ctx).noteEnd t with st := .faulted, hold := .none, version := none } := by
  rw [Ctx.noteEnd_fault_infl, Ctx.faulted]

/-! Opcodes that no program may use. -/

theorem opcodeFault_privileged {b : Byte} (h : 0xF0 ≤ b.toNat) : opcodeFault b = 0x02 := if_pos h

theorem opcodeFault_unassigned {b : Byte} (h : ¬0xF0 ≤ b.toNat) (hu : KOp.ofOpcode b = none) : opcodeFault b = 0x01 := by
  rw [opcodeFault, if_neg h, hu]; rfl

theorem opcodeFault_assigned {b : Byte} (h : b.toNat < 0xF0) (ha : KOp.ofOpcode b ≠ none) : opcodeFault b = 0 := by
  rw [opcodeFault, if_neg (Nat.not_le.mpr h), if_neg (by simpa using ha)]

/-- The queue of an opcode group by its number (R82, R106). -/
theorem queueCode_groupOp (b : Byte) :
    queueCode (groupOp b).queue = if b.toNat < 0x20 then 0 else if b.toNat < 0x40 then 1 else if b.toNat < 0x60 then 2
      else if b.toNat < 0xA0 then 3 else if b.toNat < 0xD0 then 4 else 0 := by
  unfold groupOp
  dsimp only
  repeat' split
  all_goals rfl

/-- A ready context that meets an opcode that faults. -/
theorem Work.issueIllegal_ready {w : Work} {c : CtxId} (h : w.ready c) {op : Byte} (hc : opcodeFault op ≠ 0) :
    let w1 := w.updCtx c fun k => { k with dispatchPc := k.pc }
    w.issueIllegal c op = if opcodeFault op = 0x02 then w1.fault c none (w.ctx c).pc 0x02 0
      else w1.fault c (some { w1.capture c (groupOp op) ⟨0, 0, 0, 0, 0⟩ with id := w.nextId }) (w.ctx c).pc 0x01 0 := by
  obtain ⟨hst, hhold, -, hpc, hsize, -, -⟩ := h
  have may : (w.ctx c).mayDispatch = true := by simp [Ctx.mayDispatch, hst, hhold]
  have good : (w.ctx c).badPc = false := by simp [Ctx.badPc, hpc, hsize]
  have there : (w.ctx c).st ≠ .absent := by simp [hst]
  dsimp only [Work.issueIllegal]
  rw [if_neg hc, if_neg there, if_neg (by simp [may]), if_neg (by simp [good])]

/-- The record of the fault of an opcode (R106). -/
def trapRecord (pc : Nat) (op : Byte) (group : BitVec 3) : FaultRec :=
  { code := if 0xF0 ≤ op.toNat then 0x02 else 0x01, queue := group, dispatchPc := BitVec.ofNat 24 pc, pc := BitVec.ofNat 24 pc
    discarded := 0, detail := 0 }

/-- The queue in the record of an opcode's fault: none for the privileged range, else that of its group. -/
def trapQueue (op : Byte) : BitVec 3 := if 0xF0 ≤ op.toNat then 7 else queueCode (groupOp op).queue

theorem Work.issueIllegal_fault {w : Work} {c : CtxId} (h : w.ready c) {op : Byte} (hop : 0xF0 ≤ op.toNat ∨ KOp.ofOpcode op = none) :
    (∀ e, e ≠ c → (w.issueIllegal c op).ctx e = w.ctx e) ∧
      (w.issueIllegal c op).ctx c = { ({ w.ctx c with
        dispatchPc := (w.ctx c).pc, fault := trapRecord (w.ctx c).pc op (trapQueue op) } : Ctx).noteEnd w.time with
          st := .faulted, hold := .none, version := none } := by
  have empty : (w.ctx c).infl = [] := Work.ready_infl h
  have live : ((w.updCtx c fun k => { k with dispatchPc := k.pc }).ctx c).live := by
    rw [Work.ctx_updCtx_same]; exact ⟨by simp [h.1], by simp [h.1], by simp [h.1]⟩
  have others (e : CtxId) (he : e ≠ c) : (w.updCtx c fun k => { k with dispatchPc := k.pc }).ctx e = w.ctx e :=
    Work.ctx_updCtx_other _ _ he
  by_cases hp : 0xF0 ≤ op.toNat
  · rw [Work.issueIllegal_ready h (by rw [opcodeFault_privileged hp]; decide), if_pos (opcodeFault_privileged hp)]
    refine ⟨fun e he => (Work.ctx_fault_other _ _ _ _ _ he).trans (others e he), ?_⟩
    rw [Work.ctx_fault _ _ _ _ _ _ live, Work.ctx_updCtx_same, Ctx.faulted_none]
    simp [trapRecord, trapQueue, hp, Ctx.record, Ctx.behind, empty]
  · have code := opcodeFault_unassigned hp (hop.resolve_left hp)
    rw [Work.issueIllegal_ready h (by rw [code]; decide), if_neg (by rw [code]; decide)]
    refine ⟨fun e he => (Work.ctx_fault_other _ _ _ _ _ he).trans (others e he), ?_⟩
    rw [Work.ctx_fault _ _ _ _ _ _ live, Work.ctx_updCtx_same, Ctx.faulted_eq]
    simp [trapRecord, trapQueue, hp, Ctx.record, Ctx.behind, Ctx.leftBy, empty, Work.capture]

/-! Messages that age out. -/

theorem Work.ctx_dropOrphans (w : Work) (c d : CtxId) : (w.dropOrphans c).ctx d = w.ctx d := rfl

theorem Work.mem_dropOrphans_writes (w : Work) (c : CtxId) (h : HbmWrite) :
    h ∈ (w.dropOrphans c).writes ↔ h ∈ w.writes ∧ (h.ctx = c → ∃ y, y ∈ (w.ctx c).infl ∧ y.id = h.id) := by
  show h ∈ w.writes.filter _ ↔ _
  simp [List.mem_filter, imp_iff_not_or]

/-- A started instruction of an engine ages out of a context that runs. -/
theorem Work.ageOut_engine {w : Work} {c : CtxId} {q : Queue} {n : Nat} {x : InFlight} (hq : q ≠ .C)
    (hn : ((w.ctx c).infl.filter fun y => decide (y.op.queue = q) && decide (y.stat ≠ .queued))[n]? = some x)
    (hx : w.instr c x.id = some x) : w.ageOut c q n = (w.fault c (some x) x.pc 0x40 0).dropOrphans c := by
  simp only [Work.ageOut, if_neg hq, hn, Work.endStale, hx]

theorem Work.ageOut_engine_none {w : Work} {c : CtxId} {q : Queue} {n : Nat} (hq : q ≠ .C)
    (hn : ((w.ctx c).infl.filter fun y => decide (y.op.queue = q) && decide (y.stat ≠ .queued))[n]? = none) : w.ageOut c q n = w := by
  simp only [Work.ageOut, if_neg hq, hn]

theorem Work.ageOut_control {w : Work} {c : CtxId} {n i m : Nat} (hn : (w.sluiceOps c)[n]? = some (i, m)) :
    w.ageOut c .C n = (w.updSluice i fun s => { s with coming := s.coming.eraseIdx m }).fault c none (w.ctx c).dispatchPc 0x40 0 := by
  simp only [Work.ageOut, if_true, hn]

theorem Work.ageOut_control_none {w : Work} {c : CtxId} {n : Nat} (hn : (w.sluiceOps c)[n]? = none) : w.ageOut c .C n = w := by
  simp only [Work.ageOut, if_true, hn]

/-! Read-ahead of the next segment. -/

/-- A prefetch that finds nothing changes nothing. -/
theorem Work.prefetch_ok (w : Work) (q : Fin 8) (a n : Nat) : w.prefetch q a n .ok = (w, .ok) := by
  have block (b : Nat × Nat) : w.prefetchBlock q b.1 .ok = w := by
    unfold Work.prefetchBlock
    split
    · rfl
    · split <;> rfl
  unfold Work.prefetch
  generalize rangeBlocks a n = l
  induction l with
  | nil => rfl
  | cons b l ih => rw [List.foldl_cons]; exact (congrArg (fun z => List.foldl _ (z, MemEvent.ok) l) (block b)).trans ih

/-- Nothing of a segment has been read ahead for a context. -/
def Work.aheadOnce (w : Work) (c : CtxId) (seg : Nat) : Prop := ∀ r, r ∈ w.readAhead → ¬(r.ctx = c ∧ r.segment = seg)

theorem Work.fillAhead_none {w : Work} {c : CtxId} (h : (w.ctx c).nextSegment = none) (ev : MemEvent) : w.fillAhead c ev = w := by
  simp only [Work.fillAhead, h]

theorem Work.fillAhead_again {w : Work} {c : CtxId} {seg : Nat} (h : (w.ctx c).nextSegment = some seg) (ha : ¬w.aheadOnce c seg)
    (ev : MemEvent) : w.fillAhead c ev = w := by
  have any : (w.readAhead.any fun r => decide (r.ctx = c ∧ r.segment = seg)) = true := by
    simpa [Work.aheadOnce] using ha
  simp only [Work.fillAhead, h, any, if_true]

theorem Work.fillAhead_once {w : Work} {c : CtxId} {seg : Nat} (h : (w.ctx c).nextSegment = some seg) (ho : w.aheadOnce c seg)
    (ev : MemEvent) : w.fillAhead c ev =
      (((w.ctx c).ahead.filter fun e => decide (e.segment = seg - (w.ctx c).startFrame)).foldl
        (fun (s : Work × MemEvent) e => s.1.aheadEntry c seg e s.2) (w, ev)).1 := by
  have any : (w.readAhead.any fun r => decide (r.ctx = c ∧ r.segment = seg)) = false := by
    simpa [Work.aheadOnce] using ho
  simp only [Work.fillAhead, h, any, Bool.false_eq_true, if_false]

/-- What a range takes of the cluster's buffers once it is read ahead. -/
theorem Work.aheadUsed_append (w : Work) (c : CtxId) (r : ReadAhead) (h : r.ctx = c) :
    ({ w with readAhead := w.readAhead ++ [r] } : Work).aheadUsed c = w.aheadUsed c + r.bytes := by
  simp [Work.aheadUsed, List.foldl_append, h]

theorem Work.aheadEntry_range {w : Work} {c : CtxId} {e : AheadEnt} (seg : Nat) (hs : e.scaleEntry = false)
    (hf : w.aheadUsed c + e.bytes ≤ 524288) (hm : w.mapped (w.ctx c).part e.addr e.bytes = true) :
    w.aheadEntry c seg e .ok =
      ({ w with readAhead := w.readAhead ++ [⟨c, seg, (w.ctx c).part, e.addr, e.bytes⟩] }, .ok) := by
  simp [Work.aheadEntry, hs, hm, Nat.not_lt.mpr hf, Work.prefetch_ok]

theorem Work.aheadEntry_refused {w : Work} {c : CtxId} {e : AheadEnt} (seg : Nat) (ev : MemEvent) (hs : e.scaleEntry = false)
    (hr : 524288 < w.aheadUsed c + e.bytes ∨ w.mapped (w.ctx c).part e.addr e.bytes = false) : w.aheadEntry c seg e ev = (w, ev) := by
  simp only [Work.aheadEntry, hs, Bool.false_eq_true, if_false, if_pos hr]

/-- The ranges of a list that fits are all read ahead, in order. -/
theorem Work.foldl_aheadEntry (c : CtxId) (seg : Nat) (l : List AheadEnt) (w : Work)
    (hl : ∀ e, e ∈ l → e.scaleEntry = false ∧ w.mapped (w.ctx c).part e.addr e.bytes = true)
    (hf : w.aheadUsed c + (l.map AheadEnt.bytes).sum ≤ 524288) :
    l.foldl (fun (s : Work × MemEvent) e => s.1.aheadEntry c seg e s.2) (w, .ok) =
      ({ w with readAhead := w.readAhead ++ l.map fun e => ⟨c, seg, (w.ctx c).part, e.addr, e.bytes⟩ }, .ok) := by
  induction l generalizing w with
  | nil => simp
  | cons e l ih =>
    obtain ⟨hs, hm⟩ := hl e List.mem_cons_self
    rw [List.map_cons, List.sum_cons] at hf
    have fits : w.aheadUsed c + e.bytes ≤ 524288 := by omega
    rw [List.foldl_cons]
    dsimp only
    rw [Work.aheadEntry_range seg hs fits hm]
    refine (ih { w with readAhead := w.readAhead ++ [⟨c, seg, (w.ctx c).part, e.addr, e.bytes⟩] } (fun d hd => hl d (List.mem_cons_of_mem e hd)) ?_).trans ?_
    · have used := w.aheadUsed_append c ⟨c, seg, (w.ctx c).part, e.addr, e.bytes⟩ rfl
      dsimp only at used
      omega
    · simp only [List.append_assoc, List.map_cons, List.singleton_append]
      rfl

/-- Settles O55: a fault of a context that runs leaves the others, and the read-ahead is a fold of its operand list. -/
theorem trapAndReadAheadResults : Obligations.TrapAndReadAheadResults := by
  intro c q op n s
  dsimp only
  refine ⟨?illegal, ?assigned, ?engine, ?engineNone, ?control, ?controlNone, ?ahead, ?noAhead⟩
  case illegal =>
    intro hr hop
    obtain ⟨others, here⟩ := Work.issueIllegal_fault hr hop
    refine ⟨s.onW fun w => w.issueIllegal c op, rfl, rfl, rfl, others, here.trans ?_, trivial⟩
    unfold trapQueue
    rw [queueCode_groupOp]
    rfl
  case assigned =>
    intro hp ha
    show Host.Outcome.next (s.onW fun w => w.issueIllegal c op) = _
    simp [State.onW, Work.issueIllegal, opcodeFault_assigned hp ha]
  case engine =>
    intro x hq hn hx hst
    have live := Ctx.live_of_active hst
    refine ⟨s.onW fun w => w.ageOut c q n, rfl, rfl, rfl, fun e he => ?_, ?_, fun h => ?_⟩
    · rw [State.onW_w, Work.ageOut_engine hq hn hx, Work.ctx_dropOrphans, Work.ctx_fault_other _ _ _ _ _ he]
    · rw [State.onW_w, Work.ageOut_engine hq hn hx, Work.ctx_dropOrphans, Work.ctx_fault _ _ _ _ _ _ live, Ctx.faulted_eq,
        Ctx.leftBy_some, Ctx.record, Ctx.behind_some]
      rfl
    · rw [State.onW_w, Work.ageOut_engine hq hn hx, Work.mem_dropOrphans_writes, Work.writes_fault,
        Work.ctx_fault _ _ _ _ _ _ live, Ctx.faulted, Ctx.leftBy_some]
  case engineNone =>
    intro hq hn
    show Host.Outcome.next (s.onW fun w => w.ageOut c q n) = _
    rw [State.onW, Work.ageOut_engine_none hq hn]
  case control =>
    intro i m hn hst
    have live := Ctx.live_of_active hst
    refine ⟨s.onW fun w => w.ageOut c .C n, rfl, rfl, rfl, fun e he => ?_, ?_, ?_⟩
    · rw [State.onW_w, Work.ageOut_control hn, Work.ctx_fault_other _ _ _ _ _ he, Work.ctx_updSluice]
    · rw [State.onW_w, Work.ageOut_control hn, Work.ctx_fault _ _ _ _ _ _ (by simpa using live), Work.ctx_updSluice, Ctx.faulted_none]
      simp [Ctx.record, Ctx.behind]
    · rw [State.onW_w, Work.ageOut_control hn, (Work.Stops.fault ..).coming, Work.sluice_updSluice_same]
  case controlNone =>
    intro hn
    show Host.Outcome.next (s.onW fun w => w.ageOut c .C n) = _
    rw [State.onW, Work.ageOut_control_none hn]
  case ahead =>
    intro seg ev hseg
    have next (w : Work) (e : MemEvent) (h : s.w.fillAhead c e = w) : exec (.readAheadFill c e) s = .next { s with w := w } := by
      rw [← h]; rfl
    refine ⟨fun ha => ?_, fun ho hl hf => ?_, fun e x ho hl hs hx => ?_, fun e ho hl hs hr => ?_⟩
    · exact next _ _ (Work.fillAhead_again hseg ha ev)
    · exact next _ _ (by rw [Work.fillAhead_once hseg ho, Work.foldl_aheadEntry _ _ _ _ hl hf])
    · refine next _ _ ?_
      rw [Work.fillAhead_once hseg ho, hl, List.foldl_cons, List.foldl_nil]
      simp only [Work.aheadEntry, hs, if_true]
      rw [Work.cacheEntry_of_entry hx]
    · exact next _ _ (by
        rw [Work.fillAhead_once hseg ho, hl, List.foldl_cons, List.foldl_nil, Work.aheadEntry_refused seg ev hs hr])
  case noAhead =>
    intro ev hseg
    show Host.Outcome.next (s.onW fun w => w.fillAhead c ev) = _
    rw [State.onW, Work.fillAhead_none hseg]

end Sys2Proof.Machine
end

section
/-! O22: accepted writes (R84), the Peat's spills and fetches (R193-R199), writes that waited (R205), and combining drains (R171). -/

namespace Sys2Proof.Machine

/-- What the device's own writes to memory change (R351-R354): the stored bytes, tags and counts, the tables of the partitions, the log. -/
def Work.Stored (w w' : Work) : Prop :=
  w' = { w with
    hbm := w'.hbm, tags := w'.tags, ctr := w'.ctr, nodes := w'.nodes, lostPassed := w'.lostPassed, readAhead := w'.readAhead
    parts := w'.parts, log := w'.log }

namespace Work.Stored

theorem refl (w : Work) : w.Stored w := rfl

theorem trans {a b c : Work} (h1 : a.Stored b) (h2 : b.Stored c) : a.Stored c :=
  Eq.trans h2 (congrArg (fun w : Work => { w with
    hbm := c.hbm, tags := c.tags, ctr := c.ctr, nodes := c.nodes, lostPassed := c.lostPassed, readAhead := c.readAhead
    parts := c.parts, log := c.log }) h1)

theorem foldl {α : Type} {f : Work → α → Work} (h : ∀ (w : Work) a, w.Stored (f w a)) (l : List α) (w : Work) : w.Stored (l.foldl f w) :=
  List.foldlRecOn l f (refl w) fun b hb a _ => hb.trans (h b a)

theorem ite {w a b : Work} (c : Prop) [Decidable c] (ha : w.Stored a) (hb : w.Stored b) : w.Stored (if c then a else b) := by
  split <;> assumption

theorem ctxs {w w' : Work} (h : w.Stored w') : w'.ctxs = w.ctxs := (congrArg Work.ctxs h).trans rfl
theorem cores {w w' : Work} (h : w.Stored w') : w'.cores = w.cores := (congrArg Work.cores h).trans rfl

theorem writeBack (w : Work) (b : Nat) : w.Stored (w.writeBack b) := foldl (fun _ _ => by exact rfl) _ w
theorem sweepLost (w : Work) : w.Stored w.sweepLost := foldl (fun _ _ => by exact rfl) _ w
theorem unreached (w : Work) (q : Fin 8) (pa : Nat) (code : Byte) : w.Stored (w.unreached q pa code) := ite _ rfl rfl

theorem contents (w : Work) (m : Mem) (t : Tbl (BitVec 64)) (c : Tbl CtrWord) : w.Stored { w with hbm := m, tags := t, ctr := c } := rfl

theorem sealBlock (w : Work) (k : List Byte) (b : Nat) (c : CtrWord) (p : List Byte) : w.Stored (w.sealBlock k b c p) :=
  (contents ..).trans (writeBack ..)

theorem setCtr (w : Work) (b : Nat) (c : CtrWord) : w.Stored (w.setCtr b c) := rfl

theorem poison (w : Work) (b : Nat) : w.Stored (w.poison b) := (setCtr ..).trans (writeBack ..)

theorem ite_snd {α : Type} {w : Work} {a b : α × Work} (c : Prop) [Decidable c] (ha : w.Stored a.2) (hb : w.Stored b.2) :
    w.Stored (if c then a else b).2 := by
  split <;> assumption

theorem filtered (w : Work) (f : List Nat → List Nat) (g : List ReadAhead → List ReadAhead) :
    w.Stored { w with lostPassed := f w.lostPassed, readAhead := g w.readAhead } := rfl

theorem logEv (w : Work) (u : BitVec 16) (k v : Nat) (p : Byte) (n : Nat) : w.Stored (w.logEv u k v p n) := rfl

theorem updPart (w : Work) (q : Fin 8) (f : Part → Part) : w.Stored (w.updPart q f) := rfl

theorem alarm (w : Work) (q : Fin 8) (pa d : Nat) : w.Stored (w.alarm q pa d) := (logEv ..).trans (updPart ..)

/-- A block written without a finding of its stack. -/
theorem writeBlock (w : Work) (q : Fin 8) (a : Nat) (bs : List Byte) : w.Stored (w.writeBlock q a bs .ok).2 := by
  unfold Work.writeBlock
  split
  · exact refl w
  next pa d _ =>
    have met (c : Prop) [Decidable c] : (if c then w else w.meet q pa d .ok) = w := by split <;> rfl
    have store (k : List Byte) (b : Nat) (c : CtrWord) (plain : List Byte) (lost : Bool) (f : List Nat → List Nat)
        (g : List ReadAhead → List ReadAhead) : w.Stored
          (let w2 := w.sealBlock k b c plain
           let w3 : Work := { w2 with lostPassed := f w2.lostPassed, readAhead := g w2.readAhead }
           if lost then w3.sweepLost else w3) := by
      have filtered := (sealBlock w k b c plain).trans (filtered (w.sealBlock k b c plain) f g)
      exact ite _ (filtered.trans (sweepLost _)) filtered
    dsimp only
    refine ite_snd _ (unreached ..) ?_
    rw [met]
    refine ite_snd _ (ite_snd _ ((store _ _ _ _ _ (List.filter _) (List.filter _)).trans (logEv ..)) ?_) (ite_snd _ (store _ _ _ _ _ (List.filter _) (List.filter _))
      (ite_snd _ (store _ _ _ _ _ (List.filter _) (List.filter _)) (ite_snd _ (store _ _ _ _ _ (List.filter _) (List.filter _)) ?_)))
    · exact (ite _ (refl w) (alarm ..)).trans (updPart ..)
    · exact ((alarm ..).trans (poison ..)).trans (updPart ..)

theorem writeBlocks (q : Fin 8) (l : List (Nat × Nat)) (bs : List Byte) (w : Work) : w.Stored (w.writeBlocks q l bs .ok).2 := by
  induction l generalizing w bs with
  | nil => exact refl w
  | cons a l ih => exact (writeBlock w q a.1 (bs.take a.2)).trans (ih _ _)

theorem hbmWrite (w : Work) (q : Fin 8) (a : Nat) (bs : List Byte) : w.Stored (w.hbmWrite q a bs .ok).2 := by
  unfold Work.hbmWrite
  split
  · exact writeBlocks ..
  · exact refl w

theorem writePieces (q : Fin 8) (l : List (Nat × Nat)) (bs : List Byte) (w : Work) : w.Stored (w.writePieces q l bs) := by
  induction l generalizing w bs with
  | nil => exact refl w
  | cons a l ih => exact (hbmWrite w q a.1 (bs.take a.2)).trans (ih _ _)

theorem freshPage (w : Work) (p : Nat) : w.Stored (w.freshPage p) := by
  unfold Work.freshPage
  dsimp only
  refine ite _ (Work.Stored.trans ?_ (sweepLost _)) ?_
  all_goals
    refine Work.Stored.trans ?_ (foldl (fun _ _ => writeBack ..) _ _)
    exact rfl

theorem setPeatPage (w : Work) (q : Fin 8) (g : PeatPage) : w.Stored (w.setPeatPage q g) := by
  unfold Work.setPeatPage
  dsimp only
  split
  · exact refl w
  · exact ite _ (refl w) (Work.Stored.trans (Work.Stored.trans (b := w.updPart q _) rfl (freshPage ..)) rfl)

end Work.Stored

/-! Writes of HBM. -/

theorem Work.acceptWrite_overtakes {w : Work} {i : Nat} {h : HbmWrite} (hi : w.writes[i]? = some h) (ho : w.overtakes i h = true)
    (ev : MemEvent) : w.acceptWrite i ev = w := by
  simp only [Work.acceptWrite, hi, ho, if_true]

/-- A write that is accepted retires the instruction that it is of (R84). -/
theorem Work.acceptWrite_done {w w' : Work} {i : Nat} {h : HbmWrite} {x : InFlight} {ev : MemEvent} (hi : w.writes[i]? = some h)
    (ho : w.overtakes i h = false) (hr : ∀ y, w.instr h.ctx h.id = some y → w.staleReply y = false)
    (hw : ({ w with writes := w.writes.eraseIdx i } : Work).applyParts h.q h.parts ev = ((0, 0), w'))
    (hx : w'.instr h.ctx h.id = some x) : w.acceptWrite i ev = w'.retire h.ctx x x.flag := by
  have good : ((w.instr h.ctx h.id).map w.staleReply).getD false = false := by
    cases hy : w.instr h.ctx h.id with
    | none => rfl
    | some y => exact hr y hy
  simp only [Work.acceptWrite, hi, ho, good, Bool.false_eq_true, if_false, hw, hx, if_true]

/-! The Peat. -/

theorem Work.spillOne_pieces {w : Work} {n : Nat} {a b : Bool} {q : Fin 8} {e : PeatEntry} {l : List (Nat × Nat)} {p1 : Peat}
    (ho : w.sliceOwner n = some q) (hv : (w.slice n).peat.victimLane a = some b) (hr : oldestResident ((w.slice n).peat.lane b) = some e)
    (hp : (w.slice n).peat.placePieces b e.dom (e.size * 512 / pageBytes + 3) (e.size * 512) [] = some (l, p1)) :
    w.spillOne n a = some
      (((((w.slice n).peat.newPages p1).foldl (fun w g => w.setPeatPage q g) w).writePieces q l e.bytes).updPeat n fun _ =>
        { p1.setLane b (replaceOldest ((w.slice n).peat.lane b) { e with place := .spilled l, bytes := [], units := [] }) with
          spills := satAdd (w.slice n).peat.spills 1 }) := by
  simp only [Work.spillOne, Work.peat, ho, hv, hr, hp]

theorem Work.fetchBack_read {w : Work} {n : Nat} {b : Bool} {q : Fin 8} {e : PeatEntry} {l : List (Nat × Nat)} {bytes : List Byte}
    (hn : newestSpilled ((w.slice n).peat.lane b) = some e) (ho : w.sliceOwner n = some q) (hm : w.mayFetch n b = true)
    (hp : e.place = .spilled l) (hr : w.readPieces q l .ok = (⟨0, bytes⟩, w)) :
    w.fetchBack n b .ok = w.updPeat n fun p => ({ p.setLane b (replaceSpilled (p.lane b)
      { e with place := .resident, bytes := bytes, units := (w.slice n).peat.takeUnits b e.size }) with
        fetches := satAdd p.fetches 1 } : Peat).releasePages := by
  simp [Work.fetchBack, Work.peat, hn, ho, hm, hp, hr]

/-- A pop's copy that ends retires its instruction (R194). -/
theorem Work.endCopy_done {w : Work} {c : CtxId} {y : PeatCopy} {x : InFlight} {sp : Span}
    (hy : (w.slice c.slice.val).peat.copies.find? (fun y => decide (y.ctx = c)) = some y) (hx : w.instr c y.id = some x)
    (hr : w.staleReply x = false) (hs : (w.ctx c).range x.vd (y.size * 512) = .ok sp) :
    w.endCopy c = ((w.updPeat c.slice.val fun p => { p with copies := p.copies.erase y }).spanWrite c sp y.bytes).retire c x x.flag := by
  have kept : (w.updPeat c.slice.val fun p => { p with copies := p.copies.erase y }).instr c y.id = some x := hx
  have range : ((w.updPeat c.slice.val fun p => { p with copies := p.copies.erase y }).ctx c).range x.vd (y.size * 512) = .ok sp := hs
  simp only [Work.endCopy, Work.peat, hy, hx, Option.map_some, Option.getD_some, hr, Bool.false_eq_true, if_false, kept, range]

/-- The entry that a push makes of its bytes (R193). -/
def Work.pushed (w : Work) (c : CtxId) (x : InFlight) (sp : Span) : PeatEntry :=
  ⟨x.vd, x.f.imm.toNat + 1, w.spanRead c sp ((x.f.imm.toNat + 1) * 512),
    match (w.jobOf c).bind Job.peat with
    | some v => w.pushDomain (w.ctx c).part v x.step (tagMb x.vd)
    | none => 0,
    .resident, (w.slice c.slice.val).peat.takeUnits (tagLane x.vd) (x.f.imm.toNat + 1), false⟩

/-- A push that its slice has room for (R193). -/
theorem effPeatPush_room {w : Work} {c : CtxId} {x : InFlight} {sp : Span}
    (hs : (w.ctx c).range x.va ((x.f.imm.toNat + 1) * 512) = .ok sp) (hv : tagVersion x.vd = (w.ctx c).workVersion)
    (hl : ((w.slice c.slice.val).peat.lane (tagLane x.vd)).length < 32768) (hf : x.f.imm.toNat + 1 ≤ (w.slice c.slice.val).peat.free) :
    effPeatPush w c x .ok =
      .done (w.updPeat c.slice.val fun p => p.setLane (tagLane x.vd) (w.pushed c x sp :: p.lane (tagLane x.vd))) := by
  simp only [effPeatPush, withSram, withOp, evHere, evUe, Bool.false_eq_true, if_false, hs, hv, ne_eq, not_true, Work.peat,
    Nat.not_le.mpr hl, Nat.not_lt.mpr hf]
  rfl

/-! Writes that waited. -/

/-- A write of HBM whose ranges are mapped and may be written now is on its way (R84, R205). -/
theorem effDmaPut_free {w : Work} {c : CtxId} {x : InFlight} {ps : List (Nat × List Byte)} (hp : w.putParts c x = .ok ps)
    (hf : ∀ y, y ∈ ps → w.mapped (w.ctx c).part y.1 y.2.length = true ∧ w.writeRole (w.ctx c).part y.1 y.2.length ≠ .current ∧
      w.mustHold (w.ctx c).part y.1 y.2.length = false) :
    effDmaPut w c x .ok = .stand { w with writes := w.writes ++ [⟨(w.ctx c).part, ps, c, x.id⟩] } .writing := by
  have all : ps.find? (fun p => !w.mapped (w.ctx c).part p.1 p.2.length) = none :=
    List.find?_eq_none.mpr fun y hy => by simp [(hf y hy).1]
  have free : (ps.any fun p => decide (w.writeRole (w.ctx c).part p.1 p.2.length = .current)) = false :=
    List.any_eq_false.mpr fun y hy => by simp [(hf y hy).2.1]
  have go : (ps.any fun p => w.mustHold (w.ctx c).part p.1 p.2.length) = false :=
    List.any_eq_false.mpr fun y hy => by simp [(hf y hy).2.2]
  simp only [effDmaPut, withSram, withOp, evHere, evUe, Bool.false_eq_true, if_false, hp, all, free, go]

/-- A write of a flow that need not be held any more is accepted, and its flow goes on (R205, R285). -/
theorem Work.releaseHeld_write {w w' : Work} {q : Fin 8} {i : Nat} {h : HeldWrite} {ev : MemEvent}
    (hi : (w.heldWrites.filter fun h => decide (h.q = q))[i]? = some h)
    (hm : w.mustHold q h.pkt.addr.toNat h.pkt.payload.length = false)
    (hw : ({ w with heldWrites := w.heldWrites.filter fun x => decide (x ≠ h) } : Work).hbmWrite q h.pkt.addr.toNat h.pkt.payload ev =
      (0, w')) :
    w.releaseHeld q i ev = ((w'.passE (pktFlowIn h.pkt q) 0).ackFlow (pktFlowIn h.pkt q)).drainEarly (pktFlowIn h.pkt q)
      (((w'.passE (pktFlowIn h.pkt q) 0).recvFlow (pktFlowIn h.pkt q)).early.length + 1) := by
  simp only [Work.releaseHeld, hi, hm, Bool.false_eq_true, if_false, hw, if_true]

theorem Work.releaseHeld_reduction {w : Work} {q : Fin 8} {i : Nat} {e : Nat × RedCtx}
    (hi : (w.heldWrites.filter fun h => decide (h.q = q))[i]? = none)
    (he : (w.redWaiting q)[i - (w.heldWrites.filter fun h => decide (h.q = q)).length]? = some e) (ev : MemEvent) :
    w.releaseHeld q i ev = w.redUnwait e ev := by
  simp only [Work.releaseHeld, hi, he]

/-- The combining drain of a root is concluded with its result (R171). -/
theorem Work.combineEnds_due {w : Work} {c : CtxId} {u : CombineUse} {x : InFlight} {ev : MemEvent}
    (hu : w.combineUses.find? (fun u => w.useDue c u) = some u) (hx : w.instr c u.id = some x) :
    w.combineEnds c ev = (effCombineResult w x u ev).conclude c x := by
  simp only [Work.combineEnds, hu, hx]

theorem Work.retry_head {w : Work} {c : CtxId} {q : Queue} {st : IStat} {x : InFlight} (hh : w.headOf c q = some x) (hs : x.stat = st)
    (eff : Work → CtxId → InFlight → Effect) : w.retry c q st eff = (eff w c x).conclude c x := by
  simp only [Work.retry, hh, hs, if_true]

/-- Settles O22: each event concludes the effect of the instruction that it ends. -/
theorem memoryEventResults : Obligations.MemoryEventResults := by
  intro c n s
  dsimp only
  refine ⟨fun i h ev hi ho => ?_, fun i h ev w x hi ho hr hw hx => ?_, fun d x q b e l p1 hd ho hv hr hp => ?_,
    fun b e q l bytes hn ho hm hp hr => ?_, fun y x sp hy hx hr hs => ?_, fun x sp hh hop hst hs hv hl hf => ?_,
    fun x ps hh hop hst hp hf => ?_, fun q i h ev w hi hm hw => ?_, fun q i e ev hi he => ?_, fun u x ev w hu hx hq he => ?_⟩
  · show Host.Outcome.next (s.onW fun w => w.acceptWrite i ev) = _
    rw [State.onW, Work.acceptWrite_overtakes hi ho]
  · show Host.Outcome.next (s.onW fun w => w.acceptWrite i ev) = _
    rw [State.onW, Work.acceptWrite_done hi ho hr hw hx]
  · replace hv : (s.w.slice n.val).peat.victimLane (tagLane x.vd) = some b := hv
    have spill : exec (.peatSpill n) s = .next { s with w := (s.w.spillOne n.val (tagLane x.vd)).getD s.w } := by
      show Host.Outcome.next (State.onW s _) = _
      simp only [State.onW, hd]
    have stored := (Work.Stored.foldl (fun w g => Work.Stored.setPeatPage w q g) (((s.w.slice n.val).peat).newPages p1) s.w).trans
      (Work.Stored.writePieces q l e.bytes _)
    rw [spill, Work.spillOne_pieces ho hv hr hp]
    exact ⟨_, rfl, rfl, stored.ctxs, stored.cores, by simp only [Option.getD_some, Work.updPeat, Work.slice_updSlice_same]⟩
  · show Host.Outcome.next (s.onW fun w => w.fetchBack n.val b .ok) = _
    rw [State.onW, Work.fetchBack_read hn ho hm hp hr]
    rfl
  · show Host.Outcome.next (s.onW fun w => w.endCopy c) = _
    rw [State.onW, Work.endCopy_done hy hx hr hs]
    rfl
  · show Host.Outcome.next (s.onW fun w => w.retry c .M .waitSpace fun w c x => effPeatPush w c x .ok) = _
    rw [State.onW, Work.retry_head hh hst, effPeatPush_room hs hv hl hf, Effect.conclude_done, Work.queue_of_headOf hh]
    rfl
  · show Host.Outcome.next (s.onW fun w => w.retry c .M .waitRefs fun w c x => effDmaPut w c x .ok) = _
    rw [State.onW, Work.retry_head hh hst, effDmaPut_free hp hf]
    rfl
  · show Host.Outcome.next (s.onW fun w => w.releaseHeld q i ev) = _
    rw [State.onW, Work.releaseHeld_write hi hm hw]
  · show Host.Outcome.next (s.onW fun w => w.releaseHeld q i ev) = _
    rw [State.onW, Work.releaseHeld_reduction hi he]
  · show Host.Outcome.next (s.onW fun w => w.combineEnds c ev) = _
    rw [State.onW, Work.combineEnds_due hu hx, he, Effect.conclude_done, if_neg hq]

end Sys2Proof.Machine
end

section
/-! A list of units each changed once: what each holds afterwards. -/

namespace Sys2Proof.Machine

/-- Each of a list of units is changed once, and no other. -/
theorem get_foldl_once {σ ι α : Type} [DecidableEq ι] {get : σ → ι → α} {step : σ → ι → σ} {f : ι → α → α}
    (same : ∀ s i, get (step s i) i = f i (get s i)) (other : ∀ s i j, j ≠ i → get (step s i) j = get s j)
    {l : List ι} (hl : l.Nodup) (s : σ) (j : ι) : get (l.foldl step s) j = if j ∈ l then f j (get s j) else get s j := by
  induction l generalizing s with
  | nil => simp
  | cons i l ih =>
    obtain ⟨hi, hn⟩ := List.nodup_cons.mp hl
    rw [List.foldl_cons, ih hn]
    by_cases h : j = i
    · subst h; simp [hi, same]
    · simp [h, other]

/-- What no change of a list touches stays. -/
theorem foldl_kept {σ ι α : Type} {get : σ → α} {step : σ → ι → σ} {l : List ι} (h : ∀ s, ∀ i ∈ l, get (step s i) = get s) (s : σ) :
    get (l.foldl step s) = get s :=
  List.foldlRecOn l step (motive := fun t => get t = get s) rfl fun t ht i hi => (h t i hi).trans ht

theorem Work.stack_foldl_updStack (n : Nat) (f : Stack → Stack) (w : Work) (i : Nat) :
    ((List.range n).foldl (fun w k => w.updStack k f) w).stack i = if i < n then f (w.stack i) else w.stack i := by
  simpa using get_foldl_once (get := Work.stack) (step := fun w k => w.updStack k f) (f := fun _ => f)
    (fun w k => w.stack_updStack_same k f) (fun w k j h => w.stack_updStack_other f h) List.nodup_range w i

theorem Work.port_foldl_updPort (n : Nat) (f : Port → Port) (w : Work) (i : Nat) :
    ((List.range n).foldl (fun w k => w.updPort k f) w).port i = if i < n then f (w.port i) else w.port i := by
  simpa using get_foldl_once (get := Work.port) (step := fun w k => w.updPort k f) (f := fun _ => f)
    (fun w k => w.port_updPort_same k f) (fun w k j h => w.port_updPort_other f h) List.nodup_range w i

theorem Work.stack_foldl_updPort (l : List Nat) (f : Port → Port) (w : Work) (i : Nat) :
    (l.foldl (fun w k => w.updPort k f) w).stack i = w.stack i :=
  foldl_kept (get := fun w : Work => w.stack i) (by intros; rfl) w

theorem Work.port_foldl_updStack (l : List Nat) (f : Stack → Stack) (w : Work) (i : Nat) :
    (l.foldl (fun w k => w.updStack k f) w).port i = w.port i :=
  foldl_kept (get := fun w : Work => w.port i) (by intros; rfl) w

end Sys2Proof.Machine
end

section
/-! O39: registers that act (R29, R95, R270, R280, R293, R304, R411, R427, R435, R486). -/

namespace Sys2Proof.Machine

/-! Reads of the window (R3, R29, R390). -/

/-- Where a function is served, its read is answered (R3). -/
theorem State.answerRead_of_open {s : State} {who : Fn} (h : s.fnOpen who = true) (off size : Nat) :
    s.answerRead who off size = (s.readWindow who off size).2.onW fun w => w.emit (.reg who off (s.readWindow who off size).1) := by
  have on : s.ctl.pins.off = false := by
    simp only [State.fnOpen, Ctl.ready, PinSt.released, Bool.and_eq_true, Bool.not_eq_true'] at h
    exact h.1.1.1.1.1.1.1
  simp [State.answerRead, on, h]

/-- A register without performance counters is read as it is (R389). -/
theorem State.readLatched_plain (s : State) (who : Fn) {off : Nat} (h : perfBits off = 0) :
    s.readLatched who off = (s.readReg who off, s) := by
  simp [State.readLatched, h]

/-- A 64-bit read of a register without performance counters. -/
theorem State.readWindow_plain (s : State) (who : Fn) {off : Nat} (h8 : off % 8 = 0) (h : perfBits off = 0) :
    s.readWindow who off 8 = (s.readReg who off, s) := by
  simp [State.readWindow, h8, s.readLatched_plain who h]

theorem fnKey_lt (f : Fn) : fnKey f < 32 := by
  unfold fnKey
  omega

/-- The status registers of units that drain hold no performance counters (R390). -/
theorem perfBits_statusOffset (u : StatusUnit) : perfBits (statusOffset u) = 0 := by
  cases u with
  | port p => revert p; decide
  | queues f =>
    have := fnKey_lt f
    unfold perfBits statusOffset
    dsimp only
    rw [if_neg (by omega), if_neg (by omega), if_neg (by omega)]
  | fence => decide
  | socket k => revert k; decide

theorem statusOffset_aligned (u : StatusUnit) : statusOffset u % 8 = 0 := by
  cases u with
  | port p => revert p; decide
  | queues f => unfold statusOffset; dsimp only; omega
  | fence => decide
  | socket k => revert k; decide

theorem State.readReg_ftime (s : State) (who : Fn) : s.readReg who 0x08 = if physical who then s.w.time.ftime else 0 := rfl

/-- A 32-bit read of FTIME's low half by a physical function latches its high half (R29). -/
theorem State.readWindow_ftimeLow (s : State) {who : Fn} (h : physical who = true) :
    s.readWindow who 0x08 4 =
      ((s.w.time.ftime.extractLsb' 0 32).setWidth 64, s.setLatch (some (s.w.time.ftime.extractLsb' 32 32))) := by
  have low (t : Word) : t &&& 0xFFFFFFFF#64 = (t.extractLsb' 0 32).setWidth 64 := by
    refine BitVec.eq_of_toNat_eq ?_
    have mask := Nat.and_two_pow_sub_one_eq_mod t.toNat 32
    simp at mask ⊢
    omega
  simp [State.readWindow, s.readLatched_plain who (off := 8) (by decide), State.readReg_ftime, h, low]

theorem State.readWindow_ftimeLow_virtual (s : State) {who : Fn} (h : physical who = false) : s.readWindow who 0x08 4 = (0, s) := by
  simp [State.readWindow, s.readLatched_plain who (off := 8) (by decide), State.readReg_ftime, h]

theorem State.readWindow_ftimeHigh_latched (s : State) {who : Fn} (h : physical who = true) {t : BitVec 32}
    (ht : s.w.time.latch = some t) : s.readWindow who 0x0C 4 = (t.setWidth 64, s.setLatch none) := by
  simp [State.readWindow, h, ht]

theorem State.readWindow_ftimeHigh (s : State) {who : Fn} (h : physical who = true) (ht : s.w.time.latch = none) :
    (s.readWindow who 0x0C 4).1 = (s.w.time.ftime.extractLsb' 32 32).setWidth 64 := by
  have high (t : Word) : t >>> 32 = (t.extractLsb' 32 32).setWidth 64 := by
    refine BitVec.eq_of_toNat_eq ?_
    have := t.isLt
    simp [Nat.shiftRight_eq_div_pow]
    omega
  simp [State.readWindow, s.readLatched_plain who (off := 8) (by decide), State.readReg_ftime, h, ht, high]

/-! The health score (R427, R428). -/

/-- What events signalled to functions change: the functions' registers, what has left the device, the log. -/
def Work.Noticed (w w' : Work) : Prop := w' = { w with host := w'.host, out := w'.out, log := w'.log }

theorem Work.Noticed.trans {a b c : Work} (h1 : a.Noticed b) (h2 : b.Noticed c) : a.Noticed c :=
  Eq.trans h2 (congrArg (fun w : Work => { w with host := c.host, out := c.out, log := c.log }) h1)

theorem Work.Noticed.fnEvent (w : Work) (f : Fn) (bit : Nat) : w.Noticed (w.fnEvent f bit) := by
  unfold Work.fnEvent
  dsimp only
  split <;> rfl

theorem Work.Noticed.healthEvent (w : Work) (fire : Bool) (score : Nat) : w.Noticed (w.healthEvent fire score) := by
  unfold Work.healthEvent
  split
  · refine Work.Noticed.trans (b := w.logEv (unitId 3 0 0x31) 0x06FF 2 0xFF score) rfl ?_
    exact List.foldlRecOn _ _ rfl fun b hb f _ => hb.trans (.fnEvent b f 0)
  · rfl

theorem healthScore_eq (weights inputs : List Byte) :
    healthScore weights inputs = min 255 (((weights.zip inputs).map fun e => e.1.toNat * e.2.toNat).sum / 256) := by
  rw [healthScore, List.sum_eq_foldl, List.foldl_map]

/-- What a new span of the score's counts changes (R427). -/
def Work.Recounted (w w' : Work) : Prop := w' = { w with memStacks := w'.memStacks, fab := { w.fab with ports := w'.fab.ports } }

theorem Work.Recounted.trans {a b c : Work} (h1 : a.Recounted b) (h2 : b.Recounted c) : a.Recounted c :=
  Eq.trans h2 (congrArg (fun w : Work => { w with memStacks := c.memStacks, fab := { w.fab with ports := c.fab.ports } }) h1)

theorem Work.Recounted.refl (w : Work) : w.Recounted w := rfl
theorem Work.Recounted.updStack (w : Work) (i : Nat) (f : Stack → Stack) : w.Recounted (w.updStack i f) := rfl
theorem Work.Recounted.updPort (w : Work) (i : Nat) (f : Port → Port) : w.Recounted (w.updPort i f) := rfl

theorem Work.Recounted.newHealthSpan (w : Work) : w.Recounted w.newHealthSpan :=
  Work.Recounted.trans (List.foldlRecOn _ _ (.refl w) fun _ hb _ _ => hb.trans (.updStack ..))
    (List.foldlRecOn _ _ (.refl _) fun _ hb _ _ => hb.trans (.updPort ..))

theorem Work.stack_newHealthSpan (w : Work) {i : Nat} (h : i < 16) : w.newHealthSpan.stack i = { w.stack i with recent := 0 } := by
  simp only [Work.newHealthSpan, Work.stack_foldl_updPort, Work.stack_foldl_updStack, if_pos h]

theorem Work.port_newHealthSpan (w : Work) {k : Nat} (h : k < 32) : w.newHealthSpan.port k = { w.port k with recent := 0 } := by
  simp only [Work.newHealthSpan, Work.port_foldl_updPort, Work.port_foldl_updStack, if_pos h]

/-- Events and then a new span: what both change. -/
theorem Work.Noticed.recounted {a b c : Work} (h1 : a.Noticed b) (h2 : b.Recounted c) : c = { a with
    host := c.host, log := c.log, out := c.out, memStacks := c.memStacks, fab := { a.fab with ports := c.fab.ports } } := by
  obtain ⟨ho, ou, lo, e1⟩ : ∃ ho ou lo, b = { a with host := ho, out := ou, log := lo } := ⟨_, _, _, h1⟩
  obtain ⟨ms, ps, e2⟩ : ∃ ms ps, c = { b with memStacks := ms, fab := { b.fab with ports := ps } } := ⟨_, _, h2⟩
  subst e1 e2
  rfl

theorem Work.Noticed.stack {w w' : Work} (h : w.Noticed w') (i : Nat) : w'.stack i = w.stack i :=
  (congrArg (fun w : Work => w.stack i) h).trans rfl

theorem Work.Noticed.port {w w' : Work} (h : w.Noticed w') (i : Nat) : w'.port i = w.port i :=
  (congrArg (fun w : Work => w.port i) h).trans rfl

theorem Work.Noticed.healthEvents (w : Work) (f1 f2 : Bool) (sc : Nat) : w.Noticed ((w.healthEvent f1 sc).healthEvent f2 sc) :=
  (healthEvent ..).trans (healthEvent ..)

/-- Settles O39: each register acts through one operation of the model, where its function is served and may write it. -/
theorem controlRegisterResults : Obligations.ControlRegisterResults := by
  refine ⟨fun who v p i s hc => ?closed, fun who v p s => ?_⟩
  case closed =>
    refine ⟨fun c hm => ?_, fun hon => ?_, fun hoff => ?_⟩
    · have ignored (f : State → State) : Host.Outcome.next (s.request who f) = (.next s : Host.Outcome State Fault Refusal) := by
        rw [State.request_of_closed hc]
      simp only [List.mem_cons, List.not_mem_nil, or_false] at hm
      rcases hm with rfl | rfl | rfl | rfl | rfl | rfl | rfl <;> exact ignored _
    · show Host.Outcome.next (s.answerRead who 0x08 4) = _
      simp [State.answerRead, hon, hc, State.onW]
    · show Host.Outcome.next (s.answerRead who 0x08 4) = _
      simp [State.answerRead, hoff]
  dsimp only
  refine ⟨fun ho => ⟨?thresh, ?cap, ?period, ?ftime, ?ftimeVirtual, ?status, ?signal, ?enable, ?disable, ?enabled, ?disabled, ?slots⟩,
    ?uncommitted, ?committed, ?scored, ?score⟩
  case thresh =>
    show Host.Outcome.next (s.request who _) = _
    rw [State.request_of_open ho]
    simp only [Bool.and_eq_true, physical_iff, decide_eq_true_eq]
    split <;> rfl
  case cap =>
    show Host.Outcome.next (s.request who _) = _
    rw [State.request_of_open ho]
    have cap : bitsOf v.toNat 0 12 = v.toNat % 4096 := by simp [bitsOf]
    have clamp (x : Nat) : max 1200 (min x 2400) = if x < 1200 then 1200 else if 2400 < x then 2400 else x := by
      split_ifs <;> omega
    simp only [physical_iff, cap, clamp]
    split <;> rfl
  case period =>
    have req : exec (.timePeriodReq who v) s = .next (s.writePeriodReq who (v.extractLsb' 0 11) (v.getLsbD 63)) := by
      show Host.Outcome.next (s.request who _) = _
      rw [State.request_of_open ho]
    rw [req]
    refine ⟨fun hp hg hr ht => ?_, fun hp hg hr ht => ?_, fun hp hn => ?_, fun hp => ?_⟩
    · simp only [State.writePeriodReq, (physical_iff who).mpr hp, hg, Work.requestPeriod, hr, Nat.not_lt.mpr ht, State.onW, if_true,
        Bool.not_true, Bool.false_eq_true, if_false]
    · simp only [State.writePeriodReq, (physical_iff who).mpr hp, hg, Work.requestPeriod, hr, ht, State.onW, if_true,
        Bool.not_true, Bool.false_eq_true, if_false]
    · rcases hn with hn | hn
      · simp only [State.writePeriodReq, (physical_iff who).mpr hp, hn, State.onW, if_true, Bool.false_eq_true, if_false]
      · simp only [State.writePeriodReq, (physical_iff who).mpr hp, Work.requestPeriod, hn, State.onW, if_true, Bool.not_false, ite_self]
    · simp only [State.writePeriodReq, physical_iff, hp, if_false]
  case ftime =>
    intro hp
    have phys := (physical_iff who).mpr hp
    refine ⟨?_, ?_, fun h hl => h.readWindow_ftimeHigh phys hl⟩
    · show Host.Outcome.next (s.answerRead who 0x08 4) = _
      rw [State.answerRead_of_open ho, State.readWindow_ftimeLow s phys]
      rfl
    · exact State.readWindow_ftimeHigh_latched _ phys rfl
  case ftimeVirtual =>
    intro hp
    have virt : physical who = false := by rw [← Bool.not_eq_true, physical_iff]; exact hp
    show Host.Outcome.next (s.answerRead who 0x08 4) = _
    rw [State.answerRead_of_open ho, State.readWindow_ftimeLow_virtual s virt]
    rfl
  case status =>
    intro u
    refine ⟨fun hd => ?_, fun hr => ?_, fun hd => ?_⟩
    · show Host.Outcome.next (if _ then _ else _) = _
      simp [ho, hd]
    · rw [State.answerRead_of_open hr, State.readWindow_plain _ _ (statusOffset_aligned u) (perfBits_statusOffset u)]
      rfl
    · show Host.Outcome.next (if _ then _ else _) = _
      simp [ho, hd]
  case signal =>
    intro i q hq hs hd
    show Host.Outcome.next (s.request who _) = _
    rw [State.request_of_open ho]
    simp only [State.signalSluice, hq, hs, hd, Bool.and_true, if_true]
    rfl
  case enable =>
    intro hp he
    show Host.Outcome.next (s.request who _) = _
    simp [State.request_of_open ho, State.enablePort, (physical_iff who).mpr hp, he, State.onW]
  case disable =>
    intro hp he
    show Host.Outcome.next (s.request who _) = _
    simp [State.request_of_open ho, State.enablePort, (physical_iff who).mpr hp, he, State.onW]
  case enabled =>
    intro hn
    show Host.Outcome.next (s.request who _) = _
    rcases hn with hn | hn <;> simp [State.request_of_open ho, State.enablePort, physical_iff, hn]
  case disabled =>
    intro hn
    show Host.Outcome.next (s.request who _) = _
    rcases hn with hn | hn <;> simp [State.request_of_open ho, State.enablePort, physical_iff, hn]
  case slots =>
    intro hp
    show Host.Outcome.next (s.request who _) = _
    simp [State.request_of_open ho, State.writeSlotCtl, (physical_iff who).mpr hp, State.onW]
  case uncommitted =>
    intro hn
    show Host.Outcome.next (s.onW fun w => w.commitSlots p.val) = _
    simp [State.onW, Work.commitSlots, hn]
  case committed =>
    intro hn
    show Host.Outcome.next (s.onW fun w => w.commitSlots p.val) = _
    simp only [State.onW, Work.commitSlots, hn, if_true]
  case scored =>
    intro m hn
    show Host.Outcome.next (if _ then _ else _) = _
    rw [if_neg fun h => hn.elim (fun h1 => h1 h.1) h.2]
  case score =>
    intro m hf hs
    refine ⟨s.computeHealth m, ?_, rfl, ?_, fun i hi => ?_, fun k hk => ?_, rfl, ?_, rfl, ?_, ?_⟩
    · show Host.Outcome.next (if _ then _ else _) = _
      rw [if_pos ⟨hf, hs⟩]
    · exact (Work.Noticed.healthEvents ..).recounted (.newHealthSpan _)
    · exact (Work.stack_newHealthSpan _ hi).trans (by rw [(Work.Noticed.healthEvents ..).stack])
    · exact (Work.port_newHealthSpan _ hk).trans (by rw [(Work.Noticed.healthEvents ..).port])
    · rw [← healthScore_eq]; rfl
    · rw [← healthScore_eq]; rfl
    · rw [← healthScore_eq]; rfl

end Sys2Proof.Machine
end

section
/-! O26: units that leave reset, channels that fail, the patrol and refresh (R19, R243-R248, R412). -/

namespace Sys2Proof.Machine

/-! Epochs (R19). -/

/-- The epoch of a unit. -/
def Work.epochOf (w : Work) (u : BitVec 16) : Byte := w.epochs.get 0 u.toNat

theorem Work.epochOf_newEpoch_same (w : Work) (u : BitVec 16) : (w.newEpoch u).epochOf u = w.epochOf u + 1 := Tbl.get_set_same ..

theorem Work.epochOf_newEpoch_other (w : Work) {u v : BitVec 16} (h : v ≠ u) : (w.newEpoch u).epochOf v = w.epochOf v :=
  Tbl.get_set_other _ _ (fun e => h (BitVec.eq_of_toNat_eq e)) _

theorem Work.parts_newEpoch (w : Work) (u : BitVec 16) : (w.newEpoch u).parts = w.parts := rfl
theorem Work.stack_newEpoch (w : Work) (u : BitVec 16) (n : Nat) : (w.newEpoch u).stack n = w.stack n := rfl

/-- Units of a list that each leave reset once gain an epoch each. -/
theorem Work.epochOf_foldl_newEpoch {l : List (BitVec 16)} (hl : l.Nodup) (w : Work) (u : BitVec 16) :
    (l.foldl (fun w x => w.newEpoch x) w).epochOf u = if u ∈ l then w.epochOf u + 1 else w.epochOf u :=
  get_foldl_once (get := Work.epochOf) (f := fun _ e => e + 1) (fun w u => w.epochOf_newEpoch_same u)
    (fun w _ _ h => w.epochOf_newEpoch_other h) hl w u

/-- A partition that fails is marked, and its jobs' steps are aborted (R412, R417). -/
theorem Work.Quiet.failPartition (w : Work) (q : Fin 8) (cause : Byte) :
    (w.updPart q fun p => { p with failed := true }).Quiet (w.failPartition q cause) :=
  .foldl (fun _ _ => .stepAbort ..) _ _

theorem Work.part_failPartition (w : Work) (q : Fin 8) (cause : Byte) : ((w.failPartition q cause).part q).failed = true := by
  rw [(Work.Quiet.failPartition w q cause).part, Work.part_updPart_same]

/-! A channel (R248). -/

/-- A channel recorded as failed, with a new epoch of its two units (R19, R248). -/
def Work.channelFailed (w : Work) (n j : Nat) : Work :=
  (((w.updStack n fun x => { x with
    chFailed := x.chFailed ||| BitVec.ofNat 16 (2 ^ j), runFailed := x.runFailed ||| BitVec.ofNat 16 (2 ^ j) }).logEv
      (stackUnit n (2 * j)) 0x03FF 3 0xFF j).newEpoch (stackUnit n (2 * j))).newEpoch (stackUnit n (2 * j + 1))

theorem Work.sliceOwner_of_parts {w w' : Work} (h : w'.parts = w.parts) (n : Nat) : w'.sliceOwner n = w.sliceOwner n := by
  unfold Work.sliceOwner Work.part
  rw [h]

theorem Work.sliceOwner_channelFailed (w : Work) (n j m : Nat) : (w.channelFailed n j).sliceOwner m = w.sliceOwner m :=
  Work.sliceOwner_of_parts (by simp only [Work.channelFailed, Work.parts_newEpoch, Work.logEv_parts, Work.updStack_parts]) m

section
variable {w : Work} {n j : Nat} (hf : (w.stack n).chFailed.getLsbD j = false) (hm : (w.stack n).chMap.getLsbD j = true)
include hf hm

theorem Work.failChannel_unowned (ho : w.sliceOwner (n / 2) = none) : w.failChannel n j = w.channelFailed n j := by
  have owner := (w.sliceOwner_channelFailed n j (n / 2)).trans ho
  unfold Work.channelFailed at owner ⊢
  simp only [Work.failChannel, hf, hm, Bool.not_true, Bool.or_self, Bool.false_eq_true, if_false, owner]

theorem Work.failChannel_owned {q : Fin 8} (ho : w.sliceOwner (n / 2) = some q) :
    w.failChannel n j = (w.channelFailed n j).failPartition q 0x40 := by
  have owner := (w.sliceOwner_channelFailed n j (n / 2)).trans ho
  unfold Work.channelFailed at owner ⊢
  simp only [Work.failChannel, hf, hm, Bool.not_true, Bool.or_self, Bool.false_eq_true, if_false, owner]

/-- The failure of its partition leaves a channel's stack and the epochs as they are. -/
theorem Work.failChannel_kept : (w.failChannel n j).stack n = (w.channelFailed n j).stack n ∧
    ∀ u, (w.failChannel n j).epochOf u = (w.channelFailed n j).epochOf u := by
  cases ho : w.sliceOwner (n / 2) with
  | none => rw [Work.failChannel_unowned hf hm ho]; exact ⟨rfl, fun _ => rfl⟩
  | some q =>
    rw [Work.failChannel_owned hf hm ho]
    have quiet := Work.Quiet.failPartition (w.channelFailed n j) q 0x40
    exact ⟨quiet.stack n, fun u => congrArg (fun t => Tbl.get 0 t u.toNat) quiet.epochs⟩

end

theorem Work.stack_channelFailed (w : Work) (n j : Nat) : (w.channelFailed n j).stack n = { w.stack n with
    chFailed := (w.stack n).chFailed ||| BitVec.ofNat 16 (2 ^ j), runFailed := (w.stack n).runFailed ||| BitVec.ofNat 16 (2 ^ j) } := by
  simp only [Work.channelFailed, Work.stack_newEpoch, Work.stack_logEv, Work.stack_updStack_same]

theorem stackUnit_ne : ∀ (n j : Fin 16), stackUnit n.val (2 * j.val) ≠ stackUnit n.val (2 * j.val + 1) := by decide

theorem Work.epochOf_channelFailed (w : Work) (n j : Fin 16) {i : Nat} (hi : i < 2) :
    (w.channelFailed n.val j.val).epochOf (stackUnit n.val (2 * j.val + i)) = w.epochOf (stackUnit n.val (2 * j.val + i)) + 1 := by
  have apart := stackUnit_ne n j
  unfold Work.channelFailed
  interval_cases i
  · exact (Work.epochOf_newEpoch_other _ apart).trans (Work.epochOf_newEpoch_same ..)
  · rw [Work.epochOf_newEpoch_same, Work.epochOf_newEpoch_other _ apart.symm]; rfl

theorem Work.failChannel_again {w : Work} {n j : Nat} (h : (w.stack n).chFailed.getLsbD j = true ∨ (w.stack n).chMap.getLsbD j = false) :
    w.failChannel n j = w := by
  rcases h with h | h <;> simp [Work.failChannel, h]

/-! The reset of a fabric die (R412). -/

theorem nodup_unitsUnder_fabricDie : ∀ d : Fin 2, (unitsUnder (unitId 2 d.val 0xFF)).Nodup := by decide +kernel

theorem mem_unitsUnder_fabricDie : ∀ (d : Fin 2) (i : Fin 256), (i.val < 16 ∨ (0x40 ≤ i.val ∧ i.val < 0x44) ∨ i.val = 0xFF) →
    unitId 2 d.val i.val ∈ unitsUnder (unitId 2 d.val 0xFF) := by decide +kernel

theorem Work.epochOf_newEpochs_fabricDie (w : Work) (d : Fin 2) {i : Nat} (hi : i < 16 ∨ (0x40 ≤ i ∧ i < 0x44) ∨ i = 0xFF) :
    (w.newEpochs (unitId 2 d.val 0xFF)).epochOf (unitId 2 d.val i) = w.epochOf (unitId 2 d.val i) + 1 := by
  have mem := mem_unitsUnder_fabricDie d ⟨i, by omega⟩ hi
  rw [Work.newEpochs, Work.epochOf_foldl_newEpoch (nodup_unitsUnder_fabricDie d), if_pos mem]

theorem Work.port_newEpochs (w : Work) (u : BitVec 16) (p : Nat) : (w.newEpochs u).port p = w.port p :=
  foldl_kept (get := fun w : Work => w.port p) (by intros; rfl) w

/-- A port whose die is reset: its link, its keys and its buffers are gone, and it trains if it was not dark (R412). -/
def Port.dieReset (y : Port) : Port :=
  { y.forgetLink with st := if 2 ≤ y.st then 2 else y.st, txq := [], slotQ := [], replay := [], tail := none }

theorem Work.updPort_congr (w : Work) (p : Nat) {f g : Port → Port} (h : f (w.port p) = g (w.port p)) : w.updPort p f = w.updPort p g := by
  unfold Work.port at h
  simp only [Work.updPort, Tbl.upd, h]

/-- Without reductions, the reset of a fabric die clears its ports, and what was held of its early packets. -/
theorem Work.resetFabricDie_ports {w : Work} (h : w.red.ctxs = []) (d : Fin 2) : ∃ w1 : Work, w1.fab.ports = w.fab.ports ∧ w1.epochs = w.epochs ∧
    w.resetFabricDie d.val =
      ((((List.range 32).filter fun p => decide (p / 16 = d.val)).foldl (fun w p => w.updPort p Port.dieReset) w1).newEpochs
        (unitId 2 d.val 0xFF)) := by
  unfold Work.resetFabricDie
  dsimp only
  rw [h, List.foldl_nil]
  have each : (fun (w : Work) (p : Nat) => w.updPort p fun y => { y.forgetLink with
      st := if decide (2 ≤ (w.port p).st) then 2 else y.st, txq := [], slotQ := [], replay := [], tail := none }) =
      fun w p => w.updPort p Port.dieReset := by
    funext w p
    exact Work.updPort_congr w p (by simp only [Port.dieReset, decide_eq_true_eq])
  rw [each]
  refine ⟨_, ?_, ?_, rfl⟩ <;> rfl

theorem Work.port_resetFabricDie {w : Work} (h : w.red.ctxs = []) (d : Fin 2) {p : Nat} (hp : p < 32) (hd : p / 16 = d.val) :
    (w.resetFabricDie d.val).port p = (w.port p).dieReset := by
  obtain ⟨w1, hports, -, e⟩ := Work.resetFabricDie_ports h d
  have here : p ∈ (List.range 32).filter fun p => decide (p / 16 = d.val) := by simp [hp, hd]
  have same : w1.port p = w.port p := by unfold Work.port; rw [hports]
  rw [e, Work.port_newEpochs, get_foldl_once (get := Work.port) (f := fun _ => Port.dieReset) (fun w k => w.port_updPort_same k _)
    (fun w k j h => w.port_updPort_other _ h) (List.nodup_range.filter _), if_pos here, same]

theorem Work.epochOf_resetFabricDie {w : Work} (h : w.red.ctxs = []) (d : Fin 2) {i : Nat}
    (hi : i < 16 ∨ (0x40 ≤ i ∧ i < 0x44) ∨ i = 0xFF) :
    (w.resetFabricDie d.val).epochOf (unitId 2 d.val i) = w.epochOf (unitId 2 d.val i) + 1 := by
  obtain ⟨w1, -, hepochs, e⟩ := Work.resetFabricDie_ports h d
  have same : w1.epochOf (unitId 2 d.val i) = w.epochOf (unitId 2 d.val i) := by unfold Work.epochOf; rw [hepochs]
  rw [e, Work.epochOf_newEpochs_fabricDie _ d hi, ← same]
  exact congrArg (· + 1) (foldl_kept (get := fun w : Work => w.epochOf _) (by intros; rfl) w1)

/-- Settles O26: a fold over the units of a die, and the failure of a partition, change each unit once. -/
theorem stackAndResetResults : Obligations.StackAndResetResults := by
  intro s n j
  dsimp only
  refine ⟨fun u hd ht hc hp => ?_, fun u hn => ?_, fun d hr => ?_, fun hn => ?_, fun hf hm => ?_, fun pa ev => ?_, rfl, fun _ => rfl, rfl⟩
  · have leaves : (s.w.isDown u && !s.w.testFailed.contains u && unitClass u != 5 && (unitClass u != 2 || s.ctl.pins.frefclk)) = true := by
      have sound : u ∉ s.w.testFailed := by simpa using ht
      simp [hd, sound, hc, hp]
    show Host.Outcome.next (if _ then _ else _) = _
    rw [if_pos leaves]
    split <;> simp_all
  · have stays : ¬(s.w.isDown u && !s.w.testFailed.contains u && unitClass u != 5 && (unitClass u != 2 || s.ctl.pins.frefclk)) = true := by
      rcases hn with h | h | h | ⟨h1, h2⟩ <;> simp_all
    show Host.Outcome.next (if _ then _ else _) = _
    rw [if_neg stays]
  · refine ⟨s.onW fun w => w.resetFabricDie d.val, rfl, rfl, fun p hp hd => ?_, fun i hi => Work.epochOf_resetFabricDie hr d hi⟩
    rw [State.onW_w, Work.port_resetFabricDie hr d hp hd]
    exact ⟨rfl, rfl, rfl, rfl, rfl⟩
  · show Host.Outcome.next (s.onW fun w => w.failChannel n.val j.val) = _
    rw [State.onW, Work.failChannel_again hn]
  · obtain ⟨stack, epochs⟩ := Work.failChannel_kept hf hm
    refine ⟨s.onW fun w => w.failChannel n.val j.val, rfl, rfl, ?_, ?_, fun i hi => ?_, fun q hq => ?_⟩
    · rw [State.onW_w, stack, Work.stack_channelFailed]
    · rw [State.onW_w, stack, Work.stack_channelFailed]
    · exact (epochs _).trans (Work.epochOf_channelFailed s.w n j hi)
    · rw [State.onW_w, Work.failChannel_owned hf hm hq, Work.part_failPartition]
  · show Host.Outcome.next (s.onW fun w => w.patrol pa.toNat ev) = _
    cases ev <;> rfl

end Sys2Proof.Machine
end

section
/-! O25: cores, clusters, slices and halves of B that are lost (R14-R19, R143-R147, R412). -/

namespace Sys2Proof.Machine

/-! The end of a context whose core is lost. -/

namespace Work.Stops

theorem disown (w : Work) (c : CtxId) : w.Stops (w.disown c) := ⟨rfl, fun _ => rfl, fun _ => .refl _, fun _ => rfl⟩

theorem dropUse (w : Work) (u : CombineUse) : w.Stops (w.dropUse u) := ⟨rfl, fun _ => rfl, fun _ => .refl _, fun _ => rfl⟩

theorem useFailed (w : Work) (u : CombineUse) : w.Stops (w.useFailed u) := by
  unfold Work.useFailed
  dsimp only
  refine ite _ (dropUse ..) ((dropUse w u).trans ?_)
  refine Stops.trans ?_ (updSlice _ _ _ (by exact fun _ => rfl))
  exact ⟨rfl, fun _ => rfl, fun _ => .refl _, fun _ => rfl⟩

theorem sweepUses (w : Work) : w.Stops w.sweepUses := foldl (fun _ _ => useFailed ..) _ w

theorem loseCtx (w : Work) (c : CtxId) : w.Stops (w.loseCtx c) := by
  refine Stops.trans ?_ (sweepUses _)
  refine Stops.trans ?_ (foldl (fun _ _ => useFailed ..) _ _)
  exact (((ite _ (refl w) (fault ..)).trans (updCtx ..)).trans (dropOrphans ..)).trans (disown ..)

end Work.Stops

theorem Work.ctx_useFailed (w : Work) (u : CombineUse) (d : CtxId) : (w.useFailed u).ctx d = w.ctx d := by
  unfold Work.useFailed
  dsimp only
  split <;> rfl

theorem Work.ctx_sweepUses (w : Work) (d : CtxId) : w.sweepUses.ctx d = w.ctx d :=
  foldl_kept (get := fun w : Work => w.ctx d) (fun _ _ _ => ctx_useFailed ..) w

/-- A context that has lost its core (R17): it is absent, and nothing of it is dispatched. -/
def Ctx.gone (k : Ctx) : Prop := k.st = .absent ∧ k.infl = []

/-- What the loss of a context's core leaves of the contexts. -/
theorem Work.ctx_loseCtx (w : Work) (c d : CtxId) :
    (w.loseCtx c).ctx d = ((if (w.ctx c).st = .empty ∨ (w.ctx c).st = .absent then w
      else w.fault c none (w.ctx c).dispatchPc 0x40 0).updCtx c fun k => { k with st := .absent, infl := [] }).ctx d := by
  unfold Work.loseCtx
  dsimp only
  rw [Work.ctx_sweepUses, foldl_kept (get := fun w : Work => w.ctx d) fun _ _ _ => Work.ctx_useFailed ..]
  rfl

theorem Work.ctx_loseCtx_same (w : Work) (c : CtxId) : ((w.loseCtx c).ctx c).gone := by
  rw [Work.ctx_loseCtx, Work.ctx_updCtx_same]
  exact ⟨rfl, rfl⟩

theorem Work.ctx_loseCtx_other (w : Work) {c d : CtxId} (h : d ≠ c) : (w.loseCtx c).ctx d = w.ctx d := by
  rw [Work.ctx_loseCtx, Work.ctx_updCtx_other _ _ h]
  split
  · rfl
  · exact Work.ctx_fault_other _ _ _ _ _ h

/-- A context once gone stays so while others lose their cores. -/
theorem Work.gone_loseCtx {w : Work} {d : CtxId} (h : (w.ctx d).gone) (c : CtxId) : ((w.loseCtx c).ctx d).gone := by
  by_cases e : d = c
  · rw [e]; exact w.ctx_loseCtx_same c
  · rw [w.ctx_loseCtx_other e]; exact h

theorem Work.gone_foldl_loseCtx {l : List CtxId} {w : Work} {c : CtxId} (h : c ∈ l ∨ (w.ctx c).gone) :
    ((l.foldl (fun w c => w.loseCtx c) w).ctx c).gone := by
  induction l generalizing w with
  | nil => exact h.resolve_left List.not_mem_nil
  | cons d l ih =>
    refine ih ?_
    rcases h with h | h
    · rcases List.mem_cons.mp h with rfl | h
      · exact .inr (w.ctx_loseCtx_same _)
      · exact .inl h
    · exact .inr (Work.gone_loseCtx h d)

theorem Work.ctx_foldl_loseCtx_other {l : List CtxId} {c : CtxId} (h : c ∉ l) (w : Work) :
    (l.foldl (fun w c => w.loseCtx c) w).ctx c = w.ctx c :=
  foldl_kept (get := fun w : Work => w.ctx c) (fun w _ hd => w.ctx_loseCtx_other fun e => h (e ▸ hd)) w

/-! A core (R16, R17). -/

theorem mem_coreCtxs (n : Fin 8) (c : Fin 64) (x : CtxId) : x ∈ coreCtxs n c ↔ x.slice = n ∧ x.core = c := by
  obtain ⟨m, d, i⟩ := x
  have all : i = 0 ∨ i = 1 ∨ i = 2 ∨ i = 3 := by omega
  simp only [coreCtxs, siblings, List.map_cons, List.map_nil, List.mem_cons, CtxId.mk.injEq, List.not_mem_nil, or_false]
  tauto

/-- A core is lost already: absent, or waiting for a spare or for absence. -/
def SliceSt.coreLost (z : SliceSt) (c : Nat) : Prop := z.coreAbsent.getLsbD c = true ∨ ∃ e, e ∈ z.waitingSpare ∧ e.1 = c

theorem Work.loseCore_again {w : Work} {n : Fin 8} {c : Fin 64} (h : (w.slice n.val).coreLost c.val) (sub : Bool) :
    w.loseCore n c sub = w := by
  have lost : ((w.slice n.val).coreAbsent.getLsbD c.val || (w.slice n.val).waitingSpare.any fun e => decide (e.1 = c.val)) = true := by
    simpa [SliceSt.coreLost] using h
  rw [Work.loseCore, if_pos lost]

section
variable (w : Work) (n : Fin 8) (c : Fin 64) (u : BitVec 16) (d : CtxId) (m : Nat)

@[simp] theorem Work.core_newEpoch : (w.newEpoch u).core d = w.core d := rfl
@[simp] theorem Work.ctx_newEpoch : (w.newEpoch u).ctx d = w.ctx d := rfl
@[simp] theorem Work.slice_newEpoch : (w.newEpoch u).slice m = w.slice m := rfl
@[simp] theorem Work.core_logLoss : (w.logLoss m u).core d = w.core d := rfl
@[simp] theorem Work.ctx_logLoss : (w.logLoss m u).ctx d = w.ctx d := rfl
@[simp] theorem Work.slice_logLoss (k : Nat) : (w.logLoss m u).slice k = w.slice k := rfl
@[simp] theorem Work.epochs_logLoss : (w.logLoss m u).epochs = w.epochs := rfl
@[simp] theorem Work.ctx_wipeCore : (w.wipeCore n c).ctx d = w.ctx d := rfl
@[simp] theorem Work.slice_wipeCore : (w.wipeCore n c).slice m = w.slice m := rfl
@[simp] theorem Work.epochs_wipeCore : (w.wipeCore n c).epochs = w.epochs := rfl
@[simp] theorem Work.core_wipeCore : (w.wipeCore n c).core ⟨n, c, 0⟩ = (w.core ⟨n, c, 0⟩).emptied := Work.core_updCore_same ..
theorem Work.hbm_newEpoch : (w.newEpoch u).hbm = w.hbm := rfl
theorem Work.hbm_logLoss : (w.logLoss m u).hbm = w.hbm := rfl
theorem Work.part_newEpoch (q : Fin 8) : (w.newEpoch u).part q = w.part q := rfl
theorem Work.part_logLoss (q : Fin 8) : (w.logLoss m u).part q = w.part q := rfl
theorem Work.epochs_newEpoch : (w.newEpoch u).epochs = w.epochs.set 0 u.toNat (w.epochOf u + 1) := rfl

theorem Work.core_wipeCore_other {e : Fin 64} (h : e ≠ c) : (w.wipeCore n c).core ⟨n, e, 0⟩ = w.core ⟨n, e, 0⟩ :=
  Work.core_updCore_other _ _ fun k => h (Fin.ext (by simpa [coreKey] using k))

end

/-- The contexts of a core have lost it. -/
def Work.endCore (w : Work) (n : Fin 8) (c : Fin 64) : Work := (coreCtxs n c).foldl (fun w x => w.loseCtx x) w

theorem Work.Stops.endCore (w : Work) (n : Fin 8) (c : Fin 64) : w.Stops (w.endCore n c) := foldl (fun w x => loseCtx w x) _ w

theorem Work.gone_endCore (w : Work) (n : Fin 8) (c : Fin 64) (i : Fin 4) : ((w.endCore n c).ctx ⟨n, c, i⟩).gone :=
  Work.gone_foldl_loseCtx (.inl ((mem_coreCtxs n c _).mpr ⟨rfl, rfl⟩))

theorem Work.ctx_endCore_other (w : Work) (n : Fin 8) {c d : Fin 64} (h : d ≠ c) (i : Fin 4) :
    (w.endCore n c).ctx ⟨n, d, i⟩ = w.ctx ⟨n, d, i⟩ :=
  Work.ctx_foldl_loseCtx_other (fun m => h ((mem_coreCtxs n c _).mp m).2) w

/-- A core that is lost for the first time: its contexts end, it is emptied, and it waits. -/
theorem Work.loseCore_first {w : Work} {n : Fin 8} {c : Fin 64} (h : ¬(w.slice n.val).coreLost c.val) (sub : Bool) :
    w.loseCore n c sub =
      ((((w.endCore n c).wipeCore n c).newEpoch (coreUnit n.val c.val)).logLoss n.val (coreUnit n.val c.val)).updSlice n.val fun s =>
        { s with waitingSpare := s.waitingSpare ++ [(c.val, if sub then (s.spareFor c.val).getD 4 else 4)] } := by
  have lost : ¬((w.slice n.val).coreAbsent.getLsbD c.val || (w.slice n.val).waitingSpare.any fun e => decide (e.1 = c.val)) = true := by
    simpa [SliceSt.coreLost] using h
  rw [Work.loseCore, if_neg lost]
  rfl

theorem Work.core_loseCore {w : Work} {n : Fin 8} {c : Fin 64} (h : ¬(w.slice n.val).coreLost c.val) (sub : Bool) :
    (w.loseCore n c sub).core ⟨n, c, 0⟩ = (w.core ⟨n, c, 0⟩).emptied := by
  rw [Work.loseCore_first h, Work.core_updSlice, Work.core_logLoss, Work.core_newEpoch, Work.core_wipeCore, (Work.Stops.endCore w n c).core]

theorem Work.gone_loseCore {w : Work} {n : Fin 8} {c : Fin 64} (h : ¬(w.slice n.val).coreLost c.val) (sub : Bool) (i : Fin 4) :
    ((w.loseCore n c sub).ctx ⟨n, c, i⟩).gone := by
  rw [Work.loseCore_first h, Work.ctx_updSlice, Work.ctx_logLoss, Work.ctx_newEpoch, Work.ctx_wipeCore]
  exact w.gone_endCore n c i

theorem Work.epochs_loseCore {w : Work} {n : Fin 8} {c : Fin 64} (h : ¬(w.slice n.val).coreLost c.val) (sub : Bool) :
    (w.loseCore n c sub).epochs = w.epochs.set 0 (coreUnit n.val c.val).toNat (w.epochOf (coreUnit n.val c.val) + 1) := by
  rw [Work.loseCore_first h, Work.updSlice_epochs, Work.epochs_logLoss, Work.epochs_newEpoch, Work.epochOf, Work.epochs_wipeCore,
    (Work.Stops.endCore w n c).epochs, Work.epochOf]

theorem SliceSt.spareFor_peat (z : SliceSt) (p : Peat) (f : BitVec 16) (c : Nat) :
    ({ z with peat := p, combineFails := f } : SliceSt).spareFor c = z.spareFor c := rfl

/-- The core that is lost joins those of its slice that wait; the rest of the slice's registers stay. -/
theorem Work.slice_loseCore {w : Work} {n : Fin 8} {c : Fin 64} (h : ¬(w.slice n.val).coreLost c.val) (sub : Bool) :
    ∃ p f, (w.loseCore n c sub).slice n.val = { w.slice n.val with
      peat := p, combineFails := f
      waitingSpare := (w.slice n.val).waitingSpare ++ [(c.val, if sub then ((w.slice n.val).spareFor c.val).getD 4 else 4)] } := by
  rw [Work.loseCore_first h, Work.slice_updSlice_same, Work.slice_logLoss, Work.slice_newEpoch, Work.slice_wipeCore,
    (Work.Stops.endCore w n c).slice]
  simp only [SliceSt.spareFor_peat]
  exact ⟨((w.endCore n c).slice n.val).peat, ((w.endCore n c).slice n.val).combineFails, rfl⟩

/-! Other cores. -/

theorem coreUnit_inj {n m : Fin 8} {c d : Fin 64} (h : coreUnit n.val c.val = coreUnit m.val d.val) : n = m ∧ c = d := by
  have := congrArg BitVec.toNat h
  simp only [coreUnit, unitId, BitVec.toNat_ofNat] at this
  omega

theorem Work.core_loseCore_other (w : Work) (n : Fin 8) {c d : Fin 64} (h : d ≠ c) (sub : Bool) :
    (w.loseCore n c sub).core ⟨n, d, 0⟩ = w.core ⟨n, d, 0⟩ := by
  by_cases lost : (w.slice n.val).coreLost c.val
  · rw [Work.loseCore_again lost]
  · rw [Work.loseCore_first lost, Work.core_updSlice, Work.core_logLoss, Work.core_newEpoch, Work.core_wipeCore_other _ _ _ h,
      (Work.Stops.endCore w n c).core]

theorem Work.ctx_loseCore_other (w : Work) (n : Fin 8) {c d : Fin 64} (h : d ≠ c) (sub : Bool) (i : Fin 4) :
    (w.loseCore n c sub).ctx ⟨n, d, i⟩ = w.ctx ⟨n, d, i⟩ := by
  by_cases lost : (w.slice n.val).coreLost c.val
  · rw [Work.loseCore_again lost]
  · rw [Work.loseCore_first lost, Work.ctx_updSlice, Work.ctx_logLoss, Work.ctx_newEpoch, Work.ctx_wipeCore, Work.ctx_endCore_other _ _ h]

theorem Work.epochOf_loseCore_other (w : Work) (n : Fin 8) (c : Fin 64) {u : BitVec 16} (h : u ≠ coreUnit n.val c.val) (sub : Bool) :
    (w.loseCore n c sub).epochOf u = w.epochOf u := by
  by_cases lost : (w.slice n.val).coreLost c.val
  · rw [Work.loseCore_again lost]
  · rw [Work.epochOf, Work.epochs_loseCore lost]
    exact Tbl.get_set_other _ _ (fun e => h (BitVec.eq_of_toNat_eq e)) _

theorem Work.coreAbsent_loseCore (w : Work) (n : Fin 8) (c : Fin 64) (sub : Bool) :
    ((w.loseCore n c sub).slice n.val).coreAbsent = (w.slice n.val).coreAbsent := by
  by_cases lost : (w.slice n.val).coreLost c.val
  · rw [Work.loseCore_again lost]
  · obtain ⟨p, f, e⟩ := Work.slice_loseCore lost sub
    rw [e]

theorem Work.waitingSpare_loseCore_other (w : Work) (n : Fin 8) {c d : Fin 64} (h : d ≠ c) (sub : Bool) {e : Nat × Nat}
    (he : e.1 = d.val) : e ∈ ((w.loseCore n c sub).slice n.val).waitingSpare ↔ e ∈ (w.slice n.val).waitingSpare := by
  by_cases lost : (w.slice n.val).coreLost c.val
  · rw [Work.loseCore_again lost]
  · obtain ⟨p, f, eq⟩ := Work.slice_loseCore lost sub
    rw [eq]
    simp only [List.mem_append, List.mem_singleton, or_iff_left_iff_imp]
    rintro rfl
    exact absurd (Fin.ext he.symm) h

/-- What the loss of other cores of its slice leaves of a core. -/
structure Work.KeepsCore (n : Fin 8) (d : Fin 64) (w w' : Work) : Prop where
  core : w'.core ⟨n, d, 0⟩ = w.core ⟨n, d, 0⟩
  ctx : ∀ i, w'.ctx ⟨n, d, i⟩ = w.ctx ⟨n, d, i⟩
  epoch : w'.epochOf (coreUnit n.val d.val) = w.epochOf (coreUnit n.val d.val)
  absent : (w'.slice n.val).coreAbsent = (w.slice n.val).coreAbsent
  waiting : ∀ e, e.1 = d.val → (e ∈ (w'.slice n.val).waitingSpare ↔ e ∈ (w.slice n.val).waitingSpare)

namespace Work.KeepsCore

theorem refl (n : Fin 8) (d : Fin 64) (w : Work) : w.KeepsCore n d w := ⟨rfl, fun _ => rfl, rfl, rfl, fun _ _ => .rfl⟩

theorem trans {n : Fin 8} {d : Fin 64} {a b c : Work} (h1 : a.KeepsCore n d b) (h2 : b.KeepsCore n d c) : a.KeepsCore n d c :=
  ⟨h2.core.trans h1.core, fun i => (h2.ctx i).trans (h1.ctx i), h2.epoch.trans h1.epoch, h2.absent.trans h1.absent,
    fun e he => (h2.waiting e he).trans (h1.waiting e he)⟩

theorem loseCore (w : Work) (n : Fin 8) {c d : Fin 64} (h : d ≠ c) (sub : Bool) : w.KeepsCore n d (w.loseCore n c sub) :=
  ⟨w.core_loseCore_other n h sub, w.ctx_loseCore_other n h sub,
    w.epochOf_loseCore_other n c (fun e => h (coreUnit_inj e).2) sub, w.coreAbsent_loseCore n c sub,
    fun _ he => w.waitingSpare_loseCore_other n h sub he⟩

theorem foldl {n : Fin 8} {d : Fin 64} {l : List (Fin 64)} (h : d ∉ l) (sub : Bool) (w : Work) :
    w.KeepsCore n d (l.foldl (fun w c => w.loseCore n c sub) w) :=
  List.foldlRecOn l _ (refl n d w) fun b hb c hc => hb.trans (loseCore b n (fun e : d = c => h (e ▸ hc)) sub)

theorem coreLost {n : Fin 8} {d : Fin 64} {w w' : Work} (h : w.KeepsCore n d w') :
    (w'.slice n.val).coreLost d.val ↔ (w.slice n.val).coreLost d.val := by
  unfold SliceSt.coreLost
  rw [h.absent]
  exact or_congr .rfl (exists_congr fun e => and_congr_left fun he => h.waiting e he)

end Work.KeepsCore

/-! A cluster (R412). -/

/-- Of a list of cores that are lost together, what each leaves that was not lost before. -/
theorem Work.foldl_loseCore {n : Fin 8} {d : Fin 64} {l : List (Fin 64)} (hl : l.Nodup) (hd : d ∈ l) {w : Work}
    (h : ¬(w.slice n.val).coreLost d.val) :
    let w' := l.foldl (fun w c => w.loseCore n c false) w
    w'.core ⟨n, d, 0⟩ = (w.core ⟨n, d, 0⟩).emptied ∧ (∀ i, (w'.ctx ⟨n, d, i⟩).gone) ∧
      w'.epochOf (coreUnit n.val d.val) = w.epochOf (coreUnit n.val d.val) + 1 ∧ (d.val, 4) ∈ (w'.slice n.val).waitingSpare := by
  obtain ⟨l1, l2, rfl⟩ := List.append_of_mem hd
  obtain ⟨-, h2, apart⟩ := List.nodup_append.mp hl
  have before := Work.KeepsCore.foldl (n := n) (d := d) (l := l1) (fun m => apart d m d List.mem_cons_self rfl) false w
  have after (w1 : Work) := Work.KeepsCore.foldl (n := n) (d := d) (l := l2) (List.nodup_cons.mp h2).1 false w1
  have first := mt before.coreLost.mp h
  dsimp only
  rw [List.foldl_append, List.foldl_cons]
  obtain ⟨p, f, slice⟩ := Work.slice_loseCore first false
  refine ⟨?_, fun i => ?_, ?_, ?_⟩
  · rw [(after _).core, Work.core_loseCore first, before.core]
  · rw [(after _).ctx]; exact Work.gone_loseCore first false i
  · rw [(after _).epoch, Work.epochOf, Work.epochs_loseCore first, Tbl.get_set_same, before.epoch]
  · rw [(after _).waiting _ rfl, slice]; simp

/-- The cores of a cluster, by their numbers in the slice. -/
def clusterCores (cl : Fin 8) : List (Fin 64) := (List.finRange 64).filter fun c => decide (c.val / 8 = cl.val)

theorem Work.clusterCores_foldl (w : Work) (n cl : Fin 8) :
    ((List.range 64).filter fun c => decide (c / 8 = cl.val)).foldl (fun w c => w.loseCore n ⟨c % 64, Nat.mod_lt _ (by decide)⟩ false) w =
      (clusterCores cl).foldl (fun w c => w.loseCore n c false) w := by
  have names : ((List.range 64).filter fun c => decide (c / 8 = cl.val)).map (fun c => (⟨c % 64, Nat.mod_lt _ (by decide)⟩ : Fin 64)) =
      clusterCores cl := by revert cl; decide
  rw [← names, List.foldl_map]

theorem clusterUnit_ne (n m : Fin 8) (cl : Fin 8) (c : Fin 64) : unitId 0 n.val (0x80 + cl.val) ≠ coreUnit m.val c.val := by
  intro h
  have := congrArg BitVec.toNat h
  simp only [coreUnit, unitId, BitVec.toNat_ofNat] at this
  omega

theorem Work.epochOf_clusterCores (w : Work) (n cl : Fin 8) (l : List (Fin 64)) :
    (l.foldl (fun w c => w.loseCore n c false) w).epochOf (unitId 0 n.val (0x80 + cl.val)) = w.epochOf (unitId 0 n.val (0x80 + cl.val)) :=
  foldl_kept (get := fun w : Work => w.epochOf _) (fun w c _ => w.epochOf_loseCore_other n c (clusterUnit_ne n n cl c) false) w

/-- A cluster's memory is gone, and its loss is told (R412). -/
def Work.loseCluster (w : Work) (n cl : Fin 8) : Work :=
  (({ w with clusters := w.clusters.set [] (8 * n.val + cl.val) [] } : Work).newEpoch (unitId 0 n.val (0x80 + cl.val))).logLoss n.val
    (unitId 0 n.val (0x80 + cl.val))

theorem Work.clusters_newEpoch (w : Work) (u : BitVec 16) : (w.newEpoch u).clusters = w.clusters := rfl
theorem Work.clusters_logLoss (w : Work) (m : Nat) (u : BitVec 16) : (w.logLoss m u).clusters = w.clusters := rfl
theorem Work.epochOf_logLoss (w : Work) (m : Nat) (u v : BitVec 16) : (w.logLoss m u).epochOf v = w.epochOf v := rfl
theorem Work.epochOf_clusters (w : Work) (t : Tbl Mem) (u : BitVec 16) : ({ w with clusters := t } : Work).epochOf u = w.epochOf u := rfl

theorem Work.clusters_loseCluster (w : Work) (n cl : Fin 8) : (w.loseCluster n cl).clusters.get [] (8 * n.val + cl.val) = [] := by
  rw [Work.loseCluster, Work.clusters_logLoss, Work.clusters_newEpoch, Tbl.get_set_same]

theorem Work.epochOf_loseCluster (w : Work) (n cl : Fin 8) : (w.loseCluster n cl).epochOf (unitId 0 n.val (0x80 + cl.val)) =
    w.epochOf (unitId 0 n.val (0x80 + cl.val)) + 1 := by
  rw [Work.loseCluster, Work.epochOf_logLoss, Work.epochOf_newEpoch_same, Work.epochOf_clusters]

theorem Work.KeepsCore.loseCluster (w : Work) (n cl : Fin 8) (c : Fin 64) : w.KeepsCore n c (w.loseCluster n cl) := by
  refine ⟨rfl, fun _ => rfl, ?_, rfl, fun _ _ => .rfl⟩
  rw [Work.loseCluster, Work.epochOf_logLoss, Work.epochOf_newEpoch_other _ (clusterUnit_ne n n cl c).symm, Work.epochOf_clusters]

theorem exec_clusterLoss (n cl : Fin 8) (s : State) : exec (.clusterLoss n cl) s =
    .next (s.onW fun w => ((clusterCores cl).foldl (fun w c => w.loseCore n c false) w).loseCluster n cl) := by
  show Host.Outcome.next (State.onW s _) = _
  simp only [State.onW, Work.clusterCores_foldl, Work.loseCluster]

/-! A core at a tick (R16, R143, R147). -/

theorem satAdd_zero {b : Nat} (x : BitVec b) : satAdd x 0 = x := by
  rw [satAdd, Nat.add_zero, if_pos x.isLt, BitVec.ofNat_toNat, BitVec.setWidth_eq]

theorem halves_zero : halves 0 = 0 := rfl

/-- The halves of B of a core that are out from a tick on. -/
def Core.outAtTick (k : Core) : BitVec 2 := k.bPending.getD k.bState

/-- What a tick does of B: the halves that failed are out, and counted (R147, R153). -/
def Work.halfTick (w : Work) (c : CtxId) : Work :=
  match (w.core c).bPending with
  | some b => (w.updCore c fun k => { k with bState := b, bPending := none }).updSlice c.slice.val fun s =>
      { s with runtimeLosses := satAdd s.runtimeLosses (halves (b &&& ~~~(w.core c).bState)) }
  | none => w

theorem Work.coreTick_eq (w : Work) (c : CtxId) : w.coreTick c =
    if (w.halfTick c).wantsSequential c == ((w.halfTick c).core c).sequential then w.halfTick c
    else (w.halfTick c).updCore c fun k =>
      { k with sequential := (w.halfTick c).wantsSequential c, lastB := if (w.halfTick c).wantsSequential c then true else k.lastB } := rfl

section
variable (w : Work) (c : CtxId)

theorem Work.core_halfTick : (w.halfTick c).core c = { w.core c with bState := (w.core c).outAtTick, bPending := none } := by
  unfold Work.halfTick Core.outAtTick
  split
  next b h => rw [Work.core_updSlice, Work.core_updCore_same, h]; rfl
  next h => rw [h, Option.getD_none, ← h]

theorem Work.slice_halfTick : (w.halfTick c).slice c.slice.val = { w.slice c.slice.val with
    runtimeLosses := satAdd (w.slice c.slice.val).runtimeLosses (halves ((w.core c).outAtTick &&& ~~~(w.core c).bState)) } := by
  unfold Work.halfTick Core.outAtTick
  split
  next b h => rw [Work.slice_updSlice_same, Work.slice_updCore, h]; rfl
  next h => rw [h, Option.getD_none, BitVec.and_not_self, halves_zero, satAdd_zero]

theorem Work.ctx_halfTick (d : CtxId) : (w.halfTick c).ctx d = w.ctx d := by
  unfold Work.halfTick
  split <;> rfl

theorem Work.halfTick_eq : w.halfTick c = { w with cores := (w.halfTick c).cores, slices := (w.halfTick c).slices } := by
  unfold Work.halfTick
  split <;> rfl

theorem Work.wantsSequential_halfTick : (w.halfTick c).wantsSequential c =
    (decide ((w.core c).outAtTick ≠ 0) || (siblings c).any fun d =>
      (w.ctx d).seqMode && !(decide ((w.ctx d).st = .empty ∨ (w.ctx d).st = .absent))) := by
  simp only [Work.wantsSequential, Work.core_halfTick, Work.ctx_halfTick]

/-- A core after a tick: sequential operation begins or ends (R143). -/
theorem Work.core_coreTick : (w.coreTick c).core c = { w.core c with
    bState := (w.core c).outAtTick, bPending := none, sequential := (w.halfTick c).wantsSequential c
    lastB := if (w.halfTick c).wantsSequential c = true ∧ (w.core c).sequential = false then true else (w.core c).lastB } := by
  rw [Work.coreTick_eq, Work.core_halfTick]
  generalize (w.halfTick c).wantsSequential c = want
  dsimp only
  by_cases h : want = (w.core c).sequential
  · subst h
    simp [Work.core_halfTick]
  · rw [if_neg (by simpa using h), Work.core_updCore_same, Work.core_halfTick]
    cases want <;> simp_all

theorem Work.slices_coreTick : (w.coreTick c).slices = (w.halfTick c).slices := by
  rw [Work.coreTick_eq]
  split <;> rfl

theorem Work.coreTick_only : w.coreTick c = { w with cores := (w.coreTick c).cores, slices := (w.coreTick c).slices } := by
  rw [Work.coreTick_eq]
  split
  · exact w.halfTick_eq c
  · refine Eq.trans (congrArg (fun v => Work.updCore v c _) (w.halfTick_eq c)) rfl

end

/-- A spare that enters for a core (R15, R16). -/
theorem Work.substitute_waiting {w : Work} {n : Fin 8} {c : Fin 64} {e : Nat × Nat}
    (h : (w.slice n.val).waitingSpare.find? (fun e => decide (e.1 = c.val ∧ e.2 < 4)) = some e) (b : BitVec 2) :
    w.substitute n c b = (((coreCtxs n c).foldl (fun w x => w.updCtx x fun _ => .empty) w).updCore ⟨n, c, 0⟩ fun k =>
        { Core.zero with bState := b, sequential := k.sequential, lastB := k.lastB }).updSlice n.val fun s =>
          { s with waitingSpare := s.waitingSpare.filter fun x => decide (x ≠ e)
                   spares := s.spares.set .free e.2 ⟨true, false, BitVec.ofNat 6 c.val⟩ } := by
  simp only [Work.substitute, h]

theorem Work.foldl_empty_only (l : List CtxId) (w : Work) :
    ∃ t : Tbl Ctx, l.foldl (fun w x => w.updCtx x fun _ => .empty) w = { w with ctxs := t } := by
  refine List.foldlRecOn (motive := fun v : Work => ∃ t : Tbl Ctx, v = { w with ctxs := t }) l _ ⟨w.ctxs, rfl⟩ ?_
  rintro _ ⟨t, rfl⟩ c -
  exact ⟨_, rfl⟩

theorem Work.ctx_foldl_empty {l : List CtxId} (hl : l.Nodup) {d : CtxId} (hd : d ∈ l) (w : Work) :
    (l.foldl (fun w x => w.updCtx x fun _ => .empty) w).ctx d = .empty := by
  rw [get_foldl_once (get := Work.ctx) (f := fun _ _ => .empty) (fun w x => w.ctx_updCtx_same x _)
    (fun w x y h => w.ctx_updCtx_other _ h) hl, if_pos hd]

/-! A slice (R412). -/

/-- A table without a key holds the default there. -/
theorem Tbl.get_of_absent {α : Type} (d : α) {t : Tbl α} {k : Nat} (h : ∀ e, e ∈ t → e.1 ≠ k) : Tbl.get d t k = d := by
  induction t with
  | nil => rfl
  | cons e t ih =>
    rw [Tbl.get, if_neg fun e1 => h e List.mem_cons_self e1.symm, ih fun x hx => h x (List.mem_cons_of_mem e hx)]

/-- The partition of a slice, if it has one, fails. -/
def Work.failOwner (w : Work) (n : Nat) : Work :=
  match w.sliceOwner n with
  | some q => w.failPartition q 0x40
  | none => w

/-- What is lost with a slice's contexts ended: its cores, its memories, its Peat. -/
def Work.sliceErased (w : Work) (n : Fin 8) : Work :=
  (({ w with cores := w.cores.filter fun e => decide (e.1 / 64 ≠ n.val)
             clusters := w.clusters.filter fun e => decide (e.1 / 8 ≠ n.val) } : Work).eraseSlice n.val).updSlice n.val fun s =>
    { s with mappedOut := true, peat := s.peat.emptied, waitingSpare := [] }

/-- The contexts of a slice have lost their cores. -/
def Work.endSlice (w : Work) (n : Fin 8) : Work := (w.liveCtxs.filter fun c => decide (c.slice = n)).foldl (fun w c => w.loseCtx c) w

/-- The units that are lost with a slice: its dies and its two stacks. -/
def lostWithSlice (n : Nat) : List (BitVec 16) := [unitId 0 n 0xFF, unitId 1 n 0xFF, stackUnit (2 * n) 0xFF, stackUnit (2 * n + 1) 0xFF]

theorem nodup_lostWithSlice : ∀ n : Fin 8, (lostWithSlice n.val).Nodup := by decide

/-- A slice whose contexts have ended is out of service (R412). -/
def Work.sliceOut (w : Work) (n : Fin 8) : Work :=
  (lostWithSlice n.val).foldl (fun w u => w.newEpoch u) ((w.sliceErased n).logLoss n.val (unitId 0 n.val 0xFF))

theorem Work.loseSlice_first {w : Work} {n : Fin 8} (h : (w.slice n.val).mappedOut = false) :
    w.loseSlice n = ((w.failOwner n.val).endSlice n).sliceOut n := by
  rw [Work.loseSlice, if_neg (by simp [h])]
  rfl

theorem Work.ctxs_failOwner (w : Work) (n : Nat) : (w.failOwner n).ctxs = w.ctxs := by
  unfold Work.failOwner
  split
  · exact (Work.Quiet.failPartition w _ 0x40).ctxs
  · rfl

theorem Work.epochs_failOwner (w : Work) (n : Nat) : (w.failOwner n).epochs = w.epochs := by
  unfold Work.failOwner
  split
  · exact (Work.Quiet.failPartition w _ 0x40).epochs
  · rfl

theorem Work.part_failOwner {w : Work} {n : Nat} {q : Fin 8} (h : w.sliceOwner n = some q) : ((w.failOwner n).part q).failed = true := by
  simp only [Work.failOwner, h]
  exact w.part_failPartition q 0x40

theorem Work.Stops.endSlice (w : Work) (n : Fin 8) : w.Stops (w.endSlice n) := foldl (fun w x => loseCtx w x) _ w

theorem Work.gone_endSlice {w : Work} {c : CtxId} (h : c ∈ w.liveCtxs) : ((w.endSlice c.slice).ctx c).gone :=
  Work.gone_foldl_loseCtx (.inl (List.mem_filter.mpr ⟨h, decide_eq_true rfl⟩))

section
variable (w : Work) (n : Fin 8)

theorem Work.core_sliceErased (c : Fin 64) : (w.sliceErased n).core ⟨n, c, 0⟩ = .zero := by
  refine Tbl.get_of_absent _ fun e he hk => ?_
  have out := of_decide_eq_true (List.mem_filter.mp he).2
  simp only [coreKey] at hk
  omega

theorem Work.hbm_sliceErased {a : Nat} (h : a / 2 ^ 36 = n.val) : (w.sliceErased n).hbm.read a = 0 := by
  refine Tbl.get_of_absent _ fun e he hk => ?_
  have out := of_decide_eq_true (List.mem_filter.mp he).2
  exact out (hk ▸ h)

theorem Work.slice_sliceErased : (w.sliceErased n).slice n.val =
    { w.slice n.val with mappedOut := true, peat := (w.slice n.val).peat.emptied, waitingSpare := [] } :=
  Work.slice_updSlice_same ..

theorem Work.epochOf_sliceErased (u : BitVec 16) : (w.sliceErased n).epochOf u = w.epochOf u := rfl

theorem Work.slice_sliceOut : (w.sliceOut n).slice n.val =
    { w.slice n.val with mappedOut := true, peat := (w.slice n.val).peat.emptied, waitingSpare := [] } := by
  rw [Work.sliceOut, foldl_kept (get := fun w : Work => w.slice n.val) fun w u _ => w.slice_newEpoch u n.val, Work.slice_logLoss,
    Work.slice_sliceErased]

theorem Work.hbm_sliceOut {a : Nat} (h : a / 2 ^ 36 = n.val) : (w.sliceOut n).hbm.read a = 0 := by
  rw [Work.sliceOut, foldl_kept (get := fun w : Work => w.hbm) fun w u _ => w.hbm_newEpoch u, Work.hbm_logLoss, Work.hbm_sliceErased w n h]

theorem Work.core_sliceOut (c : Fin 64) : (w.sliceOut n).core ⟨n, c, 0⟩ = .zero := by
  rw [Work.sliceOut, foldl_kept (get := fun w : Work => w.core ⟨n, c, 0⟩) fun w u _ => w.core_newEpoch u _, Work.core_logLoss,
    Work.core_sliceErased]

theorem Work.ctx_sliceOut (d : CtxId) : (w.sliceOut n).ctx d = w.ctx d := by
  rw [Work.sliceOut, foldl_kept (get := fun w : Work => w.ctx d) fun w u _ => w.ctx_newEpoch u _, Work.ctx_logLoss]
  rfl

theorem Work.part_sliceOut (q : Fin 8) : (w.sliceOut n).part q = w.part q := by
  rw [Work.sliceOut, foldl_kept (get := fun w : Work => w.part q) fun w u _ => w.part_newEpoch u q, Work.part_logLoss]
  rfl

theorem Work.epochOf_sliceOut {u : BitVec 16} (h : u ∈ lostWithSlice n.val) : (w.sliceOut n).epochOf u = w.epochOf u + 1 := by
  rw [Work.sliceOut, Work.epochOf_foldl_newEpoch (nodup_lostWithSlice n), if_pos h, Work.epochOf_logLoss, Work.epochOf_sliceErased]

end

/-! A half of B (R123, R147). -/

/-- The later started of two instructions, the first where they started together. -/
def laterStarted (b : Option (CtxId × InFlight)) (e : CtxId × InFlight) : Option (CtxId × InFlight) :=
  match b with
  | none => some e
  | some o => if o.2.startNo < e.2.startNo then some e else some o

/-- An instruction that started after all others of a list is the last started. -/
theorem foldl_laterStarted {a : CtxId × InFlight} {l : List (CtxId × InFlight)} {b : Option (CtxId × InFlight)}
    (hl : ∀ e, e ∈ l → e = a ∨ e.2.startNo < a.2.startNo) (hb : ∀ o, b = some o → o = a ∨ o.2.startNo < a.2.startNo)
    (ha : a ∈ l ∨ b = some a) : l.foldl laterStarted b = some a := by
  induction l generalizing b with
  | nil => exact ha.resolve_left List.not_mem_nil
  | cons e l ih =>
    have he := hl e List.mem_cons_self
    refine ih (fun x hx => hl x (List.mem_cons_of_mem e hx)) (fun o ho => ?_) ?_
    · cases b with
      | none => cases ho; exact he
      | some p =>
        unfold laterStarted at ho
        dsimp only at ho
        split at ho
        · cases ho; exact he
        · cases ho; exact hb _ rfl
    · rcases ha with ha | rfl
      · rcases List.mem_cons.mp ha with rfl | ha
        · cases b with
          | none => exact .inr rfl
          | some p =>
            rcases hb p rfl with rfl | hp
            · exact .inr (by simp [laterStarted])
            · exact .inr (by simp [laterStarted, hp])
        · exact .inl ha
      · rcases he with rfl | he
        · exact .inr (by simp [laterStarted])
        · exact .inr (by simp [laterStarted, Nat.not_lt.mpr he.le])

/-- The products that run on a half of B of a core. -/
def Work.runsOn (w : Work) (id : CtxId) (half : Bool) : List (CtxId × InFlight) :=
  (siblings id).flatMap fun x =>
    ((w.ctx x).infl.filter fun y => decide (y.op.queue = .B ∧ y.stat = .started) && usesHalf y half).map fun y => (x, y)

theorem Work.mem_runsOn (w : Work) (id : CtxId) (half : Bool) (d : CtxId) (y : InFlight) : (d, y) ∈ w.runsOn id half ↔
    d ∈ siblings id ∧ y ∈ (w.ctx d).infl ∧ y.op.queue = .B ∧ y.stat = .started ∧ y.half.getLsbD half.toNat = true := by
  simp [Work.runsOn, usesHalf]
  tauto

/-- The last started product of a half that fails faults with 0x40 (R123). -/
def Work.faultLast (w : Work) (id : CtxId) (half : Bool) : Work :=
  match (w.runsOn id half).foldl laterStarted none with
  | some (x, y) => w.fault x (some y) y.pc 0x40 0
  | none => w

/-- The bit of a half of B. -/
def halfBit (half : Bool) : BitVec 2 := if half then 2 else 1

theorem Work.loseHalf_again {w : Work} {n : Fin 8} {c : Fin 64} {half : Bool}
    (h : (w.core ⟨n, c, 0⟩).outAtTick &&& halfBit half ≠ 0) : w.loseHalf n c half = w := by
  unfold Work.loseHalf
  exact if_pos h

/-- A half of B that failed is noted for the next tick, and logged (R147, R153). -/
def Work.noteHalfLoss (w : Work) (n : Fin 8) (c : Fin 64) (half : Bool) (after : BitVec 2) : Work :=
  (w.updCore ⟨n, c, 0⟩ fun k => { k with bPending := some after }).logEv (coreUnit n.val c.val) 0x0680 3
    (((w.sliceOwner n.val).map partByte).getD 0xFF) (half.toNat + (decide (after = 3)).toNat * 4)

theorem Work.loseHalf_first {w : Work} {n : Fin 8} {c : Fin 64} {half : Bool} (h : (w.core ⟨n, c, 0⟩).outAtTick &&& halfBit half = 0) :
    w.loseHalf n c half =
      (w.faultLast ⟨n, c, 0⟩ half).noteHalfLoss n c half ((w.core ⟨n, c, 0⟩).outAtTick ||| halfBit half) := by
  unfold Work.loseHalf
  exact if_neg (not_not.mpr h)

theorem Work.ctx_noteHalfLoss (w : Work) (n : Fin 8) (c : Fin 64) (half : Bool) (after : BitVec 2) (d : CtxId) :
    (w.noteHalfLoss n c half after).ctx d = w.ctx d := rfl

theorem Work.slice_noteHalfLoss (w : Work) (n : Fin 8) (c : Fin 64) (half : Bool) (after : BitVec 2) (m : Nat) :
    (w.noteHalfLoss n c half after).slice m = w.slice m := rfl

theorem Work.ctxs_noteHalfLoss (w : Work) (n : Fin 8) (c : Fin 64) (half : Bool) (after : BitVec 2) :
    (w.noteHalfLoss n c half after).ctxs = w.ctxs := rfl

theorem Work.core_noteHalfLoss (w : Work) (n : Fin 8) (c : Fin 64) (half : Bool) (after : BitVec 2) :
    (w.noteHalfLoss n c half after).core ⟨n, c, 0⟩ = { w.core ⟨n, c, 0⟩ with bPending := some after } := by
  rw [Work.noteHalfLoss, Work.core_logEv, Work.core_updCore_same]

theorem Work.Stops.faultLast (w : Work) (id : CtxId) (half : Bool) : w.Stops (w.faultLast id half) := by
  unfold Work.faultLast
  split
  · exact fault ..
  · exact refl w

theorem Work.faultLast_none {w : Work} {id : CtxId} {half : Bool} (h : ∀ d y, (d, y) ∉ w.runsOn id half) : w.faultLast id half = w := by
  have empty : w.runsOn id half = [] := List.eq_nil_iff_forall_not_mem.mpr fun e => h e.1 e.2
  simp only [Work.faultLast, empty, List.foldl_nil]

theorem Work.faultLast_last {w : Work} {id d : CtxId} {y : InFlight} {half : Bool} (h : (d, y) ∈ w.runsOn id half)
    (hl : ∀ e, e ∈ w.runsOn id half → e = (d, y) ∨ e.2.startNo < y.startNo) :
    w.faultLast id half = w.fault d (some y) y.pc 0x40 0 := by
  have last : (w.runsOn id half).foldl laterStarted none = some (d, y) :=
    foldl_laterStarted hl (by simp) (.inl h)
  simp only [Work.faultLast, last]

/-- Settles O25: what each loss leaves of the unit and of the others, from the rules of the operations it is made of. -/
theorem unitLossResults : Obligations.UnitLossResults := by
  intro n core s
  dsimp only
  refine ⟨fun hl => ?_, fun hl => ?_, fun b ht => ?_, fun b e ht he => ?_, fun cl => ?_, fun hm => ?_, fun hm => ?_, fun half => ⟨?_, ?_⟩, ?_⟩
  case refine_1 =>
    show Host.Outcome.next (s.onW fun w => w.loseCore n core true) = _
    rw [State.onW, Work.loseCore_again hl]
  case refine_2 =>
    obtain ⟨p, f, slice⟩ := Work.slice_loseCore (w := s.w) (n := n) (c := core) hl true
    refine ⟨s.onW fun w => w.loseCore n core true, rfl, rfl, Work.core_loseCore hl true, Work.gone_loseCore hl true,
      Work.epochs_loseCore hl true, ?_, ?_, ?_⟩
    all_goals rw [State.onW_w, slice]
    rfl
  case refine_3 =>
    show Host.Outcome.next (if _ then _ else _) = _
    simp [ht]
  case refine_4 =>
    have nodup : (coreCtxs n core).Nodup := List.Nodup.map (fun a b h => congrArg CtxId.ctx h) (by decide)
    obtain ⟨t, emptied⟩ := Work.foldl_empty_only (coreCtxs n core) s.w
    refine ⟨s.onW fun w => w.substitute n core b, ?_, rfl, ?_, ?_, fun i => ?_, ?_⟩
    · show Host.Outcome.next (if _ then _ else _) = _
      rw [if_pos ht]
    all_goals rw [State.onW_w, Work.substitute_waiting he]
    · rw [emptied]
      rfl
    · rw [Work.core_updSlice, Work.core_updCore_same, emptied]
      rfl
    · rw [Work.ctx_updSlice, Work.ctx_updCore, Work.ctx_foldl_empty nodup ((mem_coreCtxs n core _).mpr ⟨rfl, rfl⟩)]
    · rw [Work.slice_updSlice_same, emptied]
      rfl
  case refine_5 =>
    refine ⟨_, exec_clusterLoss n cl s, rfl, Work.clusters_loseCluster .., ?_, fun hc hl => ?_⟩
    · exact (Work.epochOf_loseCluster ..).trans (congrArg (· + 1) (s.w.epochOf_clusterCores n cl _))
    · have mem : core ∈ clusterCores cl := by simp [clusterCores, hc]
      obtain ⟨hcore, hgone, hepoch, hwait⟩ := Work.foldl_loseCore (n := n) ((List.nodup_finRange 64).filter _) mem (w := s.w) hl
      have kept := Work.KeepsCore.loseCluster ((clusterCores cl).foldl (fun w c => w.loseCore n c false) s.w) n cl core
      exact ⟨kept.core.trans hcore, fun i => (congrArg Ctx.gone (kept.ctx i)).mpr (hgone i), kept.epoch.trans hepoch,
        (kept.waiting _ rfl).mpr hwait⟩
  case refine_6 =>
    show Host.Outcome.next (s.onW fun w => w.loseSlice n) = _
    rw [State.onW, Work.loseSlice, if_pos hm]
  case refine_7 =>
    have ended := Work.Stops.endSlice (s.w.failOwner n.val) n
    refine ⟨s.onW fun w => w.loseSlice n, rfl, rfl, ?_⟩
    rw [State.onW_w, Work.loseSlice_first hm]
    refine ⟨?_, ?_, ?_, fun a ha => Work.hbm_sliceOut _ n ha, Work.core_sliceOut _ n core, fun i hi => ?_, fun u hu => ?_, fun q hq => ?_⟩
    · rw [Work.slice_sliceOut]
    · rw [Work.slice_sliceOut]; rfl
    · rw [Work.slice_sliceOut]; rfl
    · rw [Work.ctx_sliceOut]
      refine Work.gone_endSlice (c := ⟨n, core, i⟩) ?_
      rw [Work.liveCtxs, Work.ctxs_failOwner]
      simpa using hi
    · have once := Work.epochOf_sliceOut ((s.w.failOwner n.val).endSlice n) n hu
      unfold Work.epochOf at once
      rw [once, ended.epochs, Work.epochs_failOwner]
    · rw [Work.part_sliceOut, ended.part, Work.part_failOwner hq]
  case refine_8 =>
    intro hb
    show Host.Outcome.next (s.onW fun w => w.loseHalf n core half) = _
    rw [State.onW, Work.loseHalf_again hb]
  case refine_9 =>
    intro hb
    have stops := Work.Stops.faultLast s.w ⟨n, core, 0⟩ half
    refine ⟨s.onW fun w => w.loseHalf n core half, rfl, rfl, ?_⟩
    rw [State.onW_w, Work.loseHalf_first hb]
    refine ⟨?_, ?_, fun hn => ?_, fun d y hr hst hl => ?_⟩
    · rw [Work.core_noteHalfLoss, stops.core]
      rfl
    · rw [Work.slice_noteHalfLoss, stops.slice]
    · rw [Work.ctxs_noteHalfLoss, Work.faultLast_none fun d y h => hn d y ((Work.mem_runsOn ..).mp h)]
    · have last : ∀ e, e ∈ s.w.runsOn ⟨n, core, 0⟩ half → e = (d, y) ∨ e.2.startNo < y.startNo := fun e he =>
        (hl e.1 e.2 ((Work.mem_runsOn ..).mp he)).imp (fun h => Prod.ext h.1 h.2) (·.1)
      have live : (s.w.ctx d).live := Ctx.live_of_active (hst.imp_right .inl)
      simp only [Work.ctx_noteHalfLoss, Work.faultLast_last ((Work.mem_runsOn ..).mpr hr) last, Work.ctx_fault _ _ _ _ _ _ live]
      refine ⟨rfl, rfl, fun z hz => ?_, fun e z hz hne => ?_⟩
      · rw [Ctx.faulted, Ctx.leftBy_some] at hz
        simp only [List.mem_filter, Bool.and_eq_true, decide_eq_true_eq] at hz
        exact hz.2.2
      · have ⟨_, hmem, _, hstat, _⟩ := hz
        by_cases hd : e = d
        · subst hd
          have other := ((hl e z hz).resolve_left fun h => hne h.2).2
          rw [Work.ctx_fault _ _ _ _ _ _ live, Ctx.faulted, Ctx.leftBy_some]
          simp [hmem, hstat, other]
        · rw [Work.ctx_fault_other _ _ _ _ _ hd]
          exact hmem
  case refine_10 =>
    have want := Work.wantsSequential_halfTick s.w ⟨n, core, 0⟩
    refine ⟨s.onW fun w => w.coreTick ⟨n, core, 0⟩, rfl, rfl, Work.coreTick_only .., ?_, ?_⟩
    · rw [State.onW_w, Work.slice, Work.slices_coreTick]
      exact Work.slice_halfTick s.w ⟨n, core, 0⟩
    · rw [State.onW_w, Work.core_coreTick, want]
      rfl

end Sys2Proof.Machine
end

section
/-! O23: the tick, steps of ftime, changes of P, clock points, segments and pauses (R21-R25, R88-R91, R485). -/

namespace Sys2Proof.Machine

/-! The tick (R21-R24). -/

/-- The ports at a tick: the windows of the frame open (R281). -/
theorem Work.toTick_closeLines (w : Work) : w.closeLines.toTick = { w.closeLines with
    time := { w.time with ftime := BitVec.ofNat 64 ((w.time.ftime.toNat / (w.time.period.toNat * 1000) + 1) * (w.time.period.toNat * 1000)) }
    fab := { w.closeLines.fab with
      ports := (w.closeLines.fab.ports.map fun e => (e.1, { e.2 with windowUsed := [] })).filter fun e => decide (e.2 ≠ .zero) } } := by
  unfold Work.toTick Work.frame
  rw [(Work.Quiet.closeLines w).time]
  rfl

theorem frameTick_runs (m : TickIn) (s : State) : exec (.frameTick m) s = .next (s.tick m) := rfl

/-! Steps of ftime and changes of P (R22, R23). -/

/-- What a step of ftime and a change of P change beside the time: the contexts' frames, the log, the slot tables. -/
def Work.Renumbered (w w' : Work) : Prop := ∃ k l f, w' = { w with ctxs := k, log := l, fab := f }

namespace Work.Renumbered

theorem refl (w : Work) : w.Renumbered w := ⟨_, _, _, rfl⟩

theorem trans {a b c : Work} (h1 : a.Renumbered b) (h2 : b.Renumbered c) : a.Renumbered c := by
  obtain ⟨_, _, _, rfl⟩ := h1
  obtain ⟨_, _, _, rfl⟩ := h2
  exact ⟨_, _, _, rfl⟩

theorem time {w w' : Work} (h : w.Renumbered w') : w'.time = w.time := by
  obtain ⟨_, _, _, rfl⟩ := h
  rfl

theorem updCtx (w : Work) (c : CtxId) (f : Ctx → Ctx) : w.Renumbered (w.updCtx c f) := ⟨_, w.log, w.fab, rfl⟩

theorem mapCtxs (w : Work) (f : Ctx → Ctx) : w.Renumbered (w.mapCtxs f) :=
  List.foldlRecOn _ _ (refl w) fun _ hb _ _ => hb.trans (updCtx ..)

theorem logEv (w : Work) (u : BitVec 16) (k v : Nat) (p : Byte) (n : Nat) : w.Renumbered (w.logEv u k v p n) := ⟨w.ctxs, _, w.fab, rfl⟩

theorem updPort (w : Work) (p : Nat) (f : Port → Port) : w.Renumbered (w.updPort p f) := ⟨w.ctxs, w.log, _, rfl⟩

theorem recheckSlots (w : Work) (p : Nat) : w.Renumbered (w.recheckSlots p) := by
  unfold Work.recheckSlots
  dsimp only
  split
  · exact refl w
  · exact (updPort ..).trans (logEv ..)

theorem recheckAll (w : Work) (l : List Nat) : w.Renumbered (l.foldl (fun w p => w.recheckSlots p) w) :=
  List.foldlRecOn _ _ (refl w) fun _ hb _ _ => hb.trans (recheckSlots ..)

end Work.Renumbered

theorem Work.fab_mapCtxs (w : Work) (f : Ctx → Ctx) : (w.mapCtxs f).fab = w.fab :=
  List.foldlRecOn (motive := fun v : Work => v.fab = w.fab) _ _ rfl fun _ hb _ _ => hb

/-- The time after a step of ftime (R22). -/
def TimeSt.stepped (t : TimeSt) (j : FtimeJump) : TimeSt :=
  { t with ftime := t.ftime + j.delta, jump := none, stepCount := satAdd t.stepCount 1, period := t.steppedP, lockP := t.owedP, st := 1 }

theorem Work.stepTime_none {w : Work} (h : w.time.jump = none) : w.stepTime = w := by
  simp only [Work.stepTime, h]

theorem Work.Renumbered.stepTime {w : Work} {j : FtimeJump} (h : w.time.jump = some j) :
    ({ w with time := w.time.stepped j } : Work).Renumbered w.stepTime := by
  simp only [Work.stepTime, h]
  split
  · exact (mapCtxs ..).trans (logEv ..)
  · exact ((mapCtxs ..).trans (logEv ..)).trans (recheckAll ..)

theorem Work.fab_stepTime {w : Work} {j : FtimeJump} (h : w.time.jump = some j) (hp : w.time.steppedP = w.time.period) :
    w.stepTime.fab = w.fab := by
  simp only [Work.stepTime, h, hp, if_true]
  exact Work.fab_mapCtxs ..

theorem Work.Renumbered.setPeriod (w : Work) (us : BitVec 11) :
    ({ w with time := { w.time with period := us } } : Work).Renumbered (w.setPeriod us) :=
  (mapCtxs ..).trans (recheckAll ..)

/-! Clock points (R485). -/

theorem PwrSt.select_eq (p : PwrSt) :
    p.select = max (max p.capPoint (if p.dip then 2 else 0)) (max (if p.throttle then 2 else 0) p.maxPoint.toNat) := by
  simp [PwrSt.select, PwrSt.limits, max_assoc]

/-- The selected clock point takes effect (R485): beside it, only the power unit's registers and the log change. -/
theorem State.applyPoint_eq (s : State) :
    (s.applyPoint.w.time = { s.w.time with point := BitVec.ofNat 2 s.ctl.pwr.select } ∧
      s.applyPoint.w = { s.w with time := s.applyPoint.w.time, log := s.applyPoint.w.log }) ∧
    s.applyPoint.ctl = { s.ctl with pwr := { s.ctl.pwr with
      cause := s.applyPoint.ctl.pwr.cause
      pointChanges := if s.ctl.pwr.select = s.w.time.point.toNat then s.ctl.pwr.pointChanges else satAdd s.ctl.pwr.pointChanges 1 } } := by
  refine ⟨?_, rfl⟩
  by_cases h : s.ctl.pwr.select = s.w.time.point.toNat
  · simp [State.applyPoint, h]
  · simp [State.applyPoint, h, Work.logEv]

/-! Segments, lateness and pauses (R25, R88-R91). -/

/-- Only the first step of a job with a Peat begins a slot (R188, R212). -/
theorem Work.beginFirst_eq_self {w : Work} {c : CtxId} (h : ∀ j, w.jobOf c = some j → j.peat = none ∨ j.step ≠ j.start) :
    w.beginFirst c = w := by
  unfold Work.beginFirst
  split
  · rfl
  next j hj =>
    split
    next p hp => rw [if_neg ((h j hj).resolve_left (by simp [hp]))]
    · rfl

theorem Ctx.lateAt_le (k : Ctx) (t : TimeSt) : k.lateAt t ≤ t.ftime.toNat - (k.segment + 1) * t.periodNs := by
  unfold Ctx.lateAt
  split <;> omega

theorem Work.advance_within {w : Work} {dt : Nat} (h : w.time.ftime.toNat % (w.time.period.toNat * 1000) + dt < w.time.period.toNat * 1000) :
    w.advance dt = some { w with time := { w.time with ftime := w.time.ftime + BitVec.ofNat 64 dt } } := if_pos h

theorem Ctx.resumed_resumed (k : Ctx) (m : Nat) : (k.resumed m).resumed m = k.resumed m := by
  by_cases h : k.fault.code = 0x70#8 <;> simp [Ctx.resumed, h]

/-- Contexts that were not rolled back go on as they were (R91). -/
theorem Work.foldl_resumed_eq (m : Nat) (l : List CtxId) (w : Work) (h : ∀ c ∈ l, (w.ctx c).restart = false) :
    l.foldl (fun w c => if (w.ctx c).restart then w.restartCtx c m else w.updCtx c fun k => k.resumed m) w =
      l.foldl (fun w c => w.updCtx c fun k => k.resumed m) w := by
  induction l generalizing w with
  | nil => rfl
  | cons a l ih =>
    have ha : (w.ctx a).restart = false := h a List.mem_cons_self
    simp only [List.foldl_cons, ha, Bool.false_eq_true, if_false]
    refine ih _ fun c hc => ?_
    obtain rfl | hca := eq_or_ne c a
    · rw [Work.ctx_updCtx_same]; exact ha
    · rw [Work.ctx_updCtx_other _ _ hca]; exact h c (List.mem_cons_of_mem _ hc)

theorem Work.ctx_foldl_resumed (m : Nat) (l : List CtxId) (w : Work) (c : CtxId) :
    (l.foldl (fun w c => w.updCtx c fun k => k.resumed m) w).ctx c = if c ∈ l then (w.ctx c).resumed m else w.ctx c := by
  induction l generalizing w with
  | nil => rfl
  | cons a l ih =>
    rw [List.foldl_cons, ih]
    obtain rfl | hca := eq_or_ne c a
    · simp [Ctx.resumed_resumed]
    · simp [Work.ctx_updCtx_other _ _ hca, hca]

/-- A partition's resume without an outcome to report (R91). -/
theorem Work.resumePart_quiet {w : Work} {q : Fin 8} (hp : (w.part q).resumePending = some none) (hf : (w.part q).resumeFrom < w.frame)
    (hr : ∀ c, (w.ctx c).part = q → (w.ctx c).restart = false) :
    w.resumePart q = ((w.liveCtxs.filter fun c => decide ((w.ctx c).part = q ∧ (w.ctx c).st = .paused)).foldl
      (fun v c => v.updCtx c fun k => k.resumed w.frame) w).updPart q fun p => { p with paused := false, resumePending := none } := by
  simp only [Work.resumePart, hp, if_neg (Nat.not_le.2 hf)]
  rw [Work.foldl_resumed_eq]
  intro c hc
  have hc := of_decide_eq_true (List.mem_filter.1 hc).2
  exact hr c hc.1

/-- Until a frame after that of the resume, nothing changes (R91). -/
theorem Work.resumePart_early {w : Work} {q : Fin 8} (hf : w.frame ≤ (w.part q).resumeFrom) : w.resumePart q = w := by
  unfold Work.resumePart
  split
  · rfl
  · exact if_pos hf

/-! The two clauses on time. -/

theorem TimeSt.atTick_iff (t : TimeSt) : t.atTick = true ↔ t.ftime.toNat % (t.period.toNat * 1000) = 0 := decide_eq_true_iff

theorem ftimeStep_runs (s : State) (j : FtimeJump) (hj : s.w.time.jump = some j) (ht : s.w.time.atTick = true) :
    ∃ u, exec .ftimeStep s = .next u ∧ u.ctl = s.ctl ∧ u.w.time = s.w.time.stepped j ∧
      u.w = { s.w with time := u.w.time, ctxs := u.w.ctxs, log := u.w.log, fab := u.w.fab } ∧
      (s.w.time.st ≠ 0 ∨ s.w.time.heardP = 0 → u.w.fab = s.w.fab) := by
  refine ⟨s.onW Work.stepTime, ?_, rfl, (Work.Renumbered.stepTime hj).time, ?_, fun hk => Work.fab_stepTime hj (if_neg ?_)⟩
  · show Host.Outcome.next (s.onW fun w => if w.time.atTick then w.stepTime else w) = _
    simp [State.onW, ht]
  · obtain ⟨k, l, f, h⟩ := Work.Renumbered.stepTime hj
    show s.w.stepTime = _
    simp only [State.onW, h]
  · tauto

theorem changePeriod_time_of_due {w : Work} (h : w.time.nextPeriod ≠ 0 ∧ w.time.changeAt.toNat ≤ w.time.ftime.toNat) :
    w.changePeriod.time = { w.time with period := w.time.nextPeriod, nextPeriod := 0, changeAt := 0, lockP := 0 } := by
  rw [Work.changePeriod, if_pos h]
  exact (Work.Renumbered.setPeriod ..).time

theorem isTick_iff {n : Nat} {p : BitVec 11} (hp : p ≠ 0) : isTick n p.toNat = true ↔ n % (p.toNat * 1000) = 0 := by
  have : p.toNat ≠ 0 := fun h => hp (BitVec.eq_of_toNat_eq h)
  simp [isTick, this]

theorem framePeriodChange_runs (s : State) : exec .framePeriodChange s = .next (s.onW Work.changePeriod) := rfl

/-- Settles O23: each action is the model's own function, followed through the case its conditions select. -/
theorem frameTickAndSegmentResults : Obligations.FrameTickAndSegmentResults := by
  unfold Obligations.FrameTickAndSegmentResults
  refine ⟨fun m s => ?_, fun s => ⟨fun j hj ht => ?_, fun h => ?_, fun h => ?_, fun hd ho => ?_, fun hd ho => ?_, ⟨fun ht => ?_, fun ht => ?_⟩,
    fun c => ⟨fun h1 h2 h3 => ?_, fun h1 h2 h3 => ?_⟩, fun c dt hdt => ⟨fun h1 h2 h3 h4 => ?_, fun h => ?_⟩, fun q hp hf => ?_, fun q hp hf => ?_,
    fun q hf => ?_, fun q hp hf hr => ?_⟩⟩
  case refine_1 =>
    rw [frameTick_runs, State.tick]
    simp only [State.onW, Work.toTick_closeLines]
    rfl
  case refine_2 => exact ftimeStep_runs s j hj ((TimeSt.atTick_iff _).2 ht)
  case refine_3 =>
    show Host.Outcome.next (s.onW fun w => if w.time.atTick then w.stepTime else w) = _
    simp only [State.onW]
    split
    next ht => rw [Work.stepTime_none (h.resolve_right (not_not.2 ((TimeSt.atTick_iff _).1 ht)))]
    · rfl
  case refine_4 => exact ⟨_, framePeriodChange_runs s, rfl, changePeriod_time_of_due h⟩
  case refine_5 =>
    obtain ⟨h0, h1, h2⟩ := ho
    refine ⟨_, framePeriodChange_runs s, rfl, ?_⟩
    show s.w.changePeriod.time = _
    rw [Work.changePeriod, if_neg hd, if_pos ⟨h0, (isTick_iff h0).2 h1, (TimeSt.atTick_iff _).2 h2⟩]
    exact (Work.Renumbered.setPeriod ..).time
  case refine_6 =>
    rw [framePeriodChange_runs, State.onW, Work.changePeriod, if_neg hd, if_neg]
    rintro ⟨h0, h1, h2⟩
    exact ho ⟨h0, (isTick_iff h0).1 h1, (TimeSt.atTick_iff _).1 h2⟩
  case refine_7 =>
    show Host.Outcome.next (if s.w.time.atTick then s.applyPoint else s) = _
    rw [if_neg (mt (TimeSt.atTick_iff _).1 ht)]
  case refine_8 =>
    obtain ⟨⟨h1, h2⟩, h3⟩ := s.applyPoint_eq
    rw [PwrSt.select_eq] at h1 h3
    refine ⟨s.applyPoint, ?_, h1, h2, h3⟩
    show Host.Outcome.next (if s.w.time.atTick then s.applyPoint else s) = _
    rw [if_pos ((TimeSt.atTick_iff _).2 ht)]
  case refine_9 =>
    show Host.Outcome.next (s.onW fun w => w.startSegment c) = _
    rw [State.onW, Work.startSegment, if_pos ⟨h1, h2, h3⟩]
  case refine_10 =>
    show Host.Outcome.next (s.onW fun w => w.startSegment c) = _
    rw [State.onW, Work.startSegment, if_neg (by simp [h1]), if_pos ⟨h1, h2⟩, Work.beginFirst_eq_self h3]
    rfl
  case refine_11 =>
    show Host.Outcome.next (s.onW _) = _
    simp only [State.onW, Work.advance_within hdt]
    rw [if_pos]
    refine ⟨?_, h4⟩
    rw [Work.lateness, Ctx.lateAt, if_pos ⟨h1, h2⟩]
    exact h3
  case refine_12 =>
    show Host.Outcome.next (s.onW _) = _
    simp only [State.onW, Work.advance_within hdt]
    rw [if_neg]
    rintro ⟨hl, -⟩
    exact absurd (hl.trans_le (Ctx.lateAt_le ..)) (Nat.not_lt.2 h)
  case refine_13 =>
    show Host.Outcome.next (s.onW fun w => w.pausePart q) = _
    rw [State.onW, Work.pausePart, if_neg fun h => Nat.not_lt.2 hf h.2]
  case refine_14 =>
    show Host.Outcome.next (s.onW fun w => w.pausePart q) = _
    rw [State.onW, Work.pausePart, if_pos ⟨hp, hf⟩]
    rfl
  case refine_15 =>
    show Host.Outcome.next (s.onW fun w => w.resumePart q) = _
    rw [State.onW, Work.resumePart_early hf]
  case refine_16 =>
    refine ⟨s.onW fun w => w.resumePart q, (by exact rfl), rfl, ?_⟩
    simp only [State.onW, Work.resumePart_quiet hp hf hr, Work.part_updPart_same, Work.ctx_updPart, true_and]
    intro c hc hq hs
    rw [Work.ctx_foldl_resumed, if_pos (List.mem_filter.2 ⟨hc, decide_eq_true ⟨hq, hs⟩⟩)]
    rfl

end Sys2Proof.Machine
end

section
/-! The site input, heartbeats, probes and holdover (R290-R292, R471, R524). -/

namespace Sys2Proof.Machine

/-! Link commands that leave and that come (R268, R269). -/

/-- A CTL flit of this command is among what has left by a port. -/
def ctlSent (p : Fin 32) (code : Byte) (args : List Byte) (out : List Emit) : Prop :=
  ∃ g : Flit, .flit p g ∈ out ∧ g.typ = 3 ∧ flitGood g = true ∧ g.body = ctlBody code args

/-- The CRC does not count itself (R268). -/
theorem flitFront_crc (f : Flit) (c : BitVec 64) : flitFront { f with crc := c } = flitFront f := rfl

theorem flitGood_of_crc {f : Flit} (hf : flitFailed f = false) : flitGood { f with crc := crc64 (flitFront f) } = true := by
  have h : ({ f with crc := crc64 (flitFront f) } : Flit).crc = crc64 (flitFront { f with crc := crc64 (flitFront f) }) := by
    dsimp only
    exact (congrArg crc64 (flitFront_crc f (crc64 (flitFront f)))).symm
  rw [flitGood, Bool.and_eq_true, decide_eq_true_eq]
  refine ⟨?_, h⟩
  rw [Bool.not_eq_true']
  exact hf

theorem flitGood_mkFlit (typ : BitVec 4) (seq ack : BitVec 16) (cvc : BitVec 3) (sh : Bool) (cr : BitVec 12) (start : BitVec 5) (body : List Byte) :
    flitGood (mkFlit typ seq ack cvc sh cr start body) = true := flitGood_of_crc (f := ⟨seq, ack, cvc, sh, cr, start, typ, body, 0, []⟩) rfl

theorem ctlSent_sendCtl (w : Work) (p : Fin 32) (code : Byte) (args : List Byte) : ctlSent p code args (w.sendCtl p code args).out :=
  ⟨_, List.mem_cons_self, rfl, flitGood_mkFlit .., rfl⟩

theorem Work.Quiet.sendCtl (w : Work) (p : Fin 32) (code : Byte) (args : List Byte) : w.Quiet (w.sendCtl p code args) :=
  (flushTail ..).trans (sendFlit ..)

/-- The header of a flit moves credits and the replay buffer, and what waited for them (R268, R272). -/
theorem Work.Quiet.flitHeader (w : Work) (p : Fin 32) (f : Flit) : w.Quiet (w.flitHeader p f) := by
  refine (updPort _ _ _ (by exact rfl)).trans ((updPort _ _ _ ?_).trans (drainTx ..))
  split <;> rfl

theorem Work.time_ctlHead (w : Work) (r : CtlRx) : (w.ctlHead r).time = w.time := (Work.Quiet.flitHeader ..).time

theorem Work.takeCtl_good {w : Work} {r : CtlRx} (h : flitFailed (CtlRx.flit r) = false) (act : Work → Work) : w.takeCtl r act = act (w.ctlHead r) :=
  if_neg (by simp [h])

/-! Elections and announcements of a change of P (R291, R293). -/

theorem Work.elect_eq (w : Work) : ∃ t, w.elect = { w with time := t } := by
  unfold Work.elect
  split <;> exact ⟨_, rfl⟩

theorem Work.announceP_eq (w : Work) (us : Nat) (v : Word) : ∃ t l, w.announceP us v = { w with time := t, log := l } := by
  unfold Work.announceP
  dsimp only
  split
  · exact ⟨_, _, rfl⟩
  · split
    · exact ⟨_, _, rfl⟩
    · split <;> exact ⟨_, _, rfl⟩

/-! Probes (R290). -/

/-- A probe is answered at once with the port's clock, and its candidate is noted; beyond that only the time and the log change. -/
theorem Work.takeProbe_eq {w : Work} {p : Fin 32} (m : ProbeMsg) (h : (w.port p.val).isActive = true) :
    ∃ t l, w.takeProbe p m = { (w.updPort p.val fun y => { y with heard := m.candidate, heardAt := w.time.ftime }).sendCtl p 0x05
      (replyArgs m.t1 (w.stamp m.frac) (w.stamp m.frac)) with time := t, log := l } := by
  unfold Work.takeProbe
  rw [if_neg (by simp [h])]
  dsimp only
  generalize Work.sendCtl _ _ _ _ = w1
  obtain ⟨t, ht⟩ := w1.elect_eq
  rw [ht]
  split
  · split
    next us v _ =>
      obtain ⟨t', l, h'⟩ := Work.announceP_eq _ us v
      exact ⟨_, _, h'⟩
    · exact ⟨_, _, rfl⟩
  · exact ⟨_, _, rfl⟩

theorem Work.takeProbe_inactive {w : Work} {p : Fin 32} (m : ProbeMsg) (h : (w.port p.val).isActive = false) : w.takeProbe p m = w :=
  if_pos (by simp [h])

theorem Work.takeReply_inactive {w : Work} {p : Fin 32} (t1 t2 t3 : Word) (f : Byte) (h : (w.port p.val).isActive = false) :
    w.takeReply p t1 t2 t3 f = w := if_pos (by simp [h])

theorem Work.sendProbe_inactive {w : Work} {p : Fin 32} (h : (w.port p.val).isActive = false) : w.sendProbe p = w := if_pos (by simp [h])

theorem Work.sendProbe_active {w : Work} {p : Fin 32} (h : (w.port p.val).isActive = true) :
    w.sendProbe p = (w.updPort p.val fun y => { y with probeSent := some (BitVec.ofNat 64 (w.time.ftime.toNat * 256)) }).sendCtl p 0x04
      (probeArgs (BitVec.ofNat 64 (w.time.ftime.toNat * 256)) (w.bestRef.map fun e => (e.1, (e.2.map (·.2)).getD 0))
        (if w.time.nextPeriod = 0 then none else some (w.time.nextPeriod, w.time.changeAt)) w.time.period) := if_neg (by simp [h])

/-- The answer to a probe steers ftime where the port is the upstream one, and is only kept elsewhere (R22, R290, R291). -/
theorem Work.takeReply_eq {w : Work} {p : Fin 32} {t1 : Word} (t2 t3 : Word) (f : Byte) (h : (w.port p.val).isActive = true)
    (hs : (w.port p.val).probeSent = some t1) :
    let w1 := w.updPort p.val fun y =>
      { y with probeSent := none, probeDelay := probeDelay t1.toNat t2.toNat t3.toNat (w.stamp f).toNat }
    let off := probeOffset t1.toNat t2.toNat t3.toNat (w.stamp f).toNat (w.port p.val).asymNs.toInt / 256
    let tm := { w.time with offsetNs := satI32 off }
    (w.time.refHolder = false → w.time.upstream.toNat = p.val → (w.port p.val).heard.isSome = true →
      w.takeReply p t1 t2 t3 f = { w1 with time :=
        if w.time.st = 0 then { tm with jump := some ⟨BitVec.ofInt 64 off, 0⟩ }
        else if off.natAbs < 1000 then { tm with slew := off, st := 1, lockP := w.time.owedP }
        else { tm with jump := some ⟨BitVec.ofInt 64 off, 1⟩ } }) ∧
    (w.time.refHolder = true ∨ w.time.upstream.toNat ≠ p.val ∨ (w.port p.val).heard = none → w.takeReply p t1 t2 t3 f = w1) := by
  intro w1 off tm
  have open_ : w.takeReply p t1 t2 t3 f =
      if w.time.refHolder || decide (w.time.upstream.toNat ≠ p.val) || (w.port p.val).heard.isNone then w1
      else if w.time.st = 0 then { w1 with time := { tm with jump := some ⟨BitVec.ofInt 64 off, 0⟩ } }
      else if off.natAbs < 1000 then { w1 with time := { tm with slew := off, lockP := tm.owedP, st := 1 } }
      else { w1 with time := { tm with jump := some ⟨BitVec.ofInt 64 off, 1⟩ } } := if_neg (by simp [h, hs])
  rw [open_]
  refine ⟨fun hr hu hh => ?_, fun hk => if_pos ?_⟩
  · rw [if_neg (by simp [hr, hu, Option.isNone_iff_eq_none, Option.isSome_iff_ne_none.1 hh])]
    split
    · rfl
    · split <;> rfl
  · rcases hk with hk | hk | hk <;> simp [hk]

/-! Holdover (R292) and edges of the site input (R291). -/

/-- A port that hears the lost reference forgets it (R292). -/
def Port.unhear (a : BitVec 16) (y : Port) : Port := if y.heard.any (fun h => decide (h.1 = a)) then { y with heard := none } else y

/-- The ports forget the reference that is lost. -/
def Work.unhearAll (w : Work) : Work :=
  (List.range 32).foldl (fun w i =>
    if (w.port i).heard.any (fun h => decide (h.1 = w.time.reference)) then w.updPort i fun y => { y with heard := none } else w) w

theorem Work.time_unhearAll (w : Work) : w.unhearAll.time = w.time :=
  foldl_kept (get := Work.time) (fun w i _ => by split <;> rfl) w

theorem Work.port_unhearAll (w : Work) {k : Nat} (hk : k < 32) : w.unhearAll.port k = (w.port k).unhear w.time.reference := by
  have each := get_foldl_once (get := fun (w : Work) i => (w.time.reference, w.port i)) (f := fun _ e => (e.1, e.2.unhear e.1))
    (step := fun (w : Work) i =>
      if (w.port i).heard.any (fun h => decide (h.1 = w.time.reference)) then w.updPort i fun y => { y with heard := none } else w)
    (fun w i => ?same) (fun w i j h => ?other) (List.nodup_range (n := 32)) w k
  case same =>
    dsimp only [Port.unhear]
    split
    · rw [Work.port_updPort_same]; rfl
    · rfl
  case other =>
    split
    · exact congrArg (Prod.mk _) (Work.port_updPort_other _ _ h)
    · rfl
  rw [if_pos (List.mem_range.2 hk)] at each
  unfold Work.unhearAll
  exact (Prod.mk.inj each).2

theorem Work.holdover_eq {w : Work} (hs : w.time.st = 1) (hr : w.time.refHolder = false) :
    w.holdover = ({ w.unhearAll with time := { w.unhearAll.time with st := 2 } } : Work).elect := by
  rw [Work.holdover, if_pos ⟨hs, hr⟩]
  unfold Work.unhearAll
  dsimp only

/-- What an edge of the site input sets on the reference (R291, R292, R303). -/
theorem Work.ppsEdge_eq {w : Work} (h : w.time.refHolder = true) :
    let t := w.time
    let off : Int := ((t.epochSec.toNat * 1000000000 : Nat) : Int) - (t.ftime.toNat : Int)
    (t.ppsSet = true → w.ppsEdge = { w with time := { t with epochSec := t.epochSec + 1, slew := off } }) ∧
    (t.ppsSet = false → t.st = 0 →
      w.ppsEdge = { w with time := { t with epochSec := t.epochSec + 1, ppsSet := true, jump := some ⟨BitVec.ofInt 64 off, 2⟩ } }) ∧
    (t.ppsSet = false → t.st ≠ 0 → w.ppsEdge = { w with time := { t with
      ppsSet := true, st := 1, epochSec := BitVec.ofNat 32 (nearestSecond t.ftime.toNat + 1)
      slew := ((nearestSecond t.ftime.toNat * 1000000000 : Nat) : Int) - (t.ftime.toNat : Int) } }) := by
  have open_ : w.ppsEdge = if !w.time.ppsSet && decide (w.time.st ≠ 0) then _ else _ := if_neg (by simp [h])
  refine ⟨fun hp => ?_, fun hp hs => ?_, fun hp hs => ?_⟩
  · rw [open_, if_neg (by simp [hp]), if_pos hp]; dsimp only; rw [hp]
  · rw [open_, if_neg (by simp [hs]), if_neg (by simp [hp])]
  · rw [open_, if_pos (by rw [hp]; exact decide_eq_true hs)]

end Sys2Proof.Machine
end

section
/-! What no instruction, no link and no message changes: the epochs of the control dies, which units are in reset, and whether the device
is locked (R19, R292, R471). -/

namespace Sys2Proof.Machine

/-- The control dies' epochs, the units in reset and the lock stay as they are. -/
structure Work.Steady (w w' : Work) : Prop where
  die : ∀ d : Fin 2, w'.epochOf (bootUnit d) = w.epochOf (bootUnit d)
  inReset : w'.inReset = w.inReset
  lock : w'.time.st = w.time.st

namespace Work.Steady

theorem refl (w : Work) : w.Steady w := ⟨fun _ => rfl, rfl, rfl⟩

theorem trans {a b c : Work} (h1 : a.Steady b) (h2 : b.Steady c) : a.Steady c :=
  ⟨fun d => (h2.die d).trans (h1.die d), h2.inReset.trans h1.inReset, h2.lock.trans h1.lock⟩

theorem foldl {α : Type} {f : Work → α → Work} (h : ∀ (w : Work) a, w.Steady (f w a)) (l : List α) (w : Work) : w.Steady (l.foldl f w) :=
  List.foldlRecOn l f (refl w) fun b hb a _ => hb.trans (h b a)

theorem ite {w a b : Work} (c : Prop) [Decidable c] (ha : w.Steady a) (hb : w.Steady b) : w.Steady (if c then a else b) := by
  split <;> assumption

/-- What leaves the epochs, the units in reset and the time alone is steady. -/
theorem of_eq {w w' : Work} (h : (w'.epochs, w'.inReset, w'.time) = (w.epochs, w.inReset, w.time)) : w.Steady w' := by
  simp only [Prod.mk.injEq] at h
  obtain ⟨he, hr, ht⟩ := h
  exact ⟨fun d => by unfold Work.epochOf; rw [he], hr, by rw [ht]⟩

end Work.Steady

theorem Work.Quiet.steady {w w' : Work} (h : w.Quiet w') : w.Steady w' := .of_eq (by rw [h.epochs, h.inReset, h.time])
theorem Work.Stops.steady {w w' : Work} (h : w.Stops w') : w.Steady w' := .of_eq (by rw [h.epochs, h.inReset, h.time])

/-- The control dies are units of a class of their own (R18). -/
theorem bootUnit_class : ∀ d : Fin 2, (bootUnit d).toNat / 4096 = 3 := by decide

namespace Work.Steady

/-! The state's operations. -/

section
variable (w : Work)

theorem updCtx (c : CtxId) (f : Ctx → Ctx) : w.Steady (w.updCtx c f) := of_eq rfl
theorem updCore (c : CtxId) (f : Core → Core) : w.Steady (w.updCore c f) := of_eq rfl
theorem updSlice (n : Nat) (f : SliceSt → SliceSt) : w.Steady (w.updSlice n f) := of_eq rfl
theorem updStack (n : Nat) (f : Stack → Stack) : w.Steady (w.updStack n f) := of_eq rfl
theorem updSluice (n : Nat) (f : Sluice → Sluice) : w.Steady (w.updSluice n f) := of_eq rfl
theorem updPart (q : Fin 8) (f : Part → Part) : w.Steady (w.updPart q f) := of_eq rfl
theorem updPort (p : Nat) (f : Port → Port) : w.Steady (w.updPort p f) := of_eq rfl
theorem updFn (f : Fn) (g : FnSt → FnSt) : w.Steady (w.updFn f g) := of_eq rfl
theorem updCommit (q : Fin 8) (j : BitVec 16) (f : CommitSt → CommitSt) : w.Steady (w.updCommit q j f) := of_eq rfl
theorem setEntry (q : Fin 8) (t : BitVec 20) (v : Option ScaleEntry) : w.Steady (w.setEntry q t v) := of_eq rfl
theorem setProg (q : Fin 8) (t : BitVec 32) (v : Option Program) : w.Steady (w.setProg q t v) := of_eq rfl
theorem setRed (j b : BitVec 16) (v : Option RedCtx) : w.Steady (w.setRed j b v) := of_eq rfl
theorem updRedEv (q : Fin 8) (f : RedEvents → RedEvents) : w.Steady (w.updRedEv q f) := of_eq rfl
theorem logEv (u : BitVec 16) (k v : Nat) (p : Byte) (n : Nat) : w.Steady (w.logEv u k v p n) := of_eq rfl
theorem emit (e : Emit) : w.Steady (w.emit e) := of_eq rfl
theorem setAcc (c : CtxId) (i : Nat) (a : Acc) : w.Steady (w.setAcc c i a) := of_eq rfl
theorem setVreg (c : CtxId) (i : Nat) (v : BitVec 4096) : w.Steady (w.setVreg c i v) := of_eq rfl
theorem setTile (c : CtxId) (i : Nat) (t : Tile) : w.Steady (w.setTile c i t) := of_eq rfl
theorem setSreg (c : CtxId) (i : Nat) (v : Word) : w.Steady (w.setSreg c i v) := of_eq rfl
theorem retire (c : CtxId) (x : InFlight) (f : Option (Fin 16)) : w.Steady (w.retire c x f) := of_eq rfl
theorem setStat (c : CtxId) (i : Nat) (t : IStat) : w.Steady (w.setStat c i t) := of_eq rfl
theorem noteSnap (c : CtxId) (i : Nat) (b : List Byte) : w.Steady (w.noteSnap c i b) := of_eq rfl
theorem noteSent (c : CtxId) (x : InFlight) : w.Steady (w.noteSent c x) := of_eq rfl
theorem updPeat (n : Nat) (f : Peat → Peat) : w.Steady (w.updPeat n f) := of_eq rfl

theorem newEpoch {u : BitVec 16} (h : u.toNat / 4096 ≠ 3) : w.Steady (w.newEpoch u) :=
  ⟨fun d => Work.epochOf_newEpoch_other w fun e => h (by rw [← e]; exact bootUnit_class d), rfl, rfl⟩

theorem spanWrite (c : CtxId) (s : Span) (bs : List Byte) : w.Steady (w.spanWrite c s bs) := by
  cases s with
  | loc a => exact updCore ..
  | clu a => exact of_eq rfl
  | bad a b => exact refl w

end

/-! Memory whose accesses meet nothing (R345, R351, R354). -/

theorem setCtr (w : Work) (b : Nat) (c : CtrWord) : w.Steady (w.setCtr b c) := of_eq rfl

theorem writeBack (w : Work) (b : Nat) : w.Steady (w.writeBack b) := foldl (fun _ _ => of_eq (by exact rfl)) _ w

theorem poison (w : Work) (b : Nat) : w.Steady (w.poison b) := (setCtr ..).trans (writeBack ..)

theorem alarm (w : Work) (q : Fin 8) (pa d : Nat) : w.Steady (w.alarm q pa d) := of_eq rfl

theorem unreached (w : Work) (q : Fin 8) (pa : Nat) (c : Byte) : w.Steady (w.unreached q pa c) := ite _ (logEv ..) (refl w)

theorem sweepLost (w : Work) : w.Steady w.sweepLost := foldl (fun _ _ => updPart ..) _ w

theorem sealBlock (w : Work) (k : List Byte) (b : Nat) (c : CtrWord) (p : List Byte) : w.Steady (w.sealBlock k b c p) :=
  Steady.trans (of_eq (by exact rfl)) (writeBack ..)

/-- A block that nothing is found at: only its tag can fail. -/
theorem readBlock (w : Work) (q : Fin 8) (a n : Nat) : w.Steady (w.readBlock q a n .ok).2 := by
  unfold Work.readBlock
  split
  · exact refl w
  · dsimp only [Work.meet]
    split
    · exact unreached ..
    · rw [ite_self]
      split
      · exact ite _ (refl w) (alarm ..)
      · split
        · exact refl w
        · split
          · exact refl w
          · exact (alarm ..).trans (poison ..)

theorem readBlocks (q : Fin 8) (l : List (Nat × Nat)) (w : Work) : w.Steady (w.readBlocks q l .ok).2 := by
  induction l generalizing w with
  | nil => exact refl w
  | cons b l ih =>
    have one := readBlock w q b.1 b.2
    unfold Work.readBlocks
    dsimp only
    split
    · exact one
    · exact one.trans (ih _)

theorem overDevice (w : Work) (q : Fin 8) (a : Nat) (bs : List Byte) : w.Steady (w.overDevice q a bs).2 := by
  unfold Work.overDevice
  dsimp only
  split
  · exact of_eq rfl
  · exact refl w

theorem hbmRead (w : Work) (q : Fin 8) (a n : Nat) : w.Steady (w.hbmRead q a n .ok).2 := by
  unfold Work.hbmRead
  split
  · dsimp only
    split
    · exact (readBlocks ..).trans (overDevice ..)
    · exact readBlocks ..
  · exact refl w

theorem setAhead (w : Work) (f : List Nat) (r : List ReadAhead) : w.Steady { w with lostPassed := f, readAhead := r } := of_eq rfl

/-- A block written under its domain's key, or refused (R351, R356). -/
theorem writeBlock (w : Work) (q : Fin 8) (a : Nat) (bs : List Byte) : w.Steady (w.writeBlock q a bs .ok).2 := by
  have store (w1 : Work) (k : List Byte) (b : Nat) (c : CtrWord) (p : List Byte) (f : List Nat) (r : List ReadAhead) (l : Bool) :
      w1.Steady (if l then ({ w1.sealBlock k b c p with lostPassed := f, readAhead := r } : Work).sweepLost
        else { w1.sealBlock k b c p with lostPassed := f, readAhead := r }) := by
    have plain : w1.Steady { w1.sealBlock k b c p with lostPassed := f, readAhead := r } := (sealBlock w1 k b c p).trans (setAhead ..)
    exact ite _ (plain.trans (sweepLost _)) plain
  unfold Work.writeBlock
  split
  · exact refl w
  · dsimp only [Work.meet]
    split
    · exact unreached ..
    · rw [ite_self]
      split
      · split
        · exact (store w _ _ _ _ _ _ _).trans (logEv ..)
        · exact (ite _ (refl w) (alarm ..)).trans (updPart ..)
      · split
        · exact store w _ _ _ _ _ _ _
        · split
          · exact store w _ _ _ _ _ _ _
          · split
            · exact store w _ _ _ _ _ _ _
            · exact ((alarm ..).trans (poison ..)).trans (updPart ..)

theorem writeBlocks (q : Fin 8) (l : List (Nat × Nat)) (w : Work) (bs : List Byte) : w.Steady (w.writeBlocks q l bs .ok).2 := by
  induction l generalizing w bs with
  | nil => exact refl w
  | cons b l ih => exact (writeBlock ..).trans (ih _ _)

theorem hbmWrite (w : Work) (q : Fin 8) (a : Nat) (bs : List Byte) : w.Steady (w.hbmWrite q a bs .ok).2 := by
  unfold Work.hbmWrite
  split
  · exact writeBlocks ..
  · exact refl w

/-! Statistics (R228-R230). -/

/-- A record written to its table. The function is unfolded as a variable: the kernel never evaluates the address of the record. -/
theorem statToTable (w : Work) (n : Nat) (r : StatRec) (s : StatSec) : w.Steady (w.statToTable n r s .ok).2 := by
  obtain ⟨F, hF⟩ : ∃ F, F = Work.statToTable := ⟨_, rfl⟩
  rw [← hF]
  delta Work.statToTable at hF
  generalize e : F w n r s .ok = p
  rw [hF] at e
  beta_reduce at e
  extract_lets a old at e
  split at e
  next c w1 h =>
    have stored := hbmWrite w r.q a (statBytes (r.addTable old) false)
    rw [h] at stored
    split at e
    · rw [← e]; exact stored.trans (updSlice ..)
    · rw [← e]; exact stored.trans (logEv ..)

theorem evictStat (w : Work) (n : Nat) (r : StatRec) : w.Steady (w.evictStat n r .ok) := by
  have table (s : StatSec) := statToTable w n r s
  obtain ⟨F, hF⟩ : ∃ F, F = Work.evictStat := ⟨_, rfl⟩
  obtain ⟨T, hT⟩ : ∃ T, T = Work.statToTable := ⟨_, rfl⟩
  rw [← hF]
  delta Work.evictStat at hF
  rw [← hT] at hF table
  rw [hF]
  dsimp only
  split
  · exact updSlice ..
  next sec _ => exact ite _ ((table sec).trans (updSlice ..)) ((table sec).trans (updSlice ..))

theorem statAdd (w : Work) (n : Nat) (q : Fin 8) (j : BitVec 16) (t : BitVec 20) (s : Word) (e z sa nr b : Nat) :
    w.Steady (w.statAdd n q j t s e z sa nr b .ok) := by
  unfold Work.statAdd
  dsimp only
  split
  · exact updSlice ..
  · refine Steady.trans ?_ (updSlice ..)
    split
    · exact ite _ ((evictStat ..).trans (updSlice ..)) (refl w)
    · exact refl w

theorem statCount (w : Work) (c : CtxId) (t : BitVec 20) (s : Nat) (l : List (Option Int × Bool)) : w.Steady (w.statCount c t s l .ok) :=
  ite _ (refl w) (statAdd ..)

theorem statRead (w : Work) (c : CtxId) (t : BitVec 20) (s : Word) : w.Steady (w.statRead c t s .ok).2 := by
  obtain ⟨F, hF⟩ : ∃ F, F = Work.statRead := ⟨_, rfl⟩
  rw [← hF]
  delta Work.statRead at hF
  generalize e : F w c t s .ok = p
  rw [hF] at e
  beta_reduce at e
  extract_lets q n job on base blank plain at e
  split at e
  next sec _ =>
    split at e
    · split at e
      next g w1 h =>
        have got := hbmRead w q (statAddr sec (w.sliceRank q n) t s) 64
        rw [h] at got
        split at e
        · rw [← e]; exact got.trans (logEv ..)
        · rw [← e]; exact got
    · rw [← e]; exact refl w
  · rw [← e]; exact refl w

/-! Operands that may fault, and the operations that an instruction ends with. -/

section
variable {w : Work} {c : CtxId} {x : InFlight}

theorem withOp {α : Type} {e : Except OpFault α} {f : α → Effect} (h : ∀ a, w.Steady (f a).w) : w.Steady (withOp w e f).w := by
  cases e with
  | ok a => exact h a
  | error b => exact refl w

theorem noteMiss (w : Work) (c : CtxId) (x : InFlight) : w.Steady (w.noteMiss c x) := ite _ (refl w) ((updCtx ..).trans (updSlice ..))

theorem withBound {b : Bound} {f : ScaleEntry → Effect} (h : ∀ e, w.Steady (f e).w) : w.Steady (withBound w c x b f).w := by
  cases b with
  | ok e => exact h e
  | fault e => exact refl w
  | miss => exact noteMiss ..

theorem withSram {ev : MemEvent} {e : Effect} (h : w.Steady e.w) : w.Steady (withSram w ev e).w := by
  unfold Machine.withSram
  split
  · exact refl w
  · exact h

theorem withSluice {e : Effect} (h : w.Steady e.w) : w.Steady (withSluice w c x e).w := by
  unfold Machine.withSluice
  split
  · exact h
  · exact refl w

/-- Of two effects one. -/
theorem eite {a b : Effect} (p : Prop) [Decidable p] (ha : w.Steady a.w) (hb : w.Steady b.w) : w.Steady (if p then a else b).w := by
  split <;> assumption

end

theorem forgetRemote (w : Work) (c : CtxId) (i : Nat) : w.Steady (w.forgetRemote c i) := of_eq rfl

theorem fault (w : Work) (c : CtxId) (x : Option InFlight) (pc : Nat) (code : Byte) (d : Nat) : w.Steady (w.fault c x pc code d) :=
  (Stops.fault ..).steady

theorem remoteDone (w : Work) (c : CtxId) (i : Nat) (s : Byte) : w.Steady (w.remoteDone c i s) := by
  unfold Work.remoteDone
  split
  · exact refl w
  · exact ite _ (refl w) (ite _ ((forgetRemote ..).trans (fault ..)) (ite _ (retire ..) (refl w)))

theorem sweepUses (w : Work) : w.Steady w.sweepUses := (Stops.sweepUses w).steady

/-- How an instruction ends leaves these as its effect does. -/
theorem conclude {w : Work} {e : Effect} (h : w.Steady e.w) (c : CtxId) (x : InFlight) : w.Steady (e.conclude c x) := by
  unfold Effect.conclude
  split
  · exact h.trans (retire ..)
  · exact h.trans ((fault ..).trans (sweepUses ..))
  · exact h
  next st _ =>
    refine h.trans (((setStat _ c x.id st).trans (noteSent _ c x)).trans ?_)
    exact ite _ (remoteDone ..) (refl _)

end Work.Steady
end Sys2Proof.Machine
end

section
/-! Instructions and the reductions leave the control dies' epochs, the units in reset and the lock as they are. -/

namespace Sys2Proof.Machine
namespace Work.Steady

/-! The matrix group (R120-R126, R165-R173). -/

theorem effProduct (w : Work) (c : CtxId) (x : InFlight) (ev : MemEvent) : w.Steady (effProduct w c x ev).w := by
  unfold Machine.effProduct
  refine withOp fun a => withOp fun b => withBound fun e => withSram ?_
  exact eite _ (refl w) (of_eq (by exact rfl))

theorem effAccZero (w : Work) (c : CtxId) (x : InFlight) : w.Steady (effAccZero w c x).w := by
  unfold Machine.effAccZero
  exact eite _ (setAcc ..) (withBound fun _ => setAcc ..)

theorem effExtremum (w : Work) (c : CtxId) (x : InFlight) (m : Bool) : w.Steady (effExtremum w c x m).w := by
  unfold Machine.effExtremum
  exact withBound fun _ => withOp fun _ => eite _ (refl w) (setAcc ..)

theorem drainTo (w : Work) (c : CtxId) (x : InFlight) (b : Word) (d : DrainIn) (e : ScaleEntry) (sp : DrainSpans) :
    w.Steady (drainTo w c x b d e sp .ok).w := by
  unfold Machine.drainTo
  refine eite _ (refl w) (Steady.trans (ite _ ?_ (Steady.trans ?_ (setEntry ..))) (statCount ..))
  all_goals
    split
    · exact ((spanWrite ..).trans (spanWrite ..)).trans (spanWrite ..)
    · exact (spanWrite ..).trans (spanWrite ..)

theorem noteLimits (w : Work) (n : Nat) (a : Acc) : w.Steady (w.noteLimits n a) := updSlice ..

theorem drainClear (w : Work) (c : CtxId) (x : InFlight) : w.Steady (w.drainClear c x) := ite _ (setAcc ..) (refl w)

theorem passUse (w : Work) (q : Fin 8) (b : Word) (k : Nat) : w.Steady (w.passUse q b k) := of_eq rfl

theorem giveInput (w : Work) (c : CtxId) (a : Acc) : w.Steady (w.giveInput c a) := (ite _ (refl w) (of_eq (by exact rfl))).trans (passUse ..)

theorem useFailed (w : Work) (u : CombineUse) : w.Steady (w.useFailed u) := (Stops.useFailed w u).steady

theorem rootFails (w : Work) (c : CtxId) (x : InFlight) : w.Steady (w.rootFails c x) := ite _ ((useFailed ..).trans (passUse ..)) (refl w)

/-- A change of the waiting uses alone. -/
theorem setUses (w : Work) (l : List CombineUse) : w.Steady { w with combineUses := l } := of_eq rfl

theorem effCombine (w : Work) (c : CtxId) (x : InFlight) (g : Group) (e : ScaleEntry) : w.Steady (effCombine w c x g e).w := by
  unfold Machine.effCombine
  refine eite _ (refl w) (eite _ (eite _ (refl w) (withOp fun _ => ?_)) ?_)
  · exact ((giveInput ..).trans (noteLimits ..)).trans (setUses ..)
  · exact (((giveInput ..).trans (noteLimits ..)).trans (drainClear ..)).trans (sweepUses ..)

theorem afterDrain {w : Work} {r : Effect} (h : w.Steady r.w) (c : CtxId) (x : InFlight) (a : Acc) : w.Steady (r.afterDrain c x a).w := by
  unfold Effect.afterDrain
  split
  · exact h.trans ((noteLimits ..).trans (drainClear ..))
  · exact h

theorem failsRoot {w : Work} {e : Effect} (h : w.Steady e.w) (c : CtxId) (x : InFlight) : w.Steady (e.failsRoot c x).w := by
  unfold Effect.failsRoot
  split
  · exact h.trans (rootFails ..)
  · exact h

theorem effAccDrain (w : Work) (c : CtxId) (x : InFlight) : w.Steady (effAccDrain w c x .ok).w := by
  unfold Machine.effAccDrain
  refine failsRoot (withBound fun e => ?_) ..
  split
  · exact effCombine ..
  · exact eite _ (refl w) (withOp fun _ => afterDrain (drainTo ..) ..)

/-! The vector group (R127-R130). -/

theorem laneSat (w : Work) (c : CtxId) (b : Bool) : w.Steady (w.laneSat c b) := ite _ ((updCtx ..).trans (updSlice ..)) (refl w)

theorem putLanes (w : Work) (c : CtxId) (x : InFlight) (l : LaneW) (o : List (Nat × Bool)) : w.Steady (putLanes w c x l o).w :=
  (setVreg ..).trans (laneSat ..)

theorem effVext (w : Work) (c : CtxId) (x : InFlight) : w.Steady (effVext w c x).w := setSreg ..
theorem effVld (w : Work) (c : CtxId) (x : InFlight) : w.Steady (effVld w c x).w := withOp fun _ => setVreg ..
theorem effVst (w : Work) (c : CtxId) (x : InFlight) : w.Steady (effVst w c x).w := withOp fun _ => spanWrite ..
theorem effVtput (w : Work) (c : CtxId) (x : InFlight) : w.Steady (effVtput w c x).w := setTile ..
theorem effVfn (w : Work) (c : CtxId) (x : InFlight) : w.Steady (effVfn w c x).w := (updSlice ..).trans (putLanes ..)

theorem effVcvt (w : Work) (c : CtxId) (x : InFlight) : w.Steady (effVcvt w c x .ok).w := by
  refine eite _ (refl w) ?_
  dsimp only [Effect.done]
  exact ((setVreg ..).trans (laneSat ..)).trans (statCount ..)

theorem effVunpk (w : Work) (c : CtxId) (x : InFlight) : w.Steady (effVunpk w c x .ok).w := by
  refine withOp fun _ => ?_
  dsimp only [Effect.done]
  exact (putLanes ..).trans (statCount ..)

theorem startVstat (w : Work) (c : CtxId) (x : InFlight) : w.Steady (startVstat w c x .ok).w := (statRead ..).trans (noteSnap ..)

/-! The movers (R131, R192-R194). -/

/-- A read that the read-ahead may serve. -/
theorem getRead (w : Work) (c : CtxId) (x : InFlight) (q : Fin 8) (a n : Nat) : w.Steady (w.getRead c x q a n .ok).2 := by
  unfold Work.getRead
  dsimp only
  rw [ite_self]
  exact hbmRead ..

theorem startDmaGet (w : Work) (c : CtxId) (x : InFlight) : w.Steady (startDmaGet w c x).w :=
  eite _ (refl w) (withOp fun _ => withOp fun _ => withOp fun _ => noteSnap ..)

theorem effDmaPut (w : Work) (c : CtxId) (x : InFlight) (ev : MemEvent) : w.Steady (effDmaPut w c x ev).w := by
  unfold Machine.effDmaPut
  refine withOp fun _ => withSram ?_
  split
  · exact refl w
  · exact eite _ (refl w) (eite _ (ite _ (refl w) (updPart ..)) (of_eq (by exact rfl)))

theorem effDmaCopy (w : Work) (c : CtxId) (x : InFlight) : w.Steady (effDmaCopy w c x).w := withOp fun _ => withOp fun _ => spanWrite ..
theorem effDmaFill (w : Work) (c : CtxId) (x : InFlight) : w.Steady (effDmaFill w c x).w := withOp fun _ => spanWrite ..
theorem effTLd (w : Work) (c : CtxId) (x : InFlight) : w.Steady (effTLd w c x).w := withOp fun _ => setTile ..

theorem effTSt (w : Work) (c : CtxId) (x : InFlight) : w.Steady (effTSt w c x).w :=
  withOp fun _ => ite _ (((spanWrite ..).trans (spanWrite ..)).trans (updCtx ..)) ((spanWrite ..).trans (spanWrite ..))

theorem effPeatPush (w : Work) (c : CtxId) (x : InFlight) (ev : MemEvent) : w.Steady (effPeatPush w c x ev).w := by
  unfold Machine.effPeatPush
  exact withSram (withOp fun _ => eite _ (refl w) (eite _ (refl w) (eite _ (eite _ (refl w) (refl w)) (of_eq (by exact rfl)))))

theorem effPeatPop (w : Work) (c : CtxId) (x : InFlight) (ev : MemEvent) : w.Steady (effPeatPop w c x ev).w := by
  unfold Machine.effPeatPop
  dsimp only
  split
  · exact refl w
  · refine eite _ (refl w) (eite _ (ite _ (refl w) ((updPeat ..).trans (updCtx ..))) (withOp fun _ => eite _ (of_eq (by exact rfl)) ?_))
    exact ite _ (((updPeat ..).trans ((updCtx ..).trans (updPeat ..))).trans (updPart ..)) ((updPeat ..).trans ((updCtx ..).trans (updPeat ..)))

/-! The scalar and control groups (R117-R119, R134). -/

theorem putS (w : Work) (c : CtxId) (x : InFlight) (v : Word) : w.Steady (putS w c x v).w := setSreg ..
theorem effSLd (w : Work) (c : CtxId) (x : InFlight) : w.Steady (effSLd w c x).w := withOp fun _ => putS ..
theorem effSSt (w : Work) (c : CtxId) (x : InFlight) : w.Steady (effSSt w c x).w := withOp fun _ => spanWrite ..
theorem effSSys (w : Work) (c : CtxId) (x : InFlight) : w.Steady (effSSys w c x).w := (ite _ (updCtx ..) (refl w)).trans (putS ..)

theorem sendPkt (w : Work) (q : Fin 8) (k : Pkt) (o : PktOwner) (sl : Fin 8) (via : Option (Fin 32)) : w.Steady (w.sendPkt q k o sl via) :=
  (Quiet.sendPkt ..).steady

theorem sluiceMsg (w : Work) (q : Fin 8) (j d : BitVec 16) (i : Nat) (op : SluiceOp) (o : PktOwner) (sl : Fin 8) :
    w.Steady (w.sluiceMsg q j d i op o sl) := sendPkt ..

theorem issueSluice (w : Work) (q : Fin 8) (j : BitVec 16) (i : Nat) (op : SluiceOp) (sl : Fin 8) (k : Nat) :
    w.Steady (w.issueSluice q j i op sl k) := ite _ (sluiceMsg ..) (updSluice ..)

theorem effSlArm (w : Work) (c : CtxId) (x : InFlight) : w.Steady (effSlArm w c x).w := withSluice (issueSluice ..)
theorem effSlSig (w : Work) (c : CtxId) (x : InFlight) : w.Steady (effSlSig w c x).w := withSluice (eite _ (issueSluice ..) (refl w))
theorem effSlWait (w : Work) (c : CtxId) (x : InFlight) : w.Steady (effSlWait w c x).w := withSluice (eite _ (updCtx ..) (refl w))
theorem effLfWait (w : Work) (c : CtxId) (x : InFlight) : w.Steady (effLfWait w c x).w := eite _ (updCtx ..) (refl w)
theorem effLfClr (w : Work) (c : CtxId) (x : InFlight) : w.Steady (effLfClr w c x).w := eite _ (updCtx ..) (refl w)
theorem effCtxFence (w : Work) (c : CtxId) (x : InFlight) : w.Steady (effCtxFence w c x).w := eite _ (refl w) (refl w)

theorem beginSegment (w : Work) (c : CtxId) (n : Nat) : w.Steady (w.beginSegment c n) := of_eq rfl

theorem effFrameEnd (w : Work) (c : CtxId) (x : InFlight) : w.Steady (effFrameEnd w c x).w := by
  have counted : w.Steady ((w.noteLateness c).countHold c) := (updCtx ..).trans (ite _ (refl _) (updPeat ..))
  unfold Machine.effFrameEnd
  refine eite _ (eite _ (refl w) (eite _ ?_ (eite _ (refl w) (eite _ (counted.trans (updCtx ..)) (counted.trans (beginSegment ..)))))) (refl w)
  exact (counted.trans (updCtx ..)).trans (Quiet.noteEnd ..).steady

theorem effSclPin (w : Work) (c : CtxId) (x : InFlight) : w.Steady (effSclPin w c x).w := by
  unfold Machine.effSclPin
  dsimp only
  split
  · exact refl w
  · exact setEntry ..

/-! Fabric instructions (R131, R288). -/

theorem sendWrites (w : Work) (c : CtxId) (x : InFlight) (d : BitVec 16) (m : Bool) (a : Nat) (bs : List Byte) :
    w.Steady (w.sendWrites c x d m a bs) := foldl (fun _ _ => sendPkt ..) _ w

theorem effFabPut (w : Work) (c : CtxId) (x : InFlight) : w.Steady (effFabPut w c x).w := by
  unfold Machine.effFabPut
  refine withOp fun _ => ?_
  split
  · exact refl w
  · exact eite _ (sendWrites ..) (refl w)

theorem effFabGet (w : Work) (c : CtxId) (x : InFlight) : w.Steady (effFabGet w c x).w := by
  unfold Machine.effFabGet
  refine withOp fun _ => ?_
  split
  · exact refl w
  · refine eite _ ?_ (refl w)
    dsimp only [Effect.stand]
    refine Steady.trans ?_ (sendPkt ..)
    exact of_eq rfl

theorem effFabMcast (w : Work) (c : CtxId) (x : InFlight) : w.Steady (effFabMcast w c x).w := by
  unfold Machine.effFabMcast
  refine withOp fun _ => ?_
  split
  · exact refl w
  · exact eite _ (sendWrites ..) (refl w)

end Work.Steady
end Sys2Proof.Machine
end

section
/-! The remaining instructions: tile reads, the reductions, step commits. -/

namespace Sys2Proof.Machine
namespace Work.Steady

theorem evAfter_ok (n : Nat) : evAfter .ok n = .ok := by
  induction n with
  | zero => rfl
  | succ n ih => exact ih

theorem effDmaGet (w : Work) (c : CtxId) (x : InFlight) : w.Steady (effDmaGet w c x .ok).w := by
  have read (q : Fin 8) (a n : Nat) (w : Work) : w.Steady (w.getRead c x q a n .ok).2 := getRead ..
  obtain ⟨F, hF⟩ : ∃ F, F = Machine.effDmaGet := ⟨_, rfl⟩
  obtain ⟨T, hT⟩ : ∃ T, T = Work.getRead := ⟨_, rfl⟩
  rw [← hF]
  delta Machine.effDmaGet at hF
  rw [← hT] at hF read
  rw [hF]
  dsimp only
  split
  · refine withOp fun sp => ?_
    split
    · exact read ..
    · rw [evAfter_ok]
      split
      · exact (read ..).trans (read ..)
      · exact ((read ..).trans (read ..)).trans ((spanWrite ..).trans (spanWrite ..))
  · refine withOp fun _ => withOp fun _ => ?_
    split
    · exact read ..
    · exact (read ..).trans (spanWrite ..)

/-! Reductions (R307-R328): what a node sends. -/

section
variable (w : Work) (b : RedCtx) (j k : BitVec 16)

theorem redSend (sl : Fin 8) (p : Nat) (kd : Byte) (h : RedHdr) (bs : List Byte) : w.Steady (w.redSend b j k sl p kd h bs) := sendPkt ..
theorem redSendPartial (l : List Nat) (n : Nat) (p q : RedPiece) : w.Steady (w.redSendPartial b j k l n p q) := (redSend ..).trans (redSend ..)
theorem redSendContrib (sl : Fin 8) (o : RedOwn) : w.Steady (w.redSendContrib b j k sl o) := foldl (fun _ _ => redSend ..) _ w
theorem redSendResult (d : BitVec 16) (v : Option (Fin 32)) (i : Bool) (n : Nat) (r : RedResult) :
    w.Steady (w.redSendResult b j k d v i n r) := sendPkt ..
theorem redDownResults (p : Bool) (l : List (Nat × RedResult)) : w.Steady (w.redDownResults b j k p l) :=
  foldl (fun _ _ => foldl (fun _ _ => redSendResult ..) _ _) _ w
theorem redDownNotice (n : RedNotice) : w.Steady (w.redDownNotice b j k n) := foldl (fun _ _ => redSend ..) _ w
theorem redDownRetry : w.Steady (w.redDownRetry b j k) := foldl (fun _ _ => redSend ..) _ w

end

/-! Delivery (R327, R328). -/

/-- A delivery on its way, whose blocks meet nothing. -/
def Puts (w : Work) (s : RedPut) : Prop := w.Steady s.w ∧ s.ev = .ok

theorem Puts.block {w : Work} {s : RedPut} (h : Puts w s) (q : Fin 8) (a : Nat) (bs : List Byte) : Puts w (s.block q a bs) := by
  obtain ⟨hw, he⟩ := h
  unfold RedPut.block
  rw [he]
  have write : w.Steady (if s.w.writeRole q a bs.length = .current then ((0x68 : Byte), s.w) else s.w.hbmWrite q a bs .ok).2 := by
    split
    · exact hw
    · exact hw.trans (hbmWrite ..)
  exact ⟨write, rfl⟩

theorem Puts.part {w : Work} {s : RedPut} (h : Puts w s) (q : Fin 8) (a : Nat) (bs : List Byte) : Puts w (s.part q a bs) :=
  List.foldlRecOn (motive := fun r : RedPut × List Byte => Puts w r.1) _ _ h fun _ hb _ _ => hb.block ..

theorem Puts.foldl {w : Work} {s : RedPut} {f : RedPut → Nat → RedPut} (hf : ∀ s t, Puts w s → Puts w (f s t)) (h : Puts w s) (l : List Nat) :
    Puts w (l.foldl f s) := List.foldlRecOn l f h fun s hs t _ => hf s t hs

theorem redAccount (w : Work) (b : RedCtx) (j : BitVec 16) (l : List Nat) : w.Steady (w.redAccount b j l .ok) := by
  unfold Work.redAccount
  split
  · exact statAdd ..
  · exact refl w

theorem redFlags (w : Work) (b : RedCtx) (j : BitVec 16) (v : Bool) : w.Steady (w.redFlags b j v) := by
  unfold Work.redFlags
  split
  · exact ite _ (refl w) (setEntry ..)
  · exact refl w

theorem redWrite (w : Work) (j k : BitVec 16) (b : RedCtx) (p f po : Bool) (c : Byte) (d : Bool) :
    w.Steady (w.redWrite j k b p f po c d .ok) := by
  unfold Work.redWrite
  extract_lets bad write incl nars sats d s0 s1 s2 s3 s4 w1 out w2 w3 w4 w5
  have h1 : Puts w s1 := by
    unfold s1
    split
    · exact .foldl (fun _ _ h => h.part ..) ⟨refl w, rfl⟩ _
    · exact ⟨refl w, rfl⟩
  have h2 : Puts w s2 := by
    unfold s2
    split
    · exact .foldl (fun _ _ h => h.part ..) h1 _
    · exact h1
  have h4 : Puts w s4 := (h2.part ..).part ..
  have hw1 : w.Steady w1 := ite _ h4.1 (h4.1.trans (logEv ..))
  have hw2 : w1.Steady w2 := by
    unfold w2
    rw [h4.2]
    exact ite _ (refl _) ((ite _ (redAccount ..) (refl _)).trans (redFlags ..))
  have hw5 : w2.Steady w5 := ((setRed ..).trans (issueSluice ..)).trans (foldl (fun _ _ => remoteDone ..) _ _)
  exact (hw1.trans (hw2.trans hw5)).trans (ite _ (Quiet.stepAbort ..).steady (refl _))

theorem redDeliver (w : Work) (j k : BitVec 16) (b : RedCtx) (p f po : Bool) (c : Byte) (d : Bool) :
    w.Steady (w.redDeliver j k b p f po c d .ok) := ite _ (refl w) (ite _ (setRed ..) (redWrite ..))

theorem redEnd (w : Work) (j k : BitVec 16) (b : RedCtx) (f p : Bool) (c : Byte) : w.Steady (w.redEnd j k b f p c .ok) :=
  ((ite _ (updRedEv ..) (refl w)).trans (redDownNotice ..)).trans (redDeliver ..)

theorem redSucceed (w : Work) (j k : BitVec 16) (b : RedCtx) : w.Steady (w.redSucceed j k b .ok) :=
  ite _ ((redDownNotice ..).trans (redDeliver ..)) ((redDownResults ..).trans (redDeliver ..))

theorem redFinal (w : Work) (j k : BitVec 16) (b : RedCtx) (l : List Nat) : w.Steady (w.redFinal j k b l .ok) := by
  unfold Work.redFinal
  extract_lets bad n b1 w1
  have h1 : w.Steady w1 := foldl (fun _ _ => (updRedEv ..).trans (logEv ..)) _ w
  refine h1.trans (ite _ ((setRed ..).trans (redDownRetry ..)) (ite _ (redEnd ..) (ite _ ?_ (redSucceed ..))))
  exact (setRed ..).trans (foldl (fun _ _ => redSendResult ..) _ _)

theorem redGo (w : Work) (j k : BitVec 16) : w.Steady (w.redGo j k .ok) := by
  unfold Work.redGo
  split
  · exact refl w
  · refine ite _ (refl w) ?_
    extract_lets b1
    split
    · exact refl w
    next inc _ =>
      extract_lets b2 step s
      have sent : w.Steady s.1 := by
        refine List.foldlRecOn (motive := fun r : Work × RedCtx => w.Steady r.1) _ step (refl w) fun r hr c _ => ?_
        unfold step
        split
        · exact hr
        · split
          · split
            · exact hr
            · exact hr.trans (redSendPartial ..)
          · exact hr
      exact sent.trans (ite _ (setRed ..) (ite _ (redFinal ..) (setRed ..)))

/-! Packets of reductions that come (R314, R320, R322, R324, R326). -/

theorem redDrop (w : Work) (j k : BitVec 16) (b : RedCtx) (i n : Nat) (a : BitVec 16) : w.Steady (w.redDrop j k b i n a) :=
  ite _ (setRed ..) (ite _ (refl w) (((setRed ..).trans (updRedEv ..)).trans (logEv ..)))

theorem redWrong (w : Work) (q : Fin 8) (p : Nat) (k : Pkt) (o : Bool) : w.Steady (w.redWrong q p k o) :=
  (ite _ (updRedEv ..) (refl w)).trans (logEv ..)

theorem redInput (w : Work) (b : RedCtx) (p : Nat) (k : Pkt) (h : RedHdr) : w.Steady (w.redInput b p k h .ok) :=
  ite _ (redWrong ..) (ite _ (redDrop ..) ((setRed ..).trans (redGo ..)))

theorem redMaybe (w : Work) (j k : BitVec 16) : w.Steady (w.redMaybe j k .ok) := by
  unfold Work.redMaybe
  split
  · exact refl w
  · refine ite _ (refl w) ?_
    extract_lets full mine
    split
    · exact ite _ (redDeliver ..) (ite _ (redDeliver ..) (refl w))
    · exact ite _ (redDeliver ..) (refl w)

/-- A packet that is taken, or left as it came. -/
theorem getD_ite {w : Work} {a b : Option Work} (p : Prop) [Decidable p] (ha : w.Steady (a.getD w)) (hb : w.Steady (b.getD w)) :
    w.Steady ((if p then a else b).getD w) := by
  split <;> assumption

theorem redResult (w : Work) (b : RedCtx) (p : Nat) (k : Pkt) (h : RedHdr) : w.Steady ((w.redResult b p k h .ok).getD w) := by
  unfold Work.redResult
  refine getD_ite _ (redWrong ..) (getD_ite _ (redWrong ..) (getD_ite _ (refl w) (getD_ite _ (refl w) ?_)))
  dsimp only [Option.getD_some]
  exact (ite _ (setRed ..) ((setRed ..).trans (redDownResults ..))).trans (redMaybe ..)

theorem redNotice (w : Work) (b : RedCtx) (p : Nat) (k : Pkt) (h : RedHdr) : w.Steady (w.redNotice b p k h .ok) :=
  ite _ (redWrong ..) (ite _ (refl w) (((setRed ..).trans (redDownNotice ..)).trans (redMaybe ..)))

theorem redRetry (w : Work) (b : RedCtx) (p : Nat) (k : Pkt) : w.Steady (w.redRetry b p k .ok) := by
  unfold Work.redRetry
  refine ite _ (redWrong ..) (ite _ (refl w) (ite _ ?_ (((setRed ..).trans (redDownRetry ..)).trans (redGo ..))))
  dsimp only
  split
  · exact (setRed ..).trans (redSendContrib ..)
  · exact setRed ..

theorem redPacket (w : Work) (q : Fin 8) (p : Nat) (k : Pkt) : w.Steady ((w.redPacket q p k .ok).getD w) := by
  unfold Work.redPacket
  refine getD_ite _ (redWrong ..) ?_
  extract_lets h
  split
  · refine getD_ite _ (updRedEv ..) (getD_ite _ (refl w) ?_)
    exact of_eq rfl
  · refine getD_ite _ (updRedEv ..) (getD_ite _ (redResult ..) (getD_ite _ (redNotice ..) (getD_ite _ (redRetry ..) (getD_ite _ ?_ (redInput ..)))))
    exact of_eq rfl

theorem inHand (w : Work) (h : Option RxHold) : w.Steady (w.inHand h) := of_eq rfl

theorem settleHold (w : Work) : w.Steady w.settleHold := (inHand ..).trans (Quiet.giveRoom ..).steady

theorem redTake (w : Work) (q : Fin 8) (e : RedEarly) : w.Steady (w.redTake q e .ok) :=
  (((inHand ..).trans (redPacket ..)).trans (settleHold ..)).trans (inHand ..)

/-- The packets held back change alone. -/
theorem setHeld (w : Work) (l : List RedEarly) : w.Steady { w with red := { w.red with held := l } } := of_eq rfl
theorem setEarly (w : Work) (l : List RedEarly) : w.Steady { w with red := { w.red with early := l } } := of_eq rfl

theorem redUnholdUpTo (n : Nat) (w : Work) : w.Steady (Work.redUnholdUpTo n w .ok) := by
  induction n generalizing w with
  | zero => exact refl w
  | succ n ih =>
    have once := (setHeld w []).trans (foldl (f := fun w e => w.redTake (w.port e.port.val).part e .ok) (fun _ _ => redTake ..) w.red.held _)
    exact ite _ (once.trans (ih _)) once

theorem redUnhold (w : Work) : w.Steady (w.redUnhold .ok) := ite _ (refl w) (redUnholdUpTo ..)

theorem redReplay (w : Work) (q : Fin 8) (j k : BitVec 16) : w.Steady (w.redReplay q j k .ok) :=
  (setEarly ..).trans (foldl (fun _ _ => redTake ..) _ _)

/-! The instructions of a reduction (R136, R309-R311). -/

theorem effRedOpen (w : Work) (c : CtxId) (x : InFlight) : w.Steady (effRedOpen w c x .ok).w := by
  unfold Machine.effRedOpen
  refine withOp fun bs => ?_
  dsimp only
  refine eite _ (refl w) (withBound fun e => eite _ (refl w) ?_)
  have take (b : RedCtx) (q : Fin 8) (j k : BitVec 16) : w.Steady (((w.setRed j k (some b)).redReplay q j k .ok).redUnhold .ok) :=
    ((setRed ..).trans (redReplay ..)).trans (redUnhold ..)
  split
  · exact eite _ (refl w) (take ..)
  · exact eite _ (refl w) (eite _ (updRedEv ..) (eite _ (take ..) (refl w)))

theorem readTiles (q : Fin 8) (d : TensorDesc) (l : List Nat) (w : Work) : w.Steady (w.readTiles q d l .ok).2 := by
  have read (w : Work) (a n : Nat) : w.Steady (w.hbmRead q a n .ok).2 := hbmRead ..
  induction l generalizing w with
  | nil => exact refl w
  | cons t ts ih =>
    unfold Work.readTiles
    obtain ⟨T, hT⟩ : ∃ T, T = Work.hbmRead := ⟨_, rfl⟩
    rw [← hT] at read ⊢
    dsimp only
    rw [evAfter_ok, evAfter_ok]
    split
    · exact read ..
    · split
      · exact (read ..).trans (read ..)
      · split
        · exact ((read ..).trans (read ..)).trans (ih _)
        · exact ((read ..).trans (read ..)).trans (ih _)

theorem redDiscard (w : Work) (q : Fin 8) (j k : BitVec 16) (n : Nat) : w.Steady (w.redDiscard q j k n) := (updRedEv ..).trans (logEv ..)

theorem redContribute (w : Work) (c : CtxId) (x : InFlight) (k : BitVec 16) (b : RedCtx) (o : RedOwn) :
    w.Steady (w.redContribute c x k b o .ok) :=
  ite _ ((setRed ..).trans (redSendContrib ..)) (ite _ (redDrop ..) ((setRed ..).trans (redGo ..)))

theorem effRedContrib (w : Work) (c : CtxId) (x : InFlight) : w.Steady (effRedContrib w c x .ok).w := by
  have tiles (q : Fin 8) (d : TensorDesc) (l : List Nat) : w.Steady (w.readTiles q d l .ok).2 := readTiles ..
  unfold Machine.effRedContrib
  obtain ⟨T, hT⟩ : ∃ T, T = Work.readTiles := ⟨_, rfl⟩
  rw [← hT] at tiles ⊢
  dsimp only
  split
  · exact refl w
  next b _ =>
    refine eite _ (refl w) (eite _ (redDiscard ..) (eite _ (redDiscard ..) (eite _ (eite _ (refl w) (refl w)) (withOp fun d => ?_))))
    refine eite _ (refl w) (eite _ (refl w) ?_)
    rw [evAfter_ok]
    refine (tiles ..).trans (withOp fun o => ?_)
    exact (redContribute ..).trans (redUnhold ..)

theorem effRedClose (w : Work) (c : CtxId) (x : InFlight) : w.Steady (effRedClose w c x).w := by
  unfold Machine.effRedClose
  dsimp only
  split
  · exact refl w
  · exact eite _ (setRed ..) (setRed ..)

/-! Step commits (R134, R414, R421). -/

theorem checkCommit (w : Work) (n : Nat) (g : BitVec 16) : w.Steady (w.checkCommit n g) := by
  refine foldl (fun w e => ?_) _ w
  split
  · exact refl w
  · refine ite _ ?_ (refl w)
    have noted : w.Steady (if (w.commit e.1 e.2).firstSignal.isNone then
        w.updCommit e.1 e.2 fun c => { c with firstSignal := some w.frame } else w) := ite _ (updCommit ..) (refl w)
    exact ite _ (noted.trans (Quiet.decideStep ..).steady) noted

theorem home2Signal (w : Work) (q : Fin 8) (j g : BitVec 16) (k : Nat) : w.Steady (w.home2Signal q j g k) := by
  unfold Work.home2Signal
  split
  · exact refl w
  · dsimp only
    split
    · exact (updCommit ..).trans (ite _ ((updSluice ..).trans (checkCommit ..)) (refl _))
    · exact updCommit ..

theorem sendDeltas (w : Work) (q : Fin 8) (j : BitVec 16) (b : Job) (r : ResilSec) (sl : Fin 8) : w.Steady (w.sendDeltas q j b r sl) :=
  foldl (fun w _ => ite _ (foldl (fun _ _ => foldl (fun _ _ => sendPkt ..) _ _) _ w) (refl w)) _ w

theorem sendCommit (w : Work) (c : CtxId) (x : InFlight) (j : Job) : w.Steady (w.sendCommit c x j).w := by
  unfold Work.sendCommit
  extract_lets q job op here owner w0 w1 w2
  have h1 : w.Steady w1 := (updCommit ..).trans (ite _ (updSluice ..) (sluiceMsg ..))
  have h2 : w1.Steady w2 := by
    unfold w2
    split
    · exact refl _
    · exact ite _ (home2Signal ..) (sluiceMsg ..)
  exact eite _ (h1.trans h2) (h1.trans h2)

theorem effStepCommit (w : Work) (c : CtxId) (x : InFlight) : w.Steady (effStepCommit w c x).w := by
  unfold Machine.effStepCommit
  dsimp only
  refine withSluice (eite _ (refl w) ?_)
  split
  · exact refl w
  · refine eite _ (issueSluice ..) (eite _ (refl w) ?_)
    split
    · exact sendCommit ..
    · exact eite _ ((sendDeltas ..).trans (updCommit ..)) (eite _ (refl w) (sendCommit ..))

/-- Every instruction that meets nothing in memory. -/
theorem effect (o : KOp) (w : Work) (c : CtxId) (x : InFlight) : w.Steady (o.effect w c x .ok).w := by
  cases o
  case nop | beq | bne | blt | bge | bltu | rngSet => exact refl w
  case mmfBi8 | mmfBi4 | mmfBi16x8 | mmfBi16 | mmbxBi8 | mmbxBi4 | mmbxBi16x8 | mmbxBi16 | mmbwBi8 | mmbwBi4 | mmbwBi16x8 | mmbwBi16 =>
    exact effProduct ..
  case accZero | accZeroB => exact effAccZero ..
  case accDrain | accDrainB => exact effAccDrain ..
  case accMax | accMaxB | accMin | accMinB => exact effExtremum ..
  case vext => exact effVext ..
  case vld => exact effVld ..
  case vst => exact effVst ..
  case vtput => exact effVtput ..
  case vfn => exact effVfn ..
  case vcvt => exact effVcvt ..
  case vunpk => exact effVunpk ..
  case vstat => exact eite _ (startVstat ..) (setVreg ..)
  case vadd | vsub | vmul | vmulsh | vmax | vmin | vabs | vneg | vand | vor | vxor | vshl | vsra | vcmp | vsel | vbcast | vins | vtget
      | vredRow | vredCol | vrng | vnoise => exact putLanes ..
  case dmaGet => exact eite _ (startDmaGet ..) (effDmaGet ..)
  case dmaPut => exact effDmaPut ..
  case dmaCopy => exact effDmaCopy ..
  case dmaFill => exact effDmaFill ..
  case tLd => exact effTLd ..
  case tSt => exact effTSt ..
  case peatPush => exact effPeatPush ..
  case peatPop => exact effPeatPop ..
  case fabPut => exact effFabPut ..
  case fabGet => exact effFabGet ..
  case fabMcast => exact effFabMcast ..
  case slArm => exact effSlArm ..
  case slSig => exact effSlSig ..
  case slWait => exact effSlWait ..
  case lfWait => exact effLfWait ..
  case lfClr => exact effLfClr ..
  case frameEnd => exact effFrameEnd ..
  case ctxFence => exact effCtxFence ..
  case redOpen => exact effRedOpen ..
  case redContrib => exact effRedContrib ..
  case redClose => exact effRedClose ..
  case stepCommit => exact effStepCommit ..
  case sclPin => exact effSclPin ..
  case sLd => exact effSLd ..
  case sSt => exact effSSt ..
  case sSys => exact effSSys ..
  all_goals exact putS ..

end Work.Steady
end Sys2Proof.Machine
end

section
/-! Links that go down and start, and the removal of a tenant (R264-R275, R394). -/

namespace Sys2Proof.Machine

/-- Ports are no units of a control die (R18). -/
theorem portUnit_class : ∀ p : Fin 32, (portUnit p.val).toNat / 4096 ≠ 3 := by decide

/-- What a port leaves behind when it goes down: packets of transfers that had not begun (R275, R394). -/
theorem Work.Quiet.reroute (w : Work) (p : Fin 32) (x : Queued) (k : Bool) : w.Quiet (w.reroute p x k) := by
  unfold Work.reroute
  dsimp only
  split
  · exact transmit ..
  · exact ite _ (waitAt ..) (giveRoom ..)

theorem Work.Quiet.evacuate (w : Work) (p : Fin 32) (k : Bool) : w.Quiet (w.evacuate p k) :=
  (updPort _ _ _ (by exact rfl)).trans (foldl (fun _ _ => reroute ..) _ _)

theorem Work.Quiet.sendOrdered (w : Work) (p : Fin 32) (t : Byte) : w.Quiet (w.sendOrdered p t) := foldl (fun _ _ => emit ..) _ w

namespace Work.Steady

/-! Links. -/

section
variable (w : Work) (p : Fin 32)

theorem withdraw (c : CtxId) (i : Nat) : w.Steady (w.withdraw c i) := by
  unfold Work.withdraw
  dsimp only
  have trimmed (w : Work) (f : Port → Port) (l : List Nat) :
      w.Steady (l.foldl (fun w i => if (w.port i).txq.isEmpty && (w.port i).slotQ.isEmpty then w else w.updPort i f) w) :=
    foldl (fun w _ => ite _ (refl w) (updPort ..)) l w
  exact (Steady.trans (of_eq (by exact rfl)) (trimmed ..)).trans (remoteDone ..)

theorem abortUnsent : w.Steady (w.abortUnsent p) := foldl (fun w _ => ite _ (withdraw ..) (refl w)) _ w

theorem portEpoch : w.Steady (w.newEpoch (portUnit p.val)) := newEpoch w (portUnit_class p)

theorem portDown (st : Nat) : w.Steady (w.portDown p st) := by
  unfold Work.portDown
  dsimp only
  refine ite _ ?_ (updPort ..)
  exact ((Quiet.closeLine ..).steady.trans (abortUnsent ..)).trans
    (((updPort ..).trans (Quiet.evacuate ..).steady).trans (portEpoch ..))

theorem retrain (own : Bool) : w.Steady (w.retrain p own) := by
  unfold Work.retrain
  dsimp only
  refine ite _ ?_ (refl w)
  have told : w.Steady (if own then w.sendCtl p 0x06 [] else w) := ite _ (Quiet.sendCtl ..).steady (refl w)
  exact (told.trans (Quiet.closeLine ..).steady).trans ((updPort ..).trans ((Quiet.evacuate ..).steady.trans
    ((portEpoch ..).trans (Quiet.sendOrdered ..).steady)))

theorem darken : w.Steady (w.darken p) :=
  ite _ (updPort ..) (ite _ ((updPort ..).trans ((portDown ..).trans (logEv ..)))
    (ite _ (updPort ..) ((updPort ..).trans (retrain ..))))

theorem train (n : Nat) : w.Steady (w.train n) := (updPort ..).trans (Quiet.sendOrdered ..).steady

theorem portStart (n : Nat) : w.Steady (w.portStart n) :=
  ite _ ((updPort ..).trans (darken ..)) (ite _ (ite _ (updPort ..) ((updPort ..).trans (portDown ..)))
    (ite _ ((updPort ..).trans (train ..)) (updPort ..)))

end

/-! What an engine has started, and commands that end (R394). -/

section
variable (w : Work)

theorem completeStarted (c : CtxId) (x : InFlight) : w.Steady (w.completeStarted c x .ok) :=
  ite _ (refl w) (ite _ (fault ..) (conclude (effect ..) ..))

theorem finishEngines (c : CtxId) : w.Steady (w.finishEngines c) := by
  refine foldl (fun w x => ?_) _ w
  split
  · exact completeStarted ..
  · exact refl w

theorem abortTransfers (c : CtxId) : w.Steady (w.abortTransfers c) := foldl (fun _ _ => fault ..) _ w

theorem detach (r : CmdRef) : w.Steady (w.detach r) :=
  (Steady.trans (of_eq (by exact rfl)) (foldl (fun _ _ => updPart ..) _ _)).trans (foldl (fun _ _ => of_eq (by exact rfl)) _ _)

theorem abortCmds (f : Fn) (k : Nat) (t : CmdEnt → Bool) (st : Nat) : w.Steady (w.abortCmds f k t st) := by
  unfold Work.abortCmds
  split
  · exact refl w
  · exact foldl (fun _ _ => (detach ..).trans (Quiet.finish ..).steady) _ w

theorem endFnCmds (q : Fin 8) (t : CmdEnt → Bool) : w.Steady (w.endFnCmds q t) :=
  foldl (fun _ _ => foldl (fun _ _ => abortCmds ..) _ _) _ w

theorem endPartCmds (q : Fin 8) : w.Steady (w.endPartCmds q) := by
  refine Steady.trans (foldl (fun w c => ?_) _ w) (endFnCmds ..)
  split
  · exact ite _ ((detach ..).trans (Quiet.finish ..).steady) (refl w)
  · exact refl w

theorem fencePart (q : Fin 8) : w.Steady (w.fencePart q) :=
  (((endFnCmds ..).trans (foldl (fun _ _ => updCommit ..) _ _)).trans (foldl (fun _ _ => finishEngines ..) _ _)).trans
    (foldl (fun _ _ => abortTransfers ..) _ _)

theorem emptyPeats (q : Fin 8) : w.Steady (w.emptyPeats q) := foldl (fun _ _ => updPeat ..) _ w

theorem dropPart (q : Fin 8) : w.Steady (w.dropPart q) :=
  (foldl (fun _ _ => updCtx ..) _ _).trans (Steady.trans (of_eq (by exact rfl)) (emptyPeats ..))

theorem revokePort (e : Word) (p : Nat) : w.Steady (w.revokePort e p) :=
  (updPort ..).trans ((Quiet.sendCtl ..).steady.trans ((portDown ..).trans (updPort ..)))

theorem fnEvent (f : Fn) (b : Nat) : w.Steady (w.fnEvent f b) := ite _ (updFn ..) ((updFn ..).trans (emit ..))

theorem removalEvent : w.Steady w.removalEvent := foldl (fun _ _ => fnEvent ..) _ w

end
end Work.Steady
end Sys2Proof.Machine
end

section
/-! What a failover repeats: removals and a protection reboot (R343, R373, R394, R404, R473). -/

namespace Sys2Proof.Machine

/-! The removal of a tenant leaves the control dies, the Dyke and the fuses alone (R394). -/

/-- What a removal changes outside the device's work: the scrubs, the functions' interfaces, their sessions and their streams. -/
def Ctl.Removal (c c' : Ctl) : Prop := c' = { c with scrub := c'.scrub, tdisp := c'.tdisp, spdm := c'.spdm, ide := c'.ide }

namespace Ctl.Removal

theorem refl (c : Ctl) : c.Removal c := rfl

theorem trans {a b c : Ctl} (h1 : a.Removal b) (h2 : b.Removal c) : a.Removal c :=
  Eq.trans h2 (congrArg (fun x : Ctl => { x with scrub := c.scrub, tdisp := c.tdisp, spdm := c.spdm, ide := c.ide }) h1)

theorem foldl {α : Type} {f : Ctl → α → Ctl} (h : ∀ (c : Ctl) a, c.Removal (f c a)) (l : List α) (c : Ctl) : c.Removal (l.foldl f c) :=
  List.foldlRecOn l f (refl c) fun b hb a _ => hb.trans (h b a)

theorem revokeFns (c : Ctl) (l : List Fn) : c.Removal (c.revokeFns l) := by
  refine foldl (fun c f => ?_) l c
  dsimp only
  have stopped (l : List (Nat × IdeStream)) : c.Removal (l.foldl (fun (c : Ctl) e => c.streamStops e.1) c) :=
    foldl (f := fun (c : Ctl) e => c.streamStops e.1) (fun _ _ => by exact rfl) l c
  exact (stopped _).trans rfl

section
variable {c c' : Ctl} (h : c.Removal c')
include h

theorem dies : c'.dies = c.dies := (congrArg Ctl.dies h).trans rfl
theorem dyke : c'.dyke = c.dyke := (congrArg Ctl.dyke h).trans rfl
theorem fuse : c'.fuse = c.fuse := (congrArg Ctl.fuse h).trans rfl

end
end Ctl.Removal

/-- What removals do to a state. -/
structure State.Removes (s t : State) : Prop where
  work : s.w.Steady t.w
  ctl : s.ctl.Removal t.ctl

namespace State.Removes

theorem refl (s : State) : s.Removes s := ⟨.refl _, .refl _⟩
theorem trans {a b c : State} (h1 : a.Removes b) (h2 : b.Removes c) : a.Removes c := ⟨h1.work.trans h2.work, h1.ctl.trans h2.ctl⟩

theorem foldl {α : Type} {f : State → α → State} (h : ∀ (s : State) a, s.Removes (f s a)) (l : List α) (s : State) : s.Removes (l.foldl f s) :=
  List.foldlRecOn l f (refl s) fun b hb a _ => hb.trans (h b a)

theorem ite {s a b : State} (c : Prop) [Decidable c] (ha : s.Removes a) (hb : s.Removes b) : s.Removes (if c then a else b) := by
  split <;> assumption

theorem startScrubs (s : State) (q : Fin 8) (l : List Nat) : s.Removes (s.startScrubs q l) := ⟨.foldl (fun _ _ => .logEv ..) _ _, rfl⟩

theorem removeTenant (s : State) (q : Fin 8) (r : Option CmdRef) : s.Removes (s.removeTenant q r) := by
  refine trans ⟨?_, .revokeFns s.ctl (s.w.fnsOf q)⟩ (startScrubs ..)
  have dropped : s.w.Steady (((s.w.fencePart q).endPartCmds q).dropPart q) :=
    ((Work.Steady.fencePart ..).trans (.endPartCmds ..)).trans (.dropPart ..)
  exact (dropped.trans (.foldl (fun _ _ => .revokePort ..) _ _)).trans ((Work.Steady.updPart ..).trans (.removalEvent _))

theorem endRemoval (s : State) (q : Fin 8) : s.Removes (s.endRemoval q) := by
  refine ite _ ⟨?_, rfl⟩ (refl s)
  have told : s.w.Steady (s.w.updPart q fun x => { x with removal := 3, removeCmd := none }).removalEvent :=
    (Work.Steady.updPart ..).trans (.removalEvent _)
  rw [State.onW_w]
  dsimp only
  split
  · exact told.trans (Work.Quiet.finish ..).steady
  · exact told

theorem removeChanged (s : State) : s.Removes s.removeChanged :=
  foldl (fun s _ => ite _ (refl s) ((removeTenant ..).trans (endRemoval ..))) _ s

theorem repeatRemovals (s : State) : s.Removes s.repeatRemovals := foldl (fun _ _ => removeTenant ..) _ s

end State.Removes

/-! The boot stage that a protection reboot runs again (R343). -/

theorem mem_unitsUnder {u v : BitVec 16} (h : v ∈ unitsUnder u) : v.toNat / 256 = u.toNat / 256 := by
  rcases List.mem_cons.mp h with rfl | h
  · rfl
  · have kept := (List.mem_filter.mp h).2
    simp only [Bool.and_eq_true, decide_eq_true_eq] at kept
    exact kept.1.2

theorem sliceUnits_class : ∀ n : Fin 8, ∀ u ∈ sliceUnits n.val, u.toNat / 4096 ≠ 3 := by
  intro n u hu
  simp only [sliceUnits, stackUnit, List.mem_cons, List.not_mem_nil, or_false] at hu
  rcases hu with rfl | rfl | rfl | rfl
  all_goals
    rw [unitId, BitVec.toNat_ofNat]
    omega

namespace Work.Steady

theorem foldl_mem {α : Type} {f : Work → α → Work} {l : List α} (h : ∀ (w : Work), ∀ a ∈ l, w.Steady (f w a)) (w : Work) :
    w.Steady (l.foldl f w) := List.foldlRecOn l f (refl w) fun b hb a ha => hb.trans (h b a ha)

theorem newEpochs (w : Work) {u : BitVec 16} (h : u.toNat / 4096 ≠ 3) : w.Steady (w.newEpochs u) :=
  foldl_mem (fun _ v hv => newEpoch _ (by have := mem_unitsUnder hv; omega)) w

section
variable (w : Work)

theorem clearSlice (n : Nat) : w.Steady (w.clearSlice n) :=
  ((foldl (fun _ _ => updCore ..) _ w).trans (foldl (fun _ _ => updCtx ..) _ _)).trans (of_eq (by exact rfl))

theorem newTreeKey (n : Nat) : w.Steady (w.newTreeKey n) := Steady.trans (of_eq (by exact rfl)) (updSlice ..)

theorem placePart (b : List Byte) (q : Fin 8) : w.Steady (w.placePart b q) := Steady.trans (of_eq (by exact rfl)) (updPart ..)

theorem placeSlice (b : List Byte) (n : Fin 8) : w.Steady (w.placeSlice b n.val) := by
  unfold Work.placeSlice
  extract_lets q w1 w2
  have h1 : w.Steady w1 := (clearSlice ..).trans ((updSlice ..).trans (updSlice ..))
  have h2 : w1.Steady w2 := foldl (fun _ _ => updStack ..) _ w1
  exact ((h1.trans h2).trans (ite _ (newTreeKey ..) (refl _))).trans (foldl_mem (fun _ u hu => newEpochs _ (sliceUnits_class n u hu)) _)

theorem placePort (b : List Byte) (p : Nat) : w.Steady (w.placePort b p) :=
  ite _ ((updPort ..).trans (portStart ..)) ((updPort ..).trans (portDown ..))

theorem buildDyke (b : List Byte) (kept : Nat → Bool) (old : List Byte) : w.Steady (w.buildDyke b kept old) := by
  unfold Work.buildDyke
  extract_lets held w1 w2 w3
  have h1 : w.Steady w1 := foldl (fun _ _ => placePart ..) _ w
  have h2 : w1.Steady w2 := foldl_mem (fun w n hn => placeSlice w b ⟨n, List.mem_range.mp (List.mem_of_mem_filter hn)⟩) w1
  have h3 : w2.Steady w3 := foldl (fun _ _ => placePort ..) _ w2
  exact (h1.trans (h2.trans h3)).trans ⟨fun _ => rfl, rfl, rfl⟩

theorem noteHalt (x : XmssSt) : w.Steady (w.noteHalt x) := of_eq rfl

/-- The command that a protection reboot answers. -/
theorem endRebootCmd (st res : Nat) : w.Steady (match w.host.rebootCmd with
    | some r => ({ w with host := { w.host with rebootCmd := none } } : Work).finish r st res
    | none => w) := by
  split
  · exact Steady.trans (of_eq (by exact rfl)) (Quiet.finish ..).steady
  · exact refl w

end
end Work.Steady

/-- What a protection reboot, and the reports that waited for it, do not change. -/
structure State.Reboots (s t : State) : Prop where
  work : s.w.Steady t.w
  dies : t.ctl.dies = s.ctl.dies

namespace State.Reboots

theorem refl (s : State) : s.Reboots s := ⟨.refl _, rfl⟩
theorem trans {a b c : State} (h1 : a.Reboots b) (h2 : b.Reboots c) : a.Reboots c := ⟨h1.work.trans h2.work, h2.dies.trans h1.dies⟩

theorem foldl {α : Type} {f : State → α → State} (h : ∀ (s : State) a, s.Reboots (f s a)) (l : List α) (s : State) : s.Reboots (l.foldl f s) :=
  List.foldlRecOn l f (refl s) fun b hb a _ => hb.trans (h b a)

theorem ite {s a b : State} (c : Prop) [Decidable c] (ha : s.Reboots a) (hb : s.Reboots b) : s.Reboots (if c then a else b) := by
  split <;> assumption

theorem spdmError (s : State) (f : Fn) (c : Byte) : s.Reboots (s.spdmError f c) := ⟨.emit .., rfl⟩

theorem sendReport (s : State) (f : Fn) (q : Fin 8) (n : List Byte) : s.Reboots (s.sendReport f q n) :=
  ite _ (trans (b := { s with w := s.w.noteHalt s.ctl.xmss.reserved, ctl := { s.ctl with xmss := s.ctl.xmss.reserved } }) ⟨.noteHalt .., rfl⟩
    (spdmError ..)) ⟨.emit .., rfl⟩

theorem giveReport (s : State) (f : Fn) (n : List Byte) (b : Byte) : s.Reboots (s.giveReport f n b) := by
  unfold State.giveReport
  split
  · exact spdmError ..
  · exact ite _ (spdmError ..) (sendReport ..)

theorem answerReports (s : State) : s.Reboots s.answerReports :=
  trans (b := s.onCtl fun c => { c with dyke := { c.dyke with reports := [] } }) ⟨.refl _, rfl⟩
    (foldl (f := fun (s : State) (r : Nat × List Byte × Byte) => s.giveReport (fnOfKey r.1) r.2.1 r.2.2) (fun _ _ => giveReport ..) _ _)

theorem endReboot (s : State) : s.Reboots s.endReboot := by
  unfold State.endReboot
  split
  · dsimp only
    refine trans ⟨(Work.Steady.buildDyke s.w _ _ _).trans (.endRebootCmd ..), ?_⟩ (answerReports _)
    dsimp only
    split <;> rfl
  · exact refl s

theorem repeatReboot (s : State) : s.Reboots s.repeatReboot := by
  unfold State.repeatReboot
  split
  · dsimp only
    split
    · have gone := Removes.removeChanged s
      exact trans ⟨gone.work, gone.ctl.dies⟩ (endReboot _)
    · exact ⟨.endRebootCmd .., rfl⟩
  · exact refl s

end State.Reboots

end Sys2Proof.Machine
end

section
/-! A failover of the control dies (R20, R412, R471-R473). -/

namespace Sys2Proof.Machine

/-! ENROL and RESET that run at a failover (R412, R473). -/

/-- A command has one opcode. -/
theorem Work.startCmd_eq_none {w : Work} {r : CmdRef} {a b : Nat} {e : BitVec 512} (h : w.startCmd r a = some e) (hab : a ≠ b) :
    w.startCmd r b = none := by
  unfold Work.startCmd at h ⊢
  split at h
  next may =>
    rw [if_pos may]
    cases hc : w.cmd r with
    | none => rfl
    | some c =>
      rw [hc, Option.bind_some] at h
      rw [Option.bind_some]
      split at h
      next ha => exact if_neg (ha ▸ hab)
      next => cases h
  next => cases h

section
variable {s : State} {m : MissIn} {r : CmdRef} {e : BitVec 512} (hr : m.running = some r)
include hr

/-- A RESET, or an ENROL that has burned nothing, ends with 0x0364. -/
theorem State.interrupt_ends (h : s.w.startCmd r 0x54 = some e ∨ (s.w.startCmd r 0x51 = some e ∧ m.burned = none)) :
    s.interrupt m = { s with w := s.w.finish r 0x364 0 } := by
  unfold State.interrupt
  rw [hr]
  dsimp only
  rcases h with h | ⟨h, hb⟩
  · rw [if_neg (by rw [Work.startCmd_eq_none h (by decide)]; decide), if_pos (by rw [h]; rfl)]
    rfl
  · rw [if_pos (by rw [h]; rfl), hb]
    rfl

/-- An ENROL that has burned its slot has enrolled the operator. -/
theorem State.interrupt_burned {key : List Byte} (h : s.w.startCmd r 0x51 = some e) (hb : m.burned = some key)
    (ho : s.ctl.fuse.operator = none) :
    s.interrupt m = { s with
      w := (s.w.logSec 0xFF 1 0).finish r 0x364 0
      ctl := { s.ctl with
        fuse := { s.ctl.fuse with operator := some (shake256 (key.take 64) 32) }, dyke := { s.ctl.dyke with enrolled := true } } } := by
  unfold State.interrupt
  rw [hr]
  dsimp only
  rw [if_pos (by rw [h]; rfl), hb]
  dsimp only
  rw [ho]
  exact if_pos rfl

end

/-- What the end of a command at a failover leaves alone. -/
structure State.Interrupts (s t : State) : Prop where
  epochs : t.w.epochs = s.w.epochs
  parts : t.w.parts = s.w.parts
  dies : t.ctl.dies = s.ctl.dies
  rebooting : t.ctl.dyke.rebooting = s.ctl.dyke.rebooting

theorem State.Interrupts.refl (s : State) : s.Interrupts s := ⟨rfl, rfl, rfl, rfl⟩

theorem State.interrupts (s : State) (m : MissIn) : s.Interrupts (s.interrupt m) := by
  have ends (r : CmdRef) : s.Interrupts (s.onW fun w => w.finish r 0x364 0) :=
    ⟨(Work.Quiet.finish ..).epochs, (Work.Quiet.finish ..).parts, rfl, rfl⟩
  unfold State.interrupt
  split
  · exact .refl s
  next r _ =>
    dsimp only
    split
    · split
      · split
        · exact ⟨(Work.Quiet.finish ..).epochs, (Work.Quiet.finish ..).parts, rfl, rfl⟩
        · exact ends r
      · exact ends r
    · split
      · exact ends r
      · exact .refl s

/-! The standby takes over (R20, R471). -/

/-- The standby is active, under a new epoch of the failed die and with a fresh block of leaf indices. -/
def State.takesOver (s : State) : State :=
  { s with
    w := ((s.w.newEpoch (bootUnit s.ctl.dies.active)).logEv (bootUnit s.ctl.dies.other) 0x0882 3 0xFF
      (s.ctl.dies.active.val + 40 * 2 ^ 16)).noteHalt s.ctl.xmss.freshBlock
    ctl := { s.ctl with
      dies := { active := s.ctl.dies.other, failovers := satAdd s.ctl.dies.failovers 1, standbyReady := false, otherHeld := true }
      xmss := s.ctl.xmss.freshBlock } }

theorem State.failover_eq (s : State) : s.failover = s.takesOver.repeatRemovals.repeatReboot := rfl

theorem State.failover_dies (s : State) : s.failover.ctl.dies =
    { active := s.ctl.dies.other, failovers := satAdd s.ctl.dies.failovers 1, standbyReady := false, otherHeld := true } :=
  (Reboots.repeatReboot _).dies.trans (Removes.repeatRemovals s.takesOver).ctl.dies

theorem State.failover_epoch (s : State) :
    s.failover.w.epochOf (bootUnit s.ctl.dies.active) = s.w.epochOf (bootUnit s.ctl.dies.active) + 1 := by
  have kept := (Removes.repeatRemovals s.takesOver).work.trans (Reboots.repeatReboot _).work
  exact (kept.die s.ctl.dies.active).trans (s.w.epochOf_newEpoch_same (bootUnit s.ctl.dies.active))

theorem State.repeatRemovals_none {s : State} (h : ∀ q, (s.w.part q).removal ≠ 2) : s.repeatRemovals = s := by
  unfold State.repeatRemovals
  rw [List.filter_eq_nil_iff.mpr fun q _ => by simpa using h q]
  rfl

theorem State.failover_idle {s : State} (hb : s.ctl.dyke.rebooting = false) (hr : ∀ q, (s.w.part q).removal ≠ 2) : s.failover = s.takesOver := by
  have none_ : s.takesOver.repeatRemovals = s.takesOver := repeatRemovals_none hr
  have idle : s.takesOver.ctl.dyke.rebooting = false := hb
  rw [failover_eq, none_, State.repeatReboot, if_neg (by simp [idle])]

/-- The verification of a manifest asks neither which die is active nor how far the leaf indices are (R343). -/
theorem Ctl.manCause_dies (c : Ctl) (d : DieSt) (x : XmssSt) (b : List Byte) : ({ c with dies := d, xmss := x } : Ctl).manCause b = c.manCause b :=
  rfl

theorem State.takesOver_kept (s : State) :
    s.takesOver.ctl = { s.ctl with dies := s.takesOver.ctl.dies, xmss := s.ctl.xmss.freshBlock } ∧
      s.takesOver.w.ctxs = s.w.ctxs ∧ s.takesOver.w.host.queues = s.w.host.queues := ⟨rfl, rfl, rfl⟩

/-- A manifest that no longer verifies ends the reboot (R343). -/
theorem State.failover_refused {s : State} (hb : s.ctl.dyke.rebooting = true) (hc : s.ctl.manCause s.ctl.dyke.next ≠ 0) :
    s.failover.ctl.dyke = { s.ctl.dyke with rebooting := false, next := [] } ∧ s.failover.ctl.boot.phase = 4 := by
  have kept := (Removes.repeatRemovals s.takesOver).ctl
  have hdyke : s.takesOver.repeatRemovals.ctl.dyke = s.ctl.dyke := kept.dyke
  have hfuse : s.takesOver.repeatRemovals.ctl.fuse = s.ctl.fuse := kept.fuse
  have cause : s.takesOver.repeatRemovals.ctl.manCause s.ctl.dyke.next ≠ 0 := by
    unfold Ctl.manCause at hc ⊢
    rw [hdyke, hfuse]
    exact hc
  rw [failover_eq]
  generalize s.takesOver.repeatRemovals = t at hdyke cause
  unfold State.repeatReboot
  rw [hdyke, if_pos hb]
  dsimp only
  rw [if_neg cause]
  exact ⟨rfl, rfl⟩

/-- A heartbeat that a die misses (R471): one die is left, the standby is lost, or it takes over. -/
theorem exec_heartbeatMiss (f : Bool) (m : MissIn) (b : BootIn) (s : State) : exec (.heartbeatMiss f m b) s = .next (
    if s.ctl.dies.otherHeld then s
    else if m.lost ≠ .active then s.loseStandby
    else if s.ctl.dies.standbyReady then (s.interrupt m).failover
    else s.alertReset b) := rfl

end Sys2Proof.Machine
end

section
/-! O44: the loss and return of FREFCLK, and the obligation about clocks and dies (R20, R290-R292, R471-R473, R524, R525). -/

namespace Sys2Proof.Machine

/-! Ports that go down (R264, R275). -/

/-- No port's link changes beyond its traffic. -/
structure Work.Carries (w w' : Work) : Prop where
  port : ∀ k, (w.port k).Traffic (w'.port k)

theorem Work.Quiet.carries {w w' : Work} (h : w.Quiet w') : w.Carries w' := ⟨h.port⟩
theorem Work.Stops.carries {w w' : Work} (h : w.Stops w') : w.Carries w' := ⟨h.port⟩

namespace Work.Carries

theorem refl (w : Work) : w.Carries w := ⟨fun _ => .refl _⟩
theorem trans {a b c : Work} (h1 : a.Carries b) (h2 : b.Carries c) : a.Carries c := ⟨fun k => (h1.port k).trans (h2.port k)⟩

theorem foldl {α : Type} {f : Work → α → Work} (h : ∀ (w : Work) a, w.Carries (f w a)) (l : List α) (w : Work) : w.Carries (l.foldl f w) :=
  List.foldlRecOn l f (refl w) fun b hb a _ => hb.trans (h b a)

theorem ite {w a b : Work} (c : Prop) [Decidable c] (ha : w.Carries a) (hb : w.Carries b) : w.Carries (if c then a else b) := by
  split <;> assumption

theorem of_ports {w w' : Work} (h : w'.fab.ports = w.fab.ports) : w.Carries w' := ⟨fun k => by
  unfold Work.port
  rw [h]
  exact .refl _⟩

theorem retire (w : Work) (c : CtxId) (x : InFlight) (f : Option (Fin 16)) : w.Carries (w.retire c x f) := of_ports rfl

theorem remoteDone (w : Work) (c : CtxId) (i : Nat) (s : Byte) : w.Carries (w.remoteDone c i s) := by
  unfold Work.remoteDone
  split
  · exact refl w
  · have forgotten : w.Carries (w.forgetRemote c i) := of_ports rfl
    exact ite _ (refl w) (ite _ (forgotten.trans (Stops.fault ..).carries) (ite _ (retire ..) (refl w)))

theorem withdraw (w : Work) (c : CtxId) (i : Nat) : w.Carries (w.withdraw c i) := by
  unfold Work.withdraw
  dsimp only
  refine trans ?_ (remoteDone ..)
  exact trans (of_ports (by exact rfl)) (foldl (fun w _ => ite _ (refl w) (Quiet.updPort _ _ _ (by exact rfl)).carries) _ _)

theorem abortUnsent (w : Work) (p : Fin 32) : w.Carries (w.abortUnsent p) := foldl (fun w _ => ite _ (withdraw ..) (refl w)) _ w

end Work.Carries

/-- What a port has of its link: its state and its key. -/
def Work.link (w : Work) (k : Fin 32) : Nat × Option (List Byte) := ((w.port k.val).st, (w.port k.val).linkKey)

theorem Work.Carries.link {w w' : Work} (h : w.Carries w') (k : Fin 32) : w'.link k = w.link k :=
  Prod.ext ((congrArg Port.st (h.port k.val)).trans rfl) ((congrArg Port.linkKey (h.port k.val)).trans rfl)

theorem Work.link_newEpoch (w : Work) (u : BitVec 16) (k : Fin 32) : (w.newEpoch u).link k = w.link k := rfl

theorem Work.link_portDown_same (w : Work) (p : Fin 32) (st : Nat) : (w.portDown p st).link p = (st, none) := by
  unfold Work.portDown
  dsimp only
  split
  · rw [link_newEpoch, Carries.link (Quiet.evacuate ..).carries]
    unfold Work.link
    rw [Work.port_updPort_same]
    rfl
  · unfold Work.link
    rw [Work.port_updPort_same]
    rfl

theorem Work.link_portDown_other (w : Work) {p k : Fin 32} (st : Nat) (h : k ≠ p) : (w.portDown p st).link k = w.link k := by
  have other (w : Work) (f : Port → Port) : (w.updPort p.val f).link k = w.link k := by
    unfold Work.link
    rw [Work.port_updPort_other _ _ fun e => h (Fin.ext e)]
  unfold Work.portDown
  dsimp only
  split
  · rw [link_newEpoch, Carries.link (Quiet.evacuate ..).carries, other]
    exact Carries.link ((Quiet.closeLine ..).carries.trans (.abortUnsent ..)) k
  · exact other ..

theorem portFin_val (p : Fin 32) : portFin p.val = p := Fin.ext (Nat.mod_eq_of_lt p.isLt)

/-- A fold over the ports by number. -/
theorem foldl_ports {σ : Type} (f : σ → Fin 32 → σ) (s : σ) :
    (List.range 32).foldl (fun s p => f s (portFin p)) s = (List.finRange 32).foldl f s := by
  rw [← List.map_coe_finRange_eq_range, List.foldl_map]
  simp only [portFin_val]

/-- Every port goes down. -/
def Work.allDown (w : Work) : Work := (List.range 32).foldl (fun (w : Work) p => w.portDown (portFin p) 0) w

theorem Work.Steady.allDown (w : Work) : w.Steady w.allDown := foldl (fun _ _ => portDown ..) _ w

theorem Work.link_allDown (w : Work) (k : Fin 32) : w.allDown.link k = (0, none) := by
  have down : w.allDown = (List.finRange 32).foldl (fun w p => w.portDown p 0) w := foldl_ports (fun (w : Work) p => w.portDown p 0) w
  rw [down, get_foldl_once (get := Work.link) (f := fun _ _ => (0, none)) (fun w p => w.link_portDown_same p 0)
    (fun w _ _ h => w.link_portDown_other 0 h) (List.nodup_finRange 32), if_pos (List.mem_finRange k)]

/-! The clock that stops and runs again (R525). -/

theorem Work.loseClock_eq (w : Work) (u : BitVec 16) : ∃ t l, t.st = (if w.time.st = 1 then 2 else w.time.st) ∧ w.loseClock u =
    { w.allDown with
      inReset := clockUnits ++ w.allDown.inReset.filter fun u => !clockUnits.contains u, time := t, log := l } := by
  have lock : w.allDown.time.st = w.time.st := (Work.Steady.allDown w).lock
  obtain ⟨d, hd⟩ : ∃ d, d = w.allDown := ⟨_, rfl⟩
  rw [← hd] at lock ⊢
  unfold Work.allDown at hd
  unfold Work.loseClock
  rw [← hd, ← lock]
  unfold Work.elect
  dsimp only
  split
  · split <;> exact ⟨_, _, rfl, rfl⟩
  · exact ⟨_, _, rfl, rfl⟩

theorem mem_clockUnits {k : Nat} (h : k < 32) : portUnit k ∈ clockUnits := List.mem_map_of_mem (List.mem_range.mpr h)

/-- A port that is not held for another reason leaves reset with the clock. -/
theorem Work.isDown_clockBack {w : Work} {k : Nat} (hk : k < 32) (hf : w.isFenced (portUnit k) = false) (ht : portUnit k ∉ w.testFailed)
    (u : BitVec 16) (l : Bool) : (w.clockBack u l).isDown (portUnit k) = false := by
  unfold Work.clockBack
  extract_lets stays dies ports w1 w2
  have leaves : w1.isDown (portUnit k) = false := by
    rw [Work.isDown, List.contains_eq_mem, decide_eq_false_iff_not]
    intro h
    obtain ⟨down, kept⟩ := List.mem_filter.mp h
    have free : stays (portUnit k) = false := by simp [stays, hf, ht]
    have listed : portUnit k ∈ ports := List.mem_filter.mpr ⟨mem_clockUnits hk, by simp [Work.isDown, down, free]⟩
    simp [listed] at kept
  have epochs : w2.inReset = w1.inReset := foldl_kept (get := Work.inReset) (by intros; rfl) w1
  have started : ((List.range 32).foldl (fun (w : Work) p => w.portStart p) w2).inReset = w2.inReset :=
    (Work.Steady.foldl (fun _ _ => .portStart ..) _ w2).inReset
  have same := started.trans epochs
  generalize (List.range 32).foldl (fun (w : Work) p => w.portStart p) w2 = w3 at same
  unfold Work.isDown at leaves ⊢
  rw [← leaves, ← same]
  rfl

end Sys2Proof.Machine
end

section
/-! O44: clocks and control dies (R20, R290-R292, R303, R412, R471-R473, R524, R525). -/

namespace Sys2Proof.Machine

/-- A probe is answered with the port's clock, and its candidate is noted (R290). -/
theorem Work.probe_answer {w : Work} {p : Fin 32} (m : ProbeMsg) (h : (w.port p.val).isActive = true) :
    ((w.takeProbe p m).port p.val).heard = m.candidate ∧ ((w.takeProbe p m).port p.val).heardAt = w.time.ftime ∧
      ctlSent p 0x05 (replyArgs m.t1 (w.stamp m.frac) (w.stamp m.frac)) (w.takeProbe p m).out := by
  obtain ⟨t, l, e⟩ := Work.takeProbe_eq m h
  rw [e]
  have sent (w : Work) (a : List Byte) : w.Quiet (w.sendCtl p 0x05 a) := .sendCtl ..
  refine ⟨?_, ?_, ctlSent_sendCtl ..⟩
  · refine (Quiet.port_heard (sent ..) p.val).trans ?_
    rw [Work.port_updPort_same]
  · refine (Quiet.port_heardAt (sent ..) p.val).trans ?_
    rw [Work.port_updPort_same]

/-- A probe that leaves carries the port's clock and an announced change of P (R290, R293). -/
theorem Work.probe_asked {w : Work} {p : Fin 32} (h : (w.port p.val).isActive = true) :
    ((w.sendProbe p).port p.val).probeSent = some (BitVec.ofNat 64 (w.time.ftime.toNat * 256)) ∧
      ∃ cand, ctlSent p 0x04 (probeArgs (BitVec.ofNat 64 (w.time.ftime.toNat * 256)) cand
        (if w.time.nextPeriod = 0 then none else some (w.time.nextPeriod, w.time.changeAt)) w.time.period) (w.sendProbe p).out := by
  rw [Work.sendProbe_active h]
  refine ⟨?_, _, ctlSent_sendCtl ..⟩
  refine (Quiet.port_probeSent (.sendCtl ..) p.val).trans ?_
  rw [Work.port_updPort_same]

/-- What a failover comes to (R20, R412, R471-R473). -/
theorem failover_results {s : State} {mi : MissIn} (f : Bool) (boot : BootIn) (hh : s.ctl.dies.otherHeld = false)
    (hready : s.ctl.dies.standbyReady = true) (hl : mi.lost = .active) :
    let d := s.ctl.dies
    let u := s.interrupt mi
    ∃ t, exec (.heartbeatMiss f mi boot) s = .next t ∧
      t.ctl.dies = { active := d.other, failovers := satAdd d.failovers 1, standbyReady := false, otherHeld := true } ∧
      (s.ctl.dyke.rebooting = false → (∀ q, (s.w.part q).removal ≠ 2) → t.ctl = { u.ctl with dies := t.ctl.dies, xmss := u.ctl.xmss.freshBlock } ∧
        t.w.ctxs = u.w.ctxs ∧ t.w.host.queues = u.w.host.queues) ∧
      (s.ctl.dyke.rebooting = true →
        let c := ({ u.ctl with dies := t.ctl.dies, xmss := u.ctl.xmss.freshBlock } : Ctl).manCause u.ctl.dyke.next
        c ≠ 0 → t.ctl.dyke = { u.ctl.dyke with rebooting := false, next := [] } ∧ t.ctl.boot.phase = 4) ∧
      t.w.epochs.get 0 (unitId 3 d.active.val 0xFF).toNat = s.w.epochs.get 0 (unitId 3 d.active.val 0xFF).toNat + 1 := by
  intro d u
  have same : s.Interrupts u := State.interrupts s mi
  have parts (q : Fin 8) : u.w.part q = s.w.part q := by unfold Work.part; rw [same.parts]
  refine ⟨u.failover, ?_, ?_, fun hb hr => ?_, fun hb => ?_, ?_⟩
  · rw [exec_heartbeatMiss, if_neg (by simp [hh]), if_neg (by simp [hl]), if_pos hready]
  · rw [State.failover_dies, same.dies]
  · rw [State.failover_idle (same.rebooting.trans hb) fun q => by rw [parts]; exact hr q]
    exact State.takesOver_kept u
  · dsimp only
    rw [Ctl.manCause_dies]
    exact State.failover_refused (same.rebooting.trans hb)
  · have epoch := u.failover_epoch
    unfold Work.epochOf bootUnit at epoch
    rw [same.dies, same.epochs] at epoch
    exact epoch

/-- Settles O44: a failover and the loss and return of the clock run many operations, none of which changes the control dies' epochs, the
units in reset or the lock beyond what they set themselves. -/
theorem clockAndDieResults : Obligations.ClockAndDieResults := by
  intro p r m t1 t2 t3 fr n boot s
  dsimp only
  refine ⟨fun hf => ?loss, fun hf => ?restored, rfl, fun hh hready f mi hl => failover_results f boot hh hready hl, fun mi => ?interrupted,
    fun hh f mi hl => ?standby, fun hh f mi => ?alone, rfl, rfl, fun hr ht => ?edge, fun hs hr => ?holdover, fun hg ha => ?probed,
    fun ha => ?asked, fun hg ha hs => ?answered, fun hg ha => ?closed, fun ha => ?quiet⟩
  case loss =>
    obtain ⟨t, l, hst, e⟩ := s.w.loseClock_eq (bootUnit s.ctl.dies.active)
    refine ⟨(s.onW fun w => w.loseClock (bootUnit s.ctl.dies.active)).setPins fun p => { p with frefclk := false, lostInOp := true },
      ?_, rfl, ?_, fun k hk => ?_⟩
    · show Host.Outcome.next (if _ then _ else _) = _
      rw [if_pos hf]
    · rw [← hst]
      exact congrArg (fun w : Work => w.time.st) e
    · have link := s.w.link_allDown ⟨k, hk⟩
      generalize s.w.allDown = d at e link
      have port : (s.w.loseClock (bootUnit s.ctl.dies.active)).port k = d.port k := by rw [e]; rfl
      have down : (s.w.loseClock (bootUnit s.ctl.dies.active)).isDown (portUnit k) = true := by
        rw [e, Work.isDown, List.contains_eq_mem, decide_eq_true_eq]
        exact List.mem_append_left _ (mem_clockUnits hk)
      exact ⟨(congrArg Port.st port).trans (congrArg Prod.fst link), (congrArg Port.linkKey port).trans (congrArg Prod.snd link), down⟩
  case restored =>
    refine ⟨(s.onW fun w => w.clockBack (bootUnit s.ctl.dies.active) s.ctl.pins.lostInOp).setPins fun p =>
      { p with frefclk := true, lostInOp := false }, ?_, rfl, fun k hk hfree ht => Work.isDown_clockBack hk hfree ht _ _⟩
    show Host.Outcome.next (if _ then _ else _) = _
    rw [if_neg (by simp [hf])]
  case interrupted =>
    refine ⟨fun h => ?_, fun r e hr => ⟨State.interrupt_ends hr, fun key h hb ho => State.interrupt_burned hr h hb ho⟩⟩
    rw [State.interrupt, h]
  case standby => exact ⟨s.loseStandby, by rw [exec_heartbeatMiss, if_neg (by simp [hh]), if_pos hl], rfl⟩
  case alone => rw [exec_heartbeatMiss, if_pos hh]
  case edge =>
    have moved : s.w.advance n = some { s.w with time := { s.w.time with ftime := s.w.time.ftime + BitVec.ofNat 64 n } } := if_pos ht
    have edge := Work.ppsEdge_eq (w := { s.w with time := { s.w.time with ftime := s.w.time.ftime + BitVec.ofNat 64 n } }) hr
    obtain ⟨slews, jumps, first⟩ := edge
    have runs : exec (.sitePpsEdge n) s = .next { s with
        w := ({ s.w with time := { s.w.time with ftime := s.w.time.ftime + BitVec.ofNat 64 n } } : Work).ppsEdge } := by
      show Host.Outcome.next (match s.w.advance n with | some w => { s with w := w.ppsEdge } | none => s) = _
      rw [moved]
    rw [runs]
    refine ⟨fun hp => ?_, fun hp hs => ?_, fun hp hs => ?_⟩
    · rw [slews hp]
    · rw [jumps hp hs]
    · rw [first hp hs]; rfl
  case holdover =>
    have runs : exec .holdover s = .next { s with w := s.w.holdover } := rfl
    have time := s.w.time_unhearAll
    have ports := fun k (hk : k < 32) => s.w.port_unhearAll hk
    rw [runs, Work.holdover_eq hs hr]
    generalize s.w.unhearAll = d at time ports
    exact ⟨_, rfl, by rw [time], ports⟩
  case probed =>
    obtain ⟨heard, heardAt, sent⟩ := Work.probe_answer m ha
    refine ⟨s.onW fun w => (w.ctlHead r).takeProbe r.port m, ?_, rfl, heard, ?_, ?_⟩
    · show Host.Outcome.next (s.onW fun w => w.takeCtl r fun w => w.takeProbe r.port m) = _
      rw [State.onW, Work.takeCtl_good hg]
      rfl
    · rw [← Work.time_ctlHead s.w r]; exact heardAt
    · rw [← Work.time_ctlHead s.w r]; exact sent
  case asked =>
    obtain ⟨sentAt, cand, sent⟩ := Work.probe_asked ha
    exact ⟨s.onW fun w => w.sendProbe p, cand, rfl, rfl, sentAt, sent⟩
  case answered =>
    obtain ⟨steers, kept⟩ := Work.takeReply_eq t2 t3 fr ha hs
    have runs : exec (.probeReply r t1 t2 t3 fr) s = .next { s with w := (s.w.ctlHead r).takeReply r.port t1 t2 t3 fr } := by
      show Host.Outcome.next (s.onW fun w => w.takeCtl r fun w => w.takeReply r.port t1 t2 t3 fr) = _
      rw [State.onW, Work.takeCtl_good hg]
    rw [runs]
    refine ⟨fun hr hu hh => ?_, fun hk => ?_⟩
    · rw [steers hr hu hh]; rfl
    · rw [kept hk]; rfl
  case closed =>
    constructor
    · show Host.Outcome.next (s.onW fun w => w.takeCtl r fun w => w.takeProbe r.port m) = _
      rw [State.onW, Work.takeCtl_good hg, Work.takeProbe_inactive m ha]
    · show Host.Outcome.next (s.onW fun w => w.takeCtl r fun w => w.takeReply r.port t1 t2 t3 fr) = _
      rw [State.onW, Work.takeCtl_good hg, Work.takeReply_inactive t1 t2 t3 fr ha]
  case quiet =>
    show Host.Outcome.next (s.onW fun w => w.sendProbe p) = _
    rw [State.onW, Work.sendProbe_inactive ha]

end Sys2Proof.Machine
end

section
/-! An engine's instruction that a ready context issues (R83, R84): what it finds when it has its effect, and what its effect comes to. -/

namespace Sys2Proof.Machine

/-- An instruction that acts at its completion, and is no product, finds the state of its dispatch. -/
theorem Work.takes_engaged {w : Work} {c : CtxId} (h : w.ready c) {op : KOp} (f : Fields) (hq : op.queue ≠ .C) (ha : op.actsAtStart = false)
    (hp : op.isProduct = false) : w.Takes c (w.capture c op f).start (w.engaged c op f) := by
  refine ⟨w.engaged_eq c op f, fun e => w.engaged_ctx_other op f, fun e => w.engaged_core_other op f, ?_, ?_⟩
  · rw [← w.startInstr_eq c op f hp]
    exact Work.engaged_ctx_engine h op f hq ha
  · rw [w.engaged_core c op f hq]
    exact (if_neg hq).symm

/-- An engine's instruction whose effect is done has completed in the step that issued it. -/
theorem completed_of {s : State} {c : CtxId} (h : s.w.ready c) {op : KOp} {f : Fields} {ev : MemEvent} {E : Work → Work}
    (hf : (s.w.ctx c).operandFault op f = none) (hq : op.queue ≠ .C) (ha : op.actsAtStart = false) (hp : op.isProduct = false)
    (he : ∀ w1, s.w.Takes c (s.w.capture c op f).start w1 → op.effect w1 c (s.w.capture c op f).start ev = .done (E w1)) :
    Completed s (.next (s.onW fun w => w.issue c op f (.start ev))) c (s.w.capture c op f).start E := by
  have taken := Work.takes_engaged h f hq ha hp
  have effect := he _ taken
  refine ⟨_, taken, ?_⟩
  rw [← s.w.startInstr_eq c op f hp] at effect ⊢
  rw [State.onW, Work.engine_done h op f ev hf hq ha _ effect]

/-- An engine's instruction whose effect is to stand for an event on the device stands in the step that issued it. -/
theorem stands_of {s : State} {c : CtxId} (h : s.w.ready c) {op : KOp} {f : Fields} {ev : MemEvent} {st : IStat} {E : Work → Work}
    (hf : (s.w.ctx c).operandFault op f = none) (hq : op.queue ≠ .C) (ha : op.actsAtStart = false) (hp : op.isProduct = false)
    (hst : st ≠ .remote)
    (he : ∀ w1, s.w.Takes c (s.w.capture c op f).start w1 → op.effect w1 c (s.w.capture c op f).start ev = .stand (E w1) st) :
    Stands s (.next (s.onW fun w => w.issue c op f (.start ev))) c (s.w.capture c op f).start st E := by
  have taken := Work.takes_engaged h f hq ha hp
  refine ⟨_, taken, ?_⟩
  rw [State.onW, Work.issue_ready h op f ev hf ha, s.w.startInstr_eq c op f hp, he _ taken]
  simp [Effect.conclude, Effect.stand, hst]

/-- Such an instruction, where it changes no context and its own core alone. -/
theorem engineDone_of {s : State} {c : CtxId} (h : s.w.ready c) {op : KOp} {f : Fields} {ev : MemEvent} {E : Work → Work} {P : State → Prop}
    (hf : (s.w.ctx c).operandFault op f = none) (hq : op.queue ≠ .C) (ha : op.actsAtStart = false) (hp : op.isProduct = false)
    (he : ∀ w1, s.w.Takes c (s.w.capture c op f).start w1 → op.effect w1 c (s.w.capture c op f).start ev = .done (E w1))
    (hctx : ∀ w1 d, (E w1).ctx d = w1.ctx d) (hcore : ∀ w1 d, coreKey d ≠ coreKey c → (E w1).core d = w1.core d)
    (hP : ∀ w1, s.w.Takes c (s.w.capture c op f).start w1 →
      P { s with w := (E w1).retire c (s.w.capture c op f).start (s.w.capture c op f).start.flag }) :
    EngineDone s (.next (s.onW fun w => w.issue c op f (.start ev))) c f (s.w.ctx c) P := by
  obtain ⟨w1, t, ho⟩ := completed_of h hf hq ha hp he
  obtain ⟨-, ctxs, cores, ctx, -⟩ := id t
  refine ⟨_, ho, ⟨rfl, rfl, fun d hd => ?_, fun d hd => ?_⟩, ?_, hP w1 t⟩
  · rw [Work.retire_ctx_other _ _ _ hd, hctx, ctxs d hd]
  · rw [Work.core_retire, hcore w1 d hd, cores d hd]
  · exact Work.retire_ran hq (Work.ready_infl h) ((hctx w1 c).trans ctx)

namespace Work.Takes

variable {w w1 : Work} {c : CtxId} {x : InFlight} (t : w.Takes c x w1)
include t

/-! Beside contexts and cores, everything is as it was. -/

theorem clusters : w1.clusters = w.clusters := (congrArg Work.clusters t.1).trans rfl
theorem slices : w1.slices = w.slices := (congrArg Work.slices t.1).trans rfl
theorem groups : w1.groups = w.groups := (congrArg Work.groups t.1).trans rfl
theorem scale : w1.scale = w.scale := (congrArg Work.scale t.1).trans rfl
theorem jobs : w1.jobs = w.jobs := (congrArg Work.jobs t.1).trans rfl
theorem combineCounts : w1.combineCounts = w.combineCounts := (congrArg Work.combineCounts t.1).trans rfl
theorem failedUses : w1.failedUses = w.failedUses := (congrArg Work.failedUses t.1).trans rfl

theorem slice (n : Nat) : w1.slice n = w.slice n := by unfold Work.slice; rw [t.slices]
theorem job (q : Fin 8) (j : BitVec 16) : w1.job q j = w.job q j := by unfold Work.job; rw [t.jobs]
theorem entry (q : Fin 8) (n : BitVec 20) : w1.entry q n = w.entry q n := by unfold Work.entry; rw [t.scale]
theorem useNo (q : Fin 8) (b : Word) (k : Nat) : w1.useNo q b k = w.useNo q b k := by unfold Work.useNo; rw [t.combineCounts]
theorem useOf (q : Fin 8) (b : Word) (k : Nat) : w1.useOf q b k c = w.useOf q b k c := by unfold Work.useOf; rw [t.useNo]
theorem useDead (u : CombineUse) : w1.useDead u = w.useDead u := by unfold Work.useDead; rw [t.failedUses]

/-! Of the context, what dispatch does not touch. -/

theorem ctx : w1.ctx c = { w.ctx c with pc := (w.ctx c).pc + 8, dispatchPc := (w.ctx c).pc, busy := true, infl := [x] } := t.2.2.2.1

theorem decl : (w1.ctx c).decl = (w.ctx c).decl := by rw [t.ctx]
theorem part : (w1.ctx c).part = (w.ctx c).part := by rw [t.ctx]
theorem ctx_job : (w1.ctx c).job = (w.ctx c).job := by rw [t.ctx]
theorem jobOf : w1.jobOf c = w.jobOf c := by unfold Work.jobOf; rw [t.job, t.part, t.ctx_job]
theorem genKey : w1.genKey c = w.genKey c := by unfold Work.genKey; rw [t.jobOf]

theorem range (h : Word) (n : Nat) : (w1.ctx c).range h n = (w.ctx c).range h n := by
  unfold Ctx.range Ctx.span; rw [t.decl]
theorem tileSpansAt (sp : Bool) (m e fmt : Nat) : (w1.ctx c).tileSpansAt sp m e fmt = (w.ctx c).tileSpansAt sp m e fmt := by
  unfold Ctx.tileSpansAt Ctx.span; rw [t.decl]
theorem tileSpans (h : Word) (fmt : Nat) : (w1.ctx c).tileSpans h fmt = (w.ctx c).tileSpans h fmt := t.tileSpansAt ..
theorem drainSpans (y : InFlight) : (w1.ctx c).drainSpans y = (w.ctx c).drainSpans y := by
  unfold Ctx.drainSpans; simp only [t.range, t.tileSpansAt, t.tileSpans]

/-! Of the core, its registers and its memory. -/

theorem core : w1.core c = { w.core c with served := (w1.core c).served, lastB := (w1.core c).lastB } := by
  obtain ⟨-, -, -, -, hc⟩ := t
  rw [hc]
  split <;> rfl

theorem tile (i : Nat) : w1.tile c i = w.tile c i := by unfold Work.tile; rw [t.core]
theorem acc (i : Nat) : w1.acc c i = w.acc c i := by unfold Work.acc; rw [t.core]
theorem spanRead (sp : Span) (n : Nat) : w1.spanRead c sp n = w.spanRead c sp n := by
  cases sp with
  | loc a => exact (congrArg (fun k : Core => k.localMem.readN a n) t.core).trans rfl
  | clu a => exact congrArg (fun m : Tbl Mem => Mem.readN (m.get [] (clusterKey c)) a n) t.clusters
  | bad a b => rfl

end Work.Takes

/-! Operand fields without a fault have a class that the operation accepts (R101, R108). -/

theorem Ctx.class_of_fieldFault {k : Ctx} {ok : Accepts} {b : Byte} (h : k.fieldFault ok b = none) (hok : ok ≠ []) : fieldClass b ∈ ok := by
  unfold Ctx.fieldFault at h
  rw [if_neg hok] at h
  by_contra hc
  rw [if_pos (by simpa using hc)] at h
  exact absurd h (by simp)

theorem Ctx.fieldFaults_of_operandFault {k : Ctx} {op : KOp} {f : Fields} (h : k.operandFault op f = none) :
    k.fieldFault (op.accepts f).1 f.d = none ∧ k.fieldFault (op.accepts f).2.1 f.a = none ∧ k.fieldFault (op.accepts f).2.2 f.b = none := by
  simpa [Ctx.operandFault, Option.orElse_eq_none] using h

/-- The value captured for a field of the scalar class is its register's (R85). -/
theorem Ctx.captured_scalar (k : Ctx) {b : Byte} (h : fieldClass b = 0) : k.captured b = k.getS (fieldNum b) := if_pos h

end Sys2Proof.Machine
end

section
/-! O16: `t.ld` and `t.st` (R43, R121, R131). -/

namespace Sys2Proof

/-- The entries of a list as a table. -/
theorem Tbl.get_ofListFrom {α : Type} [DecidableEq α] (d : α) (l : List α) (k i : Nat) :
    Tbl.get d (Tbl.ofListFrom d k l) i = if k ≤ i then l.getD (i - k) d else d := by
  induction l generalizing k with
  | nil => simp [Tbl.ofListFrom, Tbl.get]
  | cons v l ih =>
    have tail : k ≤ i → i ≠ k → (v :: l).getD (i - k) d = l.getD (i - (k + 1)) d := fun h ne => by
      obtain ⟨m, rfl⟩ := Nat.exists_eq_add_of_lt (Nat.lt_of_le_of_ne h (Ne.symm ne))
      simp [show k + m + 1 - k = m + 1 by omega, show k + m + 1 - (k + 1) = m by omega]
    unfold Tbl.ofListFrom
    by_cases hi : i = k
    · subst hi
      split
      next hv => simp [ih, hv]
      next => simp [Tbl.get]
    · have rest : Tbl.get d (Tbl.ofListFrom d (k + 1) l) i = if k ≤ i then (v :: l).getD (i - k) d else d := by
        rw [ih]
        by_cases h : k ≤ i
        · rw [if_pos (by omega), if_pos h, tail h hi]
        · rw [if_neg (by omega), if_neg h]
      split
      · exact rest
      · exact (if_neg hi).trans rest

/-- A byte of a little-endian number. -/
theorem leNat_byte (l : List Byte) (i : Nat) : leNat l / 256 ^ i % 256 = (l.getD i 0).toNat := by
  induction l generalizing i with
  | nil => simp [leNat]
  | cons b l ih =>
    cases i with
    | zero => simp [leNat, Nat.add_mul_mod_self_left, Nat.mod_eq_of_lt b.isLt]
    | succ i =>
      have high : (b.toNat + 256 * leNat l) / 256 = leNat l := by
        rw [Nat.add_mul_div_left _ _ (by decide), Nat.div_eq_of_lt b.isLt, Nat.zero_add]
      rw [leNat, Nat.pow_succ', ← Nat.div_div_eq_div_mul, high, ih]
      rfl

end Sys2Proof

namespace Sys2Proof.Machine

/-- A byte of a number of n bits, n a multiple of 8 beyond it. -/
theorem extractLsb'_leNat (l : List Byte) {n i : Nat} (h : 8 * i + 8 ≤ n) :
    (BitVec.ofNat n (leNat l)).extractLsb' (8 * i) 8 = l.getD i 0 := by
  apply BitVec.eq_of_toNat_eq
  have low : 2 ^ n = 2 ^ (8 * i) * (2 ^ 8 * 2 ^ (n - (8 * i + 8))) := by
    rw [← Nat.mul_assoc, ← Nat.pow_add, ← Nat.pow_add, Nat.add_sub_cancel' h]
  rw [BitVec.extractLsb'_toNat, BitVec.toNat_ofNat, Nat.shiftRight_eq_div_pow, low, Nat.mod_mul_right_div_self, Nat.mod_mul_right_mod,
    ← leNat_byte, Nat.pow_mul]
  rfl

@[simp] theorem Tile.make_exps (els : List (BitVec 32)) (fmt : BitVec 2) (ax : Bool) (bs : List Byte) {i : Nat} (h : i < 128) :
    (Tile.make els fmt ax bs).exps.extractLsb' (8 * i) 8 = bs.getD i 0 := by
  refine (extractLsb'_leNat _ (by omega)).trans ?_
  simp [List.getD_eq_getElem?_getD, h]

theorem Tile.make_elem (els : List (BitVec 32)) (fmt : BitVec 2) (ax : Bool) (bs : List Byte) (i : Nat) :
    (Tile.make els fmt ax bs).elems.get 0 i = els.getD i 0 := by
  refine (Tbl.get_ofListFrom 0 els 0 i).trans ?_
  rw [if_pos (Nat.zero_le i), Nat.sub_zero]

theorem elemOf_zero (wd : Nat) : elemOf wd 0 = some 0 := by
  simp [elemOf, Ne.symm (Nat.pow_pos (n := wd - 1) (Nat.zero_lt_two)).ne']

/-- The codes of a stored tile widened to 32 bits (R43). -/
def widen (wd : Nat) (codes : List Nat) : List (BitVec 32) := codes.map fun v => BitVec.ofNat 32 (codeOf 32 (elemOf wd v))

/-- Past the last code there are zeros, whose widening is zero. -/
theorem widen_getD (wd : Nat) (codes : List Nat) (i : Nat) :
    (widen wd codes).getD i 0 = BitVec.ofNat 32 (codeOf 32 (elemOf wd (codes.getD i 0))) := by
  have zero : (0 : BitVec 32) = BitVec.ofNat 32 (codeOf 32 (elemOf wd 0)) := by rw [elemOf_zero]; rfl
  rw [zero, widen, List.getD_map]

/-- The context's class checks of `t.ld` and `t.st` leave the register with the handle. -/
theorem Ctx.tLd_handle {k : Ctx} {f : Fields} (h : k.operandFault .tLd f = none) : k.captured f.a = k.getS (fieldNum f.a) :=
  k.captured_scalar (by simpa [KOp.accepts] using Ctx.class_of_fieldFault (Ctx.fieldFaults_of_operandFault h).2.1 (by simp [KOp.accepts]))

theorem Ctx.tSt_handle {k : Ctx} {f : Fields} (h : k.operandFault .tSt f = none) : k.captured f.d = k.getS (fieldNum f.d) :=
  k.captured_scalar (by simpa [KOp.accepts] using Ctx.class_of_fieldFault (Ctx.fieldFaults_of_operandFault h).1 (by simp [KOp.accepts]))

/-- `t.ld` as its context and core stand when it has its effect (R43, R121). -/
theorem Work.Takes.effTLd {w w1 : Work} {c : CtxId} {f : Fields} {m e : Span} (t : w.Takes c (w.capture c .tLd f).start w1)
    (hf : (w.ctx c).operandFault .tLd f = none) (hs : (w.ctx c).tileSpans ((w.ctx c).getS (fieldNum f.a)) (modBits f 1 2) = .ok (m, e)) :
    effTLd w1 c (w.capture c .tLd f).start = .done (w1.setTile c (fieldNum f.d) (Tile.make
      (widen (fmtBits (modBits f 1 2)) (unpackCodes (fmtBits (modBits f 1 2)) 4096 (w.spanRead c m (tileBytes (modBits f 1 2)))))
      (BitVec.ofNat 2 (modBits f 1 2)) (modBit f 3) (w.spanRead c e 128))) := by
  have handle : (w.capture c .tLd f).start.va = (w.ctx c).getS (fieldNum f.a) := Ctx.tLd_handle hf
  have field : (w.capture c .tLd f).start.f = f := rfl
  simp only [Machine.effTLd, handle, field, t.tileSpans, hs, withOp, t.spanRead, widen]

/-- `t.st` as its context and core stand when it has its effect (R43, R131). -/
theorem Work.Takes.effTSt {w w1 : Work} {c : CtxId} {f : Fields} {m e : Span} (t : w.Takes c (w.capture c .tSt f).start w1)
    (hf : (w.ctx c).operandFault .tSt f = none)
    (hs : (w.ctx c).tileSpans ((w.ctx c).getS (fieldNum f.d)) (w.tile c (fieldNum f.a)).fmt.toNat = .ok (m, e)) :
    let tl := w.tile c (fieldNum f.a)
    let outs := (Tbl.denseFrom 0 4096 0 tl.elems).map (storeCode (fmtBits tl.fmt.toNat))
    let w2 := (w1.spanWrite c m (packCodes (fmtBits tl.fmt.toNat) (outs.map (·.1)))).spanWrite c e tl.expBytes
    effTSt w1 c (w.capture c .tSt f).start =
      .done (if outs.any (·.2) then w2.updCtx c fun z => { z with laneSat := true } else w2) := by
  have handle : (w.capture c .tSt f).start.vd = (w.ctx c).getS (fieldNum f.d) := Ctx.tSt_handle hf
  have field : (w.capture c .tSt f).start.f = f := rfl
  simp only [Machine.effTSt, handle, field, t.tile, t.tileSpans, hs, withOp]

/-- Settles O16: both instructions find memory and registers as the context dispatched them. -/
theorem tileTransferResults : Obligations.TileTransferResults := by
  intro c f ev s hr k fmt
  refine ⟨fun m e hf hs => ?load, fun m e hf hs => ?store⟩
  case store => exact completed_of hr hf (by decide) (by decide) (by decide) fun w1 t => t.effTSt hf hs
  case load =>
    intro d wd codes
    have field : modBits f 1 2 = fmt := rfl
    refine engineDone_of hr hf (by decide) (by decide) (by decide) (fun w1 t => t.effTLd hf hs) (fun w1 d => rfl)
      (fun w1 d hd => Work.core_updCore_other _ _ hd) fun w1 t => ?_
    rw [field]
    generalize htile : Tile.make (widen wd codes) (BitVec.ofNat 2 fmt) (modBit f 3) (s.w.spanRead c e 128) = tl
    have core : (w1.setTile c d tl).core c = { (s.w.core c).took c .M with tiles := (s.w.core c).tiles.set .zero d tl } := by
      obtain ⟨-, -, -, -, hc⟩ := t
      rw [Work.setTile, Work.core_updCore_same, hc]
      rfl
    have tile (n : Nat) : (w1.setTile c d tl).tile c n = if n = d then tl else s.w.tile c n := by
      rw [Work.tile, core]
      exact Tbl.get_set ..
    refine ⟨⟨?_, ?_⟩, fun n hn => (tile n).trans (if_neg hn), ?_⟩
    · rw [Work.retire_eq, t.1]; rfl
    · rw [Work.core_retire, core]
    · have loaded : (w1.setTile c d tl).tile c d = tl := (tile d).trans (if_pos rfl)
      show ((w1.setTile c d tl).tile c d).fmt.toNat = fmt ∧ ((w1.setTile c d tl).tile c d).colAxis = _ ∧
        (∀ i, i < 128 → ((w1.setTile c d tl).tile c d).exps.extractLsb' (8 * i) 8 = _) ∧
        ∀ i, i < 4096 → ((w1.setTile c d tl).tile c d).elems.get 0 i = _
      rw [loaded, ← htile]
      exact ⟨Nat.mod_eq_of_lt (Nat.mod_lt _ (by decide)), rfl, fun i hi => Tile.make_exps _ _ _ _ hi,
        fun i _ => (Tile.make_elem ..).trans (widen_getD ..)⟩

end Sys2Proof.Machine
end

section
/-! O14: `acc.drain`, alone and as a participant of a split-K group (R52, R126, R165, R171, R173, R174). -/

namespace Sys2Proof.Machine

namespace Work.Takes

variable {w w1 : Work} {c : CtxId} {x : InFlight} (t : w.Takes c x w1)
include t

theorem tensorEntry (n : BitVec 20) : w1.tensorEntry c n = w.tensorEntry c n := by
  unfold Work.tensorEntry
  simp only [t.part, t.entry, t.slice]

theorem bound (b : Word) : w1.bound c b = w.bound c b := by
  unfold Work.bound
  simp only [t.part, t.entry, t.tensorEntry]

theorem groupOf (b : Word) : w1.groupOf c b = w.groupOf c b := by
  unfold Work.groupOf
  simp only [t.groups, t.part]

theorem drainRnd (y : InFlight) (b : Word) (e : Nat) : w1.drainRnd c y b e = w.drainRnd c y b e := by
  unfold Work.drainRnd
  rw [t.genKey]

theorem fusedTile (fmt : Nat) (ax : Bool) (sp : Option (Span × Span)) : w1.fusedTile c fmt ax sp = w.fusedTile c fmt ax sp := by
  cases sp with
  | none => rfl
  | some p => simp only [Work.fusedTile, t.spanRead]

theorem drainOut (y : InFlight) (b : Word) (d : DrainIn) (es : Array Byte) (sp : DrainSpans) :
    w1.drainOut c y b d es sp = w.drainOut c y b d es sp := by
  unfold Work.drainOut
  simp only [t.fusedTile, t.drainRnd]

end Work.Takes

/-- The elements that a drain stores (R52, R165): narrowed, code 0 in the padding. -/
def Work.drainedEls (w : Work) (c : CtxId) (x : InFlight) (b : Word) (d : DrainIn) (e : ScaleEntry) (sp : DrainSpans) : List (Option Int × Bool) :=
  (w.drainOut c x b d (e.tileExps x.prev (bindTile b)).toArray sp).zipIdx.map fun p =>
    if e.padding (bindTile b) (p.2 / 64) (p.2 % 64) then (some 0, false) else p.1

/-- What a drain leaves in memory, the scale table and the statistics (R52, R57, R126, R165, R228). -/
def Work.drainStored (w : Work) (c : CtxId) (x : InFlight) (b : Word) (d : DrainIn) (e : ScaleEntry) (sp : DrainSpans)
    (outs : List (Option Int × Bool)) (ev : MemEvent) : Work :=
  let fmt := modBits x.f 1 2
  let w1 := (w.spanWrite c sp.mant (packCodes (fmtBits fmt) (outs.map fun o => codeOf (fmtBits fmt) o.1))).spanWrite c sp.exp
    (e.outExps x.prev (bindAxis b) (bindTile b))
  let w2 := match sp.idx with
    | some i => w1.spanWrite c i (d.els.flatMap fun (el : DrainEl) => leBytes 2 el.field)
    | none => w1
  let w3 := if x.prev then w2
    else w2.setEntry (w.ctx c).part (bindTensor b)
      (some (e.noteTile (bindTile b) (highBlocks (bindAxis b) fmt outs) (satBlocks (bindAxis b) d.pend outs)))
  w3.statCount c (bindTensor b) x.step ((outs.zipIdx.filter fun p => !e.padding (bindTile b) (p.2 / 64) (p.2 % 64)).map (·.1)) ev

/-- A drain without the fault of the saturation trap (R126). -/
theorem drainTo_done {w : Work} {c : CtxId} {x : InFlight} {b : Word} {d : DrainIn} {e : ScaleEntry} {sp : DrainSpans}
    (h : (w.ctx c).decl.satTrap = false ∨ satBlocks (bindAxis b) d.pend (w.drainedEls c x b d e sp) = 0) (ev : MemEvent) :
    drainTo w c x b d e sp ev = .done (w.drainStored c x b d e sp (w.drainedEls c x b d e sp) ev) := by
  unfold drainTo
  refine (if_neg ?_).trans rfl
  rintro trap
  simp only [Bool.and_eq_true, decide_eq_true_eq] at trap
  obtain ⟨on, sat⟩ := trap
  exact h.elim (fun off => by simp [off] at on) fun none => sat none

/-- `acc.drain` of a tile outside every split-K group (R126, R165). -/
theorem effAccDrain_alone {w : Work} {c : CtxId} {x : InFlight} {e : ScaleEntry} {sp : DrainSpans}
    (hb : w.bound c (w.acc c (fieldNum x.f.a)).binding = .ok e) (hg : w.groupOf c (w.acc c (fieldNum x.f.a)).binding = none)
    (hfmt : modBits x.f 1 2 = e.fmt.toNat) (hsp : (w.ctx c).drainSpans x = .ok sp) :
    let a := w.acc c (fieldNum x.f.a)
    let outs := w.drainedEls c x a.binding a.drainIn e sp
    ((w.ctx c).decl.satTrap = false ∨ satBlocks (bindAxis a.binding) a.pend outs = 0) → ∀ ev, effAccDrain w c x ev =
      .done (((w.drainStored c x a.binding a.drainIn e sp outs ev).noteLimits c.slice.val a).drainClear c x) := by
  intro a outs h ev
  have done := drainTo_done (d := a.drainIn) h ev
  unfold effAccDrain
  simp only [hb, withBound, hg, ne_eq, hfmt, not_true, if_false, hsp, withOp]
  rw [done]
  rfl

/-- A participant that is not the root of its group gives its tile to the tree (R171). -/
theorem effAccDrain_gives {w : Work} {c : CtxId} {x : InFlight} {e : ScaleEntry} {g : Group}
    (hb : w.bound c (w.acc c (fieldNum x.f.a)).binding = .ok e) (hg : w.groupOf c (w.acc c (fieldNum x.f.a)).binding = some g)
    (hfmt : modBits x.f 1 2 = e.fmt.toNat) (hroot : g.cores.head? ≠ some (coreKey c)) (ev : MemEvent) :
    let a := w.acc c (fieldNum x.f.a)
    effAccDrain w c x ev = .done (((w.giveInput c a).noteLimits c.slice.val a).drainClear c x).sweepUses := by
  unfold effAccDrain effCombine
  simp only [hb, withBound, hg, ne_eq, hfmt, not_true, if_false, hroot]
  rfl

/-- The root's drain gives its tile too, and stands until its use is complete (R171). -/
theorem effAccDrain_root {w : Work} {c : CtxId} {x : InFlight} {e : ScaleEntry} {g : Group} {sp : DrainSpans}
    (hb : w.bound c (w.acc c (fieldNum x.f.a)).binding = .ok e) (hg : w.groupOf c (w.acc c (fieldNum x.f.a)).binding = some g)
    (hfmt : modBits x.f 1 2 = e.fmt.toNat) (hroot : g.cores.head? = some (coreKey c)) (hsp : (w.ctx c).drainSpans x = .ok sp)
    (hd : w.useDead (w.useOf (w.ctx c).part (w.acc c (fieldNum x.f.a)).binding (coreKey c) c) = false) (ev : MemEvent) :
    let a := w.acc c (fieldNum x.f.a)
    let w1 := (w.giveInput c a).noteLimits c.slice.val a
    effAccDrain w c x ev = .stand { w1 with combineUses := w1.combineUses ++
      [{ w.useOf (w.ctx c).part a.binding (coreKey c) c with minSense := a.minSense, narWins := a.narWins, id := x.id }] } .combining := by
  unfold effAccDrain effCombine
  simp only [hb, withBound, hg, ne_eq, hfmt, not_true, if_false, hroot, if_true, hd, Bool.false_eq_true, hsp, withOp]
  rfl

/-- Settles O14: each drain finds the accumulator, the memory and the group as its context dispatched it. -/
theorem drainResults : Obligations.DrainResults := by
  intro c f ev s hr k n acc fmt tile goes
  have drains (op : KOp) (i : Instr) (hi : exec i s = .next (s.onW fun w => w.issue c op f (.start ev))) (hq : op.queue ≠ .C)
      (ha : op.actsAtStart = false) (hp : op.isProduct = false)
      (he : ∀ w x, op.effect w c x ev = effAccDrain w c x ev) : goes op i := by
    intro e hf hb
    rw [hi]
    refine ⟨fun sp hg hfmt hsp es hes outs houts sat hsat trap => ?alone, fun g hg hfmt hroot => ?gives,
      fun g sp hg hfmt hroot hsp hd => ?root⟩
    case alone =>
      subst hes houts hsat
      refine completed_of hr hf hq ha hp fun w1 t => (he _ _).trans ?_
      refine (effAccDrain_alone (e := e) (sp := sp) ?_ ?_ ?_ ?_ ?_ ev).trans ?_
      · rw [t.acc, t.bound]; exact hb
      · rw [t.acc, t.groupOf]; exact hg
      · exact hfmt
      · rw [t.drainSpans]; exact hsp
      · rw [t.decl]; simp only [t.acc, Work.drainedEls, t.drainOut]; exact trap
      · simp only [t.acc, Work.drainedEls, t.drainOut, Work.drainStored, t.part]; rfl
    case gives =>
      refine completed_of hr hf hq ha hp fun w1 t => (he _ _).trans ?_
      refine (effAccDrain_gives (e := e) (g := g) ?_ ?_ ?_ ?_ ev).trans ?_
      · rw [t.acc, t.bound]; exact hb
      · rw [t.acc, t.groupOf]; exact hg
      · exact hfmt
      · exact hroot
      · rw [t.acc]; rfl
    case root =>
      refine stands_of hr hf hq ha hp (by decide) fun w1 t => (he _ _).trans ?_
      refine (effAccDrain_root (e := e) (g := g) (sp := sp) ?_ ?_ ?_ ?_ ?_ ?_ ev).trans ?_
      · rw [t.acc, t.bound]; exact hb
      · rw [t.acc, t.groupOf]; exact hg
      · exact hfmt
      · exact hroot
      · rw [t.drainSpans]; exact hsp
      · rw [t.acc, t.useOf, t.useDead, t.part]; exact hd
      · rw [t.acc, t.part, t.useOf]; rfl
  exact ⟨drains .accDrain _ rfl (by decide) (by decide) (by decide) fun _ _ => rfl,
    drains .accDrainB _ rfl (by decide) (by decide) (by decide) fun _ _ => rfl⟩

end Sys2Proof.Machine
end

section
/-! O52: a state in which a rolled-back context does not stand paused.

A rollback releases the windows of its job's buckets, and the held packets of other jobs are then taken (R322). In `crossState` that packet
ends a bucket of job 1 with a failure, and among the bucket's waiters is a context of job 0, the job that was rolled back: the fault of
its `red.contrib` replaces PAUSED. No hypothesis of the statement ties a bucket's waiters to the contexts of the bucket's own job. -/

namespace Sys2Proof.Machine

/-- A rollback applies the learned outcome that is no commit (R416). -/
theorem stepRollback_next {q : Fin 8} {job : BitVec 16} {s t : State} {d : Decision} (h : (s.w.commit q job).learned = some d)
    (hd : d.committed = false) (next : exec (.stepRollback q job) s = .next t) : t.w = s.w.rollbackStep q job d := by
  have run : exec (.stepRollback q job) s = .next (s.onW fun w => w.rollbackStep q job d) := by
    show execStepRollback q job s = _
    simp [execStepRollback, State.onW, h, hd]
  rw [run] at next
  cases next
  rfl

/-- A `red.contrib` of a context of job 0 that stands for its bucket's end. -/
def crossContrib : InFlight :=
  { id := 0, op := .redContrib, f := ⟨0, 0, 0, 0, 0⟩, pc := 0, vd := 0, va := 0, vb := 0, vi := 0, lane := false, mb := 0, step := 0, prev := false
    seg := 0, stat := .remote, missed := false, snap := [], sentTo := [], half := 0, startNo := 0 }

/-- Job 0, whose step 0 has failed. -/
def crossJob : Job :=
  { q := 0, seed := [], key := 0, start := 0, step := 0, buf := false, peat := none, weights := [], stat := none, fabric := none, resil := none
    plan := none }

/-- The outcome of step 0 that the device has learned: a rollback for its deadline. -/
def crossDecision : Decision := ⟨0, 0, false, 0x65⟩

/-- Job 1's bucket 0, open at its root, for which the context of job 0 waits. -/
def crossBucket : RedCtx :=
  { q := 0, step := 0, phase := .opened, base := 0, node := ⟨true, true, 0, 0, 1⟩
    desc := ⟨false, 0, 1, 1, 0, 0, 0, 0, 0, 0⟩, rnd := false, fmt := 2, eb := [], inputs := [(32, some ⟨1, 0, []⟩)], inclusion := none
    dropped := [], sent := [], sums := [], attempts := 0, own := none, waiters := [(⟨0, 0, 0⟩, 0)], results := [], path := false
    notice := none, n := 0, failCode := 0, closeAsked := false, outcome := 0, root := none, held := none }

/-- The failed partial of port 0 that waits for a window of job 1's bucket. -/
def crossPkt : Pkt :=
  { dest := 0, src := 0, job := 1, kind := 0x11, bestEffort := false, mcast := false, retx := false, held := false, hops := 0, slot := 0
    status := 0, frame := 0, seq := 0, addr := 0, payload := { crossBucket.hdr with failed := true, code := 0x47 : RedHdr }.bytes }

def crossState : State :=
  { State.reset with w := { Work.reset with
      ctxs := [(0, { Ctx.empty with st := .running, infl := [crossContrib] })]
      jobs := [(0, some crossJob)]
      commits := [(0, { CommitSt.zero with learned := some crossDecision })]
      red := { Work.reset.red with ctxs := [(65536, some crossBucket)], held := [⟨0, crossPkt, none⟩] } } }

theorem crossState_job : crossState.w.job 0 0 = some crossJob := by decide

theorem crossState_learned : (crossState.w.commit 0 0).learned = some crossDecision := by decide

theorem crossState_attempt : (crossState.w.commit 0 0).attempt + 1 < 3 := by decide

theorem crossState_ctxsOf : (⟨0, 0, 0⟩ : CtxId) ∈ crossState.w.ctxsOf 0 0 := by decide +kernel

/-- The rollback leaves the context of job 0 with the fault of job 1's bucket. -/
theorem rollbackStep_crossState_faulted : ((crossState.w.rollbackStep 0 0 crossDecision).ctx ⟨0, 0, 0⟩).st = .faulted := by decide +kernel

/-- Refutes O52: in `crossState` the rollback of job 0 takes the held packet of job 1, whose bucket's failure faults the rolled-back context,
so that it is FAULTED and not PAUSED after the first attempt. -/
theorem not_stepOutcomeResults : ¬ Obligations.StepOutcomeResults := by
  intro h
  obtain ⟨steps, -⟩ := h 0 0 crossState
  obtain ⟨-, -, -, -, outcome, -⟩ := steps crossJob crossState_job
  obtain ⟨-, -, -, rollback⟩ := outcome crossDecision crossState_learned
  obtain ⟨t, next, -, -, -, -, -, -, paused, -⟩ := rollback rfl
  obtain ⟨st, -⟩ := paused crossState_attempt ⟨0, 0, 0⟩ crossState_ctxsOf
  have after := stepRollback_next crossState_learned rfl next
  rw [after, rollbackStep_crossState_faulted] at st
  exact absurd st (by decide)

end Sys2Proof.Machine
end

section
/-! O1, O2, O3, O58: scalar instructions (R76, R79, R117, R118), and the state after reset. -/

namespace Sys2Proof.Machine

/-! A control-unit instruction that changes its own context alone (R84). -/

/-- What dispatch does to the context where the operation neither waits, nor ends a segment, nor sets the generator. -/
theorem Ctx.dispatched_plain (k : Ctx) (x : InFlight) (h : x.op ∉ [KOp.slWait, .lfWait, .frameEnd, .rngSet]) :
    k.dispatched x = { k with pc := nextPc x.op x.f k.pc x.va x.vb, dispatchPc := k.pc, infl := k.infl ++ [x], busy := true } := by
  simp only [List.mem_cons, List.not_mem_nil, or_false, not_or] at h
  obtain ⟨h1, h2, h3, h4⟩ := h
  unfold Ctx.dispatched
  split <;> simp_all

/-- Such an instruction, whose effect is the change `g` of its context. -/
theorem ctxDone_of_updCtx {s : State} {c : CtxId} (h : s.w.ready c) {op : KOp} {f : Fields} {ev : MemEvent} (g : Ctx → Ctx)
    (hf : (s.w.ctx c).operandFault op f = none) (hq : op.queue = .C)
    (he : op.effect (s.w.started c op f) c (s.w.capture c op f) ev = .done ((s.w.started c op f).updCtx c g)) {k' : Ctx} {pc : Nat}
    (hk : { g ((s.w.ctx c).dispatched (s.w.capture c op f)) with
        infl := (g ((s.w.ctx c).dispatched (s.w.capture c op f))).infl.filter fun y => decide (y.id ≠ s.w.nextId) } =
      { k' with pc := pc, dispatchPc := (s.w.ctx c).pc, busy := true }) :
    CtxDone s (.next (s.onW fun w => w.issue c op f (.start ev))) c k' pc := by
  refine ctxDone_of h op f ev hf hq _ he rfl (fun e ne => Work.ctx_updCtx_other _ _ ne) _ _ ?_
  rw [Work.ctx_updCtx_same, Work.started_ctx]
  exact hk

@[simp] theorem Ctx.setS_infl (k : Ctx) (i : Nat) (v : Word) : (k.setS i v).infl = k.infl := by unfold Ctx.setS; split <;> rfl

/-- Operations of the control unit that hold nothing and go on with the next instruction (R117, R134). -/
def straightOps : List KOp :=
  [.sAdd, .sSub, .sAnd, .sOr, .sXor, .sShl, .sShr, .sSra, .sMul, .sMulh, .sDiv, .sLi, .sIns, .sSlt, .sSltu, .sLd, .sSt, .sRem, .slArm, .slSig,
    .lfClr, .ctxFence]

theorem queue_of_mem_straightOps {op : KOp} (h : op ∈ straightOps) :
    op.queue = .C ∧ op ∉ [KOp.slWait, .lfWait, .frameEnd, .rngSet] ∧ ∀ f pc a b, nextPc op f pc a b = pc + 8 := by
  simp only [straightOps, List.mem_cons, List.not_mem_nil, or_false] at h
  rcases h with rfl | rfl | rfl | rfl | rfl | rfl | rfl | rfl | rfl | rfl | rfl | rfl | rfl | rfl | rfl | rfl | rfl | rfl | rfl | rfl | rfl |
    rfl <;> exact ⟨rfl, by decide, fun _ _ _ _ => rfl⟩

/-- The context of a ready context's instruction of this kind, once it is dispatched. -/
theorem Work.ready.dispatched {w : Work} {c : CtxId} (h : w.ready c) {op : KOp} (hop : op ∈ straightOps) (f : Fields) :
    (w.ctx c).dispatched (w.capture c op f) =
      { w.ctx c with pc := (w.ctx c).pc + 8, dispatchPc := (w.ctx c).pc, busy := true, infl := [w.capture c op f] } := by
  obtain ⟨-, ho, hpc⟩ := queue_of_mem_straightOps hop
  rw [Ctx.dispatched_plain _ _ ho, Work.capture_op, Work.capture_f, hpc, Work.ready_infl h]
  rfl

/-- It finds the state of its dispatch. -/
theorem Work.takes_started {w : Work} {c : CtxId} (h : w.ready c) {op : KOp} (hop : op ∈ straightOps) (f : Fields) :
    w.Takes c (w.capture c op f) (w.started c op f) := by
  obtain ⟨hq, -, -⟩ := queue_of_mem_straightOps hop
  have unserved : w.started c op f = ({ w with nextId := w.nextId + 1 } : Work).updCtx c fun k => k.dispatched (w.capture c op f) := by
    rw [Work.started, Work.noteServed, Work.capture_op, hq]
    rfl
  refine ⟨w.started_eq c op f, fun e he => ?_, fun e _ => by rw [unserved]; rfl, ?_, by rw [unserved]; exact (if_pos hq).symm⟩
  · rw [unserved, Work.ctx_updCtx_other _ _ he]
    rfl
  · rw [Work.started_ctx, h.dispatched hop]

/-- Such an instruction whose effect is done has completed in the step that issued it. -/
theorem completed_of_straight {s : State} {c : CtxId} (h : s.w.ready c) {op : KOp} {f : Fields} {ev : MemEvent} {E : Work → Work}
    (hf : (s.w.ctx c).operandFault op f = none) (hop : op ∈ straightOps)
    (he : ∀ w1, s.w.Takes c (s.w.capture c op f) w1 → op.effect w1 c (s.w.capture c op f) ev = .done (E w1)) :
    Completed s (.next (s.onW fun w => w.issue c op f (.start ev))) c (s.w.capture c op f) E := by
  obtain ⟨hq, -, -⟩ := queue_of_mem_straightOps hop
  have taken := Work.takes_started h hop f
  have unflagged : (s.w.capture c op f).flag = none := if_neg fun hn => hn.1 hq
  refine ⟨_, taken, ?_⟩
  rw [State.onW, Work.issue_done h op f ev hf (by simp [KOp.actsAtStart, hq]) _ (he _ taken), if_pos hq, unflagged]

/-- One that writes sD changes nothing else. -/
theorem ctxDone_of_putS {s : State} {c : CtxId} (h : s.w.ready c) {op : KOp} {f : Fields} {ev : MemEvent} {v : Word}
    (hf : (s.w.ctx c).operandFault op f = none) (hop : op ∈ straightOps)
    (he : op.effect (s.w.started c op f) c (s.w.capture c op f) ev = putS (s.w.started c op f) c (s.w.capture c op f) v) :
    CtxDone s (.next (s.onW fun w => w.issue c op f (.start ev))) c ((s.w.ctx c).setS (fieldNum f.d) v) ((s.w.ctx c).pc + 8) := by
  refine ctxDone_of_updCtx h (fun k => k.setS (fieldNum f.d) v) hf (queue_of_mem_straightOps hop).1 he ?_
  rw [h.dispatched hop]
  unfold Ctx.setS
  split <;> simp [Work.ready_infl h]

/-! Operand fields of the scalar class (R101, R108). -/

theorem Ctx.fieldFault_unused (k : Ctx) (b : Byte) : k.fieldFault [] b = none := rfl

theorem Ctx.fieldFault_scalar (k : Ctx) {b : Byte} (h : fieldClass b = 0) : k.fieldFault [0] b = none := by
  simp [Ctx.fieldFault, h]

theorem Ctx.operandFault_eq_none {k : Ctx} {op : KOp} {f : Fields} (hd : k.fieldFault (op.accepts f).1 f.d = none)
    (ha : k.fieldFault (op.accepts f).2.1 f.a = none) (hb : k.fieldFault (op.accepts f).2.2 f.b = none) : k.operandFault op f = none := by
  simp [Ctx.operandFault, hd, ha, hb]

theorem Work.capture_va_scalar (w : Work) (c : CtxId) (op : KOp) {f : Fields} (h : fieldClass f.a = 0) :
    (w.capture c op f).va = (w.ctx c).getS (fieldNum f.a) := Ctx.captured_scalar _ h
theorem Work.capture_vb_scalar (w : Work) (c : CtxId) (op : KOp) {f : Fields} (h : fieldClass f.b = 0) :
    (w.capture c op f).vb = (w.ctx c).getS (fieldNum f.b) := Ctx.captured_scalar _ h
theorem Work.capture_vd_scalar (w : Work) (c : CtxId) (op : KOp) {f : Fields} (h : fieldClass f.d = 0) :
    (w.capture c op f).vd = (w.ctx c).getS (fieldNum f.d) := Ctx.captured_scalar _ h

/-- Operand B of a scalar instruction: IMM, or sB (R117). -/
theorem Work.capture_srcB (w : Work) (c : CtxId) (op : KOp) {f : Fields} (h : f.mod.getLsbD 0 = true ∨ fieldClass f.b = 0) :
    srcB (w.capture c op f) = if f.mod.getLsbD 0 then f.imm.signExtend 64 else (w.ctx c).getS (fieldNum f.b) := by
  show (if f.mod.getLsbD 0 then _ else (w.ctx c).captured f.b) = _
  split
  · rfl
  · next hm => exact Ctx.captured_scalar _ (h.resolve_left hm)

/-! Signed arithmetic (R117, R118). -/

/-- The arithmetic shift rounds toward minus infinity. -/
theorem sshiftRight_eq_ofInt (a : Word) (n : Nat) : a.sshiftRight n = BitVec.ofInt 64 (a.toInt / 2 ^ n) := by
  rw [BitVec.sshiftRight, Int.shiftRight_eq_div_pow]
  norm_cast

theorem boolWord_decide (p : Prop) [Decidable p] : boolWord (decide p) = if p then 1 else 0 := by simp [boolWord]

theorem mul_eq_ofInt (a b : Word) : a * b = BitVec.ofInt 64 (a.toInt * b.toInt) := by
  rw [BitVec.ofInt_mul, BitVec.ofInt_toInt, BitVec.ofInt_toInt]

/-- A 16-bit field of a word replaced. -/
theorem getLsbD_insertField (old : Word) (imm : BitVec 16) {k i : Nat} (hi : i < 64) :
    ((old &&& ~~~((0xFFFF : Word) <<< (16 * k))) ||| (imm.setWidth 64 <<< (16 * k))).getLsbD i =
      if i / 16 = k then imm.getLsbD (i % 16) else old.getLsbD i := by
  have ones : (0xFFFF : Word).getLsbD (i - 16 * k) = decide (i - 16 * k < 16) := by
    rw [show (0xFFFF : Word) = (BitVec.allOnes 16).setWidth 64 from rfl, BitVec.getLsbD_setWidth, BitVec.getLsbD_allOnes]
    simp only [Bool.and_eq_right_iff_imp, decide_eq_true_eq]; omega
  simp only [BitVec.getLsbD_or, BitVec.getLsbD_and, BitVec.getLsbD_not, BitVec.getLsbD_shiftLeft, BitVec.getLsbD_setWidth, ones, hi, decide_true,
    Bool.true_and]
  split
  next at_ =>
    have low : i - 16 * k = i % 16 := by omega
    have in64 : i - 16 * k < 64 := by omega
    simp [low, show ¬i < 16 * k by omega, show i % 16 < 16 by omega, show i % 16 < 64 by omega]
  next off =>
    by_cases below : i < 16 * k
    · simp [below]
    · have beyond : ¬i - 16 * k < 16 := by omega
      simp [below, beyond, BitVec.getLsbD_of_ge _ _ (Nat.le_of_not_lt beyond)]

/-- Settles O1: each instruction changes its context by its one write of sD. -/
theorem scalarArithmeticResults : Obligations.ScalarArithmeticResults := by
  intro c f ev s hr hd k a sb b old done
  have dst := k.fieldFault_scalar hd
  refine ⟨fun ha hb => ?immediate, fun ha hb => ?registers, ?li, ?ins⟩
  case immediate =>
    have second : k.fieldFault (if f.mod.getLsbD 0 then [] else [0]) f.b = none := by
      split
      · rfl
      · next hm => exact k.fieldFault_scalar (hb.resolve_left hm)
    have computes (op : KOp) (i : Instr) (g : Word → Word → Word) (hi : exec i s = .next (s.onW fun w => w.issue c op f (.start ev)))
        (hop : op ∈ straightOps) (hacc : op.accepts f = ([0], [0], if f.mod.getLsbD 0 then [] else [0]))
        (he : ∀ w x, op.effect w c x ev = putS w c x (g x.va (srcB x))) : done i (g a b) := by
      have fields : k.operandFault op f = none := by
        apply Ctx.operandFault_eq_none <;> rw [hacc]
        exacts [dst, k.fieldFault_scalar ha, second]
      have := ctxDone_of_putS hr fields hop (he _ _)
      rwa [s.w.capture_va_scalar c op ha, s.w.capture_srcB c op hb, ← hi] at this
    refine ⟨computes .sAdd _ (· + ·) rfl ?_ rfl fun _ _ => rfl, computes .sSub _ (· - ·) rfl ?_ rfl fun _ _ => rfl,
      computes .sAnd _ (· &&& ·) rfl ?_ rfl fun _ _ => rfl, computes .sOr _ (· ||| ·) rfl ?_ rfl fun _ _ => rfl,
      computes .sXor _ (· ^^^ ·) rfl ?_ rfl fun _ _ => rfl, computes .sShl _ (fun a b => a <<< (b.toNat % 64)) rfl ?_ rfl fun _ _ => rfl,
      computes .sShr _ (fun a b => a >>> (b.toNat % 64)) rfl ?_ rfl fun _ _ => rfl,
      computes .sSra _ (fun a b => BitVec.ofInt 64 (a.toInt / 2 ^ (b.toNat % 64))) rfl ?_ rfl
        fun w x => congrArg (putS w c x) (sshiftRight_eq_ofInt ..),
      computes .sSlt _ (fun a b => if a.toInt < b.toInt then 1 else 0) rfl ?_ rfl fun w x => congrArg (putS w c x) (boolWord_decide _),
      computes .sSltu _ (fun a b => if a.toNat < b.toNat then 1 else 0) rfl ?_ rfl fun w x => congrArg (putS w c x) (boolWord_decide _)⟩
    all_goals decide
  case registers =>
    have computes (op : KOp) (i : Instr) (g : Word → Word → Word) (hi : exec i s = .next (s.onW fun w => w.issue c op f (.start ev)))
        (hop : op ∈ straightOps) (hacc : op.accepts f = ([0], [0], [0]))
        (he : ∀ w x, op.effect w c x ev = putS w c x (g x.va x.vb)) : done i (g a sb) := by
      have fields : k.operandFault op f = none := by
        apply Ctx.operandFault_eq_none <;> rw [hacc]
        exacts [dst, k.fieldFault_scalar ha, k.fieldFault_scalar hb]
      have := ctxDone_of_putS hr fields hop (he _ _)
      rwa [s.w.capture_va_scalar c op ha, s.w.capture_vb_scalar c op hb, ← hi] at this
    refine ⟨computes .sMul _ (fun a b => BitVec.ofInt 64 (a.toInt * b.toInt)) rfl ?_ rfl fun w x => congrArg (putS w c x) (mul_eq_ofInt ..),
      computes .sMulh _ (fun a b => BitVec.ofInt 64 (a.toInt * b.toInt / 2 ^ 64)) rfl ?_ rfl fun _ _ => rfl,
      computes .sDiv _ sQuot rfl ?_ rfl fun _ _ => rfl, computes .sRem _ sRemainder rfl ?_ rfl fun _ _ => rfl⟩
    all_goals decide
  case li => exact ctxDone_of_putS hr (Ctx.operandFault_eq_none dst rfl rfl) (by decide) rfl
  case ins =>
    refine ⟨_, ctxDone_of_putS (op := .sIns) hr (Ctx.operandFault_eq_none dst rfl rfl) (by decide) rfl, fun i hi => ?_⟩
    rw [s.w.capture_vd_scalar c _ hd]
    refine (getLsbD_insertField old f.imm hi).trans ?_
    rw [modBits, bitsOf]
    simp

/-! Registers: s0 (R76). -/

theorem Ctx.getS_zero (k : Ctx) : k.getS 0 = 0 := rfl
theorem Ctx.setS_zero (k : Ctx) (v : Word) : k.setS 0 v = k := rfl

theorem Ctx.getS_setS (k : Ctx) {i : Nat} (hi : i ≠ 0) (v : Word) (j : Nat) : (k.setS i v).getS j = if j = i then v else k.getS j := by
  rw [Ctx.setS, if_neg hi]
  unfold Ctx.getS
  by_cases h0 : j = 0
  · rw [if_pos h0, if_pos h0, if_neg (h0 ▸ Ne.symm hi)]
  · rw [if_neg h0, if_neg h0]
    exact Tbl.get_set ..

/-- Settles O2: a write of s0 is none, and a write of another register is read there alone. -/
theorem scalarRegisterZero : Obligations.ScalarRegisterZero := by
  intro k i j v
  refine ⟨k.getS_zero, k.setS_zero v, fun hi => (k.getS_setS hi v i).trans (if_pos rfl), fun hj => ?_⟩
  by_cases hi : i = 0
  · rw [hi, k.setS_zero]
  · exact (k.getS_setS hi v j).trans (if_neg hj)

/-! Windows of a context in local and cluster memory (R78, R79). -/

/-- The range at an offset of a window. -/
def Work.winSpan (w : Work) (c : CtxId) (cluster : Bool) (off : Nat) : Span :=
  if cluster then .clu ((w.ctx c).decl.clusterBase + off) else .loc ((w.ctx c).decl.localBase + off)

theorem Work.span_of_fits {w : Work} {c : CtxId} {cl : Bool} {off n : Nat} (h : off + n ≤ winSize w c cl) :
    (w.ctx c).span cl off n = w.winSpan c cl off := by
  unfold winSize at h
  unfold Ctx.span Work.winSpan
  cases cl <;> exact if_pos h

theorem Mem.readN_eq_map (m : Mem) (a n : Nat) : m.readN a n = (List.range n).map fun i => m.read (a + i) := by
  induction n generalizing a with
  | zero => rfl
  | succ n ih =>
    rw [Mem.readN, ih, List.range_succ_eq_map, List.map_cons, List.map_map]
    exact congrArg _ (List.map_congr_left fun i _ => congrArg m.read (Nat.add_right_comm a 1 i))

theorem Work.spanRead_winSpan (w : Work) (c : CtxId) (cl : Bool) (off n : Nat) :
    w.spanRead c (w.winSpan c cl off) n = (List.range n).map fun i => winByte w c cl (off + i) := by
  unfold Work.winSpan winByte
  cases cl <;> exact (Mem.readN_eq_map ..).trans (List.map_congr_left fun i _ => congrArg _ (Nat.add_assoc ..))

/-- A byte of a range that was written, or outside it. -/
theorem Mem.read_writeN (bs : List Byte) (m : Mem) (a x : Nat) :
    (m.writeN a bs).read x = if a ≤ x ∧ x < a + bs.length then bs.getD (x - a) 0 else m.read x := by
  split
  next h =>
    obtain ⟨i, rfl⟩ := Nat.exists_eq_add_of_le h.1
    have hi : i < bs.length := by omega
    rw [Mem.read_writeN_inside _ _ _ _ hi, Nat.add_sub_cancel_left, List.getD_eq_getElem _ _ hi]
  next h => exact Mem.read_writeN_outside _ _ _ _ (by omega)

/-- Bytes written at an offset of a window are the only bytes of local and cluster memory that change. -/
theorem StoredOnly.of_spanWrite {s t : State} {c : CtxId} {cl : Bool} {off : Nat} {bs : List Byte} {w1 : Work} {byte : Nat → Byte}
    (hdecl : (t.w.ctx c).decl = (s.w.ctx c).decl) (hlocal : (w1.core c).localMem = (s.w.core c).localMem) (hclusters : w1.clusters = s.w.clusters)
    (tlocal : (t.w.core c).localMem = ((w1.spanWrite c (s.w.winSpan c cl off) bs).core c).localMem)
    (tclusters : t.w.clusters = (w1.spanWrite c (s.w.winSpan c cl off) bs).clusters) (hbyte : ∀ i, i < bs.length → bs.getD i 0 = byte i) :
    StoredOnly s t c cl off bs.length byte := by
  cases cl with
  | false =>
    have localMem : (t.w.core c).localMem = (s.w.core c).localMem.writeN ((s.w.ctx c).decl.localBase + off) bs := by
      rw [tlocal, ← hlocal]
      exact congrArg Core.localMem (Work.core_updCore_same ..)
    have same : t.w.clusters = s.w.clusters := tclusters.trans hclusters
    refine ⟨fun i hi => ?_, fun x hx => ?_, fun m x _ => by rw [same]⟩
    · rw [winByte, if_neg (by decide), hdecl, localMem, Mem.read_writeN, if_pos (by omega), ← hbyte i hi]
      congr 1; omega
    · rw [localMem, Mem.read_writeN, if_neg]
      rcases hx with h | h | h
      · cases h
      all_goals omega
  | true =>
    have same : (t.w.core c).localMem = (s.w.core c).localMem := tlocal.trans hlocal
    have cluster (m : Nat) : t.w.clusters.get [] m = if m = clusterKey c
        then Mem.writeN (s.w.clusters.get [] m) ((s.w.ctx c).decl.clusterBase + off) bs else s.w.clusters.get [] m := by
      rw [tclusters, ← hclusters]
      refine (Tbl.get_set ..).trans ?_
      split
      · next h => rw [h]
      · rfl
    refine ⟨fun i hi => ?_, fun x _ => by rw [same], fun m x hx => ?_⟩
    · rw [winByte, if_pos rfl, hdecl, cluster, if_pos rfl, Mem.read_writeN, if_pos (by omega), ← hbyte i hi]
      congr 1; omega
    · rw [cluster]
      split
      next hm =>
        rw [Mem.read_writeN, if_neg]
        rcases hx with h | h | h
        · cases h
        · exact absurd hm h
        · omega
      next => rfl

/-- A write of a range changes its core's local memory or the cluster memories alone. -/
theorem Work.spanWrite_eq (w : Work) (c : CtxId) (sp : Span) (bs : List Byte) :
    w.spanWrite c sp bs = { w with cores := (w.spanWrite c sp bs).cores, clusters := (w.spanWrite c sp bs).clusters } := by
  cases sp <;> rfl

theorem Work.ctx_spanWrite (w : Work) (c : CtxId) (sp : Span) (bs : List Byte) (d : CtxId) : (w.spanWrite c sp bs).ctx d = w.ctx d := by
  cases sp <;> rfl

theorem Work.core_spanWrite (w : Work) (c : CtxId) (sp : Span) (bs : List Byte) :
    (w.spanWrite c sp bs).core c = { w.core c with localMem := ((w.spanWrite c sp bs).core c).localMem } := by
  cases sp with
  | loc a => unfold Work.spanWrite; rw [Work.core_updCore_same]
  | clu a => rfl
  | bad a b => rfl

theorem Work.core_spanWrite_other (w : Work) (c : CtxId) (sp : Span) (bs : List Byte) {d : CtxId} (h : coreKey d ≠ coreKey c) :
    (w.spanWrite c sp bs).core d = w.core d := by
  cases sp with
  | loc a => exact Work.core_updCore_other _ _ h
  | clu a => rfl
  | bad a b => rfl

/-- What an instruction that stores bytes in a window has left once it has completed, its context aside. -/
theorem Work.Takes.stored {s u : State} {c : CtxId} {x : InFlight} {w1 : Work} {cl : Bool} {off : Nat} {bs : List Byte} {byte : Nat → Byte}
    (t : s.w.Takes c x w1) (hu : u = { s with w := (w1.spanWrite c (s.w.winSpan c cl off) bs).retire c x x.flag })
    (hbyte : ∀ i, i < bs.length → bs.getD i 0 = byte i) (hdecl : (u.w.ctx c).decl = (s.w.ctx c).decl) :
    Elsewhere s u c ∧ u.w = { s.w with ctxs := u.w.ctxs, cores := u.w.cores, clusters := u.w.clusters, nextId := s.w.nextId + 1 } ∧
      u.w.core c = { w1.core c with localMem := (u.w.core c).localMem } ∧ StoredOnly s u c cl off bs.length byte := by
  obtain ⟨only, ctxs, cores, -, -⟩ := id t
  have store : u.w = (w1.spanWrite c (s.w.winSpan c cl off) bs).retire c x x.flag := congrArg State.w hu
  have frame : u.w = { w1 with ctxs := u.w.ctxs, cores := u.w.cores, clusters := u.w.clusters } := by
    rw [store]
    generalize s.w.winSpan c cl off = sp
    cases sp <;> rfl
  have core (d : CtxId) : u.w.core d = (w1.spanWrite c (s.w.winSpan c cl off) bs).core d := by rw [store]; rfl
  refine ⟨⟨by rw [hu], by rw [hu], fun d hd => ?_, fun d hd => ?_⟩, ?_, ?_, ?_⟩
  · rw [store, Work.retire_ctx_other _ _ _ hd, Work.ctx_spanWrite, ctxs d hd]
  · rw [core, Work.core_spanWrite_other _ _ _ _ hd, cores d hd]
  · exact frame.trans (congrArg (fun w : Work => { w with ctxs := u.w.ctxs, cores := u.w.cores, clusters := u.w.clusters }) only)
  · rw [core, Work.core_spanWrite]
  · refine .of_spanWrite (w1 := w1) hdecl ?_ t.clusters (congrArg Core.localMem (core c)) (by rw [store]; rfl) hbyte
    rw [t.core]

@[simp] theorem length_leBytes (n v : Nat) : (leBytes n v).length = n := by
  induction n generalizing v with
  | zero => rfl
  | succ n ih => simp [leBytes, ih]

theorem leBytes_getD (n v i : Nat) (h : i < n) : (leBytes n v).getD i 0 = BitVec.ofNat 8 (v / 256 ^ i) := by
  induction n generalizing v i with
  | zero => omega
  | succ n ih =>
    cases i with
    | zero => simp [leBytes]
    | succ i =>
      rw [leBytes, List.getD_cons_succ, ih _ _ (by omega), Nat.div_div_eq_div_mul, Nat.pow_succ']

/-- The bytes of a word, least significant first (R2). -/
theorem leBytes_word (v : Word) {i : Nat} (h : i < 8) : (leBytes 8 v.toNat).getD i 0 = v.extractLsb' (8 * i) 8 := by
  rw [leBytes_getD _ _ _ h]
  apply BitVec.eq_of_toNat_eq
  rw [BitVec.extractLsb'_toNat, BitVec.toNat_ofNat, Nat.shiftRight_eq_div_pow, Nat.pow_mul]

/-! `s.ld` and `s.st` (R117). -/

/-- The range of an aligned offset within a window. -/
theorem scalarSpan_of_fits {w w1 : Work} {c : CtxId} {op : KOp} {f : Fields} {x : InFlight} (hx : x = w.capture c op f)
    (hdecl : (w1.ctx c).decl = (w.ctx c).decl) (ha : fieldClass f.a = 0) {a : Nat}
    (hat : a = ((w.ctx c).getS (fieldNum f.a) + f.imm.signExtend 64).toNat) (h8 : a % 8 = 0)
    (hfit : a + 8 ≤ winSize w c (f.mod.getLsbD 1)) : scalarSpan (w1.ctx c) x = .ok (w.winSpan c (f.mod.getLsbD 1) a) := by
  have offset : (x.va + immS x.f).toNat = a := by rw [hx, w.capture_va_scalar c op ha, hat]; rfl
  have range : (w1.ctx c).span (modBit x.f 1) a 8 = w.winSpan c (f.mod.getLsbD 1) a := by
    rw [← Work.span_of_fits hfit, hx]
    unfold Ctx.span
    rw [hdecl]
    rfl
  unfold scalarSpan
  simp only [offset, h8, range, ne_eq, not_true, if_false]
  unfold Work.winSpan
  cases f.mod.getLsbD 1 <;> rfl

/-- Settles O3: both instructions find their window as the context dispatched them. -/
theorem scalarLoadStoreResults : Obligations.ScalarLoadStoreResults := by
  intro c f ev s hr ha k cl a h8 hfit
  have addr := k.fieldFault_scalar ha
  refine ⟨fun hd => ?load, fun hb => ?store⟩
  case load =>
    refine ctxDone_of_putS hr (Ctx.operandFault_eq_none (k.fieldFault_scalar hd) addr rfl) (by decide) ?_
    have t := Work.takes_started hr (op := .sLd) (by decide) f
    show effSLd _ c _ = _
    rw [effSLd, scalarSpan_of_fits rfl t.decl ha rfl h8 hfit, withOp, t.spanRead, Work.spanRead_winSpan]
  case store =>
    have fields : k.operandFault .sSt f = none := Ctx.operandFault_eq_none rfl addr (k.fieldFault_scalar hb)
    obtain ⟨w1, t, ho⟩ := completed_of_straight (ev := ev) hr fields (by decide) fun w1 t => by
      show effSSt w1 c _ = _
      rw [effSSt, scalarSpan_of_fits rfl t.decl ha rfl h8 hfit, withOp, s.w.capture_vb_scalar c _ hb]
    obtain ⟨only, ctxs, cores, ctx, core⟩ := id t
    have after : ((w1.spanWrite c (s.w.winSpan c cl a) (leBytes 8 (k.getS (fieldNum f.b)).toNat)).retire c (s.w.capture c .sSt f)
        (s.w.capture c .sSt f).flag).ctx c = { k with pc := k.pc + 8, dispatchPc := k.pc, busy := true } := by
      have unflagged : (s.w.capture c .sSt f).flag = none := rfl
      rw [Work.retire, Work.ctx_updCtx_same, Work.ctx_spanWrite, ctx, unflagged]
      simp [k, Work.ready_infl hr]
    obtain ⟨elsewhere, frame, mem, stored⟩ := t.stored rfl (byte := fun i => (k.getS (fieldNum f.b)).extractLsb' (8 * i) 8)
      (fun i hi => leBytes_word _ (by simpa using hi)) (congrArg Ctx.decl after :)
    rw [length_leBytes] at stored
    exact ⟨_, ho, elsewhere, frame, after, mem.trans (by rw [core]; rfl), stored⟩

/-! The state after reset (R70, R352, R433, R435, R499). -/

/-- No context, no counter word and no port of a device after reset differs from an untouched one. -/
theorem Work.reset_ctx (c : CtxId) : Work.reset.ctx c = .empty := rfl
theorem Work.reset_ctrWord_isFresh (b : Nat) : (Work.reset.ctrWord b).isFresh = true := rfl
theorem Work.reset_port_st (p : Nat) : (Work.reset.port p).st = 0 := rfl

/-- Settles O58: every table is empty at reset, and the management registers hold their reset values. -/
theorem resetState : Obligations.ResetState := by
  refine ⟨fun c => ?_, Work.reset_ctrWord_isFresh, Work.reset_port_st, ?_⟩
  · show (Work.reset.ctx c).st = _ ∧ (Work.reset.ctx c).fault = _ ∧ (Work.reset.ctx c).infl = _
    rw [Work.reset_ctx]
    exact ⟨rfl, rfl, rfl⟩
  · refine ⟨rfl, rfl, rfl, rfl, rfl, rfl, ?_, rfl, rfl⟩
    show Ctl.limitsOk _
    unfold Ctl.limitsOk
    decide

end Sys2Proof.Machine
end

section
/-! An engine's instruction that acts at its start, and goes on or stands (R84); the ranges of HBM and of windows that it names (R111, R345). -/

namespace Sys2Proof.Machine

/-- It finds the state of its dispatch. -/
theorem Work.takes_started_engine {w : Work} {c : CtxId} (h : w.ready c) {op : KOp} (hq : op.queue ≠ .C) (f : Fields) :
    w.Takes c (w.capture c op f) (w.started c op f) := by
  refine ⟨w.started_eq c op f, fun e he => ?_, fun e he => ?_, ?_, ?_⟩
  · rw [Work.started, Work.ctx_noteServed, Work.ctx_updCtx_other _ _ he]
    rfl
  · rw [Work.started, Work.noteServed_core_other _ _ he]
    rfl
  · rw [Work.started_ctx, Ctx.dispatched_engine _ _ hq, Work.ready_infl h]
    rfl
  · rw [Work.started, Work.noteServed_core _ _ _ hq]
    exact (if_neg hq).symm

/-- Its effect at its start ends as the effect says, unless the instruction is then under way. -/
theorem Work.issue_conclude {w : Work} {c : CtxId} (h : w.ready c) {op : KOp} {f : Fields} {ev : MemEvent} {e : Effect}
    (hf : (w.ctx c).operandFault op f = none) (ha : op.actsAtStart = true)
    (he : op.effect (w.started c op f) c (w.capture c op f) ev = e)
    (hn : ∀ y, (e.conclude c (w.capture c op f)).instr c w.nextId = some y → y.stat ≠ .started) :
    w.issue c op f (.start ev) = e.conclude c (w.capture c op f) := by
  rw [Work.issue_begin h op f ev hf]
  simp only [ha, if_true, he]
  split
  next y hy => rw [if_neg (hn y hy)]
  next => rfl

/-- An instruction that stands elsewhere has the state that it was given. -/
theorem Work.stat_of_stands {w : Work} {c : CtxId} {n : Nat} {st : IStat} {x y : InFlight}
    (h : ((w.setStat c n st).noteSent c x).instr c n = some y) : y.stat = st := by
  have hid : y.id = n := by simpa using List.find?_some h
  have hy := List.mem_of_find?_eq_some h
  simp only [Work.noteSent, Work.setStat, Work.ctx_updCtx_same, List.mem_map] at hy
  obtain ⟨b, ⟨a, -, rfl⟩, rfl⟩ := hy
  grind

/-- An instruction whose effect at its start is to stand for an event on the device stands in the step that issued it. -/
theorem stands_at_start {s : State} {c : CtxId} (h : s.w.ready c) {op : KOp} {f : Fields} {ev : MemEvent} {st : IStat} {E : Work → Work}
    (hf : (s.w.ctx c).operandFault op f = none) (hq : op.queue ≠ .C) (ha : op.actsAtStart = true) (hr : st ≠ .remote) (hst : st ≠ .started)
    (he : ∀ w1, s.w.Takes c (s.w.capture c op f) w1 → op.effect w1 c (s.w.capture c op f) ev = .stand (E w1) st) :
    Stands s (.next (s.onW fun w => w.issue c op f (.start ev))) c (s.w.capture c op f) st E := by
  have taken := Work.takes_started_engine h hq f
  have stands (w2 : Work) : (Effect.stand w2 st).conclude c (s.w.capture c op f) = (w2.setStat c s.w.nextId st).noteSent c (s.w.capture c op f) := by
    simp [Effect.conclude, Effect.stand, hr]
  refine ⟨_, taken, ?_⟩
  rw [State.onW, Work.issue_conclude h hf ha (he _ taken), stands]
  · rfl
  · intro y hy
    rw [stands] at hy
    rwa [Work.stat_of_stands hy]

namespace Work.Takes

variable {w w1 : Work} {c : CtxId} {x : InFlight} (t : w.Takes c x w1)
include t

/-- Its entry in the context's list changes. -/
theorem relist (m : InFlight → InFlight) (hop : (m x).op = x.op) :
    w.Takes c (m x) (w1.updCtx c fun k => { k with infl := k.infl.map m }) := by
  obtain ⟨only, ctxs, cores, ctx, core⟩ := t
  refine ⟨?_, fun e he => (Work.ctx_updCtx_other _ _ he).trans (ctxs e he), cores, ?_, hop ▸ core⟩
  · exact (congrArg (fun v : Work => { v with ctxs := (w1.updCtx c fun k => { k with infl := k.infl.map m }).ctxs }) only)
  · rw [Work.ctx_updCtx_same, ctx]
    rfl

theorem noteSnap (bs : List Byte) : w.Takes c { x with snap := bs } (w1.noteSnap c x.id bs) := by
  have := t.relist (fun y => if y.id = x.id then { y with snap := bs } else y) (by simp)
  rwa [if_pos rfl] at this

theorem setStat (st : IStat) : w.Takes c { x with stat := st } (w1.setStat c x.id st) := by
  have := t.relist (fun y => if y.id = x.id then { y with stat := st } else y) (by simp)
  rwa [if_pos rfl] at this

theorem noteSent {y : InFlight} (hy : y.id = x.id) :
    w.Takes c { x with sentTo := (w1.destUnits c x).map fun u => (u, w1.epochs.get 0 u.toNat) } (w1.noteSent c y) := by
  have found : w1.instr c y.id = some x := by simp [Work.instr, t.ctx, hy]
  have := t.relist (fun z => if z.id = x.id then { z with sentTo := (w1.destUnits c x).map fun u => (u, w1.epochs.get 0 u.toNat) } else z) (by simp)
  rw [if_pos rfl] at this
  rwa [Work.noteSent, found, hy]

end Work.Takes

/-- A reply is of the epoch that its request left with, while no unit is reset (R19). -/
theorem Work.staleReply_self (w : Work) (c : CtxId) (x y : InFlight) :
    w.staleReply { y with sentTo := (w.destUnits c x).map fun u => (u, w.epochs.get 0 u.toNat) } = false := by
  simp [Work.staleReply]

/-- An instruction that is under way after its start, and is no product, completes in the step that issued it. -/
theorem completed_of_underway {s : State} {c : CtxId} (h : s.w.ready c) {op : KOp} {f : Fields} {ev : MemEvent} {E : Work → Work} {x : InFlight}
    {w2 : Work} (hf : (s.w.ctx c).operandFault op f = none) (hq : op.queue ≠ .C) (ha : op.actsAtStart = true) (hp : op.isProduct = false)
    (start : op.effect (s.w.started c op f) c (s.w.capture c op f) ev = .stand w2 .started) (t2 : s.w.Takes c x w2)
    (hid : x.id = s.w.nextId) (hop : x.op = op)
    (he : ∀ l w1, s.w.Takes c { x with stat := .started, sentTo := l } w1 →
      op.effect w1 c { x with stat := .started, sentTo := l } ev = .done (E w1)) :
    ∃ l, Completed s (.next (s.onW fun w => w.issue c op f (.start ev))) c { x with stat := .started, sentTo := l } E := by
  subst hop
  have stands : (Effect.stand w2 .started).conclude c (s.w.capture c x.op f) = (w2.setStat c x.id .started).noteSent c (s.w.capture c x.op f) := by
    rw [hid]; simp [Effect.conclude, Effect.stand]
  have t := (t2.setStat .started).noteSent (y := s.w.capture c x.op f) hid.symm
  have fresh : ((w2.setStat c x.id .started).noteSent c (s.w.capture c x.op f)).staleReply _ = false :=
    (w2.setStat c x.id .started).staleReply_self c { x with stat := .started } { x with stat := .started }
  have effect := he _ _ t
  refine ⟨_, _, t, ?_⟩
  rw [State.onW, Work.issue_begin h x.op f ev hf]
  simp only [ha, if_true, start, stands]
  generalize (w2.setStat c x.id .started).noteSent c (s.w.capture c x.op f) = w1 at t effect fresh ⊢
  generalize ((w2.setStat c x.id .started).destUnits c _).map _ = l at t effect fresh ⊢
  have found : w1.instr c s.w.nextId = some { x with stat := .started, sentTo := l } := by simp [Work.instr, t.ctx, hid]
  have free : (w1.ctx c).productHeld { x with stat := .started, sentTo := l } = false := by simp [Ctx.productHeld, hp]
  simp only [found, if_true]
  rw [Work.completeStarted_done free fresh hq effect]

/-! Ranges of HBM by block (R241, R345). -/

/-- The parts of a range lie in one block each and make up the range. -/
theorem blockParts_spec (fuel a n : Nat) (h : n = 0 ∨ n + a % 512 ≤ 512 * fuel) :
    ((blockParts fuel a n).map (·.2)).sum = n ∧ ∀ b, b ∈ blockParts fuel a n → b.1 % 512 + b.2 ≤ 512 := by
  induction fuel generalizing a n with
  | zero => exact ⟨by simp [blockParts]; omega, fun b hb => by simp [blockParts] at hb⟩
  | succ fuel ih =>
    unfold blockParts
    split
    next hn => simp [hn]
    next hn =>
      have rest : n - min n (512 - a % 512) = 0 ∨
          n - min n (512 - a % 512) + (a + min n (512 - a % 512)) % 512 ≤ 512 * fuel := by
        rcases Nat.le_total n (512 - a % 512) with inside | beyond
        · exact .inl (by omega)
        · rw [Nat.min_eq_right beyond]
          omega
      obtain ⟨total, each⟩ := ih (a + min n (512 - a % 512)) (n - min n (512 - a % 512)) rest
      refine ⟨by simp only [List.map_cons, List.sum_cons, total]; omega, fun b hb => ?_⟩
      rcases List.mem_cons.1 hb with rfl | hb
      · show a % 512 + min n (512 - a % 512) ≤ 512
        omega
      · exact each b hb

theorem sum_rangeBlocks (a n : Nat) : ((rangeBlocks a n).map (·.2)).sum = n := (blockParts_spec _ a n (by omega)).1

theorem rangeBlocks_le {a n : Nat} {b : Nat × Nat} (h : b ∈ rangeBlocks a n) : b.1 % 512 + b.2 ≤ 512 := (blockParts_spec _ a n (by omega)).2 b h

/-- Translation keeps the place in a block. -/
theorem Work.translate_mod {w : Work} {q : Fin 8} {a pa d : Nat} (h : w.translate q a = some (pa, d)) : pa % 512 = a % 512 := by
  unfold Work.translate at h
  split at h
  · obtain ⟨e, -, he⟩ := Option.map_eq_some_iff.1 h
    obtain ⟨rfl, -⟩ := Prod.mk.inj he
    omega
  · cases h

theorem Work.length_plainOf (w : Work) (key : List Byte) (b : Nat) : (w.plainOf key b).length = 512 := by
  rw [Work.plainOf, length_gcmCrypt, Mem.readN_eq_map]
  simp

/-- The bytes of a range as they stand are as many as the range has. -/
theorem Work.length_peek (w : Work) (q : Fin 8) (a n : Nat) : (w.peek q a n).length = n := by
  refine (List.length_flatMap ..).trans ((congrArg List.sum (List.map_congr_left fun b hb => ?_)).trans (sum_rangeBlocks a n))
  split
  next pa d ht =>
    split
    · exact List.length_replicate
    · rw [List.length_take, List.length_drop, Work.length_plainOf, Work.translate_mod ht]
      have := rangeBlocks_le hb
      omega
  next => exact List.length_replicate

/-- A readable range's bytes. -/
theorem Work.getRead_readable {w : Work} {q : Fin 8} {a n : Nat} (h : w.readable q a n) (c : CtxId) (x : InFlight) :
    w.getRead c x q a n .ok = (⟨0, w.peek q a n⟩, w) := by
  rw [Work.getRead, ite_self, Work.hbmRead_readable _ _ _ _ h (w.length_peek q a n)]

theorem evAfter_ok (n : Nat) : evAfter .ok n = .ok := by
  induction n with
  | zero => rfl
  | succ n ih => exact ih

namespace Work.Takes

variable {w w1 : Work} {c : CtxId} {x : InFlight} (t : w.Takes c x w1)
include t

/-! HBM is as it was. -/

theorem peek (q : Fin 8) (a n : Nat) : w1.peek q a n = w.peek q a n := (congrArg (fun v : Work => v.peek q a n) t.1).trans rfl
theorem mapped (q : Fin 8) (a n : Nat) : w1.mapped q a n = w.mapped q a n := (congrArg (fun v : Work => v.mapped q a n) t.1).trans rfl
theorem readable (q : Fin 8) (a n : Nat) : w1.readable q a n = w.readable q a n := (congrArg (fun v : Work => v.readable q a n) t.1).trans rfl
theorem writeRole (q : Fin 8) (a n : Nat) : w1.writeRole q a n = w.writeRole q a n := (congrArg (fun v : Work => v.writeRole q a n) t.1).trans rfl

theorem descAt (h : Word) : w1.descAt c h = w.descAt c h := by
  unfold Work.descAt
  simp only [t.range, t.spanRead]

end Work.Takes

/-! Operands in windows (R79, R111). -/

/-- A handle's range. -/
theorem Ctx.range_of_fits {w : Work} {c : CtxId} {h : Word} {n : Nat} (hf : w.fits c h n) :
    (w.ctx c).range h n = .ok (w.winSpan c (h.getLsbD 63) (h.toNat % 2 ^ 24)) := by
  obtain ⟨aligned, inside⟩ := hf
  have mant : hMant h = h.toNat % 2 ^ 24 := by rw [hMant, bitsOf, Nat.pow_zero, Nat.div_one]
  rw [Ctx.range, if_neg (by rw [mant]; omega), mant, hSpace, Work.span_of_fits inside]
  unfold Work.winSpan
  cases h.getLsbD 63 <;> rfl

/-- A handle's range without a fault lies in its window. -/
theorem Ctx.range_eq_ok {w : Work} {c : CtxId} {h : Word} {n : Nat} {sp : Span} (hr : (w.ctx c).range h n = .ok sp) :
    sp = w.winSpan c (h.getLsbD 63) (h.toNat % 2 ^ 24) := by
  have mant : hMant h = h.toNat % 2 ^ 24 := by rw [hMant, bitsOf, Nat.pow_zero, Nat.div_one]
  unfold Ctx.range at hr
  rw [mant] at hr
  unfold Ctx.span at hr
  unfold Work.winSpan
  rw [hSpace] at hr
  split at hr
  · cases hr
  · grind

theorem Work.spanRead_range (w : Work) {c : CtxId} (h : Word) (n : Nat) :
    w.spanRead c (w.winSpan c (h.getLsbD 63) (h.toNat % 2 ^ 24)) n = winBytes w c h n := Work.spanRead_winSpan ..

/-- The three operands of an instruction that takes scalar registers alone (R108). -/
theorem Work.capture_scalars {w : Work} {c : CtxId} {op : KOp} {f : Fields} (hf : (w.ctx c).operandFault op f = none)
    (hacc : op.accepts f = ([0], [0], [0])) :
    (w.capture c op f).vd = (w.ctx c).getS (fieldNum f.d) ∧ (w.capture c op f).va = (w.ctx c).getS (fieldNum f.a) ∧
      (w.capture c op f).vb = (w.ctx c).getS (fieldNum f.b) := by
  obtain ⟨hd, ha, hb⟩ := Ctx.fieldFaults_of_operandFault hf
  rw [hacc] at hd ha hb
  have scalar {b : Byte} (h : (w.ctx c).fieldFault [0] b = none) : fieldClass b = 0 := by
    simpa using Ctx.class_of_fieldFault h (by simp)
  exact ⟨w.capture_vd_scalar c op (scalar hd), w.capture_va_scalar c op (scalar ha), w.capture_vb_scalar c op (scalar hb)⟩

end Sys2Proof.Machine
end

section
/-! O15: the data mover (R84, R111-R113, R131). -/

namespace Sys2Proof.Machine

/-- An engine's instruction that has stored bytes in a window (R84). -/
theorem engineDone_of_stored {s : State} {o : Host.Outcome State Fault Refusal} {c : CtxId} {op : KOp} {f : Fields} {x : InFlight} {cl : Bool}
    {off n : Nat} {bs : List Byte} {byte : Nat → Byte} (h : s.w.ready c) (hq : op.queue ≠ .C) (hp : op.isProduct = false)
    (done : Completed s o c x fun w => w.spanWrite c (s.w.winSpan c cl off) bs) (hop : x.op = op) (hf : x.f = f) (hn : bs.length = n)
    (hbyte : ∀ i, i < n → bs.getD i 0 = byte i) :
    EngineDone s o c f (s.w.ctx c) fun t =>
      t.w = { s.w with ctxs := t.w.ctxs, cores := t.w.cores, clusters := t.w.clusters, nextId := s.w.nextId + 1 } ∧
        t.w.core c = { (s.w.core c).took c op.queue with localMem := (t.w.core c).localMem } ∧ StoredOnly s t c cl off n byte := by
  obtain ⟨w1, t, ho⟩ := done
  subst hop hf hn
  have ran := Work.retire_ran hq (Work.ready_infl h) ((Work.ctx_spanWrite w1 c (s.w.winSpan c cl off) bs c).trans t.ctx)
  obtain ⟨elsewhere, frame, core, stored⟩ := t.stored rfl hbyte (congrArg Ctx.decl ran :)
  obtain ⟨-, -, -, -, took⟩ := t
  refine ⟨_, ho, elsewhere, ran, frame, core.trans ?_, stored⟩
  rw [took, if_neg hq, Core.tookOp, hp]
  rfl

/-! Bytes and operands. -/

theorem length_winBytes (w : Work) (c : CtxId) (h : Word) (n : Nat) : (winBytes w c h n).length = n := by simp [winBytes]

theorem winBytes_getD (w : Work) (c : CtxId) (h : Word) {n i : Nat} (hi : i < n) :
    (winBytes w c h n).getD i 0 = winByte w c (h.getLsbD 63) (h.toNat % 2 ^ 24 + i) := by
  rw [winBytes, List.getD_eq_getElem _ _ (by simpa using hi)]
  simp

/-- The length operand names whole 64-byte lines (R112). -/
theorem lenB_mod (b : Word) : lenB b % 64 = 0 := by
  unfold lenB
  split
  · decide
  · omega

/-- A word repeated (R131). -/
theorem replicate_word_getD (v : Word) {k i : Nat} (hi : i < 8 * k) :
    (List.replicate k (leBytes 8 v.toNat)).flatten.getD i 0 = v.extractLsb' (8 * (i % 8)) 8 := by
  induction k generalizing i with
  | zero => omega
  | succ k ih =>
    rw [List.replicate_succ, List.flatten_cons]
    by_cases first : i < 8
    · rw [List.getD_append _ _ _ _ (by simpa using first), leBytes_word _ first, Nat.mod_eq_of_lt first]
    · rw [List.getD_append_right _ _ _ _ (by simpa using first), length_leBytes, ih (by omega), ← Nat.mod_eq_sub_mod (Nat.le_of_not_lt first)]

/-- An aligned HBM operand (R112). -/
theorem hbmOperand_of_aligned {v : Word} (h : v.toNat % 64 = 0) : hbmOperand v = .ok (v.toNat % 2 ^ 48) := by
  have addr : hbmAddr v = v.toNat % 2 ^ 48 := by rw [hbmAddr, bitsOf, Nat.pow_zero, Nat.div_one]
  rw [hbmOperand, addr, if_neg]
  omega

/-- A tensor descriptor's bytes are those at its handle. -/
theorem Work.descAt_eq_ok {w : Work} {c : CtxId} {h : Word} {d : TensorDesc} (hd : w.descAt c h = .ok d) :
    ∃ sp, (w.ctx c).range h 64 = .ok sp ∧ w.spanRead c sp 64 = winBytes w c h 64 ∧ TensorDesc.ofBytes (winBytes w c h 64) = d := by
  unfold Work.descAt at hd
  split at hd
  · cases hd
  next sp hsp =>
    have bytes : w.spanRead c sp 64 = winBytes w c h 64 := by rw [Ctx.range_eq_ok hsp, Work.spanRead_range]
    rw [bytes] at hd
    refine ⟨sp, hsp, bytes, ?_⟩
    generalize TensorDesc.ofBytes (winBytes w c h 64) = d' at hd ⊢
    dsimp only at hd
    split at hd
    · exact Except.ok.inj hd
    · cases hd

namespace Work.Takes

variable {w w1 : Work} {c : CtxId} {x : InFlight} (t : w.Takes c x w1) {vd va vb : Word} (hvd : x.vd = vd) (hva : x.va = va) (hvb : x.vb = vb)
include t hvd hva hvb

/-- The byte form of `dma.get` in a readable range (R131). -/
theorem effDmaGet_bytes (hm : modBit x.f 0 = false) (ha : va.toNat % 64 = 0) (hd : w.fits c vd (lenB vb))
    (hr : w.readable (w.ctx c).part (va.toNat % 2 ^ 48) (lenB vb)) :
    effDmaGet w1 c x .ok = .done (w1.spanWrite c (w.winSpan c (vd.getLsbD 63) (vd.toNat % 2 ^ 24))
      (w.peek (w.ctx c).part (va.toNat % 2 ^ 48) (lenB vb))) := by
  have read := Work.getRead_readable ((t.readable _ _ _).symm ▸ hr) c x
  simp only [effDmaGet, hm, hvd, hva, hvb, hbmOperand_of_aligned ha, withOp, t.range, Ctx.range_of_fits hd, t.part, read, t.peek, ne_eq, not_true,
    if_false, Bool.false_eq_true]

omit hva in
/-- The tile form in readable ranges (R113, R131). -/
theorem effDmaGet_tile {m e : Span} {d : TensorDesc} (hm : modBit x.f 0 = true) (hd : TensorDesc.ofBytes x.snap = d)
    (hs : (w.ctx c).tileSpans vd d.fmt = .ok (m, e)) (hr : w.readable (w.ctx c).part (d.mantAt vb.toNat) (tileBytes d.fmt))
    (he : w.readable (w.ctx c).part (d.expAt vb.toNat) 128) :
    effDmaGet w1 c x .ok = .done ((w1.spanWrite c m (w.peek (w.ctx c).part (d.mantAt vb.toNat) (tileBytes d.fmt))).spanWrite c e
      (w.peek (w.ctx c).part (d.expAt vb.toNat) 128)) := by
  have read := Work.getRead_readable ((t.readable _ _ _).symm ▸ hr) c x
  have exps := Work.getRead_readable ((t.readable _ _ _).symm ▸ he) c x
  simp only [effDmaGet, hm, hd, hvd, hvb, withOp, t.tileSpans, hs, t.part, read, exps, t.peek, evAfter_ok, ne_eq, not_true, if_false, if_true]

omit hvb in
/-- The start of the tile form reads the descriptor (R113). -/
theorem startDmaGet_tile {m e : Span} {d : TensorDesc} (hm : modBit x.f 0 = true) (hd : w.descAt c va = .ok d)
    (hs : (w.ctx c).tileSpans vd d.fmt = .ok (m, e)) :
    startDmaGet w1 c x = .stand (w1.noteSnap c x.id (winBytes w c va 64)) .started := by
  obtain ⟨sp, hsp, bytes, -⟩ := Work.descAt_eq_ok hd
  simp only [startDmaGet, hm, hva, hvd, t.descAt, hd, withOp, t.tileSpans, hs, t.range, hsp, t.spanRead, bytes, Bool.true_eq_false, if_false]

/-- The parts of a `dma.put` in its byte form. -/
theorem putParts_bytes (hm : modBit x.f 0 = false) (hd : vd.toNat % 64 = 0) (ha : w.fits c va (lenB vb)) :
    w1.putParts c x = .ok [(vd.toNat % 2 ^ 48, winBytes w c va (lenB vb))] := by
  simp only [Work.putParts, hm, hvd, hva, hvb, hbmOperand_of_aligned hd, t.range, Ctx.range_of_fits ha, t.spanRead, Work.spanRead_range,
    Bool.false_eq_true, if_false]

/-- In its tile form. -/
theorem putParts_tile {d : TensorDesc} {m e : Span} (hm : modBit x.f 0 = true) (hd : w.descAt c vd = .ok d)
    (hs : (w.ctx c).tileSpans va d.fmt = .ok (m, e)) :
    w1.putParts c x = .ok [(d.mantAt vb.toNat, w.spanRead c m (tileBytes d.fmt)), (d.expAt vb.toNat, w.spanRead c e 128)] := by
  simp only [Work.putParts, hm, hvd, hva, hvb, t.descAt, hd, t.tileSpans, hs, t.spanRead, if_true]

/-- `dma.copy` within its windows. -/
theorem effDmaCopy_fits (hd : w.fits c vd (lenB vb)) (ha : w.fits c va (lenB vb)) :
    effDmaCopy w1 c x = .done (w1.spanWrite c (w.winSpan c (vd.getLsbD 63) (vd.toNat % 2 ^ 24)) (winBytes w c va (lenB vb))) := by
  simp only [effDmaCopy, hvd, hva, hvb, t.range, Ctx.range_of_fits ha, Ctx.range_of_fits hd, withOp, t.spanRead, Work.spanRead_range]

/-- `dma.fill` within its window. -/
theorem effDmaFill_fits (hd : w.fits c vd (lenB vb)) :
    effDmaFill w1 c x = .done (w1.spanWrite c (w.winSpan c (vd.getLsbD 63) (vd.toNat % 2 ^ 24))
      (List.replicate (lenB vb / 8) (leBytes 8 va.toNat)).flatten) := by
  simp only [effDmaFill, hvd, hva, hvb, t.range, Ctx.range_of_fits hd, withOp]

omit hvd hva hvb

/-- `dma.put` whose parts are mapped and overlap no weight pair stands for a stack controller (R84, R205). -/
theorem effDmaPut_free {ev : MemEvent} {ps : List (Nat × List Byte)} (hp : w1.putParts c x = .ok ps) (hev : evUe (evHere ev) = false)
    (hfree : ∀ p, p ∈ ps → w.mapped (w.ctx c).part p.1 p.2.length = true ∧ w.writeRole (w.ctx c).part p.1 p.2.length = .free) :
    effDmaPut w1 c x ev = .stand { w1 with writes := w1.writes ++ [⟨(w.ctx c).part, ps, c, x.id⟩] } .writing := by
  have unmapped : ps.find? (fun p => !w1.mapped (w.ctx c).part p.1 p.2.length) = none := by
    rw [List.find?_eq_none]
    intro p hp
    simp [t.mapped, (hfree p hp).1]
  have current : ps.any (fun p => decide (w1.writeRole (w.ctx c).part p.1 p.2.length = .current)) = false := by
    rw [List.any_eq_false]
    intro p hp
    simp [t.writeRole, (hfree p hp).2]
  have held : ps.any (fun p => w1.mustHold (w.ctx c).part p.1 p.2.length) = false := by
    rw [List.any_eq_false]
    intro p hp
    simp [Work.mustHold, t.writeRole, (hfree p hp).2]
  simp only [effDmaPut, hp, withOp, withSram, hev, t.part, unmapped, current, held, Bool.false_eq_true, if_false]

end Work.Takes

/-- Settles O15: each form finds its operands as the context dispatched it. -/
theorem dataMoverResults : Obligations.DataMoverResults := by
  intro c f s hr k sd sa sb n described stored written
  have puts (ev : MemEvent) (parts : List (Nat × List Byte)) (hf : k.operandFault .dmaPut f = none)
      (hp : ∀ w1, s.w.Takes c (s.w.capture c .dmaPut f) w1 → w1.putParts c (s.w.capture c .dmaPut f) = .ok parts) : written ev parts :=
    fun hev hfree => stands_at_start hr hf (by decide) (by decide) (by decide) (by decide) fun w1 t => t.effDmaPut_free (hp w1 t) hev hfree
  refine ⟨fun hm hf ha hd hread => ?getBytes, fun d m e hm hf hdesc hs hread hexp => ?getTile, fun ev hm hf hd ha => ?putBytes,
    fun ev d m e hm hf hdesc hs => ?putTile, fun ev hf ha hd => ?copy, fun ev hf hd => ?fill⟩
  case getBytes =>
    obtain ⟨vd, va, vb⟩ := Work.capture_scalars hf rfl
    have taken := Work.takes_started_engine hr (op := .dmaGet) (by decide) f
    obtain ⟨l, done⟩ := completed_of_underway (ev := .ok) hr hf (by decide) (by decide) (by decide)
      (show startDmaGet _ c _ = _ from if_pos hm) taken rfl rfl fun l w1 t => t.effDmaGet_bytes vd va vb hm ha hd hread
    exact engineDone_of_stored hr (by decide) (by decide) done rfl rfl (Work.length_peek ..) fun i _ => rfl
  case getTile =>
    obtain ⟨vd, va, vb⟩ := Work.capture_scalars hf rfl
    have taken := Work.takes_started_engine hr (op := .dmaGet) (by decide) f
    obtain ⟨-, -, -, desc⟩ := Work.descAt_eq_ok hdesc
    exact completed_of_underway hr hf (by decide) (by decide) (by decide) (taken.startDmaGet_tile vd va hm hdesc hs)
      (taken.noteSnap _) rfl rfl fun l w1 t => t.effDmaGet_tile vd vb hm desc hs hread hexp
  case putBytes =>
    obtain ⟨vd, va, vb⟩ := Work.capture_scalars hf rfl
    exact puts ev _ hf fun w1 t => t.putParts_bytes vd va vb hm hd ha
  case putTile =>
    obtain ⟨vd, va, vb⟩ := Work.capture_scalars hf rfl
    exact puts ev _ hf fun w1 t => t.putParts_tile vd va vb hm hdesc hs
  case copy =>
    obtain ⟨vd, va, vb⟩ := Work.capture_scalars hf rfl
    have done := completed_of (ev := ev) hr hf (by decide) (by decide) (by decide) fun w1 t => t.effDmaCopy_fits vd va vb hd ha
    exact engineDone_of_stored hr (by decide) (by decide) done rfl rfl (length_winBytes ..) fun i hi => winBytes_getD _ _ _ hi
  case fill =>
    obtain ⟨vd, va, vb⟩ := Work.capture_scalars hf rfl
    have done := completed_of (ev := ev) hr hf (by decide) (by decide) (by decide) fun w1 t => t.effDmaFill_fits vd va vb hd
    have whole : 8 * (n / 8) = n := by have := lenB_mod sb; omega
    have len : (List.replicate (n / 8) (leBytes 8 sa.toNat)).flatten.length = n := by simp [Nat.mul_comm, whole]
    exact engineDone_of_stored hr (by decide) (by decide) done rfl rfl len fun i hi => replicate_word_getD _ (whole.symm ▸ hi)

end Sys2Proof.Machine
end

section
/-! O18: the fabric instructions (R79, R131, R281-R288). -/

namespace Sys2Proof.Machine

/-- Every entry with the number of an instruction that stands has the state that it was given. -/
theorem Work.stat_of_mem_stands {w : Work} {c : CtxId} {n : Nat} {st : IStat} {x y : InFlight}
    (hy : y ∈ (((w.setStat c n st).noteSent c x).ctx c).infl) (hid : y.id = n) : y.stat = st := by
  simp only [Work.noteSent, Work.setStat, Work.ctx_updCtx_same, List.mem_map] at hy
  obtain ⟨b, ⟨a, -, rfl⟩, rfl⟩ := hy
  grind

@[simp] theorem Ctx.bumpFlag_infl (k : Ctx) (n : Nat) : (k.bumpFlag n).infl = k.infl := rfl

/-- Remote completion takes an instruction from its context's list, and adds none (R84). -/
theorem Work.mem_infl_of_remoteDone {w : Work} {c : CtxId} {n : Nat} {y : InFlight} (h : y ∈ ((w.remoteDone c n 0).ctx c).infl) :
    y ∈ (w.ctx c).infl := by
  unfold Work.remoteDone at h
  split at h
  next => exact h
  next x hx =>
    simp only [ne_eq, not_true, decide_false, Bool.false_and, Bool.false_eq_true, if_false] at h
    split at h
    · rw [Work.retire, Work.ctx_updCtx_same] at h
      cases hfl : x.flag <;> rw [hfl] at h <;> exact (List.mem_filter.1 h).1
    · exact h

/-- A fabric instruction that stands for remote completion does so in the step that issued it, and is complete where it owes nothing (R84). -/
theorem issue_remote {w : Work} {c : CtxId} (h : w.ready c) {op : KOp} {f : Fields} {ev : MemEvent} {E : Work → Work}
    (hf : (w.ctx c).operandFault op f = none) (hop : op ∈ [KOp.fabPut, .fabGet, .fabMcast])
    (he : ∀ w1, w.Takes c (w.capture c op f) w1 → op.effect w1 c (w.capture c op f) ev = .stand (E w1) .remote) :
    ∃ w1, w.Takes c (w.capture c op f) w1 ∧
      let w2 := ((E w1).setStat c w.nextId .remote).noteSent c (w.capture c op f)
      w.issue c op f (.start ev) = if op ≠ .fabGet ∧ w2.owesRemote c w.nextId = false then w2.remoteDone c w.nextId 0 else w2 := by
  have kind : op.queue ≠ .C ∧ op.actsAtStart = true ∧ (op = .fabPut ∨ op = .fabMcast ↔ op ≠ .fabGet) := by
    simp only [List.mem_cons, List.not_mem_nil, or_false] at hop
    rcases hop with rfl | rfl | rfl <;> simp [KOp.queue, KOp.actsAtStart]
  obtain ⟨hq, ha, sends⟩ := kind
  have taken := Work.takes_started_engine h hq f
  refine ⟨_, taken, ?_⟩
  generalize hw2 : ((E (w.started c op f)).setStat c w.nextId .remote).noteSent c (w.capture c op f) = w2
  have stands : (Effect.stand (E (w.started c op f)) .remote).conclude c (w.capture c op f) =
      if op ≠ .fabGet ∧ w2.owesRemote c w.nextId = false then w2.remoteDone c w.nextId 0 else w2 := by
    simp only [Effect.conclude, Effect.stand, Work.capture_id, Work.capture_op, hw2]
    refine if_congr ?_ rfl rfl
    simp only [Bool.and_eq_true, Bool.or_eq_true, decide_eq_true_eq, true_and, Bool.not_eq_true']
    exact and_congr_left' ((or_congr decide_eq_true_iff decide_eq_true_iff).trans sends)
  have remote (y : InFlight) (hy : y ∈ (w2.ctx c).infl) (hid : y.id = w.nextId) : y.stat ≠ .started := by
    rw [← hw2] at hy
    rw [Work.stat_of_mem_stands hy hid]
    decide
  dsimp only
  rw [Work.issue_conclude h hf ha (he _ taken), stands]
  intro y hy
  have hid : y.id = w.nextId := by simpa using List.find?_some hy
  have hm := List.mem_of_find?_eq_some hy
  rw [stands] at hm
  split at hm
  · exact remote y (Work.mem_infl_of_remoteDone hm) hid
  · exact remote y hm hid

namespace Work.Takes

variable {w w1 : Work} {c : CtxId} {x : InFlight} (t : w.Takes c x w1)
include t

/-! The fabric is as it was. -/

theorem time : w1.time = w.time := (congrArg Work.time t.1).trans rfl
theorem fab : w1.fab = w.fab := (congrArg Work.fab t.1).trans rfl
theorem port (p : Nat) : w1.port p = w.port p := (congrArg (fun v : Work => v.port p) t.1).trans rfl
theorem route (q : Fin 8) (d : BitVec 16) : w1.route q d = w.route q d := (congrArg (fun v : Work => v.route q d) t.1).trans rfl
theorem firstPort (q : Fin 8) (d : BitVec 16) : w1.firstPort q d = w.firstPort q d := (congrArg (fun v : Work => v.firstPort q d) t.1).trans rfl
theorem isMember (d : BitVec 16) : w1.isMember c d = w.isMember c d := by unfold Work.isMember; rw [t.jobOf]

theorem retainRoom (q : Fin 8) (j : BitVec 16) (sl : Fin 8) (n : Nat) : w1.retainRoom q j sl n = w.retainRoom q j sl n :=
  (congrArg (fun v : Work => v.retainRoom q j sl n) t.1).trans rfl

theorem mayRetain (n : Nat) : w1.mayRetain c n = w.mayRetain c n := by
  have bytes : w1.retainedBytes c.slice = w.retainedBytes c.slice := (congrArg (fun v : Work => v.retainedBytes c.slice) t.1).trans rfl
  unfold Work.mayRetain
  rw [bytes, t.part, t.ctx_job, t.retainRoom]

theorem fabFault (y : InFlight) (far : Word) : w1.fabFault c y far = w.fabFault c y far := by
  unfold Work.fabFault
  simp only [t.part, t.isMember, t.time, t.route, t.port, t.firstPort]

theorem mcastFault (y : InFlight) : w1.mcastFault c y = w.mcastFault c y := by
  unfold Work.mcastFault
  simp only [t.part, t.fab, t.time, t.port]

end Work.Takes

theorem hbmAddr_eq (v : Word) : hbmAddr v = v.toNat % 2 ^ 48 := by rw [hbmAddr, bitsOf, Nat.pow_zero, Nat.div_one]

theorem InFlight.slot_eq (x : InFlight) : x.slot = x.f.imm.extractLsb' 0 6 := by
  ext i
  simp [InFlight.slot]

/-- A unicast to a member that its route and slot reach meets no fault (R79, R281). -/
theorem Work.fabFault_none {w : Work} {c : CtxId} {x : InFlight} {far : Word} {q : Fin 8} (hq : (w.ctx c).part = q) (aligned : far.toNat % 64 = 0)
    (member : w.isMember c (remoteDev far) = true)
    (reached : remoteDev far = w.time.address ∨ ((w.route q (remoteDev far)).valid = true ∧
      (x.bestEffort = true ∨ (w.port (w.firstPort q (remoteDev far))).slotValid x.slot.toNat = true))) :
    w.fabFault c x far = none := by
  subst hq
  unfold Work.fabFault
  rw [if_neg (by rw [hbmAddr_eq]; omega)]
  simp only [member, Bool.not_true, Bool.false_eq_true, if_false]
  split
  · rfl
  next elsewhere =>
    obtain ⟨route, slot⟩ := reached.resolve_left elsewhere
    rcases slot with be | valid
    · simp [route, be]
    · simp [route, valid]

/-- A multicast of the group's source meets no fault (R281, R288). -/
theorem Work.mcastFault_none {w : Work} {c : CtxId} {x : InFlight} {vd : Word} {e : McastEnt} (hvd : x.vd = vd) (aligned : vd.toNat % 64 = 0)
    (group : (remoteDev vd).toNat < 4096) (he : w.fab.mcast.get .zero (remoteDev vd).toNat = e) (valid : e.valid = true)
    (part : e.part.toNat = (w.ctx c).part.val) (source : e.source = w.time.address)
    (slots : x.bestEffort = true ∨ ∀ p, (List.range 32).find? (fun p => e.ports.getLsbD p) = some p → (w.port p).slotValid x.slot.toNat = true) :
    w.mcastFault c x = none := by
  have entry : w.fab.mcast.get .zero ((remoteDev vd).toNat % 4096) = e := by rw [Nat.mod_eq_of_lt group, he]
  unfold Work.mcastFault
  simp only [hvd, entry]
  rw [if_neg (by rw [hbmAddr_eq]; omega), if_neg (by simp [valid, part, source]; omega)]
  split
  next p hp =>
    rcases slots with be | good
    · simp [be]
    · simp [good p hp]
  next => rfl

namespace Work.Takes

variable {w w1 : Work} {c : CtxId} {x : InFlight} (t : w.Takes c x w1) {vd va vb : Word} (hvd : x.vd = vd) (hva : x.va = va) (hvb : x.vb = vb)
include t hvd hva hvb

theorem effFabPut_sends (hfit : w.fits c va (lenB vb)) (fault : w.fabFault c x vd = none) (room : w.mayRetain c (lenB vb) = true) :
    effFabPut w1 c x = .stand (w1.sendWrites c x (remoteDev vd) false (vd.toNat % 2 ^ 48) (winBytes w c va (lenB vb))) .remote := by
  simp only [effFabPut, hvd, hva, hvb, t.range, Ctx.range_of_fits hfit, withOp, t.fabFault, fault, t.mayRetain, room, if_true, t.spanRead,
    Work.spanRead_range, hbmAddr_eq]

theorem effFabMcast_sends (hfit : w.fits c va (lenB vb)) (fault : w.mcastFault c x = none) (room : w.mayRetain c (lenB vb) = true) :
    effFabMcast w1 c x = .stand (w1.sendWrites c x (remoteDev vd) true (vd.toNat % 2 ^ 48) (winBytes w c va (lenB vb))) .remote := by
  simp only [effFabMcast, hvd, hva, hvb, t.range, Ctx.range_of_fits hfit, withOp, t.mcastFault, fault, t.mayRetain, room, if_true, t.spanRead,
    Work.spanRead_range, hbmAddr_eq]

theorem effFabGet_sends (hfit : w.fits c vd (lenB vb)) (fault : w.fabFault c x va = none) (room : w.mayRetain c 8 = true) :
    effFabGet w1 c x = .stand
      (({ w1 with fab := { w1.fab with
          nextTag := w.fab.nextTag + 1, reads := w1.fab.reads ++ [⟨w.fab.nextTag, remoteDev va, c, x.id, lenB vb, []⟩] } } : Work).sendPkt
        (w.ctx c).part
        { mkPkt (remoteDev va) (w.ctx c).job 0x02 (BitVec.ofNat 64 (va.toNat % 2 ^ 48)) (leBytes 4 w.fab.nextTag.toNat ++ leBytes 4 (lenB vb)) with
          bestEffort := x.bestEffort, slot := if x.bestEffort then 0 else x.slot } (.instr c x.id) c.slice none) .remote := by
  simp only [effFabGet, hvd, hva, hvb, t.range, Ctx.range_of_fits hfit, withOp, t.fabFault, fault, t.mayRetain, room, if_true, hbmAddr_eq, t.part,
    t.ctx_job, t.fab]

end Work.Takes

/-- Settles O18: each instruction finds routes, slots, groups and the retention region as its context dispatched it. -/
theorem fabricInstructionResults : Obligations.FabricInstructionResults := by
  intro c f ev s hr k sd sa n be slot me far sends
  have reach (x : InFlight) (hx : x.f = f) (h : Word) (hfar : far h) : s.w.fabFault c x h = none := by
    obtain ⟨aligned, member, reached⟩ := hfar
    exact Work.fabFault_none rfl aligned member (by rw [InFlight.slot_eq, InFlight.bestEffort, hx]; exact reached)
  refine ⟨fun hf hfit hfar hroom => ?put, fun hf hfit hfar hroom => ?get, ?mcast⟩
  case put =>
    obtain ⟨vd, va, vb⟩ := Work.capture_scalars hf rfl
    obtain ⟨w1, t, issued⟩ := issue_remote (ev := ev) hr hf (by simp) fun w1 t =>
      t.effFabPut_sends vd va vb hfit (reach _ rfl sd hfar) hroom
    exact ⟨w1, t, congrArg (fun w => Host.Outcome.next ({ s with w := w } : State)) issued⟩
  case get =>
    obtain ⟨vd, va, vb⟩ := Work.capture_scalars hf rfl
    obtain ⟨w1, t, issued⟩ := issue_remote (ev := ev) hr hf (by simp) fun w1 t =>
      t.effFabGet_sends vd va vb hfit (reach _ rfl sa hfar) hroom
    simp only [InFlight.slot_eq] at issued
    exact ⟨w1, t, congrArg (fun w => Host.Outcome.next ({ s with w := w } : State)) issued⟩
  case mcast =>
    intro g e hf hfit aligned group valid part source slots hroom
    obtain ⟨vd, va, vb⟩ := Work.capture_scalars hf rfl
    have fault : s.w.mcastFault c (s.w.capture c .fabMcast f) = none :=
      Work.mcastFault_none vd aligned group rfl valid part source (by rw [InFlight.slot_eq]; exact slots)
    obtain ⟨w1, t, issued⟩ := issue_remote (ev := ev) hr hf (by simp) fun w1 t => t.effFabMcast_sends vd va vb hfit fault hroom
    exact ⟨w1, t, congrArg (fun w => Host.Outcome.next ({ s with w := w } : State)) issued⟩

end Sys2Proof.Machine
end

section
/-! O19: sluices, local flags, fences, the generator and `frame.end` (R87-R94, R134, R201). -/

namespace Sys2Proof.Machine

/-- A control-unit instruction that must wait stands where it was dispatched (R84). -/
theorem ctxDone_of_wait {s : State} {c : CtxId} (h : s.w.ready c) {op : KOp} {f : Fields} {ev : MemEvent}
    (hf : (s.w.ctx c).operandFault op f = none) (hq : op.queue = .C)
    (he : op.effect (s.w.started c op f) c (s.w.capture c op f) ev = .wait (s.w.started c op f)) {k' : Ctx} {pc : Nat}
    (hk : (s.w.ctx c).dispatched (s.w.capture c op f) = { k' with pc := pc, dispatchPc := (s.w.ctx c).pc, busy := true }) :
    CtxDone s (.next (s.onW fun w => w.issue c op f (.start ev))) c k' pc := by
  have ha : op.actsAtStart = true := by simp [KOp.actsAtStart, hq]
  have stands : s.w.issue c op f (.start ev) = s.w.started c op f := by
    refine Work.issue_conclude h hf ha he fun y hy => ?_
    have hm := List.mem_of_find?_eq_some hy
    have listed := Work.started_infl h op f
    rw [show (Effect.wait (s.w.started c op f)).conclude c (s.w.capture c op f) = s.w.started c op f from rfl, listed, List.mem_singleton] at hm
    rw [hm]
    exact (by decide : IStat.queued ≠ .started)
  have unserved : s.w.started c op f = ({ s.w with nextId := s.w.nextId + 1 } : Work).updCtx c fun k => k.dispatched (s.w.capture c op f) := by
    rw [Work.started, Work.noteServed, Work.capture_op, hq]
    rfl
  refine ⟨_, rfl, rfl, rfl, ?_, fun e he => ?_, ?_⟩
  · rw [State.onW_w, stands, unserved]; rfl
  · rw [State.onW_w, stands, unserved, Work.ctx_updCtx_other _ _ he]; rfl
  · rw [State.onW_w, stands, Work.started_ctx, hk]

/-! Operand fields that some instructions leave unused (R108). -/

theorem Ctx.scalar_of_fieldFault {k : Ctx} {b : Byte} (h : k.fieldFault [0] b = none) : fieldClass b = 0 := by
  simpa using Ctx.class_of_fieldFault h (by simp)

/-- Operands A and B of an instruction that takes two scalar registers. -/
theorem Work.capture_scalars_ab {w : Work} {c : CtxId} {op : KOp} {f : Fields} (hf : (w.ctx c).operandFault op f = none)
    (hacc : (op.accepts f).2 = ([0], [0])) :
    (w.capture c op f).va = (w.ctx c).getS (fieldNum f.a) ∧ (w.capture c op f).vb = (w.ctx c).getS (fieldNum f.b) := by
  obtain ⟨-, ha, hb⟩ := Ctx.fieldFaults_of_operandFault hf
  rw [hacc] at ha hb
  exact ⟨w.capture_va_scalar c op (Ctx.scalar_of_fieldFault ha), w.capture_vb_scalar c op (Ctx.scalar_of_fieldFault hb)⟩

/-! Sluices (R92-R94). -/

theorem InFlight.sluiceNo_eq {x : InFlight} {va : Word} (h : x.va = va) : x.sluiceNo = va.toNat % 2 ^ 14 := by
  rw [InFlight.sluiceNo, h, bitsOf, Nat.pow_zero, Nat.div_one]

/-- An operation on a sluice goes to its home, or to the local store (R94). -/
theorem Work.issueSluice_eq (w : Work) (q : Fin 8) (j : BitVec 16) (i : Nat) (o : SluiceOp) (sl : Fin 8) (src : Nat) :
    w.issueSluice q j i o sl src =
      if (w.sluice i).fabric = true ∧ (w.sluice i).home ≠ w.time.address then
        w.sendPkt q (mkPkt (w.sluice i).home j 0x06 (BitVec.ofNat 64 i) o.payload) .device sl none
      else w.updSluice i fun y => { y with coming := y.coming ++ [(src, o)] } := by
  unfold Work.issueSluice Work.remoteSluice
  refine if_congr ?_ rfl rfl
  rw [Bool.and_eq_true, decide_eq_true_iff]

/-- What `sl.wait` waits for (R93). -/
theorem Sluice.satisfied_iff (z : Sluice) (g : BitVec 16) :
    z.satisfied g = true ↔ (z.gen = g ∧ (z.count - z.target).toNat < 2 ^ 31) ∨ (1 ≤ (z.gen - g).toNat ∧ (z.gen - g).toNat ≤ 32767) := by
  simp [Sluice.satisfied, Sluice.full, reached32, laterGen]

namespace Work.Takes

variable {w w1 : Work} {c : CtxId} {x : InFlight} (t : w.Takes c x w1)
include t

theorem sluice (i : Nat) : w1.sluice i = w.sluice i := (congrArg (fun v : Work => v.sluice i) t.1).trans rfl
theorem prog (q : Fin 8) (n : BitVec 32) : w1.prog q n = w.prog q n := (congrArg (fun v : Work => v.prog q n) t.1).trans rfl
theorem program : (w1.ctx c).program = (w.ctx c).program := by rw [t.ctx]
theorem declares (i : Nat) : w1.declares c i = w.declares c i := by
  unfold Work.declares
  rw [t.prog, t.part, t.program]

theorem issueSluice (i : Nat) (o : SluiceOp) :
    w1.issueSluice (w1.ctx c).part (w1.ctx c).job i o c.slice (coreKey c) =
      if (w.sluice i).fabric = true ∧ (w.sluice i).home ≠ w.time.address then
        w1.sendPkt (w.ctx c).part (mkPkt (w.sluice i).home (w.ctx c).job 0x06 (BitVec.ofNat 64 i) o.payload) .device c.slice none
      else w1.updSluice i fun y => { y with coming := y.coming ++ [(64 * c.slice.val + c.core.val, o)] } := by
  rw [Work.issueSluice_eq, t.sluice, t.time, t.part, t.ctx_job, coreKey, Nat.mul_comm]

theorem allBefore : (w1.ctx c).allBefore x = true := by simp [Ctx.allBefore, t.ctx]

end Work.Takes

/-! What dispatch leaves (R82). -/

@[simp] theorem Ctx.dispatched_part (k : Ctx) (x : InFlight) : (k.dispatched x).part = k.part := by
  unfold Ctx.dispatched Ctx.rngSet
  split <;> rfl
@[simp] theorem Ctx.dispatched_program (k : Ctx) (x : InFlight) : (k.dispatched x).program = k.program := by
  unfold Ctx.dispatched Ctx.rngSet
  split <;> rfl
@[simp] theorem Ctx.dispatched_flag (k : Ctx) (x : InFlight) (n : Nat) : (k.dispatched x).flag n = k.flag n := by
  unfold Ctx.dispatched Ctx.rngSet
  split <;> rfl

theorem Work.started_declares (w : Work) (c : CtxId) (op : KOp) (f : Fields) (i : Nat) : (w.started c op f).declares c i = w.declares c i := by
  have prog (q : Fin 8) (n : BitVec 32) : (w.started c op f).prog q n = w.prog q n :=
    (congrArg (fun v : Work => v.prog q n) (w.started_eq c op f)).trans rfl
  unfold Work.declares
  rw [Work.started_ctx, Ctx.dispatched_part, Ctx.dispatched_program, prog]

/-- A wait that its sluice or flag has ended lets the context run on (R87, R93). -/
theorem ctxDone_of_resume {s : State} {c : CtxId} (h : s.w.ready c) {op : KOp} {f : Fields} {ev : MemEvent}
    (hf : (s.w.ctx c).operandFault op f = none) (hop : op = .slWait ∨ op = .lfWait)
    (he : op.effect (s.w.started c op f) c (s.w.capture c op f) ev = .done ((s.w.started c op f).resumeDispatch c)) :
    CtxDone s (.next (s.onW fun w => w.issue c op f (.start ev))) c (s.w.ctx c) ((s.w.ctx c).pc + 8) := by
  obtain ⟨running, unheld, -⟩ := id h
  have unlisted := Work.ready_infl h
  have queue : op.queue = .C := by rcases hop with rfl | rfl <;> rfl
  refine ctxDone_of_updCtx h (fun k => { k with hold := .none, st := if k.st = .waiting then .running else k.st }) hf queue he ?_
  generalize s.w.ctx c = k at running unheld unlisted ⊢
  obtain ⟨⟩ := k
  simp only at running unheld unlisted
  subst running unheld unlisted
  rcases hop with rfl | rfl <;> simp [Ctx.dispatched, nextPc]

theorem effSlWait_eq {w : Work} {c : CtxId} {x : InFlight} (declared : w.declares c x.sluiceNo = true) (running : (w.ctx c).st ≠ .paused) :
    effSlWait w c x = if (w.sluice x.sluiceNo).satisfied x.gen then .done (w.resumeDispatch c) else .wait w := by
  simp [effSlWait, withSluice, declared, running]

theorem effLfWait_eq {w : Work} {c : CtxId} {x : InFlight} (running : (w.ctx c).st ≠ .paused) :
    effLfWait w c x = if reached16 ((w.ctx c).flag x.lf) x.f.imm then .done (w.resumeDispatch c) else .wait w := by
  simp [effLfWait, running]

theorem InFlight.lf_eq (x : InFlight) : x.lf = x.f.mod.toNat % 16 := by
  rw [InFlight.lf, modBits, bitsOf, Nat.pow_zero, Nat.div_one]
  rfl

/-! `frame.end` (R88-R90, R105, R191). -/

/-- A context whose segment `frame.end` closes: the lateness and an overrun noted, and a hold frame counted. -/
def Work.closed (w : Work) (c : CtxId) (f : Fields) : Work := ((w.started c .frameEnd f).noteLateness c).countHold c

/-- A running context at `frame.end`, with its lateness, and an overrun that no tick has counted (R90, R105). -/
def Ctx.closing (k : Ctx) (t : TimeSt) : Ctx :=
  let p := t.period.toNat * 1000
  let late := min (t.ftime.toNat - (k.segment + 1) * p) (2 ^ 32 - 1)
  let past := decide (k.segment + 1 ≤ t.ftime.toNat / p) && !k.overrunCounted
  { k with pc := k.pc + 8, dispatchPc := k.pc, maxLateness := max k.maxLateness late, overrunCounted := k.overrunCounted || past
           overruns := if past then k.overruns + 1 else k.overruns }

/-- What the closing notes. -/
theorem Ctx.noteEnd_running {k : Ctx} {t : TimeSt} (running : k.st = .running) (open_ : k.hold ≠ .tick) :
    k.noteEnd t = { k.closing t with pc := k.pc, dispatchPc := k.dispatchPc } := by
  unfold Ctx.noteEnd Ctx.noteLate Ctx.countOverrun Ctx.lateAt TimeSt.frame TimeSt.periodNs Ctx.closing
  cases counted : k.overrunCounted
  · by_cases past : k.segment + 1 ≤ t.ftime.toNat / (t.period.toNat * 1000)
    · simp [running, open_, past, Nat.lt_of_succ_le past]
    · simp [running, open_, counted, past, show ¬k.segment < t.ftime.toNat / (t.period.toNat * 1000) by omega]
  · simp [running, open_, counted]

@[simp] theorem Work.ctx_countHold (w : Work) (c d : CtxId) : (w.countHold c).ctx d = w.ctx d := by
  unfold Work.countHold
  split <;> rfl

theorem Work.started_frameEnd (w : Work) (c : CtxId) (f : Fields) :
    w.started c .frameEnd f =
      ({ w with nextId := w.nextId + 1 } : Work).updCtx c fun k => k.dispatched (w.capture c .frameEnd f) := rfl

theorem Work.closed_ctx_other (w : Work) {c e : CtxId} (f : Fields) (h : e ≠ c) : (w.closed c f).ctx e = w.ctx e := by
  rw [Work.closed, Work.ctx_countHold, Work.noteLateness, Work.ctx_updCtx_other _ _ h, Work.started_frameEnd, Work.ctx_updCtx_other _ _ h]
  rfl

theorem Work.closed_ctx {w : Work} {c : CtxId} (h : w.ready c) (f : Fields) :
    (w.closed c f).ctx c =
      { (w.ctx c).closing w.time with hold := .frameEnd (modBit f 0), infl := [w.capture c .frameEnd f] } := by
  obtain ⟨running, unheld, -⟩ := id h
  have dispatched : (w.ctx c).dispatched (w.capture c .frameEnd f) = { w.ctx c with
      pc := (w.ctx c).pc + 8, dispatchPc := (w.ctx c).pc, hold := .frameEnd (modBit f 0), infl := [w.capture c .frameEnd f] } := by
    simp [Ctx.dispatched, nextPc, Work.ready_infl h]
  rw [Work.closed, Work.ctx_countHold, Work.noteLateness, Work.ctx_updCtx_same, Work.started_ctx, dispatched,
    show (w.started c .frameEnd f).time = w.time from rfl, Ctx.noteEnd_running (by exact running) (by simp)]
  rfl

theorem Work.countHold_eq (w : Work) (c : CtxId) : w.countHold c = { w with slices := (w.countHold c).slices } := by
  unfold Work.countHold
  split <;> rfl

theorem Work.closed_eq (w : Work) (c : CtxId) (f : Fields) :
    w.closed c f = { w with ctxs := (w.closed c f).ctxs, slices := (w.closed c f).slices, nextId := w.nextId + 1 } := by
  have frame : (w.started c .frameEnd f).noteLateness c =
      { w with ctxs := ((w.started c .frameEnd f).noteLateness c).ctxs, nextId := w.nextId + 1 } := rfl
  rw [Work.closed]
  generalize (w.started c .frameEnd f).noteLateness c = v at frame ⊢
  have ctxs : (v.countHold c).ctxs = v.ctxs := (congrArg Work.ctxs (Work.countHold_eq v c)).trans rfl
  rw [ctxs]
  exact (Work.countHold_eq v c).trans (congrArg (fun u : Work => { u with slices := (v.countHold c).slices }) frame)

/-- A hold frame is counted in the context's slice (R191). -/
theorem Work.closed_slice {w : Work} {c : CtxId} (h : w.ready c) (f : Fields) (m : Nat) :
    (w.closed c f).slice m = if m = c.slice.val ∧ (w.ctx c).busy = false then
        { w.slice m with peat := { (w.slice m).peat with holdFrames := satAdd (w.slice m).peat.holdFrames 1 } }
      else w.slice m := by
  have busy : (((w.started c .frameEnd f).noteLateness c).ctx c).busy = (w.ctx c).busy := by
    have closed := congrArg Ctx.busy (Work.closed_ctx h f)
    rw [Work.closed, Work.ctx_countHold] at closed
    rw [closed]
    rfl
  have slice (m : Nat) : ((w.started c .frameEnd f).noteLateness c).slice m = w.slice m := rfl
  rw [Work.closed, Work.countHold, busy]
  generalize (w.started c .frameEnd f).noteLateness c = v at slice ⊢
  cases (w.ctx c).busy
  case true => rw [if_pos rfl, if_neg (fun h => nomatch h.2), slice]
  case false =>
    rw [if_neg Bool.false_ne_true, Work.updPeat]
    by_cases here : m = c.slice.val
    · rw [here, Work.slice_updSlice_same, slice, if_pos ⟨rfl, rfl⟩]
    · rw [Work.slice_updSlice_other _ _ here, slice, if_neg (fun h => here h.1)]

/-- The effect of `frame.end` where nothing earlier is outstanding (R88, R89). -/
theorem effFrameEnd_eq {w : Work} {c : CtxId} (h : w.ready c) (f : Fields) :
    effFrameEnd (w.started c .frameEnd f) c (w.capture c .frameEnd f) =
      if modBit f 0 then .done (((w.closed c f).updCtx c fun k => { k with st := .ended, hold := .none, version := none }).noteEnd c)
      else if w.frame < (w.ctx c).segment + 1 then .done ((w.closed c f).updCtx c fun k => { k with st := .waiting, hold := .tick })
      else .done ((w.closed c f).beginSegment c ((w.ctx c).segment + 1)) := by
  obtain ⟨running, -⟩ := id h
  have ctx := Work.started_ctx w c .frameEnd f
  have st : ((w.started c .frameEnd f).ctx c).st = .running := by rw [ctx]; exact running
  have segment : ((w.started c .frameEnd f).ctx c).segment = (w.ctx c).segment := by rw [ctx]; rfl
  simp [effFrameEnd, Work.started_infl h, st, segment, Work.closed]
  rfl

/-! The context's place is as it was. -/

theorem Work.closed_part {w : Work} {c : CtxId} (h : w.ready c) (f : Fields) : ((w.closed c f).ctx c).part = (w.ctx c).part := by
  rw [Work.closed_ctx h]
  rfl
theorem Work.closed_ctx_job {w : Work} {c : CtxId} (h : w.ready c) (f : Fields) : ((w.closed c f).ctx c).job = (w.ctx c).job := by
  rw [Work.closed_ctx h]
  rfl
theorem Work.closed_program {w : Work} {c : CtxId} (h : w.ready c) (f : Fields) : ((w.closed c f).ctx c).program = (w.ctx c).program := by
  rw [Work.closed_ctx h]
  rfl
theorem Work.closed_prog (w : Work) (c : CtxId) (f : Fields) (q : Fin 8) (n : BitVec 32) : (w.closed c f).prog q n = w.prog q n :=
  (congrArg (fun v : Work => v.prog q n) (w.closed_eq c f)).trans rfl
theorem Work.closed_jobOf {w : Work} {c : CtxId} (h : w.ready c) (f : Fields) : (w.closed c f).jobOf c = w.jobOf c := by
  rw [Work.jobOf, Work.closed_part h, Work.closed_ctx_job h]
  exact (congrArg (fun v : Work => v.job (w.ctx c).part (w.ctx c).job) (w.closed_eq c f)).trans rfl

theorem Work.closed_readAhead (w : Work) (c : CtxId) (f : Fields) :
    ({ w.closed c f with readAhead := w.readAhead } : Work) = w.closed c f := by
  rw [Work.closed_eq]

/-- The end of a context of no load that waits leaves the rest (R73). -/
theorem Work.noteEnd_unloaded {w : Work} {c : CtxId} (h : ∀ p, w.prog (w.ctx c).part (w.ctx c).program = some p → p.load = none) :
    w.noteEnd c = w := by
  unfold Work.noteEnd
  dsimp only
  split
  · rfl
  next p hp => rw [h p hp]

/-- The outcome of `frame.end`: its context is `k'`, what is read ahead is `ra`, a hold frame is counted where nothing ran in the segment,
and nothing else has changed (R88, R89, R191). -/
def SegmentEnded (s : State) (c : CtxId) (f : Fields) (ev : MemEvent) (k' : Ctx) (ra : List ReadAhead) : Prop :=
  ∃ t, exec (.frameEnd c f (.start ev)) s = .next t ∧ t.ctl = s.ctl ∧ t.pending = s.pending ∧ (∀ e, e ≠ c → t.w.ctx e = s.w.ctx e) ∧
    t.w.ctx c = k' ∧ t.w = { s.w with ctxs := t.w.ctxs, slices := t.w.slices, nextId := s.w.nextId + 1, readAhead := ra } ∧
    ∀ m, t.w.slice m = if m = c.slice.val ∧ (s.w.ctx c).busy = false then
        { s.w.slice m with peat := { (s.w.slice m).peat with holdFrames := satAdd (s.w.slice m).peat.holdFrames 1 } }
      else s.w.slice m

/-- The end of a segment, whose last change is one of its context and of what is read ahead. -/
theorem segmentEnded_of {s : State} {c : CtxId} {f : Fields} {ev : MemEvent} (h : s.w.ready c) {ra : List ReadAhead} {g : Ctx → Ctx} {k' : Ctx}
    (he : effFrameEnd (s.w.started c .frameEnd f) c (s.w.capture c .frameEnd f) =
      .done (({ s.w.closed c f with readAhead := ra } : Work).updCtx c g))
    (hk : { g ((s.w.closed c f).ctx c) with infl := (g ((s.w.closed c f).ctx c)).infl.filter fun y => decide (y.id ≠ s.w.nextId) } = k') :
    SegmentEnded s c f ev k' ra := by
  have closed := s.w.closed_eq c f
  have others := fun e (ne : e ≠ c) => Work.closed_ctx_other s.w f ne
  have slices := Work.closed_slice h f
  generalize s.w.closed c f = v at he hk closed others slices
  have issued : s.w.issue c .frameEnd f (.start ev) =
      (({ v with readAhead := ra } : Work).updCtx c g).retire c (s.w.capture c .frameEnd f) none := Work.issue_done h .frameEnd f ev rfl rfl _ he
  have here : ((({ v with readAhead := ra } : Work).updCtx c g).retire c (s.w.capture c .frameEnd f) none).ctx c = k' := by
    rw [Work.retire, Work.ctx_updCtx_same, Work.ctx_updCtx_same]
    exact hk
  have elsewhere (e : CtxId) (ne : e ≠ c) :
      ((({ v with readAhead := ra } : Work).updCtx c g).retire c (s.w.capture c .frameEnd f) none).ctx e = s.w.ctx e := by
    rw [Work.retire_ctx_other _ _ _ ne, Work.ctx_updCtx_other _ _ ne]
    exact others e ne
  refine ⟨{ s with w := _ }, congrArg (fun w => Host.Outcome.next ({ s with w := w } : State)) issued, rfl, rfl, elsewhere, here, ?_, slices⟩
  rw [closed]
  rfl

/-- With LAST the context ENDS. -/
theorem segmentEnded_last {s : State} {c : CtxId} {f : Fields} {ev : MemEvent} (h : s.w.ready c) (last : modBit f 0 = true)
    (unloaded : ∀ p, s.w.prog (s.w.ctx c).part (s.w.ctx c).program = some p → p.load = none) :
    SegmentEnded s c f ev { (s.w.ctx c).closing s.w.time with st := .ended, hold := .none, version := none } s.w.readAhead := by
  refine segmentEnded_of h (g := fun k => { k with st := .ended, hold := .none, version := none }) ?_ ?_
  · rw [effFrameEnd_eq h, if_pos last, Work.closed_readAhead, Work.noteEnd_unloaded]
    simp only [Work.ctx_updCtx_same, Work.prog_updCtx, Work.closed_prog, Work.closed_part h, Work.closed_program h]
    exact unloaded
  · rw [Work.closed_ctx h]
    simp [Ctx.closing, Work.ready_infl h]

/-- Otherwise it waits for its closing tick. -/
theorem segmentEnded_waits {s : State} {c : CtxId} {f : Fields} {ev : MemEvent} (h : s.w.ready c) (more : modBit f 0 = false)
    (before : s.w.frame < (s.w.ctx c).segment + 1) :
    SegmentEnded s c f ev { (s.w.ctx c).closing s.w.time with st := .waiting, hold := .tick } s.w.readAhead := by
  refine segmentEnded_of h (g := fun k => { k with st := .waiting, hold := .tick }) ?_ ?_
  · rw [effFrameEnd_eq h, if_neg (by rw [more]; decide), if_pos before, Work.closed_readAhead]
  · rw [Work.closed_ctx h]
    simp [Ctx.closing, Work.ready_infl h]

/-- After that tick its next segment starts. -/
theorem segmentEnded_begins {s : State} {c : CtxId} {f : Fields} {ev : MemEvent} (h : s.w.ready c) (more : modBit f 0 = false)
    (after : (s.w.ctx c).segment + 1 ≤ s.w.frame) :
    SegmentEnded s c f ev
      { (s.w.ctx c).closing s.w.time with
        segment := (s.w.ctx c).segment + 1, busy := false, overrunCounted := false
        latStep := match s.w.jobOf c with | some j => j.step.toNat | none => (s.w.ctx c).latStep
        latBuf := match s.w.jobOf c with | some j => j.buf | none => (s.w.ctx c).latBuf }
      (s.w.readAhead.filter fun r => decide (r.ctx ≠ c ∨ (s.w.ctx c).segment + 1 ≤ r.segment)) := by
  obtain ⟨running, unheld, -⟩ := id h
  have ahead : (s.w.closed c f).readAhead = s.w.readAhead := (congrArg Work.readAhead (s.w.closed_eq c f)).trans rfl
  refine segmentEnded_of h (g := fun y => y.begin ((s.w.ctx c).segment + 1) (s.w.jobOf c)) ?_ ?_
  · rw [effFrameEnd_eq h, if_neg (by rw [more]; decide), if_neg (Nat.not_lt.2 after), Work.beginSegment, Work.closed_jobOf h, ahead]
  · rw [Work.closed_ctx h]
    cases s.w.jobOf c <;> simp [Ctx.closing, Work.ready_infl h, Ctx.begin, running, unheld]

/-- Settles O19: each instruction finds its context, its sluice and its flag as they stood. -/
theorem sluiceAndControlInstructionResults : Obligations.SluiceAndControlInstructionResults := by
  refine ⟨fun c f ev s hr => ?sluices, fun c f ev s hr => ?control⟩
  case sluices =>
    intro k sa i z g target sent full later
    have wait (hf : k.operandFault .slWait f = none) (declared : s.w.declares c i = true) :
        effSlWait (s.w.started c .slWait f) c (s.w.capture c .slWait f) =
          if z.satisfied g then .done ((s.w.started c .slWait f).resumeDispatch c) else .wait (s.w.started c .slWait f) := by
      obtain ⟨va, vb⟩ := Work.capture_scalars_ab hf rfl
      have no := InFlight.sluiceNo_eq va
      rw [effSlWait_eq (by rw [no, Work.started_declares]; exact declared)
        (by rw [Work.started_ctx]; exact (by decide : CtxState.waiting ≠ .paused)), no, InFlight.gen, vb]
      rfl
    refine ⟨fun hf declared => ?arm, fun hf declared => ?sig, fun hf declared met => ?goes, fun hf declared unmet => ?waits⟩
    case arm =>
      obtain ⟨vd, va, vb⟩ := Work.capture_scalars hf rfl
      refine completed_of_straight hr hf (by decide) fun w1 t => ?_
      show effSlArm w1 c _ = _
      rw [effSlArm, InFlight.sluiceNo_eq va, withSluice, InFlight.sluiceNo_eq va, t.declares, if_pos declared, t.issueSluice, InFlight.gen, vb, vd]
    case sig =>
      obtain ⟨va, vb⟩ := Work.capture_scalars_ab hf rfl
      refine completed_of_straight hr hf (by decide) fun w1 t => ?_
      show effSlSig w1 c _ = _
      rw [effSlSig, InFlight.sluiceNo_eq va, withSluice, InFlight.sluiceNo_eq va, t.declares, if_pos declared, t.allBefore, if_pos rfl, t.issueSluice,
        InFlight.gen, vb]
      rfl
    case goes =>
      refine ctxDone_of_resume hr hf (.inl rfl) ?_
      show effSlWait _ c _ = _
      rw [wait hf declared, if_pos ((z.satisfied_iff g).2 met)]
    case waits =>
      obtain ⟨va, vb⟩ := Work.capture_scalars_ab hf rfl
      refine ctxDone_of_wait hr hf rfl ?_ ?_
      · show effSlWait _ c _ = _
        rw [wait hf declared, if_neg (mt (z.satisfied_iff g).1 unmet)]
      · simp [Ctx.dispatched, nextPc, Work.ready_infl hr, va, vb, k, sa, g]
  case control =>
    intro k n reached p late past k1 ended
    obtain ⟨running, unheld, -⟩ := id hr
    have unlisted := Work.ready_infl hr
    have wait : effLfWait (s.w.started c .lfWait f) c (s.w.capture c .lfWait f) =
        if reached then .done ((s.w.started c .lfWait f).resumeDispatch c) else .wait (s.w.started c .lfWait f) := by
      rw [effLfWait_eq (by rw [Work.started_ctx]; exact (by decide : CtxState.waiting ≠ .paused)), Work.started_ctx, Ctx.dispatched_flag,
        InFlight.lf_eq]
      exact if_congr decide_eq_true_iff rfl rfl
    refine ⟨fun hreach => ?goes, fun hreach => ?waits, ?clears, ?fence, fun hf => ?rng, fun last unloaded => ?ends, fun more before => ?ticks,
      fun more after => ?begins⟩
    case goes => exact ctxDone_of_resume (op := .lfWait) hr rfl (.inr rfl) (wait.trans (if_pos hreach))
    case waits =>
      refine ctxDone_of_wait (op := .lfWait) hr rfl rfl (wait.trans (if_neg hreach)) ?_
      simp [Ctx.dispatched, nextPc, unlisted, k, n]
    case clears =>
      refine ctxDone_of_updCtx hr (fun k => { k with flags := k.flags.set 0 n 0 }) rfl rfl ?_ ?_
      · show effLfClr _ c _ = _
        simp [effLfClr, Work.started_infl hr, InFlight.lf_eq, n]
      · simp [Ctx.dispatched, nextPc, unlisted, k]
    case fence =>
      refine ctxDone_of hr .ctxFence f ev rfl rfl (s.w.started c .ctxFence f) ?_ rfl (fun _ _ => rfl) _ _ ?_
      · show effCtxFence _ c _ = _
        simp [effCtxFence, Ctx.allBefore, Work.started_infl hr]
      · rw [Work.started_ctx]
        simp [Ctx.dispatched, nextPc, unlisted, k]
    case rng =>
      obtain ⟨-, ha, -⟩ := Ctx.fieldFaults_of_operandFault hf
      have va := s.w.capture_va_scalar c .rngSet (Ctx.scalar_of_fieldFault ha)
      refine ctxDone_of hr .rngSet f ev hf rfl (s.w.started c .rngSet f) rfl rfl (fun _ _ => rfl) _ _ ?_
      rw [Work.started_ctx]
      have shared (a : Word) : a.setWidth 16 = (65535 : BitVec 16) ↔ a.toNat % 65536 = 65535 := by
        rw [← BitVec.toNat_inj, BitVec.toNat_setWidth]
        rfl
      simp [Ctx.dispatched, Ctx.rngSet, nextPc, unlisted, va, k, ← shared]
    case ends => exact segmentEnded_last hr last unloaded
    case ticks => exact segmentEnded_waits hr more before
    case begins => exact segmentEnded_begins hr more after

end Sys2Proof.Machine
end

section
/-! O24: fences, drains and the return of a unit (R410, R438, R441, R459). -/

namespace Sys2Proof.Machine

/-- A write of HLTH.FENCE counts where its function is physical and is served, and the unit can be fenced. -/
theorem State.request_physical_of {s : State} {who : Fn} (h : s.fnOpen who = true ∧ who.fn = 0) (f : State → State) :
    (s.request who fun t => if physical who then f t else t) = f s := by
  obtain ⟨served, manages⟩ := h
  rw [State.request_of_open served, if_pos ((physical_iff who).2 manages)]

/-- A drain ends when nothing is in flight (R410, R438). -/
theorem State.settleFence_eq (s : State) :
    let f := s.ctl.fence
    let ended := f.st = 1 ∧ s.w.unitBusy f.unit = false
    s.settleFence = { s with w := if ended ∧ f.act = 0 then s.w.resetUnit f.unit else s.w
                             ctl := { s.ctl with fence := { f with st := if ended then 2 else f.st } } } := by
  intro f ended
  unfold State.settleFence
  by_cases h : ended
  · rw [if_pos h, if_pos h]
    exact congrArg (fun w => ({ s with w := w, ctl := _ } : State)) (if_congr (by simp [h, f]) rfl rfl)
  · rw [if_neg h, if_neg h, if_neg fun both => h both.1]

theorem FenceSt.drains_iff (f : FenceSt) (u : BitVec 16) : f.drains u = true ↔ (f.st = 1 ∧ f.unit = u) ∨ ∃ e, e ∈ f.others ∧ e.1 = u := by
  simp [FenceSt.drains]

theorem State.fenceUnit_drains {s : State} {u : BitVec 16} (h : s.ctl.fence.drains u = true) (act : BitVec 2) : s.fenceUnit u act = s := if_pos h

theorem State.fenceUnit_unfenceable (s : State) {u : BitVec 16} (h : fenceable u = false) (act : BitVec 2) : s.fenceUnit u act = s := by
  unfold State.fenceUnit
  rw [if_neg (by rw [h]; decide : ¬fenceable u = true), ite_self]

/-- A fence of a unit that does not drain (R410, R438). -/
theorem State.fenceUnit_fences {s : State} {u : BitVec 16} (h : s.ctl.fence.drains u = false) (hf : fenceable u = true) (act : BitVec 2) :
    let w0 : Work := { s.w with fenced := u :: s.w.fenced.filter fun x => decide (x ≠ u) }
    let cut := w0.fenceCtxs (((unitCores u).flatMap siblings).filter fun c => !((w0.ctx c).st = .empty || (w0.ctx c).st = .absent))
    let w1 := (unitPorts u).foldl (fun w p => w.drainPort p) cut.2
    s.fenceUnit u act = { s with
      w := if w1.unitBusy u = false ∧ act = 0 then w1.resetUnit u else w1
      ctl := { s.ctl with fence := { aborted := satAdd 0 cut.1, unit := u, act := act, st := if w1.unitBusy u then 1 else 2, named := true
                                     others := s.ctl.fence.besides u } } } := by
  intro w0 cut w1
  unfold State.fenceUnit
  rw [h, if_neg Bool.false_ne_true, if_pos hf]
  refine (State.settleFence_eq _).trans ?_
  dsimp only
  cases w1.unitBusy u <;> simp [w1, cut, w0]

/-- Settles O24: each write acts where it counts, and a drain settles as the unit then stands. -/
theorem fenceResults : Obligations.FenceResults := by
  intro who u s ctxs ok w0 cut w1 fe drains others fenced
  have unheard (f : State → State) (h : ¬(s.fnOpen who = true ∧ who.fn = 0)) : (s.request who fun t => if physical who then f t else t) = s :=
    State.request_physical_ignored (fun both => h both.symm) f
  have go (act : BitVec 2) (h : ¬drains) : Host.Outcome.next (s.request who fun s => if physical who then s.fenceUnit u act else s) = fenced act := by
    have idle : s.ctl.fence.drains u = false := Bool.eq_false_iff.2 fun hd => h ((FenceSt.drains_iff ..).1 hd)
    refine congrArg Host.Outcome.next ?_
    by_cases hw : s.fnOpen who = true ∧ who.fn = 0
    · rw [State.request_physical_of hw]
      by_cases hf : fenceable u = true
      case neg =>
        have not : ¬ok := fun h => hf h.2.2
        rw [State.fenceUnit_unfenceable s (Bool.eq_false_iff.2 hf), if_neg not, if_neg not]
      case pos =>
        have acts : ok := ⟨hw.1, hw.2, hf⟩
        rw [if_pos acts, if_pos acts, State.fenceUnit_fences idle hf]
        rfl
    · rw [unheard _ hw, if_neg fun h => hw ⟨h.1, h.2.1⟩, if_neg fun h => hw ⟨h.1, h.2.1⟩]
  have again (act : BitVec 2) (h : drains) : (s.request who fun s => if physical who then s.fenceUnit u act else s) = s := by
    by_cases hw : s.fnOpen who = true ∧ who.fn = 0
    · rw [State.request_physical_of hw, State.fenceUnit_drains ((FenceSt.drains_iff ..).2 h)]
    · exact unheard _ hw
  refine ⟨fun h => ⟨congrArg Host.Outcome.next (again 0 h), congrArg Host.Outcome.next (again 1 h)⟩, fun h => ⟨go 0 h, go 1 h⟩, ?returns, congrArg Host.Outcome.next (if_pos rfl), fun hu hf => ?aborts,
    fun hu hf => ?unloads⟩
  case returns =>
    refine congrArg Host.Outcome.next ?_
    by_cases hw : s.fnOpen who = true ∧ who.fn = 0
    · rw [State.request_physical_of hw, State.returnUnit]
      exact if_congr ⟨fun hf => ⟨hw.1, hw.2, hf⟩, fun h => h.2.2⟩ rfl rfl
    · rw [unheard _ hw, if_neg fun h => hw ⟨h.1, h.2.1⟩]
  case aborts =>
    intro r f ended
    refine congrArg Host.Outcome.next ((if_neg hu).trans ((if_pos hf).trans ((State.settleFence_eq _).trans ?_)))
    dsimp only
    by_cases named : f.unit = u
    · simp [named, ended, r, f, ctxs]
    · simp [named, ended, r, f, ctxs]
  case unloads => exact congrArg Host.Outcome.next ((if_neg hu).trans (if_neg (by rw [hf]; decide)))

end Sys2Proof.Machine
end

section
/-! O30: LOAD, UNLOAD, RESUME and PLAN (R73, R75, R91, R209, R210, R212, R456, R467). -/

namespace Sys2Proof.Machine

/-! A read of HBM that meets nothing and does not fail changes nothing but the free values drawn (R352, R354). -/

theorem Work.readBlock_clean {w : Work} {q : Fin 8} {a n : Nat} (h : (w.readBlock q a n .ok).1.code = 0) : (w.readBlock q a n .ok).2 = w := by
  unfold Work.readBlock at h ⊢
  have meet (pa d : Nat) : w.meet q pa d .ok = w := rfl
  split
  · rfl
  next pa d ht =>
    simp only [ht, meet] at h
    simp only [meet]
    split at h
    next unreached =>
      exact absurd h unreached
    next => grind

theorem Work.readBlocks_clean {q : Fin 8} {l : List (Nat × Nat)} {w : Work} (h : (w.readBlocks q l .ok).1.code = 0) :
    (w.readBlocks q l .ok).2 = w := by
  induction l generalizing w with
  | nil => rfl
  | cons b l ih =>
    rw [Work.readBlocks] at h ⊢
    by_cases good : (w.readBlock q b.1 b.2 .ok).1.code = 0
    · simp only [evHere, evLater, good, ne_eq, not_true, if_false, Work.readBlock_clean good] at h ⊢
      exact ih h
    · simp only [evHere, good, ne_eq, not_false_eq_true, if_true] at h

theorem Work.hbmRead_clean {w : Work} {q : Fin 8} {a n : Nat} (h : (w.hbmRead q a n .ok).1.code = 0) :
    (w.hbmRead q a n .ok).2 = { w with fresh := (w.hbmRead q a n .ok).2.fresh } := by
  unfold Work.hbmRead at h ⊢
  split
  next mapped =>
    simp only [mapped, if_true] at h
    split at h
    next good =>
      have blocks := Work.readBlocks_clean good
      simp only [good, if_true, blocks]
      unfold Work.overDevice
      dsimp only
      split <;> rfl
    next bad => exact absurd h bad
  next => rfl

theorem Work.frame_hbmRead {w : Work} {q : Fin 8} {a n : Nat} (h : (w.hbmRead q a n .ok).1.code = 0) :
    (w.hbmRead q a n .ok).2.frame = w.frame := (congrArg Work.frame (Work.hbmRead_clean h)).trans rfl

/-! A LOAD places its contexts (R73, R458). -/

/-- Of causes in order, none holds where none is given. -/
theorem firstCause_eq_zero {l : List (Bool × Nat)} (h : firstCause l = 0) (hn : ∀ x, x ∈ l → x.2 ≠ 0) : ∀ x, x ∈ l → x.1 = false := by
  induction l with
  | nil => simp
  | cons y l ih =>
    obtain ⟨b, n⟩ := y
    rw [firstCause] at h
    cases b with
    | true => exact absurd h (hn (true, n) (List.mem_cons_self ..))
    | false => exact fun x hx => (List.mem_cons.1 hx).elim (fun e => e ▸ rfl) (ih h (fun x hx => hn x (List.mem_cons_of_mem _ hx)) x)

/-- A load without a refusal names every context once (R72). -/
theorem Work.nodup_of_loadCause {w : Work} {l : LoadReq} (h : w.loadCause l = 0) : (l.ctxs.map placeCtx).Nodup := by
  have causes : w.ctxCause l = 0 := by
    unfold Work.loadCause at h
    split at h
    next bad => exact absurd h bad
    next good => exact not_not.1 good
  unfold Work.ctxCause at causes
  have placed := firstCause_eq_zero causes (by simp) _ (List.mem_of_getElem? (i := 5) rfl)
  simp only [Bool.or_eq_false_iff, Bool.not_eq_false', decide_eq_true_eq, List.map_map] at placed
  exact placed.1

/-- A context stands as a load leaves it (R73). -/
def LoadedAs (l : LoadReq) (sf : Nat) (e : List Byte) (k : Ctx) : Prop :=
  k.st = .loaded ∧ k.decl = declOf e ∧ k.pc = (declOf e).entryPc ∧ k.part = l.q ∧ k.job = l.job ∧ k.program = l.program ∧ k.startFrame = sf

theorem Work.loadCtx_same (w : Work) (l : LoadReq) (sf i : Nat) (e : List Byte) : LoadedAs l sf e ((w.loadCtx l sf i e).ctx (placeCtx e)) := by
  unfold Work.loadCtx
  simp [LoadedAs, Ctx.setS]

theorem Work.loadCtx_other (w : Work) (l : LoadReq) (sf i : Nat) (e : List Byte) {c : CtxId} (h : c ≠ placeCtx e) :
    (w.loadCtx l sf i e).ctx c = w.ctx c := by
  unfold Work.loadCtx
  dsimp only
  rw [Work.ctx_updCtx_other _ _ h, Work.ctx_updCtx_other _ _ h]
  rfl

theorem Work.loadCtxs_other (l : LoadReq) (sf : Nat) {c : CtxId} {es : List (List Byte)} (w : Work) (i : Nat) (h : c ∉ es.map placeCtx) :
    (w.loadCtxs l sf i es).ctx c = w.ctx c := by
  induction es generalizing w i with
  | nil => rfl
  | cons e es ih =>
    simp only [List.map_cons, List.mem_cons, not_or] at h
    rw [Work.loadCtxs, ih _ _ h.2, Work.loadCtx_other _ _ _ _ _ h.1]

theorem Work.loadCtxs_loaded (l : LoadReq) (sf : Nat) {x : List Byte} {es : List (List Byte)} (w : Work) (i : Nat) (hn : (es.map placeCtx).Nodup)
    (hx : x ∈ es) : LoadedAs l sf x ((w.loadCtxs l sf i es).ctx (placeCtx x)) := by
  induction es generalizing w i with
  | nil => simp at hx
  | cons e es ih =>
    rw [List.map_cons, List.nodup_cons] at hn
    rw [Work.loadCtxs]
    rcases List.mem_cons.1 hx with rfl | hx
    · rw [Work.loadCtxs_other _ _ _ _ hn.1]
      exact w.loadCtx_same l sf i x
    · exact ih _ _ hn.2 hx

theorem Work.ctxs_markCmd (w : Work) (r : CmdRef) (st : CmdSt) : (w.markCmd r st).ctxs = w.ctxs := by
  unfold Work.markCmd
  split <;> rfl

/-- A load whose checks have passed leaves every context that it names LOADED. -/
theorem Work.doLoad_loaded {w : Work} {l : LoadReq} (r : CmdRef) (start : Word) (sf0 : Nat) {x : List Byte} (hn : (l.ctxs.map placeCtx).Nodup)
    (hx : x ∈ l.ctxs) : LoadedAs l (if sf0 ≤ w.frame then w.frame + 1 else sf0) x ((w.doLoad r l start sf0).ctx (placeCtx x)) := by
  unfold Work.doLoad
  dsimp only
  rw [Work.ctx, Work.ctxs_markCmd]
  exact Work.loadCtxs_loaded _ _ _ _ hn hx

/-! What the commands come to (R454, R456, R467). -/

/-- A command of a usable partition runs. -/
theorem Work.withPart_runs {w : Work} {r : CmdRef} {op : Nat} {q : Fin 8} {e : BitVec 512} (h : w.Runs r op q e) (f : Fin 8 → Work) :
    w.withPart r e f = f q := by
  obtain ⟨-, target, usable⟩ := h
  rw [Work.withPart, target]
  exact if_pos usable

theorem execLoad_runs {r : CmdRef} {q : Fin 8} {e : BitVec 512} {s : State} (h : s.w.Runs r 0x20 q e) :
    exec (.load r) s = .next { s with w := s.w.runLoad r q e } := by
  obtain ⟨start, target, -⟩ := h
  show execLoad r s = _
  rw [execLoad, State.onW]
  simp only [start, target]

theorem execUnload_runs {r : CmdRef} {q : Fin 8} {e : BitVec 512} {s : State} (h : s.w.Runs r 0x21 q e) :
    exec (.unload r) s = .next { s with w := s.w.runUnload r q (BitVec.ofNat 32 (cmdArg e 16 4)) true } := by
  obtain ⟨start, -⟩ := id h
  show execUnload r s = _
  rw [execUnload, State.onW]
  simp only [Work.goOn, start, Work.withPart_runs h, Option.isSome_some]

theorem execPlan_runs {r : CmdRef} {q : Fin 8} {e : BitVec 512} {s : State} (h : s.w.Runs r 0x23 q e) :
    exec (.plan r) s = .next { s with w := s.w.runPlan r q e } := by
  obtain ⟨start, -⟩ := id h
  show execPlan r s = _
  rw [execPlan, State.onW]
  simp only [start, Work.withPart_runs h]

theorem execResume_runs {r : CmdRef} {q : Fin 8} {e : BitVec 512} {s : State} (h : s.w.Runs r 0x22 q e) :
    exec (.resume r) s = .next { s with w :=
      if !(s.w.part q).paused then s.w.finish r 0 0
      else if (s.w.part q).resumePending.isSome then s.w
      else (s.w.markCmd r .started).updPart q fun p => { p with resumePending := some (some r), resumeFrom := s.w.frame } } := by
  obtain ⟨start, -⟩ := id h
  show execResume r s = _
  rw [execResume, State.onW]
  simp only [start, Work.withPart_runs h]

/-- A LOAD whose header has been read and holds (R456-R458). -/
theorem Work.runLoad_checked {w : Work} {r : CmdRef} {q : Fin 8} {e : BitVec 512} {g h : Got × Work} {l : LoadReq}
    (usable : (w.part q).usable = true) (named : w.prog q (BitVec.ofNat 32 (cmdArg e 56 4)) = none) (mapped : w.mapped q (cmdArg e 16 8) 64 = true)
    (hg : w.hbmRead q (cmdArg e 16 8) 64 .ok = g) (start : g.1.code = 0) (head : headerStart g.1.bytes = true)
    (mappedAll : g.2.mapped q (cmdArg e 16 8) (leAt g.1.bytes 4 4) = true)
    (hh : g.2.hbmRead q (cmdArg e 16 8) (leAt g.1.bytes 4 4) .ok = h) (all : h.1.code = 0)
    (ok : headerOk h.1.bytes (h.2.part q).dyke.slices = true)
    (hl : l = ⟨q, cmdJob e, BitVec.ofNat 32 (cmdArg e 56 4), h.1.bytes, leBytes 16 (cmdArg e 24 16)⟩) :
    w.runLoad r q e = if h.2.loadCause l ≠ 0 then h.2.finish r (0x100 + h.2.loadCause l) 0
      else h.2.doLoad r l (BitVec.ofNat 64 (cmdArg e 40 8)) (cmdArg e 48 8) := by
  unfold Work.runLoad
  simp only [usable, named, mapped, hg, start, head, mappedAll, hh, all, ok, ← hl, Bool.not_true, Bool.false_eq_true, if_false, Option.isSome_none,
    ne_eq, not_true]

/-- A PLAN of a job without a Peat section is refused. -/
theorem Work.runPlan_noPeat {w : Work} {r : CmdRef} {q : Fin 8} {e : BitVec 512} (h : (w.job q (cmdJob e)).bind Job.peat = none) :
    w.runPlan r q e = w.finish r 0x130 0 := by
  unfold Work.runPlan
  dsimp only
  split
  · rfl
  next j hj =>
    rw [hj] at h
    split
    · rfl
    next p hp => exact nomatch hp.symm.trans (h : j.peat = none)

/-- That of a job with one is taken once it has been read. -/
theorem Work.runPlan_reads {w : Work} {r : CmdRef} {q : Fin 8} {e : BitVec 512} {j : Job} {p : PeatSec} {g : Got × Work}
    (hj : w.job q (cmdJob e) = some j) (hp : j.peat = some p) (mapped : w.mapped q (cmdArg e 16 8) (cmdArg e 24 4) = true)
    (hg : w.hbmRead q (cmdArg e 16 8) (cmdArg e 24 4) .ok = g) (read : g.1.code = 0) :
    w.runPlan r q e = g.2.takePlan r q (cmdJob e) j p g.1.bytes := by
  unfold Work.runPlan
  simp only [hj, hp, mapped, hg, read, Bool.not_true, Bool.false_eq_true, if_false, ne_eq, not_true]

/-- A plan's slot is that of its step's parity (R212). -/
theorem slotAddr_eq (p : PeatSec) (b : List Byte) :
    slotAddr p (leAt b 0 8) = p.recordBase.toNat + (BitVec.ofNat 64 (leAt b 0 8)).toNat % 2 * 65536 := by
  rw [slotAddr, BitVec.toNat_ofNat, Nat.mod_mod_of_dvd _ (by decide)]

theorem Work.writePlan_eq (w : Work) (r : CmdRef) (q : Fin 8) (p : PeatSec) (b : List Byte) :
    w.writePlan r q p b = Work.ends r 0 (w.hbmWrite q
      (p.recordBase.toNat + (BitVec.ofNat 64 (leAt b 0 8)).toNat % 2 * 65536) (planSlot p.ceiling b) .ok) := by
  rw [Work.writePlan, slotAddr_eq]
  rfl

/-- A plan that has been read (R210). -/
theorem Work.takePlan_eq (w : Work) (r : CmdRef) (q : Fin 8) (job : BitVec 16) (j : Job) (p : PeatSec) (b : List Byte) :
    let step : Word := BitVec.ofNat 64 (leAt b 0 8)
    let now := step = j.step ∧ w.stepBegun q job j.step = false
    w.takePlan r q job j p b =
      if ¬now ∧ step ≠ j.step + 1 then w.finish r 0x130 0
      else match planRefusal p.ceiling b with
        | some c => w.finish r (0x100 + c) 0
        | none =>
          if now ∨ w.refs q job (!j.buf) = 0 then w.writePlan r q p b
          else if j.plan.isSome then w
          else (w.markCmd r .started).updJob q job fun j => { j with plan := some (step, b, r) } := by
  intro step now
  have test : (decide (step = j.step) && !w.stepBegun q job j.step) = true ↔ now := by simp [now]
  unfold Work.takePlan
  refine if_congr ?_ rfl ?_
  · rw [Bool.and_eq_true, Bool.not_eq_true', ← Bool.not_eq_true, test, decide_eq_true_iff]
  · cases planRefusal p.ceiling b with
    | some c => rfl
    | none =>
      refine if_congr ?_ rfl rfl
      rw [Bool.or_eq_true, test, decide_eq_true_iff]

theorem Work.writeWaitingPlan_waits {w : Work} {q : Fin 8} {job : BitVec 16} {j : Job} {p : PeatSec} {x : Word × List Byte × CmdRef}
    (hj : w.job q job = some j) (hp : j.peat = some p) (hx : j.plan = some x) :
    w.writeWaitingPlan q job = if x.1 ≠ j.step + 1 ∨ w.refs q job (!j.buf) = 0 then
      (w.updJob q job fun j => { j with plan := none }).writePlan x.2.2 q p x.2.1 else w := by
  unfold Work.writeWaitingPlan
  simp only [hj, hp, hx]

/-- Settles O30: each command runs its checks in order, and a load's contexts are distinct. -/
theorem programAndPlanResults : Obligations.ProgramAndPlanResults := by
  refine ⟨fun r q e s => ⟨fun runs => ?load, fun runs => ?unload, fun runs => ⟨fun idle => ?unpaused, fun paused none => ?resume⟩⟩,
    fun r q e s => ?plans⟩
  case load =>
    intro a name g n h l
    have hg : s.w.hbmRead q (cmdArg e 16 8) 64 .ok = g := rfl
    have hh : g.2.hbmRead q (cmdArg e 16 8) (leAt g.1.bytes 4 4) .ok = h := rfl
    have hl : l = ⟨q, cmdJob e, BitVec.ofNat 32 (cmdArg e 56 4), h.1.bytes, leBytes 16 (cmdArg e 24 16)⟩ := rfl
    clear_value l h g
    obtain ⟨-, -, usable⟩ := id runs
    rw [execLoad_runs runs]
    refine ⟨fun loaded => ?_, fun named mapped start head mappedAll all ok => ?_⟩
    · rw [Work.runLoad, if_neg (by rw [usable]; decide), if_pos loaded]
    · have run := Work.runLoad_checked (r := r) usable named mapped hg start head mappedAll hh all ok hl
      have frame : h.2.frame = s.w.frame := by
        subst hg hh
        exact (Work.frame_hbmRead all).trans (Work.frame_hbmRead start)
      rw [run]
      refine ⟨fun bad => by rw [if_pos bad], fun good => ⟨_, rfl, rfl, rfl, fun x hx => ?_⟩⟩
      have loaded := Work.doLoad_loaded (w := h.2) r (BitVec.ofNat 64 (cmdArg e 40 8)) (cmdArg e 48 8) (Work.nodup_of_loadCause good) hx
      rw [frame] at loaded
      rw [if_neg (not_not.2 good)]
      subst hl
      exact loaded
  case unload =>
    intro n
    rw [execUnload_runs runs]
    refine ⟨fun none => ?_, fun p hp => ?_⟩
    · rw [Work.runUnload, none]
    · rw [Work.runUnload, hp]
      rfl
  case unpaused => rw [execResume_runs runs, idle]; rfl
  case resume => rw [execResume_runs runs, paused, none]; rfl
  case plans =>
    intro job n g b step
    refine ⟨fun runs none => ?noPeat, fun j p runs hj hp mapped read => ?reads, fun j p x only hj hp hx => ?deferred⟩
    case noPeat =>
      rw [execPlan_runs runs, Work.runPlan_noPeat none]
    case reads =>
      have run : exec (.plan r) s = .next { s with w := g.2.takePlan r q job j p b } := by
        rw [execPlan_runs runs, Work.runPlan_reads hj hp mapped rfl read]
      clear_value g
      rw [run, Work.takePlan_eq]
      intro now
      refine ⟨fun hn hs => by rw [if_pos ⟨hn, hs⟩], fun hs c hc => ?_, fun hs hc => ?_, fun hs hrefs hc hplan => ?_⟩
      · rw [if_neg fun both => hs.elim both.1 both.2, hc]
      · rw [if_neg fun both => hs.elim both.1 fun h => both.2 h.1, hc, ← Work.writePlan_eq]
        exact congrArg (fun w => Host.Outcome.next ({ s with w := w } : State)) (if_pos (hs.imp id And.right))
      · have later : ¬now := fun h => by
          have same := hs.symm.trans h.1
          simp at same
        rw [if_neg fun both => both.2 hs, hc, hplan]
        exact congrArg (fun w => Host.Outcome.next ({ s with w := w } : State)) ((if_neg (not_or.2 ⟨later, hrefs⟩)).trans (if_neg Bool.false_ne_true))
    case deferred =>
      have run : exec (.planDeferredWrite q) s = .next { s with w := s.w.writeWaitingPlan q job } := by
        show execPlanDeferredWrite q s = _
        rw [execPlanDeferredWrite, State.onW, only]
        rfl
      rw [run, Work.writeWaitingPlan_waits hj hp hx]
      refine ⟨fun go => by rw [if_pos go], fun hstep hrefs => by rw [if_neg (not_or.2 ⟨not_not.2 hstep, hrefs⟩)]⟩

end Sys2Proof.Machine
end

section
/-! What leaves the flows at their destination as they are (R283, R285): everything but the flows' own operations. -/

namespace Sys2Proof.Machine

/-- The flows at their destination stay. -/
def Work.KeepsFlows (w w' : Work) : Prop := w'.fab.recv = w.fab.recv

theorem Work.Quiet.keepsFlows {w w' : Work} (h : w.Quiet w') : w.KeepsFlows w' := (congrArg (fun v : Work => v.fab.recv) h.eq).trans rfl
theorem Work.Stops.keepsFlows {w w' : Work} (h : w.Stops w') : w.KeepsFlows w' := (congrArg (fun v : Work => v.fab.recv) h.eq).trans rfl
theorem Work.Stored.keepsFlows {w w' : Work} (h : w.Stored w') : w.KeepsFlows w' := (congrArg (fun v : Work => v.fab.recv) h).trans rfl

namespace Work.KeepsFlows

theorem refl (w : Work) : w.KeepsFlows w := rfl

theorem trans {a b c : Work} (h1 : a.KeepsFlows b) (h2 : b.KeepsFlows c) : a.KeepsFlows c := Eq.trans h2 h1

theorem foldl {α : Type} {f : Work → α → Work} (h : ∀ (w : Work) a, w.KeepsFlows (f w a)) (l : List α) (w : Work) :
    w.KeepsFlows (l.foldl f w) :=
  List.foldlRecOn l f (refl w) fun _ hb a _ => hb.trans (h _ a)

theorem ite {w a b : Work} (c : Prop) [Decidable c] (ha : w.KeepsFlows a) (hb : w.KeepsFlows b) : w.KeepsFlows (if c then a else b) := by
  split <;> assumption

theorem ite_snd {α : Type} {w : Work} {a b : α × Work} (c : Prop) [Decidable c] (ha : w.KeepsFlows a.2) (hb : w.KeepsFlows b.2) :
    w.KeepsFlows (if c then a else b).2 := by
  split <;> assumption

theorem recvFlow {w w' : Work} (h : w.KeepsFlows w') (key : FlowKey) : w'.recvFlow key = w.recvFlow key := by
  unfold Work.recvFlow; rw [h]

/-! Memory, whatever its stacks find (R244, R245, R248, R354, R358). -/

section
variable (w : Work)

theorem updPart (q : Fin 8) (f : Part → Part) : w.KeepsFlows (w.updPart q f) := rfl
theorem updStack (n : Nat) (f : Stack → Stack) : w.KeepsFlows (w.updStack n f) := rfl
theorem logEv (u : BitVec 16) (k v : Nat) (p : Byte) (n : Nat) : w.KeepsFlows (w.logEv u k v p n) := rfl
theorem newEpoch (u : BitVec 16) : w.KeepsFlows (w.newEpoch u) := rfl
theorem setCtr (b : Nat) (c : CtrWord) : w.KeepsFlows (w.setCtr b c) := rfl
theorem setNode (n k i : Nat) (c : CtrWord) : w.KeepsFlows (w.setNode n k i c) := rfl
theorem alarm (q : Fin 8) (pa d : Nat) : w.KeepsFlows (w.alarm q pa d) := (Stored.alarm ..).keepsFlows
theorem poison (b : Nat) : w.KeepsFlows (w.poison b) := (Stored.poison ..).keepsFlows
theorem corrected (pa n : Nat) : w.KeepsFlows (w.corrected pa n) := updStack ..

theorem failPartition (q : Fin 8) (cause : Byte) : w.KeepsFlows (w.failPartition q cause) :=
  (updPart ..).trans (Quiet.failPartition w q cause).keepsFlows

theorem failChannel (n j : Nat) : w.KeepsFlows (w.failChannel n j) := by
  have failed (f : Stack → Stack) (u v x : BitVec 16) (k l : Nat) (p : Byte) (m : Nat) :
      w.KeepsFlows ((((w.updStack n f).logEv u k l p m).newEpoch v).newEpoch x) :=
    (((updStack ..).trans (logEv ..)).trans (newEpoch ..)).trans (newEpoch ..)
  unfold Work.failChannel
  dsimp only
  split
  · exact refl w
  · split
    · exact (failed ..).trans (failPartition ..)
    · exact failed ..

theorem uncorrectable (pa n : Nat) : w.KeepsFlows (w.uncorrectable pa n) := by
  unfold Work.uncorrectable
  dsimp only
  have marked (v : Work) : w.KeepsFlows v → ∀ (b : Nat) (u : BitVec 16) (k l : Nat) (p : Byte) (m : Nat),
      w.KeepsFlows ((v.poison b).logEv u k l p m) := fun h _ _ _ _ _ _ => (h.trans (poison ..)).trans (logEv ..)
  exact ite _ ((marked _ (updStack ..) ..).trans (failChannel ..)) (marked _ (updStack ..) ..)

theorem startRekey (q : Fin 8) (d : Nat) : w.KeepsFlows (w.startRekey q d) := by
  unfold Work.startRekey
  dsimp only
  split
  · exact trans (b := w.drawKey.2) rfl (updPart ..)
  · exact refl w

theorem loseNode (q : Fin 8) (pa level : Nat) : w.KeepsFlows (w.loseNode q pa level) := by
  unfold Work.loseNode
  dsimp only
  refine trans ?_ (foldl (fun v d => trans (b := v.updDom q d _) (updPart ..) (startRekey ..)) _ _)
  refine trans ?_ (failPartition ..)
  refine trans (trans ?_ (updPart ..)) (logEv ..)
  refine trans ?_ (setNode ..)
  exact trans (ite _ (foldl (fun _ _ => setCtr ..) _ _)
    ((foldl (fun _ _ => setCtr ..) _ _).trans (foldl (fun _ _ => setNode ..) _ _))) rfl

theorem repairNode (q : Fin 8) (pa level : Nat) (mirror : Bool) : w.KeepsFlows (w.repairNode q pa level mirror) :=
  ite _ (loseNode ..) ((updPart ..).trans (logEv ..))

/-- Whatever a request meets. -/
theorem meet (q : Fin 8) (pa d : Nat) (ev : MemEvent) : w.KeepsFlows (w.meet q pa d ev) := by
  cases ev with
  | ok | each => exact refl w
  | corrected n => exact corrected ..
  | uncorrectable n => exact uncorrectable ..
  | tagFail => exact ite _ (refl w) ((alarm ..).trans (poison ..))
  | tagArea => exact (foldl (fun _ _ => poison ..) _ _).trans (logEv ..)
  | nodeRepair level mirror => exact repairNode ..
  | nodeLoss level => exact loseNode ..

theorem readBlock (q : Fin 8) (a n : Nat) (ev : MemEvent) : w.KeepsFlows (w.readBlock q a n ev).2 := by
  unfold Work.readBlock
  split
  · exact refl w
  next pa d _ =>
    dsimp only
    have met (c : Prop) [Decidable c] : w.KeepsFlows (if c then w else w.meet q pa d ev) := ite _ (refl w) (meet ..)
    refine ite_snd _ (Stored.unreached ..).keepsFlows (ite_snd _ ?_ (ite_snd _ (met _) (ite_snd _ (met _) ?_)))
    · exact ite _ (met _) ((met _).trans (alarm ..))
    · exact ((met _).trans (alarm ..)).trans (poison ..)

theorem readBlocks (q : Fin 8) (l : List (Nat × Nat)) (ev : MemEvent) : w.KeepsFlows (w.readBlocks q l ev).2 := by
  induction l generalizing w ev with
  | nil => exact refl w
  | cons b l ih =>
    unfold Work.readBlocks
    dsimp only
    exact ite_snd _ (readBlock ..) ((readBlock ..).trans (ih ..))

theorem hbmRead (q : Fin 8) (a n : Nat) (ev : MemEvent) : w.KeepsFlows (w.hbmRead q a n ev).2 := by
  have device (v : Work) (bs : List Byte) : v.KeepsFlows (v.overDevice q a bs).2 := ite_snd _ rfl (refl v)
  unfold Work.hbmRead
  dsimp only
  exact ite_snd _ (ite_snd _ ((readBlocks ..).trans (device ..)) (readBlocks ..)) (refl w)

theorem writeBlock (q : Fin 8) (a : Nat) (bs : List Byte) (ev : MemEvent) : w.KeepsFlows (w.writeBlock q a bs ev).2 := by
  unfold Work.writeBlock
  split
  · exact refl w
  next pa d _ =>
    have met (c : Prop) [Decidable c] : w.KeepsFlows (if c then w else w.meet q pa d ev) := ite _ (refl w) (meet ..)
    have store (v : Work) (k : List Byte) (b : Nat) (c : CtrWord) (plain : List Byte) (f : List Nat → List Nat)
        (g : List ReadAhead → List ReadAhead) (lost : Bool) : v.KeepsFlows
          (let w2 := v.sealBlock k b c plain
           let w3 : Work := { w2 with lostPassed := f w2.lostPassed, readAhead := g w2.readAhead }
           if lost then w3.sweepLost else w3) :=
      have kept := ((Stored.sealBlock v k b c plain).trans (Stored.filtered _ f g)).keepsFlows
      ite _ (kept.trans (Stored.sweepLost _).keepsFlows) kept
    dsimp only
    refine ite_snd _ (Stored.unreached ..).keepsFlows ?_
    refine ite_snd _ (ite_snd _ (((met _).trans (store _ _ _ _ _ (List.filter _) (List.filter _) _)).trans (logEv ..)) ?_)
      (ite_snd _ ((met _).trans (store _ _ _ _ _ (List.filter _) (List.filter _) _))
        (ite_snd _ ((met _).trans (store _ _ _ _ _ (List.filter _) (List.filter _) _))
          (ite_snd _ ((met _).trans (store _ _ _ _ _ (List.filter _) (List.filter _) _)) ?_)))
    · exact (ite _ (met _) ((met _).trans (alarm ..))).trans (updPart ..)
    · exact (((met _).trans (alarm ..)).trans (poison ..)).trans (updPart ..)

theorem writeBlocks (q : Fin 8) (l : List (Nat × Nat)) (bs : List Byte) (ev : MemEvent) : w.KeepsFlows (w.writeBlocks q l bs ev).2 := by
  induction l generalizing w bs ev with
  | nil => exact refl w
  | cons a l ih => exact (writeBlock w q a.1 (bs.take a.2) _).trans (ih _ _ _)

theorem hbmWrite (q : Fin 8) (a : Nat) (bs : List Byte) (ev : MemEvent) : w.KeepsFlows (w.hbmWrite q a bs ev).2 :=
  ite_snd _ (writeBlocks ..) (refl w)

theorem spanWrite (c : CtxId) (sp : Span) (bs : List Byte) : w.KeepsFlows (w.spanWrite c sp bs) := by
  cases sp <;> rfl

end

end Work.KeepsFlows
end Sys2Proof.Machine
end

section
/-! O49: how a packet comes to its flow, and what the flow does with it (R276, R285, R361). -/

namespace Sys2Proof.Machine

/-! A flow at its destination read back and set again. -/

@[simp] theorem Work.recvFlow_setRecv_same (w : Work) (key : FlowKey) (f : RecvFlow) : (w.setRecv key f).recvFlow key = f := by
  simp [Work.recvFlow, Work.setRecv]

theorem Work.setRecv_setRecv (w : Work) (key : FlowKey) (f g : RecvFlow) : (w.setRecv key f).setRecv key g = w.setRecv key g := by
  simp [Work.setRecv, List.filter_filter]

/-! The packet in hand leaves its receive buffer (R279). -/

theorem Work.settleHold_settleHold (w : Work) : w.settleHold.settleHold = w.settleHold := by
  have gone : w.settleHold.fab.hold = none := (congrArg (fun v : Work => v.fab.hold) (Quiet.giveRoom w.unhand w.fab.hold).eq).trans rfl
  have unhand : w.settleHold.unhand = w.settleHold := by
    show ({ w.settleHold with fab := { w.settleHold.fab with hold := none } } : Work) = w.settleHold
    rw [← gone]
  rw [Work.settleHold, unhand, gone]; rfl

theorem Work.KeepsFlows.settleHold (w : Work) : w.KeepsFlows w.settleHold :=
  Work.KeepsFlows.trans (b := w.unhand) rfl (Work.Quiet.giveRoom ..).keepsFlows

/-! How a packet comes (R276, R279, R361). -/

/-- What a packet that has come finds: the device as it was, but for its ports' buffers, what is on its way within the device, and the
room that the packet takes. -/
structure Work.Found (w w1 : Work) : Prop where
  eq : w1 = { w with fab := { w.fab with ports := w1.fab.ports, loop := w1.fab.loop, hold := w1.fab.hold } }
  isActive : ∀ n, (w1.port n).isActive = (w.port n).isActive
  assigned : ∀ n, (w1.port n).assigned = (w.port n).assigned
  part : ∀ n, (w1.port n).part = (w.port n).part
  longHaul : ∀ n, (w1.port n).longHaul = (w.port n).longHaul

theorem Work.Found.trans {a b c : Work} (h1 : a.Found b) (h2 : b.Found c) : a.Found c where
  eq := h2.eq.trans (congrArg (fun v : Work => { v with fab := { v.fab with ports := c.fab.ports, loop := c.fab.loop, hold := c.fab.hold } }) h1.eq)
  isActive n := (h2.isActive n).trans (h1.isActive n)
  assigned n := (h2.assigned n).trans (h1.assigned n)
  part n := (h2.part n).trans (h1.part n)
  longHaul n := (h2.longHaul n).trans (h1.longHaul n)

theorem Work.Found.updPort (w : Work) (p : Nat) (f : Port → Port)
    (h : ∀ y, (f y).isActive = y.isActive ∧ (f y).assigned = y.assigned ∧ (f y).part = y.part ∧ (f y).longHaul = y.longHaul) :
    w.Found (w.updPort p f) := by
  have kept {α : Type} (g : Port → α) (hg : g (f (w.port p)) = g (w.port p)) (n : Nat) : g ((w.updPort p f).port n) = g (w.port n) := by
    by_cases hn : n = p
    · rw [hn, Work.port_updPort_same, hg]
    · rw [Work.port_updPort_other _ _ hn]
  obtain ⟨ha, hs, hp, hl⟩ := h (w.port p)
  exact ⟨rfl, kept _ ha, kept _ hs, kept _ hp, kept _ hl⟩

theorem Work.Found.unloop (w : Work) (q : Fin 8) (k : Pkt) : w.Found (w.unloop q k) :=
  ⟨rfl, fun _ => rfl, fun _ => rfl, fun _ => rfl, fun _ => rfl⟩

theorem Work.Found.inHand (w : Work) (h : Option RxHold) : w.Found (w.inHand h) :=
  ⟨rfl, fun _ => rfl, fun _ => rfl, fun _ => rfl, fun _ => rfl⟩

theorem Work.Found.takeRoom (w : Work) (p : Fin 32) (a : RxPkt) : w.Found (w.takeRoom p a) := by
  unfold Work.takeRoom
  split
  · exact ⟨rfl, fun _ => rfl, fun _ => rfl, fun _ => rfl, fun _ => rfl⟩
  · dsimp only
    refine Work.Found.trans (updPort w p.val _ ?_) (inHand ..)
    exact fun _ => ⟨rfl, rfl, rfl, rfl⟩

theorem Work.Comes.found {w w1 : Work} {p : Fin 32} {a : RxPkt} {q : Fin 8} (h : w.Comes p a q w1) : w.Found w1 := by
  obtain ⟨_, rfl⟩ | ⟨_, _, _, _, _, _, rfl⟩ := h
  · exact .unloop ..
  · exact (Work.Found.takeRoom w p a).trans (.updPort _ _ _ fun _ => ⟨rfl, rfl, rfl, rfl⟩)

/-- A packet for this device alone reaches its flow, by a port or from the device itself, and leaves the room that it took. -/
theorem State.arriveKind_of_comes {s : State} {p : Fin 32} {a : RxPkt} {q : Fin 8} {w1 : Work} (hc : s.w.Comes p a q w1)
    (hm : a.pkt.mcast = false) (hd : a.pkt.dest = s.w.time.address) {kinds : List Nat} (hk : a.pkt.kind.toNat ∈ kinds) (ev : MemEvent) :
    s.arriveKind p a ev kinds = { s with w := (w1.receive (pktFlowIn a.pkt q) p a.pkt ev).settleHold } := by
  have isFor : s.w.isFor a.pkt kinds = true := by simp [Work.isFor, hd, hk]
  have found := hc.found
  rw [State.arriveKind, if_pos isFor, State.takePacket]
  obtain ⟨loop, rfl⟩ | ⟨loop, act, asg, rfl, tag, cut, rfl⟩ := hc
  · rw [loop]; rfl
  · rw [loop]
    show s.byLink p a _ = _
    rw [State.byLink, if_neg (by simp [act]), if_pos tag]
    show ({ s with w := s.w.fromLink p a _ } : State) = _
    have time : ((s.w.takeRoom p a).updPort p.val fun y => y.noteRx a).time = s.w.time := (congrArg Work.time found.eq).trans rfl
    rw [Work.fromLink, cut]
    simp only [Bool.false_eq_true, if_false, Work.arrive, found.isActive, found.assigned, found.part, act, asg, hm, time, hd,
      Bool.and_self, Bool.not_true, if_true]

/-! What the flow answers (R285). -/

/-- The packet at E has been dealt with. -/
theorem Work.passE_eq_answers {x : Work} {q : Fin 8} {k : Pkt} (hm : k.mcast = false) (he : (x.recvFlow (pktFlowIn k q)).e = k.seq)
    (st : Byte) : x.passE (pktFlowIn k q) st = x.answers q k st := by
  have key : (pktFlowIn k q).mcast = false := hm
  have peer : (pktFlowIn k q).peer = k.src := by simp [pktFlowIn, hm]
  unfold Work.passE Work.answers
  dsimp only
  by_cases hst : st = 0
  · subst hst
    by_cases hd : 32 ≤ (x.recvFlow (pktFlowIn k q)).delivered + 1
    · simp only [ne_eq, not_true, if_false, if_true, hd, decide_true, Bool.and_self, or_true, Work.ackFlow, Work.recvFlow_setRecv_same,
        key, Bool.false_eq_true, Option.isSome_none, Bool.false_and, Work.setRecv_setRecv, Work.sendAck, peer, he]
      rfl
    · simp only [ne_eq, not_true, if_false, if_true, hd, decide_true, decide_false, Bool.and_false, Bool.false_eq_true, or_self, he]
  · simp only [ne_eq, hst, not_false_iff, if_true, if_false, true_or, decide_false, Bool.false_and, Bool.false_eq_true, Work.sendAck, key, peer,
      he]
    rfl

/-! A packet at E of a flow behind which nothing is held (R285). -/

/-- Nothing waits out of order: E stands alone. -/
theorem Work.drainEarly_nil {w : Work} {key : FlowKey} (h : (w.recvFlow key).early = []) (n : Nat) : w.drainEarly key n = w := by
  cases n with
  | zero => rfl
  | succ n => simp [Work.drainEarly, h]

/-- The flow's answer leaves nothing out of order where nothing was. -/
theorem Work.early_answers (x : Work) (q : Fin 8) (k : Pkt) (st : Byte) :
    ((x.answers q k st).recvFlow (pktFlowIn k q)).early = (x.recvFlow (pktFlowIn k q)).early := by
  have kept : (x.setRecv (pktFlowIn k q) _).KeepsFlows (x.answers q k st) := .ite _ (Work.Quiet.sendLoose ..).keepsFlows (.refl _)
  rw [kept.recvFlow, Work.recvFlow_setRecv_same]

/-- The packet of an instruction's row that comes at E: what it finds, where its flow comes from noted. -/
structure Work.AtE (w : Work) (p : Fin 32) (a : RxPkt) (q : Fin 8) (w1 w0 : Work) : Prop where
  comes : w.Comes p a q w1
  mcast : a.pkt.mcast = false
  dest : a.pkt.dest = w.time.address
  heldWrite : (w.recvFlow (pktFlowIn a.pkt q)).heldWrite = none
  early : (w.recvFlow (pktFlowIn a.pkt q)).early = []
  seq : a.pkt.seq = (w.recvFlow (pktFlowIn a.pkt q)).e
  eq : w0 = w1.setRecv (pktFlowIn a.pkt q) { w.recvFlow (pktFlowIn a.pkt q) with up := p }

theorem Work.Found.recvFlow {w w1 : Work} (h : w.Found w1) (key : FlowKey) : w1.recvFlow key = w.recvFlow key :=
  (congrArg (fun v : Work => v.recvFlow key) h.eq).trans rfl

theorem Work.AtE.flow {w w1 w0 : Work} {p : Fin 32} {a : RxPkt} {q : Fin 8} (h : w.AtE p a q w1 w0) :
    w0.recvFlow (pktFlowIn a.pkt q) = { w.recvFlow (pktFlowIn a.pkt q) with up := p } := by
  rw [h.eq, Work.recvFlow_setRecv_same]

/-- A packet at E reaches its delivery. -/
theorem Work.receive_atE {w w1 w0 : Work} {p : Fin 32} {a : RxPkt} {q : Fin 8} (h : w.AtE p a q w1 w0) (ev : MemEvent) :
    w1.receive (pktFlowIn a.pkt q) p a.pkt ev =
      let x := w0.deliverAtE (pktFlowIn a.pkt q) p a.pkt ev
      if x.2 then x.1.settleHold.drainEarly (pktFlowIn a.pkt q) 1 else x.1 := by
  have came : w1.setRecv (pktFlowIn a.pkt q) { w1.recvFlow (pktFlowIn a.pkt q) with up := p } = w0 := by rw [h.comes.found.recvFlow, h.eq]
  have early : (w0.recvFlow (pktFlowIn a.pkt q)).early = [] := by rw [h.flow]; exact h.early
  have held : (w0.recvFlow (pktFlowIn a.pkt q)).heldWrite = none := by rw [h.flow]; exact h.heldWrite
  have seq : a.pkt.seq = (w0.recvFlow (pktFlowIn a.pkt q)).e := by rw [h.flow]; exact h.seq
  unfold Work.receive
  simp only [came, ← seq, lt_irrefl, if_false, if_true, held, early, Option.isSome_none, Bool.false_eq_true, List.length_nil, zero_add]

/-- A packet that is dealt with at E: its effect, and the flow's answer with the status of its delivery. -/
theorem Work.receive_settled {w w1 w0 x : Work} {p : Fin 32} {a : RxPkt} {q : Fin 8} {ev : MemEvent} (h : w.AtE p a q w1 w0)
    (hk : w0.KeepsFlows x) {st : Byte}
    (hd : w0.deliver q p a.pkt ev = if st = 0 then .accepted x else .refused x st) :
    (w1.receive (pktFlowIn a.pkt q) p a.pkt ev).settleHold = (x.answers q a.pkt st).settleHold := by
  have flow : x.recvFlow (pktFlowIn a.pkt q) = { w.recvFlow (pktFlowIn a.pkt q) with up := p } := by
    rw [hk.recvFlow, h.flow]
  have answers := Work.passE_eq_answers (x := x) (q := q) h.mcast (by rw [flow]; exact h.seq.symm) st
  have dealt : w0.deliverAtE (pktFlowIn a.pkt q) p a.pkt ev = (x.answers q a.pkt st, true) := by
    rw [← answers, Work.deliverAtE, show (pktFlowIn a.pkt q).q = q from rfl, hd]
    split
    next v hv =>
      split at hv
      next h0 => cases hv; rw [h0]
      · cases hv
    next v c hv =>
      split at hv
      · cases hv
      · cases hv; rfl
    next hv => split at hv <;> cases hv
    next hv => split at hv <;> cases hv
  have alone : (((x.answers q a.pkt st).settleHold).recvFlow (pktFlowIn a.pkt q)).early = [] := by
    rw [(Work.KeepsFlows.settleHold _).recvFlow, Work.early_answers, flow]
    exact h.early
  rw [Work.receive_atE h, dealt]
  dsimp only
  rw [if_pos rfl, Work.drainEarly_nil alone, Work.settleHold_settleHold]

theorem Work.InOrder.atE {w w0 : Work} {p : Fin 32} {a : RxPkt} {q : Fin 8} (h : w.InOrder p a q w0) : ∃ w1, w.AtE p a q w1 w0 := by
  obtain ⟨mcast, dest, heldWrite, early, seq, w1, comes, eq⟩ := h
  exact ⟨w1, comes, mcast, dest, heldWrite, early, seq, eq⟩

/-- What a packet at E finds: all but the ports' buffers, what is on its way, the room in hand and the flows' destinations is as it was. -/
def Work.Meets (w w0 : Work) : Prop :=
  ∃ ports loop hold recv, w0 = { w with fab := { w.fab with ports := ports, loop := loop, hold := hold, recv := recv } }

theorem Work.Found.meets {w w1 : Work} (h : w.Found w1) (key : FlowKey) (f : RecvFlow) : w.Meets (w1.setRecv key f) :=
  ⟨_, _, _, _, (congrArg (fun v : Work => v.setRecv key f) h.eq).trans rfl⟩

/-- What does not look at the ports, at what is on its way, at the room in hand or at the flows' destinations finds what it found. -/
theorem Work.Meets.same {w w0 : Work} {α : Type} (h : w.Meets w0) (g : Work → α)
    (hg : ∀ ports loop hold recv, g { w with fab := { w.fab with ports := ports, loop := loop, hold := hold, recv := recv } } = g w) :
    g w0 = g w := by
  obtain ⟨ports, loop, hold, recv, rfl⟩ := h
  exact hg ports loop hold recv

namespace Work.Meets
variable {w w0 : Work} (h : w.Meets w0)
include h

theorem jobLoaded (q : Fin 8) (j : BitVec 16) : w0.jobLoaded q j = w.jobLoaded q j := h.same (·.jobLoaded q j) fun _ _ _ _ => rfl
theorem mapped (q : Fin 8) (a n : Nat) : w0.mapped q a n = w.mapped q a n := h.same (·.mapped q a n) fun _ _ _ _ => rfl
theorem writeRole (q : Fin 8) (a n : Nat) : w0.writeRole q a n = w.writeRole q a n := h.same (·.writeRole q a n) fun _ _ _ _ => rfl
theorem mustHold (q : Fin 8) (a n : Nat) : w0.mustHold q a n = w.mustHold q a n := h.same (·.mustHold q a n) fun _ _ _ _ => rfl
theorem reads : w0.fab.reads = w.fab.reads := h.same (·.fab.reads) fun _ _ _ _ => rfl
theorem instr (c : CtxId) (i : Nat) : w0.instr c i = w.instr c i := h.same (·.instr c i) fun _ _ _ _ => rfl
theorem ctx (c : CtxId) : w0.ctx c = w.ctx c := h.same (·.ctx c) fun _ _ _ _ => rfl

end Work.Meets

section
variable {s : State} {p : Fin 32} {a : RxPkt} {q : Fin 8} {w1 w0 : Work} (h : s.w.AtE p a q w1 w0)
include h

theorem Work.AtE.meets : s.w.Meets w0 := by rw [h.eq]; exact h.comes.found.meets ..

/-- A packet that is dealt with at E, in the row of its KIND. -/
theorem Work.AtE.arrives {x : Work} {st : Byte} {ev : MemEvent} {kinds : List Nat} (hk : a.pkt.kind.toNat ∈ kinds) (kept : w0.KeepsFlows x)
    (hd : w0.deliver q p a.pkt ev = if st = 0 then .accepted x else .refused x st) :
    s.arriveKind p a ev kinds = { s with w := (x.answers q a.pkt st).settleHold } := by
  rw [State.arriveKind_of_comes h.comes h.mcast h.dest hk, Work.receive_settled h kept hd]

/-- A packet that is accepted at E. -/
theorem Work.AtE.accepts {x : Work} {ev : MemEvent} {kinds : List Nat} (hk : a.pkt.kind.toNat ∈ kinds) (kept : w0.KeepsFlows x)
    (hd : w0.deliver q p a.pkt ev = .accepted x) : s.arriveKind p a ev kinds = { s with w := (x.answers q a.pkt 0).settleHold } :=
  h.arrives hk kept (st := 0) hd

/-- A packet that is refused at E. -/
theorem Work.AtE.refuses {x : Work} {st : Byte} {ev : MemEvent} {kinds : List Nat} (hk : a.pkt.kind.toNat ∈ kinds) (kept : w0.KeepsFlows x)
    (h0 : st ≠ 0) (hd : w0.deliver q p a.pkt ev = .refused x st) :
    s.arriveKind p a ev kinds = { s with w := (x.answers q a.pkt st).settleHold } :=
  h.arrives hk kept (by rw [if_neg h0]; exact hd)

end

/-! What each KIND does where it is delivered (R205, R287, R537). -/

theorem Work.deliver_unloaded {w : Work} {q : Fin 8} {k : Pkt} (h : w.jobLoaded q k.job = false) (p : Fin 32) (ev : MemEvent) :
    w.deliver q p k ev = .refused w 0x46 := by simp [Work.deliver, h]

section
variable {w : Work} {q : Fin 8} {k : Pkt} (hl : w.jobLoaded q k.job = true) (p : Fin 32) (ev : MemEvent)
include hl

theorem Work.deliver_write (hk : k.kind = 0x01) : w.deliver q p k ev = w.deliverWrite q k ev := by simp [Work.deliver, hl, hk]
theorem Work.deliver_readRequest (hk : k.kind = 0x02) : w.deliver q p k ev = w.deliverReadReq q k ev := by simp [Work.deliver, hl, hk]
theorem Work.deliver_readReply (hk : k.kind = 0x03) : w.deliver q p k ev = .accepted (w.deliverReply k) := by simp [Work.deliver, hl, hk]

end

theorem Work.deliverWrite_unmapped {w : Work} {q : Fin 8} {k : Pkt} (h : w.mapped q k.addr.toNat k.payload.length = false) (ev : MemEvent) :
    w.deliverWrite q k ev = .refused w 0x46 := by simp [Work.deliverWrite, h]

section
variable {w : Work} {q : Fin 8} {k : Pkt} (hm : w.mapped q k.addr.toNat k.payload.length = true)
include hm

theorem Work.deliverWrite_current (h : w.writeRole q k.addr.toNat k.payload.length = .current) (ev : MemEvent) :
    w.deliverWrite q k ev = .refused w 0x68 := by simp [Work.deliverWrite, hm, h]

variable (hc : w.writeRole q k.addr.toNat k.payload.length ≠ .current)
include hc

/-- A write that no version bars is held or written (R205). -/
theorem Work.deliverWrite_eq (ev : MemEvent) :
    w.deliverWrite q k ev = if w.mustHold q k.addr.toNat k.payload.length then .held w else w.applyWrite q k ev := by
  cases hr : w.writeRole q k.addr.toNat k.payload.length with
  | current => exact absurd hr hc
  | free | previous => simp [Work.deliverWrite, hm, hr]

end

theorem Work.applyWrite_eq (w : Work) (q : Fin 8) (k : Pkt) (ev : MemEvent) :
    w.applyWrite q k ev =
      let x := w.hbmWrite q k.addr.toNat k.payload ev
      let st : Byte := if x.1 = 0 then 0 else if x.1 = 0x31 then 0x31 else 0x46
      if st = 0 then .accepted x.2 else .refused x.2 st := by
  unfold Work.applyWrite packetStatus
  generalize w.hbmWrite q k.addr.toNat k.payload ev = x
  obtain ⟨c, w1⟩ := x
  dsimp only
  by_cases h0 : c = 0
  · simp only [h0, if_true]
  · rw [if_neg h0, if_neg h0, if_neg (show ¬(if c = 0x31 then (0x31 : Byte) else 0x46) = 0 by split <;> decide)]

/-- A range that has been answered to its end. -/
theorem Work.sendReplies_zero (w : Work) (q : Fin 8) (k : Pkt) (tag fuel off : Nat) (c : Byte) (ev : MemEvent) :
    w.sendReplies q k tag fuel off 0 c ev = w := by
  cases fuel <;> simp [Work.sendReplies]

/-- A range of at most 4,096 bytes is answered by one reply. -/
theorem Work.sendReplies_one {w : Work} {q : Fin 8} {k : Pkt} {tag fuel n : Nat} (h0 : 0 < n) (h1 : n ≤ 4096) (ev : MemEvent) :
    w.sendReplies q k tag (fuel + 1) 0 n 0 ev =
      let x := w.hbmRead q k.addr.toNat n ev
      x.2.sendPkt q { mkPkt k.src k.job 0x03 (BitVec.ofNat 64 tag) (if x.1.code ≠ 0 then [] else x.1.bytes) with
        bestEffort := k.bestEffort, slot := k.slot, status := x.1.code } .device (w.sliceOfAddr q k.addr.toNat) none := by
  have rest : n - n = 0 := Nat.sub_self n
  simp only [Work.sendReplies, if_neg (by omega : ¬n = 0), Nat.min_eq_left h1, Nat.add_zero, ne_eq, not_true, if_false, rest,
    Work.sendReplies_zero, Nat.zero_mul]

theorem Work.deliverReadReq_unmapped {w : Work} {q : Fin 8} {k : Pkt} (h : w.mapped q k.addr.toNat (leAt k.payload 4 4) = false)
    (ev : MemEvent) : w.deliverReadReq q k ev = .refused w 0x46 := by simp [Work.deliverReadReq, h]

theorem Work.deliverReadReq_one {w : Work} {q : Fin 8} {k : Pkt} (hm : w.mapped q k.addr.toNat (leAt k.payload 4 4) = true)
    (h0 : 0 < leAt k.payload 4 4) (h1 : leAt k.payload 4 4 ≤ 4096) (ev : MemEvent) :
    w.deliverReadReq q k ev =
      let x := w.hbmRead q k.addr.toNat (leAt k.payload 4 4) ev
      .accepted (x.2.sendPkt q { mkPkt k.src k.job 0x03 (BitVec.ofNat 64 (leAt k.payload 0 4))
        (if x.1.code ≠ 0 then [] else x.1.bytes) with bestEffort := k.bestEffort, slot := k.slot, status := x.1.code }
          .device (w.sliceOfAddr q k.addr.toNat) none) := by
  simp only [Work.deliverReadReq, hm, Bool.not_true, Bool.false_eq_true, if_false, Work.sendReplies_one h0 h1]

theorem Work.deliverReply_unknown {w : Work} {k : Pkt}
    (h : (w.fab.reads.find? fun r => decide (r.tag = k.addr.setWidth 32 ∧ r.dev = k.src)) = none) : w.deliverReply k = w := by
  unfold Work.deliverReply
  simp only [h]

/-! A reply of a read that stands (R537): a status ends it, a reply out of order is dropped, and its bytes are kept until the range is
complete. -/

section
variable {w : Work} {k : Pkt} {r : ReadReq}
  (h : (w.fab.reads.find? fun r => decide (r.tag = k.addr.setWidth 32 ∧ r.dev = k.src)) = some r)
include h

theorem Work.deliverReply_failed (hs : k.status ≠ 0) : w.deliverReply k = w.remoteDone r.c r.id k.status := by
  simp only [Work.deliverReply, h, if_pos hs]

variable (hs : k.status = 0)
include hs

theorem Work.deliverReply_stray (ho : k.addr.toNat / 2 ^ 32 % 2 ^ 24 ≠ r.data.length) : w.deliverReply k = w := by
  simp only [Work.deliverReply, h, hs, ne_eq, not_true, if_false, bitsOf, if_pos ho]

variable (ho : k.addr.toNat / 2 ^ 32 % 2 ^ 24 = r.data.length)
include ho

theorem Work.deliverReply_part (hn : r.data.length + k.payload.length < r.bytes) :
    w.deliverReply k = { w with fab := { w.fab with
      reads := w.fab.reads.map fun (x : ReadReq) => if x.tag = r.tag ∧ x.dev = r.dev then { x with data := r.data ++ k.payload } else x } } := by
  simp only [Work.deliverReply, h, hs, ne_eq, not_true, if_false, bitsOf, ho, List.length_append, if_pos hn]

theorem Work.deliverReply_whole (hn : r.bytes ≤ r.data.length + k.payload.length) {x : InFlight} (hx : w.instr r.c r.id = some x) {sp : Span}
    (hsp : (w.ctx r.c).range x.vd r.bytes = .ok sp) :
    w.deliverReply k =
      ((w.forgetRemote r.c r.id).spanWrite r.c sp ((r.data ++ k.payload).take r.bytes)).retire r.c x x.flag := by
  have here : (w.forgetRemote r.c r.id).instr r.c r.id = some x := hx
  have range : ((w.forgetRemote r.c r.id).ctx r.c).range x.vd r.bytes = .ok sp := hsp
  simp only [Work.deliverReply, h, hs, ne_eq, not_true, if_false, bitsOf, ho, List.length_append, if_neg (Nat.not_lt.mpr hn), here, range]

end

theorem Work.KeepsFlows.forgetRemote (w : Work) (c : CtxId) (i : Nat) : w.KeepsFlows (w.forgetRemote c i) := rfl
theorem Work.KeepsFlows.retire (w : Work) (c : CtxId) (x : InFlight) (f : Option (Fin 16)) : w.KeepsFlows (w.retire c x f) := rfl

theorem Work.KeepsFlows.remoteDone (w : Work) (c : CtxId) (i : Nat) (st : Byte) : w.KeepsFlows (w.remoteDone c i st) := by
  unfold Work.remoteDone
  split
  · exact refl w
  next x _ =>
    refine ite _ (refl w) (ite _ ?_ (ite _ (retire ..) (refl w)))
    exact (forgetRemote ..).trans (Work.Stops.fault ..).keepsFlows

/-! The other packets of a flow (R285): a duplicate, one out of order, and a write that is held. -/

section
variable {w w1 : Work} {p : Fin 32} {k : Pkt} {q : Fin 8} {f : RecvFlow} (hm : k.mcast = false) (hf : w1.recvFlow (pktFlowIn k q) = f)
include hm

/-- A flow's acknowledgement of all that is below E. -/
theorem Work.ackFlow_came (g : RecvFlow) : (w1.setRecv (pktFlowIn k q) g).ackFlow (pktFlowIn k q) =
    (w1.setRecv (pktFlowIn k q) { g with delivered := 0 }).sendLoose q
      { mkPkt k.src 0 0x04 0 [] with bestEffort := k.bestEffort, seq := g.e, held := g.heldWrite.isSome } none := by
  have key : (pktFlowIn k q).mcast = false := hm
  have peer : (pktFlowIn k q).peer = k.src := by simp [pktFlowIn, hm]
  simp only [Work.ackFlow, Work.recvFlow_setRecv_same, Work.setRecv_setRecv, key, Bool.false_eq_true, if_false, Work.sendAck, peer, beq_self_eq_true,
    Bool.and_true]
  rfl

include hf

theorem Work.receive_duplicate (h : k.seq.toNat < f.e.toNat ∨ (k.seq = f.e ∧ f.heldWrite.isSome = true)) (ev : MemEvent) :
    w1.receive (pktFlowIn k q) p k ev =
      (w1.setRecv (pktFlowIn k q) { f with up := p, delivered := 0 }).sendLoose q
        { mkPkt k.src 0 0x04 0 [] with bestEffort := k.bestEffort, seq := f.e, held := f.heldWrite.isSome } none := by
  unfold Work.receive
  simp only [hf, Work.recvFlow_setRecv_same]
  rw [← Work.ackFlow_came hm { f with up := p }]
  obtain h | ⟨he, hh⟩ := h
  · rw [if_pos h]
  · rw [if_neg (by rw [he]; exact Nat.lt_irrefl _), if_pos he, if_pos hh]

omit hm in
theorem Work.receive_early (he : f.e.toNat < k.seq.toNat) (hw : k.seq.toNat < f.e.toNat + 4096) (hn : ∀ x, x ∈ f.early → x.pkt.seq ≠ k.seq)
    (hr : (w1.setRecv (pktFlowIn k q) { f with up := p }).reorderRoom p k = true) (ev : MemEvent) :
    w1.receive (pktFlowIn k q) p k ev =
      let far := (w1.port p.val).longHaul
      (if far = true then w1.unhand else w1).setRecv (pktFlowIn k q)
        { f with up := p, early := f.early ++ [⟨p, k, if far = true then w1.fab.hold else none⟩], nakDue := f.heldWrite.isNone } := by
  have new : ¬((f.early.any fun x => decide (x.pkt.seq = k.seq)) = true) := by simpa using hn
  unfold Work.receive
  simp only [hf, Work.recvFlow_setRecv_same]
  rw [if_neg (by omega), if_neg (fun e => by rw [e] at he; omega), if_pos hw, if_neg new, if_pos hr]
  have port (g : RecvFlow) : (w1.setRecv (pktFlowIn k q) g).port p.val = w1.port p.val := rfl
  have hold (g : RecvFlow) : (w1.setRecv (pktFlowIn k q) g).fab.hold = w1.fab.hold := rfl
  simp only [port, hold]
  split
  · exact Work.setRecv_setRecv w1.unhand ..
  · exact Work.setRecv_setRecv w1 ..

omit hm in
theorem Work.receive_dropped (h : f.e.toNat + 4096 ≤ k.seq.toNat ∨
    (f.e.toNat < k.seq.toNat ∧ (w1.setRecv (pktFlowIn k q) { f with up := p }).reorderRoom p k = false)) (ev : MemEvent) :
    w1.receive (pktFlowIn k q) p k ev = w1.setRecv (pktFlowIn k q) { f with up := p } := by
  have he : f.e.toNat < k.seq.toNat := by
    obtain h | ⟨h, _⟩ := h
    · omega
    · exact h
  unfold Work.receive
  simp only [hf, Work.recvFlow_setRecv_same]
  rw [if_neg (by omega), if_neg (fun e => by rw [e] at he; omega)]
  obtain h | ⟨_, hr⟩ := h
  · rw [if_neg (by omega)]
  · rw [hr, if_neg Bool.false_ne_true, ite_self, ite_self]

end

/-- A write that waits for the count of its version stands at E (R205). -/
theorem Work.AtE.held {w w1 w0 : Work} {p : Fin 32} {a : RxPkt} {q : Fin 8} {ev : MemEvent} (h : w.AtE p a q w1 w0)
    (hd : w0.deliver q p a.pkt ev = .held w0) :
    w1.receive (pktFlowIn a.pkt q) p a.pkt ev =
      let y := w0.setRecv (pktFlowIn a.pkt q)
        { w.recvFlow (pktFlowIn a.pkt q) with up := p, heldWrite := some (p, a.pkt), nakDue := false, delivered := 0 }
      let z : Work := { y with heldWrites := y.heldWrites ++ [⟨q, p, a.pkt⟩] }
      z.sendLoose q { mkPkt a.pkt.src 0 0x04 0 [] with bestEffort := a.pkt.bestEffort, seq := a.pkt.seq, held := true } none := by
  have stands : w0.deliverAtE (pktFlowIn a.pkt q) p a.pkt ev =
      ((({ w0 with heldWrites := w0.heldWrites ++ [⟨q, p, a.pkt⟩] } : Work).setRecv (pktFlowIn a.pkt q)
        { w.recvFlow (pktFlowIn a.pkt q) with up := p, heldWrite := some (p, a.pkt), nakDue := false }).ackFlow (pktFlowIn a.pkt q), false) := by
    rw [Work.deliverAtE, show (pktFlowIn a.pkt q).q = q from rfl, hd]
    dsimp only
    rw [h.flow]
    rfl
  rw [Work.receive_atE h, stands]
  dsimp only
  rw [if_neg Bool.false_ne_true, Work.ackFlow_came h.mcast, h.seq]
  rfl

/-- The rows of the KINDs that travel on flows give their packet to its flow. -/
theorem exec_flowRow (p : Fin 32) (rx : RxPkt) (ev : MemEvent) (s : State) :
    ∀ r ∈ ([(.writePacket p rx ev, 1), (.readRequest p rx ev, 2), (.readReply p rx, 3), (.sluiceSignalMessage p rx, 6),
      (.sluicePublication p rx, 7), (.stepAbort p rx, 0x0B), (.codeDelta p rx, 0x0C), (.commitDecision 0 0 (some (p, rx)), 0x0E),
      (.redContributionPacket p ⟨rx, ev⟩, 0x10), (.redPartialPacket p ⟨rx, ev⟩, 0x11), (.redResultPacket p ⟨rx, ev⟩, 0x12),
      (.redNoticePacket p ⟨rx, ev⟩, 0x13), (.redRetryPacket p ⟨rx, ev⟩, 0x14), (.redUnknownKind p rx, 0x15)] : List (Instr × Nat)),
      ∃ found kinds, r.2 ∈ kinds ∧ exec r.1 s = .next (s.arriveKind p rx found kinds) := by
  have row (i : Instr) (n : Nat) (found : MemEvent) (l : List Nat) (h : exec i s = .next (s.arriveKind p rx found (n :: l))) :
      ∃ found kinds, n ∈ kinds ∧ exec i s = .next (s.arriveKind p rx found kinds) := ⟨found, n :: l, List.mem_cons_self, h⟩
  simp only [List.forall_mem_cons]
  exact ⟨row _ 1 ev [] rfl, row _ 2 ev [] rfl, row _ 3 .ok [] rfl, row _ 6 .ok [] rfl, row _ 7 .ok [] rfl, row _ 0x0B .ok [] rfl,
    row _ 0x0C .ok [] rfl, row _ 0x0E .ok [] rfl, row _ 0x10 ev [] rfl, row _ 0x11 ev [] rfl, row _ 0x12 ev [] rfl, row _ 0x13 ev [] rfl,
    row _ 0x14 ev [] rfl, row _ 0x15 .ok [0x16, 0x17, 0x18, 0x19, 0x1A, 0x1B, 0x1C, 0x1D, 0x1E, 0x1F] rfl, List.forall_mem_nil _⟩

/-- Settles O49: a packet reaches its flow by `State.arriveKind_of_comes`; at E its delivery is dealt with and answered
(`Work.receive_settled`), since no delivery changes the flows at their destination (`Work.KeepsFlows`). -/
theorem packetDeliveryResults : Obligations.PacketDeliveryResults := by
  unfold Obligations.PacketDeliveryResults
  intro p rx ev q s w0 k key f a n m ends rows
  refine ⟨fun hi hl r hr hk => ?_, fun hi hl => ?_, fun hk hm hd w1 hc => ?_⟩
  · obtain ⟨w1, h⟩ := hi.atE
    obtain ⟨found, kinds, hmem, hrow⟩ := exec_flowRow p rx ev s r hr
    have refused := Work.deliver_unloaded ((h.meets.jobLoaded q k.job).trans hl) p found
    exact hrow.trans (congrArg _ (h.refuses (hk ▸ hmem) (.refl _) (by decide) refused))
  · obtain ⟨w1, h⟩ := hi.atE
    have meets := h.meets
    have loaded : w0.jobLoaded q k.job = true := (meets.jobLoaded q k.job).trans hl
    refine ⟨fun hk => ?_, fun hk hu => ?_, fun hk hm h0 h1 => ?_, fun hk r hr => ?_, fun hk hr => ?_⟩
    · have kind : rx.pkt.kind.toNat ∈ [0x01] := by rw [show rx.pkt.kind = 0x01 from hk]; decide
      have write := Work.deliver_write loaded p ev hk
      refine ⟨fun hu => ?_, fun hm hc => ?_, fun hm hc hw => ?_, fun hm hc hw => ?_⟩
      · exact congrArg _ (h.refuses kind (.refl _) (by decide) (write.trans (Work.deliverWrite_unmapped ((meets.mapped ..).trans hu) ev)))
      · exact congrArg _ (h.refuses kind (.refl _) (by decide)
          (write.trans (Work.deliverWrite_current ((meets.mapped ..).trans hm) ((meets.writeRole ..).trans hc) ev)))
      · have apply : w0.deliverWrite q rx.pkt ev = w0.applyWrite q rx.pkt ev := by
          rw [Work.deliverWrite_eq ((meets.mapped ..).trans hm) (by rw [meets.writeRole]; exact hc), meets.mustHold,
            if_neg (Bool.not_eq_true _ ▸ hw)]
        exact congrArg _ (h.arrives kind (.hbmWrite ..) (write.trans (apply.trans (Work.applyWrite_eq ..))))
      · have held : w0.deliverWrite q rx.pkt ev = .held w0 := by
          rw [Work.deliverWrite_eq ((meets.mapped ..).trans hm) (by rw [meets.writeRole]; exact hc), meets.mustHold, if_pos hw]
        show Host.Outcome.next (s.arriveKind p rx ev [0x01]) = _
        rw [State.arriveKind_of_comes h.comes h.mcast h.dest kind, h.held (write.trans held)]
    · have kind : rx.pkt.kind.toNat ∈ [0x02] := by rw [show rx.pkt.kind = 0x02 from hk]; decide
      exact congrArg _ (h.refuses kind (.refl _) (by decide)
        ((Work.deliver_readRequest loaded p ev hk).trans (Work.deliverReadReq_unmapped ((meets.mapped ..).trans hu) ev)))
    · have kind : rx.pkt.kind.toNat ∈ [0x02] := by rw [show rx.pkt.kind = 0x02 from hk]; decide
      exact congrArg _ (h.accepts kind ((Work.KeepsFlows.hbmRead ..).trans (Work.Quiet.sendPkt ..).keepsFlows)
        ((Work.deliver_readRequest loaded p ev hk).trans (Work.deliverReadReq_one ((meets.mapped ..).trans hm) h0 h1 ev)))
    · have kind : rx.pkt.kind.toNat ∈ [0x03] := by rw [show rx.pkt.kind = 0x03 from hk]; decide
      have reply := Work.deliver_readReply loaded p .ok hk
      have stands := (congrArg (List.find? _) meets.reads).trans hr
      have done {x : Work} (kept : w0.KeepsFlows x) (hx : w0.deliverReply rx.pkt = x) : ends (.readReply p rx) x 0 :=
        congrArg _ (h.accepts kind kept (reply.trans (congrArg _ hx)))
      refine ⟨fun hs => ?_, fun hs ho => ?_, fun hs ho hn => ?_, fun x sp hs ho hn hx hsp => ?_⟩
      · exact done (.remoteDone ..) (Work.deliverReply_failed stands hs)
      · exact done (.refl _) (Work.deliverReply_stray stands hs ho)
      · exact done rfl (Work.deliverReply_part stands hs ho hn)
      · exact done (((Work.KeepsFlows.forgetRemote ..).trans (.spanWrite ..)).trans (.retire ..))
          (Work.deliverReply_whole stands hs ho hn ((meets.instr ..).trans hx) (by rw [meets.ctx]; exact hsp))
    · have kind : rx.pkt.kind.toNat ∈ [0x03] := by rw [show rx.pkt.kind = 0x03 from hk]; decide
      have none_ := (congrArg (List.find? _) meets.reads).trans hr
      exact congrArg _ (h.accepts kind (.refl _)
        ((Work.deliver_readReply loaded p .ok hk).trans (congrArg _ (Work.deliverReply_unknown none_))))
  · have kind : rx.pkt.kind.toNat ∈ [0x01] := by rw [show rx.pkt.kind = 0x01 from hk]; decide
    have flow : w1.recvFlow (pktFlowIn rx.pkt q) = s.w.recvFlow (pktFlowIn rx.pkt q) := hc.found.recvFlow _
    have ends_ {x : Work} (hx : w1.receive (pktFlowIn rx.pkt q) p rx.pkt ev = x) :
        exec (.writePacket p rx ev) s = .next { s with w := x.settleHold } := by
      show Host.Outcome.next (s.arriveKind p rx ev [0x01]) = _
      rw [State.arriveKind_of_comes hc hm hd kind, hx]
    refine ⟨fun hdup => ?_, fun he hw hn hr => ?_, fun hfar => ?_⟩
    · exact ends_ (Work.receive_duplicate hm flow hdup ev)
    · have early := Work.receive_early flow he hw hn hr ev
      rw [hc.found.longHaul] at early
      exact ends_ early
    · exact ends_ (Work.receive_dropped flow hfar ev)

end Sys2Proof.Machine
end

section
/-! O51: sluice messages, publications, step decisions and aborts, code deltas and rebuild contributions (R92-R94, R414-R418, R421, R422,
R536). -/

namespace Sys2Proof.Machine

theorem bitsOf_zero (v n : Nat) : bitsOf v 0 n = v % 2 ^ n := by rw [bitsOf, Nat.pow_zero, Nat.div_one]

theorem Work.updSluice_congr (w : Work) (i : Nat) {f g : Sluice → Sluice} (h : f (w.sluice i) = g (w.sluice i)) :
    w.updSluice i f = w.updSluice i g := by
  unfold Work.updSluice Tbl.upd
  rw [show f (w.sluices.get .zero i) = g (w.sluices.get .zero i) from h]

/-! A step's decision is made, and published (R415, R416). -/

/-- A job's commit sluice is to be published. -/
def Work.noteDecision (w : Work) (j : Job) : Work :=
  match j.commitSluice with
  | some m => w.updSluice m fun z => { z with changed := true }
  | none => w

/-- The generation of a job's commit sluice. -/
def Work.commitGen (w : Work) (j : Job) : BitVec 16 :=
  match j.commitSluice with
  | some m => (w.sluice m).gen
  | none => 0

/-- A decision on the step of a job is published, and learned where nothing of the step has been. -/
def Work.publishAs (w : Work) (q : Fin 8) (r : BitVec 16) (j : Job) (d : Decision) : Work :=
  if (w.commit q r).learned = none ∧ d.step = j.step then
    (w.noteDecision j).updCommit q r fun c => { c with learned := some d, cause := if d.committed then c.cause else d.cause }
  else w.noteDecision j

/-- The step of a job is decided, and published unless another device must hold the decision first. -/
def Work.decideAs (w : Work) (q : Fin 8) (r : BitVec 16) (j : Job) (ok : Bool) (cause : Byte) : Work :=
  let d : Decision := ⟨j.step, w.commitGen j, ok, cause⟩
  let y := w.updCommit q r fun c => { c with decided := some d }
  if w.home2Of j = none ∨ (w.commit q r).alone = true ∨ (w.commit q r).takenOver = true then y.publishAs q r j d else y

section
variable {w : Work} {q : Fin 8} {r : BitVec 16} {j : Job} (hj : w.job q r = some j)
include hj

theorem Work.learn_eq (d : Decision) : w.learn q r d =
    if (w.commit q r).learned = none ∧ d.step = j.step then
      w.updCommit q r fun c => { c with learned := some d, cause := if d.committed then c.cause else d.cause }
    else w := by
  unfold Work.learn
  simp only [hj]
  cases hl : (w.commit q r).learned <;> by_cases hs : d.step = j.step <;> simp [hs]

theorem Work.publishDecision_eq (d : Decision) : w.publishDecision q r d = w.publishAs q r j d := by
  unfold Work.publishDecision Work.publishAs Work.noteDecision
  simp only [hj, Option.bind_some]
  cases j.commitSluice with
  | none => exact Work.learn_eq hj d
  | some m => exact Work.learn_eq (w := w.updSluice m _) hj d

theorem Work.decideStep_decided (hd : (w.commit q r).decided ≠ none) (ok : Bool) (cause : Byte) : w.decideStep q r ok cause = w := by
  unfold Work.decideStep
  simp only [hj, if_pos (Option.isSome_iff_ne_none.mpr hd)]

theorem Work.decideStep_eq (hd : (w.commit q r).decided = none) {ok : Bool} {cause : Byte} (hc : ok = true → cause = 0) :
    w.decideStep q r ok cause = w.decideAs q r j ok cause := by
  have given : (if ok = true then 0 else cause) = cause := by split <;> simp_all
  unfold Work.decideStep Work.decideAs
  simp only [hj, hd, Option.isSome_none, Bool.false_eq_true, if_false, given]
  rw [Work.publishDecision_eq (w := w.updCommit q r _) hj]
  refine if_congr ?_ rfl rfl
  simp [or_assoc]

end

/-! A sluice message at its home (R92-R94, R415). -/

/-- What `sl.arm` leaves, its effect on publication and its count of re-arms written out. -/
theorem Sluice.armed_eq (y : Sluice) (g : BitVec 16) (t : BitVec 32) : y.armed g t = { y with
    count := 0, target := t, gen := g, changed := y.changed || decide (y.count ≠ 0 ∨ y.target ≠ t ∨ y.gen ≠ g)
    rearms := if reached32 y.count y.target then y.rearms else Min.min (y.rearms + 1) 65535 } := by
  have changes : (!(y.count == 0 && y.target == t && y.gen == g)) = decide (y.count ≠ 0 ∨ y.target ≠ t ∨ y.gen ≠ g) := by
    rw [Bool.eq_iff_iff]
    simp only [Bool.not_eq_true', Bool.and_eq_false_iff, beq_eq_false_iff_ne, decide_eq_true_iff, or_assoc]
  rw [Sluice.armed, changes]
  rfl

theorem Sluice.signalled_same {y : Sluice} {g : BitVec 16} (h : y.gen = g) (n : BitVec 32) :
    y.signalled g n = { y with count := y.count + n, changed := y.changed || decide (n ≠ 0) } := if_pos h

theorem Sluice.signalled_other {y : Sluice} {g : BitVec 16} (h : y.gen ≠ g) (n : BitVec 32) :
    y.signalled g n = { y with discards := Min.min (y.discards + 1) 65535 } := if_neg h

/-- A sluice keeps its home while it counts, and so the device that decides. -/
theorem Work.decides_updSluice (w : Work) (i : Nat) {f : Sluice → Sluice}
    (hf : (f (w.sluice i)).fabric = (w.sluice i).fabric ∧ (f (w.sluice i)).home = (w.sluice i).home) (q : Fin 8) (r : BitVec 16) (j : Job) :
    (w.updSluice i f).decides q r j = w.decides q r j := by
  have home : (w.updSluice i f).homeOf j = w.homeOf j := by
    unfold Work.homeOf
    cases j.commitSluice with
    | none => rfl
    | some n =>
      by_cases hn : n = i
      · subst hn; simp only [Work.sluice_updSluice_same, hf.1, hf.2]; rfl
      · simp only [Work.sluice_updSluice_other _ _ hn]; rfl
  unfold Work.decides
  rw [home]
  rfl

/-- The deciding home of the one job whose commit sluice has had a signal (R415). -/
theorem Work.checkCommit_one {w : Work} {i : Nat} {g : BitVec 16} {q : Fin 8} {r : BitVec 16} {j : Job} (hc : w.commitJobs i = [(q, r)])
    (hj : w.job q r = some j) (hd : w.decides q r j = true) (hg : (w.sluice i).gen = g) :
    w.checkCommit i g =
      let z := if (w.commit q r).firstSignal.isNone then w.updCommit q r fun c => { c with firstSignal := some w.frame } else w
      if (w.sluice i).full = true ∧ (w.commit q r).decided = none then z.decideAs q r j true 0 else z := by
  unfold Work.checkCommit
  simp only [hc, List.foldl_cons, List.foldl_nil, hj, hd, hg, beq_self_eq_true, Bool.and_self, if_true]
  generalize hz : (if (w.commit q r).firstSignal.isNone = true then w.updCommit q r fun c => { c with firstSignal := some w.frame } else w) = z
  have sluice : z.sluice i = w.sluice i := by rw [← hz]; split <;> rfl
  have job : z.job q r = some j := by rw [← hz]; split <;> exact hj
  have decided : (z.commit q r).decided = (w.commit q r).decided := by
    rw [← hz]; split
    · rw [Work.commit_updCommit_same]
    · rfl
  rw [sluice]
  by_cases hfull : (w.sluice i).full = true
  · rw [if_pos hfull]
    by_cases hn : (w.commit q r).decided = none
    · rw [if_pos ⟨hfull, hn⟩, Work.decideStep_eq job (decided.trans hn) fun _ => rfl]
    · rw [if_neg (fun h => hn h.2), Work.decideStep_decided job (by rw [decided]; exact hn)]
  · rw [if_neg hfull, if_neg (fun h => hfull h.1)]

/-- A signal at the deciding home of its one job. -/
theorem Work.applySluice_deciding {w : Work} {i : Nat} {g : BitVec 16} {q : Fin 8} {r : BitVec 16} {j : Job} (hc : w.commitJobs i = [(q, r)])
    (hj : w.job q r = some j) (hd : w.decides q r j = true) (hg : (w.sluice i).gen = g) (n : BitVec 32) :
    w.applySluice i (.signal g n) =
      let y := w.updSluice i fun y => { y with count := y.count + n, changed := y.changed || decide (n ≠ 0) }
      let z := if (w.commit q r).firstSignal.isNone then y.updCommit q r fun c => { c with firstSignal := some y.frame } else y
      if reached32 ((w.sluice i).count + n) (w.sluice i).target = true ∧ (w.commit q r).decided = none then z.decideAs q r j true 0
      else z := by
  have counted : (w.updSluice i fun y => y.apply (.signal g n)) =
      w.updSluice i fun y => { y with count := y.count + n, changed := y.changed || decide (n ≠ 0) } :=
    w.updSluice_congr i (Sluice.signalled_same hg n)
  show (w.updSluice i fun y => y.apply (.signal g n)).checkCommit i g = _
  refine (congrArg (fun v : Work => v.checkCommit i g) counted).trans ((Work.checkCommit_one (q := q) (r := r) (j := j) ?_ ?_ ?_ ?_).trans ?_)
  · exact hc
  · exact hj
  · rw [Work.decides_updSluice w i (by exact ⟨rfl, rfl⟩), hd]
  · rw [Work.sluice_updSluice_same]; exact hg
  · refine if_congr (and_congr (iff_of_eq ?_) Iff.rfl) rfl rfl
    exact congrArg (fun y : Sluice => y.full = true) (Work.sluice_updSluice_same ..)

/-! What each of these KINDs does where it is delivered (R94, R415-R418, R421, R422, R536). -/

namespace Work.Meets
variable {w w0 : Work} (h : w.Meets w0)
include h

theorem declaredIn (q : Fin 8) (i : Nat) : w0.declaredIn q i = w.declaredIn q i := h.same (·.declaredIn q i) fun _ _ _ _ => rfl
theorem remoteSluice (i : Nat) : w0.remoteSluice i = w.remoteSluice i := h.same (·.remoteSluice i) fun _ _ _ _ => rfl
theorem sluice (i : Nat) : w0.sluice i = w.sluice i := h.same (·.sluice i) fun _ _ _ _ => rfl
theorem commit (q : Fin 8) (j : BitVec 16) : w0.commit q j = w.commit q j := h.same (·.commit q j) fun _ _ _ _ => rfl
theorem job (q : Fin 8) (j : BitVec 16) : w0.job q j = w.job q j := h.same (·.job q j) fun _ _ _ _ => rfl
theorem commitJobs (i : Nat) : w0.commitJobs i = w.commitJobs i := h.same (·.commitJobs i) fun _ _ _ _ => rfl
theorem decides (q : Fin 8) (r : BitVec 16) (j : Job) : w0.decides q r j = w.decides q r j := h.same (·.decides q r j) fun _ _ _ _ => rfl
theorem isHome2 (j : Job) : w0.isHome2 j = w.isHome2 j := h.same (·.isHome2 j) fun _ _ _ _ => rfl
theorem codeEntries (q : Fin 8) (r : ResilSec) : w0.codeEntries q r = w.codeEntries q r := h.same (·.codeEntries q r) fun _ _ _ _ => rfl
theorem rebuildFor (q : Fin 8) (k : Pkt) : w0.rebuildFor q k = w.rebuildFor q k := h.same (·.rebuildFor q k) fun _ _ _ _ => rfl

end Work.Meets

section
variable {w : Work} {q : Fin 8} {k : Pkt} (hl : w.jobLoaded q k.job = true) (p : Fin 32) (ev : MemEvent)
include hl

theorem Work.deliver_sluice (hk : k.kind = 0x06) : w.deliver q p k ev = w.deliverSluice q k := by simp [Work.deliver, hl, hk]
theorem Work.deliver_publication (hk : k.kind = 0x07) : w.deliver q p k ev = w.deliverPublication q k := by simp [Work.deliver, hl, hk]
theorem Work.deliver_abort (hk : k.kind = 0x0B) : w.deliver q p k ev = .accepted (w.abortPacket q k) := by simp [Work.deliver, hl, hk]
theorem Work.deliver_codeDelta (hk : k.kind = 0x0C) : w.deliver q p k ev = .accepted (w.codeDelta q k) := by simp [Work.deliver, hl, hk]
theorem Work.deliver_rebuild (hk : k.kind = 0x0D) : w.deliver q p k ev = .accepted (w.rebuildPacket q k) := by simp [Work.deliver, hl, hk]

theorem Work.deliver_decision (hk : k.kind = 0x0E) : w.deliver q p k ev =
    if w.declaredIn q (k.addr.toNat % 2 ^ 14) then .accepted (w.holdDecision q k.job k.payload) else .refused w 0x46 := by
  rw [← bitsOf_zero]
  simp [Work.deliver, hl, hk]

end

theorem Work.deliverSluice_undeclared {w : Work} {q : Fin 8} {k : Pkt} (h : w.declaredIn q (k.addr.toNat % 2 ^ 14) = false) :
    w.deliverSluice q k = .refused w 0x46 := by
  rw [← bitsOf_zero] at h
  simp only [Work.deliverSluice, h, Bool.not_false, if_true]

theorem Work.deliverPublication_undeclared {w : Work} {q : Fin 8} {k : Pkt} (h : w.declaredIn q (k.addr.toNat % 2 ^ 14) = false) :
    w.deliverPublication q k = .refused w 0x46 := by
  rw [← bitsOf_zero] at h
  simp only [Work.deliverPublication, h, Bool.not_false, if_true]

section
variable {w : Work} {q : Fin 8} {k : Pkt} (hd : w.declaredIn q (k.addr.toNat % 2 ^ 14) = true)
include hd

theorem Work.deliverSluice_home (hr : w.remoteSluice (k.addr.toNat % 2 ^ 14) = false) :
    w.deliverSluice q k = .accepted (w.applySluice (k.addr.toNat % 2 ^ 14) (.ofPayload k.payload)) := by
  rw [← bitsOf_zero] at hd hr ⊢
  simp only [Work.deliverSluice, hd, hr, Bool.not_true, Bool.not_false, Bool.false_eq_true, if_false, if_true]

/-- A signal at HOME2 is counted there (R414). -/
theorem Work.deliverSluice_home2 (hr : w.remoteSluice (k.addr.toNat % 2 ^ 14) = true) (hs : leAt k.payload 0 1 ≠ 1) {j : Job}
    (hj : w.job q k.job = some j) (h2 : w.isHome2 j = true) (hc : j.commitSluice = some (k.addr.toNat % 2 ^ 14)) :
    w.deliverSluice q k = .accepted (w.home2Signal q k.job (BitVec.ofNat 16 (leAt k.payload 2 2)) (BitVec.ofNat 32 (leAt k.payload 4 4)).toNat) := by
  rw [← bitsOf_zero] at hd hr hc
  simp only [Work.deliverSluice, SluiceOp.ofPayload, hd, hr, if_neg hs, hj, h2, hc, Bool.not_true, Bool.false_eq_true, if_false, decide_true,
    Bool.and_self, if_true]

/-- A publication at a member (R94, R416). -/
theorem Work.deliverPublication_eq {j : Job} (hj : w.job q k.job = some j) :
    w.deliverPublication q k =
      let b := k.payload
      let i := k.addr.toNat % 2 ^ 14
      let y := if (w.sluice i).pubFrame.toNat ≤ k.frame.toNat ∧ w.remoteSluice i = true then w.updSluice i fun x => { x with
        count := BitVec.ofNat 32 (leAt b 0 4), target := BitVec.ofNat 32 (leAt b 4 4), gen := BitVec.ofNat 16 (leAt b 8 2), pubFrame := k.frame }
        else w
      let out := leAt b 10 1 % 4
      let d : Decision := ⟨BitVec.ofNat 64 (leAt b 16 8), BitVec.ofNat 16 (leAt b 8 2), decide (out = 1), BitVec.ofNat 8 (leAt b 11 1)⟩
      .accepted (if (out = 1 ∨ out = 2) ∧ j.commitSluice = some i ∧ (w.commit q k.job).learned = none ∧ d.step = j.step then
        y.updCommit q k.job fun c => { c with learned := some d, cause := if out = 1 then c.cause else d.cause } else y) := by
  unfold Work.deliverPublication
  simp only [hd, Bool.not_true, Bool.false_eq_true, if_false, bitsOf_zero]
  generalize hy : (if (w.sluice (k.addr.toNat % 2 ^ 14)).pubFrame.toNat ≤ k.frame.toNat ∧ w.remoteSluice (k.addr.toNat % 2 ^ 14) = true then
    w.updSluice (k.addr.toNat % 2 ^ 14) fun x => { x with
      count := BitVec.ofNat 32 (leAt k.payload 0 4), target := BitVec.ofNat 32 (leAt k.payload 4 4)
      gen := BitVec.ofNat 16 (leAt k.payload 8 2), pubFrame := k.frame } else w) = y
  have job : y.job q k.job = some j := by rw [← hy]; split <;> exact hj
  have commit : y.commit q k.job = w.commit q k.job := by rw [← hy]; split <;> rfl
  simp only [job]
  by_cases ho : (leAt k.payload 10 1 % 4 = 1 ∨ leAt k.payload 10 1 % 4 = 2) ∧ j.commitSluice = some (k.addr.toNat % 2 ^ 14)
  · rw [if_pos ho, Work.learn_eq job, commit]
    simp only [decide_eq_true_iff, ho, true_and]
  · rw [if_neg ho, if_neg fun h => ho ⟨h.1, h.2.1⟩]

end

/-- HOME2 counts the commit signals while it has not taken over (R414). -/
theorem Work.home2Signal_waits {w : Work} {q : Fin 8} {r : BitVec 16} {j : Job} (hj : w.job q r = some j)
    (ht : (w.commit q r).takenOver = false) (g : BitVec 16) (n : Nat) :
    w.home2Signal q r g n = w.updCommit q r fun c => { c with counts := c.counts.upd 0 g.toNat (· + n) } := by
  have stays (f : CommitSt → CommitSt) (hf : (f (w.commit q r)).takenOver = (w.commit q r).takenOver) :
      ((w.updCommit q r f).commit q r).takenOver = false := by rw [Work.commit_updCommit_same, hf, ht]
  unfold Work.home2Signal
  simp only [hj]
  cases j.commitSluice with
  | none => rfl
  | some m =>
    dsimp only
    rw [stays _ rfl, Bool.false_and, if_neg Bool.false_ne_true]

/-- An abort that does not say that the partition has failed (R415, R417). -/
theorem Work.abortPacket_eq {w : Work} {q : Fin 8} {k : Pkt} (h : leAt k.payload 9 1 % 2 = 0) :
    w.abortPacket q k = w.abortAtHome q k.job (BitVec.ofNat 64 (leAt k.payload 0 8)) (BitVec.ofNat 8 (leAt k.payload 8 1)) := by
  unfold Work.abortPacket
  dsimp only
  split
  · rw [if_neg (by omega)]
  · rfl

section
variable {w : Work} {q : Fin 8} {r : BitVec 16} {j : Job} (hj : w.job q r = some j) (step : Word) (cause : Byte)
include hj

theorem Work.abortAtHome_mine (h : w.decides q r j = true ∧ step = j.step) :
    w.abortAtHome q r step cause = w.decideStep q r false cause := by
  simp [Work.abortAtHome, hj, h]

/-- An abort that this device does not decide is kept, unless its step is over. -/
theorem Work.abortAtHome_other (h : ¬(w.decides q r j = true ∧ step = j.step)) :
    w.abortAtHome q r step cause = if step.toNat < j.step.toNat then w else
      w.updCommit q r fun c => { c with aborts := if c.aborts.any (·.1 == step) then c.aborts else (step, cause) :: c.aborts } := by
  have other : (w.decides q r j && step == j.step) = false := by
    rw [Bool.eq_false_iff]
    simpa using h
  simp only [Work.abortAtHome, hj, other, Bool.false_eq_true, if_false, BitVec.ult, decide_eq_true_iff]

end

/-! Code deltas and rebuild contributions (R420-R422). -/

/-- The group of a packet of the shard code: what ADDR holds above the offset. -/
theorem bitsOf_group (k : Pkt) : bitsOf k.addr.toNat 48 16 = k.addr.toNat / 2 ^ 48 := by
  have := k.addr.isLt
  rw [bitsOf, Nat.mod_eq_of_lt (by omega)]

/-- The first delta of an attempt starts the previous parity again from the current one; a later one finds it (R421). -/
def Work.parityStart (w : Work) (q : Fin 8) (j : BitVec 16) (prev cur n : Nat) : Byte × Work :=
  if ∃ x, x ∈ (w.commit q j).deltas ∧ x.1 < 32 then (0, w) else w.hbmWrite q prev (w.peek q cur n) .ok

/-- A delta into the previous parity. -/
def Work.parityDelta (w : Work) (q : Fin 8) (a : Nat) (b : List Byte) : Byte × Work :=
  w.hbmWrite q a (((w.peek q a b.length).zip b).map fun x => x.1 ^^^ x.2) .ok

/-- A delta for a job with one code entry. -/
theorem Work.codeDelta_one {w : Work} {q : Fin 8} {k : Pkt} {j : Job} {r : ResilSec} {e : CodeEntry} (hj : w.job q k.job = some j)
    (hr : j.resil = some r) (he : w.codeEntries q r = [e]) :
    w.codeDelta q k =
      let prev := if j.buf then e.parity0 else e.parity1
      let role := e.members.idxOf k.src
      let y := w.parityStart q k.job prev (if j.buf then e.parity1 else e.parity0) r.shardBytes
      let z := y.2.parityDelta q (prev + k.addr.toNat % 2 ^ 48) k.payload
      if e.group = k.addr.toNat / 2 ^ 48 ∧ r.codeK ≤ e.role ∧ role < r.codeK then
        if y.1 ≠ 0 ∨ z.1 ≠ 0 then z.2
        else z.2.updCommit q k.job fun c => { c with deltas := c.deltas.upd 0 role (· + k.payload.length) }
      else w := by
  have started : ((w.commit q k.job).deltas.any fun d => decide (d.1 / 32 = 0)) = true ↔ ∃ x, x ∈ (w.commit q k.job).deltas ∧ x.1 < 32 := by
    simp only [List.any_eq_true, decide_eq_true_iff, Nat.div_eq_zero_iff, (by decide : ¬(32 = 0)), false_or]
  unfold Work.codeDelta
  simp only [hj, hr, he, Option.bind_some, Option.map_some, List.zipIdx_singleton, List.foldl_cons, List.foldl_nil, bitsOf_group, bitsOf_zero,
    started, Nat.mul_zero, Nat.zero_add]
  rfl

theorem Work.rebuildPacket_none {w : Work} {q : Fin 8} {k : Pkt} (h : w.rebuildFor q k = none) : w.rebuildPacket q k = w := by
  simp only [Work.rebuildPacket, h]

theorem Work.rebuildPacket_some {w : Work} {q : Fin 8} {k : Pkt} {n : Nat} (h : w.rebuildFor q k = some n) :
    w.rebuildPacket q k = w.updRebuild n fun x =>
      let off := k.addr.toNat % 2 ^ 48
      { x with chunk := x.chunk.writeN off (((x.chunk.readN off k.payload.length).zip k.payload).map fun y => y.1 ^^^ y.2) } := by
  simp only [Work.rebuildPacket, h, bitsOf_zero]

/-- What a survivor with one code entry owes (R422). -/
theorem Work.sendContribution_one {w : Work} {q : Fin 8} {job : BitVec 16} {j : Job} {r : ResilSec} {e : CodeEntry}
    (hj : w.job q job = some j) (hr : j.resil = some r) (he : w.codeEntries q r = [e]) (group dest : BitVec 16) (symbol : Byte)
    (lost : BitVec 32) (chunk : Nat) :
    w.sendContribution q job group dest symbol lost chunk =
      let l := survivorsOf r.codeK r.codeM lost
      let c := (decodeFactors r.codeK r.codeM l symbol.toNat).getD (l.idxOf e.role) 0
      let mine := if e.role < r.codeK then w.shard q j j.buf else w.peek q (if j.buf then e.parity1 else e.parity0) r.shardBytes
      let off := chunk * chunkBytes
      if e.group = group.toNat ∧ e.role ∈ l then
        (rangePackets (((mine.drop off).take chunkBytes).map fun d => BitVec.ofNat 8 (gfMul c d.toNat))).foldl (fun w y =>
          w.sendPkt q (mkPkt dest job 0x0D (BitVec.ofNat 64 (group.toNat * 2 ^ 48 + off + y.1)) y.2) .device 0 none) w
      else w := by
  unfold Work.sendContribution
  simp only [hj, hr, he, Option.bind_some, Option.map_some, List.find?_cons, List.find?_nil]
  by_cases hg : e.group = group.toNat
  · simp only [decide_eq_true hg, List.contains_iff_mem]
    exact if_congr (by simp [hg]) rfl rfl
  · simp only [decide_eq_false hg]
    rw [if_neg fun h => hg h.1]

/-! None of them changes the flows at their destination. -/

namespace Work.KeepsFlows
variable (w : Work)

theorem updSluice (i : Nat) (f : Sluice → Sluice) : w.KeepsFlows (w.updSluice i f) := rfl
theorem updCommit (q : Fin 8) (r : BitVec 16) (f : CommitSt → CommitSt) : w.KeepsFlows (w.updCommit q r f) := rfl
theorem updRebuild (i : Nat) (f : RebuildSlot → RebuildSlot) : w.KeepsFlows (w.updRebuild i f) := rfl

theorem checkCommit (i : Nat) (g : BitVec 16) : w.KeepsFlows (w.checkCommit i g) := by
  refine foldl (fun v e => ?_) _ w
  split
  · exact refl v
  next j _ =>
    have first : v.KeepsFlows (if (v.commit e.1 e.2).firstSignal.isNone then
        v.updCommit e.1 e.2 fun c => { c with firstSignal := some v.frame } else v) := ite _ (updCommit ..) (refl v)
    exact ite _ (ite _ (first.trans (Work.Quiet.decideStep ..).keepsFlows) first) (refl v)

theorem applySluice (i : Nat) (op : SluiceOp) : w.KeepsFlows (w.applySluice i op) := by
  cases op with
  | arm g t => exact updSluice ..
  | signal g n => exact (updSluice ..).trans (checkCommit ..)

theorem codeDelta (q : Fin 8) (k : Pkt) : w.KeepsFlows (w.codeDelta q k) := by
  unfold Work.codeDelta
  split
  · exact refl w
  next j r _ =>
    refine foldl (fun v e => ?_) _ w
    dsimp only
    have start (c : Prop) [Decidable c] (a : Nat) (bs : List Byte) : v.KeepsFlows (if c then (0, v) else v.hbmWrite q a bs .ok).2 :=
      ite_snd _ (refl v) (hbmWrite ..)
    exact ite _ (ite _ ((start ..).trans (hbmWrite ..)) (((start ..).trans (hbmWrite ..)).trans (updCommit ..))) (refl v)

end Work.KeepsFlows

/-- The rebuild slot of a contribution is looked up in the partition by which it comes. -/
theorem Work.Comes.partition {w w1 : Work} {p : Fin 32} {a : RxPkt} {q : Fin 8} (h : w.Comes p a q w1) :
    (w.looped a.pkt).getD (w.port p.val).part = q := by
  obtain ⟨loop, _⟩ | ⟨loop, _, _, part, _⟩ := h
  · rw [loop]; rfl
  · rw [loop]; exact part

/-- Settles O51: each packet comes at E and is dealt with as in O49; what its delivery does at the sluice's home, at the deciding home, at
HOME2, at a parity holder and at a spare is stated above, one lemma for each. -/
theorem sluiceMessageAndDecisionResults : Obligations.SluiceMessageAndDecisionResults := by
  unfold Obligations.SluiceMessageAndDecisionResults
  intro p rx q job slot s w0 k b i g n sl sets ends publish decide_ cs kc
  refine ⟨fun hi hl => ?_, fun group dest symbol lost chunk j r e hj hr he => ?_⟩
  · obtain ⟨w1, h⟩ := hi.atE
    have meets := h.meets
    have loaded : w0.jobLoaded q k.job = true := (meets.jobLoaded q k.job).trans hl
    have kinds {x : Byte} (hk : k.kind = x) : rx.pkt.kind.toNat ∈ [x.toNat] := by rw [show rx.pkt.kind = x from hk]; exact List.mem_singleton_self _
    have done {c : Instr} {x : Byte} {y z : Work} (hk : k.kind = x) (row : exec c s = .next (s.arriveKind p rx .ok [x.toNat]))
        (hd : w0.deliver q p rx.pkt .ok = .accepted y) (kept : w0.KeepsFlows y) (hy : y = z) : ends c z 0 :=
      row.trans (congrArg _ ((h.accepts (kinds hk) kept hd).trans (hy ▸ rfl)))
    have refused {c : Instr} {x : Byte} (hk : k.kind = x) (row : exec c s = .next (s.arriveKind p rx .ok [x.toNat]))
        (hd : w0.deliver q p rx.pkt .ok = .refused w0 0x46) : ends c w0 0x46 :=
      row.trans (congrArg _ (h.refuses (kinds hk) (.refl _) (by decide) hd))
    refine ⟨fun hk hu => ?_, fun hk hu => ?_, fun hk hu q1 job1 => ?_, fun hk hd hr => ?_, fun hk hd j hj => ?_,
      fun j hk hd hr hs hj h2 hc ht => ?_, fun hk hd q1 job1 => ?_, fun hk hf j hj => ?_, fun hk j r e hj hr he => ?_, fun hk => ?_⟩
    · exact refused hk rfl ((Work.deliver_sluice loaded p .ok hk).trans (Work.deliverSluice_undeclared ((meets.declaredIn ..).trans hu)))
    · exact refused hk rfl
        ((Work.deliver_publication loaded p .ok hk).trans (Work.deliverPublication_undeclared ((meets.declaredIn ..).trans hu)))
    · have undeclared : w0.declaredIn q i = false := (meets.declaredIn ..).trans hu
      exact refused hk rfl ((Work.deliver_decision loaded p .ok hk).trans (by rw [undeclared]; rfl))
    · have home := (Work.deliver_sluice loaded p .ok hk).trans
        (Work.deliverSluice_home ((meets.declaredIn ..).trans hd) ((meets.remoteSluice ..).trans hr))
      have at_ {z : Work} (hz : w0.applySluice i (.ofPayload b) = z) : ends (.sluiceSignalMessage p rx) z 0 :=
        done hk rfl home (.applySluice ..) hz
      have signal (hs : leAt b 0 1 ≠ 1) : SluiceOp.ofPayload b = .signal g n := if_neg hs
      have alone (hc : s.w.commitJobs i = []) (hs : leAt b 0 1 ≠ 1) :
          w0.applySluice i (.ofPayload b) = w0.updSluice i fun y => y.signalled g n := by
        rw [signal hs]; exact Work.applySluice_of_no_commit ((meets.commitJobs i).trans hc) _
      have gen : (w0.sluice i).gen = sl.gen := congrArg Sluice.gen (meets.sluice i)
      refine ⟨fun hs => ?_, fun hs hg hc => ?_, fun hs hg hc => ?_, fun j hs hg hc hj hdec => ?_⟩
      · have arm : SluiceOp.ofPayload b = .arm g n := if_pos hs
        exact at_ (by rw [arm]; exact congrArg (w0.updSluice i) (funext fun y => y.armed_eq g n))
      · exact at_ ((alone hc hs).trans (w0.updSluice_congr i (Sluice.signalled_other (by rw [gen]; exact hg) n)))
      · exact at_ ((alone hc hs).trans (w0.updSluice_congr i (Sluice.signalled_same (gen.trans hg) n)))
      · have deciding := Work.applySluice_deciding ((meets.commitJobs i).trans hc) ((meets.job ..).trans hj) ((meets.decides ..).trans hdec)
          (gen.trans hg) n
        rw [meets.commit, meets.sluice] at deciding
        exact at_ ((congrArg (w0.applySluice i) (signal hs)).trans deciding)
    · have pub := (Work.deliver_publication loaded p .ok hk).trans
        (Work.deliverPublication_eq ((meets.declaredIn ..).trans hd) ((meets.job ..).trans hj))
      dsimp only at pub
      rw [meets.commit, meets.sluice, meets.remoteSluice] at pub
      refine done hk rfl pub ?_ rfl
      have state (f : Sluice → Sluice) (c : Prop) [Decidable c] : w0.KeepsFlows (if c then w0.updSluice i f else w0) :=
        .ite _ (.updSluice ..) (.refl _)
      exact .ite _ ((state ..).trans (.updCommit ..)) (state ..)
    · have counted := Work.home2Signal_waits ((meets.job ..).trans hj) ((congrArg CommitSt.takenOver (meets.commit q k.job)).trans ht) g n.toNat
      refine done hk rfl ((Work.deliver_sluice loaded p .ok hk).trans (Work.deliverSluice_home2 ((meets.declaredIn ..).trans hd)
        ((meets.remoteSluice ..).trans hr) hs ((meets.job ..).trans hj) ((meets.isHome2 j).trans h2) hc)) ?_ counted
      rw [counted]; exact .updCommit ..
    · have declared : w0.declaredIn q i = true := (meets.declaredIn ..).trans hd
      exact done hk rfl ((Work.deliver_decision loaded p .ok hk).trans (if_pos declared)) (.updCommit ..) rfl
    · have job0 := (meets.job q k.job).trans hj
      have at_ {z : Work} (hz : w0.abortAtHome q k.job (BitVec.ofNat 64 (leAt b 0 8)) (BitVec.ofNat 8 (leAt b 8 1)) = z) :
          ends (.stepAbort p rx) z 0 :=
        done hk rfl ((Work.deliver_abort loaded p .ok hk).trans (congrArg _ (Work.abortPacket_eq hf))) (Work.Quiet.abortAtHome ..).keepsFlows hz
      refine ⟨fun hm hdec => ?_, fun hm hdec => ?_, fun hm hlt => ?_, fun hm hge => ?_⟩
      · exact at_ ((Work.abortAtHome_mine job0 _ _ ⟨(meets.decides ..).trans hm.1, hm.2⟩).trans
          (Work.decideStep_decided job0 (by rw [meets.commit]; exact hdec) _ _))
      · exact at_ ((Work.abortAtHome_mine job0 _ _ ⟨(meets.decides ..).trans hm.1, hm.2⟩).trans
          (Work.decideStep_eq job0 (by rw [meets.commit]; exact hdec) fun hf => absurd hf Bool.false_ne_true))
      · exact at_ ((Work.abortAtHome_other job0 _ _ (by rw [meets.decides]; exact hm)).trans (if_pos hlt))
      · exact at_ ((Work.abortAtHome_other job0 _ _ (by rw [meets.decides]; exact hm)).trans (if_neg (Nat.not_lt.mpr hge)))
    · have delta := Work.codeDelta_one ((meets.job q k.job).trans hj) hr ((meets.codeEntries q r).trans he)
      unfold Work.parityStart at delta
      rw [meets.commit] at delta
      intro off cur prev role mine y z
      have at_ {v : Work} (hv : w0.codeDelta q rx.pkt = v) : ends (.codeDelta p rx) v 0 :=
        done hk rfl (Work.deliver_codeDelta loaded p .ok hk) (.codeDelta ..) hv
      refine ⟨fun hm hy hz => ?_, fun hm hyz => ?_, fun hm => ?_⟩
      · exact at_ (delta.trans ((if_pos hm).trans (if_neg (not_or.mpr ⟨not_not.mpr hy, not_not.mpr hz⟩))))
      · exact at_ (delta.trans ((if_pos hm).trans (if_pos hyz)))
      · exact at_ (delta.trans (if_neg hm))
    · have slotOf : s.w.rebuildFor ((s.w.looped rx.pkt).getD (s.w.port p.val).part) rx.pkt = s.w.rebuildFor q rx.pkt := by
        rw [h.comes.partition]
      have row (hn : s.w.rebuildFor q rx.pkt = none ∨ s.w.rebuildFor q rx.pkt = some slot.val) :
          exec (.rebuildContribution p (.arrived rx) slot) s = .next (s.arriveKind p rx .ok [0x0D]) := by
        show Host.Outcome.next (s.takeContribution p rx slot) = _
        rw [State.takeContribution, slotOf, if_pos hn]
      have rebuild := Work.deliver_rebuild loaded p .ok hk
      refine ⟨fun hn => ?_, fun hn => ?_⟩
      · have none_ := Work.rebuildPacket_none ((meets.rebuildFor q k).trans hn)
        exact done hk (row (.inl hn)) (rebuild.trans (congrArg _ none_)) (.refl _) rfl
      · have combined := Work.rebuildPacket_some ((meets.rebuildFor q k).trans hn)
        exact done hk (row (.inr hn)) (rebuild.trans (congrArg _ combined)) (.updRebuild ..) rfl
  · have owed := Work.sendContribution_one hj hr he group dest symbol lost chunk
    have at_ {z : Work} (hz : s.w.sendContribution q job group dest symbol lost chunk = z) :
        sets (.rebuildContribution p (.due q job group dest symbol lost chunk) slot) z :=
      show Host.Outcome.next (s.onW fun w => w.sendContribution q job group dest symbol lost chunk) = _ by rw [State.onW, hz]
    refine ⟨fun hg hm => ?_, fun hn => ?_⟩
    · exact at_ (owed.trans (if_pos ⟨hg, hm⟩))
    · exact at_ (owed.trans (if_neg (not_and_or.mpr hn)))

end Sys2Proof.Machine
end

section
/-! What the proofs below share: how an engine's instruction ends, the operands that it has captured, and the vector registers that it leaves
(R82-R85). -/

namespace Sys2Proof.Machine

/-! An engine's instruction that completes in the step that issued it (R82, R84). -/

theorem Work.takes_engaged_start {w : Work} {c : CtxId} (h : w.ready c) {op : KOp} (f : Fields) (hq : op.queue ≠ .C)
    (ha : op.actsAtStart = false) : w.Takes c (w.startInstr c op f) (w.engaged c op f) :=
  ⟨w.engaged_eq c op f, fun _ => w.engaged_ctx_other op f, fun _ => w.engaged_core_other op f, Work.engaged_ctx_engine h op f hq ha,
    (w.engaged_core c op f hq).trans (if_neg hq).symm⟩

/-- An engine's instruction whose effect is done has completed in the step that issued it. -/
theorem completed_of_start {s : State} {c : CtxId} (h : s.w.ready c) {op : KOp} {f : Fields} {ev : MemEvent} {E : Work → Work}
    (hf : (s.w.ctx c).operandFault op f = none) (hq : op.queue ≠ .C) (ha : op.actsAtStart = false)
    (he : ∀ w1, s.w.Takes c (s.w.startInstr c op f) w1 → op.effect w1 c (s.w.startInstr c op f) ev = .done (E w1)) :
    Completed s (.next (s.onW fun w => w.issue c op f (.start ev))) c (s.w.startInstr c op f) E := by
  have taken := Work.takes_engaged_start h f hq ha
  exact ⟨_, taken, by rw [State.onW, Work.engine_done h op f ev hf hq ha _ (he _ taken)]⟩

/-- An engine's instruction that is done at its start has completed in the step that issued it (R84). -/
theorem completed_at_start {s : State} {c : CtxId} (h : s.w.ready c) {op : KOp} {f : Fields} {ev : MemEvent} {E : Work → Work}
    (hf : (s.w.ctx c).operandFault op f = none) (hq : op.queue ≠ .C) (ha : op.actsAtStart = true)
    (he : ∀ w1, s.w.Takes c (s.w.capture c op f) w1 → op.effect w1 c (s.w.capture c op f) ev = .done (E w1)) :
    Completed s (.next (s.onW fun w => w.issue c op f (.start ev))) c (s.w.capture c op f) E := by
  have taken := Work.takes_started_engine h hq f
  exact ⟨_, taken, by rw [State.onW, Work.issue_done h op f ev hf ha _ (he _ taken), if_neg hq]⟩

/-- An engine's instruction that completes in the step that issued it, with the context that its effect leaves (R82, R84). -/
theorem engineDone_of_completed {s : State} {o : Host.Outcome State Fault Refusal} {c : CtxId} {f : Fields} {x : InFlight} {E : Work → Work}
    {k : Ctx} {P : State → Prop} (done : Completed s o c x E) (hf : x.f = f) (hq : x.op.queue ≠ .C) (hk : k.infl = [])
    (hctx : ∀ w1, s.w.Takes c x w1 → (E w1).ctx c = { k with pc := k.pc + 8, dispatchPc := k.pc, busy := true, infl := [x] })
    (hothers : ∀ w1 d, d ≠ c → (E w1).ctx d = w1.ctx d) (hcore : ∀ w1 d, coreKey d ≠ coreKey c → (E w1).core d = w1.core d)
    (hP : ∀ w1, s.w.Takes c x w1 → P { s with w := (E w1).retire c x x.flag }) : EngineDone s o c f k P := by
  obtain ⟨w1, t, ho⟩ := done
  obtain ⟨-, ctxs, cores, -, -⟩ := id t
  subst hf
  refine ⟨_, ho, ⟨rfl, rfl, fun d hd => ?_, fun d hd => ?_⟩, Work.retire_ran hq hk (hctx w1 t), hP w1 t⟩
  · rw [Work.retire_ctx_other _ _ _ hd, hothers w1 d hd, ctxs d hd]
  · rw [Work.core_retire, hcore w1 d hd, cores d hd]

theorem EngineDone.imp {s : State} {o : Host.Outcome State Fault Refusal} {c : CtxId} {f : Fields} {k : Ctx} {P Q : State → Prop}
    (h : EngineDone s o c f k P) (hPQ : ∀ t, P t → Q t) : EngineDone s o c f k Q := by
  obtain ⟨t, ho, elsewhere, ran, hP⟩ := h
  exact ⟨t, ho, elsewhere, ran, hPQ t hP⟩

/-! The operands that it has captured (R85, R108). -/

theorem Work.capture_vd_of {w : Work} {c : CtxId} {op : KOp} {f : Fields} (hf : (w.ctx c).operandFault op f = none)
    (hacc : (op.accepts f).1 = [0]) : (w.capture c op f).vd = (w.ctx c).getS (fieldNum f.d) := by
  obtain ⟨hd, -, -⟩ := Ctx.fieldFaults_of_operandFault hf
  rw [hacc] at hd
  exact w.capture_vd_scalar c op (by simpa using Ctx.class_of_fieldFault hd (by simp))

theorem Work.capture_va_of {w : Work} {c : CtxId} {op : KOp} {f : Fields} (hf : (w.ctx c).operandFault op f = none)
    (hacc : (op.accepts f).2.1 = [0]) : (w.capture c op f).va = (w.ctx c).getS (fieldNum f.a) := by
  obtain ⟨-, ha, -⟩ := Ctx.fieldFaults_of_operandFault hf
  rw [hacc] at ha
  exact w.capture_va_scalar c op (by simpa using Ctx.class_of_fieldFault ha (by simp))

theorem Work.capture_vb_of {w : Work} {c : CtxId} {op : KOp} {f : Fields} (hf : (w.ctx c).operandFault op f = none)
    (hacc : (op.accepts f).2.2 = [0]) : (w.capture c op f).vb = (w.ctx c).getS (fieldNum f.b) := by
  obtain ⟨-, -, hb⟩ := Ctx.fieldFaults_of_operandFault hf
  rw [hacc] at hb
  exact w.capture_vb_scalar c op (by simpa using Ctx.class_of_fieldFault hb (by simp))

/-! The vector registers that it finds and leaves. -/

/-- The lanes of a vector register as an instruction finds them. -/
theorem Work.Takes.vreg {w w1 : Work} {c : CtxId} {x : InFlight} (t : w.Takes c x w1) (i : Nat) : w1.vreg c i = w.vreg c i := by
  unfold Work.vreg; rw [t.core]

/-- The core whose vector engine has taken an instruction (R83). -/
theorem Work.Takes.core_vector {w w1 : Work} {c : CtxId} {x : InFlight} (t : w.Takes c x w1) (hq : x.op.queue = .V)
    (hp : x.op.isProduct = false) : w1.core c = (w.core c).took c .V := by
  obtain ⟨-, -, -, -, hc⟩ := t
  rw [hc, if_neg (by rw [hq]; decide), Core.tookOp, hp, hq]
  rfl

/-- What a vector instruction has left once it has written vD alone. -/
theorem Work.Takes.setVreg_done {s : State} {w1 : Work} {c : CtxId} {x : InFlight} (t : s.w.Takes c x w1) (hq : x.op.queue = .V)
    (hp : x.op.isProduct = false) (d : Nat) (v : BitVec 4096) :
    let u : State := { s with w := (w1.setVreg c d v).retire c x x.flag }
    CoreOnly s u c { (s.w.core c).took c .V with vregs := (u.w.core c).vregs } ∧ u.w.vreg c d = v ∧ ∀ r, r ≠ d → u.w.vreg c r = s.w.vreg c r := by
  intro u
  have core : u.w.core c = { (s.w.core c).took c .V with vregs := (s.w.core c).vregs.set 0 d v } := by
    show (w1.setVreg c d v).core c = _
    rw [Work.core_setVreg, t.core_vector hq hp]
    rfl
  have vreg (r : Nat) : u.w.vreg c r = if r = d then v else s.w.vreg c r := by
    rw [Work.vreg, core]
    exact Tbl.get_set ..
  refine ⟨⟨?_, by rw [core]⟩, (vreg d).trans (if_pos rfl), fun r hr => (vreg r).trans (if_neg hr)⟩
  rw [show u.w = (w1.setVreg c d v).retire c x x.flag from rfl, Work.retire_eq, t.1]
  rfl

/-! Lists of lanes and signed bytes. -/

/-- The lanes of a register with their places. -/
theorem zipIdx_map_range {α : Type} (g : Nat → α) (n : Nat) : ((List.range n).map g).zipIdx = (List.range n).map fun i => (g i, i) := by
  apply List.ext_getElem <;> simp

/-- A signed byte of a field. -/
theorem byteInt_eq {n : Nat} (v : BitVec n) (lo : Nat) : byteInt v.toNat lo = (v.extractLsb' lo 8).toInt := by
  have same : BitVec.ofNat 8 (bitsOf v.toNat lo 8) = v.extractLsb' lo 8 := by
    apply BitVec.eq_of_toNat_eq
    simp [bitsOf, BitVec.extractLsb'_toNat, Nat.shiftRight_eq_div_pow]
  rw [byteInt, same]

end Sys2Proof.Machine
end

section
/-! O60: instruction words (R107, R110). -/

namespace Sys2Proof.Machine

theorem KOp.ofOpcode_opcode (o : KOp) : KOp.ofOpcode o.opcode = some o := by cases o <;> rfl

theorem KOp.opcode_of_ofOpcode {b : Byte} {o : KOp} (h : KOp.ofOpcode b = some o) : o.opcode = b := by
  simpa using List.find?_some h

/-- The fields of a word are read back from it. -/
theorem wordFields_instrWord (op : Byte) (f : Fields) : wordFields (instrWord op f) = (op, f) := by
  obtain ⟨d, a, b, mod, imm⟩ := f
  simp only [wordFields, instrWord, Prod.mk.injEq, Fields.mk.injEq]
  refine ⟨?_, ?_, ?_, ?_, ?_, ?_⟩ <;> refine BitVec.eq_of_getLsbD_eq fun i hi => ?_ <;>
    simp only [BitVec.getLsbD_extractLsb', BitVec.getLsbD_append] <;> grind

/-- A word is made of its fields. -/
theorem instrWord_wordFields (v : Word) : instrWord (wordFields v).1 (wordFields v).2 = v := by
  refine BitVec.eq_of_getLsbD_eq fun i hi => ?_
  simp only [instrWord, wordFields, BitVec.getLsbD_append, BitVec.getLsbD_extractLsb']
  grind

/-- Settles O60: a word is the same as its fields, and an assigned opcode byte the same as its operation. -/
theorem instructionWordsRoundTrip : Obligations.InstructionWordsRoundTrip := by
  refine ⟨fun o f => ?_, fun v o f h => ?_⟩
  · rw [decodeWord, wordFields_instrWord, KOp.ofOpcode_opcode]
    rfl
  · obtain ⟨_, ho, he⟩ := Option.map_eq_some_iff.1 h
    obtain ⟨rfl, rfl⟩ := Prod.mk.inj he
    rw [KOp.opcode_of_ofOpcode ho, instrWord_wordFields]

end Sys2Proof.Machine
end

section
/-! O4, O5: `nop`, `s.sys`, branches and jumps (R84, R117, R119). -/

namespace Sys2Proof.Machine

/-- The context of a ready context's instruction that holds nothing and sets no generator, once it is dispatched (R84, R117). -/
theorem Work.ready.dispatched_free {w : Work} {c : CtxId} (h : w.ready c) {op : KOp} (hop : op ∉ [KOp.slWait, .lfWait, .frameEnd, .rngSet])
    (f : Fields) :
    (w.ctx c).dispatched (w.capture c op f) =
      { w.ctx c with pc := nextPc op f (w.ctx c).pc (w.capture c op f).va (w.capture c op f).vb, dispatchPc := (w.ctx c).pc, busy := true,
                     infl := [w.capture c op f] } := by
  rw [Ctx.dispatched_plain _ _ hop, Work.capture_op, Work.capture_f, Work.ready_infl h]
  rfl

/-- One without an effect of its own has moved the PC. -/
theorem ctxDone_of_dispatch {s : State} {c : CtxId} (h : s.w.ready c) {op : KOp} {f : Fields} {ev : MemEvent}
    (hf : (s.w.ctx c).operandFault op f = none) (hq : op.queue = .C) (hop : op ∉ [KOp.slWait, .lfWait, .frameEnd, .rngSet])
    (he : op.effect (s.w.started c op f) c (s.w.capture c op f) ev = .done (s.w.started c op f)) :
    CtxDone s (.next (s.onW fun w => w.issue c op f (.start ev))) c (s.w.ctx c)
      (nextPc op f (s.w.ctx c).pc (s.w.capture c op f).va (s.w.capture c op f).vb) := by
  refine ctxDone_of h op f ev hf hq _ he rfl (fun _ _ => rfl) _ _ ?_
  rw [Work.started_ctx, h.dispatched_free hop]
  simp [Work.ready_infl h]

/-- One that leaves the link in sD has moved the PC. -/
theorem ctxDone_of_link {s : State} {c : CtxId} (h : s.w.ready c) {op : KOp} {f : Fields} {ev : MemEvent} {v : Word}
    (hf : (s.w.ctx c).operandFault op f = none) (hq : op.queue = .C) (hop : op ∉ [KOp.slWait, .lfWait, .frameEnd, .rngSet])
    (he : op.effect (s.w.started c op f) c (s.w.capture c op f) ev = putS (s.w.started c op f) c (s.w.capture c op f) v) :
    CtxDone s (.next (s.onW fun w => w.issue c op f (.start ev))) c ((s.w.ctx c).setS (fieldNum f.d) v)
      (nextPc op f (s.w.ctx c).pc (s.w.capture c op f).va (s.w.capture c op f).vb) := by
  refine ctxDone_of_updCtx h (fun k => k.setS (fieldNum f.d) v) hf hq he ?_
  rw [h.dispatched_free hop]
  unfold Ctx.setS
  split <;> simp [Work.ready_infl h]

/-! `s.sys` (R119). -/

/-- The state in which an instruction starts has the time and the slices of its dispatch. -/
theorem Work.started_time (w : Work) (c : CtxId) (op : KOp) (f : Fields) : (w.started c op f).time = w.time :=
  (congrArg Work.time (w.started_eq c op f)).trans rfl

theorem Work.started_slice (w : Work) (c : CtxId) (op : KOp) (f : Fields) (n : Nat) : (w.started c op f).slice n = w.slice n :=
  (congrArg (fun v : Work => v.slice n) (w.started_eq c op f)).trans rfl

/-- Its dispatch changes no system value. -/
theorem Work.sysValue_started {w : Work} {c : CtxId} (h : w.ready c) (f : Fields) (n : Nat) :
    (w.started c .sSys f).sysValue c n = w.sysValue c n := by
  unfold Work.sysValue Work.lateness Work.frame Work.presentCores
  simp only [Work.started_time, Work.started_slice, Work.started_ctx, h.dispatched_free (op := .sSys) (by decide)]
  rfl

/-- A context that runs and is not held is late from its closing tick on (R25). -/
theorem Work.lateness_ready {w : Work} {c : CtxId} (h : w.ready c) :
    w.lateness c = w.time.ftime.toNat - ((w.ctx c).segment + 1) * w.time.periodNs := by
  obtain ⟨running, free, -⟩ := h
  exact if_pos ⟨.inl running, by rw [free]; decide⟩

/-- The context whose LANE_SAT selector 9 has read (R119). -/
def Ctx.sysRead (k : Ctx) (sel : Nat) : Ctx := { k with laneSat := if sel = 9 then false else k.laneSat }

/-- Clearing LANE_SAT changes the context alone. -/
theorem Work.sysRead_eq (w : Work) (c : CtxId) (sel : Nat) :
    let w1 := if sel = 9 then w.updCtx c fun k => { k with laneSat := false } else w
    w1 = { w with ctxs := w1.ctxs } ∧ (∀ e, e ≠ c → w1.ctx e = w.ctx e) ∧ w1.ctx c = (w.ctx c).sysRead sel := by
  unfold Ctx.sysRead
  split
  · exact ⟨rfl, fun e he => Work.ctx_updCtx_other _ _ he, Work.ctx_updCtx_same ..⟩
  · exact ⟨rfl, fun _ _ => rfl, rfl⟩

/-- Settles O4: no dispatch changes a system value, and the read of LANE_SAT is the one that changes the context besides sD. -/
theorem systemValueResults : Obligations.SystemValueResults := by
  intro c f ev s hr k t p n pe v
  have value : s.w.sysValue c n = v := by
    have late := Work.lateness_ready hr
    simp only [v]
    unfold Work.sysValue
    match n with
    | 3 => exact late
    | 0 | 1 | 2 | 4 | 5 | 6 | 8 | 10 | _ + 11 => rfl
    | 7 | 9 => exact Bool.cond_eq_ite ..
  refine ⟨ctxDone_of_dispatch hr rfl rfl (by decide) rfl, fun hd => ?_⟩
  have fields : k.operandFault .sSys f = none := Ctx.operandFault_eq_none (k.fieldFault_scalar hd) rfl rfl
  obtain ⟨frame, others, own⟩ := (s.w.started c .sSys f).sysRead_eq c n
  have effect : KOp.sSys.effect (s.w.started c .sSys f) c (s.w.capture c .sSys f) ev =
      .done ((if n = 9 then (s.w.started c .sSys f).updCtx c fun k => { k with laneSat := false } else s.w.started c .sSys f).setSreg c
        (fieldNum f.d) (BitVec.ofNat 64 v)) := by
    rw [← value, ← Work.sysValue_started hr f n]
    rfl
  refine ctxDone_of hr .sSys f ev fields rfl _ effect ?_ (fun e he => ?_) _ _ ?_
  · rw [Work.setSreg, frame]
    rfl
  · rw [Work.setSreg, Work.ctx_updCtx_other _ _ he, others e he]
  · rw [Work.setSreg, Work.ctx_updCtx_same, own, Work.started_ctx, hr.dispatched_free (op := .sSys) (by decide)]
    unfold Ctx.setS Ctx.sysRead
    split <;> simp [k, Work.ready_infl hr, nextPc]

/-! Branches and jumps (R117). -/

theorem branchTarget_eq (pc : Nat) (f : Fields) : branchTarget pc f = (BitVec.ofNat 64 pc + 8 * f.imm.signExtend 64).toNat := by
  rw [branchTarget, immS, BitVec.mul_comm]

/-- Settles O5: a branch without a link is done once it is dispatched, and the others write sD alone. -/
theorem branchResults : Obligations.BranchResults := by
  intro c f ev s hr k a b link target goes
  have there : branchTarget k.pc f = target := branchTarget_eq ..
  refine ⟨fun hd => ?br, fun hd ha => ?jr, fun ha hb => ?branches⟩
  case br =>
    have linked := ctxDone_of_link (op := .br) (ev := ev) hr (Ctx.operandFault_eq_none (k.fieldFault_scalar hd) rfl rfl) rfl (by decide) rfl
    rw [← there]
    exact linked
  case jr =>
    have linked := ctxDone_of_link (op := .jr) (ev := ev) hr
      (Ctx.operandFault_eq_none (k.fieldFault_scalar hd) (k.fieldFault_scalar ha) rfl) rfl (by decide) rfl
    rw [nextPc, s.w.capture_va_scalar c .jr ha] at linked
    exact linked
  case branches =>
    have goesBy (op : KOp) (i : Instr) (taken : Prop) [Decidable taken]
        (hi : exec i s = .next (s.onW fun w => w.issue c op f (.start ev))) (hq : op.queue = .C)
        (hop : op ∉ [KOp.slWait, .lfWait, .frameEnd, .rngSet]) (hacc : op.accepts f = ([], [0], [0])) (he : ∀ w x, op.effect w c x ev = .done w)
        (hpc : nextPc op f k.pc a b = if taken then branchTarget k.pc f else k.pc + 8) : goes i taken := by
      intro p yes no
      have fields : k.operandFault op f = none := by
        apply Ctx.operandFault_eq_none <;> rw [hacc]
        exacts [rfl, k.fieldFault_scalar ha, k.fieldFault_scalar hb]
      have done := ctxDone_of_dispatch (ev := ev) hr fields hq hop (he _ _)
      rw [s.w.capture_va_scalar c op ha, s.w.capture_vb_scalar c op hb, ← hi] at done
      have at_ : p = nextPc op f k.pc a b := by
        rw [hpc, there]
        split
        next h => exact yes h
        next h => exact no h
      exact at_ ▸ done
    refine ⟨goesBy .beq _ (a = b) rfl rfl (by decide) rfl (fun _ _ => rfl) rfl, goesBy .bne _ (a ≠ b) rfl rfl (by decide) rfl (fun _ _ => rfl) rfl,
      goesBy .blt _ (a.toInt < b.toInt) rfl rfl (by decide) rfl (fun _ _ => rfl) ?_,
      goesBy .bge _ (b.toInt ≤ a.toInt) rfl rfl (by decide) rfl (fun _ _ => rfl) ?_,
      goesBy .bltu _ (a.toNat < b.toNat) rfl rfl (by decide) rfl (fun _ _ => rfl) ?_⟩
    · simp [nextPc, BitVec.slt]
    · simp only [nextPc, BitVec.slt_iff_toInt_lt]; grind
    · simp [nextPc, BitVec.ult]

end Sys2Proof.Machine
end

section
/-! O6: the arithmetic of the vector group (R127, R128). -/

namespace Sys2Proof.Machine

/-- A result of the vector group fits its lane. -/
theorem out_lt_laneW (f : Fields) (v : Option Int) : ((laneW f).out v).1 < 2 ^ (laneW f).bits := (laneW f).out_lt (laneW_bits f).1 v

theorem lift2_lt (f : Fields) (h : Int → Int → Int) (a b : Nat) : (lift2 h (laneW f) a b).1 < 2 ^ (laneW f).bits := by
  unfold lift2
  split <;> exact out_lt_laneW f _

/-- A function of one lane's value, NaR propagated. -/
theorem LaneW.out_map (l : LaneW) (h : Int → Int) (v : Option Int) :
    l.out (v.map h) = match v with
      | some x => l.out (some (h x))
      | none => l.out none := by
  cases v <;> rfl

/-- Settles O6: each instruction computes its lanes one by one. -/
theorem vectorArithmeticResults : Obligations.VectorArithmeticResults := by
  intro c f ev s hr l a b one two rnd count done
  have lifts (op : KOp) (i : Instr) (h : Int → Int → Int) (hi : exec i s = .next (s.onW fun w => w.issue c op f (.start ev)))
      (hq : op.queue = .V) (hs : op.actsAtStart = false) (hacc : (op.accepts f).2.2 = [0, 1])
      (he : ∀ w, op.effect w c (s.w.capture c op f).start ev = elementwise2 w c (s.w.capture c op f).start (lift2 h)) : done op i (two h) := by
    intro hf
    rw [hi]
    exact elementwise2_done hr op f ev hf hq hs (class_of_fault hf hacc) (lift2 h) _ (fun _ _ => rfl) (fun _ _ => lift2_lt f h _ _) (he _)
  have one_lt (h : Nat → Int → Int) (i : Nat) : (one h i).1 < 2 ^ l.bits := by
    simp only [one]
    split <;> exact out_lt_laneW f _
  have maps (op : KOp) (i : Instr) (h : Int → Int) (hi : exec i s = .next (s.onW fun w => w.issue c op f (.start ev)))
      (hq : op.queue = .V) (hs : op.actsAtStart = false)
      (he : ∀ w, op.effect w c (s.w.capture c op f).start ev =
        elementwise1 w c (s.w.capture c op f).start fun l x => l.out ((l.val x).map h)) : done op i (one fun _ => h) := by
    intro hf
    rw [hi]
    exact elementwise1_done hr op f ev hf hq hs (fun l x => l.out ((l.val x).map h)) _ (fun _ _ => LaneW.out_map ..)
      (fun i _ => one_lt (fun _ => h) i) (he _)
  have shifts (op : KOp) (i : Instr) (h : Nat → Int → Int) (hi : exec i s = .next (s.onW fun w => w.issue c op f (.start ev)))
      (hq : op.queue = .V) (hs : op.actsAtStart = false) (hacc : (op.accepts f).2.2 = [0, 1])
      (he : ∀ w, op.effect w c (s.w.capture c op f).start ev =
        elementwise2 w c (s.w.capture c op f).start fun l x n => l.out ((l.val x).map (h (n % l.bits)))) : done op i (one fun i => h (count i)) := by
    intro hf
    rw [hi]
    exact elementwise2_done hr op f ev hf hq hs (class_of_fault hf hacc) (fun l x n => l.out ((l.val x).map (h (n % l.bits)))) _
      (fun _ _ => LaneW.out_map ..) (fun i _ => one_lt (fun i => h (count i)) i) (he _)
  have magnitude : (fun x : Int => (x.natAbs : Int)) = abs := funext Int.natCast_natAbs
  exact ⟨lifts .vadd _ _ rfl rfl rfl rfl fun _ => rfl, lifts .vsub _ _ rfl rfl rfl rfl fun _ => rfl, lifts .vmul _ _ rfl rfl rfl rfl fun _ => rfl,
    lifts .vmulsh _ _ rfl rfl rfl rfl fun _ => rfl, maps .vabs _ _ rfl rfl rfl fun _ => by rw [← magnitude]; rfl,
    maps .vneg _ _ rfl rfl rfl fun _ => rfl, shifts .vshl _ (fun n x => x * 2 ^ n) rfl rfl rfl rfl fun _ => rfl,
    shifts .vsra _ (fun n x => roundShift x n rnd) rfl rfl rfl rfl fun _ => rfl⟩

end Sys2Proof.Machine
end

section
/-! O7: maximum, minimum, comparison, selection and moves of the vector group (R111, R127-R129). -/

namespace Sys2Proof.Machine

/-! Maximum, minimum and comparisons (R128, R129). -/

theorem pick_lt (min narWins : Bool) (f : Fields) (a b : Nat) : (pick min narWins (laneW f) a b).1 < 2 ^ (laneW f).bits := by
  unfold pick
  split
  next => exact out_lt_laneW f _
  next => split <;> exact out_lt_laneW f _
  next => split <;> exact out_lt_laneW f _
  next => exact out_lt_laneW f none

/-- The larger and the smaller of two values as `pick` finds them. -/
theorem ite_lt_eq_max (x y : Int) : (if x < y then y else x) = max x y := by
  rw [Int.max_def]; split <;> split <;> omega

theorem ite_lt_eq_min (x y : Int) : (if y < x then y else x) = min x y := by
  rw [Int.min_def]; split <;> split <;> omega

/-- An element-wise instruction that does not look at operand B. -/
theorem elementwise2_of_left (w : Work) (c : CtxId) (x : InFlight) {g : LaneW → Nat → Nat → Nat × Bool} {g' : LaneW → Nat → Nat × Bool}
    (h : ∀ a b, g (laneW x.f) a b = g' (laneW x.f) a) : elementwise2 w c x g = elementwise1 w c x g' := by
  have lengths : ((laneW x.f).lanes (w.vreg c (fieldNum x.f.a))).length ≤ (w.lanesB c x (laneW x.f)).length := by
    unfold Work.lanesB LaneW.lanes
    split <;> simp
  unfold elementwise2 elementwise1
  simp only [h]
  congr 1
  conv_rhs => rw [← List.map_fst_zip lengths, List.map_map]
  rfl

/-! Lanes moved between registers (R127, R128). -/

theorem LaneW.getD_lanes (l : LaneW) (v : BitVec 4096) {i : Nat} (h : i < l.count) : (l.lanes v).getD i 0 = laneAt l v i := by
  rw [LaneW.lanes_eq, List.getD_eq_getElem _ _ (by simpa using h)]
  simp

/-- The low bits of a scalar operand as a lane. -/
theorem mod_lt_laneW (f : Fields) (n : Nat) : n % 2 ^ (laneW f).bits < 2 ^ (laneW f).bits := Nat.mod_lt _ (Nat.two_pow_pos _)

theorem laneW_count_pos (f : Fields) : 0 < (laneW f).count := by
  unfold laneW
  split <;> decide

/-- A lane widened to a scalar (R128). -/
theorem lane_extended {n v : Nat} (hn : 1 ≤ n) (hv : v < 2 ^ n) (uns : Bool) :
    BitVec.ofInt 64 (if uns || decide (v < 2 ^ (n - 1)) then (v : Int) else (v : Int) - 2 ^ n) =
      if uns then (BitVec.ofNat n v).setWidth 64 else (BitVec.ofNat n v).signExtend 64 := by
  have value : (BitVec.ofNat n v).toNat = v := by rw [BitVec.toNat_ofNat, Nat.mod_eq_of_lt hv]
  have double : 2 ^ n = 2 * 2 ^ (n - 1) := by rw [← Nat.pow_succ']; congr 1; omega
  cases uns with
  | true =>
    apply BitVec.eq_of_toNat_eq
    simp [Nat.mod_eq_of_lt hv]
  | false =>
    rw [if_neg Bool.false_ne_true, BitVec.signExtend, BitVec.toInt_eq_toNat_cond, value]
    have positive : v < 2 ^ (n - 1) ↔ 2 * v < 2 ^ n := by omega
    simp only [Bool.false_or, decide_eq_true_eq, positive]
    push_cast
    rfl

/-- The range of an aligned vector load or store within its window (R111, R128). -/
theorem vSpan_of_fits {w : Work} {c : CtxId} {h : Word} {f : Fields} {o : Nat} (ho : (o : Int) = (h.toNat % 2 ^ 24 : Nat) + 64 * f.imm.toInt)
    (ha : h.toNat % 64 = 0) (hfit : o + 512 ≤ winSize w c (h.getLsbD 63)) :
    (w.ctx c).vSpan h f = .ok (w.winSpan c (h.getLsbD 63) o) := by
  have mant : hMant h = h.toNat % 2 ^ 24 := by rw [hMant, bitsOf, Nat.pow_zero, Nat.div_one]
  have off : vOff h f = o := by rw [vOff, mant, ho]; rfl
  have aligned : ¬hMant h % 64 ≠ 0 := by rw [mant]; omega
  unfold Ctx.vSpan
  simp only [off, if_neg aligned, Int.natCast_nonneg, not_lt_of_ge, if_false, Int.toNat_natCast, hSpace, Work.span_of_fits hfit]
  unfold Work.winSpan
  cases h.getLsbD 63 <;> rfl

/-- A vector of the bytes of a range. -/
theorem extractLsb'_vOfBytes (bs : List Byte) {i : Nat} (hi : i < 512) : (vOfBytes bs).extractLsb' (8 * i) 8 = bs.getD i 0 := by
  rw [vOfBytes, extractLsb'_leNat _ (by omega)]
  simp [List.getD_eq_getElem?_getD, hi]

theorem vBytes_getD (v : BitVec 4096) {i : Nat} (hi : i < 512) : (vBytes v).getD i 0 = v.extractLsb' (8 * i) 8 := by
  rw [vBytes, List.getD_eq_getElem _ _ (by simpa using hi)]
  simp

theorem Work.Takes.vSpan {w w1 : Work} {c : CtxId} {x : InFlight} (t : w.Takes c x w1) (h : Word) (f : Fields) :
    (w1.ctx c).vSpan h f = (w.ctx c).vSpan h f := by
  unfold Ctx.vSpan Ctx.span
  rw [t.decl]

/-! Instructions that write vD's lanes from other than two operands. -/

theorem effVsel_lanes {s : State} {c : CtxId} {f : Fields} (hb : fieldClass f.b = 0 ∨ fieldClass f.b = 1) :
    effVsel (s.w.engaged c .vsel f) c (s.w.capture c .vsel f).start =
      putLanes (s.w.engaged c .vsel f) c (s.w.capture c .vsel f).start (laneW f) ((List.range (laneW f).count).map fun i =>
        (if laneAt (laneW f) (s.w.vreg c (fieldNum f.d)) i ≠ 0 then laneAt (laneW f) (s.w.vreg c (fieldNum f.a)) i else laneB s c f i, false)) := by
  have field : (s.w.capture c .vsel f).start.f = f := rfl
  unfold effVsel
  simp only [field, lanesB_eq (s := s) (c := c) .vsel f (by decide) hb, Work.engaged_vreg s.w c .vsel f (by decide), LaneW.lanes_eq,
    List.zip_map', List.map_map]
  rfl

theorem effVins_lanes {w w1 : Work} {c : CtxId} {f : Fields} (t : w.Takes c (w.capture c .vins f).start w1)
    (hf : (w.ctx c).operandFault .vins f = none) :
    effVins w1 c (w.capture c .vins f).start =
      putLanes w1 c (w.capture c .vins f).start (laneW f) ((List.range (laneW f).count).map fun i =>
        (if i = f.imm.toNat % (laneW f).count then ((w.ctx c).getS (fieldNum f.a)).toNat % 2 ^ (laneW f).bits
          else laneAt (laneW f) (w.vreg c (fieldNum f.d)) i, false)) := by
  have field : (w.capture c .vins f).start.f = f := rfl
  have value : (w.capture c .vins f).start.va = (w.ctx c).getS (fieldNum f.a) := Work.capture_va_of hf rfl
  unfold effVins
  simp only [field, value, t.vreg, LaneW.lanes_eq, zipIdx_map_range, List.map_map]
  rfl

theorem effVbcast_lanes {w : Work} {c : CtxId} {f : Fields} (hf : (w.ctx c).operandFault .vbcast f = none) (w1 : Work) :
    effVbcast w1 c (w.capture c .vbcast f).start =
      putLanes w1 c (w.capture c .vbcast f).start (laneW f) ((List.range (laneW f).count).map fun _ =>
        (((w.ctx c).getS (fieldNum f.a)).toNat % 2 ^ (laneW f).bits, false)) := by
  have field : (w.capture c .vbcast f).start.f = f := rfl
  have value : (w.capture c .vbcast f).start.va = (w.ctx c).getS (fieldNum f.a) := Work.capture_va_of hf rfl
  unfold effVbcast
  simp only [field, value, List.map_const', List.length_range]

theorem effVext_scalar {w w1 : Work} {c : CtxId} {f : Fields} (t : w.Takes c (w.capture c .vext f).start w1) :
    let l := laneW f
    let x := BitVec.ofNat l.bits (laneAt l (w.vreg c (fieldNum f.a)) (f.imm.toNat % l.count))
    effVext w1 c (w.capture c .vext f).start =
      .done (w1.setSreg c (fieldNum f.d) (if l.uns then x.setWidth 64 else x.signExtend 64)) := by
  intro l x
  have field : (w.capture c .vext f).start.f = f := rfl
  have lane := l.getD_lanes (w.vreg c (fieldNum f.a)) (Nat.mod_lt f.imm.toNat (laneW_count_pos f))
  obtain ⟨bits, -⟩ := laneW_bits f
  unfold effVext
  simp only [field, t.vreg]
  rw [lane, lane_extended bits (laneAt_lt ..)]

/-- Dispatch and a write of a scalar register touch different parts of the context. -/
theorem Ctx.setS_dispatched (k : Ctx) (i : Nat) (v : Word) (x : InFlight) :
    ({ k with pc := k.pc + 8, dispatchPc := k.pc, busy := true, infl := [x] } : Ctx).setS i v =
      { k.setS i v with pc := (k.setS i v).pc + 8, dispatchPc := (k.setS i v).pc, busy := true, infl := [x] } := by
  unfold Ctx.setS
  split <;> rfl

/-- Past its own conditions, `vcmp` does not look at operand B (R129). -/
theorem cmpHolds_of_six_le {cond : Nat} (h : 6 ≤ cond) (hlt : cond < 8) (a b : Option Int) : cmpHolds cond a b = cmpHolds cond a none := by
  interval_cases cond <;> rfl

/-! What each instruction has done. -/

section

variable {s : State} {c : CtxId} {f : Fields} (hr : s.w.ready c) (ev : MemEvent)
include hr

theorem vcmp_done (hf : (s.w.ctx c).operandFault .vcmp f = none) :
    VecDone s (exec (.vcmp c f (.start ev)) s) c f (laneW f) fun i =>
      (if cmpHolds (f.mod.toNat / 4 % 8) ((laneW f).val (laneAt (laneW f) (s.w.vreg c (fieldNum f.a)) i)) ((laneW f).val (laneB s c f i)) then
        2 ^ (laneW f).bits - 1 else 0, false) := by
  have cond_lt : f.mod.toNat / 4 % 8 < 8 := Nat.mod_lt _ (by decide)
  have fits (h : Prop) [Decidable h] : (if h then 2 ^ (laneW f).bits - 1 else 0) < 2 ^ (laneW f).bits := by
    have := Nat.two_pow_pos (laneW f).bits
    split <;> omega
  by_cases hc : f.mod.toNat / 4 % 8 < 6
  · exact elementwise2_done hr .vcmp f ev hf rfl rfl (class_of_fault hf (if_pos hc))
      (fun l x y => (if cmpHolds (f.mod.toNat / 4 % 8) (l.val x) (l.val y) then 2 ^ l.bits - 1 else 0, false)) _ (fun _ _ => rfl) (fun _ _ => fits _)
      rfl
  · have alone := cmpHolds_of_six_le (Nat.le_of_not_lt hc) cond_lt
    refine elementwise1_done hr .vcmp f ev hf rfl rfl
      (fun l x => (if cmpHolds (f.mod.toNat / 4 % 8) (l.val x) none then 2 ^ l.bits - 1 else 0, false)) _ (fun i _ => ?_) (fun _ _ => fits _) ?_
    · rw [alone _ ((laneW f).val _)]
    · exact elementwise2_of_left (g := fun l x y => (if cmpHolds (f.mod.toNat / 4 % 8) (l.val x) (l.val y) then 2 ^ l.bits - 1 else 0, false)) _ _ _
        fun x y => by rw [alone]

theorem vsel_done (hf : (s.w.ctx c).operandFault .vsel f = none) :
    VecDone s (exec (.vsel c f (.start ev)) s) c f (laneW f) fun i =>
      (if laneAt (laneW f) (s.w.vreg c (fieldNum f.d)) i ≠ 0 then laneAt (laneW f) (s.w.vreg c (fieldNum f.a)) i else laneB s c f i, false) := by
  refine vecDone_of hr .vsel f ev hf rfl rfl _ (laneW_bits f).2 _ (fun i _ => ?_) (effVsel_lanes (class_of_fault hf rfl))
  dsimp only
  split
  · exact laneAt_lt ..
  · exact laneB_lt ..

theorem vbcast_done (hf : (s.w.ctx c).operandFault .vbcast f = none) :
    VecDone s (exec (.vbcast c f (.start ev)) s) c f (laneW f) fun _ =>
      (((s.w.ctx c).getS (fieldNum f.a)).toNat % 2 ^ (laneW f).bits, false) :=
  vecDone_of hr .vbcast f ev hf rfl rfl _ (laneW_bits f).2 _ (fun _ _ => mod_lt_laneW f _) (effVbcast_lanes hf _)

theorem vins_done (hf : (s.w.ctx c).operandFault .vins f = none) :
    VecDone s (exec (.vins c f (.start ev)) s) c f (laneW f) fun i =>
      (if i = f.imm.toNat % (laneW f).count then ((s.w.ctx c).getS (fieldNum f.a)).toNat % 2 ^ (laneW f).bits
        else laneAt (laneW f) (s.w.vreg c (fieldNum f.d)) i, false) := by
  refine vecDone_of hr .vins f ev hf rfl rfl _ (laneW_bits f).2 _ (fun i _ => ?_)
    (effVins_lanes (Work.takes_engaged hr f (by decide) (by decide) (by decide)) hf)
  dsimp only
  split
  · exact mod_lt_laneW f _
  · exact laneAt_lt ..

/-- `vext` writes a scalar register alone. -/
theorem vext_done (hf : (s.w.ctx c).operandFault .vext f = none) :
    let x := BitVec.ofNat (laneW f).bits (laneAt (laneW f) (s.w.vreg c (fieldNum f.a)) (f.imm.toNat % (laneW f).count))
    EngineDone s (exec (.vext c f (.start ev)) s) c f
      ((s.w.ctx c).setS (fieldNum f.d) (if (laneW f).uns then x.setWidth 64 else x.signExtend 64)) fun t =>
        CoreOnly s t c ((s.w.core c).took c .V) := by
  intro x
  refine engineDone_of_completed (completed_of hr hf (by decide) (by decide) (by decide) fun w1 t => effVext_scalar t) rfl
    (show KOp.vext.queue ≠ .C by decide) ?_ (fun w1 t => ?_)
    (fun w1 d hd => Work.ctx_updCtx_other _ _ hd) (fun _ _ _ => rfl) fun w1 t => ⟨?_, t.core_vector rfl rfl⟩
  · rw [Ctx.setS_infl, Work.ready_infl hr]
  · rw [Work.setSreg, Work.ctx_updCtx_same, t.ctx, Ctx.setS_dispatched]
  · rw [Work.retire_eq, t.1]
    rfl

theorem vld_done (hf : (s.w.ctx c).operandFault .vld f = none) {sa : Word} (hsa : sa = (s.w.ctx c).getS (fieldNum f.a)) {o : Nat}
    (ho : (o : Int) = (sa.toNat % 2 ^ 24 : Nat) + 64 * f.imm.toInt) (ha : sa.toNat % 64 = 0) (hfit : o + 512 ≤ winSize s.w c (sa.getLsbD 63)) :
    EngineDone s (exec (.vld c f (.start ev)) s) c f (s.w.ctx c) fun t =>
      CoreOnly s t c { (s.w.core c).took c .V with vregs := (t.w.core c).vregs } ∧
        (∀ i, i < 512 → (t.w.vreg c (fieldNum f.d)).extractLsb' (8 * i) 8 = winByte s.w c (sa.getLsbD 63) (o + i)) ∧
        ∀ r, r ≠ fieldNum f.d → t.w.vreg c r = s.w.vreg c r := by
  have value : (s.w.capture c .vld f).start.va = sa := (Work.capture_va_of hf rfl).trans hsa.symm
  have field : (s.w.capture c .vld f).start.f = f := rfl
  refine engineDone_of hr hf (by decide) (by decide) (by decide)
    (E := fun w1 => w1.setVreg c (fieldNum f.d) (vOfBytes (s.w.spanRead c (s.w.winSpan c (sa.getLsbD 63) o) 512))) (fun w1 t => ?_)
    (fun _ _ => rfl) (fun w1 d hd => Work.core_updCore_other _ _ hd) fun w1 t => ?_
  · show effVld w1 c _ = _
    rw [effVld, value, field, t.vSpan, vSpan_of_fits ho ha hfit, withOp, t.spanRead]
  · obtain ⟨core, same, others⟩ := t.setVreg_done rfl rfl (fieldNum f.d) (vOfBytes (s.w.spanRead c (s.w.winSpan c (sa.getLsbD 63) o) 512))
    refine ⟨core, fun i hi => ?_, others⟩
    rw [same, extractLsb'_vOfBytes _ hi, Work.spanRead_winSpan, List.getD_eq_getElem _ _ (by simpa using hi)]
    simp

theorem vst_done (hf : (s.w.ctx c).operandFault .vst f = none) {sb : Word} (hsb : sb = (s.w.ctx c).getS (fieldNum f.b)) {o : Nat}
    (ho : (o : Int) = (sb.toNat % 2 ^ 24 : Nat) + 64 * f.imm.toInt) (hb : sb.toNat % 64 = 0) (hfit : o + 512 ≤ winSize s.w c (sb.getLsbD 63)) :
    EngineDone s (exec (.vst c f (.start ev)) s) c f (s.w.ctx c) fun t =>
      t.w = { s.w with ctxs := t.w.ctxs, cores := t.w.cores, clusters := t.w.clusters, nextId := s.w.nextId + 1 } ∧
        t.w.core c = { (s.w.core c).took c .V with localMem := (t.w.core c).localMem } ∧
        StoredOnly s t c (sb.getLsbD 63) o 512 fun i => (s.w.vreg c (fieldNum f.a)).extractLsb' (8 * i) 8 := by
  have value : (s.w.capture c .vst f).start.vb = sb := (Work.capture_vb_of hf rfl).trans hsb.symm
  have field : (s.w.capture c .vst f).start.f = f := rfl
  have done := completed_of (ev := ev) hr hf (by decide) (by decide) (by decide)
    (E := fun w1 => w1.spanWrite c (s.w.winSpan c (sb.getLsbD 63) o) (vBytes (s.w.vreg c (fieldNum f.a)))) fun w1 t => by
      show effVst w1 c _ = _
      rw [effVst, value, field, t.vSpan, vSpan_of_fits ho hb hfit, withOp, t.vreg]
  have long : (vBytes (s.w.vreg c (fieldNum f.a))).length = 512 := by rw [vBytes, List.length_map, List.length_range]
  exact engineDone_of_stored (op := .vst) hr (by decide) (by decide) done rfl rfl long fun i hi => vBytes_getD (s.w.vreg c (fieldNum f.a)) hi

end

/-- Settles O7: each instruction's lanes, read as the statement spells them. -/
theorem vectorSelectionAndMoveResults : Obligations.VectorSelectionAndMoveResults := by
  refine ⟨?lanes, ?moves⟩
  case lanes =>
    intro c f ev s hr l ra rb a b wins pick cond holds done
    have twos (op : KOp) (i : Instr) (g : LaneW → Nat → Nat → Nat × Bool) (out : Nat → Nat × Bool)
        (hi : exec i s = .next (s.onW fun w => w.issue c op f (.start ev))) (hq : op.queue = .V) (hs : op.actsAtStart = false)
        (hacc : (op.accepts f).2.2 = [0, 1])
        (he : ∀ w, op.effect w c (s.w.capture c op f).start ev = elementwise2 w c (s.w.capture c op f).start g)
        (ho : ∀ i, g l (ra i) (rb i) = out i) (hlt : ∀ i, (g l (ra i) (rb i)).1 < 2 ^ l.bits) : done op i out := by
      intro hf
      rw [hi]
      exact elementwise2_done hr op f ev hf hq hs (class_of_fault hf hacc) g out (fun i _ => ho i) (fun i _ => ho i ▸ hlt i) (he _)
    have picks (min : Bool) (h : Int → Int → Int) (hh : ∀ x y : Int, (if min then (if y < x then y else x) else (if x < y then y else x)) = h x y)
        (i : Nat) : Machine.pick min wins l (ra i) (rb i) = pick h i := by
      simp only [Machine.pick, hh]
      rfl
    have ra_lt (i : Nat) : ra i < 2 ^ l.bits := laneAt_lt ..
    have rb_lt (i : Nat) : rb i < 2 ^ l.bits := laneB_lt ..
    refine ⟨twos .vmax _ (Machine.pick false wins) _ rfl rfl rfl rfl (fun _ => rfl) (picks false max ite_lt_eq_max) fun i => pick_lt ..,
      twos .vmin _ (Machine.pick true wins) _ rfl rfl rfl rfl (fun _ => rfl) (picks true min ite_lt_eq_min) fun i => pick_lt ..,
      twos .vand _ (fun _ x y => (x &&& y, false)) _ rfl rfl rfl rfl (fun _ => rfl) (fun _ => rfl) fun i => Nat.and_lt_two_pow _ (rb_lt i),
      twos .vor _ (fun _ x y => (x ||| y, false)) _ rfl rfl rfl rfl (fun _ => rfl) (fun _ => rfl) fun i => Nat.or_lt_two_pow (ra_lt i) (rb_lt i),
      twos .vxor _ (fun _ x y => (x ^^^ y, false)) _ rfl rfl rfl rfl (fun _ => rfl) (fun _ => rfl) fun i =>
        Nat.xor_lt_two_pow (ra_lt i) (rb_lt i),
      fun hf => ?vcmp, vsel_done hr ev⟩
    have cond_lt : cond < 8 := Nat.mod_lt _ (by decide)
    have holds_eq (i : Nat) : cmpHolds cond (a i) (b i) = holds i := by
      simp only [holds]
      generalize a i = x
      generalize b i = y
      generalize cond = n at cond_lt
      interval_cases n <;> cases x <;> cases y <;> rfl
    simp only [← holds_eq]
    exact vcmp_done hr ev hf
  case moves =>
    intro c f ev s hr k l sa sb i0 old
    exact ⟨vbcast_done hr ev, vins_done hr ev, vext_done hr ev, fun o hf => vld_done hr ev hf rfl,
      fun o hf => vst_done hr ev hf rfl⟩

end Sys2Proof.Machine
end

section
/-! O8: pairs of lines of a tile, and their reductions (R128, R179-R181). -/

namespace Sys2Proof.Machine

/-! Pairs of rows or columns of a tile (R179). -/

theorem pairAt_eq (cols : Bool) (r i : Nat) :
    pairAt cols r i = (if cols then i % 64 else 2 * r + i / 64, if cols then 2 * r + i / 64 else i % 64) := by
  cases cols <;> rfl

/-- The place in a tile of lane i of a pair. -/
def pairPlace (cols : Bool) (r i : Nat) : Nat := 64 * (pairAt cols r i).1 + (pairAt cols r i).2

theorem pairPlace_inj {cols : Bool} {r i j : Nat} (hi : i < 128) (hj : j < 128) (h : pairPlace cols r i = pairPlace cols r j) :
    i = j := by
  unfold pairPlace pairAt at h
  cases cols <;> simp at h <;> omega

/-- What `vtget` gives in lane i (R179). -/
def tgetLane (t : Tile) (f : Fields) (i : Nat) : Nat × Bool :=
  let p := pairAt (modBit f 2) (f.imm.toNat % 32) i
  if modBit f 3 then
    let n := narrowElem (t.val.el p.1 p.2) (t.val.ex p.1 p.2) (byteInt f.imm.toNat 8) 32 .even
    (codeOf 32 n.1, n.2)
  else ((t.elems.get 0 (64 * p.1 + p.2)).toNat, false)

theorem tgetLane_lt (t : Tile) (f : Fields) (i : Nat) : (tgetLane t f i).1 < 2 ^ 32 := by
  unfold tgetLane
  dsimp only
  split
  · exact codeOf_lt (by decide) _
  · exact BitVec.isLt _

/-! Tables with several entries set. -/

theorem Tbl.get_foldl_set_other {α : Type} [DecidableEq α] (d : α) (pos : Nat → Nat) (val : Nat → α) (l : List Nat) (t : Tbl α) {e : Nat}
    (h : ∀ i, i ∈ l → e ≠ pos i) : Tbl.get d (l.foldl (fun t i => Tbl.set d t (pos i) (val i)) t) e = Tbl.get d t e := by
  induction l generalizing t with
  | nil => rfl
  | cons i l ih =>
    rw [List.foldl_cons, ih _ fun j hj => h j (List.mem_cons_of_mem _ hj), Tbl.get_set_other _ _ (h i (List.mem_cons_self ..))]

/-- Entries at different places are read back. -/
theorem Tbl.get_foldl_set {α : Type} [DecidableEq α] (d : α) (pos : Nat → Nat) (val : Nat → α) {l : List Nat} (t : Tbl α) {i : Nat}
    (hi : i ∈ l) (hl : l.Nodup) (inj : ∀ j, j ∈ l → pos j = pos i → j = i) :
    Tbl.get d (l.foldl (fun t i => Tbl.set d t (pos i) (val i)) t) (pos i) = val i := by
  induction l generalizing t with
  | nil => cases hi
  | cons k l ih =>
    obtain ⟨hk, hl⟩ := List.nodup_cons.1 hl
    rw [List.foldl_cons]
    rcases List.mem_cons.1 hi with rfl | hi
    · rw [Tbl.get_foldl_set_other _ _ _ _ _ fun j hj e => hk (inj j (List.mem_cons_of_mem _ hj) e.symm ▸ hj), Tbl.get_set_same]
    · exact ih _ hi hl fun j hj => inj j (List.mem_cons_of_mem _ hj)

/-! Reductions of a line (R180, R181). -/

/-- A running choice between what it holds and the next member ends with a member, or with what it began with. -/
theorem mem_of_foldl_choice {α : Type} {g : Option α → α → Option α} (hg : ∀ m p, g m p = some p ∨ g m p = m) (l : List α) (m : Option α) {q : α}
    (h : l.foldl g m = some q) : q ∈ l ∨ m = some q := by
  induction l generalizing m with
  | nil => exact .inr h
  | cons p l ih =>
    rcases ih _ h with inside | here
    · exact .inl (List.mem_cons_of_mem _ inside)
    · rcases hg m p with next | held
      · exact .inl (by rw [next] at here; cases here; exact List.mem_cons_self ..)
      · exact .inr (held.symm.trans here)

theorem headD_le {l : List Nat} {n : Nat} (h : ∀ i, i ∈ l → i ≤ n) : l.headD 0 ≤ n := by
  cases l with
  | nil => exact Nat.zero_le n
  | cons i l => exact h i (List.mem_cons_self ..)

/-- The index of a reduction's result lies in its line, or is 0. -/
theorem reduceLine_index_le (kind : Nat) (narWins : Bool) (b : Int) (els : List (Option Int)) :
    (reduceLine kind narWins b els).2.1 ≤ els.length := by
  have nar : ((els.zipIdx.filter fun p => p.1.isNone).map (·.2)).headD 0 ≤ els.length := by
    refine headD_le fun i hi => ?_
    obtain ⟨p, hp, rfl⟩ := List.mem_map.1 hi
    exact (List.snd_lt_of_mem_zipIdx (List.mem_filter.1 hp).1).le
  unfold reduceLine
  dsimp only
  split
  next => exact Nat.zero_le _
  next =>
    split
    next => exact nar
    next q hq =>
      split
      next => exact nar
      next =>
        have mem := (mem_of_foldl_choice (fun m p => by cases m <;> grind) _ none hq).resolve_right (by simp)
        obtain ⟨p, hp, hq⟩ := List.mem_filterMap.1 mem
        obtain ⟨v, -, rfl⟩ := Option.map_eq_some_iff.1 hq
        exact (List.snd_lt_of_mem_zipIdx hp).le

/-- What `vred.row` and `vred.col` give in lane i (R180): the results of the 64 lines, then their indexes or the results again. -/
def vredLane (f : Fields) (line : Nat → List (Option Int)) (i : Nat) : Nat × Bool :=
  let o := reduceLine (modBits f 2 2) (modBit f 4) (byteInt f.imm.toNat 0) (line (i % 64))
  if i < 64 then (codeOf 32 o.1, o.2.2) else (if modBit f 5 then codeOf 32 o.1 else o.2.1, false)

theorem vredLane_lt {f : Fields} {line : Nat → List (Option Int)} (h : ∀ r, (line r).length = 64) (i : Nat) : (vredLane f line i).1 < 2 ^ 32 := by
  have index := reduceLine_index_le (modBits f 2 2) (modBit f 4) (byteInt f.imm.toNat 0) (line (i % 64))
  rw [h] at index
  unfold vredLane
  dsimp only
  split
  · exact codeOf_lt (by decide) _
  · dsimp only
    split
    · exact codeOf_lt (by decide) _
    · omega

/-- A tile's line of factors at scale −128 (R180): a row, or a column. -/
def vredLine (tv : TileVal) (f : Fields) (cols : Bool) (r : Nat) : List (Option Int) :=
  let el := fun row col => (tv.el row col).map fun m => m * 2 ^ ((if modBit f 6 then byteInt f.imm.toNat 8 else tv.ex row col) + 128).toNat
  (List.range 64).map fun i => if cols then el i r else el r i

theorem length_vredLine (tv : TileVal) (f : Fields) (cols : Bool) (r : Nat) : (vredLine tv f cols r).length = 64 := by
  rw [vredLine, List.length_map, List.length_range]

/-- Two halves of 64 lanes. -/
theorem map_range_128 {α : Type} (g : Nat → α) (lo hi : Nat → α) (hlo : ∀ i, i < 64 → g i = lo i) (hhi : ∀ i, i < 64 → g (64 + i) = hi i) :
    (List.range 128).map g = (List.range 64).map lo ++ (List.range 64).map hi := by
  rw [show 128 = 64 + 64 from rfl, List.range_add, List.map_append, List.map_map]
  congr 1
  · exact List.map_congr_left fun i hi => hlo i (by simpa using hi)
  · exact List.map_congr_left fun i hi => hhi i (by simpa using hi)

theorem effVred_lanes (w : Work) (c : CtxId) (x : InFlight) (cols : Bool) :
    effVred w c x cols = putLanes w c x lane32 ((List.range lane32.count).map
      (vredLane x.f (vredLine (w.tile c (fieldNum x.f.a)).val x.f cols))) := by
  rw [show lane32.count = 128 from rfl, map_range_128 _
    (fun r => (fun o : Option Int × Nat × Bool => (codeOf 32 o.1, o.2.2)) (reduceLine (modBits x.f 2 2) (modBit x.f 4) (byteInt x.f.imm.toNat 0)
      (vredLine (w.tile c (fieldNum x.f.a)).val x.f cols r)))
    (fun r => (fun o : Option Int × Nat × Bool => (if modBit x.f 5 then codeOf 32 o.1 else o.2.1, false)) (reduceLine (modBits x.f 2 2)
      (modBit x.f 4) (byteInt x.f.imm.toNat 0) (vredLine (w.tile c (fieldNum x.f.a)).val x.f cols r)))]
  · simp only [effVred, List.map_map]
    rfl
  · intro i hi
    rw [vredLane, Nat.mod_eq_of_lt hi, if_pos hi]
  · intro i hi
    rw [vredLane, Nat.add_mod_left, Nat.mod_eq_of_lt hi, if_neg (by omega)]

/-- The tile that `vtput` leaves in tD (R179). -/
def tputTile (t : Tile) (v : BitVec 4096) (f : Fields) : Tile :=
  { t with elems := (List.range 128).foldl (fun es i =>
      Tbl.set 0 es (pairPlace (modBit f 2) (f.imm.toNat % 32) i) (BitVec.ofNat 32 (laneAt lane32 v i))) t.elems }

theorem effVtput_tile (w : Work) (c : CtxId) (x : InFlight) :
    effVtput w c x = .done (w.setTile c (fieldNum x.f.d) (tputTile (w.tile c (fieldNum x.f.d)) (w.vreg c (fieldNum x.f.a)) x.f)) := by
  simp only [effVtput, LaneW.lanes_eq, zipIdx_map_range, List.foldl_map]
  rfl

theorem tputTile_elem_same (t : Tile) (v : BitVec 4096) (f : Fields) {i : Nat} (hi : i < 128) :
    ((tputTile t v f).elems.get 0 (pairPlace (modBit f 2) (f.imm.toNat % 32) i)).toNat = laneAt lane32 v i := by
  rw [tputTile, Tbl.get_foldl_set _ (pairPlace (modBit f 2) (f.imm.toNat % 32)) _ _ (List.mem_range.2 hi) List.nodup_range
    fun j hj => pairPlace_inj (List.mem_range.1 hj) hi, BitVec.toNat_ofNat]
  exact Nat.mod_eq_of_lt (laneAt_lt lane32 v i)

theorem tputTile_elem_other (t : Tile) (v : BitVec 4096) (f : Fields) {e : Nat}
    (h : ∀ i, i < 128 → e ≠ pairPlace (modBit f 2) (f.imm.toNat % 32) i) : (tputTile t v f).elems.get 0 e = t.elems.get 0 e :=
  Tbl.get_foldl_set_other _ (pairPlace (modBit f 2) (f.imm.toNat % 32)) _ _ _ fun i hi => h i (List.mem_range.1 hi)

/-- What a vector instruction has left once it has written tD alone. -/
theorem Work.Takes.setTile_done {s : State} {w1 : Work} {c : CtxId} {x : InFlight} (t : s.w.Takes c x w1) (hq : x.op.queue = .V)
    (hp : x.op.isProduct = false) (d : Nat) (tl : Tile) :
    let u : State := { s with w := (w1.setTile c d tl).retire c x x.flag }
    CoreOnly s u c { (s.w.core c).took c .V with tiles := (u.w.core c).tiles } ∧ u.w.tile c d = tl ∧ ∀ r, r ≠ d → u.w.tile c r = s.w.tile c r := by
  intro u
  have core : u.w.core c = { (s.w.core c).took c .V with tiles := (s.w.core c).tiles.set .zero d tl } := by
    show (w1.setTile c d tl).core c = _
    rw [Work.setTile, Work.core_updCore_same, t.core_vector hq hp]
    rfl
  have tile (r : Nat) : u.w.tile c r = if r = d then tl else s.w.tile c r := by
    rw [Work.tile, core]
    exact Tbl.get_set ..
  refine ⟨⟨?_, by rw [core]⟩, (tile d).trans (if_pos rfl), fun r hr => (tile r).trans (if_neg hr)⟩
  rw [show u.w = (w1.setTile c d tl).retire c x x.flag from rfl, Work.retire_eq, t.1]
  rfl

/-! What each instruction has done. -/

section

variable {s : State} {c : CtxId} {f : Fields} (hr : s.w.ready c) (ev : MemEvent)
include hr

theorem vtget_done (hf : (s.w.ctx c).operandFault .vtget f = none) :
    VecDone s (exec (.vtget c f (.start ev)) s) c f lane32 (tgetLane (s.w.tile c (fieldNum f.a)) f) := by
  refine vecDone_of hr .vtget f ev hf rfl rfl lane32 rfl _ (fun i _ => tgetLane_lt ..) ?_
  have t := Work.takes_engaged hr (op := .vtget) f (by decide) (by decide) (by decide)
  rw [← t.tile]
  rfl

theorem vtput_done (hf : (s.w.ctx c).operandFault .vtput f = none) :
    let tl := tputTile (s.w.tile c (fieldNum f.d)) (s.w.vreg c (fieldNum f.a)) f
    EngineDone s (exec (.vtput c f (.start ev)) s) c f (s.w.ctx c) fun t =>
      CoreOnly s t c { (s.w.core c).took c .V with tiles := (t.w.core c).tiles } ∧ t.w.tile c (fieldNum f.d) = tl ∧
        ∀ n, n ≠ fieldNum f.d → t.w.tile c n = s.w.tile c n := by
  intro tl
  refine engineDone_of hr hf (by decide) (by decide) (by decide) (E := fun w1 => w1.setTile c (fieldNum f.d) tl) (fun w1 t => ?_)
    (fun _ _ => rfl) (fun w1 d hd => Work.core_updCore_other _ _ hd) fun w1 t => t.setTile_done rfl rfl ..
  refine (effVtput_tile ..).trans ?_
  rw [t.tile, t.vreg]
  rfl

/-- `vred.row` and `vred.col` (R180, R181). -/
theorem vred_done {op : KOp} {i : Instr} {cols : Bool} (hi : exec i s = .next (s.onW fun w => w.issue c op f (.start ev)))
    (hf : (s.w.ctx c).operandFault op f = none) (hq : op.queue = .V) (ha : op.actsAtStart = false) (hp : op.isProduct = false)
    (he : ∀ w x, op.effect w c x ev = effVred w c x cols) :
    VecDone s (exec i s) c f lane32 (vredLane f (vredLine (s.w.tile c (fieldNum f.a)).val f cols)) := by
  rw [hi]
  refine vecDone_of hr op f ev hf hq ha lane32 rfl _ (fun i _ => vredLane_lt (length_vredLine _ _ _) i) ?_
  have t := Work.takes_engaged hr (op := op) f (by rw [hq]; decide) ha hp
  rw [he, effVred_lanes, ← t.tile]
  rfl

end

/-- Settles O8: the lanes and places of each instruction, read as the statement spells them. -/
theorem tileVectorResults : Obligations.TileVectorResults := by
  intro c f ev s hr k ta td r cols row col hi lo factor reduced lanes
  have high : byteInt f.imm.toNat 8 = hi := byteInt_eq ..
  have low : byteInt f.imm.toNat 0 = lo := byteInt_eq ..
  have place (i : Nat) : pairPlace cols r i = 64 * row i + col i := by rw [pairPlace, pairAt_eq]
  have lines (line : Nat → List (Option Int)) : vredLane f line = lanes line := by
    funext i
    simp only [lanes, reduced, ← low]
    rfl
  refine ⟨fun hf => ?vtget, fun hf => ?vtput, fun hf => ?vredRow, fun hf => ?vredCol⟩
  case vtget =>
    have done := vtget_done hr ev hf
    have same : tgetLane ta f = _ := funext fun i => by rw [tgetLane, high, pairAt_eq]
    exact same ▸ done
  case vtput =>
    obtain ⟨t, ho, elsewhere, ctx, core, same, others⟩ := vtput_done hr ev hf
    refine ⟨t, ho, elsewhere, ctx, core, fun i hi => ?_, fun e he => ?_, ?_, others⟩
    · rw [same, ← place]
      exact tputTile_elem_same _ _ _ hi
    · rw [same]
      exact tputTile_elem_other _ _ _ fun i hi => place i ▸ he i hi
    · rw [same]
      rfl
  case vredRow =>
    have done := vred_done (cols := false) hr ev (i := .vredRow c f (.start ev)) rfl hf rfl rfl rfl fun _ _ => rfl
    rw [lines] at done
    simp only [factor, ← high]
    exact done
  case vredCol =>
    have done := vred_done (cols := true) hr ev (i := .vredCol c f (.start ev)) rfl hf rfl rfl rfl fun _ _ => rfl
    rw [lines] at done
    simp only [factor, ← high]
    exact done

end Sys2Proof.Machine
end

section
/-! Conversions and the statistics they count in (R126, R130, R228-R230). -/

namespace Sys2Proof.Machine

/-! Statistics with room on chip (R228-R230). -/

theorem Work.updSlice_congr (w : Work) (n : Nat) {f g : SliceSt → SliceSt} (h : f (w.slice n) = g (w.slice n)) : w.updSlice n f = w.updSlice n g :=
  congrArg (fun v : SliceSt => ({ w with slices := w.slices.set .zero n v } : Work)) h

/-- Narrowed results counted in the record of a tensor and step (R228). -/
def SliceStat.countedOuts (st : SliceStat) (q : Fin 8) (job : BitVec 16) (tensor : BitVec 20) (step : Nat) (outs : List (Option Int × Bool)) :
    SliceStat :=
  st.counted q job tensor (BitVec.ofNat 64 step) outs.length (outs.countP fun e => decide (e.1 = some 0)) (outs.countP fun e => e.2)
    (outs.countP fun e => e.1.isNone)

/-- Results are counted in one record of the slice. -/
theorem Work.statCount_room (w : Work) (c : CtxId) (tensor : BitVec 20) (step : Nat) {outs : List (Option Int × Bool)} (ev : MemEvent)
    (ho : outs ≠ []) (room : (w.slice c.slice.val).stat.recs.length < 4096) :
    w.statCount c tensor step outs ev = w.updSlice c.slice.val fun y =>
      { y with stat := y.stat.countedOuts (w.ctx c).part (w.ctx c).job tensor step outs } := by
  unfold Work.statCount Work.statAdd SliceStat.countedOuts SliceStat.counted
  rw [if_neg (by simpa using ho)]
  dsimp only
  cases hr : (w.slice c.slice.val).stat.recs.find? fun r => decide (r.q = (w.ctx c).part ∧ r.tensor = tensor ∧ r.step = BitVec.ofNat 64 step) with
  | some r => exact w.updSlice_congr _ (by rw [hr])
  | none =>
    dsimp only
    split
    next => rw [if_neg (Nat.not_le.2 room)]; exact w.updSlice_congr _ (by rw [hr])
    next => exact w.updSlice_congr _ (by rw [hr])

/-- What a counting vector instruction leaves: vD written, LANE_SAT and the slice's counter, and the statistics (R127, R130, R185). -/
def Work.putCounted (w : Work) (c : CtxId) (d : Nat) (v : BitVec 4096) (sat : Bool) (g : SliceStat → SliceStat) : Work :=
  ((w.setVreg c d v).laneSat c sat).updSlice c.slice.val fun y => { y with stat := g y.stat }

theorem Work.Takes.statCount_laneSat {w w1 : Work} {c : CtxId} {x : InFlight} (t : w.Takes c x w1) (d : Nat) (v : BitVec 4096) (sat : Bool)
    (tensor : BitVec 20) (step : Nat) {outs : List (Option Int × Bool)} (ev : MemEvent) (ho : outs ≠ [])
    (room : (w.slice c.slice.val).stat.recs.length < 4096) :
    ((w1.setVreg c d v).laneSat c sat).statCount c tensor step outs ev =
      w1.putCounted c d v sat fun st => st.countedOuts (w.ctx c).part (w.ctx c).job tensor step outs := by
  have stat : (((w1.setVreg c d v).laneSat c sat).slice c.slice.val).stat = (w.slice c.slice.val).stat := by
    rw [Work.slice_laneSat, Work.slice_setVreg, t.slice]
    split <;> rfl
  rw [Work.statCount_room _ _ _ _ _ ho (by rw [stat]; exact room), Work.ctx_laneSat, Work.ctx_setVreg]
  simp only [t.part, t.ctx_job]
  rfl

theorem Work.ctx_putCounted (w : Work) (c : CtxId) (d : Nat) (v : BitVec 4096) (sat : Bool) (g : SliceStat → SliceStat) :
    (w.putCounted c d v sat g).ctx c = { w.ctx c with laneSat := (w.ctx c).laneSat || sat } := Work.ctx_laneSat ..

theorem Work.ctx_putCounted_other (w : Work) {c e : CtxId} (d : Nat) (v : BitVec 4096) (sat : Bool) (g : SliceStat → SliceStat) (he : e ≠ c) :
    (w.putCounted c d v sat g).ctx e = w.ctx e := Work.ctx_laneSat_other _ _ he

theorem Work.core_putCounted (w : Work) (c : CtxId) (d : Nat) (v : BitVec 4096) (sat : Bool) (g : SliceStat → SliceStat) (e : CtxId) :
    (w.putCounted c d v sat g).core e = (w.setVreg c d v).core e := Work.core_laneSat ..

theorem Work.slice_putCounted (w : Work) (c : CtxId) (d : Nat) (v : BitVec 4096) (sat : Bool) (g : SliceStat → SliceStat) (n : Nat) :
    (w.putCounted c d v sat g).slice n = if n = c.slice.val then
        { w.slice n with
          laneSats := if sat then satAdd (w.slice n).laneSats 1 else (w.slice n).laneSats
          stat := g (w.slice c.slice.val).stat }
      else w.slice n := by
  unfold Work.putCounted
  by_cases hn : n = c.slice.val
  · subst hn
    rw [if_pos rfl, Work.slice_updSlice_same, Work.slice_laneSat, Work.slice_setVreg]
    cases sat <;> simp
  · rw [if_neg hn, Work.slice_updSlice_other _ _ hn, Work.slice_laneSat, if_neg (fun h => hn h.1), Work.slice_setVreg]

theorem Work.putCounted_eq (w : Work) (c : CtxId) (d : Nat) (v : BitVec 4096) (sat : Bool) (g : SliceStat → SliceStat) :
    w.putCounted c d v sat g =
      { w with ctxs := (w.putCounted c d v sat g).ctxs, cores := (w.putCounted c d v sat g).cores, slices := (w.putCounted c d v sat g).slices } := by
  cases sat <;> rfl

/-- What `vcvt` and `vunpk` have done (R130). -/
theorem counting_done {s : State} {c : CtxId} (hr : s.w.ready c) {op : KOp} {i : Instr} {f : Fields} {ev : MemEvent} {v : BitVec 4096}
    {outs : List (Option Int × Bool)} {g : SliceStat → SliceStat} (hi : exec i s = .next (s.onW fun w => w.issue c op f (.start ev)))
    (hf : (s.w.ctx c).operandFault op f = none) (hq : op.queue = .V) (ha : op.actsAtStart = false) (hp : op.isProduct = false)
    (he : ∀ w1, s.w.Takes c (s.w.capture c op f).start w1 →
      op.effect w1 c (s.w.capture c op f).start ev = .done (w1.putCounted c (fieldNum f.d) v (outs.any (·.2)) g)) :
    EngineDone s (exec i s) c f { s.w.ctx c with laneSat := (s.w.ctx c).laneSat || outs.any (·.2) } fun t =>
      t.w.vreg c (fieldNum f.d) = v ∧
      t.w = { s.w with ctxs := t.w.ctxs, cores := t.w.cores, slices := t.w.slices, nextId := s.w.nextId + 1 } ∧
      t.w.core c = { (s.w.core c).took c .V with vregs := (t.w.core c).vregs } ∧
      (∀ r, r ≠ fieldNum f.d → t.w.vreg c r = s.w.vreg c r) ∧
      ∀ n, t.w.slice n = if n = c.slice.val then
          { s.w.slice n with
            laneSats := if outs.any (·.2) then satAdd (s.w.slice n).laneSats 1 else (s.w.slice n).laneSats
            stat := g (s.w.slice c.slice.val).stat }
        else s.w.slice n := by
  have engine : op.queue ≠ .C := by rw [hq]; decide
  rw [hi]
  refine engineDone_of_completed (completed_of hr hf engine ha hp he) rfl engine (Work.ready_infl hr)
    (fun w1 t => by rw [Work.ctx_putCounted, t.ctx]) (fun w1 d hd => Work.ctx_putCounted_other _ _ _ _ _ hd)
    (fun w1 d hd => (Work.core_putCounted ..).trans (Work.core_setVreg_other _ _ _ hd)) fun w1 t => ?_
  obtain ⟨⟨-, core⟩, same, others⟩ := t.setVreg_done hq hp (fieldNum f.d) v
  have written (e : CtxId) := w1.core_putCounted c (fieldNum f.d) v (outs.any (·.2)) g e
  refine ⟨?_, ?_, ?_, fun r hr => ?_, fun n => ?_⟩
  · exact (congrArg (fun k : Core => k.vregs.get 0 (fieldNum f.d)) (written c)).trans same
  · show (w1.putCounted c (fieldNum f.d) v (outs.any (·.2)) g).retire c _ _ = _
    rw [Work.retire_eq, Work.putCounted_eq, t.1]
  · exact (written c).trans (core.trans (congrArg (fun k : Core => { (s.w.core c).took c .V with vregs := k.vregs }) (written c).symm))
  · exact (congrArg (fun k : Core => k.vregs.get 0 r) (written c)).trans (others r hr)
  · show (w1.putCounted c (fieldNum f.d) v (outs.any (·.2)) g).slice n = _
    simp only [Work.slice_putCounted, t.slice]

/-- What `vcvt` narrows lane j to (R130). -/
def Work.cvtLane (w : Work) (c : CtxId) (f : Fields) (j : Nat) : Option Int × Bool :=
  let k := w.ctx c
  let sb := k.getS (fieldNum f.b)
  let rnd := if f.mod.getLsbD 0 then
      Rnd.stoch (genWord (w.genKey c) (w.workStep c) 0 k.lane k.mb false (sb.extractLsb' 32 20) ((k.getS (f.imm.toNat % 64)).toNat + j))
    else Rnd.even
  narrowElem (elemOf 32 (laneAt lane32 (w.vreg c (fieldNum f.a)) j)) (sb.extractLsb' 8 8 : Byte).toInt (sb.extractLsb' 0 8 : Byte).toInt
    (fmtBits (f.mod.toNat / 2 % 4)) rnd

theorem map_range_128_ne_nil {α : Type} (g : Nat → α) : (List.range 128).map g ≠ [] := by simp

/-- `vcvt` without the fault of the saturation trap (R130). -/
theorem Work.Takes.effVcvt {w w1 : Work} {c : CtxId} {f : Fields} (t : w.Takes c (w.capture c .vcvt f).start w1)
    (hf : (w.ctx c).operandFault .vcvt f = none) (room : (w.slice c.slice.val).stat.recs.length < 4096) (ev : MemEvent) :
    let outs := (List.range 128).map (w.cvtLane c f)
    let wd := fmtBits (f.mod.toNat / 2 % 4)
    let tensor : BitVec 20 := ((w.ctx c).getS (fieldNum f.b)).extractLsb' 32 20
    ((w.ctx c).decl.satTrap = false ∨ outs.any (·.2) = false) →
    Machine.effVcvt w1 c (w.capture c .vcvt f).start ev =
      .done (w1.putCounted c (fieldNum f.d) (vOfBytes (packCodes wd (outs.map fun o => codeOf wd o.1))) (outs.any (·.2)) fun st =>
        st.countedOuts (w.ctx c).part (w.ctx c).job tensor (w.workStep c) outs) := by
  intro outs wd tensor trap
  have value : (w.capture c .vcvt f).start.vb = (w.ctx c).getS (fieldNum f.b) := Work.capture_vb_of hf rfl
  have field : (w.capture c .vcvt f).start.f = f := rfl
  have untrapped : ¬((w.ctx c).decl.satTrap && outs.any (·.2)) = true := by
    rcases trap with h | h <;> simp [h]
  unfold Machine.effVcvt
  simp only [field, value, byteInt_eq, t.vreg, t.genKey, t.decl, LaneW.lanes_eq, zipIdx_map_range, List.map_map]
  show (if (w.ctx c).decl.satTrap && outs.any (·.2) then _ else Effect.done (((w1.setVreg c (fieldNum f.d)
    (vOfBytes (packCodes wd (outs.map fun o => codeOf wd o.1)))).laneSat c (outs.any (·.2))).statCount c tensor (w.workStep c) outs ev)) = _
  rw [if_neg untrapped, t.statCount_laneSat _ _ _ _ _ _ (map_range_128_ne_nil _) room]

/-- What `vunpk` widens to lane i (R130, R179). -/
def unpkLane (tv : TileVal) (f : Fields) (eb : Int) (i : Nat) : Option Int × Bool :=
  narrowElem (tv.el (2 * (f.imm.toNat % 32) + i / 64) (i % 64)) (tv.ex (2 * (f.imm.toNat % 32) + i / 64) (i % 64)) eb 32 .even

/-- `vunpk` of a tile within its window (R130). -/
theorem Work.Takes.effVunpk {w w1 : Work} {c : CtxId} {f : Fields} (t : w.Takes c (w.capture c .vunpk f).start w1)
    (hf : (w.ctx c).operandFault .vunpk f = none) (room : (w.slice c.slice.val).stat.recs.length < 4096) (ev : MemEvent) {m e : Span}
    (hs : (w.ctx c).tileSpans ((w.ctx c).getS (fieldNum f.a)) (f.mod.toNat / 2 % 4) = .ok (m, e)) :
    let fmt := f.mod.toNat / 2 % 4
    let sb := (w.ctx c).getS (fieldNum f.b)
    let tv := tileOfBytes fmt (f.mod.getLsbD 3) (w.spanRead c m (tileBytes fmt)) (w.spanRead c e 128)
    let outs := (List.range 128).map (unpkLane tv f (sb.extractLsb' 0 8 : Byte).toInt)
    Machine.effVunpk w1 c (w.capture c .vunpk f).start ev =
      .done (w1.putCounted c (fieldNum f.d) (lane32.pack (outs.map fun o => codeOf 32 o.1)) (outs.any (·.2)) fun st =>
        st.countedOuts (w.ctx c).part (w.ctx c).job (sb.extractLsb' 32 20) (w.workStep c) outs) := by
  intro fmt sb tv outs
  have handle : (w.capture c .vunpk f).start.va = (w.ctx c).getS (fieldNum f.a) := Work.capture_va_of hf rfl
  have value : (w.capture c .vunpk f).start.vb = sb := Work.capture_vb_of hf rfl
  have field : (w.capture c .vunpk f).start.f = f := rfl
  have format : modBits f 1 2 = fmt := rfl
  have spans : (w.ctx c).tileSpans ((w.ctx c).getS (fieldNum f.a)) fmt = .ok (m, e) := hs
  have codes : (outs.map fun o => (codeOf 32 o.1, o.2)).map (·.1) = outs.map fun o => codeOf 32 o.1 := by rw [List.map_map]; rfl
  have sats : (outs.map fun o => (codeOf 32 o.1, o.2)).any (·.2) = outs.any (·.2) := by rw [List.any_map]; rfl
  unfold Machine.effVunpk
  simp only [field, format, handle, value, byteInt_eq, t.tileSpans, spans, withOp, t.spanRead]
  show Effect.done (((w1.setVreg c (fieldNum f.d) (lane32.pack ((outs.map fun o => (codeOf 32 o.1, o.2)).map (·.1)))).laneSat c
    ((outs.map fun o => (codeOf 32 o.1, o.2)).any (·.2))).statCount c (sb.extractLsb' 32 20) (w.workStep c) outs ev) = _
  rw [codes, sats, t.statCount_laneSat _ _ _ _ _ _ (map_range_128_ne_nil _) room]

/-- The record of a tensor and step that a slice holds on chip, and an invalid one where it holds none (R229, R230). -/
def SliceStat.onChip (st : SliceStat) (q : Fin 8) (tensor : BitVec 20) (step : Word) : List Byte :=
  match st.recs.find? fun y => decide (y.q = q ∧ y.tensor = tensor ∧ y.step = step) with
  | some y => statBytes y false
  | none => leBytes 4 tensor.toNat ++ leBytes 8 step.toNat ++ List.replicate 52 0

/-- The record that `vstat` takes, the table's share left out. -/
theorem SliceStat.onChip_eq (st : SliceStat) (q : Fin 8) (tensor : BitVec 20) (step : Word) (b : StatRec) :
    (if (st.recs.find? fun y => decide (y.q = q ∧ y.tensor = tensor ∧ y.step = step)).isSome = true then
        statBytes ((st.recs.find? fun y => decide (y.q = q ∧ y.tensor = tensor ∧ y.step = step)).getD b) false
      else leBytes 4 (tensor.toNat + Bool.toNat false * 2 ^ 21) ++ leBytes 8 step.toNat ++ (List.replicate 64 (0 : Byte)).drop 12) =
      st.onChip q tensor step := by
  unfold SliceStat.onChip
  cases st.recs.find? fun y => decide (y.q = q ∧ y.tensor = tensor ∧ y.step = step) with
  | none => rw [if_neg (by simp), List.drop_replicate, Bool.toNat_false, Nat.zero_mul, Nat.add_zero]
  | some y => exact if_pos rfl

/-- A slice that has written none of the step to the table answers from its own records (R229, R230). -/
theorem Work.statRead_onChip (w : Work) (c : CtxId) (tensor : BitVec 20) (step : Word) (ev : MemEvent)
    (h : (w.slice c.slice.val).stat.tableSteps.contains ((w.ctx c).part, (w.ctx c).job, step) = false) :
    w.statRead c tensor step ev = ((w.slice c.slice.val).stat.onChip (w.ctx c).part tensor step, w) := by
  unfold Work.statRead
  extract_lets q n job on base blank plain
  have plainly : plain base on.isSome false = (w.slice c.slice.val).stat.onChip (w.ctx c).part tensor step := SliceStat.onChip_eq ..
  have untabled : ¬((w.slice n).stat.tableSteps.contains (q, job, step) = true) := by rw [h]; decide
  rw [← plainly]
  cases w.statSec q job with
  | none => rfl
  | some sec => exact if_neg untabled
theorem Work.Takes.statRead {w w1 : Work} {c : CtxId} {x : InFlight} (t : w.Takes c x w1) (tensor : BitVec 20) (step : Word) (ev : MemEvent)
    (h : (w.slice c.slice.val).stat.tableSteps.contains ((w.ctx c).part, (w.ctx c).job, step) = false) :
    w1.statRead c tensor step ev = ((w.slice c.slice.val).stat.onChip (w.ctx c).part tensor step, w1) := by
  rw [Work.statRead_onChip _ _ _ _ _ (by rw [t.slice, t.part, t.ctx_job]; exact h), t.slice, t.part]

section
variable {s : State} {c : CtxId} (hr : s.w.ready c) (ev : MemEvent) {f : Fields}
include hr

/-- What `vstat` has done (R229, R230, R235). -/
theorem vstat_done (hf : (s.w.ctx c).operandFault .vstat f = none)
    (h : (s.w.slice c.slice.val).stat.tableSteps.contains ((s.w.ctx c).part, (s.w.ctx c).job, (s.w.ctx c).getS (fieldNum f.b)) = false) :
    EngineDone s (exec (.vstat c f (.start ev)) s) c f (s.w.ctx c) fun t =>
      CoreOnly s t c { (s.w.core c).took c .V with vregs := (t.w.core c).vregs } ∧
        t.w.vreg c (fieldNum f.d) = vOfBytes ((s.w.slice c.slice.val).stat.onChip (s.w.ctx c).part
          (((s.w.ctx c).getS (fieldNum f.a)).setWidth 20) ((s.w.ctx c).getS (fieldNum f.b))) ∧
        ∀ r, r ≠ fieldNum f.d → t.w.vreg c r = s.w.vreg c r := by
  have va := Work.capture_va_of hf rfl
  have vb := Work.capture_vb_of hf rfl
  have engine : KOp.vstat.queue ≠ .C := by decide
  have taken := Work.takes_started_engine hr engine f
  have start : KOp.vstat.effect (s.w.started c .vstat f) c (s.w.capture c .vstat f) ev =
      .stand ((s.w.started c .vstat f).noteSnap c (s.w.capture c .vstat f).id ((s.w.slice c.slice.val).stat.onChip (s.w.ctx c).part
          (((s.w.ctx c).getS (fieldNum f.a)).setWidth 20) ((s.w.ctx c).getS (fieldNum f.b)))) .started := by
    show startVstat _ _ _ _ = _
    rw [startVstat, va, vb, taken.statRead _ _ _ h]
  obtain ⟨l, done⟩ := completed_of_underway (E := fun w1 => w1.setVreg c (fieldNum f.d) (vOfBytes ((s.w.slice c.slice.val).stat.onChip
    (s.w.ctx c).part (((s.w.ctx c).getS (fieldNum f.a)).setWidth 20) ((s.w.ctx c).getS (fieldNum f.b))))) hr hf engine (by decide)
    (by decide) start (taken.noteSnap _) rfl rfl fun _ _ _ => rfl
  exact engineDone_of_completed done rfl engine (Work.ready_infl hr) (fun _ t => t.2.2.2.1) (fun _ _ _ => rfl)
    (fun _ _ => Work.core_setVreg_other _ _ _) fun _ t => t.setVreg_done rfl rfl _ _

end

theorem laneAt_pack_codes (g : Nat → Option Int × Bool) {i : Nat} (hi : i < 128) :
    laneAt lane32 (lane32.pack (((List.range 128).map g).map fun o => codeOf 32 o.1)) i = codeOf 32 (g i).1 := by
  rw [LaneW.laneAt_pack _ _ (by simp [lane32]) _ (by simpa using hi)]
  rw [List.getElem_map, List.getElem_map, List.getElem_range]
  exact Nat.mod_eq_of_lt (codeOf_lt (by decide) _)

/-- Settles O10: what each of the three finds when it has its effect, and the counting that `vcvt` and `vunpk` share. -/
theorem conversionResults : Obligations.ConversionResults := by
  intro c f ev s hr k sa sb step fmt wd tensor ea eb st rnd cvt after
  refine ⟨fun hf room trap => counting_done hr (i := .vcvt c f (.start ev)) rfl hf rfl rfl rfl fun _ t => t.effVcvt hf room ev trap,
    fun m e hf room hs => ?_, fun hf h => vstat_done hr ev hf h⟩
  intro tv out outs
  obtain ⟨t, ho, he, hc, hv, rest⟩ := counting_done hr (i := .vunpk c f (.start ev)) rfl hf rfl rfl rfl fun _ t => t.effVunpk hf room ev hs
  exact ⟨t, ho, he, hc, fun i hi => by rw [hv]; exact laneAt_pack_codes _ hi, rest⟩

end Sys2Proof.Machine
end

section
/-! The twelve matrix products (R120, R137-R139). -/

namespace Sys2Proof.Machine

/-! The accumulator tiles that an instruction leaves. -/

/-- The core with an accumulator tile written after an engine has taken the instruction. -/
theorem Work.Takes.setAcc_core {w w1 : Work} {c : CtxId} {x : InFlight} (t : w.Takes c x w1) (hq : x.op.queue ≠ .C) (i : Nat) (a : Acc) :
    (w1.setAcc c i a).core c = { (w.core c).tookOp c x.op with accs := ((w1.setAcc c i a).core c).accs } ∧
      (∀ n, n ≠ i → (w1.setAcc c i a).acc c n = w.acc c n) ∧ (w1.setAcc c i a).acc c i = a := by
  have core : (w1.setAcc c i a).core c = { (w.core c).tookOp c x.op with accs := (w.core c).accs.set .zero i a } := by
    unfold Work.setAcc
    rw [Work.core_updCore_same, t.2.2.2.2, if_neg hq]
    rfl
  have acc (n : Nat) : (w1.setAcc c i a).acc c n = if n = i then a else w.acc c n := by
    rw [Work.acc, core]
    exact Tbl.get_set ..
  exact ⟨by rw [core], fun n hn => (acc n).trans (if_neg hn), (acc i).trans (if_pos rfl)⟩

theorem Work.core_setAcc_other (w : Work) {c d : CtxId} (i : Nat) (a : Acc) (ne : coreKey d ≠ coreKey c) : (w.setAcc c i a).core d = w.core d :=
  Work.core_updCore_other _ _ ne

namespace Work.Takes

variable {w w1 : Work} {c : CtxId} {x : InFlight} (t : w.Takes c x w1)
include t

theorem fresh : w1.fresh = w.fresh := (congrArg Work.fresh t.1).trans rfl

theorem srcTile (fld : Byte) (h : Word) (fmt : Nat) (axis : Bool) : w1.srcTile c fld h fmt axis = w.srcTile c fld h fmt axis := by
  unfold Work.srcTile
  simp only [t.tile, t.tileSpans, t.spanRead]

end Work.Takes

/-! Matrix products (R120, R137-R139). -/

/-- A source's handle is a scalar's, and a tile register needs none (R108, R120). -/
theorem Work.srcTile_captured (w : Work) (c : CtxId) {fld : Byte} (h : fieldClass fld = 0 ∨ fieldClass fld = 2) (fmt : Nat) (axis : Bool) :
    w.srcTile c fld ((w.ctx c).captured fld) fmt axis = w.srcTile c fld ((w.ctx c).getS (fieldNum fld)) fmt axis := by
  rcases h with scalar | tile
  · rw [Ctx.captured_scalar _ scalar]
  · unfold Work.srcTile
    rw [if_pos tile, if_pos tile]

theorem KOp.accepts_product {op : KOp} (h : op.isProduct = true) (f : Fields) : op.accepts f = ([3], [0, 2], [0, 2]) := by
  cases op <;> cases h <;> rfl

theorem KOp.effect_product {op : KOp} (h : op.isProduct = true) (w : Work) (c : CtxId) (x : InFlight) (ev : MemEvent) :
    op.effect w c x ev = effProduct w c x ev := by
  cases op <;> cases h <;> rfl

theorem KOp.queue_product {op : KOp} (h : op.isProduct = true) : op.queue ≠ .C := by
  cases op <;> cases h <;> decide

theorem KOp.actsAtStart_product {op : KOp} (h : op.isProduct = true) : op.actsAtStart = false := by
  cases op <;> cases h <;> rfl

theorem Work.capture_srcTile {w : Work} {c : CtxId} {op : KOp} {f : Fields} (hp : op.isProduct = true) (hf : (w.ctx c).operandFault op f = none)
    (fmt : Nat) (axis : Bool) :
    w.srcTile c f.a (w.capture c op f).va fmt axis = w.srcTile c f.a ((w.ctx c).getS (fieldNum f.a)) fmt axis ∧
      w.srcTile c f.b (w.capture c op f).vb fmt axis = w.srcTile c f.b ((w.ctx c).getS (fieldNum f.b)) fmt axis := by
  obtain ⟨-, ha, hb⟩ := Ctx.fieldFaults_of_operandFault hf
  rw [KOp.accepts_product hp] at ha hb
  exact ⟨w.srcTile_captured c (by simpa using Ctx.class_of_fieldFault ha (by simp)) fmt axis,
    w.srcTile_captured c (by simpa using Ctx.class_of_fieldFault hb (by simp)) fmt axis⟩

/-- A product whose sources and binding are there (R120, R158-R161). -/
theorem effProduct_done {w : Work} {c : CtxId} {x : InFlight} {ev : MemEvent} {a b : TileVal} {e : ScaleEntry}
    (ha : w.srcTile c x.f.a x.va x.op.fmts.1 false = .ok a) (hb : w.srcTile c x.f.b x.vb x.op.fmts.2 x.op.shape.colB = .ok b)
    (he : w.bound c (w.acc c (fieldNum x.f.d)).binding = .ok e) (hev : evUe (evHere ev) = false)
    (nar : (w.ctx c).decl.nanTrap = false ∨ (a.hasNar = false ∧ b.hasNar = false)) :
    effProduct w c x ev = .done { w.setAcc c (fieldNum x.f.d) ((w.acc c (fieldNum x.f.d)).addProduct (x.op.shape.left a) (x.op.shape.right b)
      e.fmt.toNat (e.exps x.prev (bindTile (w.acc c (fieldNum x.f.d)).binding)) w.fresh) with fresh := w.fresh + 4096 } := by
  have untrapped : ¬((w.ctx c).decl.nanTrap && (a.hasNar || b.hasNar)) = true := by
    rcases nar with h | ⟨h1, h2⟩
    · simp [h]
    · simp [h1, h2]
  unfold effProduct
  dsimp only
  rw [ha, hb, he, withOp, withOp, withBound, withSram, if_neg (by rw [hev]; decide)]
  exact if_neg untrapped

/-- The accumulator tile that a product leaves (R120, R158-R161). -/
def Work.producedAcc (w : Work) (c : CtxId) (op : KOp) (f : Fields) (a b : TileVal) (e : ScaleEntry) : Acc :=
  let acc := w.acc c (fieldNum f.d)
  acc.addProduct (op.shape.left a) (op.shape.right b) e.fmt.toNat (e.exps (w.prevWork c) (bindTile acc.binding)) w.fresh

section
variable {s : State} {c : CtxId} (hr : s.w.ready c) (ev : MemEvent) {f : Fields} {op : KOp} (hp : op.isProduct = true)
include hr hp

/-- What a product has done (R120). -/
theorem product_done {i : Instr} (hi : exec i s = .next (s.onW fun w => w.issue c op f (.start ev))) {a b : TileVal} {e : ScaleEntry}
    (hf : (s.w.ctx c).operandFault op f = none) (ha : s.w.srcTile c f.a ((s.w.ctx c).getS (fieldNum f.a)) op.fmts.1 false = .ok a)
    (hb : s.w.srcTile c f.b ((s.w.ctx c).getS (fieldNum f.b)) op.fmts.2 op.shape.colB = .ok b)
    (he : s.w.bound c (s.w.acc c (fieldNum f.d)).binding = .ok e)
    (nar : (s.w.ctx c).decl.nanTrap = false ∨ (a.hasNar = false ∧ b.hasNar = false)) (hev : evUe (evHere ev) = false) :
    EngineDone s (exec i s) c f (s.w.ctx c) fun t =>
      t.w = { s.w with ctxs := t.w.ctxs, cores := t.w.cores, nextId := s.w.nextId + 1, fresh := s.w.fresh + 4096 } ∧
        t.w.core c = { (s.w.core c).tookOp c op with accs := (t.w.core c).accs } ∧
        (∀ n, n ≠ fieldNum f.d → t.w.acc c n = s.w.acc c n) ∧ t.w.acc c (fieldNum f.d) = s.w.producedAcc c op f a b e := by
  have engine := KOp.queue_product hp
  have effect (w1 : Work) (t : s.w.Takes c (s.w.startInstr c op f) w1) : op.effect w1 c (s.w.startInstr c op f) ev =
      .done { w1.setAcc c (fieldNum f.d) (s.w.producedAcc c op f a b e) with fresh := s.w.fresh + 4096 } := by
    have sources := fun fmt axis => Work.capture_srcTile hp hf fmt axis
    have done := effProduct_done (w := w1) (x := s.w.startInstr c op f) (ev := ev) ((t.srcTile ..).trans ((sources ..).1.trans ha))
      ((t.srcTile ..).trans ((sources ..).2.trans hb)) (by rw [t.acc, t.bound]; exact he) hev (by rw [t.decl]; exact nar)
    rw [t.acc, t.fresh] at done
    exact (KOp.effect_product hp ..).trans done
  rw [hi]
  refine engineDone_of_completed (completed_of_start hr hf engine (KOp.actsAtStart_product hp) effect) rfl engine (Work.ready_infl hr)
    (fun _ t => t.ctx) (fun _ _ _ => rfl) (fun w1 _ => w1.core_setAcc_other _ _) fun w1 t => ?_
  refine ⟨?_, t.setAcc_core engine (fieldNum f.d) (s.w.producedAcc c op f a b e)⟩
  show Work.retire { w1.setAcc c _ _ with fresh := _ } c _ _ = _
  rw [Work.retire_eq, t.1]
  rfl

end

/-- Settles O11: the three shapes differ in the order in which they read their sources, which `Shape.left` and `Shape.right` say. -/
theorem matrixProductResults : Obligations.MatrixProductResults := by
  intro c f ev s hr k d acc goes mmf mmbx mmbw
  refine ⟨?_, ?_, ?_, ?_, ?_, ?_, ?_, ?_, ?_, ?_, ?_, ?_⟩ <;> intro a b e hf ha hb he nar hev <;>
    exact product_done hr ev rfl rfl hf ha hb he nar hev

end Sys2Proof.Machine
end

section
/-! The accumulator tile under `acc.zero`, `acc.max` and `acc.min` (R115, R124, R125, R156). -/

namespace Sys2Proof

/-! A table made of a list's entries lists them again. -/

theorem Tbl.le_of_mem_ofListFrom {α : Type} [DecidableEq α] {d : α} {l : List α} {k : Nat} {p : Nat × α} (h : p ∈ Tbl.ofListFrom d k l) :
    k ≤ p.1 := by
  induction l generalizing k with
  | nil => cases h
  | cons v l ih =>
    unfold Tbl.ofListFrom at h
    split at h
    next => exact Nat.le_of_succ_le (ih h)
    next =>
      rcases List.mem_cons.1 h with rfl | h
      · exact Nat.le_refl k
      · exact Nat.le_of_succ_le (ih h)

/-- A key below all of a table's has the default. -/
theorem Tbl.denseFrom_succ_of_lt {α : Type} (d : α) (n : Nat) {k : Nat} {t : Tbl α} (h : ∀ p, p ∈ t → k < p.1) :
    Tbl.denseFrom d (n + 1) k t = d :: Tbl.denseFrom d n (k + 1) t := by
  cases t with
  | nil => rfl
  | cons p t => exact if_neg (Nat.ne_of_gt (h p (List.mem_cons_self ..)))

theorem Tbl.denseFrom_ofListFrom {α : Type} [DecidableEq α] (d : α) (l : List α) (k : Nat) :
    Tbl.denseFrom d l.length k (Tbl.ofListFrom d k l) = l := by
  induction l generalizing k with
  | nil => rfl
  | cons v l ih =>
    unfold Tbl.ofListFrom
    split
    next hv =>
      rw [List.length_cons, Tbl.denseFrom_succ_of_lt d _ fun p hp => Tbl.le_of_mem_ofListFrom hp, ih, hv]
    next => exact (if_pos rfl).trans (congrArg (v :: ·) (ih (k + 1)))

end Sys2Proof

namespace Sys2Proof.Machine

/-- The elements of a tile that `acc.zero` has filled (R125, R156). -/
theorem Acc.list_init (code : Nat) (binding : Word) :
    (Acc.init code binding).list = List.replicate 4096
      (if code = 1 then xMake (-vLimit) 0xFFF else if code = 2 then xMake vLimit 0xFFF else 0) := by
  have := Tbl.denseFrom_ofListFrom (0 : BitVec 48) (List.replicate 4096
    (if code = 1 then xMake (-vLimit) 0xFFF else if code = 2 then xMake vLimit 0xFFF else 0)) 0
  rwa [List.length_replicate] at this

theorem Work.Takes.extSource {w w1 : Work} {c : CtxId} {x : InFlight} (t : w.Takes c x w1) (y : InFlight) (fmt : Nat) (axis : Bool) :
    w1.extSource c y fmt axis = w.extSource c y fmt axis := by
  unfold Work.extSource
  simp only [t.tile, t.tileSpans, t.spanRead]

/-- The source of `acc.max` and `acc.min` (R124): a tile register, or the tile in memory that sA names. -/
theorem Work.extSource_capture {w : Work} {c : CtxId} {op : KOp} {f : Fields} {fmt : Nat} {axis : Bool} {src : TileVal}
    (hf : (w.ctx c).operandFault op f = none) (hacc : (op.accepts f).2.1 = [0, 2])
    (reg : fieldClass f.a = 2 → src = (w.tile c (fieldNum f.a)).val)
    (mem : fieldClass f.a ≠ 2 → ∃ m x, (w.ctx c).tileSpans ((w.ctx c).getS (fieldNum f.a)) fmt = .ok (m, x) ∧
      src = tileOfBytes fmt axis (w.spanRead c m (tileBytes fmt)) (w.spanRead c x 128)) :
    w.extSource c (w.capture c op f).start fmt axis = .ok src := by
  obtain ⟨-, ha, -⟩ := Ctx.fieldFaults_of_operandFault hf
  rw [hacc] at ha
  have kinds : fieldClass f.a = 0 ∨ fieldClass f.a = 2 := by simpa using Ctx.class_of_fieldFault ha (by simp)
  rcases kinds with scalar | tile
  · have other : fieldClass f.a ≠ 2 := by rw [scalar]; decide
    obtain ⟨m, x, spans, rfl⟩ := mem other
    have handle : (w.capture c op f).start.va = (w.ctx c).getS (fieldNum f.a) := Ctx.captured_scalar _ scalar
    unfold Work.extSource
    rw [handle, spans]
    exact if_neg other
  · rw [reg tile]
    exact if_pos tile

/-- `acc.zero` whose new binding, if any, has an entry (R125, R156). -/
theorem effAccZero_done {w : Work} {c : CtxId} {x : InFlight} {b : Word} {e : ScaleEntry}
    (h : x.f.mod.toNat % 4 = 3 ∨ (x.va = b ∧ w.bound c b = .ok e)) :
    effAccZero w c x = .done (w.setAcc c (fieldNum x.f.d) (.init (x.f.mod.toNat % 4)
      (if x.f.mod.toNat % 4 = 3 then (w.acc c (fieldNum x.f.d)).binding else b))) := by
  have code : modBits x.f 0 2 = x.f.mod.toNat % 4 := by simp [modBits, bitsOf]
  unfold effAccZero
  simp only [code]
  by_cases kept : x.f.mod.toNat % 4 = 3
  · rw [if_pos kept, if_pos kept, kept]
  · obtain ⟨rfl, found⟩ := h.resolve_left kept
    rw [if_neg kept, if_neg kept, found, withBound]

/-- `acc.max` and `acc.min` whose source and binding are there (R124). -/
theorem effExtremum_done {w : Work} {c : CtxId} {x : InFlight} {e : ScaleEntry} {src : TileVal} (min : Bool)
    (he : w.bound c (w.acc c (fieldNum x.f.d)).binding = .ok e)
    (hs : w.extSource c x e.fmt.toNat (bindAxis (w.acc c (fieldNum x.f.d)).binding) = .ok src)
    (nar : (w.ctx c).decl.nanTrap = false ∨ src.hasNar = false) :
    effExtremum w c x min = .done (w.setAcc c (fieldNum x.f.d) ((w.acc c (fieldNum x.f.d)).addExtremum min (modBit x.f 0) (x.f.imm.toNat % 4096)
      src e.fmt.toNat (e.exps x.prev (bindTile (w.acc c (fieldNum x.f.d)).binding)))) := by
  have untrapped : ¬((w.ctx c).decl.nanTrap && src.hasNar) = true := by
    rcases nar with h | h <;> simp [h]
  unfold effExtremum
  dsimp only
  rw [he, withBound, hs, withOp]
  exact if_neg untrapped

/-- The tile that `acc.zero` leaves (R125). -/
def Work.zeroedAcc (w : Work) (c : CtxId) (f : Fields) : Acc :=
  .init (f.mod.toNat % 4) (if f.mod.toNat % 4 = 3 then (w.acc c (fieldNum f.d)).binding else (w.ctx c).getS (fieldNum f.a))

/-- The tile that `acc.max` and `acc.min` leave (R124). -/
def Work.extremeAcc (w : Work) (c : CtxId) (f : Fields) (min : Bool) (src : TileVal) (e : ScaleEntry) : Acc :=
  let acc := w.acc c (fieldNum f.d)
  acc.addExtremum min (modBit f 0) (f.imm.toNat % 4096) src e.fmt.toNat (e.exps (w.prevWork c) (bindTile acc.binding))

/-- An instruction of a matrix group has left `a` in the accumulator tile of D and changed no other. -/
def AccDone (s : State) (o : Host.Outcome State Fault Refusal) (c : CtxId) (f : Fields) (op : KOp) (a : Acc) : Prop :=
  EngineDone s o c f (s.w.ctx c) fun t => CoreOnly s t c { (s.w.core c).took c op.queue with accs := (t.w.core c).accs } ∧
    (∀ n, n ≠ fieldNum f.d → t.w.acc c n = s.w.acc c n) ∧ t.w.acc c (fieldNum f.d) = a

section
variable {s : State} {c : CtxId} (hr : s.w.ready c) {ev : MemEvent} {f : Fields} {op : KOp} {i : Instr}
  (hi : exec i s = .next (s.onW fun w => w.issue c op f (.start ev))) (hf : (s.w.ctx c).operandFault op f = none)
  (hq : op.queue ≠ .C) (ha : op.actsAtStart = false) (hp : op.isProduct = false)
include hr hi hf hq ha hp

theorem accDone_of {a : Acc} (he : ∀ w1, s.w.Takes c (s.w.capture c op f).start w1 →
    op.effect w1 c (s.w.capture c op f).start ev = .done (w1.setAcc c (fieldNum f.d) a)) : AccDone s (exec i s) c f op a := by
  rw [hi]
  refine engineDone_of hr hf hq ha hp he (fun _ _ => rfl) (fun w1 _ => w1.core_setAcc_other _ _) fun w1 t => ?_
  obtain ⟨core, rest⟩ := t.setAcc_core hq (fieldNum f.d) a
  have took : (s.w.core c).tookOp c op = (s.w.core c).took c op.queue := by rw [Core.tookOp, hp]; rfl
  refine ⟨⟨?_, core.trans (took ▸ rfl)⟩, rest⟩
  show Work.retire (w1.setAcc c _ _) c _ _ = _
  rw [Work.retire_eq, t.1]
  rfl

/-- What `acc.zero` has done (R125, R156). -/
theorem accZero_done (heff : ∀ w1 x, op.effect w1 c x ev = effAccZero w1 c x)
    (hacc : op.accepts f = ([3], if f.mod.toNat % 4 = 3 then [] else [0], [])) {e : ScaleEntry}
    (bound : f.mod.toNat % 4 = 3 ∨ s.w.bound c ((s.w.ctx c).getS (fieldNum f.a)) = .ok e) :
    AccDone s (exec i s) c f op (s.w.zeroedAcc c f) := by
  refine accDone_of hr hi hf hq ha hp fun w1 t => (heff ..).trans ?_
  have value (other : ¬f.mod.toNat % 4 = 3) : (s.w.capture c op f).start.va = (s.w.ctx c).getS (fieldNum f.a) :=
    Work.capture_va_of hf (by rw [hacc]; exact if_neg other)
  have done := effAccZero_done (w := w1) (c := c) (x := (s.w.capture c op f).start) (b := (s.w.ctx c).getS (fieldNum f.a)) (e := e)
    ((em _).imp_right fun other => ⟨value other, (t.bound _).trans (bound.resolve_left other)⟩)
  rwa [t.acc] at done

/-- What `acc.max` and `acc.min` have done (R124). -/
theorem extremum_done {min : Bool} (heff : ∀ w1 x, op.effect w1 c x ev = effExtremum w1 c x min) {e : ScaleEntry} {src : TileVal}
    (he : s.w.bound c (s.w.acc c (fieldNum f.d)).binding = .ok e)
    (hs : s.w.extSource c (s.w.capture c op f).start e.fmt.toNat (bindAxis (s.w.acc c (fieldNum f.d)).binding) = .ok src)
    (nar : (s.w.ctx c).decl.nanTrap = false ∨ src.hasNar = false) : AccDone s (exec i s) c f op (s.w.extremeAcc c f min src e) := by
  refine accDone_of hr hi hf hq ha hp fun w1 t => (heff ..).trans ?_
  have done := effExtremum_done (w := w1) (x := (s.w.capture c op f).start) (e := e) (src := src) min (by rw [t.acc, t.bound]; exact he)
    (by rw [t.acc, t.extSource]; exact hs) (by rw [t.decl]; exact nar)
  rwa [t.acc] at done

end

/-- The tile that `acc.zero` leaves, part by part (R125, R156). -/
theorem Work.zeroedAcc_parts (w : Work) (c : CtxId) (f : Fields) :
    let code := f.mod.toNat % 4
    (w.zeroedAcc c f).list =
        List.replicate 4096 (if code = 1 then xMake (-(2 ^ 35 - 1)) 0xFFF else if code = 2 then xMake (2 ^ 35 - 1) 0xFFF else 0) ∧
      (w.zeroedAcc c f).binding = (if code = 3 then (w.acc c (fieldNum f.d)).binding else (w.ctx c).getS (fieldNum f.a)) ∧
      (w.zeroedAcc c f).extremum = decide (code = 1 ∨ code = 2) ∧
      (w.zeroedAcc c f).pend = 0 ∧ (w.zeroedAcc c f).count = 0 ∧ (w.zeroedAcc c f).deep = false := by
  refine ⟨Acc.list_init .., rfl, ?_, rfl, rfl, rfl⟩
  show (f.mod.toNat % 4 == 1 || f.mod.toNat % 4 == 2) = _
  rw [Bool.decide_or]
  rfl

/-- Settles O13: `acc.zero` on either group, then the two extremum forms on either group. -/
theorem accumulatorResults : Obligations.AccumulatorResults := by
  intro c f ev s hr k d acc sa code done zero ext
  have filled {op : KOp} {i : Instr} (h : AccDone s (exec i s) c f op (s.w.zeroedAcc c f)) := EngineDone.imp h fun t ⟨core, others, same⟩ =>
    show _ ∧ _ ∧ _ from ⟨core, others, same ▸ s.w.zeroedAcc_parts c f⟩
  refine ⟨fun e hf bound => filled ?_, fun e hf bound => filled ?_, fun e src hf he reg mem nar => ?_, fun e src hf he reg mem nar => ?_,
    fun e src hf he reg mem nar => ?_, fun e src hf he reg mem nar => ?_⟩
  case refine_1 | refine_2 => exact accZero_done hr rfl hf (by decide) rfl rfl (fun _ _ => rfl) rfl bound
  all_goals exact extremum_done hr rfl hf (by decide) rfl rfl (fun _ _ => rfl) he (Work.extSource_capture hf rfl reg mem) nar

end Sys2Proof.Machine
end

section
/-! The Peat push and pop (R131, R132, R192-R194, R207, R219). -/

namespace Sys2Proof.Machine

/-! The Peat of a slice (R192). -/

theorem Work.slice_updPeat (w : Work) (n : Nat) (g : Peat → Peat) (m : Nat) :
    (w.updPeat n g).slice m = if m = n then { w.slice n with peat := g (w.peat n) } else w.slice m := by
  unfold Work.updPeat
  by_cases hm : m = n
  · subst hm
    rw [if_pos rfl, Work.slice_updSlice_same]
    rfl
  · rw [if_neg hm, Work.slice_updSlice_other _ _ hm]

theorem Work.slice_updPeat_updPeat (w : Work) (n : Nat) (g h : Peat → Peat) (m : Nat) :
    ((w.updPeat n g).updPeat n h).slice m = if m = n then { w.slice n with peat := h (g (w.peat n)) } else w.slice m := by
  have once : (w.updPeat n g).slice n = { w.slice n with peat := g (w.peat n) } := (w.slice_updPeat ..).trans (if_pos rfl)
  rw [Work.slice_updPeat, Work.peat, once]
  split
  next => rfl
  next hm => rw [Work.slice_updPeat, if_neg hm]

theorem Work.Takes.peat {w w1 : Work} {c : CtxId} {x : InFlight} (t : w.Takes c x w1) (n : Nat) : w1.peat n = w.peat n := by
  unfold Work.peat
  rw [t.slice]

theorem Work.Takes.pushDomain {w w1 : Work} {c : CtxId} {x : InFlight} (t : w.Takes c x w1) (q : Fin 8) (p : PeatSec) (step : Nat)
    (mb : BitVec 16) : w1.pushDomain q p step mb = w.pushDomain q p step mb := by
  unfold Work.pushDomain
  simp only [t.peek]

/-! A push (R192, R193, R198). -/

/-- The entry that a push makes of the bytes of its range (R192, R193). -/
def Work.pushedEntry (w : Work) (c : CtxId) (x : InFlight) (sp : Span) : PeatEntry :=
  let size := x.f.imm.toNat + 1
  { tag := x.vd, size, bytes := w.spanRead c sp (size * 512), place := .resident, poison := false
    units := (w.peat c.slice.val).takeUnits (tagLane x.vd) size
    dom := ((w.jobOf c).bind Job.peat).elim 0 fun z => w.pushDomain (w.ctx c).part z x.step (tagMb x.vd) }

theorem Work.Takes.pushedEntry {w w1 : Work} {c : CtxId} {x : InFlight} (t : w.Takes c x w1) (y : InFlight) (sp : Span) :
    w1.pushedEntry c y sp = w.pushedEntry c y sp := by
  unfold Work.pushedEntry
  simp only [t.spanRead, t.peat, t.jobOf, t.part, t.pushDomain]

/-- A push with its work's version, in a lane and a Peat with room (R193). -/
theorem effPeatPush_done {w : Work} {c : CtxId} {x : InFlight} {ev : MemEvent} {sp : Span}
    (hs : (w.ctx c).range x.va ((x.f.imm.toNat + 1) * 512) = .ok sp) (version : tagVersion x.vd = (w.ctx c).workVersion)
    (room : ((w.peat c.slice.val).lane (tagLane x.vd)).length < 32768) (free : x.f.imm.toNat + 1 ≤ (w.peat c.slice.val).free)
    (hev : evUe (evHere ev) = false) :
    effPeatPush w c x ev =
      .done (w.updPeat c.slice.val fun p => p.setLane (tagLane x.vd) (w.pushedEntry c x sp :: p.lane (tagLane x.vd))) := by
  unfold effPeatPush
  dsimp only
  rw [withSram, if_neg (by rw [hev]; decide), hs, withOp, if_neg (not_not.2 version), if_neg (Nat.not_le.2 room), if_neg (Nat.not_lt.2 free)]
  unfold Work.pushedEntry
  cases (w.jobOf c).bind Job.peat <;> rfl

/-! A pop (R194, R207, R219). -/

/-- Whether a pop of a version counts as late (R207): it is not the current one. -/
def Work.popsLate (w : Work) (c : CtxId) (v : Bool) : Bool := (w.jobOf c).any fun j => v != j.buf

/-- What a pop leaves while the bytes are copied (R194, R207). -/
def Work.popped (w : Work) (c : CtxId) (q : Fin 8) (e : PeatEntry) (rest : List PeatEntry) (id : Nat) (late : Bool) : Work :=
  let n := c.slice.val
  let w1 := w.updPeat n fun p => (p.setLane (tagLane e.tag) rest).releasePages
  let w2 := w1.updCtx c fun k => { k with version := some (tagVersion e.tag) }
  let w3 := w2.updPeat n fun p => { p with copies := p.copies ++ [⟨c, id, e.size, e.bytes, e.units⟩] }
  if late then w3.updPart q fun y => { y with latePops := satAdd y.latePops 1 } else w3

/-- A pop of the newest, resident entry of its lane (R194). -/
theorem effPeatPop_stands {w : Work} {c : CtxId} {x : InFlight} {e : PeatEntry} {rest : List PeatEntry} {sp : Span}
    (top : (w.peat c.slice.val).lane (tagLane x.va) = e :: rest) (tag : e.tag = x.va) (resident : e.place = .resident)
    (sound : e.poison = false) (hs : (w.ctx c).range x.vd (e.size * 512) = .ok sp) :
    effPeatPop w c x .ok = .stand (w.popped c (w.ctx c).part e rest x.id (w.popsLate c (tagVersion e.tag))) .copying := by
  unfold effPeatPop
  dsimp only
  rw [top]
  dsimp only
  rw [if_neg (not_not.2 tag), if_neg (by simp [PeatEntry.resident, resident]), hs, withOp, if_neg (by simp [sound, evUe])]
  have late : (match w.jobOf c with | some j => decide (tagVersion e.tag ≠ j.buf) | none => false) = w.popsLate c (tagVersion e.tag) := by
    unfold Work.popsLate
    cases w.jobOf c with
    | none => rfl
    | some j => exact decide_not
  rewrite [← late, Work.popped, tag]
  rfl

section
variable (w : Work) (c : CtxId) (q : Fin 8) (e : PeatEntry) (rest : List PeatEntry) (id : Nat) (late : Bool)

theorem Work.popped_eq : w.popped c q e rest id late =
    { w with
      ctxs := (w.popped c q e rest id late).ctxs
      slices := (w.popped c q e rest id late).slices
      parts := (if late then w.updPart q fun y => { y with latePops := satAdd y.latePops 1 } else w).parts } := by
  cases late <;> rfl

theorem Work.popped_ctx (d : CtxId) :
    (w.popped c q e rest id late).ctx d = (w.updCtx c fun k => { k with version := some (tagVersion e.tag) }).ctx d := by
  cases late <;> rfl

theorem Work.popped_core (d : CtxId) : (w.popped c q e rest id late).core d = w.core d := by
  cases late <;> rfl

theorem Work.popped_slice (m : Nat) :
    let p := ((w.peat c.slice.val).setLane (tagLane e.tag) rest).releasePages
    (w.popped c q e rest id late).slice m = if m = c.slice.val then
      { w.slice c.slice.val with peat := { p with copies := p.copies ++ [⟨c, id, e.size, e.bytes, e.units⟩] } } else w.slice m := by
  intro p
  have twice : (w.popped c q e rest id late).slice m = ((w.updPeat c.slice.val fun p => (p.setLane (tagLane e.tag) rest).releasePages).updPeat
      c.slice.val fun p => { p with copies := p.copies ++ [⟨c, id, e.size, e.bytes, e.units⟩] }).slice m := by
    cases late <;> rfl
  rw [twice, Work.slice_updPeat_updPeat]

end

/-- What a pop leaves of the state in which it acts is what it leaves of the state before, with the instruction dispatched. -/
theorem Work.Takes.popped {w w1 : Work} {c : CtxId} {x : InFlight} (t : w.Takes c x w1) (q : Fin 8) (e : PeatEntry)
    (rest : List PeatEntry) (id : Nat) (late : Bool) : (w.popped c q e rest id late).Takes c x (w1.popped c q e rest id late) := by
  obtain ⟨only, ctxs, cores, ctx, core⟩ := t
  refine ⟨?_, fun d hd => ?_, fun d hd => ?_, ?_, ?_⟩
  · have moved := congrArg (fun v : Work => { v.popped c q e rest id late with
      ctxs := (w1.popped c q e rest id late).ctxs, cores := (w1.popped c q e rest id late).cores }) only
    refine moved.trans ?_
    cases late <;> rfl
  · rw [Work.popped_ctx, Work.popped_ctx, Work.ctx_updCtx_other _ _ hd, Work.ctx_updCtx_other _ _ hd, ctxs d hd]
  · rw [Work.popped_core, Work.popped_core, cores d hd]
  · rw [Work.popped_ctx, Work.popped_ctx, Work.ctx_updCtx_same, Work.ctx_updCtx_same, ctx]
  · rw [Work.popped_core, Work.popped_core, core]

/-! The two instructions. -/

section
variable {s : State} {c : CtxId} (hr : s.w.ready c) {f : Fields}
include hr

/-- What a push has done (R192, R193). -/
theorem peatPush_done {ev : MemEvent} {sp : Span} (hf : (s.w.ctx c).operandFault .peatPush f = none)
    (hs : (s.w.ctx c).range (s.w.capture c .peatPush f).va ((f.imm.toNat + 1) * 512) = .ok sp)
    (version : tagVersion (s.w.capture c .peatPush f).vd = (s.w.ctx c).workVersion)
    (room : ((s.w.peat c.slice.val).lane (tagLane (s.w.capture c .peatPush f).vd)).length < 32768)
    (free : f.imm.toNat + 1 ≤ (s.w.peat c.slice.val).free) (hev : evUe (evHere ev) = false) :
    let x := s.w.capture c .peatPush f
    let p := s.w.peat c.slice.val
    EngineDone s (exec (.peatPush c f (.start ev)) s) c f (s.w.ctx c) fun t =>
      t.w = { s.w with ctxs := t.w.ctxs, cores := t.w.cores, slices := t.w.slices, nextId := s.w.nextId + 1 } ∧
        t.w.core c = (s.w.core c).took c .M ∧
        ∀ m, t.w.slice m = if m = c.slice.val then
          { s.w.slice c.slice.val with peat := p.setLane (tagLane x.vd) (s.w.pushedEntry c x sp :: p.lane (tagLane x.vd)) } else s.w.slice m := by
  intro x p
  have engine : KOp.peatPush.queue ≠ .C := by decide
  have effect (w1 : Work) (t : s.w.Takes c x w1) : KOp.peatPush.effect w1 c x ev =
      .done (w1.updPeat c.slice.val fun p => p.setLane (tagLane x.vd) (s.w.pushedEntry c x sp :: p.lane (tagLane x.vd))) := by
    have done := effPeatPush_done (w := w1) (c := c) (x := x) (sp := sp) (ev := ev) ((t.range ..).trans hs) (by rw [t.ctx]; exact version)
      (by rw [t.peat]; exact room) (by rw [t.peat]; exact free) hev
    rwa [t.pushedEntry] at done
  refine engineDone_of_completed (completed_at_start hr hf engine (by decide) effect) rfl engine (Work.ready_infl hr) (fun _ t => t.ctx)
    (fun _ _ _ => rfl) (fun _ _ _ => rfl) fun w1 t => ⟨?_, ?_, fun m => ?_⟩
  · show Work.retire (w1.updPeat _ _) c _ _ = _
    rw [Work.retire_eq, t.1]
    rfl
  · exact t.2.2.2.2
  · rw [Work.slice_retire, Work.slice_updPeat, t.slice, t.slice, t.peat]

/-- What a pop has done, with the bytes on their way (R194, R207). -/
theorem peatPop_done {e : PeatEntry} {rest : List PeatEntry} {sp : Span} {sa : Word} (hf : (s.w.ctx c).operandFault .peatPop f = none)
    (va : (s.w.capture c .peatPop f).va = sa)
    (top : (s.w.peat c.slice.val).lane (tagLane sa) = e :: rest) (tag : e.tag = sa)
    (resident : e.place = .resident) (sound : e.poison = false)
    (hs : (s.w.ctx c).range (s.w.capture c .peatPop f).vd (e.size * 512) = .ok sp) :
    let x := s.w.capture c .peatPop f
    let units := [unitId 1 c.slice.val (tagLane sa).toNat, unitId 1 c.slice.val 0xFF]
    ∃ t, exec (.peatPop c f (.start .ok)) s = .next t ∧ t.ctl = s.ctl ∧ t.pending = s.pending ∧
      (s.w.popped c (s.w.ctx c).part e rest s.w.nextId (s.w.popsLate c (tagVersion e.tag))).Takes c
        { x with stat := .copying, sentTo := units.map fun u => (u, s.w.epochs.get 0 u.toNat) } t.w := by
  subst va
  intro x units
  obtain ⟨w1, t, ho⟩ := stands_at_start (ev := .ok) (st := .copying)
    (E := fun w1 => w1.popped c (s.w.ctx c).part e rest s.w.nextId (s.w.popsLate c (tagVersion e.tag))) hr hf (by decide) (by decide)
    (by decide) (by decide) fun w1 t => by
      have stands := effPeatPop_stands (w := w1) (x := x) (sp := sp) (by rw [t.peat]; exact top) tag resident sound ((t.range ..).trans hs)
      rw [t.part, Work.popsLate, t.jobOf] at stands
      exact stands
  have sent := ((t.popped (s.w.ctx c).part e rest s.w.nextId (s.w.popsLate c (tagVersion e.tag))).setStat .copying).noteSent (y := x) rfl
  have epochs : (w1.popped c (s.w.ctx c).part e rest s.w.nextId (s.w.popsLate c (tagVersion e.tag))).epochs = s.w.epochs := by
    rw [Work.popped_eq, t.1]
  refine ⟨_, ho, rfl, rfl, ?_⟩
  rw [← epochs]
  exact sent

end

/-- Settles O17: a push is done at its start; a pop stands, and what it leaves is read off the state that it pops from. -/
theorem peatInstructionResults : Obligations.PeatInstructionResults := by
  intro c f s hr k n p sd sa lane changed
  refine ⟨?push, fun e rest hf top tag resident sound fits => ?pop⟩
  case push =>
    intro ev size hf fits version room free hev
    have vd : (s.w.capture c .peatPush f).vd = sd := Work.capture_vd_of hf rfl
    have va : (s.w.capture c .peatPush f).va = sa := Work.capture_va_of hf rfl
    have done := peatPush_done hr (ev := ev) hf (by rw [va]; exact Ctx.range_of_fits fits) (by rw [vd]; exact version) (by rw [vd]; exact room)
      free hev
    refine done.imp fun t ⟨only, core, slices⟩ => ⟨only, core, fun m => ?_⟩
    rw [slices, Work.pushedEntry, Work.spanRead_range, vd]
    cases (s.w.jobOf c).bind Job.peat <;> rfl
  case pop =>
    have vd : (s.w.capture c .peatPop f).vd = sd := Work.capture_vd_of hf rfl
    have va : (s.w.capture c .peatPop f).va = sa := Work.capture_va_of hf rfl
    obtain ⟨t, ho, hctl, hpending, taken⟩ := peatPop_done hr hf va top tag resident sound
      (by rw [vd]; exact Ctx.range_of_fits fits)
    obtain ⟨only, ctxs, cores, ctx, core⟩ := id taken
    refine ⟨t, ho, ⟨hctl, hpending, fun d hd => ?_, fun d hd => ?_⟩, ?_, ?_⟩
    · rw [ctxs d hd, Work.popped_ctx, Work.ctx_updCtx_other _ _ hd]
    · rw [cores d hd, Work.popped_core]
    · rw [ctx, Work.popped_ctx, Work.ctx_updCtx_same, tag]
      rfl
    · intro late p1
      have counted : s.w.popsLate c (tagVersion e.tag) = late := by
        rw [tag]
        unfold Work.popsLate late
        cases s.w.jobOf c <;> rfl
      rw [counted] at only taken core
      refine ⟨?_, ?_, fun m => ?_⟩
      · have slices : t.w.slices = (s.w.popped c k.part e rest s.w.nextId late).slices := (congrArg Work.slices only).trans rfl
        refine only.trans ?_
        rw [slices]
        cases late <;> rfl
      · rw [core, Work.popped_core]
        rfl
      · rw [taken.slice, Work.popped_slice, tag]
        rfl

end Sys2Proof.Machine
end

section
/-! One accumulator element under a product and under `acc.max` or `acc.min` (R124, R155-R161, R167-R169). -/

namespace Sys2Proof

theorem Tbl.length_denseFrom {α : Type} (d : α) (n k : Nat) (t : Tbl α) : (Tbl.denseFrom d n k t).length = n := by
  induction n generalizing k t with
  | zero => rfl
  | succ n ih =>
    cases t with
    | nil => exact congrArg (· + 1) (ih ..)
    | cons p t =>
      unfold Tbl.denseFrom
      split <;> exact congrArg (· + 1) (ih ..)

end Sys2Proof

namespace Sys2Proof.Machine

/-! Numbers as 48-bit elements (R155). -/

theorem toInt_ofInt_48 {z : Int} (lo : -2 ^ 47 ≤ z) (hi : z < 2 ^ 47) : (BitVec.ofInt 48 z).toInt = z := by
  rw [BitVec.toInt_ofInt]
  exact Int.bmod_eq_of_le (by omega) (by omega)

theorem xValue_xMake {v : Int} {f : Nat} (lo : narValue ≤ v) (hi : v ≤ vLimit) (hf : f < 4096) : xValue (xMake v f) = v := by
  unfold narValue at lo
  unfold vLimit at hi
  unfold xValue xMake
  rw [toInt_ofInt_48 (by omega) (by omega)]
  omega

theorem xField_xMake (v : Int) {f : Nat} (hf : f < 4096) : xField (xMake v f) = f := by
  unfold xField xMake
  rw [BitVec.toNat_ofInt]
  omega

theorem xNar_xMake_nar {f : Nat} (hf : f < 4096) : xNar (xMake narValue f) = true :=
  decide_eq_true (xValue_xMake (Int.le_refl _) (by decide) hf)

/-! The two clamps (R158, R159, R167). -/

theorem clampX_eq (z : Int) : (clampX z).1 = max (-(2 ^ 47 - 4096)) (min (2 ^ 47 - 1) z) := by
  unfold clampX xMax xMin
  split
  · dsimp only; omega
  · split <;> dsimp only <;> omega

theorem clampMag_eq {lim : Int} (h : 0 ≤ lim) (z : Int) : (clampMag lim z).1 = max (-lim) (min lim z) := by
  unfold clampMag
  split
  · dsimp only; omega
  · split <;> dsimp only <;> omega

/-! The elements of a tile after an instruction that rewrites each by its place. -/

@[simp] theorem Acc.length_list (a : Acc) : a.list.length = 4096 := Tbl.length_denseFrom ..

theorem Acc.list_of_elems {a : Acc} {l : List (BitVec 48)} (elems : a.elems = Tbl.ofListFrom 0 0 l) (len : l.length = 4096) :
    a.list = l := by
  unfold Acc.list
  rw [elems, ← len]
  exact Tbl.denseFrom_ofListFrom ..

/-- The switch to sum mode clears every FIELD (R169). -/
theorem Acc.getD_toSum (a : Acc) {e : Nat} (he : e < 4096) :
    a.toSum.list.getD e 0 = if a.extremum then xMake (xValue (a.list.getD e 0)) 0 else a.list.getD e 0 := by
  unfold Acc.toSum
  split
  next =>
    rw [Acc.list_of_elems (l := a.list.map fun x => xMake (xValue x) 0) rfl (by simp)]
    simp [he]
  next => rfl

/-- The switch to extremum mode gives every element the FIELD of an empty one (R169). -/
theorem Acc.getD_toExtremum (a : Acc) {e : Nat} (he : e < 4096) :
    a.toExtremum.list.getD e 0 = if a.extremum then a.list.getD e 0 else xMake (xValue (a.list.getD e 0)) 0xFFF := by
  unfold Acc.toExtremum
  split
  next => rfl
  next =>
    rw [Acc.list_of_elems (l := a.list.map fun x => xMake (xValue x) 0xFFF) rfl (by simp)]
    simp [he]

theorem Acc.toSum_binding (a : Acc) : a.toSum.binding = a.binding := by
  unfold Acc.toSum
  split <;> rfl

theorem Acc.toSum_extremum (a : Acc) : a.toSum.extremum = false := by
  unfold Acc.toSum
  split
  next => rfl
  next h => exact Bool.eq_false_iff.2 h

theorem Acc.toExtremum_binding (a : Acc) : a.toExtremum.binding = a.binding := by
  unfold Acc.toExtremum
  split <;> rfl

theorem Acc.toExtremum_extremum (a : Acc) : a.toExtremum.extremum = true := by
  unfold Acc.toExtremum
  split
  next h => exact h
  next => rfl

/-- The scale s of element e of a bound tile (R157). -/
def Acc.scaleAt (a : Acc) (fmt : Nat) (es : Array Byte) (e : Nat) : Int :=
  expInt (es.getD (elBlock (bindAxis a.binding) e) 0) - scaleOff fmt

theorem Acc.getD_addProduct (a : Acc) (l r : Nat → Nat → Nat → Option Int × Int) (fmt : Nat) (es : Array Byte) (fresh : Nat) {e : Nat}
    (he : e < 4096) :
    (a.addProduct l r fmt es fresh).list.getD e 0 =
      (addX (a.toSum.list.getD e 0) (dot64 (l (e / 64) (e % 64)) (r (e / 64) (e % 64)) (a.scaleAt fmt es e)).sum (narField fresh e)).1 := by
  rw [Acc.list_of_elems (a := a.addProduct l r fmt es fresh) rfl (by simp)]
  simp [he, Acc.scaleAt, Acc.toSum_binding]

theorem Acc.getD_addExtremum (a : Acc) (min nw : Bool) (i : Nat) (src : TileVal) (fmt : Nat) (es : Array Byte) {e : Nat}
    (he : e < 4096) :
    (a.addExtremum min nw i src fmt es).list.getD e 0 =
      (extElem min nw i (a.toExtremum.list.getD e 0) (src.el (e / 64) (e % 64)) (src.ex (e / 64) (e % 64)) (a.scaleAt fmt es e)).1 := by
  rw [Acc.list_of_elems (a := a.addExtremum min nw i src fmt es) rfl (by simp)]
  simp [he, Acc.scaleAt, Acc.toExtremum_binding]

/-! The adder tree (R158-R160). -/

/-- What the product of the factors at place n adds to the sum, when neither is NaR (R158). -/
def alignedTerm (u v : Nat → Option Int × Int) (s : Int) (n : Nat) : Int :=
  (alignProduct ((u n).1.getD 0 * (v n).1.getD 0) ((u n).2 + (v n).2) s).1

/-- A product's alignment and clamp, with the clamp as a maximum and a minimum. -/
theorem alignProduct_eq (m p s : Int) :
    (alignProduct m p s).1 = max (-(2 ^ 47 - 4096)) (min (2 ^ 47 - 1)
      (if s - 12 - p ≤ 0 then m * 2 ^ (-(s - 12 - p)).toNat else m / 2 ^ (s - 12 - p).toNat)) :=
  clampX_eq _

theorem TreeOut.sum_add_of_nar (t : TreeOut) {a b : Option Int} (p s : Int) (h : t.sum = none ∨ a = none ∨ b = none) :
    (t.add a b p s).sum = none := by
  cases a with
  | none => rfl
  | some x =>
    cases b with
    | none => rfl
    | some y =>
      have before : t.sum = none := by simpa using h
      exact congrArg (Option.map _) before

/-- Once one product is NaR, or one was before, the tree delivers NaR (R160). -/
theorem sum_foldl_add_of_nar (u v : Nat → Option Int × Int) (s : Int) (ns : List Nat) (t : TreeOut)
    (h : t.sum = none ∨ ∃ n, n ∈ ns ∧ ((u n).1 = none ∨ (v n).1 = none)) :
    (ns.foldl (fun t k => t.add (u k).1 (v k).1 ((u k).2 + (v k).2) s) t).sum = none := by
  induction ns generalizing t with
  | nil => simpa using h
  | cons k ns ih =>
    apply ih
    rcases h with before | ⟨n, hn, nar⟩
    · exact .inl (TreeOut.sum_add_of_nar _ _ _ (.inl before))
    · rcases List.mem_cons.1 hn with rfl | later
      · exact .inl (TreeOut.sum_add_of_nar _ _ _ (.inr nar))
      · exact .inr ⟨n, later, nar⟩

/-- Without NaR the tree adds every term exactly (R158). -/
theorem sum_foldl_add_of_numbers (u v : Nat → Option Int × Int) (s : Int) (ns : List Nat) (t : TreeOut) {z : Int} (hz : t.sum = some z)
    (h : ∀ n, n ∈ ns → (u n).1 ≠ none ∧ (v n).1 ≠ none) :
    (ns.foldl (fun t k => t.add (u k).1 (v k).1 ((u k).2 + (v k).2) s) t).sum = some (z + (ns.map (alignedTerm u v s)).sum) := by
  induction ns generalizing t z with
  | nil => simpa using hz
  | cons k ns ih =>
    obtain ⟨hu, hv⟩ := h k (List.mem_cons_self ..)
    obtain ⟨x, hx⟩ := Option.ne_none_iff_exists'.1 hu
    obtain ⟨y, hy⟩ := Option.ne_none_iff_exists'.1 hv
    have one : (t.add (u k).1 (v k).1 ((u k).2 + (v k).2) s).sum = some (z + alignedTerm u v s k) := by
      unfold alignedTerm
      rw [hx, hy]
      exact congrArg (Option.map _) hz
    rw [List.foldl_cons, ih _ one fun n hn => h n (List.mem_cons_of_mem _ hn), List.map_cons, List.sum_cons, Int.add_assoc]

theorem dot64_sum_of_nar {u v : Nat → Option Int × Int} (s : Int) (h : ∃ n, n < 64 ∧ ((u n).1 = none ∨ (v n).1 = none)) :
    (dot64 u v s).sum = none := by
  obtain ⟨n, hn, nar⟩ := h
  exact sum_foldl_add_of_nar u v s _ _ (.inr ⟨n, List.mem_range.2 hn, nar⟩)

theorem dot64_sum_of_numbers {u v : Nat → Option Int × Int} (s : Int) (h : ∀ n, n < 64 → (u n).1 ≠ none ∧ (v n).1 ≠ none) :
    (dot64 u v s).sum = some ((List.range 64).map (alignedTerm u v s)).sum := by
  have := sum_foldl_add_of_numbers u v s (List.range 64) ⟨some 0, false, false⟩ rfl fun n hn => h n (List.mem_range.1 hn)
  rwa [Int.zero_add] at this

/-! The sum's addition to X (R159, R160). -/

theorem addX_of_nar {x : BitVec 48} (h : xNar x = true) (sum : Option Int) (nf : Nat) : (addX x sum nf).1 = x := by
  unfold addX
  rw [if_pos h]

theorem xNar_addX_none {x : BitVec 48} (h : xNar x = false) {nf : Nat} (hf : nf < 4096) : xNar (addX x none nf).1 = true := by
  unfold addX
  rw [if_neg (Bool.eq_false_iff.1 h)]
  exact xNar_xMake_nar hf

theorem addX_some {x : BitVec 48} (h : xNar x = false) (v : Int) (nf : Nat) :
    (addX x (some v) nf).1 = BitVec.ofInt 48 (max (-(2 ^ 47 - 4096)) (min (2 ^ 47 - 1) (x.toInt + v))) := by
  unfold addX
  rw [if_neg (Bool.eq_false_iff.1 h)]
  exact congrArg (BitVec.ofInt 48) (clampX_eq _)

theorem narField_lt (fresh e : Nat) : narField fresh e < 4096 := Nat.mod_lt _ (by decide)

/-! The better of an element and an incoming one (R167, R168). -/

/-- The incoming number, aligned and clamped (R167). -/
theorem alignExt_eq (m e s : Int) :
    (alignExt m e s).1 = max (-vLimit) (min vLimit (if 0 ≤ e - s then m * 2 ^ (e - s).toNat else m / 2 ^ (-(e - s)).toNat)) :=
  clampMag_eq (by decide) _

/-- The rows of R168's table for an incoming number. -/
theorem extTakes_some_iff (min nw : Bool) (x : BitVec 48) (v : Int) (i : Nat) :
    extTakes min nw x (some v) i = true ↔
      if xNar x then nw = false else (v = xValue x ∧ i < xField x) ∨ (if min then v < xValue x else xValue x < v) := by
  unfold extTakes
  cases xNar x with
  | true => simp
  | false =>
    by_cases h : v = xValue x
    · simp [h]
    · cases min <;> simp [h]

/-- The rows of R168's table for an incoming NaR. -/
theorem extTakes_none_iff (min nw : Bool) (x : BitVec 48) (i : Nat) :
    extTakes min nw x none i = true ↔
      if xNar x then i < xField x else (xField x = 0xFFF ∧ xValue x = if min then vLimit else -vLimit) ∨ nw = true := by
  unfold extTakes xEmpty
  cases xNar x <;> simp

theorem extElem_some (min nw : Bool) {i : Nat} (hi : i < 4096) (x : BitVec 48) (m e s : Int) :
    (extTakes min nw x (some (alignExt m e s).1) i = true →
        xValue (extElem min nw i x (some m) e s).1 = (alignExt m e s).1 ∧ xField (extElem min nw i x (some m) e s).1 = i) ∧
      (¬extTakes min nw x (some (alignExt m e s).1) i = true → (extElem min nw i x (some m) e s).1 = x) := by
  refine ⟨fun takes => ?_, fun keeps => if_neg keeps⟩
  have new : (extElem min nw i x (some m) e s).1 = xMake (alignExt m e s).1 i := if_pos takes
  have ge : narValue ≤ (alignExt m e s).1 := by
    rw [alignExt_eq]
    exact Int.le_trans (by decide) (Int.le_max_left ..)
  have le : (alignExt m e s).1 ≤ vLimit := by
    rw [alignExt_eq]
    exact Int.max_le.2 ⟨by decide, Int.min_le_left ..⟩
  rw [new]
  exact ⟨xValue_xMake ge le hi, xField_xMake _ hi⟩

theorem extElem_none (min nw : Bool) {i : Nat} (hi : i < 4096) (x : BitVec 48) (e s : Int) :
    (extTakes min nw x none i = true →
        xNar (extElem min nw i x none e s).1 = true ∧ xField (extElem min nw i x none e s).1 = i) ∧
      (¬extTakes min nw x none i = true → (extElem min nw i x none e s).1 = x) := by
  refine ⟨fun takes => ?_, fun keeps => if_neg keeps⟩
  have new : (extElem min nw i x none e s).1 = xMake narValue i := if_pos takes
  rw [new]
  exact ⟨xNar_xMake_nar hi, xField_xMake _ hi⟩

/-- Settles O12: a product's element is `addX` of the adder tree's sum, an extremum's is `extElem` of the source element. -/
theorem productAndExtremumElementResults : Obligations.ProductAndExtremumElementResults := by
  refine ⟨?product, ?extremum⟩
  case product =>
    intro a l r fmt es fresh e he a1 old x sc u v clamp term new
    have hnew : new = (addX x (dot64 u v sc).sum (narField fresh e)).1 := by
      have := a.getD_addProduct l r fmt es fresh he
      rwa [a.getD_toSum he] at this
    have terms : term = alignedTerm u v sc := funext fun n => (alignProduct_eq ..).symm
    rw [hnew]
    refine ⟨Acc.length_list _, a.toSum_extremum, a.toSum_binding, fun nar => addX_of_nar nar .., fun number factor => ?_,
      fun number factors => ?_⟩
    · rw [dot64_sum_of_nar sc factor]
      exact xNar_addX_none number (narField_lt ..)
    · rw [dot64_sum_of_numbers sc factors, terms]
      exact addX_some number ..
  case extremum =>
    intro a min nw i src fmt es e he hi a1 old x sc d lim new
    have hnew : new = (extElem min nw i x (src.el (e / 64) (e % 64)) (src.ex (e / 64) (e % 64)) sc).1 := by
      have := a.getD_addExtremum min nw i src fmt es he
      rwa [a.getD_toExtremum he] at this
    rw [hnew]
    refine ⟨Acc.length_list _, a.toExtremum_extremum, a.toExtremum_binding, rfl, rfl, ?number, ?nar⟩
    case number =>
      intro m hm v better takes
      have hv : (alignExt m (src.ex (e / 64) (e % 64)) sc).1 = v := alignExt_eq ..
      have result := extElem_some min nw hi x m (src.ex (e / 64) (e % 64)) sc
      rw [extTakes_some_iff, hv] at result
      rw [hm]
      exact result
    case nar =>
      intro hm takes
      have result := extElem_none min nw hi x (src.ex (e / 64) (e % 64)) sc
      rw [extTakes_none_iff] at result
      rw [hm]
      exact result

end Sys2Proof.Machine
end

section
/-! Functions of the lanes, words of the generator and noise (R182, R183, R226, R227). -/

namespace Sys2Proof.Machine

/-! `vfn` (R182). -/

/-- What the function of MOD[4:2] gives for lane i of vA, at the exponents in sB: nothing for NaR, nor outside the domain. -/
def Work.fnValue (w : Work) (c : CtxId) (f : Fields) (i : Nat) : Option (Int × Bool) :=
  let sb := (w.ctx c).getS (fieldNum f.b)
  (elemOf 32 (laneAt lane32 (w.vreg c (fieldNum f.a)) i)).bind fun x =>
    vfnValue (f.mod.toNat / 4 % 8) x (sb.extractLsb' 8 8 : Byte).toInt (sb.extractLsb' 0 8 : Byte).toInt

/-- Lane i of vA is a number outside the function's domain. -/
def Work.fnOutside (w : Work) (c : CtxId) (f : Fields) (i : Nat) : Bool :=
  (elemOf 32 (laneAt lane32 (w.vreg c (fieldNum f.a)) i)).isSome && (w.fnValue c f i).isNone

/-- The code of a function's result, NaR for none, and whether it saturated. -/
def fnLane : Option (Int × Bool) → Nat × Bool
  | some r => (codeOf 32 (some r.1), r.2)
  | none => (2147483648, false)

theorem fnLane_lt (v : Option (Int × Bool)) : (fnLane v).1 < 2 ^ 32 := by
  cases v with
  | some r => exact codeOf_lt (by decide) (some r.1)
  | none => show 2147483648 < 2 ^ 32; decide

/-- The slice's counter of lanes outside the domain, then vD, LANE_SAT and the slice's counter of saturations (R127, R182, R185). -/
def Work.putFn (w : Work) (c : CtxId) (d : Nat) (v : BitVec 4096) (sat : Bool) (outside : Nat) : Work :=
  ((w.updSlice c.slice.val fun y => { y with fnNars := satAdd y.fnNars outside }).setVreg c d v).laneSat c sat

theorem Work.ctx_putFn (w : Work) (c : CtxId) (d : Nat) (v : BitVec 4096) (sat : Bool) (outside : Nat) :
    (w.putFn c d v sat outside).ctx c = { w.ctx c with laneSat := (w.ctx c).laneSat || sat } := Work.ctx_laneSat ..

theorem Work.ctx_putFn_other (w : Work) {c e : CtxId} (d : Nat) (v : BitVec 4096) (sat : Bool) (outside : Nat) (he : e ≠ c) :
    (w.putFn c d v sat outside).ctx e = w.ctx e := Work.ctx_laneSat_other _ _ he

theorem Work.core_putFn (w : Work) (c : CtxId) (d : Nat) (v : BitVec 4096) (sat : Bool) (outside : Nat) (e : CtxId) :
    (w.putFn c d v sat outside).core e = (w.setVreg c d v).core e := Work.core_laneSat ..

theorem Work.slice_putFn (w : Work) (c : CtxId) (d : Nat) (v : BitVec 4096) (sat : Bool) (outside n : Nat) :
    (w.putFn c d v sat outside).slice n = if n = c.slice.val then
        { w.slice n with
          fnNars := satAdd (w.slice n).fnNars outside
          laneSats := if sat then satAdd (w.slice n).laneSats 1 else (w.slice n).laneSats }
      else w.slice n := by
  rw [Work.putFn, Work.slice_laneSat, Work.slice_setVreg]
  by_cases hn : n = c.slice.val
  · subst hn
    rw [if_pos rfl, Work.slice_updSlice_same]
    cases sat <;> simp
  · rw [if_neg hn, if_neg fun h => hn h.1, Work.slice_updSlice_other _ _ hn]

theorem Work.putFn_eq (w : Work) (c : CtxId) (d : Nat) (v : BitVec 4096) (sat : Bool) (outside : Nat) :
    w.putFn c d v sat outside = { w with
      ctxs := (w.putFn c d v sat outside).ctxs, cores := (w.putFn c d v sat outside).cores, slices := (w.putFn c d v sat outside).slices } := by
  rw [Work.putFn, Work.laneSat_eq]
  rfl

/-- `vfn` computes its lanes one by one and counts those outside the domain (R182). -/
theorem Work.Takes.effVfn {w w1 : Work} {c : CtxId} {f : Fields} (t : w.Takes c (w.capture c .vfn f).start w1)
    (hf : (w.ctx c).operandFault .vfn f = none) :
    let out := fun i => fnLane (w.fnValue c f i)
    Machine.effVfn w1 c (w.capture c .vfn f).start =
      .done (w1.putFn c (fieldNum f.d) (lane32.pack ((List.range 128).map fun i => (out i).1)) ((List.range 128).any fun i => (out i).2)
        ((List.range 128).countP (w.fnOutside c f))) := by
  intro out
  have value : (w.capture c .vfn f).start.vb = (w.ctx c).getS (fieldNum f.b) := Work.capture_vb_of hf rfl
  have field : (w.capture c .vfn f).start.f = f := rfl
  unfold Machine.effVfn
  rw [field, value, byteInt_eq, byteInt_eq, t.vreg]
  extract_lets a b one results nars
  have lane (i : Nat) : one (laneAt lane32 (w.vreg c (fieldNum f.a)) i) = (out i, w.fnOutside c f i) := by
    simp only [out, Work.fnOutside, Work.fnValue, one]
    cases elemOf 32 (laneAt lane32 (w.vreg c (fieldNum f.a)) i) with
    | none => rfl
    | some x =>
      dsimp only [Option.bind_some]
      change (match vfnValue (modBits f 2 3) x a b with | none => _ | some r => _) =
        (fnLane (vfnValue (modBits f 2 3) x a b), true && (vfnValue (modBits f 2 3) x a b).isNone)
      cases vfnValue (modBits f 2 3) x a b <;> rfl
  have lanes : results = (List.range 128).map fun i => (out i, w.fnOutside c f i) := by
    simp only [results, LaneW.lanes_eq, List.map_map]
    exact List.map_congr_left fun i _ => lane i
  have written : results.map (·.1) = (List.range 128).map out := by rw [lanes, List.map_map]; rfl
  have counted : nars = (List.range 128).countP (w.fnOutside c f) := by
    simp only [nars, lanes, ← List.countP_eq_length_filter, List.countP_map]
    rfl
  rw [written, counted, putLanes, List.map_map, List.any_map]
  rfl

/-- The codes of a function's results are read back lane by lane. -/
theorem laneAt_pack_fnLane (g : Nat → Option (Int × Bool)) {i : Nat} (hi : i < 128) :
    laneAt lane32 (lane32.pack ((List.range 128).map fun i => (fnLane (g i)).1)) i = (fnLane (g i)).1 := by
  rw [LaneW.laneAt_pack _ _ (by simp [lane32]) _ (by simpa using hi), List.getElem_map, List.getElem_range]
  exact Nat.mod_eq_of_lt (fnLane_lt _)

section
variable {s : State} {c : CtxId} (hr : s.w.ready c) (ev : MemEvent) {f : Fields}
include hr

/-- What `vfn` has done where its effect is to put results (R127, R182, R185). -/
theorem vfn_done {v : BitVec 4096} {sat : Bool} {outside : Nat} (hf : (s.w.ctx c).operandFault .vfn f = none)
    (he : ∀ w1, s.w.Takes c (s.w.capture c .vfn f).start w1 →
      effVfn w1 c (s.w.capture c .vfn f).start = .done (w1.putFn c (fieldNum f.d) v sat outside)) :
    EngineDone s (exec (.vfn c f (.start ev)) s) c f { s.w.ctx c with laneSat := (s.w.ctx c).laneSat || sat } fun t =>
      t.w = { s.w with ctxs := t.w.ctxs, cores := t.w.cores, slices := t.w.slices, nextId := s.w.nextId + 1 } ∧
      t.w.core c = { (s.w.core c).took c .V with vregs := (t.w.core c).vregs } ∧
      (∀ r, r ≠ fieldNum f.d → t.w.vreg c r = s.w.vreg c r) ∧
      t.w.vreg c (fieldNum f.d) = v ∧
      ∀ n, t.w.slice n = if n = c.slice.val then
          { s.w.slice n with
            fnNars := satAdd (s.w.slice n).fnNars outside
            laneSats := if sat then satAdd (s.w.slice n).laneSats 1 else (s.w.slice n).laneSats }
        else s.w.slice n := by
  refine engineDone_of_completed (completed_of hr hf (by decide) (by decide) (by decide) he) rfl
    (show KOp.vfn.queue ≠ .C by decide) (Work.ready_infl hr) (fun w1 t => by rw [Work.ctx_putFn, t.ctx])
    (fun w1 d hd => Work.ctx_putFn_other _ _ _ _ _ hd) (fun w1 d hd => (Work.core_putFn ..).trans (Work.core_setVreg_other _ _ _ hd))
    fun w1 t => ?_
  obtain ⟨⟨-, core⟩, same, others⟩ := t.setVreg_done rfl rfl (fieldNum f.d) v
  have written := w1.core_putFn c (fieldNum f.d) v sat outside c
  refine ⟨?_, ?_, fun r hr => ?_, ?_, fun n => ?_⟩
  · show (w1.putFn c (fieldNum f.d) v sat outside).retire c _ _ = _
    rw [Work.retire_eq, Work.putFn_eq, t.1]
  · exact written.trans (core.trans (congrArg (fun k : Core => { (s.w.core c).took c .V with vregs := k.vregs }) written.symm))
  · exact (congrArg (fun k : Core => k.vregs.get 0 r) written).trans (others r hr)
  · exact (congrArg (fun k : Core => k.vregs.get 0 (fieldNum f.d)) written).trans same
  · show (w1.putFn c (fieldNum f.d) v sat outside).slice n = _
    rw [Work.slice_putFn, t.slice]

end

/-! `vrng` and `vnoise` (R226, R227). -/

/-- The word that `vrng` gives in lane i (R226). -/
def Work.rngLane (w : Work) (c : CtxId) (f : Fields) (i : Nat) : BitVec 32 :=
  let k := w.ctx c
  let sa := k.getS (fieldNum f.a)
  genWord (w.genKey c) (w.workStep c) 1 k.lane k.mb false (sa.extractLsb' 44 20) (sa.toNat % 2 ^ 44 + i)

/-- The noise that `vnoise` adds to lane i (R227). -/
def Work.noiseAt (w : Work) (c : CtxId) (f : Fields) (i : Nat) : Int :=
  let k := w.ctx c
  let sb := k.getS (fieldNum f.b)
  let ws := genNoise (w.genKey c) (w.workStep c) k.lane k.mb (sb.extractLsb' 44 20) (sb.toNat % 2 ^ 44 + i)
  let n : Int := (popCount (ws.getD 0 0) + popCount (ws.getD 1 0) : Nat) - (popCount (ws.getD 2 0) + popCount (ws.getD 3 0) : Nat)
  (narrow (n * f.imm.toNat) 0 (f.mod.toNat / 4 % 64 : Nat) 32 .even).1

section
variable {s : State} {c : CtxId} (hr : s.w.ready c) (ev : MemEvent) {f : Fields}
include hr

theorem vrng_done (hf : (s.w.ctx c).operandFault .vrng f = none) :
    VecDone s (exec (.vrng c f (.start ev)) s) c f lane32 fun i => ((s.w.rngLane c f i).toNat, false) := by
  refine vecDone_of hr .vrng f ev hf rfl rfl lane32 rfl _ (fun i _ => BitVec.isLt _) ?_
  have t := Work.takes_engaged hr (op := .vrng) f (by decide) (by decide) (by decide)
  have value : (s.w.capture c .vrng f).start.va = (s.w.ctx c).getS (fieldNum f.a) := Work.capture_va_of hf rfl
  show effVrng _ c _ = _
  unfold effVrng
  simp only [value, bitsOf_zero, t.genKey]
  rfl

theorem vnoise_done (hf : (s.w.ctx c).operandFault .vnoise f = none) :
    VecDone s (exec (.vnoise c f (.start ev)) s) c f lane32 fun i =>
      lane32.out ((elemOf 32 (laneAt lane32 (s.w.vreg c (fieldNum f.a)) i)).map fun x => x + s.w.noiseAt c f i) := by
  refine vecDone_of hr .vnoise f ev hf rfl rfl lane32 rfl _ (fun i _ => lane32.out_lt (by decide) _) ?_
  have t := Work.takes_engaged hr (op := .vnoise) f (by decide) (by decide) (by decide)
  have value : (s.w.capture c .vnoise f).start.vb = (s.w.ctx c).getS (fieldNum f.b) := Work.capture_vb_of hf rfl
  have field : (s.w.capture c .vnoise f).start.f = f := rfl
  show effVnoise _ c _ = _
  unfold effVnoise Work.noiseAt
  simp only [field, value, bitsOf_zero, t.genKey, t.vreg, LaneW.lanes_eq, zipIdx_map_range, List.map_map, Nat.cast_add, ← sub_sub]
  rfl

end

/-- Settles O9: `vfn` counts beside the lanes that it writes; `vrng` and `vnoise` write lanes alone. -/
theorem functionAndNoiseResults : Obligations.FunctionAndNoiseResults := by
  intro c f ev s hr k v sa sb step ea eb value outside noise
  refine ⟨fun hf => ?vfn, fun hf => vrng_done hr ev hf, fun hf => vnoise_done hr ev hf⟩
  intro out sat
  exact (vfn_done hr ev hf fun _ t => t.effVfn hf).imp fun t ⟨rest, core, others, lanes, slices⟩ =>
    ⟨rest, core, others, fun i hi => by rw [lanes]; exact laneAt_pack_fnLane _ hi, slices⟩

end Sys2Proof.Machine
end

section
/-! The host's copies to and from a partition: WRITE and READ (R205, R454, R455). -/

namespace Sys2Proof.Machine

theorem copyAligned_iff (e : BitVec 512) : copyAligned e = true ↔ cmdArg e 24 8 % 64 = 0 ∧ cmdArg e 32 8 % 64 = 0 := decide_eq_true_iff

/-- A write that must wait is to a previous buffer, hence to no current one. -/
theorem Work.writeRole_ne_current_of_mustHold {w : Work} {q : Fin 8} {a n : Nat} (h : w.mustHold q a n = true) : w.writeRole q a n ≠ .current := by
  intro role
  rw [Work.mustHold, role] at h
  exact Bool.false_ne_true h

/-- A WRITE's checks in order, then the write. -/
theorem Work.runWrite_eq (w : Work) (r : CmdRef) (q : Fin 8) (e : BitVec 512) (h : HostData) (ev : MemEvent) :
    let a := cmdArg e 24 8
    let n := cmdArg e 32 8
    w.runWrite r q e h ev =
      if a % 64 = 0 ∧ n % 64 = 0 then
        if w.mapped q a n = true then
          if w.writeRole q a n = .current then w.finish r 0x268 0
          else if w.mustHold q a n = true then w.markCmd r .started
          else if h.ok = true ∧ n ≤ h.bytes.length then Work.ends r n (w.hbmWrite q a (h.bytes.take n) ev)
          else w.finish r 0x240 0
        else w.finish r 0x107 0
      else w.finish r 0x102 0 := by
  have came : (!h.ok || decide (h.bytes.length < cmdArg e 32 8)) = true ↔ ¬(h.ok = true ∧ cmdArg e 32 8 ≤ h.bytes.length) := by
    rw [Bool.or_eq_true, Bool.not_eq_true', decide_eq_true_iff, not_and_or, Bool.not_eq_true, not_le]
  unfold Work.runWrite
  simp only [Bool.not_eq_true', ← Bool.not_eq_true, copyAligned_iff, came, ite_not]
  rfl

/-- A READ's checks in order, the read, then the transfer to the host. -/
theorem Work.runRead_eq (w : Work) (r : CmdRef) (q : Fin 8) (e : BitVec 512) (hostOk : Bool) (ev : MemEvent) :
    let a := cmdArg e 24 8
    let n := cmdArg e 32 8
    let g := w.hbmRead q a n ev
    w.runRead r q e hostOk ev =
      if a % 64 = 0 ∧ n % 64 = 0 then
        if w.mapped q a n = true then
          if g.1.code = 0 then
            if hostOk = true then (g.2.emit (.hostWrite r.fn (BitVec.ofNat 64 (cmdArg e 16 8)) g.1.bytes)).finish r 0 n
            else g.2.finish r 0x240 0
          else g.2.finish r (0x200 + g.1.code.toNat) 0
        else w.finish r 0x107 0
      else w.finish r 0x102 0 := by
  unfold Work.runRead
  simp only [Bool.not_eq_true', ← Bool.not_eq_true, copyAligned_iff, ne_eq, ite_not]

theorem Work.mapped_of_readable {w : Work} {q : Fin 8} {a n : Nat} (h : w.readable q a n) : w.mapped q a n = true :=
  List.all_eq_true.2 fun b hb => by
    obtain ⟨pa, d, translated, -⟩ := h.1 b hb
    rw [translated]
    rfl

/-- A command of a queue that may start runs the WRITE. -/
theorem execHostWrite_runs {r : CmdRef} {q : Fin 8} {e : BitVec 512} {h : HostData} {ev : MemEvent} {s : State} {w : Work}
    (runs : s.w.Runs r 0x10 q e) (hw : s.w.runWrite r q e h ev = w) : exec (.hostWrite r h ev) s = .next { s with w := w } := by
  obtain ⟨start, -⟩ := id runs
  show execHostWrite r h ev s = _
  rw [execHostWrite, State.onW]
  simp only [Work.goOn, start, Work.withPart_runs runs, hw]

/-- A command of a queue that may start runs the READ. -/
theorem execHostRead_runs {r : CmdRef} {q : Fin 8} {e : BitVec 512} {hostOk : Bool} {ev : MemEvent} {s : State} {w : Work}
    (runs : s.w.Runs r 0x11 q e) (hw : s.w.runRead r q e hostOk ev = w) : exec (.hostRead r hostOk ev) s = .next { s with w := w } := by
  obtain ⟨start, -⟩ := id runs
  show execHostRead r hostOk ev s = _
  rw [execHostRead, State.onW]
  simp only [start, Work.withPart_runs runs, hw]

/-- Settles O29: each clause is one branch of the checks of WRITE and READ; a readable range is read without a fault or a change. -/
theorem hostCopyResults : Obligations.HostCopyResults := by
  intro r h hostOk ev q e s host a n aligned ends
  refine ⟨fun runs => ?write, fun runs => ?read⟩
  case write =>
    refine ⟨fun odd => execHostWrite_runs runs ?unaligned, fun al unmapped => execHostWrite_runs runs ?unmapped,
      fun al mapped role => execHostWrite_runs runs ?current, fun al mapped hold => execHostWrite_runs runs ?waits,
      fun al mapped role free ok all => execHostWrite_runs runs ?written⟩
    all_goals rw [Work.runWrite_eq]
    case unaligned => rw [if_neg odd]
    case unmapped => rw [if_pos al, if_neg (Bool.eq_false_iff.1 unmapped)]
    case current => rw [if_pos al, if_pos mapped, if_pos role]
    case waits => rw [if_pos al, if_pos mapped, if_neg (Work.writeRole_ne_current_of_mustHold hold), if_pos hold]
    case written => rw [if_pos al, if_pos mapped, if_neg role, if_neg (Bool.eq_false_iff.1 free), if_pos ⟨ok, all⟩]
  case read =>
    refine ⟨fun odd => execHostRead_runs runs ?unaligned, fun al unmapped => execHostRead_runs runs ?unmapped,
      fun al readable fine ok => ⟨_, execHostRead_runs runs rfl, rfl, rfl, ?sent⟩,
      fun al mapped fault => execHostRead_runs runs ?fault⟩
    case sent =>
      have read : s.w.hbmRead q a n ev = (⟨0, s.w.peek q a n⟩, s.w) := by
        rw [fine]
        exact Work.hbmRead_readable _ _ _ _ readable (s.w.length_peek q a n)
      show s.w.runRead r q e hostOk ev = ((s.w.hbmRead q a n ev).2.emit _).finish r 0 n
      rw [Work.runRead_eq, if_pos al, if_pos (Work.mapped_of_readable readable), read, if_pos rfl, if_pos ok]
    all_goals rw [Work.runRead_eq]
    case unaligned => rw [if_neg odd]
    case unmapped => rw [if_pos al, if_neg (Bool.eq_false_iff.1 unmapped)]
    case fault => rw [if_pos al, if_pos mapped, if_neg fault]

end Sys2Proof.Machine
end

section
/-! The test engine of a stack in bring-up (R250-R253, R258-R262). -/

namespace Sys2Proof.Machine

/-! When a command is taken, and what it then does. -/

theorem State.teTakes_iff (s : State) (who : Fn) (i : Nat) (start : Bool) :
    s.teTakes who i start = true ↔ start = true ∧ s.fnOpen who = true ∧ s.ctl.boot.bringup = true ∧ s.ctl.rwb = true ∧
      s.stackWritable who i = true ∧ (s.w.stack i).te.busy = false := by
  simp only [State.teTakes, Bool.and_eq_true, Bool.not_eq_true', and_assoc]

/-- A command that is taken: arguments out of range end it at once, and then an absent stack does (R253). -/
theorem State.teRun_of_teTakes {s : State} {who : Fn} {i op : Nat} {cmd : Word} {argsOk : TestEngine → Bool} {f : Work → Work}
    (takes : s.teTakes who i (cmd.getLsbD 63) = true) (opcode : teOpcode cmd = op) :
    s.teRun who i op cmd argsOk f =
      if argsOk (s.w.stack i).te = true then
        if (s.w.stack i).present = true then s.onW f else s.updTe i fun t => t.reject cmd 0x05
      else s.updTe i fun t => t.reject cmd 0x01 := by
  simp only [State.teRun, takes, opcode, decide_true, Bool.and_self, if_true, Bool.not_eq_true', ← Bool.not_eq_true, ite_not]

/-! The fields of a command word. -/

theorem teOpcode_eq (cmd : Word) : teOpcode cmd = cmd.toNat % 256 := bitsOf_zero _ _

theorem TestEngine.placeOk_iff (t : TestEngine) (cmd : Word) : t.placeOk cmd = true ↔ cmd.toNat / 256 % 256 < 32 ∧ t.sid < 3 :=
  decide_eq_true_iff

/-- The command that the model writes for TRAIN and P1500 starts: the other fields of TE_CMD stay, under START and an opcode (log entry 90). -/
theorem teKeep_start (old k : Word) (start : k.getLsbD 63 = true) : ((old &&& ~~~(0xFF : Word)) ||| k).getLsbD 63 = true := by
  rw [BitVec.getLsbD_or, start, Bool.or_true]

theorem teOpcode_teKeep (old k : Word) : teOpcode ((old &&& ~~~(0xFF : Word)) ||| k) = teOpcode k := by
  have low : ((old &&& ~~~(0xFF : Word)) ||| k).extractLsb' 0 8 = k.extractLsb' 0 8 := by
    have mask : (~~~(0xFF : Word)).extractLsb' 0 8 = 0#8 := by decide
    rw [BitVec.extractLsb'_or, BitVec.extractLsb'_and, mask, BitVec.and_zero, BitVec.zero_or]
  rw [teOpcode, teOpcode, ← toNat_extractLsb'_eq_bitsOf, ← toNat_extractLsb'_eq_bitsOf, low]

/-! TRAIN. -/

/-- A record of TRAIN names the channel's first pseudo-channel, and row 0x3FFF (R262). -/
theorem trainRecord_place {j : Nat} (h : j < 16) (a b : Word) : (trainRecord j a b).1 &&& 0x1FFF81F = BitVec.ofNat 64 (0x1FFF800 + 2 * j) := by
  have inMask : ∀ j < 16, BitVec.ofNat 64 (0x3FFF * 2 ^ 11 + 2 * j) &&& 0x1FFF81F = BitVec.ofNat 64 (0x1FFF800 + 2 * j) := by decide
  have free : (a &&& ~~~(0x1FFF81F : Word)) &&& 0x1FFF81F = 0 := by
    rw [BitVec.and_assoc, show ~~~(0x1FFF81F : Word) &&& 0x1FFF81F = 0 by decide]
    exact BitVec.and_zero
  calc ((a &&& ~~~(0x1FFF81F : Word)) ||| BitVec.ofNat 64 (0x3FFF * 2 ^ 11 + 2 * j)) &&& 0x1FFF81F
      = ((a &&& ~~~(0x1FFF81F : Word)) &&& 0x1FFF81F) ||| (BitVec.ofNat 64 (0x3FFF * 2 ^ 11 + 2 * j) &&& 0x1FFF81F) := BitVec.and_or_distrib_right
    _ = BitVec.ofNat 64 (0x1FFF800 + 2 * j) := by rw [free, inMask j h]; exact BitVec.zero_or

theorem Work.trainRecords_places (js : List Nat) (h : ∀ j ∈ js, j < 16) (w : Work) :
    (w.trainRecords js).1.map (fun e => e.1 &&& 0x1FFF81F) = js.map fun j => BitVec.ofNat 64 (0x1FFF800 + 2 * j) := by
  induction js generalizing w with
  | nil => rfl
  | cons j js ih =>
    obtain ⟨first, rest⟩ := List.forall_mem_cons.1 h
    exact congrArg₂ _ (trainRecord_place first _ _) (ih rest _)

theorem failedChannels_zero : ((List.range 16).filter fun j => (0 : BitVec 16).getLsbD j) = [] := by decide

theorem failedChannels_isEmpty (failed : BitVec 16) :
    ((List.range 16).filter fun j => failed.getLsbD j).isEmpty = decide (failed = 0) := by
  rw [Bool.eq_iff_iff, List.isEmpty_iff, List.filter_eq_nil_iff, decide_eq_true_eq]
  refine ⟨fun clear => BitVec.eq_of_getLsbD_eq fun j hj => ?_, fun zero j _ => ?_⟩
  · simpa using clear j (List.mem_range.2 hj)
  · simp [zero]

/-- TRAIN records every channel that failed, and its RESULT says whether one did. -/
theorem Work.runTrain_eq (w : Work) (i : Nat) (cmd : Word) (failed : BitVec 16) :
    let g := w.trainRecords ((List.range 16).filter fun j => failed.getLsbD j)
    w.runTrain i cmd failed =
      g.2.updStack i fun y => { y with te := (y.te.begin_ cmd (if failed = 0 then 0x00 else 0x06)).record g.1 } := by
  simp only [Work.runTrain, Work.updTest, failedChannels_isEmpty, decide_eq_true_eq]

/-! RAW_READ. -/

theorem Mem.readN_writeN_below {a n b : Nat} (h : a + n ≤ b) (m : Mem) (bs : List Byte) : (m.writeN b bs).readN a n = m.readN a n := by
  rw [Mem.readN_eq_map, Mem.readN_eq_map]
  refine List.map_congr_left fun i hi => Mem.read_writeN_outside _ _ _ _ (Or.inl ?_)
  have below := List.mem_range.1 hi
  omega

/-- RAW_READ of a granule that was written raw leaves its word 64 times at the buffer's start, and the engine runs. -/
theorem Work.runRawRead_written {w : Work} {i : Nat} {cmd : Word} {e : Nat × Word}
    (written : (w.stack i).te.raw.find? (fun e => decide (e.1 = (w.stack i).te.granuleKey cmd)) = some e) :
    let t := ((w.runRawRead i cmd).stack i).te
    t.busy = true ∧ t.doneResult = 0 ∧ t.buf.readN 0 512 = (List.replicate 64 (leBytes 8 e.2.toNat)).flatten := by
  have data : (List.replicate 64 e.2).flatMap (fun x => leBytes 8 x.toNat) = (List.replicate 64 (leBytes 8 e.2.toNat)).flatten := by
    rw [List.flatMap_def, List.map_replicate]
  have size : ((List.replicate 64 (leBytes 8 e.2.toNat)).flatten).length = 512 := by simp
  simp only [Work.runRawRead, Work.updTest, Work.stack_updStack_same, written, data]
  refine ⟨rfl, rfl, ?_⟩
  rw [Mem.readN_writeN_below (by decide), ← size]
  exact Mem.readN_writeN _ _ _

/-! The repairs of a bank. -/

theorem Work.runSoftRepair_eq (w : Work) (i : Nat) (cmd : Word) :
    let x := w.stack i
    let key := x.te.bankKey cmd
    w.runSoftRepair i cmd = w.updStack i fun _ =>
      if x.te.soft.get false key = true then { x with te := x.te.begin_ cmd 0x02 }
      else { x with te := { x.te.begin_ cmd 0x00 with soft := x.te.soft.set false key true }
                    pcErr := x.pcErr.upd .zero (tePc cmd) fun e => { e with soft := satAdd e.soft 1 } } := by
  unfold Work.runSoftRepair
  dsimp only
  split <;> rfl

theorem Work.runHardRepair_eq (w : Work) (i : Nat) (cmd : Word) (verified : Bool) :
    let x := w.stack i
    let key := x.te.bankKey cmd
    w.runHardRepair i cmd verified = w.updStack i fun _ =>
      if x.te.hardLeft i key = 0 then { x with te := x.te.begin_ cmd 0x02 }
      else { x with te := { x.te.begin_ cmd (if verified then 0x00 else 0x03) with hardSpent := x.te.hardSpent.upd 0 key (· + 1) }
                    pcErr := x.pcErr.upd .zero (tePc cmd) fun e => { e with hard := satAdd e.hard 1 } } := by
  unfold Work.runHardRepair
  dsimp only
  split <;> rfl

theorem Work.runSoftUndo_eq (w : Work) (i : Nat) (cmd : Word) :
    let x := w.stack i
    let key := x.te.bankKey cmd
    w.runSoftUndo i cmd = w.updStack i fun _ =>
      if x.te.soft.get false key = true then
        { x with te := { x.te.begin_ cmd 0x00 with soft := x.te.soft.set false key false }
                 pcErr := x.pcErr.upd .zero (tePc cmd) fun e => { e with soft := e.soft - 1 } }
      else { x with te := x.te.begin_ cmd 0x00 } := by
  unfold Work.runSoftUndo
  dsimp only
  split <;> rfl

/-- A command that is taken, with its arguments in range, answers the state that its run leaves. -/
theorem exec_of_teRun {ins : Instr} {s : State} {who : Fn} {i op : Nat} {cmd : Word} {argsOk : TestEngine → Bool} {f : Work → Work} {w : Work}
    (arm : exec ins s = .next (s.teRun who i op cmd argsOk f)) (takes : s.teTakes who i (cmd.getLsbD 63) = true) (opcode : teOpcode cmd = op)
    (present : (s.w.stack i).present = true) (args : argsOk (s.w.stack i).te = true) (hw : f s.w = w) : exec ins s = .next { s with w := w } := by
  rw [arm, State.teRun_of_teTakes takes opcode, if_pos args, if_pos present, ← hw]
  rfl

/-- Settles O41: every command of the engine is taken under the common conditions, and what it then does is what its clause says. -/
theorem testEngineResults : Obligations.TestEngineResults := by
  intro who i v s x t res runs ends op pc bank keep opened boot rwb writable idle
  have takes : ∀ {cmd : Word}, cmd.getLsbD 63 = true → s.teTakes who i.val (cmd.getLsbD 63) = true := fun start =>
    (s.teTakes_iff who i.val _).2 ⟨start, opened, boot, rwb, writable, idle⟩
  have opcode : ∀ {n : Nat}, op = n → teOpcode v = n := (teOpcode_eq v).trans
  refine ⟨fun present => ?runs, fun start hop outside => ?badPlace, fun start hop => ?badOpcode, fun s1 busy => ?done⟩
  case runs =>
    have kept : ∀ {ins : Instr} {k : Word} {f : Work → Work} {w : Work},
        exec ins s = .next (s.teRun who i.val (teOpcode k) ((t.cmd &&& ~~~(0xFF : Word)) ||| k) (fun _ => true) f) → k.getLsbD 63 = true →
          f s.w = w → exec ins s = .next { s with w := w } := fun arm start =>
      exec_of_teRun arm (takes (teKeep_start _ _ start)) (teOpcode_teKeep _ _) present rfl
    have written : ∀ {ins : Instr} {n : Nat} {argsOk : TestEngine → Bool} {f : Work → Work} {w : Work},
        exec ins s = .next (s.teRun who i.val n v argsOk f) → v.getLsbD 63 = true → op = n → argsOk t = true →
          f s.w = w → exec ins s = .next { s with w := w } := fun arm start hop =>
      exec_of_teRun arm (takes start) (opcode hop) present
    have place : pc < 32 → t.sid < 3 → t.placeOk v = true := fun hpc hsid => (t.placeOk_iff v).2 ⟨hpc, hsid⟩
    refine ⟨?train, fun failed anyFailed => ⟨_, _, rfl, ?trainFailed, ?records⟩, fun start hop hpc pattern rows found => ?march,
      fun start hop hpc hsid => ?rawWrite, fun start hop hpc hsid e found => ?rawRead,
      fun start hop hpc => ?budget, fun start hop hpc hsid => ?softRepair, fun start hop hpc hsid ok => ?hardRepair,
      fun start hop hpc hsid => ?softUndo, fun out => ?p1500⟩
    case train =>
      refine kept (ins := .teTrain who i 0) (k := 0x8000000000000001) rfl rfl ?_
      rw [Work.runTrain_eq, failedChannels_zero, if_pos rfl]
      rfl
    case trainFailed =>
      refine kept (ins := .teTrain who i failed) (k := 0x8000000000000001) rfl rfl ?_
      rw [Work.runTrain_eq, if_neg anyFailed]
      rfl
    case records => exact Work.trainRecords_places _ (fun j hj => List.mem_range.1 (List.mem_filter.1 hj).1) _
    case march => exact written (ins := .teMarch who i v found) rfl start hop (decide_eq_true ⟨hpc, pattern, rows⟩) rfl
    case rawWrite => exact written (ins := .teRawWrite who i v) rfl start hop (place hpc hsid) rfl
    case rawRead =>
      obtain ⟨busy, result, bytes⟩ := Work.runRawRead_written (cmd := v) found
      exact ⟨_, written (ins := .teRawRead who i v) rfl start hop (place hpc hsid) rfl, rfl, busy, result, bytes⟩
    case budget => exact written (ins := .teBudget who i v) rfl start hop (decide_eq_true hpc) rfl
    case softRepair => exact written (ins := .teSoftRepair who i v) rfl start hop (place hpc hsid) (Work.runSoftRepair_eq ..)
    case hardRepair => exact written (ins := .teHardRepair who i v ok) rfl start hop (place hpc hsid) (Work.runHardRepair_eq ..)
    case softUndo => exact written (ins := .teSoftUndo who i v) rfl start hop (place hpc hsid) (Work.runSoftUndo_eq ..)
    case p1500 => exact kept (ins := .teP1500 who i out) (k := 0x8000000000000009) rfl rfl rfl
  case badPlace =>
    have misplaced : ¬t.placeOk v = true := by
      rw [TestEngine.placeOk_iff]
      omega
    show execTeRawWrite who i v s = _
    rw [execTeRawWrite, State.teRun_of_teTakes (takes start) (opcode hop), if_neg misplaced]
    rfl
  case badOpcode =>
    have unknown : ¬(1 ≤ teOpcode v ∧ teOpcode v ≤ 9) := by
      rw [teOpcode_eq]
      omega
    show execTeInvalidCommand who i v s = _
    rw [execTeInvalidCommand, takes start, decide_eq_false unknown]
    rfl
  case done =>
    show execTeCommandDone i s1 = _
    rw [execTeCommandDone, if_pos busy]
    rfl

end Sys2Proof.Machine
end

section
/-! O45: laser modules (R270, R505-R513, R516). -/

namespace Sys2Proof

/-- What replaces an entry that a table holds replaces it as it would the entry before. -/
theorem Tbl.put_put {α : Type} (t : Tbl α) (k : Nat) (u v : α) : (t.put k u).put k v = t.put k v := by
  induction t with
  | nil => simp [Tbl.put]
  | cons e t ih =>
    obtain ⟨j, x⟩ := e
    by_cases lt : k < j
    · simp [Tbl.put, lt]
    · by_cases eq : k = j <;> simp [Tbl.put, lt, eq, ih]

theorem Tbl.del_put {α : Type} (t : Tbl α) (k : Nat) (u : α) : (t.put k u).del k = t.del k := by
  induction t with
  | nil => simp [Tbl.put, Tbl.del]
  | cons e t ih =>
    obtain ⟨j, x⟩ := e
    by_cases lt : k < j
    · simp [Tbl.put, Tbl.del, lt]
    · by_cases eq : k = j
      · simp [Tbl.put, Tbl.del, eq]
      · simp [Tbl.put, Tbl.del, lt, eq, ih]

/-- An entry set to another value than the default, and set again. -/
theorem Tbl.set_set {α : Type} [DecidableEq α] {d u : α} (h : u ≠ d) (t : Tbl α) (k : Nat) (v : α) :
    Tbl.set d (Tbl.set d t k u) k v = Tbl.set d t k v := by
  simp only [Tbl.set, if_neg h, Tbl.del_put, Tbl.put_put]

end Sys2Proof

namespace Sys2Proof.Machine

/-! A socket's record (R513). -/

/-- A socket's record set. -/
def State.setLaser (s : State) (k : Nat) (x : Laser) : State := { s with ctl := { s.ctl with lasers := s.ctl.lasers.set .zero k x } }

theorem State.updLaser_eq (s : State) (k : Nat) (f : Laser → Laser) : s.updLaser k f = s.setLaser k (f (s.ctl.laser k)) := rfl
@[simp] theorem State.setLaser_w (s : State) (k : Nat) (x : Laser) : (s.setLaser k x).w = s.w := rfl
@[simp] theorem State.setLaser_pending (s : State) (k : Nat) (x : Laser) : (s.setLaser k x).pending = s.pending := rfl
@[simp] theorem State.laser_setLaser (s : State) (k : Nat) (x : Laser) : (s.setLaser k x).ctl.laser k = x := Tbl.get_set_same ..

@[simp] theorem State.laser_updLaser (s : State) (k : Nat) (f : Laser → Laser) : (s.updLaser k f).ctl.laser k = f (s.ctl.laser k) :=
  Tbl.get_upd_same ..

theorem State.setLaser_setLaser {x : Laser} (h : x ≠ .zero) (s : State) (k : Nat) (y : Laser) : (s.setLaser k x).setLaser k y = s.setLaser k y := by
  simp only [State.setLaser, Tbl.set_set h]

/-- A socket whose state is not 0 has a record of its own. -/
theorem Laser.ne_zero {x : Laser} (h : x.st ≠ 0) : x ≠ .zero := fun e => h (by rw [e]; rfl)

/-! A challenge (R506). -/

/-- A module has been challenged: its record is `x`, and the fresh nonce has left for it, after `out`. -/
structure State.Asked (s t : State) (k : Fin 4) (out : List Emit) (x : Laser) : Prop where
  pending : t.pending = s.pending
  record : t.ctl.laser k.val = x
  work : t.w = { s.w with
    fresh := s.w.fresh + 2
    out := .module k 32 (leBytes 16 (Config.freeWord s.w.fresh ++ Config.freeWord (s.w.fresh + 1)).toNat) :: out ++ s.w.out }

theorem State.asked_challenge {s u : State} {k : Fin 4} {out : List Emit} {x : Laser} (hp : u.pending = s.pending)
    (hw : u.w = { s.w with out := out ++ s.w.out }) (hx : u.ctl.laser k.val = x) :
    s.Asked (u.challenge k) k out { x with nonce := Config.freeWord s.w.fresh ++ Config.freeWord (s.w.fresh + 1) } := by
  have drawn : (u.challenge k).w = { u.w with
    fresh := u.w.fresh + 2
    out := .module k 32 (leBytes 16 (Config.freeWord u.w.fresh ++ Config.freeWord (u.w.fresh + 1)).toNat) :: u.w.out } := rfl
  have record : (u.challenge k).ctl.laser k.val =
    { u.ctl.laser k.val with nonce := Config.freeWord u.w.fresh ++ Config.freeWord (u.w.fresh + 1) } := State.laser_updLaser ..
  refine ⟨hp, ?_, ?_⟩
  · rw [record, hx, hw]
  · rw [drawn, hw]; rfl

/-- A challenge after the record has been changed. -/
theorem State.asked_updLaser {s u : State} {k : Fin 4} {out : List Emit} {x : Laser} (hp : u.pending = s.pending)
    (hw : u.w = { s.w with out := out ++ s.w.out }) (hx : u.ctl.laser k.val = x) (f : Laser → Laser) :
    s.Asked ((u.updLaser k.val f).challenge k) k out { f x with nonce := Config.freeWord s.w.fresh ++ Config.freeWord (s.w.fresh + 1) } :=
  State.asked_challenge hp hw ((State.laser_updLaser ..).trans (congrArg f hx))

/-! Light that goes off (R270, R507, R511, R512). -/

theorem nodup_socketPorts : ∀ k : Fin 4, (socketPorts k.val).Nodup := by decide

theorem Work.isDown_logEv (w : Work) (u x : BitVec 16) (k v : Nat) (p : Byte) (n : Nat) : (w.logEv u k v p n).isDown x = w.isDown x := rfl

theorem Work.isDown_lightOff (w : Work) (k : Nat) : (w.lightOff k).isDown (socketUnit k) = true := by
  have kept : (w.lightOff k).inReset = socketUnit k :: w.inReset.filter fun x => decide (x ≠ socketUnit k) :=
    (Work.Steady.foldl (fun w p => Work.Steady.portDown w p 0) _ _).inReset
  simp [Work.isDown, kept]

theorem Work.link_lightOff (w : Work) {k : Fin 4} {p : Fin 32} (h : p ∈ socketPorts k.val) : (w.lightOff k.val).link p = (0, none) := by
  unfold Work.lightOff
  rw [get_foldl_once (get := Work.link) (f := fun _ _ => (0, none)) (fun w p => w.link_portDown_same p 0)
    (fun w _ _ h => w.link_portDown_other 0 h) (nodup_socketPorts k), if_pos h]

/-- A module's light has gone off with its ports, and its socket shows `st`. -/
structure State.LightGone (s t : State) (k : Fin 4) (st : BitVec 8) : Prop where
  pending : t.pending = s.pending
  authed : (t.ctl.laser k.val).authed = false
  st : (t.ctl.laser k.val).st.toNat = st.toNat
  down : t.w.isDown (socketUnit k.val) = true
  ports : ∀ p, p ∈ socketPorts k.val → (t.w.port p.val).st = 0 ∧ (t.w.port p.val).linkKey = none

/-- What a socket shows once its light has gone off and an event has been logged. -/
theorem State.lightGone_of {s t : State} {k : Fin 4} {st : BitVec 8} {w : Work} {code sev n : Nat} (hp : t.pending = s.pending)
    (hw : t.w = (w.lightOff k.val).logEv (socketUnit k.val) code sev 0xFF n) (ha : (t.ctl.laser k.val).authed = false)
    (hs : (t.ctl.laser k.val).st.toNat = st.toNat) : s.LightGone t k st where
  pending := hp
  authed := ha
  st := hs
  down := by
    rw [hw, Work.isDown_logEv, w.isDown_lightOff]
  ports p h := by
    rw [hw, Work.port_logEv]
    exact Prod.mk.inj (w.link_lightOff h)

theorem State.w_loseModule (s : State) (k : Fin 4) :
    (s.loseModule k).w = (s.w.lightOff k.val).logEv (socketUnit k.val) 0x0A85 3 0xFF k.val := rfl

theorem State.pending_loseModule (s : State) (k : Fin 4) : (s.loseModule k).pending = s.pending := by
  simp only [State.loseModule, State.updLaser, State.onCtl_pending]

theorem State.lightGone_loseModule {s u : State} (k : Fin 4) (h : u.pending = s.pending) : s.LightGone (u.loseModule k) k 6 := by
  have record : (u.loseModule k).ctl.laser k.val = _ := State.laser_updLaser ..
  refine State.lightGone_of ((u.pending_loseModule k).trans h) (u.w_loseModule k) ?_ ?_ <;> rw [record]
  rfl

/-! Authentication (R506, R507, R509, R511). -/

/-- A module owes an answer: it has been inserted, or its hours have been written. -/
@[reducible] def Laser.asked (l : Laser) : Prop := (l.st = 1 ∧ l.authed = false) ∨ (l.st = 2 ∧ l.hourly = true)

theorem Laser.asked.st_ne_zero {l : Laser} (h : l.asked) : l.st ≠ 0 := by
  rcases h with ⟨h, -⟩ | ⟨h, -⟩ <;> rw [h] <;> decide

/-- The bus transactions that have failed in a row, with this one. -/
def Laser.fails (l : Laser) (ok : Bool) : Nat := if ok then 0 else l.busFails + 1

section
variable {s : State} {k : Fin 4} (h : (s.ctl.laser k.val).asked)
include h

theorem exec_laserAuthResponse_right {m : ModuleMap} (hr : m.response = moduleAnswer (s.ctl.laser k.val).nonce m) :
    exec (.laserAuthResponse k m true) s = .next (s.setLaser k.val
      (let l := { s.ctl.laser k.val with busFails := 0 }
       if l.hourly then { l.took m with eqPart := l.eqPart, eqHours := l.eqHours } else { l.took m with eqPart := 0 })) := by
  have noted : { s.ctl.laser k.val with busFails := 0 } ≠ Laser.zero := Laser.ne_zero h.st_ne_zero
  have runs : exec (.laserAuthResponse k m true) s = .next ((s.setLaser k.val { s.ctl.laser k.val with busFails := 0 }).updLaser k.val fun l =>
      if l.hourly then { l.took m with eqPart := l.eqPart, eqHours := l.eqHours } else { l.took m with eqPart := 0 }) := by
    show execLaserAuthResponse k m true s = _
    unfold execLaserAuthResponse
    dsimp only
    rw [if_pos h, if_pos (by simp [hr])]
    rfl
  rw [runs, State.updLaser_eq, State.laser_setLaser, State.setLaser_setLaser noted]

/-- A wrong answer, or none: the module is asked again twice; then it is refused, or lost where its hours had been written. -/
theorem exec_laserAuthResponse_wrong {m : ModuleMap} {ok : Bool} (hw : ¬(ok = true ∧ m.response = moduleAnswer (s.ctl.laser k.val).nonce m)) :
    let l := s.ctl.laser k.val
    let u := s.setLaser k.val { l with busFails := l.fails ok }
    let lost := l.hourly = true ∧ (2 ≤ l.tries ∨ 3 ≤ l.fails ok)
    (¬lost → l.tries < 2 →
      exec (.laserAuthResponse k m ok) s = .next ((u.updLaser k.val fun x => { x with tries := x.tries + 1 }).challenge k)) ∧
    (¬lost → 2 ≤ l.tries → exec (.laserAuthResponse k m ok) s = .next (u.refuseModule k m)) ∧
    (lost → exec (.laserAuthResponse k m ok) s = .next (u.loseModule k)) := by
  intro l u lost
  have loses : (l.hourly && (decide (2 ≤ l.tries) || (!ok && decide (2 ≤ l.busFails)))) = true ↔ lost := by
    cases ok <;> simp [lost, Laser.fails, Nat.succ_le_succ_iff]
  have runs : exec (.laserAuthResponse k m ok) s = .next (
      if (l.hourly && (decide (2 ≤ l.tries) || (!ok && decide (2 ≤ l.busFails)))) = true then u.loseModule k
      else if l.tries < 2 then (u.updLaser k.val fun x => { x with tries := x.tries + 1 }).challenge k
      else u.refuseModule k m) := by
    show execLaserAuthResponse k m ok s = _
    unfold execLaserAuthResponse
    dsimp only
    rw [if_pos h, if_neg (by simpa using hw)]
    rfl
  rw [runs]
  refine ⟨fun stays few => ?_, fun stays many => ?_, fun goes => ?_⟩
  · rw [if_neg (mt loses.1 stays), if_pos few]
  · rw [if_neg (mt loses.1 stays), if_neg (Nat.not_lt.2 many)]
  · rw [if_pos (loses.2 goes)]

/-- A module that is refused. -/
theorem State.refuseModule_noted (m : ModuleMap) (n : Nat) :
    let l := s.ctl.laser k.val
    (s.setLaser k.val { l with busFails := n }).refuseModule k m =
      ({ s with w := s.w.logEv (socketUnit k.val) 0x0A81 4 0xFF (leNat (bytesAt m.id 0 16)) } : State).setLaser k.val
        { l with st := 3, authFails := satAdd l.authFails 1, busFails := n } := by
  intro l
  have noted : { l with busFails := n } ≠ Laser.zero := Laser.ne_zero h.st_ne_zero
  have refused : (s.setLaser k.val { l with busFails := n }).refuseModule k m =
    (({ s with w := s.w.logEv (socketUnit k.val) 0x0A81 4 0xFF (leNat (bytesAt m.id 0 16)) } : State).setLaser k.val
      { l with busFails := n }).updLaser k.val fun x => { x with st := 3, authFails := satAdd x.authFails 1 } := rfl
  rw [refused, State.updLaser_eq, State.laser_setLaser, State.setLaser_setLaser noted]

end

/-! A lit module's life (R509, R510). -/

theorem exec_laserBiasSample_read {s : State} {k : Fin 4} (h : (s.ctl.laser k.val).st = 2) (h0 : (s.ctl.laser k.val).biasNom ≠ 0)
    (bias : BitVec 16) (temp : Byte) :
    let l := s.ctl.laser k.val
    let x := { l.age bias 0 with temp := temp, busFails := 0 }
    exec (.laserBiasSample k (some bias) temp) s = .next
      (({ s with w := s.w.logLife k.val l.logged (lifePassed x.eqHours.toNat) } : State).setLaser k.val
        { x with logged := max l.logged (lifePassed x.eqHours.toNat) }) := by
  intro l x
  show execLaserBiasSample k (some bias) temp s = _
  unfold execLaserBiasSample
  dsimp only
  rw [if_pos (by simp [Laser.lit, h]), if_neg h0]
  rfl

theorem Laser.age_eq {l : Laser} (h : l.biasNom ≠ 0) (bias : BitVec 16) (free : BitVec 32) :
    let n := l.biasNom.toNat * l.biasNom.toNat
    let p := l.eqPart + bias.toNat * bias.toNat
    l.age bias free = { l with biasNow := bias, eqPart := p % (360 * n), eqHours := l.eqHours + BitVec.ofNat 32 (p / (360 * n)) } := by
  have pos : l.biasNom.toNat ≠ 0 := fun e => h (BitVec.eq_of_toNat_eq e)
  exact if_neg (Nat.mul_ne_zero pos pos)

theorem exec_laserBiasSample_none {s : State} {k : Fin 4} (h : (s.ctl.laser k.val).st = 2) (temp : Byte) :
    exec (.laserBiasSample k none temp) s = .next (s.failBus k) := congrArg Host.Outcome.next (if_pos (by simp [Laser.lit, h]))

/-! A bus transaction with a lit module that fails (R511): it is counted, and the third in a row loses the module. -/

theorem State.failBus_few {s : State} {k : Fin 4} (h : (s.ctl.laser k.val).busFails < 2) :
    s.failBus k = s.setLaser k.val { s.ctl.laser k.val with busFails := (s.ctl.laser k.val).busFails + 1 } := if_pos h

theorem State.lightGone_failBus {s : State} {k : Fin 4} (h : 2 ≤ (s.ctl.laser k.val).busFails) : s.LightGone (s.failBus k) k 6 := by
  rw [State.failBus, if_neg (Nat.not_lt.2 h)]
  exact State.lightGone_loseModule k rfl

/-! A planned release (R512). -/

/-- A socket is fenced, and its ports are drained. -/
def Work.drainSocket (w : Work) (k : Nat) : Work :=
  (socketPorts k).foldl (fun w p => w.drainPort p) { w with fenced := socketUnit k :: w.fenced.filter fun x => decide (x ≠ socketUnit k) }

theorem exec_socketRelease_may {who : Fn} {k : Fin 4} {v : Word} {s : State} (hf : who.fn = 0) (ho : s.fnOpen who = true)
    (hv : v.getLsbD 8 = true) (hs : (s.ctl.laser k.val).st = 2) (hh : (s.ctl.laser k.val).hourly = false) :
    exec (.socketRelease who k v) s = .next
      ((({ s with w := s.w.drainSocket k.val } : State).setLaser k.val { s.ctl.laser k.val with st := 4, hourly := false }).finishRelease k) := by
  show Host.Outcome.next (s.request who fun s => if v.getLsbD 8 then s.releaseSocket who k else s) = _
  rw [State.request_of_open ho, if_pos hv, State.releaseSocket, if_pos (by simp [physical, hf, hs, hh])]
  rfl

theorem exec_socketRelease_ignored {who : Fn} {k : Fin 4} {v : Word} {s : State}
    (h : ¬(who.fn = 0 ∧ s.fnOpen who = true ∧ v.getLsbD 8 = true ∧ (s.ctl.laser k.val).st = 2 ∧ (s.ctl.laser k.val).hourly = false)) :
    exec (.socketRelease who k v) s = .next s := by
  show Host.Outcome.next (s.request who fun s => if v.getLsbD 8 then s.releaseSocket who k else s) = _
  by_cases ho : s.fnOpen who = true
  · rw [State.request_of_open ho]
    by_cases hv : v.getLsbD 8 = true
    · rw [if_pos hv, State.releaseSocket, if_neg (fun c => h ?_)]
      simp only [physical, Bool.and_eq_true, decide_eq_true_eq, beq_iff_eq, Bool.not_eq_true'] at c
      obtain ⟨⟨hf, hs⟩, hh⟩ := c
      exact ⟨hf, ho, hv, hs, hh⟩
    · rw [if_neg hv]
  · rw [State.request_of_closed (Bool.not_eq_true _ ▸ ho)]

/-- A release ends when nothing waits for the socket's ports. -/
theorem State.lightGone_finishRelease {s u : State} {k : Fin 4} (hp : u.pending = s.pending) (hs : (u.ctl.laser k.val).st = 4)
    (h : (socketPorts k.val).any (fun p => u.w.portBusy p.val) = false) : s.LightGone (u.finishRelease k) k 5 := by
  have ends : u.finishRelease k = ({ u with w := ((u.writeLife k).w.lightOff k.val).logEv (socketUnit k.val) 0x0AFF 0 0xFF k.val } : State).updLaser
      k.val fun l => { l with st := 5, authed := false, hourly := false } := if_pos ⟨hs, h⟩
  rw [ends]
  refine State.lightGone_of (w := (u.writeLife k).w) ?_ rfl ?_ ?_
  · simp only [State.updLaser, State.onCtl_pending, hp]
  all_goals rw [State.laser_updLaser]
  rfl

theorem State.finishRelease_busy {u : State} {k : Fin 4} (h : (socketPorts k.val).any (fun p => u.w.portBusy p.val) = true) :
    u.finishRelease k = u := if_neg (by simp [h])

/-! Insertion, removal and interrupts (R506, R507, R511-R513, R516). -/

section
variable {s : State} {k : Fin 4}

theorem exec_laserPresenceAssert (h : (s.ctl.laser k.val).present = false) :
    let u := s.setLaser k.val { s.ctl.laser k.val with present := true, logged := 0 }
    exec (.laserPresenceAssert k) s = .next (if s.ctl.boot.phase.toNat < 4 then u else u.beginAuth k) := by
  show execLaserPresenceAssert k s = _
  unfold execLaserPresenceAssert
  rw [if_neg (by simp [h])]
  rfl

theorem exec_laserPresenceAssert_ignored (h : (s.ctl.laser k.val).present = true) : exec (.laserPresenceAssert k) s = .next s :=
  congrArg Host.Outcome.next (if_pos h)

/-- A module is drawing light from its socket, or is about to (R513). -/
@[reducible] def Laser.inUse (l : Laser) : Prop := l.st = 1 ∨ l.st = 2 ∨ l.st = 4

theorem exec_laserPresenceDeassert (h : (s.ctl.laser k.val).present = true) :
    let l := s.ctl.laser k.val
    let u := s.setLaser k.val { l with present := false, int := false }
    (l.inUse → exec (.laserPresenceDeassert k) s = .next (u.loseModule k)) ∧
    (¬l.inUse → exec (.laserPresenceDeassert k) s = .next (u.updLaser k.val fun x => { x with st := 0 })) := by
  intro l u
  have runs : exec (.laserPresenceDeassert k) s = .next (if l.inUse then u.loseModule k else u.updLaser k.val fun x => { x with st := 0 }) := by
    show execLaserPresenceDeassert k s = _
    unfold execLaserPresenceDeassert
    dsimp only
    rw [if_neg (by simp [h])]
    rfl
  rw [runs]
  exact ⟨fun c => by rw [if_pos c], fun c => by rw [if_neg c]⟩

theorem exec_laserPresenceDeassert_ignored (h : (s.ctl.laser k.val).present = false) : exec (.laserPresenceDeassert k) s = .next s :=
  congrArg Host.Outcome.next (if_pos (by simp [h]))

/-- An interrupt says what its module has (R511). -/
def Laser.hit (l : Laser) (status : Option Byte) : Prop :=
  ∃ b, status = some b ∧ (l.hourly = true ∨ b.getLsbD 0 = true ∨ b.getLsbD 1 = true)

theorem exec_laserInterrupt (h : (s.ctl.laser k.val).present = true) (status : Option Byte) :
    let l := s.ctl.laser k.val
    let u := s.setLaser k.val { l with int := status.isSome }
    (l.hit status ∧ l.inUse → exec (.laserInterrupt k status) s = .next (u.loseModule k)) ∧
    (¬(l.hit status ∧ l.inUse) → exec (.laserInterrupt k status) s = .next u) := by
  intro l u
  have loses : ((l.hourly && status.isSome || status.any fun b => b.getLsbD 0 || b.getLsbD 1) && (l.st == 1 || l.st == 2 || l.st == 4)) = true ↔
      l.hit status ∧ l.inUse := by
    cases status <;> simp [Laser.hit, Laser.inUse, or_assoc]
  have runs : exec (.laserInterrupt k status) s = .next (
      if ((l.hourly && status.isSome || status.any fun b => b.getLsbD 0 || b.getLsbD 1) && (l.st == 1 || l.st == 2 || l.st == 4)) = true
      then u.loseModule k else u) := by
    show execLaserInterrupt k status s = _
    unfold execLaserInterrupt
    dsimp only
    rw [if_neg (by simp [h])]
    rfl
  rw [runs]
  exact ⟨fun c => by rw [if_pos (loses.2 c)], fun c => by rw [if_neg (mt loses.1 c)]⟩

theorem exec_laserInterrupt_ignored (h : (s.ctl.laser k.val).present = false) (status : Option Byte) :
    exec (.laserInterrupt k status) s = .next s := congrArg Host.Outcome.next (if_pos (by simp [h]))

/-! Light, and the hours written back (R508, R509). -/

/-- A socket is in service, and its ports start. -/
def Work.lightSocket (w : Work) (k : Nat) : Work :=
  (socketPorts k).foldl (fun (w : Work) p => w.portStart p.val) { w with inReset := w.inReset.filter fun x => decide (x ≠ socketUnit k) }

theorem Work.isDown_lightSocket (w : Work) (k : Nat) : (w.lightSocket k).isDown (socketUnit k) = false := by
  have kept : (w.lightSocket k).inReset = w.inReset.filter fun x => decide (x ≠ socketUnit k) := by
    unfold Work.lightSocket
    exact (Work.Steady.foldl (fun w (p : Fin 32) => Work.Steady.portStart w p.val) _ _).inReset
  simp [Work.isDown, kept]

theorem exec_laserLightStable (h1 : (s.ctl.laser k.val).st = 1) (ha : (s.ctl.laser k.val).authed = true) :
    exec (.laserLightStable k) s = .next (({ s with w := s.w.lightSocket k.val } : State).setLaser k.val { s.ctl.laser k.val with st := 2 }) :=
  congrArg Host.Outcome.next (if_pos ⟨h1, ha⟩)

theorem exec_laserLifeWrite (h : (s.ctl.laser k.val).st = 2) (b : BusEnd) :
    exec (.laserLifeWrite ⟨k, b⟩) s = .next (match b with
      | .done => (((s.writeLife k).noteBus k true).updLaser k.val fun l => { l with hourly := true, tries := 0 }).challenge k
      | .failed => s.failBus k
      | .interrupted => (s.updLaser k.val fun l => { l with int := true }).loseModule k) := congrArg Host.Outcome.next (if_pos h)

end

/-- Settles O45: a module's record is set once by each answer (`State.setLaser_setLaser`); what a lost module's ports and socket show comes
from `State.lightGone_of`. -/
theorem laserModuleResults : Obligations.LaserModuleResults := by
  intro k m bias temp status who v s l sock nonce put asks goes asked right
  have asksOf {i : Instr} {out : List Emit} {x : Laser} {t : State} (e : exec i s = .next t) (h : s.Asked t k out x) :
      asks i out x := ⟨t, e, h.pending, h.record, h.work⟩
  have goesOf {i : Instr} {st : BitVec 8} {t : State} (e : exec i s = .next t) (h : s.LightGone t k st) : goes i st :=
    ⟨t, e, h.pending, h.authed, h.st, h.down, h.ports⟩
  refine ⟨fun absent ready => ?inserted, fun absent early => ?waits, fun hq hr => ?right, fun ok hq hw => ?wrong, fun h1 ha => ?lit,
    fun h2 h0 => ?aged, fun h2 few => ?missed, fun h2 many => ?silent, fun h2 => ?written, fun h2 => ⟨fun few => ?unwritten, fun many => ?lost,
      ?interrupted⟩, fun here hs => ?pulled, fun here hs => ?pulledDark, ⟨fun here hit hs => ?fault, fun here hn => ?signal⟩,
    fun absent => ⟨?noSignal, ?noPull⟩, fun here => ?stays, fun hn ok => ?unasked, fun hn => ?unlit, fun hn b => ?unwrittenDark,
    exec_socketRelease_ignored, fun may => ?release⟩
  case inserted =>
    refine asksOf ((exec_laserPresenceAssert absent).trans (by rw [if_neg (Nat.not_lt.2 ready)])) ?_
    exact State.asked_updLaser (s := s) (u := s.setLaser k.val { l with present := true, logged := 0 }) (out := []) rfl rfl (State.laser_setLaser ..)
      fun l => { l with st := 1, tries := 0, authed := false, hourly := false, busFails := 0, int := false }
  case waits => exact (exec_laserPresenceAssert absent).trans (by rw [if_pos early]; rfl)
  case right =>
    refine (exec_laserAuthResponse_right hq hr).trans ?_
    dsimp only
    by_cases hh : l.hourly = true
    · rw [if_pos hh, if_pos hh, if_pos hh]; rfl
    · rw [if_neg hh, if_neg hh, if_neg hh]; rfl
  case wrong =>
    obtain ⟨again, refused, lost⟩ := exec_laserAuthResponse_wrong hq hw
    refine ⟨fun stays few => asksOf (again stays few) ?_, fun stays many => (refused stays many).trans ?_,
      fun goes => goesOf (lost goes) (State.lightGone_loseModule k rfl)⟩
    · exact State.asked_updLaser (s := s) (u := s.setLaser k.val { l with busFails := l.fails ok }) (out := []) rfl rfl (State.laser_setLaser ..)
        fun l => { l with tries := l.tries + 1 }
    · rw [State.refuseModule_noted hq]
      rfl
  case lit =>
    have runs := exec_laserLightStable h1 ha
    have down := s.w.isDown_lightSocket k.val
    generalize s.w.lightSocket k.val = w at runs down
    exact ⟨_, runs, State.laser_setLaser .., down⟩
  case aged =>
    refine (exec_laserBiasSample_read h2 h0 bias temp).trans ?_
    rw [Laser.age_eq h0]
    rfl
  case missed =>
    exact (exec_laserBiasSample_none h2 temp).trans (congrArg Host.Outcome.next (State.failBus_few few))
  case silent =>
    exact goesOf (exec_laserBiasSample_none h2 temp) (State.lightGone_failBus many)
  case written =>
    exact asksOf (exec_laserLifeWrite h2 .done) (State.asked_updLaser (s := s) (u := (s.writeLife k).noteBus k true)
      (out := [.module k 16 (leBytes 4 l.eqHours.toNat)]) rfl rfl (State.laser_updLaser ..) fun l => { l with hourly := true, tries := 0 })
  case unwritten => exact (exec_laserLifeWrite h2 .failed).trans (congrArg Host.Outcome.next (State.failBus_few few))
  case lost => exact goesOf (exec_laserLifeWrite h2 .failed) (State.lightGone_failBus many)
  case interrupted => exact goesOf (exec_laserLifeWrite h2 .interrupted) (State.lightGone_loseModule k rfl)
  case pulled =>
    obtain ⟨loses, -⟩ := exec_laserPresenceDeassert here
    exact goesOf (loses hs) (State.lightGone_loseModule k rfl)
  case pulledDark =>
    obtain ⟨-, empties⟩ := exec_laserPresenceDeassert here
    refine ⟨_, empties hs, rfl, ?_⟩
    rw [State.laser_updLaser, State.laser_setLaser]
  case fault =>
    obtain ⟨loses, -⟩ := exec_laserInterrupt here status
    exact goesOf (loses ⟨hit, hs⟩) (State.lightGone_loseModule k rfl)
  case signal =>
    obtain ⟨-, shows⟩ := exec_laserInterrupt here status
    exact shows hn
  case noSignal => exact exec_laserInterrupt_ignored absent status
  case noPull => exact exec_laserPresenceDeassert_ignored absent
  case stays => exact exec_laserPresenceAssert_ignored here
  case unasked => exact congrArg Host.Outcome.next (if_neg hn)
  case unlit => exact congrArg Host.Outcome.next (if_neg hn)
  case unwrittenDark => exact congrArg Host.Outcome.next (if_neg hn)
  case release =>
    obtain ⟨hf, ho, hv, hs, hh⟩ := may
    have runs := exec_socketRelease_may hf ho hv hs hh
    intro w1 drains
    have drained : s.w.drainSocket k.val = w1 := rfl
    rw [drained] at runs
    clear_value w1
    refine ⟨fun quiet => goesOf runs (State.lightGone_finishRelease (State.setLaser_pending ..) ?_ quiet), fun busy => runs.trans ?_⟩
    · rw [State.laser_setLaser]
    · rw [State.finishRelease_busy busy]
      rfl

end Sys2Proof.Machine
end

section
/-! What leaves the device stays among what has left it (R268-R272, R276, R279); what traffic leaves of a port; and a port that trains anew or
goes down (R266, R271, R410, R412). -/

namespace Sys2Proof.Machine

/-! A field of a port that packets do not touch. -/

theorem Port.Traffic.keeps {y y' : Port} (h : y.Traffic y') {α : Type} (g : Port → α)
    (hg : ∀ (q : Port) tail txFlit replay line owed credits shared rxRes rxShared slotQ misses txq, g { q with
      tail := tail, txFlit := txFlit, replay := replay, line := line, owed := owed, credits := credits, shared := shared, rxRes := rxRes
      rxShared := rxShared, slotQ := slotQ, misses := misses, txq := txq } = g q := by intros; rfl) : g y' = g y := by
  rw [h]
  exact hg ..

theorem Work.Quiet.keeps {w w' : Work} (h : w.Quiet w') (p : Nat) {α : Type} (g : Port → α)
    (hg : ∀ (q : Port) tail txFlit replay line owed credits shared rxRes rxShared slotQ misses txq, g { q with
      tail := tail, txFlit := txFlit, replay := replay, line := line, owed := owed, credits := credits, shared := shared, rxRes := rxRes
      rxShared := rxShared, slotQ := slotQ, misses := misses, txq := txq } = g q := by intros; rfl) : g (w'.port p) = g (w.port p) :=
  (h.port p).keeps g hg

/-! What has left the device. -/

/-- What had left the device is still among what has left it. -/
def Work.Grows (w w' : Work) : Prop := w.out <:+ w'.out

namespace Work.Grows

theorem refl (w : Work) : w.Grows w := List.suffix_refl _
theorem trans {a b c : Work} (h1 : a.Grows b) (h2 : b.Grows c) : a.Grows c := List.IsSuffix.trans h1 h2
theorem of_eq {w w' : Work} (h : w'.out = w.out) : w.Grows w' := by unfold Work.Grows; rw [h]

theorem foldl {α : Type} {f : Work → α → Work} (h : ∀ (w : Work) a, w.Grows (f w a)) (l : List α) (w : Work) : w.Grows (l.foldl f w) :=
  List.foldlRecOn l f (refl w) fun b hb a _ => hb.trans (h b a)

theorem ite {w a b : Work} (c : Prop) [Decidable c] (ha : w.Grows a) (hb : w.Grows b) : w.Grows (if c then a else b) := by
  split <;> assumption

theorem mem {w w' : Work} (h : w.Grows w') {e : Emit} (he : e ∈ w.out) : e ∈ w'.out := List.IsSuffix.mem he h

section
variable (w : Work) (p : Fin 32)

theorem emit (e : Emit) : w.Grows (w.emit e) := List.suffix_cons ..
theorem updPort (i : Nat) (f : Port → Port) : w.Grows (w.updPort i f) := refl w
theorem newEpoch (u : BitVec 16) : w.Grows (w.newEpoch u) := List.suffix_cons ..

theorem sendFlit (typ : BitVec 4) (seq : BitVec 16) (start : BitVec 5) (body : List Byte) : w.Grows (w.sendFlit p typ seq start body) :=
  List.suffix_cons ..

theorem flushTail : w.Grows (w.flushTail p) := by
  unfold Work.flushTail
  split
  · exact refl w
  · exact trans (updPort w p.val _) (sendFlit ..)

theorem putBytes (k : Pkt) (n : Nat) (bs : List Byte) (st : BitVec 5) : w.Grows (w.putBytes p k n bs st) := by
  induction n generalizing w bs st with
  | zero => exact refl w
  | succ n ih =>
    unfold Work.putBytes
    dsimp only
    refine ite _ ?_ (Work.Grows.trans ?_ (ih _ _ _))
    all_goals exact trans (updPort w p.val _) (ite _ (flushTail ..) (refl _))

theorem markSent (k : Pkt) : w.Grows (w.markSent p k) := ite _ (of_eq rfl) (refl w)

theorem putPacket (k : Pkt) : w.Grows (w.putPacket p k) := by
  have first : w.Grows (if (w.port p.val).canJoin k then w else w.flushTail p) := ite _ (refl w) (flushTail ..)
  exact first.trans ((putBytes ..).trans ((markSent ..).trans (emit ..)))

theorem idle (n : Nat) : w.Grows (w.idle p n) := by
  induction n generalizing w with
  | zero => exact refl w
  | succ n ih => exact ite _ (refl w) ((sendFlit ..).trans (ih _))

theorem returnCredits : w.Grows (w.returnCredits p) := ite _ ((flushTail ..).trans (idle ..)) (refl w)
theorem giveBack (h : RxHold) : w.Grows (w.giveBack h) := ite _ (trans (updPort ..) (returnCredits ..)) (refl w)

theorem giveRoom (h : Option RxHold) : w.Grows (w.giveRoom h) := by
  cases h with
  | none => exact refl w
  | some h => exact giveBack w h

theorem waitAt (x : Queued) : w.Grows (w.waitAt p x) := ite _ (updPort ..) (updPort ..)

theorem transmit (x : Queued) : w.Grows (w.transmit p x) := by
  unfold Work.transmit
  dsimp only
  refine ite _ (waitAt ..) (ite _ ?_ (waitAt ..))
  split
  · exact trans (updPort w p.val _) ((putPacket ..).trans (giveRoom ..))
  · exact waitAt ..

theorem reroute (x : Queued) (k : Bool) : w.Grows (w.reroute p x k) := by
  unfold Work.reroute
  dsimp only
  split
  · exact transmit ..
  · exact ite _ (waitAt ..) (giveRoom ..)

theorem evacuate (k : Bool) : w.Grows (w.evacuate p k) := trans (updPort w p.val _) (foldl (fun _ _ => reroute ..) _ _)

theorem fillPair (n : Nat) : w.Grows (w.fillPair p n) := by
  induction n generalizing w with
  | zero => exact refl w
  | succ n ih => exact ite _ (refl w) ((sendFlit ..).trans (ih _))

theorem sendPairs (fuel : Nat) (l : List Flit) (n : Nat) : w.Grows (w.sendPairs p fuel l n) := by
  induction fuel generalizing w l n with
  | zero => exact refl w
  | succ fuel ih => exact ite _ (refl w) ((emit ..).trans (ih _ _ _))

theorem closeLine : w.Grows (w.closeLine p) :=
  ((flushTail w p).trans (fillPair ..)).trans (trans (updPort _ p.val _) (sendPairs ..))

theorem sendOrdered (t : Byte) : w.Grows (w.sendOrdered p t) := foldl (fun _ _ => emit ..) _ w
theorem sendCtl (code : Byte) (args : List Byte) : w.Grows (w.sendCtl p code args) := (flushTail ..).trans (sendFlit ..)

end
end Work.Grows

theorem ctlSent.mono {p : Fin 32} {code : Byte} {args : List Byte} {w w' : Work} (h : ctlSent p code args w.out) (hg : w.Grows w') :
    ctlSent p code args w'.out := by
  obtain ⟨g, mem, rest⟩ := h
  exact ⟨g, hg.mem mem, rest⟩

/-! The flits of a port while packets leave by others (R272, R276, R279): the one that is being filled, and those that stand for replay. -/

/-- Of a port, the flit that is being filled and the replay buffer stay. -/
def Work.KeepsFlits (p : Fin 32) (w w' : Work) : Prop :=
  (w'.port p.val).tail = (w.port p.val).tail ∧ (w'.port p.val).replay = (w.port p.val).replay

namespace Work.KeepsFlits
variable {p : Fin 32}

theorem refl (w : Work) : KeepsFlits p w w := ⟨rfl, rfl⟩
theorem trans {a b c : Work} (h1 : KeepsFlits p a b) (h2 : KeepsFlits p b c) : KeepsFlits p a c :=
  ⟨h2.1.trans h1.1, h2.2.trans h1.2⟩

theorem ite {w a b : Work} (c : Prop) [Decidable c] (ha : KeepsFlits p w a) (hb : KeepsFlits p w b) : KeepsFlits p w (if c then a else b) := by
  split <;> assumption

theorem of_port {w w' : Work} (h : w'.port p.val = w.port p.val) : KeepsFlits p w w' := by unfold KeepsFlits; rw [h]; exact ⟨rfl, rfl⟩

/-- A port changed in what is no flit. -/
theorem updPort (w : Work) (i : Nat) {f : Port → Port} (h : (f (w.port i)).tail = (w.port i).tail ∧ (f (w.port i)).replay = (w.port i).replay) :
    KeepsFlits p w (w.updPort i f) := by
  by_cases hi : p.val = i
  · subst hi; unfold KeepsFlits; rw [Work.port_updPort_same]; exact h
  · exact of_port (Work.port_updPort_other _ _ hi)

theorem updPort_other (w : Work) {q : Fin 32} (h : q ≠ p) (f : Port → Port) : KeepsFlits p w (w.updPort q.val f) :=
  of_port (Work.port_updPort_other _ _ fun e => h (Fin.ext e.symm))

theorem sendFlit (w : Work) (q : Fin 32) (typ : BitVec 4) (seq : BitVec 16) (start : BitVec 5) (body : List Byte) :
    KeepsFlits p w (w.sendFlit q typ seq start body) := by
  have kept : ((w.port q.val).nextCredit.2.tail = (w.port q.val).tail ∧ (w.port q.val).nextCredit.2.replay = (w.port q.val).replay) := by
    unfold Port.nextCredit
    split
    · exact ⟨rfl, rfl⟩
    · split <;> exact ⟨rfl, rfl⟩
  exact trans (updPort _ _ kept) (of_port (by exact rfl))

theorem idle (w : Work) (q : Fin 32) (n : Nat) : KeepsFlits p w (w.idle q n) := by
  induction n generalizing w with
  | zero => exact refl w
  | succ n ih => exact ite _ (refl w) ((sendFlit ..).trans (ih _))

theorem waitAt (w : Work) (q : Fin 32) (x : Queued) : KeepsFlits p w (w.waitAt q x) := ite _ (updPort _ _ ⟨rfl, rfl⟩) (updPort _ _ ⟨rfl, rfl⟩)

section
variable {q : Fin 32} (h : q ≠ p)
include h

theorem flushTail (w : Work) : KeepsFlits p w (w.flushTail q) := by
  unfold Work.flushTail
  split
  · exact refl w
  · exact (updPort_other _ h _).trans (sendFlit ..)

theorem putBytes (w : Work) (k : Pkt) (n : Nat) (bs : List Byte) (st : BitVec 5) : KeepsFlits p w (w.putBytes q k n bs st) := by
  induction n generalizing w bs st with
  | zero => exact refl w
  | succ n ih =>
    unfold Work.putBytes
    dsimp only
    refine ite _ ?_ (Work.KeepsFlits.trans ?_ (ih _ _ _))
    all_goals exact (updPort_other _ h _).trans (ite _ (flushTail h _) (refl _))

theorem putPacket (w : Work) (k : Pkt) : KeepsFlits p w (w.putPacket q k) := by
  have first : KeepsFlits p w (if (w.port q.val).canJoin k then w else w.flushTail q) := ite _ (refl w) (flushTail h w)
  have marked (w : Work) : KeepsFlits p w (w.markSent q k) := ite _ (of_port rfl) (refl w)
  exact first.trans ((putBytes h ..).trans ((marked _).trans (of_port rfl)))

end

/-- A port that is not ACTIVE returns no credits. -/
theorem returnCredits {w : Work} (hp : (w.port p.val).isActive = false) (q : Fin 32) : KeepsFlits p w (w.returnCredits q) := by
  by_cases hq : q = p
  · subst hq
    rw [Work.returnCredits, if_neg (by simp [hp])]
    exact refl w
  · exact ite _ ((flushTail hq w).trans (idle ..)) (refl w)

theorem giveRoom {w : Work} (hp : (w.port p.val).isActive = false) (x : Option RxHold) : KeepsFlits p w (w.giveRoom x) := by
  cases x with
  | none => exact refl w
  | some x =>
    refine ite _ ((updPort _ _ ⟨rfl, rfl⟩).trans (returnCredits ?_ _)) (refl w)
    rw [← hp]
    exact (Quiet.updPort _ _ _ (by exact rfl)).keeps p.val Port.isActive

theorem transmit {w : Work} (hp : (w.port p.val).isActive = false) {q : Fin 32} (hq : q ≠ p) (x : Queued) : KeepsFlits p w (w.transmit q x) := by
  unfold Work.transmit
  dsimp only
  refine ite _ (waitAt ..) (ite _ ?_ (waitAt ..))
  split
  next po' taken =>
    have quiet : w.Quiet ((w.updPort q.val fun _ => po').putPacket q x.pkt) := (Quiet.updPort _ _ _ (.takeCredits taken)).trans (.putPacket ..)
    exact ((updPort_other _ hq _).trans (putPacket hq ..)).trans (giveRoom ((quiet.keeps p.val Port.isActive).trans hp) _)
  next => exact waitAt ..

/-- A routing entry names ports of the device. -/
theorem lt_of_mem_ports {e : Route} {i : Nat} (h : i ∈ e.ports) : i < 32 := by
  obtain ⟨b, -, rfl⟩ := List.mem_map.1 (List.mem_of_mem_take h)
  exact b.isLt

/-- What leaves a port for another way. -/
theorem reroute {w : Work} (hp : (w.port p.val).isActive = false) (x : Queued) (keep : Bool) : KeepsFlits p w (w.reroute p x keep) := by
  unfold Work.reroute
  dsimp only
  split
  next i hi =>
    have listed : i ∈ (w.routePorts (w.port p.val).part x.pkt.dest).filter fun i => decide (i ≠ p.val) := by
      split at hi
      · cases hi
      · exact List.mem_of_head? hi
    obtain ⟨routed, ne⟩ := List.mem_filter.1 listed
    have lt : i < 32 := by
      unfold Work.routePorts at routed
      dsimp only at routed
      split at routed
      · exact lt_of_mem_ports (List.mem_filter.1 routed).1
      · cases routed
    refine transmit hp (fun e => of_decide_eq_true ne ?_) x
    rw [← e]
    exact (Nat.mod_eq_of_lt lt).symm
  next => exact ite _ (waitAt ..) (giveRoom hp _)

/-- A port that is evacuated has no flits left. -/
theorem evacuated {w : Work} (hp : (w.port p.val).isActive = false) (keep : Bool) :
    ((w.evacuate p keep).port p.val).tail = none ∧ ((w.evacuate p keep).port p.val).replay = [] := by
  have cleared := w.port_updPort_same p.val fun y => { y with replay := [], tail := none, txq := [], slotQ := [] }
  have each (l : List Queued) (v : Work) (hv : (v.port p.val).isActive = false) :
      KeepsFlits p v (l.foldl (fun w x => w.reroute p x keep) v) := by
    induction l generalizing v with
    | nil => exact refl v
    | cons x l ih => exact (reroute hv x keep).trans (ih _ (((Quiet.reroute v p x keep).keeps p.val Port.isActive).trans hv))
  unfold Work.evacuate
  extract_lets po sent l w1
  obtain ⟨tail, replay⟩ := each l w1 (by unfold w1; rw [cleared]; exact hp)
  unfold w1 at tail replay ⊢
  rw [tail, replay, cleared]
  exact ⟨rfl, rfl⟩

end Work.KeepsFlits

/-! A port that trains anew (R271, R412). -/

/-- A link session is gone, RETRAINS and the epoch count, and what the port is to send stands. -/
structure Work.Anew (w x : Work) (p : Fin 32) (own : Bool) : Prop where
  st : (x.port p.val).st = 2
  linkKey : (x.port p.val).linkKey = none
  newKey : (x.port p.val).newKey = none
  replay : (x.port p.val).replay = []
  tail : (x.port p.val).tail = none
  retrains : (x.port p.val).retrains = satAdd (w.port p.val).retrains 1
  ctl : (x.port p.val).ctl = if own then [.retrain] else []
  good : (x.port p.val).good = (w.port p.val).good
  graceEnd : (x.port p.val).graceEnd = (w.port p.val).graceEnd
  asked : own = true → ctlSent p 0x06 [] x.out
  epoch : x.epochs.get 0 (portUnit p.val).toNat = w.epochs.get 0 (portUnit p.val).toNat + 1

theorem Work.port_sendOrdered (w : Work) (p : Fin 32) (t : Byte) (k : Nat) : (w.sendOrdered p t).port k = w.port k :=
  foldl_kept (get := fun w : Work => w.port k) (by intros; rfl) w

/-- A port whose session is gone and which trains anew. -/
def Port.anew (own : Bool) (y : Port) : Port := { y.forgetLink with st := 2, retrains := satAdd y.retrains 1, ctl := if own then [.retrain] else [] }

theorem Work.retrain_active {w : Work} {p : Fin 32} (h : (w.port p.val).isActive = true) (own : Bool) : w.Anew (w.retrain p own) p own := by
  have told : w.Quiet (if own then w.sendCtl p 0x06 [] else w) := .ite _ (.sendCtl ..) (.refl w)
  have asked : own = true → ctlSent p 0x06 [] (if own then w.sendCtl p 0x06 [] else w).out := fun o => by rw [if_pos o]; exact ctlSent_sendCtl ..
  have open_ : w.retrain p own = ((((((if own then w.sendCtl p 0x06 [] else w).closeLine p).updPort p.val (Port.anew own)).evacuate p true).newEpoch
    (portUnit p.val)).sendOrdered p 0x1E) := if_pos h
  rw [open_]
  generalize (if own then w.sendCtl p 0x06 [] else w) = w0 at told asked
  have closed : w.Quiet (w0.closeLine p) := told.trans (.closeLine ..)
  have grown : w0.Grows (w0.closeLine p) := .closeLine ..
  generalize w0.closeLine p = w1 at closed grown
  have set := w1.port_updPort_same p.val (Port.anew own)
  have left : (w1.updPort p.val (Port.anew own)).Quiet ((w1.updPort p.val (Port.anew own)).evacuate p true) := .evacuate ..
  have out : w1.Grows ((w1.updPort p.val (Port.anew own)).evacuate p true) := .trans (.updPort ..) (.evacuate ..)
  have empty := Work.KeepsFlits.evacuated (w := w1.updPort p.val (Port.anew own)) (p := p) (by rw [set]; rfl) true
  have epochs : ((w1.updPort p.val (Port.anew own)).evacuate p true).epochs = w.epochs := left.epochs.trans closed.epochs
  have kept {α : Type} (g : Port → α) (hg) : g (((w1.updPort p.val (Port.anew own)).evacuate p true).port p.val) = g ((w1.port p.val).anew own) :=
    (left.keeps p.val g hg).trans (congrArg g set)
  generalize (w1.updPort p.val (Port.anew own)).evacuate p true = w2 at empty epochs kept out
  have port : ((w2.newEpoch (portUnit p.val)).sendOrdered p 0x1E).port p.val = w2.port p.val := Work.port_sendOrdered ..
  have after : ((w2.newEpoch (portUnit p.val)).sendOrdered p 0x1E).epochs = (w2.newEpoch (portUnit p.val)).epochs :=
    (Work.Quiet.sendOrdered ..).epochs
  refine ⟨?_, ?_, ?_, ?_, ?_, ?_, ?_, ?_, ?_, fun o => (asked o).mono ?_, ?_⟩
  · rw [port, kept Port.st (by intros; rfl)]; rfl
  · rw [port, kept Port.linkKey (by intros; rfl)]; rfl
  · rw [port, kept Port.newKey (by intros; rfl)]; rfl
  · rw [port, empty.2]
  · rw [port, empty.1]
  · rw [port, kept Port.retrains (by intros; rfl), ← closed.keeps p.val Port.retrains]; rfl
  · rw [port, kept Port.ctl (by intros; rfl)]; rfl
  · rw [port, kept Port.good (by intros; rfl), ← closed.keeps p.val Port.good]; rfl
  · rw [port, kept Port.graceEnd (by intros; rfl), ← closed.keeps p.val Port.graceEnd]; rfl
  · exact grown.trans (out.trans ((Work.Grows.newEpoch ..).trans (.sendOrdered ..)))
  · rw [after, ← epochs]
    exact Work.epochOf_newEpoch_same ..

/-! A port that fails (R266, R424). -/

/-- An ACTIVE port goes down: its link session is gone, and its epoch counts. -/
structure Work.Down (w x : Work) (p : Fin 32) (st : Nat) : Prop where
  st : (x.port p.val).st = st
  linkKey : (x.port p.val).linkKey = none
  lambdas : (x.port p.val).lambdas = 0
  good : (x.port p.val).good = (w.port p.val).good
  epoch : x.epochs.get 0 (portUnit p.val).toNat = w.epochs.get 0 (portUnit p.val).toNat + 1

namespace Work.Stops

theorem remoteDone (w : Work) (c : CtxId) (i : Nat) (s : Byte) : w.Stops (w.remoteDone c i s) := by
  have forgotten : w.Stops (w.forgetRemote c i) := ⟨rfl, fun _ => rfl, fun _ => .refl _, fun _ => rfl⟩
  unfold Work.remoteDone
  split
  · exact refl w
  · exact ite _ (refl w) (ite _ (forgotten.trans (fault ..)) (ite _ (updCtx ..) (refl w)))

/-- A transfer that has sent nothing is taken back (R410). -/
theorem withdraw (w : Work) (c : CtxId) (i : Nat) : w.Stops (w.withdraw c i) := by
  have sent (t : List (FlowKey × SendFlow)) : w.Stops { w with fab := { w.fab with send := t } } :=
    ⟨rfl, fun _ => rfl, fun _ => .refl _, fun _ => rfl⟩
  unfold Work.withdraw
  dsimp only
  exact trans (trans (sent _) (foldl (fun w _ => ite _ (refl w) (Quiet.updPort _ _ _ (by exact rfl)).stops) _ _)) (remoteDone ..)

theorem abortUnsent (w : Work) (p : Fin 32) : w.Stops (w.abortUnsent p) := foldl (fun w _ => ite _ (withdraw ..) (refl w)) _ w

theorem keeps {w w' : Work} (h : w.Stops w') (p : Nat) {α : Type} (g : Port → α)
    (hg : ∀ (q : Port) tail txFlit replay line owed credits shared rxRes rxShared slotQ misses txq, g { q with
      tail := tail, txFlit := txFlit, replay := replay, line := line, owed := owed, credits := credits, shared := shared, rxRes := rxRes
      rxShared := rxShared, slotQ := slotQ, misses := misses, txq := txq } = g q := by intros; rfl) : g (w'.port p) = g (w.port p) :=
  (h.port p).keeps g hg

end Work.Stops

/-- A port whose session is gone and which is down, with what it had sent. -/
def Port.downWith (st : Nat) (sent : List (FlowKey × Word)) (y : Port) : Port :=
  { y.forgetLink with st := st, lambdas := 0, txLambdas := 0, drainOf := sent }

theorem Work.portDown_active {w : Work} {p : Fin 32} (h : (w.port p.val).isActive = true) (st : Nat) : w.Down (w.portDown p st) p st := by
  have aborted : w.Stops ((w.closeLine p).abortUnsent p) := (Quiet.closeLine ..).stops.trans (.abortUnsent ..)
  have open_ : w.portDown p st = ((((w.closeLine p).abortUnsent p).updPort p.val
    (Port.downWith st (((w.closeLine p).abortUnsent p).portWork p))).evacuate p false).newEpoch (portUnit p.val) := if_pos h
  rw [open_]
  generalize (w.closeLine p).abortUnsent p = w1 at aborted
  have set := w1.port_updPort_same p.val (Port.downWith st (w1.portWork p))
  have left : (w1.updPort p.val (Port.downWith st (w1.portWork p))).Quiet ((w1.updPort p.val (Port.downWith st (w1.portWork p))).evacuate p false) :=
    .evacuate ..
  have kept {α : Type} (g : Port → α) (hg) := (left.keeps p.val g hg).trans (congrArg g set)
  have epochs : _ = w.epochs := left.epochs.trans aborted.epochs
  generalize (w1.updPort p.val (Port.downWith st (w1.portWork p))).evacuate p false = w2 at kept epochs
  refine ⟨kept Port.st (by intros; rfl), kept Port.linkKey (by intros; rfl), kept Port.lambdas (by intros; rfl),
    (kept Port.good (by intros; rfl)).trans (aborted.keeps p.val Port.good), ?_⟩
  rw [← epochs]
  exact Work.epochOf_newEpoch_same ..

/-- A failure is logged. -/
theorem Work.Down.logPort {w x : Work} {p : Fin 32} {st : Nat} (h : w.Down x p st) (sev n : Nat) : w.Down (x.logPort p.val sev n) p st :=
  ⟨h.st, h.linkKey, h.lambdas, h.good, h.epoch⟩

theorem Work.portFailed_active {w : Work} {p : Fin 32} (h : (w.port p.val).isActive = true) : w.Down (w.portFailed p) p 6 :=
  (Work.portDown_active h 6).logPort ..

end Sys2Proof.Machine
end

section
/-! O46: flits, acknowledgment, credits, replay and spare wavelengths (R264, R266-R269, R272, R273, R279, R297). -/

namespace Sys2Proof.Machine

/-! The codewords that a flit reports (R267, R297). -/

theorem Port.countCodewords_eq (y : Port) (f : Flit) : y.countCodewords f = { y with
    corrected := (y.countCodewords f).corrected, recent := (y.countCodewords f).recent, uncorrectable := (y.countCodewords f).uncorrectable } := by
  unfold Port.countCodewords
  refine List.foldlRecOn f.codewords _
    (motive := fun z : Port => z = { y with corrected := z.corrected, recent := z.recent, uncorrectable := z.uncorrectable }) rfl fun z hz c _ => ?_
  have counted (a : BitVec 32) (n : Nat) (b : BitVec 16) : { z with corrected := a, recent := n, uncorrectable := b } =
      { y with corrected := a, recent := n, uncorrectable := b } := by rw [hz]
  split
  · exact counted (satAdd z.corrected c.1) (z.recent + c.1) z.uncorrectable
  · exact counted z.corrected z.recent (satAdd z.uncorrectable 1)

/-- A field that the count of codewords does not touch. -/
theorem Port.countCodewords_keeps (y : Port) (f : Flit) {α : Type} (g : Port → α)
    (hg : ∀ (q : Port) a n b, g { q with corrected := a, recent := n, uncorrectable := b } = g q := by intros; rfl) :
    g (y.countCodewords f) = g y := by
  rw [y.countCodewords_eq f]
  exact hg ..

/-! A flit's header (R268, R272, R279). -/

/-- The credits that a flit returns (R268, R279). -/
def Port.credit (y : Port) (f : Flit) : Port :=
  { y with
    replay := y.replay.filter fun r => decide ((r.seq - f.ack).toNat < 32768)
    shared := if f.cshared then y.shared + f.credits.toNat else y.shared
    credits := if f.cshared then y.credits else y.credits.upd 0 f.cvc.toNat (· + f.credits.toNat) }

/-- A header frees what its ACK passes and returns credits; where nothing waits for credits, that is all. -/
theorem Work.flitHeader_eq {w : Work} {p : Fin 32} (h : (w.port p.val).txq = []) (f : Flit) :
    (∃ t, w.flitHeader p f = { w with fab := { w.fab with ports := t } }) ∧ (w.flitHeader p f).port p.val = (w.port p.val).credit f := by
  have acked := w.port_updPort_same p.val fun y => y.takeLinkAck f.ack
  have returned := (w.updPort p.val fun y => y.takeLinkAck f.ack).port_updPort_same p.val fun y =>
    if f.cshared then { y with shared := y.shared + f.credits.toNat } else { y with credits := y.credits.upd 0 f.cvc.toNat (· + f.credits.toNat) }
  have port : (((w.updPort p.val fun y => y.takeLinkAck f.ack).updPort p.val fun y =>
      if f.cshared then { y with shared := y.shared + f.credits.toNat } else { y with credits := y.credits.upd 0 f.cvc.toNat (· + f.credits.toNat) }).port
        p.val) = (w.port p.val).credit f := by
    rw [returned, acked, Port.credit]
    cases f.cshared <;> rfl
  have none_ : ((w.port p.val).credit f).txq = [] := h
  have waits (v : Work) (hv : (v.port p.val).txq = []) (n : Nat) : v.drainTx p false n = v := by
    cases n with
    | zero => rfl
    | succ n => rw [Work.drainTx, hv]
  have head : w.flitHeader p f = ((w.updPort p.val fun y => y.takeLinkAck f.ack).updPort p.val fun y =>
      if f.cshared then { y with shared := y.shared + f.credits.toNat } else { y with credits := y.credits.upd 0 f.cvc.toNat (· + f.credits.toNat) }) := by
    unfold Work.flitHeader Work.takeCredit
    exact waits _ (by rw [port, none_]) _
  rw [head]
  exact ⟨⟨_, rfl⟩, port⟩

/-! IDLE and HOLD flits (R267-R269). -/

/-- A flit that can be used: its codewords were corrected, its CRC holds, and its type is listed (R267-R269). -/
def flitUsable (f : Flit) : Prop := flitGood f = true ∧ unlisted f = false

theorem not_flitUsable_iff (f : Flit) : (!flitGood f || unlisted f) = true ↔ ¬flitUsable f := by
  unfold flitUsable
  cases flitGood f <;> cases unlisted f <;> simp

theorem Work.takeEmpty_unusable {w : Work} {f : Flit} (h : ¬flitUsable f) (p : Fin 32) (typ : BitVec 4) :
    w.takeEmpty p typ f = (w.updPort p.val fun y => y.countCodewords f).badFlit p := if_pos ((not_flitUsable_iff f).2 h)

theorem Work.takeEmpty_listed {w : Work} {f : Flit} (h : flitUsable f) {typ : BitVec 4} (ht : f.typ = typ) (p : Fin 32) :
    w.takeEmpty p typ f = (w.updPort p.val fun y => y.countCodewords f).flitHeader p f := by
  rw [Work.takeEmpty, if_neg (by rw [not_flitUsable_iff]; exact not_not_intro h), if_pos ht]

theorem Work.takeEmpty_other {w : Work} {f : Flit} (h : flitUsable f) {typ : BitVec 4} (ht : f.typ ≠ typ) (p : Fin 32) : w.takeEmpty p typ f = w := by
  rw [Work.takeEmpty, if_neg (by rw [not_flitUsable_iff]; exact not_not_intro h), if_neg ht]

/-! What a port has received (R268, R269, R272, R273, R297). -/

/-- Of a port, the number of its next DATA flit, its standing commands, and its counts of symbols and codewords. -/
def Port.receipt (y : Port) : Word × List CtlOut × BitVec 32 × BitVec 16 := (y.rxNext, y.ctl, y.corrected, y.uncorrectable)

/-- A flit has come by a port, whose next DATA flit is `n` and whose standing commands are `c`; its codewords are counted. -/
structure Work.Received (w x : Work) (p : Fin 32) (f : Flit) (n : Word) (c : List CtlOut) : Prop where
  ctxs : x.ctxs = w.ctxs
  hbm : x.hbm = w.hbm
  receipt : (x.port p.val).receipt = (n, c, ((w.port p.val).countCodewords f).corrected, ((w.port p.val).countCodewords f).uncorrectable)

namespace Work.Received
variable {w x y : Work} {p : Fin 32} {f : Flit} {n : Word} {c : List CtlOut}

theorem rxNext (h : w.Received x p f n c) : (x.port p.val).rxNext = n := congrArg Prod.fst h.receipt
theorem ctl (h : w.Received x p f n c) : (x.port p.val).ctl = c := congrArg (fun r => r.2.1) h.receipt

theorem corrected (h : w.Received x p f n c) : (x.port p.val).corrected = ((w.port p.val).countCodewords f).corrected :=
  congrArg (fun r => r.2.2.1) h.receipt

theorem uncorrectable (h : w.Received x p f n c) : (x.port p.val).uncorrectable = ((w.port p.val).countCodewords f).uncorrectable :=
  congrArg (fun r => r.2.2.2) h.receipt

/-- The flit's codewords are counted. -/
theorem counted (w : Work) (p : Fin 32) (f : Flit) :
    w.Received (w.updPort p.val fun y => y.countCodewords f) p f (w.port p.val).rxNext (w.port p.val).ctl where
  ctxs := rfl
  hbm := rfl
  receipt := by
    rw [Work.port_updPort_same, Port.receipt, Port.countCodewords_keeps _ f Port.rxNext, Port.countCodewords_keeps _ f Port.ctl]

theorem quiet (h : w.Received x p f n c) (q : x.Quiet y) : w.Received y p f n c where
  ctxs := (by rw [q.eq] : y.ctxs = x.ctxs).trans h.ctxs
  hbm := (by rw [q.eq] : y.hbm = x.hbm).trans h.hbm
  receipt := (q.keeps p.val Port.receipt).trans h.receipt

theorem flitHeader (h : w.Received x p f n c) : w.Received (x.flitHeader p f) p f n c := h.quiet (.flitHeader ..)

/-- The port is set to its next DATA flit and its commands. -/
theorem updPort (h : w.Received x p f n c) {g : Port → Port} {m : Word} {d : List CtlOut}
    (hg : (g (x.port p.val)).receipt = (m, d, (x.port p.val).corrected, (x.port p.val).uncorrectable)) :
    w.Received (x.updPort p.val g) p f m d where
  ctxs := h.ctxs
  hbm := h.hbm
  receipt := by rw [Work.port_updPort_same, hg, h.corrected, h.uncorrectable]

theorem badFlit (h : w.Received x p f n c) : w.Received (x.badFlit p) p f n c := h.updPort (by rw [← h.rxNext, ← h.ctl]; rfl)

end Work.Received

theorem Work.received_ctlHead (w : Work) (r : CtlRx) :
    w.Received (w.ctlHead r) r.port (CtlRx.flit r) (w.port r.port.val).rxNext (w.port r.port.val).ctl :=
  (Work.Received.counted ..).flitHeader

/-! NAK and acknowledgment (R268, R269, R272). -/

/-- The standing commands that are no NAK. -/
def withoutNak (c : List CtlOut) : List CtlOut := c.filter fun c => match c with | .nak _ => false | _ => true

/-- A NAK stands for the flit that is due, and has left. -/
theorem Work.Received.sendNak {w x : Work} {p : Fin 32} {f : Flit} {n : Word} {c : List CtlOut} (h : w.Received x p f n c) :
    w.Received (x.sendNak p) p f n (.nak (n.setWidth 16) :: withoutNak c) ∧ ctlSent p 0x01 (nakArgs (n.setWidth 16)) (x.sendNak p).out := by
  unfold Work.sendNak
  rw [h.rxNext]
  refine ⟨(h.updPort ?_).quiet (.sendCtl ..), ctlSent_sendCtl ..⟩
  rw [← h.rxNext, ← h.ctl]
  rfl

theorem Port.nextCredit_rxNext (y : Port) : y.nextCredit.2.rxNext = y.rxNext := by
  unfold Port.nextCredit
  split
  · rfl
  · split <;> rfl

/-- A flit that leaves acknowledges what has come. -/
theorem Work.sendFlit_acks (w : Work) (p : Fin 32) (typ : BitVec 4) (seq : BitVec 16) (start : BitVec 5) (body : List Byte) :
    ∃ g, .flit p g ∈ (w.sendFlit p typ seq start body).out ∧ g.ack = (w.port p.val).rxNext.setWidth 16 :=
  ⟨_, List.mem_cons_self, congrArg (BitVec.setWidth 16) (Port.nextCredit_rxNext _)⟩

theorem Work.ackFlit_acks (w : Work) (p : Fin 32) : ∃ g, .flit p g ∈ (w.ackFlit p).out ∧ g.ack = (w.port p.val).rxNext.setWidth 16 := by
  unfold Work.ackFlit
  cases h : (w.port p.val).tail with
  | none => exact w.sendFlit_acks ..
  | some f =>
    rw [if_pos (by rfl), Work.flushTail, h]
    obtain ⟨g, left, ack⟩ := (w.updPort p.val fun y =>
      { y with tail := none, txFlit := y.txFlit + 1, replay := if y.longHaul then [] else y.replay ++ [f] }).sendFlit_acks p 2 f.seq f.start f.body
    rw [Work.port_updPort_same] at ack
    exact ⟨g, left, ack⟩

theorem Work.Received.ackFlit {w x : Work} {p : Fin 32} {f : Flit} {n : Word} {c : List CtlOut} (h : w.Received x p f n c) :
    w.Received (x.ackFlit p) p f n c ∧ ∃ g, .flit p g ∈ (x.ackFlit p).out ∧ g.ack = n.setWidth 16 := by
  refine ⟨h.quiet (.ite _ (.flushTail ..) (.sendFlit ..)), ?_⟩
  rw [← h.rxNext]
  exact x.ackFlit_acks p

/-! DATA flits (R267, R269, R272, R273). -/

/-- A port whose flit came in turn waits for the next, and asks for none again. -/
def Port.accepted (y : Port) : Port := { y with rxNext := y.rxNext + 1, ctl := withoutNak y.ctl }

theorem Port.receipt_accepted (y : Port) : y.accepted.receipt = (y.rxNext + 1, withoutNak y.ctl, y.corrected, y.uncorrectable) := rfl

/-- A port takes DATA flits in HELLO, KEX and ACTIVE. -/
theorem Port.takesData_iff (y : Port) : (y.isActive || y.st == 3 || y.st == 4) = true ↔ y.st = 3 ∨ y.st = 4 ∨ y.st = 5 := by
  simp only [Port.isActive, Bool.or_eq_true, beq_iff_eq]
  tauto

section
variable {w : Work} {p : Fin 32} {f : Flit}

theorem Work.takeData_other (h : flitUsable f) (ht : f.typ ≠ 2) : w.takeData p f = w := by
  obtain ⟨good, listed⟩ := h
  exact if_pos (by simpa [good, listed] using ht)

theorem Work.takeData_closed (h : ¬((w.port p.val).st = 3 ∨ (w.port p.val).st = 4 ∨ (w.port p.val).st = 5)) : w.takeData p f = w := by
  rw [← Port.takesData_iff] at h
  exact ite_eq_left_iff.2 fun _ => if_pos (by rw [Bool.eq_false_iff.2 h]; rfl)

section
variable (hd : (w.port p.val).st = 3 ∨ (w.port p.val).st = 4 ∨ (w.port p.val).st = 5)
include hd

theorem Work.takeData_unlisted (hg : flitGood f = true) (hu : unlisted f = true) :
    w.takeData p f = (w.updPort p.val fun y => y.countCodewords f).badFlit p := by
  rw [← Port.takesData_iff] at hd
  rw [Work.takeData, if_neg (by simp [hu]), if_neg (by rw [hd]; decide), if_pos (by rw [hg, hu]; rfl)]

theorem Work.takeData_failed (hg : flitGood f = false) :
    w.takeData p f = if (w.port p.val).longHaul then ((w.updPort p.val fun y => y.countCodewords f).badFlit p).updPort p.val fun y => y.takeSpanFlit f
      else ((w.updPort p.val fun y => y.countCodewords f).badFlit p).sendNak p := by
  rw [← Port.takesData_iff] at hd
  rw [Work.takeData, if_neg (by simp [hg]), if_neg (by rw [hd]; decide), if_neg (by simp [hg]), if_pos (by rw [hg]; rfl)]

theorem Work.takeData_usable (h : flitUsable f) (ht : f.typ = 2) :
    w.takeData p f =
      if (w.port p.val).longHaul then
        (((w.updPort p.val fun y => y.countCodewords f).flitHeader p f).updPort p.val fun y => y.takeSpanFlit f).ackFlit p
      else if f.seq = (w.port p.val).rxNext.setWidth 16 then
        (((w.updPort p.val fun y => y.countCodewords f).flitHeader p f).updPort p.val fun y => y.accepted).ackFlit p
      else ((w.updPort p.val fun y => y.countCodewords f).flitHeader p f).sendNak p := by
  obtain ⟨good, listed⟩ := h
  rw [← Port.takesData_iff] at hd
  rw [Work.takeData, if_neg (by simp [ht]), if_neg (by rw [hd]; decide), if_neg (by simp [listed]), if_neg (by simp [good])]
  rfl

end
end

theorem Port.takeSpanFlit_good {y : Port} {f : Flit} (h : flitGood f = true) :
    (y.takeSpanFlit f).receipt = (extendSeq (y.rxNext - 1) f.seq + 1, y.ctl, y.corrected, y.uncorrectable) := by
  rw [Port.takeSpanFlit, if_pos h]
  rfl

theorem Port.takeSpanFlit_failed {f : Flit} (h : flitGood f = false) :
    (fun y : Port => y.takeSpanFlit f) = fun y => { y with rxNext := y.rxNext + 1, cut := y.cut ++ [(y.rxNext, y.rxNext + 1)] } :=
  funext fun _ => if_neg (by simp [h])

/-- A DATA flit is accepted in turn. -/
theorem Work.Received.accepted {w x : Work} {p : Fin 32} {f : Flit} {n : Word} {c : List CtlOut} (h : w.Received x p f n c) :
    w.Received (x.updPort p.val fun y => y.accepted) p f (n + 1) (withoutNak c) :=
  h.updPort (by rw [Port.receipt_accepted, h.rxNext, h.ctl])

/-- A DATA flit of a span is numbered. -/
theorem Work.Received.span {w x : Work} {p : Fin 32} {f : Flit} {n : Word} {c : List CtlOut} (h : w.Received x p f n c) (hg : flitGood f = true) :
    w.Received (x.updPort p.val fun y => y.takeSpanFlit f) p f (extendSeq (n - 1) f.seq + 1) c :=
  h.updPort (by rw [Port.takeSpanFlit_good hg, h.rxNext, h.ctl])

/-! Link commands (R266, R269, R272). -/

theorem Work.takeCtl_failed {w : Work} {r : CtlRx} (h : ¬flitFailed (CtlRx.flit r) = false) (act : Work → Work) :
    w.takeCtl r act = (w.updPort r.port.val fun y => y.countCodewords (CtlRx.flit r)).badFlit r.port := if_pos (by simpa using h)

/-- What a header leaves of a port whose flit's codewords were counted. -/
theorem Port.credit_countCodewords (y : Port) (f : Flit) :
    (y.countCodewords f).credit f = { y.countCodewords f with
      replay := y.replay.filter fun r => decide ((r.seq - f.ack).toNat < 32768)
      shared := if f.cshared then y.shared + f.credits.toNat else y.shared
      credits := if f.cshared then y.credits else y.credits.upd 0 f.cvc.toNat (· + f.credits.toNat) } := by
  rw [Port.credit, Port.countCodewords_keeps y f Port.replay, Port.countCodewords_keeps y f Port.shared, Port.countCodewords_keeps y f Port.credits]

theorem Work.flitHeader_counted {w : Work} {p : Fin 32} (h : (w.port p.val).txq = []) (f : Flit) :
    (∃ t, (w.updPort p.val fun y => y.countCodewords f).flitHeader p f = { w with fab := { w.fab with ports := t } }) ∧
      ((w.updPort p.val fun y => y.countCodewords f).flitHeader p f).port p.val = ((w.port p.val).countCodewords f).credit f := by
  have set := w.port_updPort_same p.val fun y => y.countCodewords f
  obtain ⟨⟨t, ht⟩, port⟩ := Work.flitHeader_eq (w := w.updPort p.val fun y => y.countCodewords f) (p := p)
    (by rw [set, Port.countCodewords_keeps _ f Port.txq, h]) f
  exact ⟨⟨t, ht⟩, by rw [port, set]⟩

/-! Replay (R272). -/

/-- Flits of a replay buffer leave again. -/
def Work.resend (w : Work) (p : Fin 32) (l : List ReplayFlit) : Work := l.foldl (fun w f => w.sendFlit p 2 f.seq f.start f.body) w

namespace Work
variable (p : Fin 32) (l : List ReplayFlit)

theorem resend_keepsFlits (w : Work) : KeepsFlits p w (w.resend p l) :=
  List.foldlRecOn l _ (KeepsFlits.refl w) fun b hb f _ => hb.trans (.sendFlit b p 2 f.seq f.start f.body)

theorem resend_length (w : Work) : (w.resend p l).out.length = w.out.length + l.length := by
  induction l generalizing w with
  | nil => rfl
  | cons f l ih => exact (ih _).trans (by rw [List.length_cons]; exact Nat.succ_add_eq_add_succ ..)

theorem grows_resend (w : Work) : w.Grows (w.resend p l) := .foldl (fun _ _ => .sendFlit ..) l w

theorem resend_mem (w : Work) {x : ReplayFlit} (h : x ∈ l) :
    ∃ g : Flit, .flit p g ∈ (w.resend p l).out ∧ g.typ = 2 ∧ g.seq = x.seq ∧ g.start = x.start ∧ g.body = x.body := by
  induction l generalizing w with
  | nil => cases h
  | cons f l ih =>
    rcases List.mem_cons.1 h with rfl | h
    · exact ⟨_, (grows_resend p l _).mem List.mem_cons_self, rfl, rfl, rfl, rfl⟩
    · exact ih _ h

/-- A port that owes no credits sends a flit that returns none. -/
theorem sendFlit_owedNone {w : Work} (h : (w.port p.val).owed = []) (typ : BitVec 4) (seq : BitVec 16) (start : BitVec 5) (body : List Byte) :
    (w.sendFlit p typ seq start body).out = .flit p (mkFlit typ seq ((w.port p.val).rxNext.setWidth 16) 0 false 0 start body) :: w.out ∧
      ((w.sendFlit p typ seq start body).port p.val).owed = [] := by
  have none_ : (w.port p.val).nextCredit = ((0, false, 0), w.port p.val) := by rw [Port.nextCredit, h]
  rw [Work.sendFlit, none_]
  refine ⟨rfl, ?_⟩
  show ((w.updPort p.val _).port p.val).owed = []
  rw [Work.port_updPort_same]
  exact h

theorem resend_owedNone {w : Work} (h : (w.port p.val).owed = []) :
    (w.resend p l).out =
      (l.map fun x => Emit.flit p (mkFlit 2 x.seq ((w.port p.val).rxNext.setWidth 16) 0 false 0 x.start x.body)).reverse ++ w.out := by
  induction l generalizing w with
  | nil => rfl
  | cons f l ih =>
    obtain ⟨out, owed⟩ := sendFlit_owedNone p h 2 f.seq f.start f.body
    have due : ((w.sendFlit p 2 f.seq f.start f.body).port p.val).rxNext = (w.port p.val).rxNext :=
      (Quiet.sendFlit ..).keeps p.val Port.rxNext
    rw [List.map_cons, List.reverse_cons, List.append_assoc, List.singleton_append, ← out, ← due]
    exact ih owed

/-- A direct port sends again what its replay buffer holds from the SEQ on. -/
theorem replayFrom_direct {w : Work} {p : Fin 32} (h : (w.port p.val).longHaul = false) (seq : BitVec 16) :
    w.replayFrom p seq = (w.updPort p.val fun y => y.takeLinkAck seq).resend p ((w.port p.val).takeLinkAck seq).replay := by
  have all : ((w.port p.val).takeLinkAck seq).replay.filter (fun f => decide ((f.seq - seq).toNat < 32768)) =
      ((w.port p.val).takeLinkAck seq).replay := by
    simp [Port.takeLinkAck, List.filter_filter]
  rw [Work.replayFrom, if_neg (by simp [h])]
  dsimp only
  rw [Work.port_updPort_same, all]
  rfl

end Work

/-- A NAK on a direct port: the flits before its SEQ are freed, and the others leave again. -/
theorem Work.replayFrom_sends {w : Work} {p : Fin 32} (h : (w.port p.val).longHaul = false) (seq : BitVec 16) :
    let kept := (w.port p.val).replay.filter fun x => decide ((x.seq - seq).toNat < 32768)
    ((w.replayFrom p seq).port p.val).replay = kept ∧ (w.replayFrom p seq).out.length = w.out.length + kept.length ∧
      (∀ x, x ∈ kept → ∃ g : Flit, .flit p g ∈ (w.replayFrom p seq).out ∧ g.typ = 2 ∧ g.seq = x.seq ∧ g.start = x.start ∧ g.body = x.body) ∧
      ((w.port p.val).owed = [] → (w.replayFrom p seq).out =
        (kept.map fun x => Emit.flit p (mkFlit 2 x.seq ((w.port p.val).rxNext.setWidth 16) 0 false 0 x.start x.body)).reverse ++ w.out) := by
  intro kept
  have set : ((w.updPort p.val fun y => y.takeLinkAck seq).port p.val) = (w.port p.val).takeLinkAck seq := w.port_updPort_same ..
  have freed : ((w.port p.val).takeLinkAck seq).replay = kept := rfl
  rw [Work.replayFrom_direct h, freed]
  refine ⟨?_, Work.resend_length .., fun x hx => Work.resend_mem p kept _ hx, fun owed => ?_⟩
  · rw [(Work.resend_keepsFlits ..).2, set, freed]
  · rw [Work.resend_owedNone p kept (by rw [set]; exact owed), set]
    rfl

/-! Spare wavelengths (R266, R269). -/

/-- A wavelength that a transmitter neither uses nor has named bad. -/
def Port.isFree (y : Port) (i : Fin 9) : Prop := y.txLambdas.getLsbD i.val = false ∧ y.txBad.getLsbD i.val = false

theorem Port.spare_eq (y : Port) : y.spare = (List.finRange 9).find? fun i => !y.txLambdas.getLsbD i.val && !y.txBad.getLsbD i.val := rfl

/-- The spare is the lowest of those that are free. -/
theorem Port.spare_eq_some {y : Port} {i : Fin 9} (h : y.isFree i ∧ ∀ k : Fin 9, k.val < i.val → ¬y.isFree k) : y.spare = some i := by
  obtain ⟨⟨unused, notBad⟩, lowest⟩ := h
  rw [y.spare_eq, List.find?_eq_some_iff_getElem]
  refine ⟨by rw [unused, notBad]; rfl, i.val, by rw [List.length_finRange]; exact i.isLt, by simp, fun j hj => ?_⟩
  have taken := lowest ⟨j, hj.trans i.isLt⟩ hj
  rw [List.getElem_finRange]
  unfold Port.isFree at taken
  simpa [or_iff_not_imp_left] using taken

theorem Port.spare_eq_none {y : Port} (h : ∀ i, ¬y.isFree i) : y.spare = none := by
  rw [y.spare_eq, List.find?_eq_none]
  intro i _ free
  simp only [Bool.and_eq_true, Bool.not_eq_true'] at free
  exact h i free

theorem Port.askedPair_eq_some {y : Port} {lam : Fin 9} (h : ∃ j, .spare lam j ∈ y.ctl) : ∃ j, y.askedPair lam = some j ∧ .spare lam j ∈ y.ctl := by
  obtain ⟨j, hj⟩ := h
  cases e : y.askedPair lam with
  | none => exact absurd (List.findSome?_eq_none_iff.1 e _ hj) (by simp)
  | some n =>
    obtain ⟨c, hc, eq⟩ := List.exists_of_findSome?_eq_some e
    cases c with
    | spare l m =>
      obtain ⟨rfl, rfl⟩ : l = lam ∧ m = n := by simpa using eq
      exact ⟨m, rfl, hc⟩
    | nak _ => cases eq
    | retrain => cases eq

theorem Port.askedPair_eq_none {y : Port} {lam : Fin 9} (h : ∀ j, .spare lam j ∉ y.ctl) : y.askedPair lam = none := by
  refine List.findSome?_eq_none_iff.2 fun c hc => ?_
  cases c with
  | spare l m => exact if_neg fun (e : l = lam) => h m (e ▸ hc)
  | nak _ => rfl
  | retrain => rfl

/-- A command asks for a spare of a wavelength. -/
theorem asksSpare_iff (l : List CtlOut) (lam : Fin 9) :
    (l.any fun c => match c with | .spare l _ => decide (l = lam) | _ => false) = true ↔ ∃ j, .spare lam j ∈ l := by
  rw [List.any_eq_true]
  constructor
  · rintro ⟨c, hc, eq⟩
    cases c with
    | spare l m => exact ⟨m, of_decide_eq_true eq ▸ hc⟩
    | nak _ => cases eq
    | retrain => cases eq
  · rintro ⟨j, hj⟩
    exact ⟨_, hj, decide_eq_true rfl⟩

/-! Standing commands repeat (R269). -/

/-- A standing command leaves. -/
def Work.sendStanding (w : Work) (p : Fin 32) (c : CtlOut) : Work :=
  match c with
  | .nak e => w.sendCtl p 0x01 (nakArgs e)
  | .spare l pair => w.sendCtl p 0x02 (spareArgs l pair)
  | .retrain => w.sendCtl p 0x06 []

/-- A standing command has left. -/
def standingSent (p : Fin 32) (c : CtlOut) (out : List Emit) : Prop :=
  match c with
  | .nak e => ctlSent p 0x01 (nakArgs e) out
  | .spare l pair => ctlSent p 0x02 (spareArgs l pair) out
  | .retrain => ctlSent p 0x06 [] out

theorem standingSent.mono {p : Fin 32} {c : CtlOut} {w w' : Work} (h : standingSent p c w.out) (hg : w.Grows w') : standingSent p c w'.out := by
  cases c <;> exact ctlSent.mono h hg

theorem Work.sendStanding_sends (w : Work) (p : Fin 32) (c : CtlOut) : ∃ code args, w.sendStanding p c = w.sendCtl p code args := by
  cases c <;> exact ⟨_, _, rfl⟩

theorem standingSent_sendStanding (w : Work) (p : Fin 32) (c : CtlOut) : standingSent p c (w.sendStanding p c).out := by
  cases c <;> exact ctlSent_sendCtl ..

theorem Work.sendFlit_eq (w : Work) (p : Fin 32) (typ : BitVec 4) (seq : BitVec 16) (start : BitVec 5) (body : List Byte) :
    ∃ o t, w.sendFlit p typ seq start body = { w with out := o, fab := { w.fab with ports := t } } := ⟨_, _, rfl⟩

theorem Work.flushTail_eq (w : Work) (p : Fin 32) : ∃ o t, w.flushTail p = { w with out := o, fab := { w.fab with ports := t } } := by
  unfold Work.flushTail
  split
  · exact ⟨w.out, w.fab.ports, rfl⟩
  · exact Work.sendFlit_eq ..

/-- A link command changes what has left, and its port. -/
theorem Work.sendCtl_eq (w : Work) (p : Fin 32) (code : Byte) (args : List Byte) :
    ∃ o t, w.sendCtl p code args = { w with out := o, fab := { w.fab with ports := t } } := by
  obtain ⟨o, t, flushed⟩ := w.flushTail_eq p
  rw [Work.sendCtl, flushed]
  exact Work.sendFlit_eq ..

theorem Work.repeatCtl_eq (w : Work) (p : Fin 32) : w.repeatCtl p = (w.port p.val).ctl.foldl (fun w c => w.sendStanding p c) w := rfl

theorem Work.foldl_sendStanding (p : Fin 32) (l : List CtlOut) (w : Work) :
    (∃ o t, l.foldl (fun w c => w.sendStanding p c) w = { w with out := o, fab := { w.fab with ports := t } }) ∧
      w.Quiet (l.foldl (fun w c => w.sendStanding p c) w) ∧ w.Grows (l.foldl (fun w c => w.sendStanding p c) w) ∧
      ∀ c, c ∈ l → standingSent p c (l.foldl (fun w c => w.sendStanding p c) w).out := by
  induction l generalizing w with
  | nil => exact ⟨⟨_, _, rfl⟩, .refl w, .refl w, fun _ h => by cases h⟩
  | cons c l ih =>
    obtain ⟨⟨o, t, eq⟩, quiet, grows, sent⟩ := ih (w.sendStanding p c)
    have left := standingSent_sendStanding w p c
    obtain ⟨code, args, one⟩ := w.sendStanding_sends p c
    refine ⟨?_, ?_, ?_, fun d hd => ?_⟩
    · obtain ⟨o', t', first⟩ := w.sendCtl_eq p code args
      refine ⟨o, t, eq.trans ?_⟩
      rw [one, first]
    · exact (one ▸ Work.Quiet.sendCtl w p code args : w.Quiet (w.sendStanding p c)).trans quiet
    · exact (one ▸ Work.Grows.sendCtl w p code args : w.Grows (w.sendStanding p c)).trans grows
    · rcases List.mem_cons.1 hd with rfl | hd
      · exact left.mono grows
      · exact sent d hd

end Sys2Proof.Machine
end

section
/-! The link commands that act, a bad wavelength, and O46. -/

namespace Sys2Proof.Machine

/-! SPARE and SPARE_ACK at their ends (R266, R269). -/

section
variable {w : Work} {p : Fin 32} {lam : Fin 9} {pair : Nat} (ha : (w.port p.val).isActive = true)
include ha

/-- A command that is repeated is answered again. -/
theorem Work.spareMove_again {e : Fin 9 × Fin 9 × Nat}
    (h : (w.port p.val).txMoves.find? (fun e => decide (e.1 = lam ∧ e.2.2 = pair)) = some e) :
    w.spareMove p lam pair = w.sendCtl p 0x03 (spareAckArgs lam e.2.1) := by
  have moved : (w.port p.val).moved lam pair = some e.2.1 := congrArg (Option.map fun e : Fin 9 × Fin 9 × Nat => e.2.1) h
  rw [Work.spareMove, if_neg (by simp [ha]), moved]

section
variable (h : (w.port p.val).txMoves.find? (fun e => decide (e.1 = lam ∧ e.2.2 = pair)) = none)
include h

theorem Work.spareMove_free {i : Fin 9} (hi : (w.port p.val).isFree i ∧ ∀ k : Fin 9, k.val < i.val → ¬(w.port p.val).isFree k)
    (hl : (w.port p.val).txLambdas.getLsbD lam.val = true) :
    w.spareMove p lam pair = (w.updPort p.val fun y =>
      { y with txLambdas := (y.txLambdas &&& ~~~(lamBit lam.val)) ||| lamBit i.val, txMoves := y.txMoves ++ [(lam, i, pair)]
               txBad := y.txBad ||| lamBit lam.val }).sendCtl p 0x03 (spareAckArgs lam i) := by
  have moved : (w.port p.val).moved lam pair = none := congrArg (Option.map fun e : Fin 9 × Fin 9 × Nat => e.2.1) h
  rw [Work.spareMove, if_neg (by simp [ha]), moved, Port.spare_eq_some hi]
  exact if_pos hl

theorem Work.spareMove_none (hn : (∀ i, ¬(w.port p.val).isFree i) ∨ (w.port p.val).txLambdas.getLsbD lam.val = false) :
    w.spareMove p lam pair = w := by
  have moved : (w.port p.val).moved lam pair = none := congrArg (Option.map fun e : Fin 9 × Fin 9 × Nat => e.2.1) h
  rw [Work.spareMove, if_neg (by simp [ha]), moved]
  rcases hn with hn | hn
  · rw [Port.spare_eq_none hn]
  · dsimp only
    split
    · exact if_neg (by rw [hn]; decide)
    · rfl

end
end

theorem Work.spareMove_inactive {w : Work} {p : Fin 32} (h : (w.port p.val).isActive = false) (lam : Fin 9) (pair : Nat) :
    w.spareMove p lam pair = w := if_pos (by simp [h])

/-- The receiver listens on the spare from the codeword pair that it named, and asks no more. -/
def Port.spareAcked (y : Port) (lam spare : Fin 9) (j : Nat) : Port :=
  { y with lambdas := (y.lambdas &&& ~~~(lamBit lam.val)) ||| lamBit spare.val, rxMoves := y.rxMoves ++ [(lam, spare, j)]
           ctl := y.ctl.filter fun c => match c with | .spare l _ => decide (l ≠ lam) | _ => true }

theorem Port.not_mem_spareAcked (y : Port) (lam spare : Fin 9) (j k : Nat) : .spare lam k ∉ (y.spareAcked lam spare j).ctl :=
  fun h => of_decide_eq_true (List.mem_filter.1 h).2 rfl

theorem Work.spareDone_asked {w : Work} {p : Fin 32} {lam : Fin 9} {j : Nat} (ha : (w.port p.val).isActive = true)
    (h : (w.port p.val).askedPair lam = some j) (spare : Fin 9) :
    w.spareDone p lam spare = w.updPort p.val fun y => y.spareAcked lam spare j := by
  rw [Work.spareDone, h]
  exact if_pos ha

theorem Work.spareDone_otherwise {w : Work} {p : Fin 32} {lam : Fin 9}
    (h : (w.port p.val).isActive = false ∨ ∀ j, .spare lam j ∉ (w.port p.val).ctl) (spare : Fin 9) : w.spareDone p lam spare = w := by
  unfold Work.spareDone
  rcases h with h | h
  · split
    · exact if_neg (by simp [h])
    · rfl
  · rw [Port.askedPair_eq_none h]

/-! A bad wavelength (R266). -/

theorem Work.lamBad_otherwise {w : Work} {p : Fin 32} {lam : Fin 9}
    (h : (w.port p.val).isActive = false ∨ (w.port p.val).lambdas.getLsbD lam.val = false ∨ ∃ j, .spare lam j ∈ (w.port p.val).ctl) (pair : Nat) :
    w.lamBad p lam pair = w := by
  refine if_pos ?_
  rw [Bool.or_eq_true]
  rcases h with h | h | h
  · exact .inl (by rw [h]; rfl)
  · exact .inl (by rw [h, Bool.and_false]; rfl)
  · exact .inr ((asksSpare_iff ..).2 h)

/-- A port without one of its good wavelengths. -/
def Port.withoutLam (lam : Fin 9) (y : Port) : Port := { y with good := y.good &&& ~~~(lamBit lam.val) }

theorem Work.lamBad_active {w : Work} {p : Fin 32} {lam : Fin 9} (ha : (w.port p.val).isActive = true)
    (hl : (w.port p.val).lambdas.getLsbD lam.val = true) (hn : ¬∃ j, .spare lam j ∈ (w.port p.val).ctl) (pair : Nat) :
    w.lamBad p lam pair =
      if ((w.port p.val).withoutLam lam).sparesLeft ≠ 0 then
        ((w.updPort p.val fun y => y.withoutLam lam).updPort p.val fun y => { y with ctl := .spare lam (pair + 64) :: y.ctl }).sendCtl p 0x02
          (spareArgs lam (pair + 64))
      else if lamCount ((w.port p.val).withoutLam lam).good < 4 then (w.updPort p.val fun y => y.withoutLam lam).portFailed p
      else (w.updPort p.val fun y => y.withoutLam lam).retrain p true := by
  have set : (w.updPort p.val fun y => y.withoutLam lam).port p.val = (w.port p.val).withoutLam lam := w.port_updPort_same ..
  refine (if_neg ?_).trans ?_
  · rw [Bool.or_eq_true, ha, hl]
    rintro (h | h)
    · cases h
    · exact hn ((asksSpare_iff ..).1 h)
  · rw [← set]
    exact if_congr Iff.rfl rfl (if_congr (by rw [set]; exact Iff.rfl) rfl rfl)

/-! What the instructions answer. -/

theorem exec_dataFlit_received {s : State} {p : Fin 32} {f : Flit} {n : Word} {c : List CtlOut} {out : List Emit → Prop}
    (h : s.w.Received (s.w.takeData p f) p f n c ∧ out (s.w.takeData p f).out) :
    ∃ t, exec (.dataFlit p f) s = .next t ∧ t.ctl = s.ctl ∧ t.pending = s.pending ∧ t.w.ctxs = s.w.ctxs ∧ t.w.hbm = s.w.hbm ∧
      (t.w.port p.val).rxNext = n ∧ (t.w.port p.val).ctl = c ∧
      (t.w.port p.val).corrected = ((s.w.port p.val).countCodewords f).corrected ∧
      (t.w.port p.val).uncorrectable = ((s.w.port p.val).countCodewords f).uncorrectable ∧ out t.w.out :=
  ⟨s.onW fun w => w.takeData p f, rfl, rfl, State.onW_pending .., h.1.ctxs, h.1.hbm, h.1.rxNext, h.1.ctl, h.1.corrected, h.1.uncorrectable, h.2⟩

/-- A command that acts. -/
theorem exec_takeCtl_good {s : State} {i : Instr} {r : CtlRx} {act : Work → Work} {w : Work}
    (hi : exec i s = .next (s.onW fun w => w.takeCtl r act)) (h : flitFailed (CtlRx.flit r) = false) (ha : act (s.w.ctlHead r) = w) :
    exec i s = .next { s with w := w } := by
  rw [hi, State.onW, Work.takeCtl_good h, ha]

/-- A command that a codeword left failed. -/
theorem exec_takeCtl_failed {s : State} {i : Instr} {r : CtlRx} {act : Work → Work}
    (hi : exec i s = .next (s.onW fun w => w.takeCtl r act)) (h : ¬flitFailed (CtlRx.flit r) = false) :
    exec i s = .next { s with w := (s.w.updPort r.port.val fun y => y.countCodewords (CtlRx.flit r)).badFlit r.port } := by
  rw [hi, State.onW, Work.takeCtl_failed h]

theorem exec_wavelengthBad {s : State} {p : Fin 32} {lam : Fin 9} {pair : Nat} {w : Work} (h : s.w.lamBad p lam pair = w) :
    exec (.wavelengthBad p lam pair) s = .next { s with w := w } := by
  rw [← h]
  rfl

/-- Settles O46: each flit counts its codewords first; a direct port goes by the SEQ that is due, and a link command acts behind its header. -/
theorem linkFlitResults : Obligations.LinkFlitResults := by
  unfold Obligations.LinkFlitResults
  intro p r f lam spare pair seq s po ctl usable w1 w2 cw e sends acks naks others data empties
  have empty (typ : BitVec 4) (i : Instr) (hi : ∀ s, exec i s = .next (s.onW fun w => w.takeEmpty p typ f)) : empties i typ := by
    refine ⟨fun hu ht none_ => ?listed, fun hu ht => ?kept, fun hu ht => ?other, fun hu => ?unusable⟩
    case listed =>
      obtain ⟨⟨t, eq⟩, port⟩ := Work.flitHeader_counted none_ f
      have taken := Work.takeEmpty_listed (w := s.w) hu ht p
      refine ⟨_, hi s, rfl, ?_, ?_⟩
      · show s.w.takeEmpty p typ f = { s.w with fab := { s.w.fab with ports := (s.w.takeEmpty p typ f).fab.ports } }
        rw [taken, eq]
      · show (s.w.takeEmpty p typ f).port p.val = _
        rw [taken, port, Port.credit_countCodewords]
    case kept =>
      have head := (Work.Received.counted s.w p f).flitHeader
      rw [← Work.takeEmpty_listed (w := s.w) hu ht p] at head
      exact ⟨_, hi s, rfl, head.ctxs, head.hbm, head.rxNext, head.ctl⟩
    case other => rw [hi, State.onW, Work.takeEmpty_other hu ht]
    case unusable =>
      rw [hi, State.onW, Work.takeEmpty_unusable hu]
      exact rfl
  have counted := Work.Received.counted s.w p f
  refine ⟨empty 0 _ fun _ => rfl, empty 1 _ fun _ => rfl, fun hd ht hu hl hs => ?inTurn, fun hd ht hu hl hs => ?outOfTurn, fun hd hg hl => ?failed,
    fun hd ht hu hl => ?span, fun hd hg hl => ?spanFailed, fun hd hg hu => ?unlisted, fun hu ht => ?other, fun hd => ?closed, ?link, ?repeat_,
    fun ha hl hn => ?bad, fun h => ?notBad⟩
  case inTurn =>
    refine exec_dataFlit_received ?_
    rw [Work.takeData_usable hd hu ht, if_neg (Bool.eq_false_iff.1 hl), if_pos hs]
    exact counted.flitHeader.accepted.ackFlit
  case outOfTurn =>
    refine exec_dataFlit_received ?_
    rw [Work.takeData_usable hd hu ht, if_neg (Bool.eq_false_iff.1 hl), if_neg hs]
    exact counted.flitHeader.sendNak
  case failed =>
    have taken : s.w.takeData p f = ((s.w.updPort p.val fun y => y.countCodewords f).badFlit p).sendNak p := by
      rw [Work.takeData_failed hd hg, if_neg (Bool.eq_false_iff.1 hl)]
    refine ⟨exec_dataFlit_received (by rw [taken]; exact counted.badFlit.sendNak), _, rfl, ?_⟩
    show ((s.w.takeData p f).port p.val).flitErrors = _
    rw [taken]
    refine ((Work.Quiet.sendCtl ..).keeps p.val Port.flitErrors).trans ?_
    rw [Work.port_updPort_same, Work.badFlit, Work.port_updPort_same, Work.port_updPort_same]
    exact congrArg (satAdd · 1) (Port.countCodewords_keeps _ f Port.flitErrors)
  case span =>
    refine exec_dataFlit_received ?_
    rw [Work.takeData_usable hd hu ht, if_pos hl]
    exact (counted.flitHeader.span hu.1).ackFlit
  case spanFailed =>
    show Host.Outcome.next (s.onW fun w => w.takeData p f) = _
    rw [State.onW, Work.takeData_failed hd hg, if_pos hl, Port.takeSpanFlit_failed hg]
    rfl
  case unlisted =>
    show Host.Outcome.next (s.onW fun w => w.takeData p f) = _
    rw [State.onW, Work.takeData_unlisted hd hg hu]
    rfl
  case other =>
    show Host.Outcome.next (s.onW fun w => w.takeData p f) = _
    rw [State.onW, Work.takeData_other hu ht]
  case closed =>
    show Host.Outcome.next (s.onW fun w => w.takeData p f) = _
    rw [State.onW, Work.takeData_closed hd]
  case link =>
    intro fl pr p0 cw h ph good acts
    have head : s.w.Received h pr fl p0.rxNext p0.ctl := s.w.received_ctlHead r
    have quiet : (s.w.updPort pr.val fun y => y.countCodewords fl).Quiet h := .flitHeader ..
    refine ⟨fun bad i hi => ?discarded, ⟨head.ctxs, head.hbm, s.w.time_ctlHead r, ?epochs, ?st, head.rxNext, head.ctl, fun none_ => ?port⟩,
      fun g hl => ?nak, fun g hl => ?nakSpan, ?spare, fun g ha hj => ?spareAck, fun g hn => ?noSpareAck⟩
    case discarded =>
      show exec i s = _
      simp only [List.mem_cons, List.not_mem_nil, or_false] at hi
      rcases hi with rfl | rfl | rfl | rfl | rfl | rfl <;> exact exec_takeCtl_failed rfl bad
    case epochs => exact quiet.epochs
    case st => exact (quiet.keeps pr.val Port.st).trans (by rw [Work.port_updPort_same, Port.countCodewords_keeps _ fl Port.st])
    case port => exact (Work.flitHeader_counted none_ fl).2.trans (Port.credit_countCodewords ..)
    case nak => exact ⟨_, exec_takeCtl_good rfl g rfl, rfl, Work.replayFrom_sends hl seq⟩
    case nakSpan => exact exec_takeCtl_good rfl g (if_pos hl)
    case spare =>
      intro before free lowest gives
      have given (i : Fin 9) (w : Work) (g : good) (eq : h.spareMove pr lam pair = w.sendCtl pr 0x03 (spareAckArgs lam i)) :
          gives i (w.port pr.val).txLambdas (w.port pr.val).txBad (w.port pr.val).txMoves := by
        have sent : w.Quiet (w.sendCtl pr 0x03 (spareAckArgs lam i)) := .sendCtl ..
        exact ⟨_, exec_takeCtl_good rfl g eq, rfl, sent.keeps pr.val Port.txLambdas, sent.keeps pr.val Port.txBad, sent.keeps pr.val Port.txMoves,
          ctlSent_sendCtl ..⟩
      refine ⟨fun e g ha he => given e.2.1 h g (Work.spareMove_again ha he), fun i g ha hn hi hl => ?_, fun g hn => ?_⟩
      · have moved := given i _ g (Work.spareMove_free ha hn hi hl)
        rwa [Work.port_updPort_same] at moved
      · refine exec_takeCtl_good rfl g ?_
        cases ha : ph.isActive with
        | false => exact Work.spareMove_inactive ha lam pair
        | true =>
          obtain ⟨fresh, none_⟩ := hn.resolve_left (by rw [ha]; decide)
          exact Work.spareMove_none ha fresh none_
    case spareAck =>
      obtain ⟨j, asked, stands⟩ := Port.askedPair_eq_some hj
      have set := h.port_updPort_same pr.val fun y => y.spareAcked lam spare j
      refine ⟨_, exec_takeCtl_good rfl g (Work.spareDone_asked ha asked spare), rfl, ?_⟩
      rw [set]
      exact ⟨rfl, Port.not_mem_spareAcked _ lam spare j, j, stands, rfl⟩
    case noSpareAck => exact exec_takeCtl_good rfl g (Work.spareDone_otherwise hn spare)
  case repeat_ =>
    obtain ⟨⟨o, t, eq⟩, quiet, -, sent⟩ := Work.foldl_sendStanding p po.ctl s.w
    rw [← Work.repeatCtl_eq] at eq quiet sent
    refine ⟨_, rfl, rfl, ?_, quiet.keeps p.val Port.ctl, fun c hc => ?_⟩
    · show s.w.repeatCtl p = { s.w with out := (s.w.repeatCtl p).out, fab := { s.w.fab with ports := (s.w.repeatCtl p).fab.ports } }
      rw [eq]
    · have left := sent c hc
      cases c <;> exact left
  case bad =>
    intro good left
    have eq := Work.lamBad_active ha hl hn pair
    have set : (s.w.updPort p.val fun y => y.withoutLam lam).port p.val = po.withoutLam lam := s.w.port_updPort_same ..
    have active : ((s.w.updPort p.val fun y => y.withoutLam lam).port p.val).isActive = true := by rw [set]; exact ha
    refine ⟨fun some_ => ⟨_, exec_wavelengthBad (eq.trans (if_pos some_)), rfl, ?good, ?ctl, ctlSent_sendCtl ..⟩, fun none_ => ?_⟩
    case good =>
      refine ((Work.Quiet.sendCtl ..).keeps p.val Port.good).trans ?_
      rw [Work.port_updPort_same, set]
      rfl
    case ctl =>
      refine ((Work.Quiet.sendCtl ..).keeps p.val Port.ctl).trans ?_
      rw [Work.port_updPort_same, set]
      rfl
    replace eq := eq.trans (if_neg (not_not_intro none_))
    by_cases few : lamCount good < 4
    · have down := Work.portFailed_active active
      exact ⟨_, exec_wavelengthBad (eq.trans (if_pos few)), down.good.trans (congrArg Port.good set), down.linkKey, by rw [if_pos few]; exact down.st⟩
    · have anew := Work.retrain_active active true
      exact ⟨_, exec_wavelengthBad (eq.trans (if_neg few)), anew.good.trans (congrArg Port.good set), anew.linkKey, by rw [if_neg few]; exact anew.st⟩
  case notBad => exact exec_wavelengthBad (Work.lamBad_otherwise h pair)

end Sys2Proof.Machine
end

section
/-! O47: a port's light, training, failure, retraining and keys (R266, R269-R271, R275, R297, R364, R395, R412). -/

namespace Sys2Proof.Machine

/-! The lowest wavelengths of a set (R266). -/

theorem getLsbD_lamBit (i k : Nat) : (lamBit i).getLsbD k = (decide (k < 9) && decide (i = k)) := by
  rw [lamBit, BitVec.getLsbD_ofNat, Nat.testBit_two_pow]

theorem getLsbD_foldl_lamBit (l : List Nat) (m : BitVec 9) (k : Nat) :
    (l.foldl (fun m i => m ||| lamBit i) m).getLsbD k = (m.getLsbD k || decide (k < 9 ∧ k ∈ l)) := by
  induction l generalizing m with
  | nil => simp
  | cons i l ih =>
    rw [List.foldl_cons, ih, BitVec.getLsbD_or, getLsbD_lamBit, Bool.or_assoc]
    congr 1
    rw [Bool.eq_iff_iff]
    simp only [Bool.or_eq_true, Bool.and_eq_true, decide_eq_true_eq, List.mem_cons, eq_comm (a := i)]
    tauto

/-- The numbers of the lowest wavelengths of a set. -/
def lowestNums (b : BitVec 9) (n : Nat) : List Nat := ((List.range 9).filter fun i => b.getLsbD i).take n

theorem getLsbD_lowestLams (b : BitVec 9) (n k : Nat) : (lowestLams b n).getLsbD k = decide (k < 9 ∧ k ∈ lowestNums b n) := by
  rw [lowestLams, getLsbD_foldl_lamBit, show (0 : BitVec 9).getLsbD k = false from BitVec.getLsbD_zero, Bool.false_or]
  rfl

theorem of_mem_lowestNums {b : BitVec 9} {n k : Nat} (h : k ∈ lowestNums b n) : k < 9 ∧ b.getLsbD k = true := by
  obtain ⟨range, set⟩ := List.mem_filter.1 (List.mem_of_mem_take h)
  exact ⟨List.mem_range.1 range, set⟩

/-- As many as were asked for, where the set holds them. -/
theorem lamCount_lowestLams {b : BitVec 9} {n : Nat} (h : n ≤ lamCount b) : lamCount (lowestLams b n) = n := by
  have same : ((List.range 9).filter fun k => (lowestLams b n).getLsbD k).Perm (lowestNums b n) := by
    refine (List.perm_ext_iff_of_nodup (List.nodup_range.filter _) ((List.nodup_range.filter _).sublist (List.take_sublist ..))).2 fun k => ?_
    rw [List.mem_filter, getLsbD_lowestLams, List.mem_range, decide_eq_true_eq]
    exact ⟨fun h => h.2.2, fun h => ⟨(of_mem_lowestNums h).1, (of_mem_lowestNums h).1, h⟩⟩
  rw [lamCount, List.countP_eq_length_filter, same.length_eq, lowestNums, List.length_take, ← List.countP_eq_length_filter]
  exact Nat.min_eq_left h

/-- They are of the set. -/
theorem lowestLams_subset (b : BitVec 9) (n : Nat) : lowestLams b n &&& ~~~b = 0 := by
  refine BitVec.eq_of_getLsbD_eq fun k hk => ?_
  rw [BitVec.getLsbD_and, BitVec.getLsbD_not, getLsbD_lowestLams, show (0 : BitVec 9).getLsbD k = false from BitVec.getLsbD_zero]
  by_cases mem : k ∈ lowestNums b n
  · simp [(of_mem_lowestNums mem).2]
  · simp [mem]

/-! Messages of the link leave (R274, R282, R362). -/

namespace Work.Quiet

theorem sendLink (w : Work) (p : Fin 32) (kind : Byte) (code : Nat) (bs : List Byte) : w.Quiet (w.sendLink p kind code bs) :=
  ((flushTail ..).trans (foldl (fun _ _ => putPacket ..) _ _)).trans (flushTail ..)

theorem sendHello (w : Work) (p : Fin 32) (h : HelloMsg) : w.Quiet (w.sendHello p h) := (sendLink ..).trans (emit ..)
theorem sendKeyMsg (w : Work) (p : Fin 32) (code : Byte) (m : KeyMsg) : w.Quiet (w.sendKeyMsg p code m) := (sendLink ..).trans (emit ..)

theorem fresh {w w' : Work} (h : w.Quiet w') : w'.fresh = w.fresh := (congrArg Work.fresh h.eq).trans rfl

end Work.Quiet

/-! A port that enters HELLO (R270, R274). -/

/-- A port in HELLO with a nonce, which has seen no hello of its peer. -/
def Port.greeting (n : BitVec 128) (y : Port) : Port := { y with st := 3, nonce := n, peerNonce := [], sentSigned := false }

/-- A fresh 16-byte value. -/
def Work.fresh128 (w : Work) : BitVec 128 := Config.freeWord w.fresh ++ Config.freeWord (w.fresh + 1)

/-- The work behind a port that enters HELLO, before its hello has left. -/
def Work.greets (w : Work) (p : Fin 32) : Work := ({ w with fresh := w.fresh + 2 } : Work).updPort p.val fun y => y.greeting w.fresh128

theorem Work.port_greets (w : Work) (p : Fin 32) : (w.greets p).port p.val = (w.port p.val).greeting w.fresh128 := Work.port_updPort_same ..

theorem Work.quiet_enterHello (w : Work) (p : Fin 32) (identity : List Byte) : (w.greets p).Quiet (w.enterHello p identity) := .sendHello ..

theorem Work.fresh_enterHello (w : Work) (p : Fin 32) (identity : List Byte) : (w.enterHello p identity).fresh = w.fresh + 2 :=
  (w.quiet_enterHello p identity).fresh

/-- A field of the port that no packet touches. -/
theorem Work.enterHello_keeps (w : Work) (p : Fin 32) (identity : List Byte) {α : Type} (g : Port → α)
    (hg : ∀ (q : Port) tail txFlit replay line owed credits shared rxRes rxShared slotQ misses txq, g { q with
      tail := tail, txFlit := txFlit, replay := replay, line := line, owed := owed, credits := credits, shared := shared, rxRes := rxRes
      rxShared := rxShared, slotQ := slotQ, misses := misses, txq := txq } = g q := by intros; rfl) :
    g ((w.enterHello p identity).port p.val) = g ((w.port p.val).greeting w.fresh128) :=
  ((w.quiet_enterHello p identity).keeps p.val g hg).trans (congrArg g (w.port_greets p))

/-! Training (R266, R270). -/

/-- Training sets leave, and nothing else changes. -/
theorem Work.sendOrdered_eq (w : Work) (p : Fin 32) (t : Byte) : ∃ o, w.sendOrdered p t = { w with out := o } :=
  List.foldlRecOn _ _ (motive := fun v : Work => ∃ o, v = { w with out := o }) ⟨w.out, rfl⟩ fun b ⟨o, hb⟩ l _ =>
    ⟨.ordered p t l (widthOffer (b.port p.val).good) :: o, by rw [hb]; rfl⟩

/-- A port without a link session goes down. -/
theorem Work.portDown_inactive {w : Work} {p : Fin 32} (h : (w.port p.val).isActive = false) (st : Nat) :
    w.portDown p st = w.updPort p.val fun y =>
      { y.dropLink with st := st, lambdas := 0, txLambdas := 0, drainOf := w.portWork p } := if_neg (Bool.eq_false_iff.1 h)

theorem Port.isActive_iff (y : Port) : y.isActive = true ↔ y.st = 5 := beq_iff_eq

theorem Port.isActive_eq_false (y : Port) : y.isActive = false ↔ y.st ≠ 5 := beq_eq_false_iff_ne

/-- A port with a WIDTH and its wavelengths (R266). -/
def Port.withWidth (good : BitVec 9) (wd : Nat) (now : Word) (y : Port) : Port :=
  { y with good := good, lambdas := lowestLams good wd, txLambdas := lowestLams good wd, trained := lowestLams good wd, txMoves := []
           rxMoves := [], txBad := 0, lineAt := now, width := wd, ctl := [] }

/-- The WIDTH that both ends agree on (R266). -/
def widthAgreed (good : BitVec 9) (peer : Nat) : Nat := if peer = 8 ∧ 8 ≤ lamCount good then 8 else 4

theorem widthAgreed_eq (good : BitVec 9) (peer : Nat) : (if peer = 8 then widthOffer good else 4) = widthAgreed good peer := by
  unfold widthOffer widthAgreed
  by_cases h : peer = 8 <;> simp [h]

theorem widthAgreed_le {good : BitVec 9} (h : 4 ≤ lamCount good) (peer : Nat) : widthAgreed good peer ≤ lamCount good := by
  unfold widthAgreed
  split
  next wide => exact wide.2
  · exact h

/-- Training that completes: the port has its WIDTH, and enters HELLO. -/
theorem Work.trained_completes {w : Work} {p : Fin 32} {good : BitVec 9} (hs : (w.port p.val).st = 2) (hg : 4 ≤ lamCount good) (peer : Nat)
    (identity : List Byte) :
    ∃ w' : Work, w.trained p good peer identity = w'.enterHello p identity ∧ w'.fresh = w.fresh ∧
      w'.port p.val = (w.port p.val).withWidth good (widthAgreed good peer) w.time.ftime := by
  have set := w.port_updPort_same p.val fun y => y.withWidth good (widthAgreed good peer) w.time.ftime
  generalize hw : (w.updPort p.val fun y => y.withWidth good (widthAgreed good peer) w.time.ftime) = w0 at set
  have fresh : w0.fresh = w.fresh := by rw [← hw]; rfl
  have told := Work.port_sendOrdered w0 p 0x2D p.val
  obtain ⟨o, ordered⟩ := w0.sendOrdered_eq p 0x2D
  refine ⟨if (w.port p.val).width = 0 ∨ (w.port p.val).width = widthAgreed good peer then w0.sendOrdered p 0x2D
    else (w0.sendOrdered p 0x2D).logPort p.val 1 (p.val + widthAgreed good peer * 2 ^ 8), ?_, ?_, ?_⟩
  · rw [Work.trained, if_neg (not_not_intro hs), if_neg (Nat.not_lt.2 hg)]
    dsimp only
    rw [widthAgreed_eq, ← hw]
    rfl
  · rw [ordered]
    split <;> exact fresh
  · rw [← set, ← told]
    split <;> rfl

theorem Work.trained_fails {w : Work} {p : Fin 32} {good : BitVec 9} (hs : (w.port p.val).st = 2) (hg : lamCount good < 4) (peer : Nat)
    (identity : List Byte) : w.trained p good peer identity = (w.updPort p.val fun y => { y with good := good }).portFailed p := by
  rw [Work.trained, if_neg (not_not_intro hs), if_pos hg]

/-- The end of a grace window goes by the time and by the spans' round trips (R395). -/
theorem Work.graceFrom_congr {w w' : Work} (ht : w'.time = w.time)
    (hp : ∀ k, (w'.port k).longHaul = (w.port k).longHaul ∧ (w'.port k).rttUs = (w.port k).rttUs) : w'.graceFrom = w.graceFrom := by
  unfold Work.graceFrom
  rw [ht]
  simp only [fun k => (hp k).1, fun k => (hp k).2]

/-- Ports have changed, and something has left the device. -/
def Work.PortsAndOut (w w' : Work) : Prop := ∃ o t, w' = { w with fab := { w.fab with ports := t }, out := o }

namespace Work.PortsAndOut

theorem trans {a b c : Work} (h1 : a.PortsAndOut b) (h2 : b.PortsAndOut c) : a.PortsAndOut c := by
  obtain ⟨o, t, rfl⟩ := h1
  obtain ⟨o', t', rfl⟩ := h2
  exact ⟨o', t', rfl⟩

theorem eq {w w' : Work} (h : w.PortsAndOut w') : w' = { w with fab := { w.fab with ports := w'.fab.ports }, out := w'.out } := by
  obtain ⟨o, t, rfl⟩ := h
  rfl

theorem updPort (w : Work) (i : Nat) (f : Port → Port) : w.PortsAndOut (w.updPort i f) := ⟨w.out, _, rfl⟩

theorem sendOrdered (w : Work) (p : Fin 32) (t : Byte) : w.PortsAndOut (w.sendOrdered p t) := by
  obtain ⟨o, ordered⟩ := w.sendOrdered_eq p t
  exact ⟨o, w.fab.ports, ordered⟩

theorem train (w : Work) (n : Nat) : w.PortsAndOut (w.train n) := (updPort ..).trans (sendOrdered ..)

end Work.PortsAndOut

theorem Work.train_eq (w : Work) (p : Fin 32) : w.train p.val = (w.updPort p.val fun y => { y.dropLink with st := 2 }).sendOrdered p 0x1E := by
  rw [Work.train, portFin_val]

theorem Work.port_train (w : Work) (p : Fin 32) : (w.train p.val).port p.val = { (w.port p.val).dropLink with st := 2 } := by
  rw [Work.train_eq, Work.port_sendOrdered, Work.port_updPort_same]

/-! Light (R266, R270). -/

/-- A port with light of a set of wavelengths. -/
def Port.lit (lams : BitVec 9) (y : Port) : Port := { y with light := lams }

section
variable (w : Work) (p : Fin 32) (lams : BitVec 9)

theorem Work.port_lit : (w.updPort p.val fun y => y.lit lams).port p.val = (w.port p.val).lit lams := w.port_updPort_same ..

variable {w p lams} (hs : (w.port p.val).st ≠ 5)
include hs

theorem Work.lightOn_few (hl : lamCount lams < 4) :
    w.lightOn p.val lams = if (w.port p.val).st = 0 then w.updPort p.val fun y => y.lit lams
      else (w.updPort p.val fun y => y.lit lams).portDown p 0 := by
  rw [Work.lightOn, if_neg (Bool.eq_false_iff.1 ((Port.isActive_eq_false _).2 hs)), if_pos hl, portFin_val]
  rfl

theorem Work.lightOn_enough (hl : 4 ≤ lamCount lams) :
    w.lightOn p.val lams = if (w.updPort p.val fun y => y.lit lams).portMayStart p.val = true ∧ (w.port p.val).st ≤ 1 then
      (w.updPort p.val fun y => y.lit lams).train p.val else w.updPort p.val fun y => y.lit lams := by
  rw [Work.lightOn, if_neg (Bool.eq_false_iff.1 ((Port.isActive_eq_false _).2 hs)), if_neg (Nat.not_lt.2 hl)]
  exact if_congr (by rw [Bool.and_eq_true, decide_eq_true_eq]; exact Iff.rfl) rfl rfl

end

/-- An active port loses wavelengths: the good ones that are left. -/
def Port.darkened (lams : BitVec 9) (y : Port) : Port := { y with light := lams, good := y.good &&& lams }

/-- The wavelengths in use that have no light any more. -/
def Port.lostLams (y : Port) (lams : BitVec 9) : BitVec 9 := y.lambdas &&& ~~~lams

theorem Work.lightOn_active {w : Work} {p : Fin 32} (h : (w.port p.val).isActive = true) (lams : BitVec 9) :
    ∃ v : Work, v = ((w.updPort p.val fun y => y.lit lams).updPort p.val fun y => { y with good := (w.port p.val).good &&& lams }) ∧
      v.port p.val = (w.port p.val).darkened lams ∧
      w.lightOn p.val lams =
        if (w.port p.val).lostLams lams = 0 then v
        else if lamCount ((w.port p.val).good &&& lams) < 4 then v.portFailed p
        else if lamCount ((w.port p.val).lostLams lams) ≤ ((w.port p.val).darkened lams).sparesLeft then v
        else v.retrain p true := by
  have set := w.port_lit p lams
  have port : ((w.updPort p.val fun y => y.lit lams).updPort p.val fun y => { y with good := (w.port p.val).good &&& lams }).port p.val =
      (w.port p.val).darkened lams := by rw [Work.port_updPort_same, set]; rfl
  have dark : (w.updPort p.val fun y => y.lit lams).updPort p.val (fun y => { y with good := y.good &&& y.light }) =
      (w.updPort p.val fun y => y.lit lams).updPort p.val fun y => { y with good := (w.port p.val).good &&& lams } :=
    Work.updPort_congr _ _ (by rw [set]; rfl)
  refine ⟨_, rfl, port, ?_⟩
  rw [Work.lightOn, if_pos h, portFin_val]
  show (w.updPort p.val fun y => y.lit lams).darken p = _
  rw [Work.darken, dark, port, set]
  rfl

/-! What the instructions answer. -/

/-- A port trains anew: its keys are gone, and RETRAINS and its epoch count. -/
theorem exec_anew {s : State} {i : Instr} {p : Fin 32} {w : Work} {own : Bool} (hi : exec i s = .next { s with w := w.retrain p own })
    (ha : (w.port p.val).isActive = true) (hr : (w.port p.val).retrains = (s.w.port p.val).retrains) (he : w.epochs = s.w.epochs) :
    ∃ t, exec i s = .next t ∧ t.ctl = s.ctl ∧ t.pending = s.pending ∧ (t.w.port p.val).st = 2 ∧
      (t.w.port p.val).linkKey = none ∧ (t.w.port p.val).replay = [] ∧ (t.w.port p.val).tail = none ∧
      (t.w.port p.val).retrains = satAdd (s.w.port p.val).retrains 1 ∧
      (t.w.port p.val).ctl = (if own then [.retrain] else []) ∧ (own = true → ctlSent p 0x06 [] t.w.out) ∧
      t.w.epochs.get 0 (portUnit p.val).toNat = s.w.epochs.get 0 (portUnit p.val).toNat + 1 := by
  obtain ⟨st, linkKey, newKey, replay, tail, retrains, commands, good, graceEnd, asked, epoch⟩ := Work.retrain_active ha own
  rw [hr] at retrains
  rw [he] at epoch
  exact ⟨_, hi, rfl, rfl, st, linkKey, replay, tail, retrains, commands, asked, epoch⟩

theorem exec_lightPresent {s : State} {p : Fin 32} {lams : BitVec 9} {w : Work} (h : s.w.lightOn p.val lams = w) :
    exec (.lightPresent p lams) s = .next { s with w := w } := by
  rw [← h]
  rfl

theorem exec_portTrainComplete {s : State} {p : Fin 32} {good : BitVec 9} {peer : Nat} {w : Work}
    (h : s.w.trained p good peer s.ctl.fuse.identity = w) : exec (.portTrainComplete p good peer) s = .next { s with w := w } := by
  rw [← h]
  rfl

theorem exec_portTrainRetry {s : State} {p : Fin 32} {w : Work}
    (h : (if (s.w.port p.val).st = 6 ∧ s.w.portMayStart p.val = true then s.w.train p.val else s.w) = w) :
    exec (.portTrainRetry p) s = .next { s with w := w } := by
  rw [← h]
  rfl

theorem exec_portTrainFailed {s : State} {p : Fin 32} {w : Work} (h : (if (s.w.port p.val).st = 2 then s.w.portFailed p else s.w) = w) :
    exec (.portTrainFailed p) s = .next { s with w := w } := by
  rw [← h]
  rfl

theorem exec_helloRetry {s : State} {p : Fin 32} {w : Work}
    (h : (if (s.w.port p.val).st = 7 then s.w.enterHello p s.ctl.fuse.identity else s.w) = w) : exec (.helloRetry p) s = .next { s with w := w } := by
  rw [← h]
  rfl

/-- A port asks for a flit again. -/
def asksFlit (l : List CtlOut) : Bool := l.any fun c => match c with | .nak _ => true | _ => false

theorem asksFlit_iff (l : List CtlOut) : asksFlit l = true ↔ ∃ e, .nak e ∈ l := by
  rw [asksFlit, List.any_eq_true]
  constructor
  · rintro ⟨c, hc, eq⟩
    cases c with
    | nak e => exact ⟨e, hc⟩
    | spare _ _ => cases eq
    | retrain => cases eq
  · rintro ⟨e, he⟩
    exact ⟨_, he, rfl⟩

theorem exec_nakNoProgress {s : State} {p : Fin 32} {w : Work}
    (h : (if asksFlit (s.w.port p.val).ctl = true then s.w.retrain p true else s.w) = w) : exec (.nakNoProgress p) s = .next { s with w := w } := by
  rw [← h]
  rfl

theorem Work.retrain_inactive {w : Work} {p : Fin 32} (h : (w.port p.val).isActive = false) (own : Bool) : w.retrain p own = w :=
  if_neg (Bool.eq_false_iff.1 h)

/-- Of a port, what the head of a link command does not touch and a retrain goes by. -/
def Port.headKept (y : Port) : Bool × Byte × Bool × BitVec 11 := (y.isActive, y.retrains, y.longHaul, y.rttUs)

/-- What the head of a link command leaves: the port's state, RETRAINS and the epochs, and the end of a grace window that opens now. -/
theorem Work.ctlHead_keeps (w : Work) (r : CtlRx) :
    ((w.ctlHead r).port r.port.val).isActive = (w.port r.port.val).isActive ∧
      ((w.ctlHead r).port r.port.val).retrains = (w.port r.port.val).retrains ∧ (w.ctlHead r).epochs = w.epochs ∧
      (w.ctlHead r).graceFrom = w.graceFrom := by
  have quiet : (w.updPort r.port.val fun y => y.countCodewords (CtlRx.flit r)).Quiet (w.ctlHead r) := .flitHeader ..
  have kept (k : Nat) : ((w.ctlHead r).port k).headKept = (w.port k).headKept := by
    refine (quiet.keeps k Port.headKept).trans ?_
    by_cases hk : k = r.port.val
    · subst hk
      rw [Work.port_updPort_same, Port.countCodewords_keeps _ _ Port.headKept]
    · rw [Work.port_updPort_other _ _ hk]
  refine ⟨congrArg Prod.fst (kept _), congrArg (fun t => t.2.1) (kept _), quiet.epochs, Work.graceFrom_congr quiet.time fun k => ?_⟩
  exact ⟨congrArg (fun t => t.2.2.1) (kept k), congrArg (fun t => t.2.2.2) (kept k)⟩

theorem exec_uncorrectableBurst {s : State} {p : Fin 32} {w : Work} (h : s.w.retrain p true = w) :
    exec (.uncorrectableBurst p) s = .next { s with w := w } := by
  rw [← h]
  rfl

theorem exec_authFailBurst {s : State} {p : Fin 32} {w : Work} (h : s.w.retrain p true = w) :
    exec (.authFailBurst p) s = .next { s with w := w } := by
  rw [← h]
  rfl

/-- Settles O47: each row is followed through the branch of `lightOn`, `trained`, `retrain` or `portDown` that its conditions select. -/
theorem portStateResults : Obligations.PortStateResults := by
  unfold Obligations.PortStateResults
  intro p r lams good peer s po ctl now u anew link down lit may light
  have inactive (h : po.st ≠ 5) : po.isActive = false := (Port.isActive_eq_false _).2 h
  refine ⟨fun hs hl hm => ?starts, fun hs hl => ?dark, fun hs hl hm => ?stays, fun hs => ?active, fun hs hg => ?fails, fun hs hg => ?completes,
    fun hs => ?untrained, fun hs hm => ?retry, fun h => ?noRetry, fun hs => ?trainFailed, fun hs => ?noTrain, fun hs => ?hello, fun hs => ?noHello,
    fun ha => ⟨?burst, ?auth, fun hr hg => ?asked, fun hn => ?nak⟩, fun hn => ?noNak, fun ha => ⟨?noBurst, ?noAuth, fun hr hg => ?notAsked⟩⟩
  case starts =>
    have eq : s.w.lightOn p.val lams = (s.w.updPort p.val fun y => y.lit lams).train p.val :=
      (Work.lightOn_enough (by show po.st ≠ 5; omega) hl).trans (if_pos ⟨hm, hs⟩)
    refine ⟨_, exec_lightPresent eq, rfl, ?_, ?_⟩
    · exact ((Work.PortsAndOut.updPort ..).trans (.train ..)).eq
    · show ((s.w.updPort p.val fun y => y.lit lams).train p.val).port p.val = _
      rw [Work.port_train, Work.port_lit]
      rfl
  case dark =>
    have eq : s.w.lightOn p.val lams = _ := Work.lightOn_few hs hl
    by_cases zero : po.st = 0
    · rw [if_pos zero]
      exact ⟨_, exec_lightPresent (eq.trans (if_pos zero)), rfl, (Work.PortsAndOut.updPort ..).eq, s.w.port_lit p lams⟩
    · rw [if_neg zero]
      have downs := Work.portDown_inactive (w := s.w.updPort p.val fun y => y.lit lams) (p := p) (by rw [Work.port_lit]; exact inactive hs) 0
      refine ⟨_, exec_lightPresent ((eq.trans (if_neg zero)).trans downs), rfl, ((Work.PortsAndOut.updPort ..).trans (.updPort ..)).eq, ?_⟩
      show (((s.w.updPort p.val fun y => y.lit lams).updPort p.val _).port p.val) = _
      rw [Work.port_updPort_same, Work.port_lit]
      rfl
  case stays =>
    refine exec_lightPresent ((Work.lightOn_enough hs hl).trans (if_neg fun h => ?_))
    rcases hm with hm | hm
    · exact Nat.not_lt.2 h.2 hm
    · exact hm h.1
  case active =>
    intro lost good left
    have ha : po.isActive = true := (Port.isActive_iff _).2 hs
    obtain ⟨v, hv, port, eq⟩ := Work.lightOn_active ha lams
    have active : (v.port p.val).isActive = true := by rw [port]; exact ha
    have epochs : v.epochs = s.w.epochs := by rw [hv]; rfl
    refine ⟨fun h => ?_, fun hl hg hf => ?_, fun hl hg => ?_⟩
    · refine (exec_lightPresent (w := v) ?_).trans (by rw [hv]; rfl)
      by_cases none_ : lost = 0
      · exact eq.trans (if_pos none_)
      · obtain ⟨enough, spares⟩ := h.resolve_left none_
        exact ((eq.trans (if_neg none_)).trans (if_neg (Nat.not_lt.2 enough))).trans (if_pos spares)
    · refine exec_anew (exec_lightPresent (((eq.trans (if_neg hl)).trans (if_neg (Nat.not_lt.2 hg))).trans (if_neg (Nat.not_le.2 hf)))) active ?_ epochs
      rw [port]
      rfl
    · have failed := Work.portFailed_active active
      exact ⟨_, exec_lightPresent ((eq.trans (if_neg hl)).trans (if_pos hg)), rfl, failed.st, failed.linkKey, failed.lambdas, by
        rw [← epochs]; exact failed.epoch⟩
  case fails =>
    have set := s.w.port_updPort_same p.val fun y => { y with good := good }
    have downs := Work.portDown_inactive (w := s.w.updPort p.val fun y => { y with good := good }) (p := p)
      (by rw [set]; exact inactive (by show po.st ≠ 5; omega)) 6
    refine exec_portTrainComplete ((Work.trained_fails hs hg ..).trans ?_)
    rw [Work.portFailed, downs]
    rfl
  case completes =>
    obtain ⟨v, eq, fresh, port⟩ := Work.trained_completes hs hg peer s.ctl.fuse.identity
    have keeps {α : Type} (g : Port → α) (hg) := v.enterHello_keeps p s.ctl.fuse.identity g hg
    rw [port] at keeps
    refine ⟨_, exec_portTrainComplete eq, rfl, keeps Port.st (by intros; rfl), keeps Port.good (by intros; rfl), keeps Port.width (by intros; rfl),
      ?_, ?_, ?_, ?_, ?_⟩
    · rw [keeps Port.lambdas (by intros; rfl), keeps Port.width (by intros; rfl)]
      exact lamCount_lowestLams (widthAgreed_le hg peer)
    · rw [keeps Port.lambdas (by intros; rfl)]
      exact lowestLams_subset ..
    · rw [keeps Port.lambdas (by intros; rfl), keeps Port.txLambdas (by intros; rfl)]
      rfl
    · rw [← fresh]
      exact keeps Port.nonce (by intros; rfl)
    · rw [← fresh]
      exact v.fresh_enterHello ..
  case untrained => exact exec_portTrainComplete (if_pos hs)
  case retry => exact (exec_portTrainRetry (if_pos ⟨hs, hm⟩)).trans (by rw [Work.train_eq]; rfl)
  case noRetry => exact exec_portTrainRetry (if_neg fun both => h.elim (fun other => other both.1) fun shut => Bool.eq_false_iff.1 shut both.2)
  case trainFailed =>
    have downs := Work.portDown_inactive (w := s.w) (p := p) (inactive (by show po.st ≠ 5; omega)) 6
    refine (exec_portTrainFailed (if_pos hs)).trans ?_
    rw [Work.portFailed, downs]
    rfl
  case noTrain => exact exec_portTrainFailed (if_neg hs)
  case hello =>
    have keeps {α : Type} (g : Port → α) (hg) := s.w.enterHello_keeps p s.ctl.fuse.identity g hg
    refine ⟨_, (s.w.greets p).ownHello p.val s.ctl.fuse.identity none, exec_helloRetry (if_pos hs), rfl, s.w.fresh_enterHello .., rfl,
      keeps Port.st (by intros; rfl), keeps Port.nonce (by intros; rfl), keeps Port.peerNonce (by intros; rfl),
      keeps Port.sentSigned (by intros; rfl), ?_, rfl⟩
    rw [keeps Port.nonce (by intros; rfl), ← s.w.port_greets p]
    rfl
  case noHello => exact exec_helloRetry (if_neg hs)
  case burst => exact exec_anew (w := s.w) rfl ha rfl rfl
  case auth => exact exec_anew (w := s.w) rfl ha rfl rfl
  case asked =>
    subst hr
    obtain ⟨active, retrains, epochs, grace⟩ := s.w.ctlHead_keeps r
    have set := (s.w.ctlHead r).port_updPort_same r.port.val fun y => { y with graceEnd := some (s.w.ctlHead r).graceFrom }
    have act : exec (.linkRetrain r) s = .next { s with
        w := ((s.w.ctlHead r).updPort r.port.val fun y => { y with graceEnd := some (s.w.ctlHead r).graceFrom }).retrain r.port false } :=
      exec_takeCtl_good rfl hg (if_pos (active.trans ha))
    generalize hv : (s.w.ctlHead r).updPort r.port.val (fun y => { y with graceEnd := some (s.w.ctlHead r).graceFrom }) = v at set act
    have live : (v.port r.port.val).isActive = true := by rw [set]; exact active.trans ha
    have ended := (Work.retrain_active live false).graceEnd
    rw [set, grace] at ended
    exact ⟨exec_anew act live (by rw [set]; exact retrains) (by rw [← hv]; exact epochs), _, act, ended⟩
  case nak => exact exec_anew (exec_nakNoProgress (if_pos ((asksFlit_iff ..).2 hn))) ha rfl rfl
  case noNak => exact exec_nakNoProgress (if_neg fun asks => (asksFlit_iff ..).1 asks |>.elim hn)
  case noBurst => exact exec_uncorrectableBurst (Work.retrain_inactive ha true)
  case noAuth => exact exec_authFailBurst (Work.retrain_inactive ha true)
  case notAsked =>
    subst hr
    obtain ⟨active, -⟩ := s.w.ctlHead_keeps r
    exact exec_takeCtl_good rfl hg (if_neg (by rw [active]; exact Bool.eq_false_iff.1 ha))

end Sys2Proof.Machine
end

section
/-! O48: hellos, key offers, acceptances, proofs and rekeys of a link (R274, R289, R350, R361-R363, R372, R378, R379). -/

namespace Sys2Proof.Machine

namespace Work.Grows

theorem sendLink (w : Work) (p : Fin 32) (kind : Byte) (code : Nat) (bs : List Byte) : w.Grows (w.sendLink p kind code bs) :=
  ((flushTail ..).trans (foldl (fun _ _ => putPacket ..) _ _)).trans (flushTail ..)

theorem sendKeyMsg (w : Work) (p : Fin 32) (code : Byte) (m : KeyMsg) : w.Grows (w.sendKeyMsg p code m) := (sendLink ..).trans (emit ..)

end Work.Grows

/-! A packet of one flit (R268, R282). -/

theorem length_msBytes (n v : Nat) : (msBytes n v).length = n := by simp [msBytes]

theorem length_pktHeader (k : Pkt) : (pktHeader k).length = 32 := by simp [pktHeader]

theorem length_padded_le (b : List Byte) : (padded b).length ≤ b.length + 7 := by
  simp only [padded, bytesAt, List.length_append, List.length_replicate, List.length_take]
  omega

theorem length_gcmTag_le (key iv aad c : List Byte) : (gcmTag key iv aad c).length ≤ 16 := by
  simp only [gcmTag, xorBytes, List.length_zipWith, length_msBytes]
  exact Nat.min_le_left ..

/-- A packet of up to 185 bytes fits one flit. -/
theorem length_pktWire_le {k : Pkt} (h : k.payload.length ≤ 185) (keys : List Byte) (lower : Bool) (n : Word) :
    (pktWire keys lower n k).length ≤ 240 := by
  have body := length_padded_le k.payload
  have tag := length_gcmTag_le (dirKey keys lower).1 (pktIv (dirKey keys lower).2 n) (pktHeader k) (pktCipher keys lower n k)
  simp only [pktWire, pktTag, pktCipher, List.length_append, length_pktHeader, length_gcmCrypt] at tag ⊢
  omega

theorem length_pktClear_le {k : Pkt} (h : k.payload.length ≤ 185) : (pktClear k).length ≤ 240 := by
  have body := length_padded_le k.payload
  simp only [pktClear, List.length_append, length_pktHeader, List.length_replicate]
  omega

theorem Port.nextCredit_txFlit (y : Port) : y.nextCredit.2.txFlit = y.txFlit ∧ y.nextCredit.2.tail = y.tail := by
  unfold Port.nextCredit
  split
  · exact ⟨rfl, rfl⟩
  · split <;> exact ⟨rfl, rfl⟩

/-- The number of the next flit of a port, and the flit that is being filled. -/
def Port.filling (y : Port) : Word × Option ReplayFlit := (y.txFlit, y.tail)

theorem Work.filling_sendFlit (w : Work) (p : Fin 32) (typ : BitVec 4) (seq : BitVec 16) (start : BitVec 5) (body : List Byte) :
    ((w.sendFlit p typ seq start body).port p.val).filling = (w.port p.val).filling := by
  obtain ⟨txFlit, tail⟩ := (w.port p.val).nextCredit_txFlit
  show ((w.updPort p.val _).port p.val).filling = _
  rw [Work.port_updPort_same]
  exact Prod.ext txFlit tail

theorem Work.flushTail_none {w : Work} {p : Fin 32} (h : (w.port p.val).tail = none) : w.flushTail p = w := by rw [Work.flushTail, h]

theorem Work.filling_flushTail_some {w : Work} {p : Fin 32} {f : ReplayFlit} (h : (w.port p.val).tail = some f) :
    ((w.flushTail p).port p.val).filling = ((w.port p.val).txFlit + 1, none) := by
  rw [Work.flushTail, h]
  dsimp only
  rw [Work.filling_sendFlit, Work.port_updPort_same]
  rfl

theorem Work.tail_flushTail (w : Work) (p : Fin 32) : ((w.flushTail p).port p.val).tail = none := by
  cases h : (w.port p.val).tail with
  | none => rw [Work.flushTail_none h, h]
  | some f => exact congrArg Prod.snd (Work.filling_flushTail_some h)

theorem Work.port_markSent (w : Work) (p : Fin 32) (k : Pkt) (i : Nat) : (w.markSent p k).port i = w.port i := by
  unfold Work.markSent
  split <;> rfl

/-- Bytes that fit one flit enter a flit of their own, which leaves at once when they fill it. -/
theorem Work.filling_putBytes {w : Work} {p : Fin 32} (h : (w.port p.val).tail = none) {bs : List Byte} (hb : bs.length ≤ 240) (k : Pkt) (n : Nat)
    (st : BitVec 5) :
    (∃ f, ((w.putBytes p k (n + 1) bs st).port p.val).filling = ((w.port p.val).txFlit, some f)) ∨
      ((w.putBytes p k (n + 1) bs st).port p.val).filling = ((w.port p.val).txFlit + 1, none) := by
  unfold Work.putBytes
  dsimp only
  rw [h, if_pos (by simpa using hb)]
  split
  · exact .inr ((Work.filling_flushTail_some (by rw [Work.port_updPort_same])).trans (by rw [Work.port_updPort_same]))
  · exact .inl ⟨_, by rw [Work.port_updPort_same, Port.filling]⟩

/-- A packet of one flit, and the flush behind it, take one flit. -/
theorem Work.txFlit_putPacket {w : Work} {p : Fin 32} (h : (w.port p.val).tail = none) {k : Pkt} (hk : k.payload.length ≤ 185) :
    (((w.putPacket p k).flushTail p).port p.val).txFlit = (w.port p.val).txFlit + 1 := by
  have joins : (w.port p.val).canJoin k = true := by rw [Port.canJoin, h]
  unfold Work.putPacket
  rw [if_pos joins]
  dsimp only
  generalize hb : (if (w.port p.val).isActive = true then pktWire (w.port p.val).txKeys (w.initiator p.val) (w.port p.val).txFlit k else pktClear k) = wire
  have fits : wire.length ≤ 240 := by
    rw [← hb]
    split
    · exact length_pktWire_le hk ..
    · exact length_pktClear_le hk
  have filled := Work.filling_putBytes h fits k (wire.length / 240 + 1) ((w.port p.val).nextStart k)
  generalize w.putBytes p k (wire.length / 240 + 2) wire ((w.port p.val).nextStart k) = v at filled
  have port : ((v.markSent p k).emit (.packet p k)).port p.val = v.port p.val := v.port_markSent p k p.val
  rcases filled with ⟨f, filled⟩ | filled
  · have tail : (((v.markSent p k).emit (.packet p k)).port p.val).tail = some f := by rw [port]; exact congrArg Prod.snd filled
    refine (congrArg Prod.fst (Work.filling_flushTail_some tail)).trans ?_
    rw [port]
    exact congrArg (fun y => y.1 + 1) filled
  · rw [Work.flushTail_none (by rw [port]; exact congrArg Prod.snd filled), port]
    exact congrArg Prod.fst filled

theorem rangePackets_short {bs : List Byte} (h : bs ≠ []) (hl : bs.length < 4096) : rangePackets bs = [(0, bs)] := by
  rw [rangePackets, Nat.div_eq_of_lt hl, packetParts, if_neg (by simpa using h), List.take_of_length_le (Nat.le_of_lt hl)]
  rfl

/-- A message of the link that fits one flit takes one (R274, R362). -/
theorem Work.txFlit_sendLink {w : Work} {p : Fin 32} (h : (w.port p.val).tail = none) {bs : List Byte} (hn : bs ≠ []) (hl : bs.length ≤ 185)
    (kind : Byte) (code : Nat) : ((w.sendLink p kind code bs).port p.val).txFlit = (w.port p.val).txFlit + 1 := by
  rw [Work.sendLink, linkPackets, rangePackets_short hn (by omega), Work.flushTail_none h]
  exact Work.txFlit_putPacket h hl

/-! A DONE (R362, R363). -/

/-- A port with new keys, which are in use from a flit on. -/
def Port.switching (keys : List Byte) (n : Word) (y : Port) : Port :=
  { y with newKey := some keys, kem := none, keyPhase := .switching n, keyFirst := n }

/-- A DONE has left, and the new keys are in use from the flit behind it. -/
theorem Work.sendDone_takes (w : Work) (p : Fin 32) (keys : List Byte) :
    let x := w.sendDone p keys
    let n := (x.port p.val).txFlit
    ((x.port p.val).newKey = some keys ∧ (x.port p.val).kem = none ∧ (x.port p.val).keyPhase = .switching n ∧ (x.port p.val).keyFirst = n) ∧
      x.out.head? = some (.key p 3 ⟨[], [], doneProof keys (w.kexDigest p.val) (w.initiator p.val), n⟩) ∧ x.fresh = w.fresh ∧ w.Grows x := by
  intro x n
  generalize hd : doneProof keys (w.kexDigest p.val) (w.initiator p.val) = d
  have short : d.length ≤ 32 := by
    rw [← hd, doneProof, kmac256, keccakSponge]
    exact List.length_take_le ..
  generalize hm : ((w.flushTail p).port p.val).txFlit + 1 = m
  have eq : x = ((w.flushTail p).sendKeyMsg p 3 ⟨[], [], d, m⟩).updPort p.val fun y => y.switching keys m := by
    rw [← hm, ← hd]
    rfl
  have sent : (((w.flushTail p).sendKeyMsg p 3 ⟨[], [], d, m⟩).port p.val).txFlit = m := by
    have bytes : keyBytes 3 ⟨[], [], d, m⟩ = d ++ leBytes 8 m.toNat := rfl
    refine (Work.txFlit_sendLink (w.tail_flushTail p) ?_ ?_ 0x0A 3).trans hm
    · rw [bytes]
      simp [leBytes]
    · rw [bytes, List.length_append, length_leBytes]
      omega
  have port : x.port p.val = (((w.flushTail p).sendKeyMsg p 3 ⟨[], [], d, m⟩).port p.val).switching keys m := by
    rw [eq, Work.port_updPort_same]
  have number : n = m := by
    show (x.port p.val).txFlit = m
    rw [port]
    exact sent
  rw [number, port]
  refine ⟨⟨rfl, rfl, rfl, rfl⟩, by rw [eq]; rfl, ?_, ?_⟩
  · rw [eq]
    exact ((Work.Quiet.flushTail w p).trans (.sendKeyMsg ..)).fresh
  · rw [eq]
    exact ((Work.Grows.flushTail w p).trans (.sendKeyMsg ..)).trans (.updPort ..)

/-! What a key exchange goes by (R362). -/

/-- Of a port, the peer and the two signed hellos. -/
def Port.session (y : Port) : BitVec 16 × List Byte × List Byte := (y.peer, y.sentHello, y.gotHello)

theorem Work.session_congr {w w' : Work} {p : Nat} (ht : w'.time = w.time) (hp : (w'.port p).session = (w.port p).session) :
    w'.kexDigest p = w.kexDigest p ∧ w'.initiator p = w.initiator p := by
  obtain ⟨peer, hellos⟩ := Prod.mk.inj hp
  obtain ⟨sent, got⟩ := Prod.mk.inj hellos
  unfold Work.kexDigest Work.initiator
  dsimp only
  rw [ht, peer, sent, got]
  exact ⟨rfl, rfl⟩

theorem Work.session_updPort (w : Work) (p : Nat) {f : Port → Port} (h : (f (w.port p)).session = (w.port p).session) :
    (w.updPort p f).kexDigest p = w.kexDigest p ∧ (w.updPort p f).initiator p = w.initiator p :=
  Work.session_congr rfl (by rw [Work.port_updPort_same, h])

theorem Work.Quiet.session {w w' : Work} (h : w.Quiet w') (p : Nat) : w'.kexDigest p = w.kexDigest p ∧ w'.initiator p = w.initiator p :=
  Work.session_congr h.time (h.keeps p Port.session)

theorem Port.inKex_iff (y : Port) : y.inKex = true ↔ y.st = 4 ∨ y.st = 5 := by
  rw [Port.inKex, Bool.or_eq_true, beq_iff_eq, beq_iff_eq]

/-- A signed key exchange message that verifies (R362). -/
def Work.Verifies (w : Work) (p : Nat) (m : KeyMsg) : Prop :=
  m.digest = w.kexDigest p ∧ Config.xmssVerify (w.port p).peerIdentity (m.kem ++ m.digest) m.proof = true

theorem Work.kexOk_iff (w : Work) (p : Nat) (m : KeyMsg) : w.kexOk p m = true ↔ w.Verifies p m := by
  rw [Work.kexOk, Bool.and_eq_true, decide_eq_true_eq, Work.Verifies]

/-- A key exchange that fails returns the port to training. -/
theorem Work.kexFail_retrains (w : Work) (p : Fin 32) (cause : Nat) :
    ((w.kexFail p cause).port p.val).st = 2 ∧ ((w.kexFail p cause).port p.val).linkKey = none ∧ ((w.kexFail p cause).port p.val).newKey = none := by
  unfold Work.kexFail
  dsimp only
  split
  next ha =>
    have anew := Work.retrain_active ha true
    exact ⟨anew.st, anew.linkKey, anew.newKey⟩
  next =>
    rw [Work.port_train]
    exact ⟨rfl, rfl, rfl⟩

/-! Key messages that come (R361-R364). -/

/-- The packets of a rekey carry its message. -/
def keyCarried (m : KeyRx) (code : Byte) : Prop :=
  (∀ a, a ∈ m.parts → a.pkt.kind = 0x0A) ∧ m.parts.flatMap (fun a => a.pkt.payload) = keyBytes code m.msg

theorem keyCarried_iff (m : KeyRx) (code : Byte) :
    ((m.parts.all fun a => a.pkt.kind == 0x0A) && decide (m.parts.flatMap (fun a => a.pkt.payload) = keyBytes code m.msg)) = true ↔
      keyCarried m code := by
  simp only [keyCarried, Bool.and_eq_true, List.all_eq_true, beq_iff_eq, decide_eq_true_eq]

section
variable {s : State} {p : Fin 32} {m : KeyRx} {code : Byte} (ha : (s.w.port p.val).isActive = true)
include ha

theorem State.takeKey_stray (h : ¬keyCarried m code) (act : State → State) : s.takeKey p code m act = s := by
  rw [← keyCarried_iff] at h
  rw [State.takeKey, if_pos ha, if_neg h]

theorem State.takeKey_carried (h : keyCarried m code) (act : State → State) :
    s.takeKey p code m act = if (s.partsOk p m.parts).2 then act (s.partsOk p m.parts).1 else (s.partsOk p m.parts).1 := by
  rw [← keyCarried_iff] at h
  rw [State.takeKey, if_pos ha, if_pos h]

/-- A first packet that fails its tag loses the message. -/
theorem State.takeKey_untagged (h : keyCarried m code) {a : RxPkt} {l : List RxPkt} (hl : m.parts = a :: l) (ht : s.w.tagOk p.val a = false)
    (act : State → State) : s.takeKey p code m act = s.noteFail p := by
  have failed : s.partsOk p m.parts = (s.noteFail p, false) := by rw [hl, State.partsOk, if_neg (Bool.eq_false_iff.1 ht)]
  rw [State.takeKey_carried ha h, failed]
  rfl

end

/-- A message that came: by a port that is not ACTIVE as it is, by an ACTIVE one in packets that carry it and verify. -/
theorem State.takeKey_brought {s0 s : State} {p : Fin 32} {m : KeyRx} {code : Byte}
    (h : ((s0.w.port p.val).isActive = false ∧ s = s0) ∨ ((s0.w.port p.val).isActive = true ∧ (∀ a, a ∈ m.parts → a.pkt.kind = 0x0A) ∧
      s0.partsOk p m.parts = (s, true)))
    (hb : (s0.w.port p.val).isActive = true → m.parts.flatMap (fun a => a.pkt.payload) = keyBytes code m.msg) (act : State → State) :
    s0.takeKey p code m act = act s := by
  rcases h with ⟨ha, rfl⟩ | ⟨ha, kinds, ok⟩
  · rw [State.takeKey, if_neg (Bool.eq_false_iff.1 ha)]
  · rw [State.takeKey_carried ha ⟨kinds, hb ha⟩, ok]
    rfl

/-! Leaf indices (R378, R379). -/

/-- Signatures have not stopped. -/
def Ctl.Unlocked (c : Ctl) : Prop := c.xmss.halted = false ∧ c.fuse.debugUnlocked = false

theorem Ctl.mayIdentify_iff (c : Ctl) : c.mayIdentify = true ↔ c.Unlocked := by
  rw [Ctl.mayIdentify, Bool.and_eq_true, Bool.not_eq_true', Bool.not_eq_true', Ctl.Unlocked]

theorem State.withIndex_signs {s : State} (h : s.ctl.xmss.reserved.halted = false) (f : Nat → Work → Work) :
    s.withIndex f = { s with w := f s.ctl.xmss.reserved.nextIndex.toNat s.w, ctl := { s.ctl with xmss := s.ctl.xmss.reserved.used } } :=
  if_neg (Bool.eq_false_iff.1 h)

theorem State.withIndex_halts {s : State} (h : s.ctl.xmss.reserved.halted = true) (f : Nat → Work → Work) :
    s.withIndex f = { s with w := s.w.noteHalt s.ctl.xmss.reserved, ctl := { s.ctl with xmss := s.ctl.xmss.reserved } } := if_pos h

/-! An OFFER (R362, R363). -/

section
variable {w : Work} {p : Fin 32} {m : KeyMsg}

theorem Work.takeOffer_outside (h : (w.port p.val).inKex = false) (i : Nat) : w.takeOffer p m i = w := if_pos (by rw [h]; rfl)

theorem Work.takeOffer_crossed (hi : w.initiator p.val = true) (ho : (w.port p.val).keyPhase = .offered) (i : Nat) : w.takeOffer p m i = w := by
  refine ite_eq_left_iff.2 fun _ => if_pos ?_
  rw [hi, decide_eq_true ho]
  rfl

theorem Work.not_crossed (hc : ¬(w.initiator p.val = true ∧ (w.port p.val).keyPhase = .offered)) :
    ¬(w.initiator p.val && decide ((w.port p.val).keyPhase = .offered)) = true := by
  rwa [Bool.and_eq_true, decide_eq_true_eq]

section
variable (hk : (w.port p.val).inKex = true) (hc : ¬(w.initiator p.val = true ∧ (w.port p.val).keyPhase = .offered))
include hk hc

theorem Work.takeOffer_unverified (hv : ¬w.Verifies p.val m) (i : Nat) : w.takeOffer p m i = w.kexFail p 6 := by
  rw [← Work.kexOk_iff] at hv
  rw [Work.takeOffer, if_neg (by rw [hk]; decide), if_neg (Work.not_crossed hc), if_pos (by rw [Bool.eq_false_iff.2 hv]; rfl)]

/-- The answer to an OFFER that verifies: an ACCEPT with a fresh encapsulation, then a DONE under its keys. -/
theorem Work.takeOffer_verified (hv : w.Verifies p.val m) (i : Nat) :
    w.takeOffer p m i = ((({ w with fresh := w.fresh + 1 } : Work).updPort p.val fun y => { y with keyPhase := .accepted }).sendKeyMsg p 2
      ⟨bytesAt (Config.mlkemEncap w.fresh m.kem).1 0 1568, w.kexDigest p.val,
        xmssSign i (bytesAt (Config.mlkemEncap w.fresh m.kem).1 0 1568 ++ w.kexDigest p.val), 0⟩).sendDone p
      (linkKeys (Config.mlkemEncap w.fresh m.kem).2 (w.kexDigest p.val) (bytesAt (Config.mlkemEncap w.fresh m.kem).1 0 1568)) := by
  rw [← Work.kexOk_iff] at hv
  rw [Work.takeOffer, if_neg (by rw [hk]; decide), if_neg (Work.not_crossed hc), if_neg (by rw [hv]; decide)]

end

theorem Work.willAccept_iff : w.willAccept p.val m = true ↔
    (w.port p.val).inKex = true ∧ ¬(w.initiator p.val = true ∧ (w.port p.val).keyPhase = .offered) ∧ w.Verifies p.val m := by
  rw [Work.willAccept, Bool.and_eq_true, Bool.and_eq_true, Work.kexOk_iff, Bool.not_eq_true', Bool.and_eq_false_iff, decide_eq_false_iff_not,
    Bool.eq_false_iff]
  tauto

end

/-- New keys have been taken, and are in use from the next flit on. -/
def Port.Takes (y : Port) (keys : List Byte) : Prop :=
  y.newKey = some keys ∧ y.kem = none ∧ y.keyPhase = .switching y.txFlit ∧ y.keyFirst = y.txFlit

/-- What an OFFER that verifies is answered by. -/
theorem Work.takeOffer_accepts {w : Work} {p : Fin 32} {m : KeyMsg} (h : w.willAccept p.val m = true) (i : Nat) :
    let ct := bytesAt (Config.mlkemEncap w.fresh m.kem).1 0 1568
    let keys := linkKeys (Config.mlkemEncap w.fresh m.kem).2 (w.kexDigest p.val) ct
    let x := w.takeOffer p m i
    x.fresh = w.fresh + 1 ∧ (x.port p.val).Takes keys ∧
      x.out.head? = some (.key p 3 ⟨[], [], doneProof keys (w.kexDigest p.val) (w.initiator p.val), (x.port p.val).txFlit⟩) ∧
      .key p 2 ⟨ct, w.kexDigest p.val, xmssSign i (ct ++ w.kexDigest p.val), 0⟩ ∈ x.out := by
  intro ct keys x
  obtain ⟨inKex, notCrossed, verified⟩ := Work.willAccept_iff.1 h
  generalize hv : (({ w with fresh := w.fresh + 1 } : Work).updPort p.val fun y => { y with keyPhase := .accepted }).sendKeyMsg p 2
    ⟨ct, w.kexDigest p.val, xmssSign i (ct ++ w.kexDigest p.val), 0⟩ = v
  have eq : x = v.sendDone p keys := by
    rw [← hv]
    exact Work.takeOffer_verified inKex notCrossed verified i
  have quiet : (({ w with fresh := w.fresh + 1 } : Work).updPort p.val fun y => { y with keyPhase := .accepted }).Quiet v := by
    rw [← hv]
    exact .sendKeyMsg ..
  have session : v.kexDigest p.val = w.kexDigest p.val ∧ v.initiator p.val = w.initiator p.val := by
    have set := ({ w with fresh := w.fresh + 1 } : Work).session_updPort p.val (f := fun y => { y with keyPhase := .accepted }) rfl
    exact ⟨(quiet.session p.val).1.trans set.1, (quiet.session p.val).2.trans set.2⟩
  have left : .key p 2 ⟨ct, w.kexDigest p.val, xmssSign i (ct ++ w.kexDigest p.val), 0⟩ ∈ v.out := by
    rw [← hv]
    exact List.mem_cons_self
  obtain ⟨takes, head, fresh, grows⟩ := v.sendDone_takes p keys
  rw [session.1, session.2] at head
  rw [eq]
  exact ⟨fresh.trans quiet.fresh, takes, head, grows.mem left⟩

/-! An ACCEPT (R362). -/

section
variable {w : Work} {p : Fin 32} {m : KeyMsg}

theorem Work.takeAccept_offered {k : Nat} (hk : (w.port p.val).kem = some k) (hi : (w.port p.val).inKex = true)
    (ho : (w.port p.val).keyPhase = .offered) :
    w.takeAccept p m = if w.kexOk p.val m then w.sendDone p (linkKeys (Config.mlkemDecap k m.kem) (w.kexDigest p.val) m.kem) else w.kexFail p 6 := by
  rw [Work.takeAccept, hk]
  dsimp only
  rw [if_neg (by rw [hi, decide_eq_true ho]; decide)]
  cases w.kexOk p.val m <;> rfl

theorem Work.takeAccept_otherwise (h : (w.port p.val).inKex = false ∨ (w.port p.val).keyPhase ≠ .offered ∨ (w.port p.val).kem = none) :
    w.takeAccept p m = w := by
  unfold Work.takeAccept
  dsimp only
  split
  · rfl
  next k hk =>
    refine if_pos ?_
    rcases h with h | h | h
    · rw [h]; rfl
    · rw [decide_eq_false h, Bool.and_false]; rfl
    · rw [h] at hk; cases hk

end

/-! A DONE (R362, R363). -/

/-- A port whose new keys are in use. -/
def Port.keyed (keys : List Byte) (m : KeyMsg) (now : Word) (y : Port) : Port :=
  { y with
    oldKey := y.linkKey, linkKey := some keys, newKey := none, exchanges := y.exchanges + 1, keyPhase := .idle
    rxFirst := m.firstFlit, exchAt := now, rxNext := if y.isActive then y.rxNext else m.firstFlit
    rxPkt := if y.isActive then y.rxPkt else m.firstFlit - 1 }

/-- Of a port, what a DONE sets. -/
def Port.keySide (y : Port) : Option (List Byte) × Option (List Byte) × Option (List Byte) × BitVec 16 × Word × KeyPhase :=
  (y.linkKey, y.oldKey, y.newKey, y.exchanges, y.rxFirst, y.keyPhase)

theorem Work.port_addRoutes (w : Work) (p i : Nat) : (w.addRoutes p).port i = w.port i := by
  unfold Work.addRoutes
  dsimp only
  split <;> rfl

/-- A port that becomes ACTIVE: what no packet touches is set before its credits return. -/
theorem Work.portActive_keeps (w : Work) (p : Fin 32) {α : Type} (g : Port → α)
    (hg : ∀ (q : Port) tail txFlit replay line owed credits shared rxRes rxShared slotQ misses txq, g { q with
      tail := tail, txFlit := txFlit, replay := replay, line := line, owed := owed, credits := credits, shared := shared, rxRes := rxRes
      rxShared := rxShared, slotQ := slotQ, misses := misses, txq := txq } = g q := by intros; rfl) :
    g ((w.portActive p).port p.val) = g { (w.port p.val).fillCredits with st := 5 } := by
  have quiet : ((w.updPort p.val fun y => { y.fillCredits with st := 5 }).addRoutes p.val).Quiet (w.portActive p) :=
    (Work.Quiet.returnCredits ..).trans (.drainTx ..)
  rw [quiet.keeps p.val g hg, Work.port_addRoutes, Work.port_updPort_same]

theorem Port.keySide_fillCredits (y : Port) : ({ y.fillCredits with st := 5 } : Port).keySide = y.keySide := by
  unfold Port.fillCredits
  split <;> rfl

/-- A Mere is ready by its size and its pages. -/
theorem Work.mereReady_keyed (w : Work) (p : Nat) (keys : List Byte) (m : KeyMsg) (now : Word) :
    (w.updPort p fun y => y.keyed keys m now).mereReady p = w.mereReady p := by
  unfold Work.mereReady
  rw [Work.port_updPort_same]
  rfl

section
variable {w : Work} {p : Fin 32} {m : KeyMsg}

theorem Work.takeDone_otherwise (h : (w.port p.val).inKex = false ∨ (w.port p.val).newKey = none) : w.takeDone p m = w := by
  unfold Work.takeDone
  dsimp only
  split
  · rfl
  next keys hk =>
    refine if_pos ?_
    rcases h with h | h
    · rw [h]; rfl
    · rw [h] at hk; cases hk

variable {keys : List Byte} (hk : (w.port p.val).newKey = some keys) (hi : (w.port p.val).inKex = true)
include hk hi

theorem Work.takeDone_unproven (h : m.proof ≠ doneProof keys (w.kexDigest p.val) (!w.initiator p.val)) : w.takeDone p m = w.kexFail p 7 := by
  rw [Work.takeDone, hk]
  dsimp only
  rw [if_neg (by rw [hi]; decide), if_pos h]

theorem Work.takeDone_proven (h : m.proof = doneProof keys (w.kexDigest p.val) (!w.initiator p.val)) :
    w.takeDone p m = (w.updPort p.val fun y => y.keyed keys m w.time.ftime).leaveKey p := by
  rw [Work.takeDone, hk]
  dsimp only
  rw [if_neg (by rw [hi]; decide), if_neg (not_not_intro h)]
  exact congrArg (fun w : Work => w.leaveKey p) (Work.updPort_congr _ _ rfl)

/-- The peer's proof makes the new keys the port's, and a port in KEY that may leave it ACTIVE. -/
theorem Work.takeDone_keys (h : m.proof = doneProof keys (w.kexDigest p.val) (!w.initiator p.val)) :
    ((w.takeDone p m).port p.val).st = (if (w.port p.val).st = 5 ∨ w.mereReady p.val = true then 5 else 4) ∧
      ((w.takeDone p m).port p.val).keySide =
        (some keys, (w.port p.val).linkKey, none, (w.port p.val).exchanges + 1, m.firstFlit, .idle) := by
  have set := w.port_updPort_same p.val fun y => y.keyed keys m w.time.ftime
  have mere := w.mereReady_keyed p.val keys m w.time.ftime
  rw [Work.takeDone_proven hk hi h]
  generalize (w.updPort p.val fun y => y.keyed keys m w.time.ftime) = v at set mere
  have st : (v.port p.val).st = (w.port p.val).st := by rw [set]; rfl
  have side : (v.port p.val).keySide = (some keys, (w.port p.val).linkKey, none, (w.port p.val).exchanges + 1, m.firstFlit, .idle) := by
    rw [set]; rfl
  have leaves : ((v.port p.val).st = 4 ∧ (v.port p.val).linkKey.isSome = true ∧ (v.port p.val).newKey = none ∧ v.mereReady p.val = true) ↔
      (w.port p.val).st = 4 ∧ w.mereReady p.val = true := by
    rw [mere, st, set]
    exact ⟨fun h => ⟨h.1, h.2.2.2⟩, fun h => ⟨h.1, rfl, rfl, h.2⟩⟩
  unfold Work.leaveKey
  dsimp only
  rcases (Port.inKex_iff _).1 hi with four | five
  · by_cases ready : w.mereReady p.val = true
    · rw [if_pos (leaves.2 ⟨four, ready⟩), if_pos (.inr ready)]
      refine ⟨v.portActive_keeps p Port.st, (v.portActive_keeps p Port.keySide).trans ?_⟩
      rw [Port.keySide_fillCredits, side]
    · rw [if_neg fun h => ready (leaves.1 h).2, if_neg (by rw [four]; simpa using ready)]
      exact ⟨st.trans four, side⟩
  · rw [if_neg fun h => by have := (leaves.1 h).1; omega, if_pos (.inl five)]
    exact ⟨st.trans five, side⟩

end

end Sys2Proof.Machine
end

section
/-! Hellos, offers and rekeys, and O48 (R274, R362, R363, R372, R378, R379). -/

namespace Sys2Proof.Machine

/-! An OFFER leaves (R362). -/

/-- The body of an OFFER: a fresh encapsulation key, T, and a signature over both. -/
def Work.offerMsg (w : Work) (p : Nat) (sign : Nat) : KeyMsg :=
  ⟨bytesAt (Config.mlkemPublic w.nextId) 0 1568, w.kexDigest p,
    xmssSign sign (bytesAt (Config.mlkemPublic w.nextId) 0 1568 ++ w.kexDigest p), 0⟩

/-- A port that has offered. -/
def Port.offering (k : Nat) (y : Port) : Port := { y with kem := some k, keyPhase := .offered }

theorem Work.sendOffer_eq (w : Work) (p : Fin 32) (sign : Nat) :
    w.sendOffer p sign = (({ w with nextId := w.nextId + 1 } : Work).updPort p.val fun y => y.offering w.nextId).sendKeyMsg p 1
      (w.offerMsg p.val sign) := rfl

theorem Work.sendOffer_keeps (w : Work) (p : Fin 32) (sign : Nat) {α : Type} (g : Port → α)
    (hg : ∀ (q : Port) tail txFlit replay line owed credits shared rxRes rxShared slotQ misses txq, g { q with
      tail := tail, txFlit := txFlit, replay := replay, line := line, owed := owed, credits := credits, shared := shared, rxRes := rxRes
      rxShared := rxShared, slotQ := slotQ, misses := misses, txq := txq } = g q := by intros; rfl) :
    g ((w.sendOffer p sign).port p.val) = g ((w.port p.val).offering w.nextId) := by
  rw [Work.sendOffer_eq, (Work.Quiet.sendKeyMsg ..).keeps p.val g hg, Work.port_updPort_same]
  rfl

/-! A rekey (R363). -/

theorem State.rekeyLink_offers {s : State} {p : Fin 32} (ha : (s.w.port p.val).isActive = true) (hk : (s.w.port p.val).keyPhase = .idle)
    (hu : s.ctl.Unlocked) (hl : s.ctl.xmss.reserved.halted = false) :
    s.rekeyLink p = { s with w := s.w.sendOffer p s.ctl.xmss.reserved.nextIndex.toNat, ctl := { s.ctl with xmss := s.ctl.xmss.reserved.used } } := by
  rw [State.rekeyLink, if_pos (by rw [ha, decide_eq_true hk, (Ctl.mayIdentify_iff _).2 hu]; rfl), State.withIndex_signs hl]

theorem State.rekeyLink_otherwise {s : State} {p : Fin 32}
    (h : (s.w.port p.val).isActive = false ∨ (s.w.port p.val).keyPhase ≠ .idle ∨ ¬s.ctl.Unlocked) : s.rekeyLink p = s := by
  refine if_neg ?_
  rw [Bool.and_eq_true, Bool.and_eq_true, decide_eq_true_eq, Ctl.mayIdentify_iff]
  rcases h with h | h | h
  · rw [h]
    exact fun both => absurd both.1.1 (by decide)
  · exact fun both => h both.1.2
  · exact fun both => h both.2

/-! Hellos (R274). -/

/-- The peer's nonce is noted. -/
def State.hears (s : State) (p : Fin 32) (h : HelloMsg) : State := { s with w := s.w.updPort p.val fun y => { y with peerNonce := h.nonce } }

/-- The signed hello of this end. -/
def State.signedHello (s : State) (p : Fin 32) : HelloMsg :=
  s.w.ownHello p.val s.ctl.fuse.identity (some s.ctl.xmss.reserved.nextIndex.toNat)

/-- A port that has sent its signed hello. -/
def Port.signed (mine : HelloMsg) (y : Port) : Port := { y with sentSigned := true, sentHello := helloBytes mine }

/-- The peer's hello is answered, once. -/
def State.replyHello (s : State) (p : Fin 32) : State :=
  if (s.w.port p.val).sentSigned || !s.ctl.mayIdentify then s
  else s.withIndex fun i w =>
    (w.updPort p.val fun y => y.signed (w.ownHello p.val s.ctl.fuse.identity (some i))).sendHello p
      (w.ownHello p.val s.ctl.fuse.identity (some i))

theorem State.replyHello_signed {s : State} {p : Fin 32} (h : (s.w.port p.val).sentSigned = true) : s.replyHello p = s := if_pos (by rw [h]; rfl)

theorem State.replyHello_signs {s : State} {p : Fin 32} (h : (s.w.port p.val).sentSigned = false) (hu : s.ctl.Unlocked)
    (hl : s.ctl.xmss.reserved.halted = false) :
    s.replyHello p = { s with
      w := (s.w.updPort p.val fun y => y.signed (s.signedHello p)).sendHello p (s.signedHello p)
      ctl := { s.ctl with xmss := s.ctl.xmss.reserved.used } } := by
  rw [State.replyHello, if_neg (by rw [h, (Ctl.mayIdentify_iff _).2 hu]; decide), State.withIndex_signs hl]
  rfl

/-- A port that has the peer's identity. -/
def Port.introduced (h : HelloMsg) (y : Port) : Port :=
  { y with peer := h.address, peerPort := BitVec.ofNat 5 h.port.toNat, peerIdentity := h.identity, gotHello := helloBytes h }

/-- A peer is introduced, and the port goes on to KEY. -/
def State.introduces (s : State) (p : Fin 32) (h : HelloMsg) : State :=
  let s1 : State := { s with w := s.w.updPort p.val fun y => y.introduced h }
  if s1.w.initiator p.val then s1.withIndex fun i w => w.enterKey p i else { s1 with w := s1.w.enterKey p 0 }

section
variable {s : State} {p : Fin 32} {h : HelloMsg} (hs : (s.w.port p.val).st = 3)
include hs

theorem State.takeHello_first (hn : (h.peerNonce.all fun b => decide (b = 0)) = true) : s.takeHello p h = (s.hears p h).replyHello p := by
  rw [State.takeHello, if_neg (not_not_intro hs)]
  exact if_pos hn

section
variable (hn : (h.peerNonce.all fun b => decide (b = 0)) = false)
include hn

theorem State.takeHello_second : s.takeHello p h =
    if s.w.helloCheck p.val h = 4 then { s.hears p h with w := ((s.hears p h).w.refusePeer p 4).refuseConflict p h }
    else if s.w.helloCheck p.val h ≠ 0 then { s.hears p h with w := (s.hears p h).w.refusePeer p (s.w.helloCheck p.val h) }
    else if !(((s.hears p h).replyHello p).w.port p.val).sentSigned then (s.hears p h).replyHello p
    else ((s.hears p h).replyHello p).introduces p h := by
  rw [State.takeHello, if_neg (not_not_intro hs)]
  exact if_neg (Bool.eq_false_iff.1 hn)

end
end

/-! A refused peer (R270, R274). -/

/-- Another port that goes down leaves a port's own fields. -/
theorem Work.portDown_keeps_other (w : Work) {p q : Fin 32} (h : p ≠ q) (st : Nat) {α : Type} (g : Port → α)
    (hg : ∀ (q : Port) tail txFlit replay line owed credits shared rxRes rxShared slotQ misses txq, g { q with
      tail := tail, txFlit := txFlit, replay := replay, line := line, owed := owed, credits := credits, shared := shared, rxRes := rxRes
      rxShared := rxShared, slotQ := slotQ, misses := misses, txq := txq } = g q := by intros; rfl) :
    g ((w.portDown q st).port p.val) = g (w.port p.val) := by
  have ne : p.val ≠ q.val := fun e => h (Fin.ext e)
  cases ha : (w.port q.val).isActive with
  | false => rw [Work.portDown_inactive ha, Work.port_updPort_other _ _ ne]
  | true =>
    have aborted : w.Stops ((w.closeLine q).abortUnsent q) := (Work.Quiet.closeLine ..).stops.trans (.abortUnsent ..)
    have open_ : w.portDown q st = ((((w.closeLine q).abortUnsent q).updPort q.val
      (Port.downWith st (((w.closeLine q).abortUnsent q).portWork q))).evacuate q false).newEpoch (portUnit q.val) := if_pos ha
    rw [open_]
    generalize (w.closeLine q).abortUnsent q = v at aborted
    have left : (v.updPort q.val (Port.downWith st (v.portWork q))).Quiet ((v.updPort q.val (Port.downWith st (v.portWork q))).evacuate q false) :=
      .evacuate ..
    have counted (x : Work) (u : BitVec 16) : (x.newEpoch u).port p.val = x.port p.val := rfl
    rw [counted, left.keeps p.val g hg, Work.port_updPort_other _ _ ne]
    exact aborted.keeps p.val g hg

/-- The conflict's refusals of the other ports leave this one's state. -/
theorem Work.st_refuseConflict (w : Work) (p : Fin 32) (h : HelloMsg) : ((w.refuseConflict p h).port p.val).st = (w.port p.val).st := by
  unfold Work.refuseConflict
  refine List.foldlRecOn (List.range 32) _ (motive := fun v : Work => (v.port p.val).st = (w.port p.val).st) rfl fun v hv i hi => ?_
  dsimp only
  split
  next conflict =>
    have lt : i < 32 := List.mem_range.1 hi
    have ne : p ≠ portFin i := fun e => conflict.1 (by rw [e]; exact (Nat.mod_eq_of_lt lt).symm)
    have logged (x : Work) : ((x.logPort i 3 (i + 4 * 2 ^ 8)).port p.val).st = (x.port p.val).st := rfl
    rw [logged, v.portDown_keeps_other ne 7 Port.st]
    exact hv
  · exact hv

theorem Work.st_refusePeer (w : Work) (p : Fin 32) (cause : Nat) : ((w.refusePeer p cause).port p.val).st = 7 :=
  congrArg Port.st (w.port_updPort_same p.val fun y => { y.dropLink with st := 7 })

/-! A peer that is accepted (R270, R274, R362). -/

/-- A port in KEY. -/
def Port.inKey (y : Port) : Port := { y with st := 4, keyPhase := .idle }

/-- Of a port, its state, its peer, the peer's identity, and how far its key exchange has come. -/
def Port.greeted (y : Port) : Nat × BitVec 16 × List Byte × KeyPhase := (y.st, y.peer, y.peerIdentity, y.keyPhase)

theorem Work.enterKey_greeted (w : Work) (p : Fin 32) (sign : Nat) : ((w.enterKey p sign).port p.val).greeted =
    (4, (w.port p.val).peer, (w.port p.val).peerIdentity, if w.initiator p.val then .offered else .idle) := by
  have set := w.port_updPort_same p.val Port.inKey
  have same : (w.updPort p.val Port.inKey).initiator p.val = w.initiator p.val := (w.session_updPort p.val rfl).2
  have open_ : w.enterKey p sign =
    if (w.updPort p.val Port.inKey).initiator p.val then (w.updPort p.val Port.inKey).sendOffer p sign else w.updPort p.val Port.inKey := rfl
  rw [open_, same]
  split
  · rw [Work.sendOffer_keeps _ p sign Port.greeted, set]
    rfl
  · rw [set]
    rfl

/-- The port goes on to KEY, and the lower address offers. -/
theorem State.introduces_greeted {s : State} (p : Fin 32) (h : HelloMsg) (hl : s.ctl.xmss.reserved.halted = false) :
    ((s.introduces p h).w.port p.val).greeted =
      (4, h.address, h.identity, if s.w.time.address.toNat < h.address.toNat then .offered else .idle) := by
  have set := s.w.port_updPort_same p.val fun y => y.introduced h
  have lower : (s.w.updPort p.val fun y => y.introduced h).initiator p.val = decide (s.w.time.address.toNat < h.address.toNat) := by
    rw [Work.initiator, set]
    rfl
  have entered (i : Nat) := (s.w.updPort p.val fun y => y.introduced h).enterKey_greeted p i
  unfold State.introduces
  dsimp only
  rw [set, lower] at entered
  rw [lower]
  generalize (s.w.updPort p.val fun y => y.introduced h) = v at entered
  by_cases first : s.w.time.address.toNat < h.address.toNat
  · rw [if_pos (decide_eq_true first), State.withIndex_signs (by exact hl), if_pos first]
    exact (entered _).trans (by rw [decide_eq_true first]; rfl)
  · rw [if_neg (by rw [decide_eq_false first]; decide), if_neg first]
    exact (entered _).trans (by rw [decide_eq_false first]; rfl)

/-- What a reply to a hello leaves, where it can be signed: the port has sent its signed hello, the next index is there, and the device's address
stands. -/
theorem State.replyHello_ready {s : State} {p : Fin 32} (hu : s.ctl.Unlocked) (hl : s.ctl.xmss.reserved.halted = false)
    (hn : s.ctl.xmss.reserved.used.reserved.halted = false) :
    ((s.replyHello p).w.port p.val).sentSigned = true ∧ (s.replyHello p).ctl.xmss.reserved.halted = false ∧
      (s.replyHello p).w.time = s.w.time := by
  cases h : (s.w.port p.val).sentSigned with
  | true =>
    rw [State.replyHello_signed h]
    exact ⟨h, hl, rfl⟩
  | false =>
    have sent := Work.Quiet.sendHello (s.w.updPort p.val fun y => y.signed (s.signedHello p)) p (s.signedHello p)
    rw [State.replyHello_signs h hu hl]
    refine ⟨?_, hn, sent.time⟩
    rw [sent.keeps p.val Port.sentSigned, Work.port_updPort_same]
    rfl

/-! What the instructions answer. -/

theorem exec_linkOffer {s0 s : State} {p : Fin 32} {rx : KeyRx} (h : ∀ act, s0.takeKey p 1 rx act = act s) :
    exec (.linkOffer p rx) s0 = .next (if !s.ctl.mayIdentify then s
      else if s.w.willAccept p.val rx.msg then s.withIndex fun i w => w.takeOffer p rx.msg i else s.onW fun w => w.takeOffer p rx.msg 0) :=
  congrArg Host.Outcome.next (h _)

/-- An OFFER is read only while signatures may be made. -/
theorem exec_linkOffer_unlocked {s0 s : State} {p : Fin 32} {rx : KeyRx} (h : ∀ act, s0.takeKey p 1 rx act = act s) (hu : s.ctl.Unlocked) :
    exec (.linkOffer p rx) s0 = .next (if s.w.willAccept p.val rx.msg then s.withIndex fun i w => w.takeOffer p rx.msg i
      else s.onW fun w => w.takeOffer p rx.msg 0) := by
  rw [exec_linkOffer h, if_neg (by rw [(Ctl.mayIdentify_iff _).2 hu]; decide)]

/-- An OFFER that is not accepted. -/
theorem exec_linkOffer_unaccepted {s0 s : State} {p : Fin 32} {rx : KeyRx} (h : ∀ act, s0.takeKey p 1 rx act = act s) (hu : s.ctl.Unlocked)
    (hn : ¬s.w.willAccept p.val rx.msg = true) {w : Work} (hw : s.w.takeOffer p rx.msg 0 = w) :
    exec (.linkOffer p rx) s0 = .next { s with w := w } := by
  rw [exec_linkOffer_unlocked h hu, if_neg hn, ← hw]
  rfl

theorem exec_linkAccept {s0 s : State} {p : Fin 32} {rx : KeyRx} (h : ∀ act, s0.takeKey p 2 rx act = act s) {w : Work}
    (hw : s.w.takeAccept p rx.msg = w) : exec (.linkAccept p rx) s0 = .next { s with w := w } := by
  rw [← hw]
  exact congrArg Host.Outcome.next (h _)

theorem exec_linkDone {s0 s : State} {p : Fin 32} {rx : KeyRx} (h : ∀ act, s0.takeKey p 3 rx act = act s) {w : Work}
    (hw : s.w.takeDone p rx.msg = w) : exec (.linkDone p rx) s0 = .next { s with w := w } := by
  rw [← hw]
  exact congrArg Host.Outcome.next (h _)

theorem exec_linkHello {s t : State} {p : Fin 32} {h : HelloMsg} (ht : s.takeHello p h = t) : exec (.linkHello p h) s = .next t := by
  rw [← ht]
  rfl

/-- A rekey is due (R363). -/
def Port.RekeyDue (y : Port) (now : Word) : Prop :=
  y.exchAt.toNat + y.intervalS.toNat * 1000000000 ≤ now.toNat ∨ y.keyFirst.toNat + 2 ^ 40 ≤ y.txFlit.toNat

theorem exec_linkRekeyTimer_due {s : State} {p : Fin 32} (h : (s.w.port p.val).RekeyDue s.w.time.ftime) :
    exec (.linkRekeyTimer p) s = .next (s.rekeyLink p) := by
  refine congrArg Host.Outcome.next (if_pos ?_)
  rw [Port.rekeyDue, Bool.or_eq_true, decide_eq_true_eq, decide_eq_true_eq]
  exact h

theorem exec_linkRekeyTimer_early {s : State} {p : Fin 32} (h : ¬(s.w.port p.val).RekeyDue s.w.time.ftime) :
    exec (.linkRekeyTimer p) s = .next s := by
  refine congrArg Host.Outcome.next (if_neg ?_)
  rw [Port.rekeyDue, Bool.or_eq_true, decide_eq_true_eq, decide_eq_true_eq]
  exact h

/-- INTERVAL_S is set by a write of PORT_KEY. -/
def State.setInterval (s : State) (p : Fin 32) (v : Word) : State :=
  { s with w := s.w.updPort p.val fun y => y.setInterval (v.extractLsb' 32 16) }

theorem exec_linkRekey_served {s : State} {who : Fn} (hf : who.fn = 0) (ho : s.fnOpen who = true) (p : Fin 32) (v : Word) :
    exec (.linkRekey who p v) s = .next (if v.getLsbD 0 then (s.setInterval p v).rekeyLink p else s.setInterval p v) :=
  congrArg Host.Outcome.next ((State.request_of_open ho _).trans (if_pos hf))

/-- Settles O48: a message reaches its row by the checks of its port; the row then follows the model's own branches, and the keys it sets are read
behind the packets that leave. -/
theorem linkKeyResults : Obligations.LinkKeyResults := by
  unfold Obligations.LinkKeyResults
  refine ⟨fun p m s ha => ?parts, fun who p h rx v s0 s came => ?rows⟩
  case parts =>
    intro rows carries r hr
    simp only [rows, List.mem_cons, List.not_mem_nil, or_false] at hr
    rcases hr with rfl | rfl | rfl <;>
      exact ⟨fun hn => congrArg Host.Outcome.next (State.takeKey_stray ha hn _),
        fun a l hc hl ht => congrArg Host.Outcome.next (State.takeKey_untagged ha hc hl ht _)⟩
  case rows =>
    intro m brought po now leaf unlocked may signs verifies inKex t ek offers retrains proof takes
    have offered (i : Instr) (s' : State) (hi : exec i s = .next (s'.rekeyLink p)) (hc : s'.ctl = s.ctl) (hw : s'.w.nextId = s.w.nextId)
        (hd : s'.w.kexDigest p.val = t) (ha : (s'.w.port p.val).isActive = true) (hk : (s'.w.port p.val).keyPhase = .idle) (hm : may) :
        offers i := by
      have rekeyed := State.rekeyLink_offers ha hk (by rw [hc]; exact hm.1) (by rw [hc]; exact hm.2)
      rw [hc] at rekeyed
      refine ⟨_, hi.trans (congrArg Host.Outcome.next rekeyed), rfl, ?_, s'.w.sendOffer_keeps p _ Port.keyPhase, ?_⟩
      · rw [← hw]
        exact s'.w.sendOffer_keeps p _ Port.kem
      · show some (Emit.key p 1 (s'.w.offerMsg p.val leaf.nextIndex.toNat)) = _
        rw [Work.offerMsg, hw, hd]
    have failing (i : Instr) (cause : Nat) (hi : exec i s0 = .next { s with w := s.w.kexFail p cause }) : retrains i :=
      ⟨_, hi, s.w.kexFail_retrains p cause⟩
    refine ⟨fun hs hm hn hu => ?first, fun hs hn hc => ?refused, fun hs hm hl hn hc => ?introduced, fun hs => ?noHello, fun hb => ?offer,
      fun hb => ?accept, fun hb => ?done, ?timer, fun hf ho hv ha hk hm => ?rekey, fun hf ho hv => ?interval, fun h => ?unserved⟩
    case first =>
      have heard : (s.hears p h).w.port p.val = { po with peerNonce := h.nonce } := s.w.port_updPort_same ..
      have signed := State.replyHello_signs (s := s.hears p h) (p := p) (by rw [heard]; exact hu) hm.1 hm.2
      refine ⟨_, (s.hears p h).signedHello p, exec_linkHello ((State.takeHello_first hs hn).trans signed), rfl, rfl, congrArg Port.peerNonce heard, rfl,
        ?_⟩
      have sent := Work.Quiet.sendHello ((s.hears p h).w.updPort p.val fun y => y.signed ((s.hears p h).signedHello p)) p ((s.hears p h).signedHello p)
      have port := (s.hears p h).w.port_updPort_same p.val fun y => y.signed ((s.hears p h).signedHello p)
      rw [heard] at port
      exact ⟨(sent.keeps p.val Port.st).trans (by rw [port]; exact hs), (sent.keeps p.val Port.peerNonce).trans (by rw [port]; rfl),
        (sent.keeps p.val Port.sentSigned).trans (by rw [port]; rfl), (sent.keeps p.val Port.sentHello).trans (by rw [port]; rfl)⟩
    case refused =>
      have second := State.takeHello_second hs hn
      by_cases four : s.w.helloCheck p.val h = 4
      · rw [if_pos four] at second
        exact ⟨_, exec_linkHello second, rfl, (Work.st_refuseConflict ..).trans (Work.st_refusePeer ..)⟩
      · rw [if_neg four, if_pos hc] at second
        exact ⟨_, exec_linkHello second, rfl, Work.st_refusePeer ..⟩
    case introduced =>
      obtain ⟨ready, left, time⟩ := State.replyHello_ready (s := s.hears p h) (p := p) hm.1 hm.2 hl
      have second := State.takeHello_second hs hn
      rw [if_neg (by rw [hc]; decide), if_neg (not_not_intro hc), if_neg (by rw [ready]; decide)] at second
      have greeted := State.introduces_greeted p h left
      rw [show _ = s.w.time from time] at greeted
      generalize ((s.hears p h).replyHello p).introduces p h = x at second greeted
      simp only [Port.greeted, Prod.mk.injEq] at greeted
      exact ⟨x, exec_linkHello second, greeted⟩
    case noHello => exact exec_linkHello (if_pos hs)
    case offer =>
      have brings (act : State → State) : s0.takeKey p 1 rx act = act s := State.takeKey_brought came hb act
      have willAccept : s.w.willAccept p.val m = true ↔ inKex ∧ ¬(s.w.initiator p.val = true ∧ po.keyPhase = .offered) ∧ verifies := by
        rw [Work.willAccept_iff, Port.inKex_iff]
        exact Iff.rfl
      refine ⟨fun hm hi hc hv => ?_, fun hu hi hx ho => ?_, fun hu hi => ?_, fun hu hi hc hv => ?_, fun hu => ?_, fun hu hl hi hc hv => ?_⟩
      · have accepts := willAccept.2 ⟨hi, hc, hv⟩
        obtain ⟨fresh, taken, head, left⟩ := Work.takeOffer_accepts accepts leaf.nextIndex.toNat
        have runs := exec_linkOffer_unlocked brings hm.1
        rw [if_pos accepts, State.withIndex_signs hm.2] at runs
        exact ⟨_, runs, rfl, fresh, taken, head, left⟩
      · exact exec_linkOffer_unaccepted brings hu (fun a => (willAccept.1 a).2.1 ⟨hx, ho⟩) (Work.takeOffer_crossed hx ho 0)
      · exact exec_linkOffer_unaccepted brings hu (fun a => hi (willAccept.1 a).1)
          (Work.takeOffer_outside (Bool.eq_false_iff.2 fun k => hi ((Port.inKex_iff _).1 k)) 0)
      · exact failing _ 6 (exec_linkOffer_unaccepted brings hu (fun a => hv (willAccept.1 a).2.2)
          (Work.takeOffer_unverified ((Port.inKex_iff _).2 hi) hc hv 0))
      · rw [exec_linkOffer brings, if_pos]
        rw [Bool.eq_false_iff.2 fun may => hu ((Ctl.mayIdentify_iff _).1 may)]
        rfl
      · rw [exec_linkOffer_unlocked brings hu, if_pos (willAccept.2 ⟨hi, hc, hv⟩), State.withIndex_halts hl]
    case accept =>
      have brings (act : State → State) : s0.takeKey p 2 rx act = act s := State.takeKey_brought came hb act
      refine ⟨fun k hi ho hk => ?_, fun hn => ?_⟩
      · have taken : s.w.takeAccept p m = _ := Work.takeAccept_offered hk ((Port.inKex_iff _).2 hi) ho
        refine ⟨fun hv => ?_, fun hv => ?_⟩
        · rw [if_pos ((Work.kexOk_iff ..).2 hv)] at taken
          obtain ⟨switched, head, -⟩ := s.w.sendDone_takes p (linkKeys (Config.mlkemDecap k m.kem) t m.kem)
          exact ⟨_, exec_linkAccept brings taken, rfl, switched, head⟩
        · rw [if_neg (mt (Work.kexOk_iff ..).1 hv)] at taken
          exact failing _ 6 (exec_linkAccept brings taken)
      · refine exec_linkAccept brings (Work.takeAccept_otherwise (hn.imp_left fun h => ?_))
        exact Bool.eq_false_iff.2 fun k => h ((Port.inKex_iff _).1 k)
    case done =>
      have brings (act : State → State) : s0.takeKey p 3 rx act = act s := State.takeKey_brought came hb act
      refine ⟨fun keys hi hk => ⟨fun hv => ?_, fun hv => ?_⟩, fun hn => ?_⟩
      · obtain ⟨st, side⟩ := Work.takeDone_keys hk ((Port.inKex_iff _).2 hi) hv
        simp only [Port.keySide, Prod.mk.injEq] at side
        obtain ⟨linkKey, oldKey, newKey, exchanges, rxFirst, keyPhase⟩ := side
        exact ⟨_, exec_linkDone brings rfl, rfl, st, linkKey, oldKey, newKey, exchanges, rxFirst, keyPhase⟩
      · exact failing _ 7 (exec_linkDone brings (Work.takeDone_unproven hk ((Port.inKex_iff _).2 hi) hv))
      · refine exec_linkDone brings (Work.takeDone_otherwise (hn.imp_left fun h => ?_))
        exact Bool.eq_false_iff.2 fun k => h ((Port.inKex_iff _).1 k)
    case timer =>
      refine ⟨fun hd ha hk hm => offered _ s (exec_linkRekeyTimer_due hd) rfl rfl rfl ha hk hm, fun h => ?_⟩
      by_cases hd : po.RekeyDue s.w.time.ftime
      · exact (exec_linkRekeyTimer_due hd).trans (congrArg Host.Outcome.next (State.rekeyLink_otherwise (h.resolve_left (not_not_intro hd))))
      · exact exec_linkRekeyTimer_early hd
    case rekey =>
      have set : (s.setInterval p v).w.port p.val = po.setInterval (v.extractLsb' 32 16) := s.w.port_updPort_same ..
      exact offered _ (s.setInterval p v) ((exec_linkRekey_served hf ho p v).trans (by rw [if_pos hv])) rfl rfl
        (s.w.session_updPort p.val (by exact rfl)).1 (by rw [set]; exact ha) (by rw [set]; exact hk) hm
    case interval =>
      rw [exec_linkRekey_served hf ho, if_neg (Bool.eq_false_iff.1 hv)]
      rfl
    case unserved =>
      refine congrArg Host.Outcome.next ?_
      rcases h with h | h
      · by_cases ho : s.fnOpen who = true
        · exact (State.request_of_open ho _).trans (if_neg h)
        · exact State.request_of_closed (Bool.eq_false_iff.2 ho) _
      · exact State.request_of_closed h _

end Sys2Proof.Machine
end

section
/-! O50: flows at their ends, packets on their way, and slot windows (R272, R276, R281, R285, R286, R288, R364). -/

namespace Sys2Proof.Machine

/-! A flow at its sender (R284-R286). -/

theorem Work.sendFlow_setSend_same (w : Work) (key : FlowKey) (f : SendFlow) : (w.setSend key f).sendFlow key = f := by
  simp [Work.sendFlow, Work.setSend]

theorem Work.setSend_setSend (w : Work) (key : FlowKey) (f g : SendFlow) : (w.setSend key f).setSend key g = w.setSend key g := by
  simp [Work.setSend, List.filter_filter]

theorem Work.Found.sendFlow {w w1 : Work} (h : w.Found w1) (key : FlowKey) : w1.sendFlow key = w.sendFlow key :=
  (congrArg (fun v : Work => v.sendFlow key) h.eq).trans rfl

/-- What an ACK releases (R285): every packet below its number, or the one before it that has a status. -/
def ackReleases (k : Pkt) (r : Retained) : Bool :=
  if k.status = 0 then decide (r.pkt.seq.toNat < k.seq.toNat) else decide (r.pkt.seq + 1 = k.seq)

/-- An ACK at the source of a flow that is not multicast. -/
theorem Work.takeAck_unicast {key : FlowKey} (h : key.mcast = false) (w : Work) (p : Fin 32) (k : Pkt) :
    w.takeAck key p k = ((w.sendFlow key).retained.filter fun r => ackReleases k r).foldl (fun (y : Work) r => y.settle key.q r k.status)
      (w.setSend key { w.sendFlow key with
        held := k.held, retained := (w.sendFlow key).retained.filter fun r => !ackReleases k r
        resends := if (w.sendFlow key).retained.filter (fun r => ackReleases k r) = [] then (w.sendFlow key).resends else 0 }) := by
  rw [Work.takeAck, h]
  dsimp only
  rw [if_neg (by decide), Work.release, Work.sendFlow_setSend_same, Work.setSend_setSend]
  simp only [List.isEmpty_iff]
  rfl

/-- The packets of a flow that has lost its route tell their instructions so. -/
def Work.lostRoute (w : Work) (l : List Retained) : Work :=
  l.foldl (fun (y : Work) r => match r.owner, r.port with | .instr c id, none => y.remoteDone c id 0x41 | _, _ => y) w

theorem Work.routeLost_eq (w : Work) (key : FlowKey) (l : List Retained) :
    w.routeLost key l = if key.mcast = false ∧ key.peer ≠ w.time.address ∧ (w.route key.q key.peer).valid = false then w.lostRoute l else w := by
  have cond : (key.mcast || decide (key.peer = w.time.address) || (w.route key.q key.peer).valid) = true ↔
      ¬(key.mcast = false ∧ key.peer ≠ w.time.address ∧ (w.route key.q key.peer).valid = false) := by
    cases key.mcast <;> cases (w.route key.q key.peer).valid <;> simp
  rw [Work.routeLost]
  by_cases lost : key.mcast = false ∧ key.peer ≠ w.time.address ∧ (w.route key.q key.peer).valid = false
  · rw [if_neg (mt cond.1 (not_not_intro lost)), if_pos lost]
    rfl
  · rw [if_pos (cond.2 lost), if_neg lost]

/-- A home that is lost is noted by its second homes (R418). -/
def Work.noteLostHome (w : Work) (key : FlowKey) : Work :=
  (w.jobsOf key.q).foldl (fun v j => match v.job key.q j with
    | some b => if v.isHome2 b = true ∧ v.homeOf b = key.peer then v.updCommit key.q j fun c => { c with homeLost := true } else v
    | none => v) w

/-- The flow reset that carries the next unused number. -/
def Work.flowResetPkt (w : Work) (key : FlowKey) : Pkt :=
  { mkPkt key.peer (((w.sendFlow key).retained.head?.map fun r => r.pkt.job).getD 0) 0x09 0 [] with
    bestEffort := key.bestEffort, seq := (w.sendFlow key).next }

theorem Work.failFlow_unicast {key : FlowKey} (h : key.mcast = false) (w : Work) :
    w.failFlow key = ((((w.sendFlow key).retained.foldl (fun (v : Work) r => v.settle key.q r 0x45)
      (w.setSend key { w.sendFlow key with retained := [], resends := 0, held := false })).sendLoose key.q (w.flowResetPkt key) none).noteLostHome
        key) := by
  rw [Work.failFlow, h]
  dsimp only
  rw [if_neg (by decide), if_neg (by decide)]
  refine congrArg (fun f => List.foldl f _ _) (funext fun v => funext fun j => ?_)
  cases v.job key.q j with
  | none => rfl
  | some b => exact if_congr (by rw [Bool.and_eq_true, decide_eq_true_eq]) rfl rfl

theorem Work.flowAgain_empty {w : Work} {key : FlowKey} (h : (w.sendFlow key).retained = []) : w.flowAgain key = w :=
  if_pos (List.isEmpty_iff.2 h)

theorem Work.flowAgain_retries {w : Work} {key : FlowKey} (h : (w.sendFlow key).retained ≠ []) (hr : (w.sendFlow key).resends < 8) :
    w.flowAgain key = w.resendAll key := by
  rw [Work.flowAgain, if_neg (mt List.isEmpty_iff.1 h), if_neg (Nat.not_le.2 hr)]

theorem Work.flowAgain_fails {w : Work} {key : FlowKey} (h : (w.sendFlow key).retained ≠ []) (hr : 8 ≤ (w.sendFlow key).resends) :
    w.flowAgain key = w.failFlow key := by
  rw [Work.flowAgain, if_neg (mt List.isEmpty_iff.1 h), if_pos hr]

/-! A flow at its destination (R285, R286). -/

theorem Work.ackFlow_unicast {key : FlowKey} (h : key.mcast = false) (w : Work) :
    w.ackFlow key = (w.setRecv key { w.recvFlow key with delivered := 0 }).sendLoose key.q
      { mkPkt key.peer 0 0x04 0 [] with
        bestEffort := key.bestEffort, seq := (w.recvFlow key).e, held := (w.recvFlow key).heldWrite.isSome } none := by
  rw [Work.ackFlow, h]
  dsimp only
  rw [Work.sendAck, h, if_neg (by decide), if_neg (by decide), beq_self_eq_true, Bool.and_true]
  rfl

theorem Work.sendNak_unicast {key : FlowKey} (h : key.mcast = false) (w : Work) (e : Word) :
    w.sendAck key 0x05 e 0 false = w.sendLoose key.q { mkPkt key.peer 0 0x05 0 [] with bestEffort := key.bestEffort, seq := e } none := by
  rw [Work.sendAck, h, if_neg (by decide)]
  rfl

/-! How a packet for this device comes to its row (R276, R361). -/

/-- A packet for this device reaches what it is for, by a port or from the device itself. -/
theorem State.takePacket_of_comes {s : State} {p : Fin 32} {a : RxPkt} {q : Fin 8} {w1 : Work} (hc : s.w.Comes p a q w1)
    {here : Fin 8 → Work → Work} {act : Work → Work}
    (h : (w1.port p.val).isActive = true → (w1.port p.val).assigned = true → (w1.port p.val).part = q → act w1 = here q w1) :
    s.takePacket p a here act = { s with w := (here q w1).settleHold } := by
  have found := hc.found
  rw [State.takePacket]
  obtain ⟨loop, rfl⟩ | ⟨loop, active, assigned, part, tag, cut, rfl⟩ := hc
  · rw [loop]; rfl
  · rw [loop]
    show s.byLink p a _ = _
    rw [State.byLink, if_neg (by rw [active]; decide), if_pos tag, State.onW, Work.fromLink, if_neg (by rw [cut]; decide),
      h (by rw [found.isActive, active]) (by rw [found.assigned, assigned]) (by rw [found.part, part])]

theorem Work.Found.address {w w1 : Work} (h : w.Found w1) : w1.time.address = w.time.address :=
  congrArg TimeSt.address ((congrArg Work.time h.eq).trans rfl)

/-- An ACK or NAK for this device reaches its flow's source. -/
theorem State.ackArrive_of_comes {s : State} {p : Fin 32} {a : RxPkt} {q : Fin 8} {w1 : Work} (hc : s.w.Comes p a q w1)
    (hd : a.pkt.dest = s.w.time.address) : s.ackArrive p a = { s with w := (w1.ackHere q p a.pkt).settleHold } := by
  refine State.takePacket_of_comes hc fun active assigned part => ?_
  rw [Work.ackByPort, if_neg (by rw [active, assigned]; decide), if_pos (by rw [hd, hc.found.address]), part]

/-! A flow reset (R286). -/

/-- What a reset leaves of a flow: what was held for it is discarded, and its room is given back. -/
def Work.afterReset (w : Work) (q : Fin 8) (k : Pkt) : Work :=
  let f := w.recvFlow (pktFlowIn k q)
  let v := ((f.early.filterMap fun x => x.hold).foldl Work.giveBack w).setRecv (pktFlowIn k q)
    { f with e := k.seq, early := [], nakDue := false, heldWrite := none, delivered := 0 }
  { v with heldWrites := v.heldWrites.filter fun (h : HeldWrite) => !decide (h.q = q ∧ f.heldWrite = some (h.port, h.pkt)) }

/-- Without reductions, that is all. -/
theorem Work.resetFlow_eq {w : Work} {k : Pkt} (hm : k.mcast = false) (hr : w.red.ctxs = []) (q : Fin 8) : w.resetFlow q k = w.afterReset q k := by
  have back (l : List RxHold) : (l.foldl Work.giveBack w).red = w.red :=
    (congrArg Work.red (Work.Quiet.foldl (fun w h => Work.Quiet.giveBack w h) l w).eq).trans rfl
  refine (if_neg (by rw [hm]; decide)).trans ?_
  show List.foldl _ _ (List.foldl Work.giveBack w _).red.ctxs = _
  rw [back, hr]
  rfl

theorem Work.resetByPort_unicast {w : Work} {p : Fin 32} {k : Pkt} (hm : k.mcast = false) (hd : k.dest = w.time.address)
    (ha : (w.port p.val).isActive = true) (hs : (w.port p.val).assigned = true) : w.resetByPort p k = w.resetFlow (w.port p.val).part k := by
  rw [Work.resetByPort, if_neg (by rw [ha, hs]; decide), if_neg (by rw [hm, decide_eq_false (not_not_intro hd)]; decide), if_neg (by rw [hm]; decide)]

/-! A packet on its way (R276, R364). -/

section
variable {s : State} {p : Fin 32} {a : RxPkt}

theorem State.byLink_tagged (ha : (s.w.port p.val).isActive = true) (ht : s.w.tagOk p.val a = true) (act : Work → Work) :
    s.byLink p a act = { s with w := s.w.fromLink p a act } := by
  rw [State.byLink, if_neg (by rw [ha]; decide), if_pos ht]
  rfl

theorem State.byLink_untagged (ha : (s.w.port p.val).isActive = true) (ht : s.w.tagOk p.val a = false) (act : Work → Work) :
    s.byLink p a act = s.authFail p a := by
  rw [State.byLink, if_neg (by rw [ha]; decide), if_neg (Bool.eq_false_iff.1 ht)]

theorem State.byLink_inactive (ha : (s.w.port p.val).isActive = false) (act : Work → Work) :
    s.byLink p a act = if (s.w.port p.val).assigned then s.noteFail p else s := by
  rw [State.byLink, if_pos (by rw [ha]; rfl)]

end

/-- A packet that is not for this device is on its way. -/
theorem exec_packetForward {s : State} {p : Fin 32} {rx : RxPkt} (h : rx.pkt.mcast = true ∨ rx.pkt.dest ≠ s.w.time.address) (ev : MemEvent) :
    exec (.packetForward p rx ev) s = .next (s.byLink p rx fun w => w.arrive p rx.pkt ev) := by
  refine congrArg Host.Outcome.next (if_pos ?_)
  rw [Bool.or_eq_true, decide_eq_true_eq]
  exact h

theorem exec_packetForward_here {s : State} {p : Fin 32} {rx : RxPkt} (hm : rx.pkt.mcast = false) (hd : rx.pkt.dest = s.w.time.address)
    (ev : MemEvent) : exec (.packetForward p rx ev) s = .next s := by
  refine congrArg Host.Outcome.next (if_neg ?_)
  rw [hm, decide_eq_false (not_not_intro hd)]
  decide

/-- A grace window of a port is open (R395). -/
def Port.InGrace (y : Port) (now : Word) : Prop := ∃ e, y.graceEnd = some e ∧ now.toNat < e.toNat

theorem Port.inGrace_iff (y : Port) (now : Word) :
    (match y.graceEnd with | some e => decide (now.toNat < e.toNat) | none => false) = true ↔ y.InGrace now := by
  unfold Port.InGrace
  cases y.graceEnd <;> simp

/-- A failed tag is counted. -/
def Work.countFail (w : Work) (p : Fin 32) : Work := w.updPort p.val fun x => { x with authFails := satAdd x.authFails 1 }

/-- A failed tag is logged with a partition, and counted there. -/
def Work.tagAlarm (w : Work) (p : Fin 32) (q : Fin 8) : Work :=
  (w.logEv (portUnit p.val) 0x04FF 4 (partByte q) p.val).updPart q fun x => { x with tagFails := satAdd x.tagFails 1 }

theorem State.noteFail_grace {s : State} {p : Fin 32} (h : (s.w.port p.val).InGrace s.w.time.ftime) :
    s.noteFail p = { s with
      w := s.w.countFail p, ctl := { s.ctl with scrub := { s.ctl.scrub with graceDrops := satAdd s.ctl.scrub.graceDrops 1 } } } :=
  if_pos ((Port.inGrace_iff ..).2 h)

theorem State.noteFail_alarm {s : State} {p : Fin 32} (h : ¬(s.w.port p.val).InGrace s.w.time.ftime) :
    s.noteFail p = { s with w := (s.w.countFail p).tagAlarm p (s.w.port p.val).part } := by
  have part : ((s.w.countFail p).port p.val).part = (s.w.port p.val).part := by rw [Work.countFail, Work.port_updPort_same]
  refine (if_neg (mt (Port.inGrace_iff ..).1 h)).trans ?_
  show ({ s with w := (s.w.countFail p).linkAlarm p } : State) = _
  rw [Work.linkAlarm, part]
  rfl

/-- What a packet takes and gives back of its port's buffer leaves the port's partition and grace window, and the time. -/
theorem Work.settled_takeRoom (w : Work) (p : Fin 32) (a : RxPkt) :
    ((w.takeRoom p a).settleHold.port p.val).part = (w.port p.val).part ∧
      ((w.takeRoom p a).settleHold.port p.val).graceEnd = (w.port p.val).graceEnd ∧ (w.takeRoom p a).settleHold.time = w.time := by
  have given : (w.takeRoom p a).unhand.Quiet (w.takeRoom p a).settleHold := .giveRoom ..
  have port : ((w.takeRoom p a).unhand.port p.val).part = (w.port p.val).part ∧ ((w.takeRoom p a).unhand.port p.val).graceEnd = (w.port p.val).graceEnd := by
    show ((w.takeRoom p a).port p.val).part = _ ∧ ((w.takeRoom p a).port p.val).graceEnd = _
    unfold Work.takeRoom
    split
    · exact ⟨rfl, rfl⟩
    · have inHand (v : Work) (h : Option RxHold) : (v.inHand h).port p.val = v.port p.val := rfl
      rw [inHand, Work.port_updPort_same]
      exact ⟨rfl, rfl⟩
  exact ⟨(given.keeps p.val Port.part).trans port.1, (given.keeps p.val Port.graceEnd).trans port.2,
    given.time.trans ((congrArg Work.time (Work.Found.takeRoom w p a).eq).trans rfl)⟩

/-- A packet of another device goes on by its port's partition. -/
theorem Work.arrive_onward {w : Work} {p : Fin 32} {k : Pkt} (ha : (w.port p.val).isActive = true) (hs : (w.port p.val).assigned = true)
    (hm : k.mcast = false) (hd : k.dest ≠ w.time.address) (ev : MemEvent) : w.arrive p k ev = w.forward (w.port p.val).part k none := by
  rw [Work.arrive, if_neg (by rw [ha, hs]; decide), if_neg (by rw [hm]; decide), if_neg hd]

section
variable {w : Work} {q : Fin 8} {k : Pkt}

theorem Work.forward_spent (h : 7 ≤ k.hops.toNat) : w.forward q k none =
    w.logEv (unitId 2 0 0xFF) 0x04FF 1 (partByte q) (k.dest.toNat + k.src.toNat * 2 ^ 16 + k.job.toNat * 2 ^ 32) := if_pos h

theorem Work.forward_unrouted (h : k.hops.toNat < 7) (hr : (w.route q k.dest).valid = false) : w.forward q k none = w :=
  (if_neg (Nat.not_le.2 h)).trans (if_pos (by rw [hr]; rfl))

theorem Work.forward_routed (h : k.hops.toNat < 7) (hr : (w.route q k.dest).valid = true) : w.forward q k none =
    match w.choosePort q k.dest (!Pkt.scheduled k) (k.hops + 1).toNat with
    | some n => w.unhand.transmit (portFin n) ⟨{ k with hops := k.hops + 1 }, w.fab.hold⟩
    | none => w.countNoRoute :=
  (if_neg (Nat.not_le.2 h)).trans (if_neg (by rw [hr]; decide))

end

/-! Slot windows (R281). -/

theorem Work.toWindow_eq (w : Work) (p : Fin 32) (start : Nat) : ∃ t, w.toWindow p start = { w with time := t } := by
  unfold Work.toWindow Work.advance
  split
  · exact ⟨_, rfl⟩
  · exact ⟨w.time, rfl⟩

theorem Work.port_toWindow (w : Work) (p : Fin 32) (start i : Nat) : (w.toWindow p start).port i = w.port i := by
  obtain ⟨t, eq⟩ := w.toWindow_eq p start
  rw [eq]
  rfl

theorem Work.part_toWindow (w : Work) (p : Fin 32) (start : Nat) (q : Fin 8) : (w.toWindow p start).part q = w.part q := by
  obtain ⟨t, eq⟩ := w.toWindow_eq p start
  rw [eq]
  rfl

theorem Work.sendHolds_eq (w : Work) (p : Fin 32) (n : Nat) :
    w.sendHolds p n = (List.range n).foldl (fun (y : Work) _ => y.sendFlit p 1 0 31 []) w := by
  induction n generalizing w with
  | zero => rfl
  | succ n ih => rw [Work.sendHolds, ih, List.range_succ_eq_map, List.foldl_cons, List.foldl_map]

/-- The rest of a window is held. -/
theorem Work.holdWindow_eq (w : Work) (p : Fin 32) (k gone len : Nat) :
    w.holdWindow p k gone len = (List.range (len - gone)).foldl (fun (y : Work) _ => y.sendFlit p 1 0 31 [])
      ((w.flushTail p).updPort p.val fun y => { y with windowUsed := y.windowUsed.set 0 k len }) := Work.sendHolds_eq ..

/-- A head of a slot's queue that leaves in its window. -/
def Port.unqueued (k : Nat) (l : List Queued) (used len : Nat) (y : Port) : Port :=
  { y with
    slotQ := y.slotQ.set [] k l, windowUsed := y.windowUsed.set 0 k used
    misses := if used = len ∧ l ≠ [] then satAdd y.misses 1 else y.misses }

section
variable {w : Work} {p : Fin 32} {k start len : Nat} (hw : (w.port p.val).window w.frame k = some (start, len))
include hw

theorem Work.windowSend_shut (h : (w.port p.val).isActive = false ∨ len ≤ (w.toWindow p start).windowGone p k start) : w.windowSend p k = w := by
  rw [Work.windowSend, hw]
  refine if_pos ?_
  rw [Work.port_toWindow, Bool.or_eq_true, Bool.not_eq_true', decide_eq_true_eq]
  exact h

section
variable (ha : (w.port p.val).isActive = true) (hg : (w.toWindow p start).windowGone p k start < len)
include ha hg

/-- An open window of an active port. -/
theorem Work.windowSend_open : w.windowSend p k =
    match (w.port p.val).slotQ.get [] k with
    | [] => (w.toWindow p start).holdWindow p k ((w.toWindow p start).windowGone p k start) len
    | x :: rest =>
      if (w.part (w.port p.val).part).paused then (w.toWindow p start).holdWindow p k ((w.toWindow p start).windowGone p k start) len
      else if (w.toWindow p start).windowGone p k start + (w.port p.val).charge x.pkt ≤ len ∧ (w.port p.val).replayRoom x.pkt = true then
        (((w.toWindow p start).updPort p.val fun y =>
          y.unqueued k rest ((w.toWindow p start).windowGone p k start + (w.port p.val).charge x.pkt) len).putPacket p x.pkt).giveRoom x.hold
      else ((w.toWindow p start).updPort p.val fun y => { y with misses := satAdd y.misses 1 }).holdWindow p k
        ((w.toWindow p start).windowGone p k start) len := by
  rw [Work.windowSend, hw]
  refine (if_neg ?_).trans ?_
  · rw [Work.port_toWindow, Bool.or_eq_true, Bool.not_eq_true', decide_eq_true_eq, ha]
    rintro (h | h)
    · cases h
    · exact Nat.not_lt.2 h hg
  · rw [Work.port_toWindow, Work.part_toWindow]
    have late (n : Nat) (l : List Queued) (y : Port) :
        (if (decide (n = len) && !l.isEmpty) = true then satAdd y.misses 1 else y.misses) =
          if n = len ∧ l ≠ [] then satAdd y.misses 1 else y.misses := by
      refine if_congr ?_ rfl rfl
      rw [Bool.and_eq_true, decide_eq_true_eq, Bool.not_eq_true', List.isEmpty_eq_false_iff]
    simp only [late]
    rfl

/-- A window with nothing to send, and that of a paused partition. -/
theorem Work.windowSend_idle (h : (w.port p.val).slotQ.get [] k = [] ∨ (w.part (w.port p.val).part).paused = true) :
    w.windowSend p k = (w.toWindow p start).holdWindow p k ((w.toWindow p start).windowGone p k start) len := by
  rw [Work.windowSend_open hw ha hg]
  rcases h with h | h
  · rw [h]
  · split
    · rfl
    · exact if_pos h

end
end

end Sys2Proof.Machine
end

section
/-! O50: the rows of flows, of packets on their way, and of slot windows. -/

namespace Sys2Proof.Machine

theorem exec_flowTimeout {s : State} {key : FlowKey} {w : Work} (h : (if (s.w.sendFlow key).held then s.w else s.w.flowAgain key) = w) :
    exec (.flowTimeout key) s = .next { s with w := w } := by
  rw [← h]
  rfl

theorem exec_flowAckEmit {s : State} {key : FlowKey} {w : Work} (h : (if (s.w.recvFlow key).delivered = 0 then s.w else s.w.ackFlow key) = w) :
    exec (.flowAckEmit key) s = .next { s with w := w } := by
  rw [← h]
  rfl

theorem exec_flowNakEmit {s : State} {key : FlowKey} {w : Work}
    (h : (if (s.w.recvFlow key).nakDue then (s.w.setRecv key { s.w.recvFlow key with nakDue := false }).sendAck key 0x05 (s.w.recvFlow key).e 0 false
      else s.w) = w) : exec (.flowNakEmit key) s = .next { s with w := w } := by
  rw [← h]
  rfl

theorem exec_scheduledWindowSend {s : State} {p : Fin 32} {slot : Fin 64} {w : Work} (h : s.w.windowSend p slot.val = w) :
    exec (.scheduledWindowSend p slot) s = .next { s with w := w } := by
  rw [← h]
  rfl

/-- Settles O50: a flow's rows are the model's own functions, opened once for a flow that is not multicast; a packet comes as in O49, or goes on by
its port; a window is followed through its cases. -/
theorem flowAndForwardResults : Obligations.FlowAndForwardResults := by
  unfold Obligations.FlowAndForwardResults
  intro p slot rx ev fk q s w1 sets settled k key fo po below gone again fails repeats
  have again_ (ends : Work → Prop) (w : Work) (x : FlowKey) (h : ends (w.flowAgain x)) : repeats ends w x := by
    refine ⟨fun none_ => ?_, fun some_ few => ?_, fun some_ many unicast => ?_⟩
    · rwa [Work.flowAgain_empty none_] at h
    · rw [Work.flowAgain_retries some_ few, Work.resendAll, Work.routeLost_eq] at h
      exact h
    · rw [Work.flowAgain_fails some_ many, Work.failFlow_unicast unicast] at h
      exact h
  refine ⟨fun hk hm hd hc => ?ack, fun hk hd hc => ?nak, ⟨fun held => ?held, fun free => ?timeout⟩,
    ⟨fun none_ => ?ackNone, fun none_ => ?nakNone, fun hm hn => ?ackEmit, fun hm hn => ?nakEmit⟩, fun hk hm hd hr hc => ?reset,
    fun hm hd => ?here, fun ha hs => ?unassigned, fun onward failed => ?failed, fun ha hs hm hd ht => ?forward, fun hw => ?noWindow,
    fun start len hw => ?window⟩
  case ack =>
    have arrives : exec (.ackPacket p rx) s = .next (s.ackArrive p rx) := congrArg Host.Outcome.next (if_pos hk)
    have taken : w1.ackHere q p k = w1.takeAck key p k := if_neg (by rw [hk]; decide)
    rw [State.ackArrive_of_comes hc hd] at arrives
    refine arrives.trans ?_
    have unicast : key.mcast = false := hm
    show Host.Outcome.next ({ s with w := (w1.ackHere q p k).settleHold } : State) = _
    rw [taken, Work.takeAck_unicast unicast, hc.found.sendFlow]
    rfl
  case nak =>
    have arrives : exec (.flowNakPacket p rx) s = .next (s.ackArrive p rx) := congrArg Host.Outcome.next (if_pos hk)
    have taken : w1.ackHere q p k = w1.flowAgain key := if_pos hk
    rw [State.ackArrive_of_comes hc hd] at arrives
    refine again_ _ w1 key (arrives.trans ?_)
    show Host.Outcome.next ({ s with w := (w1.ackHere q p k).settleHold } : State) = _
    rw [taken]
  case held => exact exec_flowTimeout (if_pos held)
  case timeout => exact again_ _ s.w fk (exec_flowTimeout (if_neg (Bool.eq_false_iff.1 free)))
  case ackNone => exact exec_flowAckEmit (if_pos none_)
  case nakNone => exact exec_flowNakEmit (if_neg (Bool.eq_false_iff.1 none_))
  case ackEmit => exact exec_flowAckEmit ((if_neg hn).trans (Work.ackFlow_unicast hm _))
  case nakEmit => exact exec_flowNakEmit ((if_pos hn).trans (Work.sendNak_unicast hm _ _))
  case reset =>
    have found := hc.found
    have red : w1.red.ctxs = [] := by rw [← hr]; exact (congrArg (fun w : Work => w.red.ctxs) found.eq).trans rfl
    have arrives : exec (.flowReset p rx) s = .next (s.takePacket p rx (fun q w => w.resetFlow q k) fun w => w.resetByPort p k) :=
      congrArg Host.Outcome.next (if_pos hk)
    rw [State.takePacket_of_comes hc fun active assigned part => by
      rw [Work.resetByPort_unicast hm (by rw [found.address]; exact hd) active assigned, part], Work.resetFlow_eq hm red] at arrives
    refine arrives.trans ?_
    rw [Work.afterReset, found.recvFlow]
  case here => exact exec_packetForward_here hm hd ev
  case unassigned =>
    by_cases onward : k.mcast = true ∨ k.dest ≠ s.w.time.address
    · rw [exec_packetForward onward, State.byLink_inactive ha, if_neg (Bool.eq_false_iff.1 hs)]
    · rw [not_or, not_not, Bool.not_eq_true] at onward
      exact exec_packetForward_here onward.1 onward.2 ev
  case failed =>
    intro y grace
    have noted (z : Work) (hz : (if po.isActive then (s.w.takeRoom p rx).settleHold else s.w) = z)
        (runs : exec (.packetForward p rx ev) s = .next (({ s with w := z } : State).noteFail p)) (part : (z.port p.val).part = po.part)
        (graceEnd : (z.port p.val).graceEnd = po.graceEnd) (time : z.time = s.w.time) :
        (grace → exec (.packetForward p rx ev) s = .next { s with
          w := y, ctl := { s.ctl with scrub := { s.ctl.scrub with graceDrops := satAdd s.ctl.scrub.graceDrops 1 } } }) ∧
        (¬grace → sets (.packetForward p rx ev) (y.tagAlarm p po.part)) := by
      have counted : y = z.countFail p := by rw [← hz]; rfl
      have open_ : (z.port p.val).InGrace z.time.ftime ↔ grace := by rw [Port.InGrace, graceEnd, time]
      rw [counted]
      refine ⟨fun g => runs.trans (congrArg Host.Outcome.next (State.noteFail_grace (open_.2 g))), fun g => ?_⟩
      refine runs.trans (congrArg Host.Outcome.next ((State.noteFail_alarm (mt open_.1 g)).trans ?_))
      rw [part]
    rcases failed with ⟨ha, ht⟩ | ⟨ha, hs⟩
    · obtain ⟨part, graceEnd, time⟩ := s.w.settled_takeRoom p rx
      refine noted _ (if_pos ha) ?_ part graceEnd time
      rw [exec_packetForward onward, State.byLink_untagged ha ht]
      rfl
    · refine noted s.w (if_neg (Bool.eq_false_iff.1 ha)) ?_ rfl rfl rfl
      rw [exec_packetForward onward, State.byLink_inactive ha, if_pos hs]
  case forward =>
    intro y k1
    have found : s.w.Found y := (Work.Found.takeRoom s.w p rx).trans (.updPort _ _ _ fun _ => ⟨rfl, rfl, rfl, rfl⟩)
    have onward : y.arrive p k ev = y.forward po.part k none := by
      rw [Work.arrive_onward ((found.isActive _).trans ha) ((found.assigned _).trans hs) hm (by rw [found.address]; exact hd), found.part]
    have comes {x : Work} (hx : (if po.cuts rx then y else y.forward po.part k none) = x) : settled (.packetForward p rx ev) x := by
      have runs := exec_packetForward (s := s) (p := p) (.inr hd) ev
      rw [State.byLink_tagged ha ht, Work.fromLink] at runs
      refine runs.trans ?_
      rw [← hx, ← onward]
    refine ⟨fun hcut => comes (if_pos hcut), fun hcut spent => ⟨_, comes ((if_neg (Bool.eq_false_iff.1 hcut)).trans (Work.forward_spent spent))⟩,
      fun hcut few unrouted => comes ((if_neg (Bool.eq_false_iff.1 hcut)).trans (Work.forward_unrouted few unrouted)),
      fun hcut few routed o ho => comes ((if_neg (Bool.eq_false_iff.1 hcut)).trans ((Work.forward_routed few routed).trans ?_))⟩
    rw [ho]
    cases o <;> rfl
  case noWindow => exact exec_scheduledWindowSend (by rw [Work.windowSend, hw])
  case window =>
    intro w passed gone rest
    have gone_eq : w.windowGone p slot.val start = gone := by
      show Max.max (((s.w.toWindow p start).port p.val).windowUsed.get 0 slot.val) passed = _
      rw [Work.port_toWindow]
    have held (v : Work) : v.holdWindow p slot.val gone len = rest v (len - gone) := v.holdWindow_eq p slot.val gone len
    refine ⟨fun h => ?shut, fun ha hg h => ?idle, fun x l hq hn ha hg => ?head⟩
    case shut => exact exec_scheduledWindowSend (Work.windowSend_shut hw (by rw [gone_eq]; exact h))
    case idle =>
      refine exec_scheduledWindowSend ((Work.windowSend_idle hw ha (by rw [gone_eq]; exact hg) h).trans ?_)
      rw [gone_eq]
      exact held w
    case head =>
      intro fits
      have opened : s.w.windowSend p slot.val = _ := Work.windowSend_open hw ha (by rw [gone_eq]; exact hg)
      rw [hq, gone_eq] at opened
      replace opened := opened.trans (if_neg (Bool.eq_false_iff.1 hn))
      refine ⟨fun hf => exec_scheduledWindowSend (opened.trans (if_pos hf)), fun hf => ?_⟩
      exact exec_scheduledWindowSend ((opened.trans (if_neg hf)).trans (held _))

end Sys2Proof.Machine
end
